-- ==== Sys2Proof/Word.lean ====
section
/-! DEFINITION. The plain words of the BX9224 model: the byte, and nothing else that a test could show wrong.
Field codecs (little-endian byte lists, signed fields) stand in Machine/Operands.lean. -/

namespace Sys2Proof

/-- One byte of a slot, a bulk window, an event entry or a frame. -/
abbrev Byte := BitVec 8

end Sys2Proof
end

