-- ==== Sys2Proof/Config.lean ====
section
/-! DEFINITION. What one part fixes and the spec leaves open (constants with no body: no proof can see a value), and the
FREE VALUES: opaque functions of a draw number that the state counts (State.draws). Log entries 2 and 3. -/

namespace Sys2Proof.Config

/-- A free natural number: the value of the n-th draw. Whoever uses it bounds it as the spec says. -/
opaque freeNat : Nat → Nat
/-- A free byte: contents the spec calls undefined or never gives. -/
opaque freeByte : Nat → Byte
/-- A free choice of the device, such as R513's outcome of a short SYS_RESET_N pulse. -/
opaque freeBit : Nat → Bool

/-- The device serial number (SYS_GET_INFO SERIAL, Table 2-20): one value per part. -/
opaque serial : Nat
/-- The result of a computation over keys or contents that the spec names but whose bits no step of this model can give
(a CMAC, a signature, a certificate): one free byte per position and draw. -/
opaque digestByte : Nat → Nat → Byte

/-- SHA-384 (R520): a function of the spec's named standard, not written out here. -/
opaque sha384 : List Byte → List Byte
/-- ECDSA P-384 verification of (public key, digest, signature) (R520). -/
opaque ecdsaOk : List Byte → List Byte → List Byte → Bool
/-- The hash of the Uslia key of a ROM key slot (R520). -/
opaque romKeyHash : Nat → List Byte
/-- The Touchmark certificate chain in its write-protected flash region: its length and bytes (R518, R524). -/
opaque certLength : Nat
opaque certByte : Nat → Byte
/-- The device's extended address (Table 3-17, FIELD_CONFIG response): one value per part. -/
opaque extAddress : Nat
/-- The internal delay of a port or radio chain before any calibration has given one (R58), in units of 2^-16 ns, by calibration key. -/
opaque chainDelay : Nat → Int
/-- The port that the Steward's PTP service pairs a wired port with for transparent forwarding (R61), if any: no command sets it (log entry 82). -/
opaque ptpPair : Nat → Option Nat
/-- The PCS lane position of a 25G BH port as a link comes up (Table 1-11), in units of 2^-16 ns, by draw. -/
opaque lanePosition : Nat → Int
/-- Does the secondary 20 MHz of a 40 MHz channel in 2.4 GHz lie above primary `n`, where both sides exist? No rule says (R184). -/
opaque secondaryAbove : Nat → Bool
/-- Air time in µs of a beacon of radio `r` where no plan of this model has told it: a plan repeated while the Steward computes none (R344). -/
opaque beaconUs : Nat → Nat
/-- The keystream of the device key under which the Ingot holds field key material (R264): by key entry and byte; the device key never leaves the key
store, and no rule gives the cipher. -/
opaque deviceStream : Nat → Nat → Byte
/-- Bytes of the deauthentication frame that WIDE_CLIENT_DEL sends (R271), beyond 26: no rule gives them. -/
opaque deauthBytes : Nat
/-- GUARD0 fused per part for each operating point, in mV, before the range of Table 13-2 is applied (R543). -/
opaque guard0 : Nat → Nat

end Sys2Proof.Config
end

