-- ==== Sys2Proof/Machine/Maps.lean ====
section
/-! DEFINITION. Finite maps and byte memories as sorted association lists: ONE canonical form (keys strictly rising), so
that equal contents are equal data. -/

namespace Sys2Proof.Machine

/-- The value stored under `k`, if any. -/
def Map.get? {α : Type} (m : List (Nat × α)) (k : Nat) : Option α :=
  match m with
  | [] => none
  | (j, v) :: r => if k = j then some v else Map.get? r k

/-- The value stored under `k`, or `d`. -/
def Map.getD {α : Type} (m : List (Nat × α)) (k : Nat) (d : α) : α := (Map.get? m k).getD d

/-- `m` with `v` stored under `k`, keys kept rising. -/
def Map.set {α : Type} (m : List (Nat × α)) (k : Nat) (v : α) : List (Nat × α) :=
  match m with
  | [] => [(k, v)]
  | (j, w) :: r =>
    if k < j then (k, v) :: (j, w) :: r
    else if k = j then (k, v) :: r
    else (j, w) :: Map.set r k v

/-- `m` without `k`. -/
def Map.erase {α : Type} (m : List (Nat × α)) (k : Nat) : List (Nat × α) := m.filter (fun e => e.1 ≠ k)

/-- `m` with `f` applied to the value under `k` (to `d` where none is stored). -/
def Map.modify {α : Type} (m : List (Nat × α)) (k : Nat) (d : α) (f : α → α) : List (Nat × α) :=
  Map.set m k (f (Map.getD m k d))

/-- Is `k` stored? -/
def Map.has {α : Type} (m : List (Nat × α)) (k : Nat) : Bool := (Map.get? m k).isSome

/-- `f` over every stored value. -/
def Map.mapVals {α : Type} (m : List (Nat × α)) (f : Nat → α → α) : List (Nat × α) := m.map (fun e => (e.1, f e.1 e.2))

/-- The canonical form of a map: keys strictly rising. -/
def Map.wf {α : Type} : List (Nat × α) → Bool
  | [] => true
  | [_] => true
  | (j, _) :: (k, v) :: r => decide (j < k) && Map.wf ((k, v) :: r)

/-- Element `k` of a fixed bank changed by `f`; a bank has no element beyond its size. -/
def Bank.modify {α : Type} {n : Nat} (v : Vector α n) (k : Nat) (f : α → α) : Vector α n :=
  if h : k < n then v.set k (f v[k]) else v

/-- A byte memory (a lane's bulk window, flash, an SRAM) is a map from address to byte. -/
abbrev Memory := List Host.Cell

/-- The canonical form of a memory. No entry can equal what an unlisted address reads as: that is a free byte
(Memory.read), so every listed byte is significant. -/
def Memory.wf (m : Memory) : Bool := Map.wf m

/-- The byte at `a`; contents that nothing has written, or that the spec calls undefined, are a free byte of draw `n`. -/
def Memory.read (n : Nat) (m : Memory) (a : Nat) : Byte := (Map.get? m a).getD (Config.freeByte (n + a))

/-- One byte written. -/
def Memory.write (m : Memory) (a : Nat) (b : Byte) : Memory := Map.set m a b

/-- Bytes written from `a` upward. -/
def Memory.writeList (m : Memory) (a : Nat) : List Byte → Memory
  | [] => m
  | b :: r => Memory.writeList (Memory.write m a b) (a + 1) r

/-- `len` bytes read from `a`. -/
def Memory.readList (n : Nat) (m : Memory) (a len : Nat) : List Byte :=
  (List.range len).map (fun i => Memory.read n m (a + i))

end Sys2Proof.Machine
end

