-- ==== Sys2Proof/Syntax/Basic.lean ====
section
/-! DEFINITION. Operand types that commands of every chapter share: the stored timestamp, a Steward command as its
sender writes it into a slot, an in-band frame. -/

namespace Sys2Proof

/-- A stored timestamp (R27, Table 1-1): FRAC in units of 2^-16 ns, NS since the PTP epoch, and the time epoch. -/
structure Stamp where
  frac : Nat := 0
  ns : Nat := 0
  epoch : Nat := 0
deriving DecidableEq, Repr, Inhabited

/-- A Steward command as its sender wrote it into slot `slot` of lane `lane` (R100, Table 2-5). `body` holds the slot's
bytes from offset 16; `length` is the LENGTH field. Bytes of `body` beyond LENGTH are never read (R120). `bulk` are the bytes that a sender on
lane 0 or 1 wrote into the command's bulk region before its doorbell (Table 2-7); on lanes 2 and 3 they come in KIND 8 frames. -/
structure Cmd where
  lane : Nat
  slot : Nat
  tag : Nat := 0
  length : Nat := 16
  flags : Nat := 0
  ifver : Nat := 0x42
  bulkOff : Nat := 0
  bulkLen : Nat := 0
  body : List Byte := []
  bulk : List Byte := []
deriving DecidableEq, Repr

/-- A frame that reaches the device on lane 2 or 3 (R93, Tables 2-3 and 2-4), with the facts its acceptance is judged by:
where it was addressed and arrived, whether its TAG (lane 2) or CRC-16 (lane 3) verifies. -/
structure InbandFrame where
  lane : Nat
  seq : Nat := 0
  slot : Nat := 0
  /-- addressed to the device's management MAC address -/
  toMgmtMac : Bool := true
  /-- the VLAN it arrived on; none when untagged -/
  vlan : Option Nat := none
  /-- it arrived on the host CPU port -/
  onCpuPort : Bool := false
  /-- lane 2: TAG verifies with the lane 2 key; lane 3: the CRC-16 is right -/
  tagOk : Bool := true
  body : List Byte := []
deriving DecidableEq, Repr

/-- One offset measurement as a time source yields it (R39, Table 1-7). For SRC 1 the four terms of θ are given; for
SRC 2 `theta` is the Steward's own value. Units of 2^-16 ns. `epoch` is the epoch the measurement was stamped in. -/
structure Measurement where
  src : Nat
  port : Nat := 0
  t1 : Int := 0
  t2 : Int := 0
  correction : Int := 0
  meanPathDelay : Int := 0
  theta : Int := 0
  epoch : Nat := 0
deriving DecidableEq, Repr

end Sys2Proof
end

