-- ==== Sys2Proof/Machine/Operands.lean ====
section
/-! DEFINITION. Field codecs and the field tables of commands: little-endian fields (R13), signed fields, and the one
validator that judges every byte of a command (R17, R120). -/

namespace Sys2Proof.Machine

/-- `n` little-endian bytes of `v` (R13). -/
def le (n v : Nat) : List Byte :=
  match n with
  | 0 => []
  | n + 1 => BitVec.ofNat 8 v :: le n (v / 256)

/-- The number that little-endian bytes spell. -/
def leNat : List Byte → Nat
  | [] => 0
  | b :: r => b.toNat + 256 * leNat r

/-- Two's complement in `bits` bits. -/
def unsignedOf (bits : Nat) (i : Int) : Nat := (i % (2 ^ bits : Nat)).toNat

/-- The signed value of a `bits`-bit field. -/
def signedOf (bits v : Nat) : Int :=
  if v % 2 ^ bits < 2 ^ (bits - 1) then (v % 2 ^ bits : Nat) else ((v % 2 ^ bits : Nat) : Int) - (2 ^ bits : Nat)

/-- `n` little-endian bytes of a signed value. -/
def leInt (n : Nat) (i : Int) : List Byte := le n (unsignedOf (8 * n) i)

/-- A Boolean as a bit value. -/
def bit (b : Bool) : Nat := if b then 1 else 0

/-- Bit `i` of `v`. -/
def hasBit (v i : Nat) : Bool := v / 2 ^ i % 2 = 1

/-- Bits [hi:lo] of `v`. -/
def bitsOf (v hi lo : Nat) : Nat := v / 2 ^ lo % 2 ^ (hi - lo + 1)

/-- The set bits of `v` below `n`, rising. -/
def bitsSet (n v : Nat) : List Nat := (List.range n).filter (hasBit v)

/-- The mask whose set bits are the members of `l`. -/
def maskOf (l : List Nat) : Nat := l.foldl (fun a i => if hasBit a i then a else a + 2 ^ i) 0

end Sys2Proof.Machine

namespace Sys2Proof
open Machine

/-- The stored timestamp's 12 bytes (Table 1-1). -/
def Stamp.bytes (t : Stamp) : List Byte := le 2 t.frac ++ le 8 t.ns ++ le 1 t.epoch ++ [0]

/-- Byte at slot offset `o` of a command: header bytes are not fields; beyond LENGTH a field is taken as 0 (R120). -/
def Cmd.byteAt (c : Cmd) (o : Nat) : Byte :=
  if 16 ≤ o ∧ o < c.length then c.body.getD (o - 16) 0 else 0

/-- The `n` bytes at slot offset `o`. -/
def Cmd.bytesAt (c : Cmd) (o n : Nat) : List Byte := (List.range n).map (fun i => c.byteAt (o + i))

/-- The bytes that come with the command for its bulk region, inside the 64 KB window (R101, Table 2-2). -/
def Cmd.region (c : Cmd) : List Byte := c.bulk.take (min c.bulkLen (65536 - c.bulkOff))

/-- The unsigned field of `n` bytes at slot offset `o`. -/
def Cmd.u (c : Cmd) (o n : Nat) : Nat := leNat (c.bytesAt o n)

/-- The signed field of `n` bytes at slot offset `o`. -/
def Cmd.i (c : Cmd) (o n : Nat) : Int := signedOf (8 * n) (c.u o n)

/-- Bit `b` of the field of `n` bytes at slot offset `o`. -/
def Cmd.flag (c : Cmd) (o n b : Nat) : Bool := hasBit (c.u o n) b

end Sys2Proof

namespace Sys2Proof.Machine

/-- What values a field may hold. -/
inductive FieldKind where
  | any
  | zero
  | range (lo hi : Nat)
  | srange (lo hi : Int)
  /-- only the bits of the mask may be 1 -/
  | mask (m : Nat)
  | oneOf (vs : List Nat)
deriving DecidableEq, Repr

/-- One field of a command's table: slot offset, width in bytes, values allowed. -/
structure FieldSpec where
  off : Nat
  len : Nat
  kind : FieldKind
deriving DecidableEq, Repr

/-- Does the command's field hold an allowed value? -/
def FieldSpec.ok (f : FieldSpec) (c : Cmd) : Bool :=
  match f.kind with
  | .any => true
  | .zero => c.u f.off f.len = 0
  | .range lo hi => decide (lo ≤ c.u f.off f.len) && decide (c.u f.off f.len ≤ hi)
  | .srange lo hi => decide (lo ≤ c.i f.off f.len) && decide (c.i f.off f.len ≤ hi)
  | .mask m => (c.u f.off f.len) &&& m = c.u f.off f.len
  | .oneOf vs => vs.contains (c.u f.off f.len)

/-- The first offset at or after the table's last field that lies within LENGTH and holds a nonzero byte (R120). -/
def strayByte (c : Cmd) (tableEnd : Nat) : Option Nat :=
  ((List.range (c.length - tableEnd)).map (fun i => tableEnd + i)).find? (fun o => c.byteAt o ≠ 0)

/-- The end of a field table: the offset behind its last field, 16 where it has none. -/
def tableEnd (fs : List FieldSpec) : Nat := fs.foldl (fun a f => max a (f.off + f.len)) 16

/-- R17, R107, R120: DETAIL of the first field found wrong, none where every field is good. -/
def badField (fs : List FieldSpec) (c : Cmd) : Option Nat :=
  match fs.find? (fun f => !f.ok c) with
  | some f => some f.off
  | none => strayByte c (tableEnd fs)

/-- R100, Table 2-5: DETAIL of the first header field found wrong. A bad bulk region gives 0 (Table 2-8). -/
def badHeader (c : Cmd) : Option Nat :=
  if c.length < 16 ∨ c.length > 256 ∨ c.length % 4 ≠ 0 then some 2
  else if c.flags ≥ 4 then some 6
  else if hasBit c.flags 0 then
    if c.bulkOff % 64 ≠ 0 ∨ c.bulkLen = 0 ∨ c.bulkLen > 65536 ∨ c.bulkOff + c.bulkLen > 65536 then some 0 else none
  else if c.bulkOff ≠ 0 ∨ c.bulkLen ≠ 0 then some 0 else none

/-- Names for common field kinds, so that a field table reads like the manual's. -/
abbrev fAny (off len : Nat) : FieldSpec := { off, len, kind := .any }
abbrev fZero (off len : Nat) : FieldSpec := { off, len, kind := .zero }
abbrev fRange (off len lo hi : Nat) : FieldSpec := { off, len, kind := .range lo hi }
abbrev fSigned (off len : Nat) (lo hi : Int) : FieldSpec := { off, len, kind := .srange lo hi }
abbrev fMask (off len m : Nat) : FieldSpec := { off, len, kind := .mask m }
abbrev fOneOf (off len : Nat) (vs : List Nat) : FieldSpec := { off, len, kind := .oneOf vs }

/-- Round a rational `n / d` (d > 0) to the nearest integer, halves away from zero (R42). -/
def roundAway (n : Int) (d : Nat) : Int :=
  if n ≥ 0 then ((2 * n.toNat + d) / (2 * d) : Nat) else -(((2 * (-n).toNat + d) / (2 * d) : Nat) : Int)

/-- Clamp to [lo, hi]. -/
def clampInt (lo hi v : Int) : Int := if v < lo then lo else if v > hi then hi else v

/-! ### Sorting -/

/-- An element put before the first one that it may precede. -/
def insertBy {α : Type} (before : α → α → Bool) (x : α) : List α → List α
  | [] => [x]
  | y :: r => if before x y then x :: y :: r else y :: insertBy before x r

/-- A list in rising order; elements that may precede each other keep their order. -/
def sortBy {α : Type} (before : α → α → Bool) (l : List α) : List α := l.foldr (insertBy before) []

end Sys2Proof.Machine
end

