-- ==== Sys2Proof/Machine/Flags.lean ====
section
/-! DEFINITION. Counters and sticky flags (R19), the RC and W1C access codes (R15). -/

namespace Sys2Proof.Machine

/-- A counter of `bits` bits incremented: it saturates at its maximum (R19). -/
def satInc (bits v : Nat) : Nat := if v + 1 < 2 ^ bits then v + 1 else 2 ^ bits - 1

/-- A counter advanced by `k`, saturating (R19). -/
def satAdd (bits v k : Nat) : Nat := if v + k < 2 ^ bits then v + k else 2 ^ bits - 1

/-- A table of counters keyed by number: the 4-byte counter `k` incremented (R19). -/
def tally (m : List (Nat × Nat)) (k : Nat) : List (Nat × Nat) := Map.modify m k 0 (satInc 32)

/-- The 4-byte counter `k` advanced by `n`. -/
def tallyBy (m : List (Nat × Nat)) (k n : Nat) : List (Nat × Nat) := Map.modify m k 0 (fun v => satAdd 32 v n)

/-- The value of counter `k`. -/
def tallyOf (m : List (Nat × Nat)) (k : Nat) : Nat := Map.getD m k 0

/-- Counters `lo` to `hi` in steps of 4 as response bytes, in table order. -/
def tallyBytes (m : List (Nat × Nat)) (lo n : Nat) : List Byte :=
  ((List.range n).map (fun i => le 4 (tallyOf m (lo + 4 * i)))).flatten

/-- W1C (R15): each 1 written clears the matching bit. -/
def w1c {n : Nat} (old written : BitVec n) : BitVec n := old &&& ~~~written

/-- A 32-bit word with bit `i` set. -/
def setBit32 (w : BitVec 32) (i : Nat) : BitVec 32 := w ||| BitVec.ofNat 32 (2 ^ i)

/-- A count-down that stops at 0, `k` steps at once. -/
def countDown (v k : Nat) : Nat := v - k

/-- The register value that fields (offset, value) spell. -/
def fieldsWord (fs : List (Nat × Nat)) : Nat := fs.foldl (fun a f => a + f.2 * 2 ^ f.1) 0

end Sys2Proof.Machine
end

