-- ==== Sys2Proof/Syntax/Frames.lean ====
section
/-! DEFINITION. Frames as the block sees them: the fields its rules test, never the payload; ring descriptors. -/

namespace Sys2Proof

/-- An outer VLAN tag (R381). -/
structure VTag where
  tpid : Nat := 0x8100
  pcp : Nat := 0
  dei : Bool := false
  vid : Nat := 0
deriving DecidableEq, Repr

/-- The IP header fields that routing, classes and traps test (R383, R385, R391 to R393). Addresses are numbers in network
order, of 32 or 128 bits. -/
structure IpHeader where
  v6 : Bool := false
  src : Nat := 0
  dst : Nat := 0
  proto : Nat := 17
  sport : Nat := 0
  dport : Nat := 0
  /-- a fragment that is not the first -/
  laterFragment : Bool := false
  dscp : Nat := 0
  ttl : Nat := 64
  checksumOk : Bool := true
  /-- IPv4 options, or an IPv6 hop-by-hop header -/
  options : Bool := false
  /-- ICMPv6 type, where the packet is ICMPv6 -/
  icmp6 : Option Nat := none
deriving DecidableEq, Repr

/-- What the timestamp units read of a PTP message (R60, R61). -/
structure PtpMsg where
  event : Bool := true
  /-- a Sync that the Steward's PTP service marked one-step -/
  oneStepSync : Bool := false
  sequenceId : Nat := 0
  /-- an event message that the Steward's PTP service marked for stamping (R56) -/
  marked : Bool := false
  /-- carried over UDP on IPv4 or IPv6, not over EtherType 0x88F7 -/
  overUdp : Bool := false
deriving DecidableEq, Repr

/-- What a wide radio tests of a management frame that the Steward sends: a probe response (R235), an announcement of a channel switch (R197), a robust
management frame (R261); the reason code of a deauthentication (R271). -/
structure MgmtTx where
  probe : Bool := false
  csa : Bool := false
  robust : Bool := false
  reason : Option Nat := none
deriving DecidableEq, Repr

/-- An Ethernet frame (or the MSDU of a radio), from destination address to FCS. -/
structure Frame where
  /-- the sender's own name for the contents; never interpreted -/
  id : Nat := 0
  da : Nat := 0
  sa : Nat := 0
  tag : Option VTag := none
  /-- VLAN tags behind the outer one -/
  inner : Nat := 0
  etherType : Nat := 0x0800
  /-- bytes from destination address to FCS, and how many of them are padding -/
  len : Nat := 64
  pad : Nat := 0
  ip : Option IpHeader := none
  ptp : Option PtpMsg := none
  /-- an egress stamp is requested under this tag (R56) -/
  stamp : Option Nat := none
  /-- of a management frame of a wide radio -/
  mgmt : MgmtTx := {}
  /-- addressed to the device's management MAC address -/
  toMgmt : Bool := false
  /-- IP to an address of the device (Table 8-7, "own address") -/
  toDevice : Bool := false
deriving DecidableEq, Repr

/-- A frame as it ends on a wired port: the facts of Table 8-4. -/
structure WiredRx where
  frame : Frame
  codeError : Bool := false
  fcsOk : Bool := true
  /-- MAC control: opcode and quanta, where the EtherType is 0x8808 -/
  opcode : Nat := 0
  quanta : Nat := 0
  /-- addressed to the port's own MAC address -/
  toPort : Bool := false
  /-- an LLDP frame with an EEE TLV: the receive wake time in µs that the partner requests (R379) -/
  eee : Option Nat := none
deriving DecidableEq, Repr

/-- A receive descriptor as the device reads it from a host ring (Table 9-7). -/
structure RxDesc where
  own : Bool := true
  addr : Nat := 0
  size : Nat := 2048
deriving DecidableEq, Repr

/-- A transmit descriptor as the device reads it (Table 9-8); the FIRST descriptor of a frame carries the frame's fields. -/
structure TxDesc where
  own : Bool := true
  addr : Nat := 0
  bufLen : Nat := 64
  first : Bool := true
  last : Bool := true
  direct : Bool := false
  stampReq : Bool := false
  cls : Nat := 0
  egress : Nat := 0
  tagNo : Nat := 0
  /-- the frame that the buffers hold, without FCS -/
  frame : Frame := {}
deriving DecidableEq, Repr

/-- A field frame to be sent (R154 to R164, R168). -/
structure FieldTx where
  id : Nat := 0
  /-- PSDU bytes, and those of MAC service data (R1, Table 0-2): 0 for what is no data frame -/
  len : Nat := 20
  payload : Nat := 0
  /-- AR -/
  ar : Bool := true
  /-- security level and key entry; level 0: unsecured -/
  secLevel : Nat := 0
  key : Option Nat := none
  /-- child it is for; none: broadcast or a destination without a record -/
  child : Option Nat := none
  /-- 0 for 2.4 GHz, 1 for sub-GHz -/
  band : Nat := 0
  channel : Nat := 11
  dsn : Nat := 0
  /-- frame counter, from the first transmission on (R171) -/
  fc : Option Nat := none
  /-- unacknowledged sends so far (R156, R163) -/
  sends : Nat := 0
  stamp : Option Nat := none
  /-- an orphan plan (R178); the body of a vendor message (Table 3-13) -/
  orphan : Bool := false
  body : List Byte := []
  /-- a send instant in TBC ns: a time-bound frame (Table 3-9) -/
  instant : Option Nat := none
deriving DecidableEq, Repr

/-- A field frame that the field radio can send: a PSDU of 5 to 127 bytes, a channel of Table 3-1, a level of Table 3-13. -/
def FieldTx.wf (m : FieldTx) : Bool :=
  decide (5 ≤ m.len) && decide (m.len ≤ 127) && decide (m.band < 2) && decide (m.secLevel < 8) && decide (m.dsn < 256) &&
    (if m.band = 0 then decide (11 ≤ m.channel) && decide (m.channel ≤ 26) else decide (m.channel ≤ 10))

/-- What a Planisher queue holds. -/
inductive Payload where
  | eth (f : Frame)
  | field (m : FieldTx)
deriving DecidableEq, Repr

/-- The sender's name for a payload. -/
def Payload.id : Payload → Nat
  | .eth f => f.id
  | .field m => m.id

end Sys2Proof
end

