-- ==== Sys2Proof/Machine/State/Planner.lean ====
section
/-! DEFINITION. The state of the Planisher (chapter 7): queues, classes, policers, gate lists, masks, air plans. -/

namespace Sys2Proof.Machine

/-- PLAN_QUEUE_SET settings of one queue (Table 7-13). -/
structure QueueSet where
  cls : Nat := 2
  eventHold : Bool := false
  weight : Nat := 256
  limitKb : Nat := 0
  yellowPct : Nat := 75
  event : Nat := 0
deriving DecidableEq, Repr, Inhabited

/-- PLAN_CLASS_SET settings of one class of an egress (Table 7-14). -/
structure ClassSet where
  shaped : Bool := false
  hold : Nat := 0
  rateKbps : Nat := 1000000
  burst : Nat := 65536
deriving DecidableEq, Repr, Inhabited

/-- PLAN_POLICER_SET settings (Table 7-15). CIR, PIR, CBS and PBS have no Cold value: an unset policer is disabled. -/
structure PolicerSet where
  enable : Bool := false
  aware : Bool := false
  actions : Nat := 0x20
  bindKind : Nat := 0
  reclass : Nat := 0
  bind : Nat := 0
  cir : Nat := 0
  pir : Nat := 0
  cbs : Nat := 1536
  pbs : Nat := 1536
deriving DecidableEq, Repr, Inhabited

/-- A gate list (R331): entries of OPEN mask and DURATION_US, cycle T in µs. -/
structure GateList where
  cycle : Nat
  entries : List (Nat × Nat)
deriving DecidableEq, Repr, Inhabited

/-- The two beat masks of a radio as 256-bit numbers (R351). -/
structure Masks where
  ap : Nat := 2 ^ 256 - 1
  up : Nat := 2 ^ 256 - 1
deriving DecidableEq, Repr, Inhabited

/-- PLAN_AIR_CONFIG of a radio or F (Table 7-18). -/
structure AirConfig where
  consol : Bool := true
  idleOff : Bool := false
  calSpacing : Nat := 16
  upEvery : Nat := 1
  fillBytes : Nat := 262144
  coexPeriod : Nat := 1
  coexPhase : Nat := 20
  coexUs : Nat := 0
  suMin : Nat := 100
deriving DecidableEq, Repr, Inhabited

/-- The Kept settings of the Planisher. Queue settings are listed where they were set; Cold settings are those of Table 7-6.
Class settings are keyed by 16 · egress + class (8 for M). -/
structure PlannerKept where
  queues : List (Nat × QueueSet) := []
  classes : List (Nat × ClassSet) := []
  policers : List (Nat × PolicerSet) := []
  gates : List (Nat × GateList) := []
  masks : List (Nat × Masks) := []
  air : List (Nat × AirConfig) := []
deriving DecidableEq, Repr, Inhabited

/-- What a frame that a wide radio has sent keeps for its retries (R251, R259, R265): sends so far, sequence number, PN, key entry; whether it stands
behind the frame before it in one A-MSDU (R255). -/
structure AirTx where
  tries : Nat := 0
  seq : Nat := 0
  pn : Nat := 0
  key : Nat := 0xFFFF
  joined : Bool := false
deriving DecidableEq, Repr

/-- One frame in a queue. -/
structure Queued where
  payload : Payload
  /-- L, the charged length (Table 7-4) -/
  charge : Nat
  ingress : Nat := 28
  enqBeat : Nat := 0
  /-- beat at whose plan computation it was first seen (R355) -/
  seen : Option Nat := none
  /-- held by EVENT_HOLD (R337) -/
  held : Bool := false
  /-- finish tag, from becoming the head on (R318, R320) -/
  tag : Option Nat := none
  /-- this wait for a gate is counted (R332) -/
  waited : Bool := false
  /-- the cell buffer's record, for a cell-homed frame -/
  cells : Option Nat := none
  /-- DRAM pool charged: 1 QUEUE, 2 PS of W1, 3 PS of W2 -/
  pool : Nat := 0
  /-- the VID it leaves under, and whether tagged (R395) -/
  vid : Nat := 1
  tagged : Bool := false
  /-- PCP and DEI of the tag it leaves with; none where no rule gives a PCP -/
  pcp : Option Nat := none
  dei : Bool := false
  colour : Nat := 0
  cls : Nat := 0
  /-- receive stamp and CAL_STALE of a frame that came in (Table 9-7) -/
  rxStamp : Stamp := {}
  calStale : Bool := false
  /-- selected once, and charged then (R320) -/
  charged : Bool := false
  /-- sent by a wide radio at least once -/
  air : Option AirTx := none
  /-- the job that its completion answers (R271) -/
  job : Option Nat := none
deriving DecidableEq, Repr

/-- A queue (R318, R322). -/
structure PQueue where
  frames : List Queued := []
  fPrev : Nat := 0
  /-- class key in which its last frame was selected (R321) -/
  lastClass : Option Nat := none
  fPrevUl : Nat := 0
  /-- class key in which its last uplink grant was charged -/
  lastUl : Option Nat := none
  /-- uplink demand reported, bytes, and the beat it was first seen (R322, R355) -/
  ulBytes : Nat := 0
  ulSeen : Option Nat := none
  drops : Nat := 0
  dropEvent : Option Nat := none
deriving DecidableEq, Repr

/-- The running state of a class of an egress: V, uplink V, credit in 2^-8 byte as of `at'` (R318, R323). -/
structure ClassRun where
  v : Nat := 0
  vUl : Nat := 0
  credit : Int := 65536 * 256
  at' : Nat := 0
deriving DecidableEq, Repr

/-- The buckets of a policer in 2^-8 byte as of `at'` (R328), and its counters. -/
structure PolicerRun where
  tc : Nat := 0
  tp : Nat := 0
  at' : Nat := 0
  green : Nat := 0
  yellow : Nat := 0
  red : Nat := 0
  dropped : Nat := 0
deriving DecidableEq, Repr

/-- A gate list, or its removal, that waits for its effective beat (R334). -/
structure GatePending where
  list : Option GateList
  beat : Nat
  job : Nat
  committed : Bool := false
deriving DecidableEq, Repr

/-- Masks that wait for their effective beat (R352): the masks loaded, none where a mask is not. -/
structure MaskPending where
  ap : Option Nat
  up : Option Nat
  beat : Nat
  job : Nat
  committed : Bool := false
deriving DecidableEq, Repr

/-- An air plan entry (Table 7-9). -/
structure PlanEntry where
  kind : Nat
  flags : Nat := 0
  start : Nat := 0
  dur : Nat := 0
  arg : Nat := 0
deriving DecidableEq, Repr

/-- The contents of a planned exchange (R340, R342, R344): number, entry kind, the queues it names with frames (TRIG_UL: bytes granted) for
each, frames selected into it, streams it needs, MU-MIMO. -/
structure ExchSlot where
  id : Nat
  kind : Nat
  queues : List (Nat × Nat) := []
  frames : List (Nat × Queued) := []
  nss : Nat := 1
  mu : Bool := false
  /-- air time of the trigger frame, µs -/
  trig : Nat := 0
  /-- the users' RUs, as the lowest 20 MHz subchannel that each touches and their number; duration of the TB PPDUs, µs; a BSRP trigger -/
  rus : List (Nat × Nat) := []
  tb : Nat := 0
  bsrp : Bool := false
deriving DecidableEq, Repr

/-- What the spec says of the beacon body that the Steward builds (R239): the operating width in its HE, EHT and VHT Operation elements (R240); the BSSs
whose MU EDCA Parameter Set has AIFSN 0 in every access category and a timer of 255 (R233); the TWT element, one row per schedule (R246): BSS, kind, ID,
flags, phase, interval, offset, duration; the Quiet elements (R249): BSS, ID, phase, duration, beats to the next start. -/
structure BeaconBody where
  width : Nat := 0
  muEdca : List Nat := []
  twt : List (List Nat) := []
  quiet : List (List Nat) := []
deriving DecidableEq, Repr, Inhabited

/-- An air or field plan of one beat (Table 7-19 STATE). -/
structure AirPlan where
  beat : Nat := 0
  entries : List PlanEntry := []
  repeated : Bool := false
  safe : Bool := false
  clipped : Bool := false
  requested : Nat := 0
  granted : Nat := 0
  active : Bool := true
  /-- made active by FILL_BYTES alone (Table 7-21) -/
  fill : Bool := false
  /-- Lean: the beat counts as active or idle -/
  lean : Bool := false
  slots : List ExchSlot := []
  /-- the beacon body, where the beat has a TBTT -/
  body : Option BeaconBody := none
deriving DecidableEq, Repr

/-- The Planisher outside Kept values. -/
structure Planner where
  queues : List (Nat × PQueue) := []
  classes : List (Nat × ClassRun) := []
  policers : List (Nat × PolicerRun) := []
  gatePending : List (Nat × GatePending) := []
  maskPending : List (Nat × MaskPending) := []
  /-- settings accepted before 500 µs of a beat, and after (R357): in force at the next window, and at the one after -/
  late : Option PlannerKept := none
  /-- plan in force, latched and under computation of W1 (0), W2 (1) and F (2) -/
  inForce : List (Nat × AirPlan) := []
  latched : List (Nat × AirPlan) := []
  computed : List (Nat × AirPlan) := []
  /-- plans whose completion had not been signalled at the plan commit of the present tick (R38) -/
  missed : List (Nat × AirPlan) := []
  /-- beat of the last CAL offer per target (R346) -/
  calOffer : List (Nat × Nat) := []
  /-- the Steward's city-coordination service holds the masks of a radio -/
  cityMasks : List Nat := []
  neverFitStk : Bool := false
  clipStk : Bool := false
  /-- beat of the last PLAN_NEVER_FITS per 16 · egress + class, and of PLAN_CLIPPED per radio (1000 + radio) -/
  lastEvent : List (Nat × Nat) := []
  /-- counters of Table 7-21 per egress: key 128 · egress + response offset -/
  counts : List (Nat × Nat) := []
deriving DecidableEq, Repr

end Sys2Proof.Machine
end

