-- ==== Sys2Proof/Machine/State/Frontend.lean ====
section
/-! DEFINITION. The state of the synthesisers, the front-end pins, coexistence and the Burnisher (chapter 6). -/

namespace Sys2Proof.Machine

/-- FE_PIN_CONFIG of one chain (Table 6-11); Cold values for wide chains, `PinCfg.field` for field chains (Table 6-3). -/
structure PinCfg where
  lnaOff : Nat := 40
  trswLead : Nat := 32
  paLead : Nat := 20
  paLag : Nat := 4
  trswLag : Nat := 12
  lnaOn : Nat := 20
  bypMode : Nat := 0
  bypOn : Int := -25
  paFitted : Bool := true
  lnaFitted : Bool := true
deriving DecidableEq, Repr, Inhabited

/-- Cold pin settings of a field band. -/
def PinCfg.field : PinCfg :=
  { lnaOff := 80, trswLead := 60, paLead := 40, paLag := 20, trswLag := 40, lnaOn := 60, paFitted := false, lnaFitted := false }

/-- FE_COEX_CONFIG of one port (Table 6-12). -/
structure CoexCfg where
  mode : Nat := 0
  radios : Nat := 0
  shared : Bool := false
  lpAnytime : Bool := false
  txactOut : Bool := false
  maxHold : Nat := 5000
  cool : Nat := 200
  lpGuard : Nat := 100
deriving DecidableEq, Repr, Inhabited

/-- CAL_CONFIG (Table 6-13). -/
structure CalCfg where
  tempRadio : Nat := 6
  tempDram : Nat := 10
  tempMeter : Nat := 8
  triggers : Nat := 7
  quietWide : Int := -72
  quietField : Int := -88
  staleRetry : Nat := 10000
  lateAllow : Nat := 2000
deriving DecidableEq, Repr, Inhabited

/-- A result in force (R306): codes, temperature in 0.1 °C and beat of its run. -/
structure CalResult where
  codes : List Int := []
  temp : Int := 0
  beat : Nat := 0
deriving DecidableEq, Repr, Inhabited

/-- Kept values of the chapter. Pins are keyed by 4 · source + chain, results by calibration key. -/
structure FrontKept where
  pins : List (Nat × PinCfg) := []
  coex : List (Nat × CoexCfg) := []
  cal : CalCfg := {}
  results : List (Nat × CalResult) := []
deriving DecidableEq, Repr, Inhabited

/-- Synthesiser states (R275). -/
inductive SynthState where
  | off | standby | locked | settling
deriving DecidableEq, Repr

/-- One synthesiser: 0 W1, 1 W2, 2 F24 receive, 3 F24 transmit, 4 FSG. -/
structure Synth where
  state : SynthState := .off
  /-- local instant at which it locks -/
  lockAt : Nat := 0
  /-- beats of the losses of lock in the last 1,000 beats -/
  losses : List Nat := []
deriving DecidableEq, Repr

/-- A transmission of a radio: in progress, or waiting for an obstruction to end (R279, R285). -/
structure RadioTx where
  /-- local instants of T0 (the start instant, where it waits) and T1 -/
  t0 : Nat
  t1 : Nat
  /-- 0 device-initiated, 1 response, 2 time-bound, 3 test mode -/
  kind : Nat := 0
  /-- chains it uses, as a mask -/
  chains : Nat := 1
deriving DecidableEq, Repr

/-- One coexistence port (R290 to R297). -/
structure CoexPort where
  /-- level of REQ (or BLANK) and PRI (or HOLD) -/
  req : Bool := false
  pri : Bool := false
  /-- request pending, with the local instant of its rise -/
  pending : Option Nat := none
  /-- granted since this local instant -/
  granted : Option Nat := none
  /-- revoked: nothing is granted until REQ has been low for COOL_US -/
  cooling : Bool := false
  /-- local instant since which REQ has been low -/
  lowSince : Nat := 0
  /-- the hold ends at this local instant (2 µs after a revocation) -/
  holdUntil : Nat := 0
deriving DecidableEq, Repr

/-- A calibration run (R298 to R305). -/
structure CalRun where
  id : Nat
  target : Nat
  sub : Nat
  /-- band, width or channel group of the result -/
  variant : Nat := 0
  force : Bool := false
  steps : Nat := 1
  stepsDone : Nat := 0
  running : Bool := false
  /-- local instant at which the step that runs began -/
  since : Nat := 0
  /-- failed attempts in a row: the first and up to four retries -/
  fails : Nat := 0
  cause : Nat := 0
  /-- jobs of CAL_RUN that wait for this target -/
  jobs : List Nat := []
  /-- the result, once the last step has ended, and the beat at whose commit window it is applied -/
  ready : Option (CalResult × Nat) := none
  /-- stale: the mark takes effect at this beat -/
  staleAt : Option Nat := none
  /-- started by a trigger, not by a command alone -/
  auto : Bool := true
  /-- DRAM_TRAIN (R416): the search of one line: 0 the tap in force, 1 downward, 2 upward; the tap to test next, the passing range; results of
  the lines that are done -/
  dir : Nat := 0
  tap : Nat := 0
  lo : Nat := 0
  hi : Nat := 0
  found : List Int := []
deriving DecidableEq, Repr

/-- What CAL_STATUS reports of a target beside the result in force. -/
structure CalNote where
  fails : Nat := 0
  cause : Nat := 0
  /-- beat at which it was marked stale -/
  stale : Option Nat := none
  retryBeat : Nat := 0
  trial : List Int := []
  /-- the temperature condition of R298 held in the last beat -/
  hot : Bool := false
deriving DecidableEq, Repr

/-- A CAL_RUN that is not answered: its job, the targets still open, targets applied and marked stale so far. -/
structure CalJob where
  job : Nat
  left : List Nat
  applied : Nat := 0
  stale : Nat := 0
deriving DecidableEq, Repr

/-- The chapter outside Kept values. -/
structure Front where
  synths : Vector Synth 5 := .replicate 5 {}
  /-- transmission in progress or committed, per radio source 32 to 35 -/
  tx : List (Nat × RadioTx) := []
  /-- transmissions that wait for an obstruction to end, per radio source -/
  waiting : List (Nat × RadioTx) := []
  /-- receivers blanked until this local instant, per radio source -/
  blankUntil : List (Nat × Nat) := []
  coex : Vector CoexPort 2 := .replicate 2 {}
  /-- BYP pins that are high under BYP_MODE 1: 4 · source + chain -/
  byp : List Nat := []
  runs : List CalRun := []
  notes : List (Nat × CalNote) := []
  calJobs : List CalJob := []
  /-- synthesisers that the Burnisher has asked to retune at the next commit window (R307) -/
  retune : List Nat := []
  calStaleStk : Bool := false
  unlockStk : Bool := false
  revokeStk : Bool := false
  paTimeoutStk : Bool := false
  /-- counters of Table 6-16: key 128 · scope + response offset, scope 3, 32 to 35 or 36 -/
  counts : List (Nat × Nat) := []
deriving DecidableEq, Repr

end Sys2Proof.Machine
end

