-- ==== Sys2Proof/Machine/State/Time.lean ====
section
/-! DEFINITION. The state of the timebase (chapter 1): the TBC, the servo, rebase, triggers, transmit timestamp queues,
PPS, plan bookkeeping of the beat. Default field values are the Cold values of the chapter's tables. -/

namespace Sys2Proof.Machine

/-- Servo states, Table 1-8; the codes are TB_STATUS.SERVO_STATE's. -/
inductive ServoState where
  | freeRun | acquiring | locked | holdover
deriving DecidableEq, Repr

/-- Cause of HOLDOVER (Table 1-25, TB_HOLDOVER). -/
inductive HoldCause where
  | step | sourceLost
deriving DecidableEq, Repr

/-- TIME_SERVO_CONFIG fields, all Kept (R85, Table 1-17). -/
structure ServoConfig where
  src : Nat := 0
  port : Nat := 0
  noAutoRebase : Bool := false
  kp : Nat := 700
  ki : Nat := 300
  slewPpm : Nat := 100
  lockNs : Nat := 100
  stepNs : Nat := 1000000
  srcTimeout : Nat := 4000
  rebaseWait : Nat := 16
deriving DecidableEq, Repr, Inhabited

/-- TIME_PPS_CONFIG fields, all Kept (R87, Table 1-23). -/
structure PpsConfig where
  inEnable : Bool := false
  inFalling : Bool := false
  outEnable : Bool := false
  todEnable : Bool := false
  todBaud : Nat := 0
  inDelay : Int := 0
  outWidth : Nat := 100000000
  outOffset : Int := 0
  utcOffset : Int := 37
deriving DecidableEq, Repr, Inhabited

/-- The Kept values of the timebase: the epoch (R26), the integral term (R40), the configurations and the stamp
compensation of ports and radios (R58), keyed by source number (ingress, egress). -/
structure TimeKept where
  epoch : Nat := 0
  /-- the servo's I in units of 10^-3 · 2^-32 ppb (at least 32 fraction bits, R44) -/
  integral : Int := 0
  servo : ServoConfig := {}
  pps : PpsConfig := {}
  portComp : List (Nat × (Int × Int)) := []
deriving DecidableEq, Repr, Inhabited

/-- A pending TIME_REBASE (R51): rebase beat B, mode and value, and who asked (none: the Steward's own service). -/
structure Rebase where
  beat : Nat
  relative : Bool
  /-- VALUE · 2^16 + FRAC, in units of 2^-16 ns -/
  value : Int
  /-- the job to answer; none for the Steward's own time service -/
  asker : Option Nat
  /-- the plan commit of beat B has passed: the load is certain -/
  committed : Bool := false
deriving DecidableEq, Repr

/-- One time-trigger channel (R69 to R74). -/
structure Trigger where
  armed : Bool := false
  /-- source number of the lane or service that armed it -/
  party : Nat := 0
  target : Nat := 0
  arg : Nat := 0
  eventEach : Bool := false
  activeLow : Bool := false
  nextNs : Nat := 0
  firstNs : Nat := 0
  period : Nat := 0
  count : Nat := 0
  width : Nat := 0
  /-- firings since it was armed -/
  fired : Nat := 0
  /-- a periodic trigger held for re-arming by a rebase (Table 1-9) -/
  held : Bool := false
  /-- the pulses now driven (targets 0x01 and 0x07), the earliest end first: end in local ns, target, argument, active low -/
  pulses : List (Nat × Nat × Nat × Bool) := []
deriving DecidableEq, Repr

/-- One entry of a transmit timestamp queue (R62, Table 1-12). -/
structure TsqEntry where
  stamp : Stamp
  calStale : Bool := false
  oneStep : Bool := false
  holdover : Bool := false
  tag : Nat := 0
  seq : Nat := 0
deriving DecidableEq, Repr

/-- A transmit timestamp queue of 16 entries, oldest first, with its own sticky flag and drop counter (R62 to R64). -/
structure Tsq where
  entries : List TsqEntry := []
  seq : Nat := 0
  ovf : Bool := false
  dropCnt : Nat := 0
  /-- accumulator value of the tick of the latest stamp, how many of the entries arrived on it, and the stamps discarded on it: a read on the
  same tick comes before them (R66) -/
  tick : Option Nat := none
  fresh : Nat := 0
  spilt : List TsqEntry := []
  /-- this queue's flag, and its drop counter, before that tick -/
  ovfBefore : Bool := false
  dropBefore : Nat := 0
deriving DecidableEq, Repr

/-- What stamps of instants before the local instant `till` go by (R58): the compensations and the CHAIN_DELAY results in force until then, the
epoch, and what a load at `till` added to the accumulator. -/
structure StampPast where
  till : Nat
  comp : List (Nat × (Int × Int)) := []
  delays : List (Nat × CalResult) := []
  epoch : Nat := 0
  shift : Int := 0
deriving DecidableEq, Repr

/-- Bookkeeping of the beat for one unit, keyed by source number (R33 to R38). -/
structure UnitPlan where
  /-- a new plan for the next beat is complete -/
  complete : Bool := false
  /-- the beat of the last overrun counted, plus one; 0: none -/
  lastOverrun : Nat := 0
  /-- two consecutive beats overran: the safe plan starts at the next commit window -/
  toSafe : Bool := false
  safe : Bool := false
  /-- TIME_SAFE_CLEAR was accepted: the safe plan ends at the next commit window -/
  clearing : Bool := false
  /-- local instant at which the job that overran last ends: planned work of the unit starts no earlier (R34) -/
  busyUntil : Nat := 0
  overrunCnt : Nat := 0
deriving DecidableEq, Repr

/-- The registers that a read of TB_NOW_LO latches (R30). -/
structure TbLatch where
  nsLo : Nat := 0
  nsHi : Nat := 0
  frac : Nat := 0
  epoch : Nat := 0
  beat : Nat := 0
  phase : Nat := 0
deriving DecidableEq, Repr

/-- PPS_IN state (R75 to R77, R79). -/
structure PpsIn where
  /-- the last edge waits for its label: stamp of the edge -/
  unlabelled : Option Stamp := none
  /-- TBC ns of the previous edge or of the enabling, carried over into new time by a load -/
  spanStart : Int := 0
  /-- missed seconds since the last edge or the enabling -/
  missRun : Nat := 0
  /-- edges in a row with no missed second between -/
  goodRun : Nat := 0
deriving DecidableEq, Repr

/-- The whole state of the timebase that is not Kept. -/
structure Timebase where
  /-- the accumulator: TBC with 32 fraction bits, in units of 2^-32 ns (R24); the TBC is its upper 80 bits -/
  acc : Nat := 0
  /-- local time in ns: 2 ns a TIME tick, 25 ns in Doze; durations that the spec does not tie to the beat are counted on it -/
  mono : Nat := 0
  /-- local instant, and Dormant total, of the last accepted measurement; local instant at which LOCKED was last left (R175) -/
  lastMeas : Nat := 0
  lastMeasDorm : Nat := 0
  unlockedAt : Nat := 0
  /-- Doze has been entered since the servo state last changed -/
  dozed : Bool := false
  fadj : Int := 0
  /-- FADJ that takes effect at a commit window (R42): value and the first beat it applies to -/
  fadjNext : Option (Int × Nat) := none
  servo : ServoState := .freeRun
  cause : HoldCause := .sourceLost
  lastTheta : Int := 0
  /-- consecutive accepted measurements below LOCK_NS -/
  lockRun : Nat := 0
  /-- consecutive measurements beyond the step threshold -/
  stepRun : Nat := 0
  /-- consecutive measurements within the step threshold, in HOLDOVER -/
  goodRun : Nat := 0
  /-- beats counted toward SRC_TIMEOUT (R47) -/
  srcBeats : Nat := 0
  /-- first step value measured in HOLDOVER with cause STEP, and whether later ones stayed within STEP_NS of it (R54) -/
  stepFirst : Option Int := none
  stepSteady : Bool := true
  /-- the last wake from Dormant has not been followed by a lock: the wait of R54 is two intervals (R55) -/
  afterDormant : Bool := false
  /-- CLEAR_INTEGRAL accepted, acted on at the next commit window -/
  clearIntegral : Bool := false
  rebase : Option Rebase := none
  /-- the accumulator value of the last load: a measurement on that tick is discarded (R49) -/
  loadTick : Option Nat := none
  /-- rebase beat of the last load -/
  loadBeat : Nat := 0
  /-- between a load and the commit window of the next beat boundary of the new time (Table 1-9); old TBC ns at the load -/
  settling : Bool := false
  settleNs : Nat := 0
  triggers : Vector Trigger 16 := .replicate 16 {}
  tsq : List (Nat × Tsq) := []
  ppsIn : PpsIn := {}
  latch : TbLatch := {}
  holdoverStk : Bool := false
  tsqOvfStk : Bool := false
  /-- the accumulator value of the latest discard in any queue, and TSQ_OVF_STK before that tick (R64, R66) -/
  tsqOvfTick : Option Nat := none
  tsqOvfBefore : Bool := false
  /-- changes of what stamps go by in the last 2 ms, the newest first -/
  past : List StampPast := []
  safePlanStk : Bool := false
  units : List (Nat × UnitPlan) := []
  /-- the next beat whose commit window is to be opened -/
  nextCommit : Nat := 0
  /-- the beat whose computation start, and whose plan commit, have been carried out; the tick of that plan commit -/
  planCommitTick : Option Nat := none
  computeBeat : Option Nat := none
  planCommitBeat : Option Nat := none
  /-- counters of Table 1-24, keyed by response offset -/
  counts : List (Nat × Nat) := []
deriving DecidableEq, Repr

end Sys2Proof.Machine
end

