-- ==== Sys2Proof/Machine/State/Steward.lean ====
section
/-! DEFINITION. The state of the Steward interface (chapter 2): lanes, slots, leases, event rings, interrupts, the
commands accepted and not yet answered, what the block sends out. -/

namespace Sys2Proof.Machine

/-- SYS_STATE.STW_STATE (Table 2-13). -/
inductive StwState where
  | rom | booting | restoring | ready | restarting | recovery | fault
deriving DecidableEq, Repr

/-- The three states of a slot pair (R102). -/
inductive SlotPhase where
  | free | held | done
deriving DecidableEq, Repr

/-- One slot pair: the command slot's contents as last written (opcode and command), the response slot's bytes, and
whether the Steward has read the command (R103). -/
structure Slot where
  phase : SlotPhase := .free
  opcode : Nat := 0
  cmd : Cmd := { lane := 0, slot := 0, ifver := 0, length := 0 }
  accepted : Bool := false
  response : List Byte := []
deriving DecidableEq, Repr

/-- A raised event before it reaches a ring (R67): stamp, source, code, DATA bytes (R584). -/
structure Event where
  stamp : Stamp
  source : Nat
  code : Nat
  data : List Byte := []
  /-- a lane whose ring does not get it (R98: "on the other claimed lanes"); 99: none -/
  skip : Nat := 99
deriving DecidableEq, Repr

/-- One entry of an event ring (R111, Table 2-10). -/
structure RingEntry where
  code : Nat
  source : Nat
  phase : Bool
  lost : Bool
  outOfOrder : Bool
  stamp : Stamp
  seq : Nat
  data : List Byte
deriving DecidableEq, Repr

/-- The Kept settings of a lane (Tables 2-14, 2-15 and 2-22). -/
structure LaneConfig where
  leaseBeats : Nat := 4000
  wdogBeats : Nat := 500
  areaEn : Nat := 0x1FFE
  thresh : Nat := 1
  age : Nat := 0
deriving DecidableEq, Repr, Inhabited

/-- One lane: claim, lease, watchdog, slots, event ring, bulk window, counters (R94 to R115). -/
structure Lane where
  claimed : Bool := false
  nonce : Nat := 0
  wdogExpired : Bool := false
  leaseLeft : Nat := 0
  wdogLeft : Nat := 0
  slots : Vector Slot 16 := .replicate 16 {}
  /-- slots rung and not yet accepted, in doorbell order (R104) -/
  order : List Nat := []
  wrIdx : Nat := 0
  rdIdx : Nat := 0
  phase : Bool := true
  entrySeq : Nat := 0
  /-- an event was discarded since the last entry written: the next entry carries LOST (R115) -/
  lostMark : Bool := false
  /-- ring entries by index; an unlisted entry is all zero -/
  ring : List (Nat × RingEntry) := []
  /-- beat in which each unread entry was written, by index, for the AGE condition -/
  writtenAt : List (Nat × Nat) := []
  /-- bulk window bytes in canonical form; an unlisted byte has undefined contents (R98) -/
  bulk : List Host.Cell := []
  /-- lanes 2 and 3: last SEQ accepted from the sender and last SEQ sent (R93, R95) -/
  seqIn : Nat := 0
  seqOut : Nat := 0
  cmdCnt : Nat := 0
  abandonCnt : Nat := 0
  dbErrCnt : Nat := 0
  hardClaimCnt : Nat := 0
  leaseExpireCnt : Nat := 0
  evrLostCnt : Nat := 0
deriving DecidableEq, Repr

/-- What a command is answered with (Table 2-6): STATUS, DETAIL, the fields from offset 16, BULK_OUT. -/
structure Reply where
  status : Nat := 0
  detail : Nat := 0
  body : List Byte := []
  bulkOut : Nat := 0
deriving DecidableEq, Repr

/-- A command accepted and not yet answered (R105, R108): the bytes read at acceptance, whether its point of commitment
has passed, and two numbers its own chapter uses. -/
structure Job where
  /-- the model's own number of the accepted command: chapters refer to it -/
  id : Nat
  lane : Nat
  slot : Nat
  opcode : Nat
  cmd : Cmd
  acceptBeat : Nat
  committed : Bool := false
  due : Nat := 0
  aux : Nat := 0
  /-- the answer decided but not yet written (a DURABLE command, or one that ended during a Steward restart) -/
  reply : Option Reply := none
  /-- DURABLE: the first beat at whose commit window a flash copy contains its changes (R119) -/
  durableFrom : Option Nat := none
  inCopy : Bool := false
deriving DecidableEq, Repr

/-- The Kept values of the Steward interface. -/
structure StewardKept where
  lanes : Vector LaneConfig 4 := .replicate 4 {}
  lane3Open : Bool := false
  mgmtVlan : Nat := 1
  /-- SEQ of the last claim frame of lane 2 whose TAG verified (R95) -/
  claimSeq : Nat := 0
  /-- city node identifier, 24 bits (Table 2-20) -/
  nodeId : Nat := 0
deriving DecidableEq, Repr, Inhabited

/-- The kinds of reset of KEY_KIND and SYS_RESET_CMD that lead to a warm reset. -/
structure WarmPlan where
  intoRecovery : Bool := false
  /-- the flash copy of R119 is still awaited -/
  waitCopy : Bool := false
  /-- the copy in flight was taken after the request -/
  inCopy : Bool := false
  /-- beats from the response to the reset: 10 where SYS_RESET_CMD asked -/
  delay : Nat := 0
  /-- beat at which the reset begins, once known -/
  due : Option Nat := none
  /-- SYS_CAUSE.LAST_RESET code of the reset -/
  cause : Nat := 3
deriving DecidableEq, Repr

/-- What the block sends out or returns to its commander during ONE command: the model's own list of results, emptied
when the next command begins (log entry 6). -/
inductive Output where
  /-- the value a register read returns -/
  | regRead (value : Nat)
  /-- an MSI-X message of a vector (R116) -/
  | msix (vector : Nat)
  /-- a frame from the device on lane 2 or 3: KIND, SLOT, SEQ, BODY (Table 2-3) -/
  | inband (lane kind slot seq : Nat) (body : List Byte)
  /-- a hardware action at a trigger's instant: TARGET, TARGET_ARG, WIDTH_NS (Table 1-14) -/
  | trigger (target arg width : Nat)
  /-- a pin driven to a level -/
  | pin (name index : Nat) (level : Bool)
  /-- a front-end pin edge: name, source number · 4 + chain, level, local instant in ns (Table 6-3) -/
  | pinAt (name : String) (index : Nat) (level : Bool) (ns : Nat)
  /-- a frame put on a medium: source number of the port or radio, a kind code of its chapter, bytes or fields -/
  | frame (source kind : Nat) (fields : List Nat)
  /-- bytes the device writes to host memory over PCIe: address, bytes (R428, R431) -/
  | hostMem (addr : Nat) (b : List Byte)
  /-- the data of a frame written to host memory: address, the frame's name, bytes, offset in the frame -/
  | hostData (addr id len offset : Nat)
  /-- a frame handed to the Steward: reason code of Table 8-7 in table order from 0 (16 and above: other hand-overs), switch
  port index of arrival, the frame's name -/
  | toSteward (reason ingress id : Nat)
  /-- bytes returned over a side interface (SPI, sideband, bulk data) -/
  | bytes (b : List Byte)
deriving DecidableEq, Repr

/-- The Steward interface outside Kept values. -/
structure Steward where
  state : StwState := .rom
  restoreSrc : Nat := 0
  imageSlot : Nat := 0
  trialBoot : Bool := false
  faultCode : Nat := 0
  lastReset : Nat := 0
  causeNewStk : Bool := true
  heartbeat : Nat := 0
  /-- beats since the last increment of SYS_HEARTBEAT -/
  heartBeats : Nat := 0
  scratch : Nat := 0
  fwVersion : Nat := 0
  fwBuild : Nat := 0
  restartCnt : Nat := 0
  ingotWriteCnt : Nat := 0
  ingotFailCnt : Nat := 0
  inbandAuthFailCnt : Nat := 0
  debugCrcErrCnt : Nat := 0
  uptime : Nat := 0
  lanes : Vector Lane 4 := .replicate 4 {}
  jobs : List Job := []
  nextJob : Nat := 0
  /-- events raised and not yet batched (R112) -/
  events : List Event := []
  /-- the beat whose events the next batch writes -/
  batchBeat : Nat := 0
  sticky : BitVec 32 := 0
  enMsix : BitVec 32 := 0
  enPin : BitVec 32 := 0
  pushPull : Bool := false
  /-- INT_STATUS AND INT_EN_MSIX at the end of the last command (R116) -/
  msixPrev : BitVec 32 := 0
  /-- a requested Steward restart: cause (0 watchdog, 1 command, 2 firmware fault) and the beat it begins -/
  restartReq : Option (Nat × Nat) := none
  /-- cause of the restart in progress -/
  restartCause : Nat := 0
  /-- beats since the restart began (Chapter 13 bounds the data plane's run on repeated plans) -/
  restartBeats : Nat := 0
  warmReq : Option WarmPlan := none
  /-- the working image of the Ingot differs from the newest flash copy -/
  changePending : Bool := false
  quietBeats : Nat := 0
  pendingBeats : Nat := 0
  /-- beats since the oldest change that the flash copy in flight does not contain -/
  newerBeats : Option Nat := none
  /-- a flash copy has been asked for, and none has started since -/
  saveNow : Bool := false
deriving DecidableEq, Repr

end Sys2Proof.Machine
end

