-- ==== Sys2Proof/Machine/State/Power.lean ====
section
/-! DEFINITION. The state of the power sequencer (chapter 10). -/

namespace Sys2Proof.Machine

/-- The six modes (R7, Table 0-6). -/
inductive Mode where
  | full | lean | watch | doze | dormant | recovery
deriving DecidableEq, Repr

/-- PWR_CONFIG, every field Kept (R478, Table 10-15). AVS_PM_NORMAL and AVS_PM_LIGHT have no Cold value in the spec:
0 here (log entry 10). -/
structure PowerConfig where
  wakeTarget : Nat := 1
  alarmTarget : Nat := 1
  gpioFalling : Bool := false
  rdvReturn : Bool := true
  avsRail : Nat := 0
  wakeEnDoze : Nat := 0x02A8
  wakeEnDormant : Nat := 0x0392
  gpioWake : Nat := 0
  wakeKey : List Byte := [0, 0, 0, 0, 0, 0]
  tempWakeHi : Int := 105
  tempWakeLo : Int := -40
  opHold : Nat := 100
  avsClk : Nat := 2
  avsSlew : Nat := 5
  avsTol : Nat := 8
  avsPmNormal : Nat := 0
  avsPmLight : Nat := 0
  avsTimeoutUs : Nat := 500
deriving DecidableEq, Repr, Inhabited

/-- Kept values of the power sequencer. -/
structure PowerKept where
  config : PowerConfig := {}
  brownOutCnt : Nat := 0
deriving DecidableEq, Repr, Inhabited

/-- Who asked for a mode: a command, with its TAG; a write of PWR_REQ with its tag; or the device itself. -/
inductive Asker where
  | job (id tag : Nat)
  | req (tag : Nat)
  | self
deriving DecidableEq, Repr

/-- A change between serving modes, or a return to one, that waits for its commit window (R446). -/
structure ModeChange where
  target : Mode
  /-- beat M; none while a raise of the operating point awaits its confirmation -/
  eff : Option Nat
  asker : Asker
  /-- cause of PWR_MODE_CHANGED (Table 10-18) -/
  cause : Nat
  /-- FULL_WITHHELD: a request for Full carried out as Lean (R443) -/
  withheld : Bool := false
deriving DecidableEq, Repr

/-- An entry to Doze or Dormant in progress (R456 to R465). -/
structure Entry where
  target : Mode
  left : Mode
  asker : Asker
  cause : Nat
  /-- the step that runs, 1 to 6 -/
  step : Nat
  /-- blocks that have agreed and stopped in this step, latest first -/
  agreed : List Nat := []
  /-- a wake latched since AP0: bits, target, stamp -/
  wake : Option (Nat × Mode × Stamp) := none
  /-- the wake is a SYS_CANCEL of the request (R465) or its lane's release; the cancel's own job, answered after it -/
  cancelled : Bool := false
  cancelJob : Option Nat := none
  /-- the entry is abandoned: abort point, DETAIL, refusing source, reason -/
  undo : Option (Nat × Nat × Nat × Nat) := none
deriving DecidableEq, Repr

/-- A wake between its latch and its resume (R467, R468). -/
structure Waking where
  bits : Nat
  target : Mode
  left : Mode
  /-- accumulator value of the timebase at the latch, in ns (RESUME_US) -/
  latchNs : Nat
  stage : Nat := 0
  /-- the request that is itself the wake (Table 10-2) -/
  asker : Option Asker := none
  /-- beat M, once the ready instant is reached -/
  eff : Option Nat := none
deriving DecidableEq, Repr

/-- A voltage target written and not yet confirmed (R449 to R452). -/
structure AvsTarget where
  mv : Nat
  raise : Bool
  op : Nat
  writtenNs : Nat
deriving DecidableEq, Repr

/-- The power sequencer outside Kept values. -/
structure Power where
  mode : Mode := .lean
  op : Nat := 1
  fullAllowed : Bool := false
  resultTag : Nat := 0
  resultStatus : Nat := 0
  resultSource : Nat := 0
  resultCause : Nat := 0
  wakeStk : BitVec 16 := 0
  modeSince : Nat := 0
  /-- the last request that set the mode asked for Full (R443) -/
  wantFull : Bool := false
  fullBeats : Nat := 0
  /-- lanes whose HOST_HOLD suspends the Steward's schedule (R445) -/
  holds : List Nat := []
  /-- the wide radios stay off until this beat's commit window after an abandoned entry (R464) -/
  radiosFrom : Nat := 0
  /-- deviation of the sleep clock from its nominal ratio to the TCXO, in ppb, recorded at entry (R81) -/
  sleepPpb : Int := 0
  change : Option ModeChange := none
  entry : Option Entry := none
  waking : Option Waking := none
  /-- tick (accumulator value) and bit of the last wake condition seen while no entry ran (R461) -/
  wakeSeen : Option (Nat × Nat) := none
  lastWake : Nat := 0
  lastResumeUs : Nat := 0
  /-- the job waiting for the end of Doze or Dormant (R469) -/
  sleeper : Option Nat := none
  /-- accumulator value at which Dormant began (R81) -/
  sleepAcc : Nat := 0
  /-- new Doze and Dormant requests are turned away until this beat (R473) -/
  holdUntil : Nat := 0
  alarm : Option Nat := none
  /-- rendezvous lead alarms armed: record numbers (R470) -/
  rdvAlarms : List Nat := []
  rdvVisit : Bool := false
  /-- sleep-clock ticks counted in Dormant (R81) -/
  sleepTicks : Nat := 0
  /-- ns spent in Dormant since the power-on reset, by the sleep clock (R175) -/
  dormantNs : Nat := 0
  /-- Doze: this beat is a listen beat or rendezvous-window beat; the Steward's cores run (R439) -/
  listenBeat : Bool := false
  dramAwake : Bool := true
  /-- beats since the last change of the operating point (R448) -/
  opBeats : Nat := 0
  opNext : Option Nat := none
  vcoreTarget : Nat := 600
  vcoreRead : Nat := 0
  avsStatus : Nat := 0
  avs : Option AvsTarget := none
  /-- highest operating point whose voltage has been confirmed (R449) -/
  confirmedOp : Nat := 1
  avsRetries : Nat := 0
  avsFaultRun : Nat := 0
  avsFaultStk : Bool := false
  entryRefusedStk : Bool := false
  pcieWakeLow : Bool := false
  pcieUp : Bool := false
  aspmL1 : Bool := false
  chainsW1 : Nat := 0
  chainsW2 : Nat := 0
  /-- counters of Table 10-17, keyed by response offset from 20 -/
  counts : List (Nat × Nat) := []
deriving DecidableEq, Repr

end Sys2Proof.Machine
end

