-- ==== Sys2Proof/Machine/State/Assay.lean ====
section
/-! DEFINITION. The state of the Assay unit (chapter 13): ageing, guards, temperature, faults, unit resets. -/

namespace Sys2Proof.Machine

/-- ASSAY_CONFIG, every field Kept (R560). -/
structure AssayConfig where
  thetaJa : Nat := 0
  govT1 : Nat := 100
  govT2 : Nat := 104
  govT3 : Nat := 107
  stwWdogBeats : Nat := 200
deriving DecidableEq, Repr, Inhabited

/-- One fault-log entry (Table 13-9). -/
structure FaultEntry where
  stamp : Stamp
  source : Nat
  cls : Nat
  action : Nat
  data : List Byte := []
deriving DecidableEq, Repr, Inhabited

/-- The device records of R530 that the Assay unit holds, and its configuration: all Kept. `hist` holds the last eight
values of d of each pair, newest first; `lifeEq` is in units of 2^-32 hours. -/
structure AssayKept where
  config : AssayConfig := {}
  hist : List (Nat × List Int) := []
  /-- guards of OP1 to OP4 in mV. Cold: the fused GUARD0 takes effect at the re-plan that ends each restore -/
  guards : List Nat := [0, 0, 0, 0]
  removed : List Nat := []
  lifeEq : Nat := 0
  faultLog : List FaultEntry := []
  chipWdogCnt : Nat := 0
  thermalTripCnt : Nat := 0
deriving DecidableEq, Repr, Inhabited

/-- A unit reset under way (Table 13-7): the fault class that caused it, 0 for a command, and the beat in which it began. -/
structure UnitReset where
  cls : Nat
  startBeat : Nat
deriving DecidableEq, Repr

/-- The Assay unit outside Kept values. -/
structure Assay where
  /-- next pair in the rotation of R542, and beats since the last turn -/
  nextPair : Nat := 0
  pairBeats : Nat := 0
  /-- beats since the last re-plan of its own -/
  replanBeats : Nat := 0
  lastReplan : Nat := 0
  /-- consecutive own re-plans that computed a lower value, per operating point -/
  lowerRun : List Nat := [0, 0, 0, 0]
  /-- a commanded re-plan runs: its job -/
  replanning : Option Nat := none
  /-- sensor readings in 0.1 °C (R549), and the beat of the last reading -/
  temps : List Int := [0, 0, 0, 0, 0, 0, 0, 0]
  sensorBeat : Option Nat := none
  /-- chip power of the activity model, averaged over 1,000 beats, 10 mW units (R551) -/
  pEst : Nat := 0
  govLevel : Nat := 0
  /-- consecutive beats at least 5 °C below the level's threshold -/
  coolBeats : Nat := 0
  ambientBar : Bool := true
  /-- consecutive beats in which the hottest sensor read 118 °C or above (R552) -/
  hotBeats : Nat := 0
  /-- beats toward the next second of R547; what Dormant has added, in 2^-32 hours -/
  lifeBeats : Nat := 0
  lifeDormant : Nat := 0
  /-- beats since the later of the last heartbeat and the start of the latest restart (R555) -/
  chipWdog : Nat := 0
  /-- beats in which the latest Steward restarts began (fault class 3) -/
  restarts : List Nat := []
  /-- beats of the warm resets that count toward fault class 5 (AON) -/
  warmResets : List Nat := []
  /-- the AON latch of faults that a warm reset follows: entries, CHIP_WDOG_CNT and THERMAL_TRIP_CNT increments (R553) -/
  latch : List FaultEntry × Nat × Nat := ([], 0, 0)
  resets : List (Nat × UnitReset) := []
  disabled : List Nat := []
  /-- beats of fault resets per unit within the last 60,000 (R558) -/
  faultBeats : List (Nat × List Nat) := []
  /-- per unit on its safe plan: beats in a row in which it overran, and the last of them (fault class 7) -/
  safeOverruns : List (Nat × (Nat × Nat)) := []
  eolStk : Bool := false
  govStk : Bool := false
  unitDisabledStk : Bool := false
  oosStk : Bool := false
  oosNow : Bool := false
  /-- beat of the last ASSAY_OUT_OF_SPEC per quantity; the last beat counted in OOS_BEATS_CNT -/
  oosLast : List (Nat × Nat) := []
  oosBeat : Option Nat := none
  /-- beat of the first VDD_CORE reading off its target, while the readings stay off it -/
  vcoreOff : Option Nat := none
  eolRaised : Bool := false
  /-- counters of Table 13-11, keyed by response offset from 20 -/
  counts : List (Nat × Nat) := []
deriving DecidableEq, Repr

end Sys2Proof.Machine
end

