-- ==== Sys2Proof/Machine/State/Field.lean ====
section
/-! DEFINITION. The state of the field radio (chapter 3). -/

namespace Sys2Proof.Machine

/-- FIELD_CONFIG (Tables 3-17, 3-3, 3-8), every field Kept. -/
structure FieldConfig where
  f24 : Bool := false
  fsg : Bool := false
  fsgChannel : Nat := 1
  panId : Nat := 0xFFFF
  short : Nat := 0
  chanMask : Nat := 0xFFFF
  monitorMask : Nat := 0
  txpwr24 : Int := 20
  txpwrSg : Int := 20
  ccaMode : Nat := 3
  ccaAnd : Bool := false
  ccaEd : Int := -82
  detThresh : Nat := 140
  detCount : Nat := 2
  detFloor : Int := -106
  captureMargin : Nat := 6
  syncFloor : Nat := 64
  minBe : Nat := 3
  maxBe : Nat := 5
  maxBackoffs : Nat := 4
  maxRetries : Nat := 3
  minSecUnknown : Nat := 0
  fsgMonitor : Bool := false
  beaconAny : Bool := false
  dupWindow : Nat := 2000
  pendDelay : Nat := 320
  persist : Nat := 60000
  dozePeriod : Nat := 256
  dozeListen : Nat := 32
deriving DecidableEq, Repr, Inhabited

/-- A child record (Table 3-18) with its incoming counters, as last accepted. -/
structure Child where
  client : Nat := 0
  ext : Nat := 0
  short : Nat := 0xFFFE
  bandChan : Nat := 11
  rxOnIdle : Bool := false
  standby : Bool := false
  joining : Bool := false
  forcePend : Bool := false
  keyIdx : Nat := 0xFFFF
  minSec : Nat := 0
  qdepth : Nat := 8
  pollExpect : Nat := 0
  /-- last accepted counters; none: none yet -/
  inFcPair : Option Nat := none
  inFcGroup : Option Nat := none
deriving DecidableEq, Repr, Inhabited

/-- A rendezvous record (Table 3-20). -/
structure Rdv where
  enable : Bool := false
  listen : Bool := false
  band : Nat := 0
  neighbour : Nat := 0
  channel : Nat := 11
  period : Nat := 100
  offset : Nat := 0
  phaseUs : Nat := 20
  guardMin : Nat := 200
deriving DecidableEq, Repr, Inhabited

/-- Kept values of the field radio. -/
structure FieldKept where
  config : FieldConfig := {}
  children : List (Nat × Child) := []
  rdv : List (Nat × Rdv) := []
  /-- the orphan plan of Table 3-14 as stored, none before the first FIELD_ORPHAN_PLAN -/
  orphan : Option (List Byte) := none
deriving DecidableEq, Repr, Inhabited

/-- A detected preamble (R139): local instant, timing in chips, strength in dBm. -/
structure Preamble where
  at' : Nat
  timing : Int
  strength : Int
deriving DecidableEq, Repr

/-- A reception past its SFD (R147). -/
structure Reception where
  rssi : Int
  corrQ : Nat
  stamp : Stamp := {}
  /-- CAL_STALE of the stamp (R59) -/
  stale : Bool := false
  /-- local instants: the end of the SFD, the last chip -/
  at' : Nat
  fin : Nat
  /-- a capturing detection in the last chip's symbol period: acquisition starts on it when the frame ends (R145) -/
  next : Option Preamble := none
deriving DecidableEq, Repr

/-- What a channel's detector holds (R139 to R147). -/
inductive RxPhase where
  | idle
  /-- acquiring on a preamble; `before`: the one that a restart put aside; `missed`: the last detection that R141 ignored. Both wait only to see
  whether an SFD ends in their symbol period (R144) -/
  | acquiring (p : Preamble) (before missed : Option Preamble)
  | receiving (r : Reception)
deriving DecidableEq, Repr

/-- What a receive descriptor of a field frame reports: the frame, Table 3-7 but for ACKINFO, stamp, CAL_STALE. -/
structure FieldDesc where
  id : Nat
  info : List Byte
  stamp : Stamp := {}
  stale : Bool := false
deriving DecidableEq, Repr

/-- The duplicate entry of a sender (R166). -/
structure DupEntry where
  dsn : Option Nat := none
  /-- last accepted counters: pairwise, group -/
  fcPair : Option Nat := none
  fcGroup : Option Nat := none
  beat : Nat := 0
deriving DecidableEq, Repr

/-- The running state of a child. -/
structure ChildRun where
  /-- beat of the last poll (Table 3-10), and its local instant -/
  lastPoll : Nat := 0
  pollAt : Nat := 0
  /-- a poll has been received since FIELD_CHILD_SILENT was last raised -/
  silentArmed : Bool := true
  polled : Bool := false
  standbyTold : Bool := false
  rssi : Int := -128
  corrQ : Nat := 0
  channel : Nat := 0
  dup : DupEntry := {}
  /-- beat of the last FIELD_REPLAY -/
  replayBeat : Option Nat := none
  /-- counters of Table 3-22 by response offset -/
  counts : List (Nat × Nat) := []
  /-- bytes delivered to and from the child (Table 0-2) -/
  outBytes : Nat := 0
  inBytes : Nat := 0
deriving DecidableEq, Repr

/-- An acknowledgement that is due (R150, R153). -/
structure AckDue where
  channel : Nat
  /-- local instants: last chip of the frame, first chip of the acknowledgement -/
  lastChip : Nat
  at' : Nat
  pending : Bool
  enhanced : Bool := false
  /-- its content (R150): the received DSN unless suppressed; the sender as addressing mode (2 short, 3 extended) and address; key and level -/
  dsn : Option Nat := none
  dest : Nat × Nat := (0, 0)
  key : Option Nat := none
  level : Nat := 0
  /-- its duration in ns -/
  dur : Nat := 352000
  /-- a poll that the acknowledgement answers: the child -/
  poll : Option Nat := none
  /-- the sender, and the descriptor that reports in ACKINFO what became of the acknowledgement (Table 3-7); none: a duplicate -/
  child : Option Nat := none
  desc : Option FieldDesc := none
deriving DecidableEq, Repr

/-- An answer to a poll that is due (R161, R162). -/
structure PollAnswer where
  child : Nat
  channel : Nat
  at' : Nat
  /-- latest local instant of its first chip -/
  limit : Nat
  /-- the end of the acknowledgement, which commits it (R215) -/
  since : Nat := 0
deriving DecidableEq, Repr

/-- A device-initiated frame in channel access or on the air (R156). -/
structure FieldAccess where
  item : FieldTx
  /-- the frame of the queue: one taken off it, or the one that answers a poll, from its transmission on; none: an answer not yet sent, or an
  empty frame -/
  queued : Option Queued := none
  queue : Nat
  nb : Nat := 0
  be : Nat := 3
  /-- retries so far -/
  retries : Nat := 0
  /-- 0 back-off, 1 CCA, 2 on the air, 3 awaiting the acknowledgement, 4 waiting for an obstruction to end, 5 the wait is over while a
  reception that began within it goes on -/
  stage : Nat := 0
  /-- local instant: end of the back-off, the CCA, the frame or the wait -/
  due : Nat := 0
  /-- an answer to a poll: the limit of R162 -/
  limit : Option Nat := none
  /-- local instant of the last chip, for the wait -/
  lastChip : Nat := 0
  /-- an answer at its own instant was committed then (R215) -/
  since : Option Nat := none
  /-- the stamp asked for, with its flags, as at the first chip (R58, R62) -/
  stamp : Option (Stamp × Bool × Bool) := none
deriving DecidableEq, Repr

/-- One chain: F24 (0) or FSG (1). -/
structure FieldChain where
  access : Option FieldAccess := none
  /-- a frame in channel access that an answer to a poll puts off -/
  parked : Option FieldAccess := none
  /-- a rendezvous frame on the air: channel, and the identifier of its completion -/
  other : Option (Nat × Nat) := none
  acks : List AckDue := []
  answers : List PollAnswer := []
  /-- the acknowledgement on the air ends here; its record -/
  sendingAck : Option (Nat × AckDue) := none
  /-- FSG retune until this local instant (R138) -/
  retuneUntil : Nat := 0
  /-- the test mode: MODE, channel, power, last beat (0: until MODE 0) -/
  test : Option (Nat × Nat × Nat × Nat) := none
deriving DecidableEq, Repr

/-- The running state of a rendezvous (R174 to R176). -/
structure RdvRun where
  /-- the window is open until this local instant, and since `opened`; its guard in ns -/
  window : Option Nat := none
  opened : Nat := 0
  guard : Nat := 0
  heard : Bool := false
  /-- continuous listening until this local instant -/
  continuous : Option Nat := none
  suspended : Bool := false
  /-- local instant, and Dormant total, of the last rendezvous frame heard from the partner -/
  syncAt : Nat := 0
  syncDorm : Nat := 0
deriving DecidableEq, Repr

/-- The field radio outside Kept values. Channels are keyed 11 to 26 (F24) and 100 + k (FSG). -/
structure Field where
  /-- front gain reduction of F24 in dB, and the local instant of the last raise -/
  gainDb : Nat := 0
  gainAt : Nat := 0
  rx : List (Nat × RxPhase) := []
  chains : Vector FieldChain 2 := .replicate 2 {}
  run : List (Nat × ChildRun) := []
  /-- duplicate entries of unknown senders: address key, entry; most recently used first, at most 64 (R166) -/
  unknown : List (Nat × DupEntry) := []
  unknownReplay : List (Nat × Nat) := []
  rdv : List (Nat × RdvRun) := []
  fcLowStk : Bool := false
  rdvLostStk : Bool := false
  /-- children deleted since the last commit window; children for which the plan accepted since then has been queued -/
  deleted : List Nat := []
  pushed : List Nat := []
  /-- MAC payload bytes delivered outward and inward (Table 0-2) -/
  outBytes : Nat := 0
  inBytes : Nat := 0
  replayStk : Bool := false
  /-- key entries for which FIELD_FC_LOW has been raised -/
  fcLow : List Nat := []
  /-- outgoing counters as of the newest flash copy, per key entry (R172) -/
  fcCopied : List (Nat × Nat) := []
  /-- changes of PEND per child, and of FORCE_PEND: local instant and the value before, latest first, for 20 ms (R161, R164) -/
  pends : List (Nat × List (Nat × Bool)) := []
  forces : List (Nat × List (Nat × Bool)) := []
  /-- counters of Table 3-22: key 256 · scope + offset; scope 0 F24, 1 FSG, 11 to 26 channels -/
  counts : List (Nat × Nat) := []
deriving DecidableEq, Repr

end Sys2Proof.Machine
end

