-- ==== Sys2Proof/Machine/State/Memory.lean ====
section
/-! DEFINITION. The state of DRAM, the cell buffer and the rings (chapter 9). -/

namespace Sys2Proof.Machine

/-- MEM_CONFIG (Table 9-10). TYPE, RANKS, RATE_MTS and GB_PER_CHAN at a cold start are those detected (R401). -/
structure MemConfig where
  type : Nat := 1
  ranks : Nat := 1
  rate : Nat := 4266
  gb : Nat := 2
  grain : Nat := 12
  ecc : Bool := true
deriving DecidableEq, Repr, Inhabited

/-- MEM_POOL_SET (Table 9-2). -/
structure Pools where
  queueMb : Nat := 1024
  psMb : Nat := 512
  ringMb : Nat := 64
  captureMb : Nat := 128
  psW1Pct : Nat := 60
deriving DecidableEq, Repr, Inhabited

/-- MEM_PORT_SET of one DRAM port (Table 9-3). -/
structure PortSet where
  panicPct : Nat := 50
  weight : Nat := 2
  leaseUs : Nat := 200
deriving DecidableEq, Repr, Inhabited

/-- Kept values of the memory chapter; `config` none: as detected. -/
structure MemKept where
  config : Option MemConfig := none
  pools : Pools := {}
  /-- per account: RESERVE_CELLS, SHARE_MAX_CELLS; Cold 256 and 8,192 -/
  cells : List (Nat × (Nat × Nat)) := []
  ports : List (Nat × PortSet) := []
deriving DecidableEq, Repr, Inhabited

/-- The cells of one stored frame (R422 to R426). -/
structure CellSet where
  owner : Nat
  account : Nat
  reserved : Nat := 0
  shared : Nat := 0
  /-- egresses that hold a reference; empty while the frame is being received -/
  refs : List Nat := []
deriving DecidableEq, Repr

/-- A ring (Table 9-6, R427 to R432). -/
structure Ring where
  on : Bool := false
  notify : Bool := false
  entries : Nat := 64
  pollUs : Nat := 20
  statusUs : Nat := 10
  base : Nat := 0
  statusAddr : Nat := 0
  nextIdx : Nat := 0
  /-- descriptors with OWN 1 that the device has read and not written back -/
  deviceHeld : Nat := 0
  frames : Nat := 0
  dry : Nat := 0
  offDrop : Nat := 0
  descErr : Nat := 0
  /-- beat of the last MEM_RING_DRY and MEM_RING_BATCH -/
  dryBeat : Option Nat := none
  batchBeat : Option Nat := none
  /-- descriptors written back since the last status block, and the local instant of that block -/
  statusDue : Bool := false
  statusAt : Option Nat := none
  /-- host transmit: the frame whose FIRST descriptor has been read and whose LAST has not: bytes so far, its first descriptor -/
  open' : Option (Nat × TxDesc) := none
deriving DecidableEq, Repr

/-- A DRAM channel (R407, R413 to R421). -/
structure DramChannel where
  m : Nat := 1
  mNext : Nat := 1
  /-- next refresh burst of the beat -/
  burst : Nat := 0
  burstBeat : Nat := 0
  stale : Nat := 0
  temp : Int := 250
  /-- corrected errors in the present 1,000 beats, and the beat they began -/
  ceRun : Nat := 0
  ceFrom : Nat := 0
deriving DecidableEq, Repr

/-- A DRAM port (R408 to R412). -/
structure DramPort where
  /-- bytes in the FIFO of a real-time port -/
  level : Nat := 0
  panic : Bool := false
  panicCnt : Nat := 0
  underrun : Nat := 0
  overflow : Nat := 0
  expire : Nat := 0
  /-- transactions outstanding of a non-real-time port -/
  outstanding : Nat := 0
deriving DecidableEq, Repr

/-- What drives the DRAM balls: in reset CK, CS and DRST_N are low and every other ball is high impedance (R538, R565); running the
controller and PHY drive them; in Doze the clock domain is gated; in Dormant the pads' retention latches hold them (R420). -/
inductive DramDrive
  | reset
  | running
  | gated
  | retained
deriving DecidableEq, Repr, Inhabited

/-- The kinds of DRAM balls that R565 tells apart. -/
inductive DramBall
  | ck
  | cs
  | drstN
  | other
deriving DecidableEq, Repr

/-- Memory outside Kept values. -/
structure MemState where
  /-- MEM_CONFIG and pools in force since the last start; none before detection -/
  config : MemConfig := {}
  detected : Option MemConfig := none
  pools : Pools := {}
  channels : Vector DramChannel 2 := .replicate 2 {}
  /-- channels trained in full at this start (R415) -/
  trained : List Nat := []
  /-- what drives the DRAM balls (R420, R565) -/
  drive : DramDrive := .reset
  ports : Vector DramPort 9 := .replicate 9 {}
  /-- cells by record number -/
  cells : List (Nat × CellSet) := []
  nextCells : Nat := 0
  /-- bytes charged to pools 1 QUEUE, 2 PS of W1, 3 PS of W2, 5 CAPTURE -/
  used : List (Nat × Nat) := []
  lowBeat : List (Nat × Nat) := []
  rings : List (Nat × Ring) := []
  /-- blocks marked poisoned, by device address / 64 -/
  poisoned : List Nat := []
  eccUeStk : Bool := false
  ringDryStk : Bool := false
  rtFaultStk : Bool := false
  /-- counters of Table 9-11 of the DRAM and cell-buffer scopes, keyed by response offset from 20 -/
  counts : List (Nat × Nat) := []
deriving DecidableEq, Repr

end Sys2Proof.Machine
end

