-- ==== Sys2Proof/Machine/State/Pole.lean ====
section
/-! DEFINITION. The state of the metering converter, the DALI interfaces, the timers and the GPIO (chapter 11). -/

namespace Sys2Proof.Machine

/-- METER_CONFIG (Table 11-8). -/
structure MeterCfg where
  enable : Bool := false
  overwrite : Bool := false
  /-- 0: 4 kS/s, 1: 8 kS/s, 2: 16 kS/s -/
  rate : Nat := 1
  mask : Nat := 15
  history : Nat := 64
  scale : List Nat := [0, 0, 0, 0]
  saveBeats : Nat := 3600000
deriving DecidableEq, Repr, Inhabited

/-- A capture rule (METER_TRIG_SET). Values with no Cold value in the spec are the lowest allowed ones, and the rule is off (log entry 60). -/
structure CaptureRule where
  enable : Bool := false
  wake : Bool := false
  /-- 0 LEVEL, 1 RMS_HIGH, 2 RMS_LOW, 3 STEP -/
  kind : Nat := 0
  chan : Nat := 0
  threshold : Nat := 0
  window : Nat := 20
  stepPct : Nat := 1
  pre : Nat := 0
  post : Nat := 1
  holdoff : Nat := 0
deriving DecidableEq, Repr, Inhabited

/-- DALI_CONFIG of one interface. -/
structure DaliCfg where
  enable : Bool := false
  txInv : Bool := false
  rxInv : Bool := false
  rxEvents : Bool := false
  collision : Bool := true
  retries : Nat := 3
deriving DecidableEq, Repr, Inhabited

/-- TMR_CHAN_SET of one channel (Table 11-9). -/
structure TmrCfg where
  /-- 0 off, 1 periodic, 2 one-shot, 3 linked -/
  mode : Nat := 0
  runOnGroup : Bool := true
  lateFire : Bool := false
  outInv : Bool := false
  matchEvent : Bool := false
  /-- bit 0 rising, bit 1 falling -/
  capEdge : Nat := 0
  prescale : Nat := 0
  period : Nat := 100000
  phase : Nat := 0
  cmpA : Nat := 0
  cmpB : Nat := 0
deriving DecidableEq, Repr, Inhabited

/-- GPIO_CONFIG of one pin. -/
structure GpioCfg where
  /-- 0 input, 1 push-pull, 2 open-drain -/
  mode : Nat := 0
  /-- 0 none, 1 up, 2 down -/
  pull : Nat := 2
  /-- 0 none, 1 capture input of timer channel `arg`, 2 trigger pulse -/
  alt : Nat := 0
  arg : Nat := 0
  debounceUs : Nat := 0
  onRise : Bool := false
  onFall : Bool := false
deriving DecidableEq, Repr, Inhabited

/-- The Kept values of the chapter, keyed by rule, interface, channel and pin. -/
structure PoleKept where
  meter : MeterCfg := {}
  rules : List (Nat × CaptureRule) := []
  dali : List (Nat × DaliCfg) := []
  timers : List (Nat × TmrCfg) := []
  gpio : List (Nat × GpioCfg) := []
  /-- output levels written by GPIO_WRITE -/
  levels : Nat := 0
deriving DecidableEq, Repr, Inhabited

/-- The accumulators of a pair (R489): unsigned, 96 bits, saturating, in LSB². The Ingot's working image holds them (R490). -/
structure Energy where
  samples : Nat := 0
  imp : Nat := 0
  exp : Nat := 0
  vv : Nat := 0
  ii : Nat := 0
  sinceBeat : Nat := 0
deriving DecidableEq, Repr, Inhabited

/-- The block of one beat (Table 11-3); `samples` per channel 0 to 3, empty for a channel that is not present; a lost sample is −32,768. -/
structure MeterBlock where
  /-- the model's own number of the job that formed it -/
  job : Nat := 0
  beat : Nat := 0
  epoch : Nat := 0
  n : Nat := 8
  lost : Nat := 0
  stale : Nat := 0
  holdover : Bool := false
  clip : Bool := false
  samples : List (List Int) := []
deriving DecidableEq, Repr

/-- A capture record, made or being gathered (Table 11-2). -/
structure Capture where
  id : Nat
  trigger : Nat
  chan : Nat
  rate : Nat
  mask : Nat
  beat : Nat
  sample : Nat
  epoch : Nat
  pre : Nat
  /-- beats still to be processed after the trigger beat -/
  postLeft : Nat
  merged : Nat := 0
  gap : Bool := false
  doze : Bool := false
  scale : List Nat := []
  nodeId : Nat := 0
  blocks : List MeterBlock := []
  /-- bytes charged to the CAPTURE pool -/
  charged : Nat := 0
deriving DecidableEq, Repr

/-- A frame in a slot of a DALI interface (R497). -/
structure DaliFrame where
  job : Nat
  bits : Nat
  data : Nat
  prio : Nat
  hold : Bool := false
  twice : Bool := false
  expect : Bool := false
  /-- a HOLD frame whose trigger has fired -/
  triggered : Bool := false
  late : Bool := false
  tries : Nat := 0
  start : Option Stamp := none
  /-- the first frame of a pair has ended at this local instant -/
  firstEnd : Option Nat := none
deriving DecidableEq, Repr

/-- A DALI interface (R495 to R500). -/
structure DaliBus where
  slots : List (Nat × DaliFrame) := []
  /-- slot on the bus, and the local instant of its start bit -/
  sending : Option (Nat × Nat) := none
  /-- slot that awaits a backward frame, and the local instant at which its forward frame ended -/
  answer : Option (Nat × Nat) := none
  /-- local instant at which the last frame on the bus ended -/
  idleSince : Nat := 0
  fault : Bool := false
deriving DecidableEq, Repr

/-- A capture queue entry (Table 11-6). -/
structure TmrCapture where
  count : Nat
  stamp : Stamp
  falling : Bool
deriving DecidableEq, Repr

/-- A timer channel (R501 to R507): its counter was `base` at local instant `baseNs`. -/
structure TmrRun where
  running : Bool := false
  base : Nat := 0
  baseNs : Nat := 0
  /-- the compare values in effect, and those that take effect at the next wrap -/
  cmpA : Nat := 0
  cmpB : Nat := 0
  shadowA : Option Nat := none
  shadowB : Option Nat := none
  queue : List TmrCapture := []
  ovf : Bool := false
  /-- local instant of a read that found the queue full (R507) -/
  fullAt : Option Nat := none
deriving DecidableEq, Repr

/-- The chapter outside Kept values. -/
structure Pole where
  /-- trigger channel that the metering service holds -/
  trigCh : Option Nat := none
  /-- first beat that carries samples -/
  liveFrom : Nat := 0
  /-- number of the last metering job, the beat in which it ran, the time epoch then, and whether it had samples -/
  jobNo : Nat := 0
  jobBeat : Option Nat := none
  jobEpoch : Nat := 0
  jobLive : Bool := false
  history : List MeterBlock := []
  /-- last good sample per channel, and how many samples before the next frame's first it was taken -/
  lastGood : List (Nat × (Int × Nat)) := []
  /-- sum of squares and number of samples of the latest beats per channel, newest first -/
  sums : List (Nat × List (Nat × Nat)) := []
  energy : List (Nat × Energy) := []
  restoredBeat : Nat := 0
  /-- beats since the metering service last made a copy pending -/
  saveCount : Nat := 0
  nextCapture : Nat := 1
  gather : Option Capture := none
  /-- records made, oldest first -/
  records : List Capture := []
  /-- beats for which a rule is still ignored -/
  holdoff : List (Nat × Nat) := []
  lostEvent : Option Nat := none
  dali : Vector DaliBus 2 := .replicate 2 {}
  timers : Vector TmrRun 16 := .replicate 16 {}
  /-- levels of PWM[7:0] -/
  pwm : Vector Bool 8 := .replicate 8 false
  /-- level that the board last drove on each pin -/
  ext : List (Nat × Bool) := []
  /-- pins on which a trigger pulse is driven, with its level -/
  pulses : List (Nat × Bool) := []
  /-- beat of the last GPIO_EDGE event per pin -/
  edgeBeat : List (Nat × Nat) := []
  lostStk : Bool := false
  faultStk : Bool := false
  behindStk : Bool := false
  /-- counters of Table 11-10: key 128 · selection + response offset -/
  counts : List (Nat × Nat) := []
deriving DecidableEq, Repr

end Sys2Proof.Machine
end

