-- ==== Sys2Proof/Syntax/Radio.lean ====
section
/-! DEFINITION. Operand types of the field radio and the wide radios: what the air brings, as the facts their rules test. -/

namespace Sys2Proof

/-- What a sender protected a frame with under CCM* (R168): key, its extended address, frame counter, level, and the header that is its
authentication data. -/
structure FieldSeal where
  key : List Byte
  ext : Nat
  counter : Nat
  level : Nat
  header : List Nat := []
deriving DecidableEq, Repr

/-- What a field receiver has of a preamble that it may detect (R139): the symbol periods, oldest first, each with CORR, timing in chips and power
in dBm. -/
structure FieldPeriods where
  periods : List (Nat × Int × Int)
deriving DecidableEq, Repr

/-- The detection strength: the mean channel power over the periods (R139), taken over the dBm values and rounded down (DEDUCED, log entry 86). -/
def FieldPeriods.strength (x : FieldPeriods) : Int := (x.periods.map (·.2.2)).sum / x.periods.length

/-- What a field receiver latches as an SFD ends, and the PHR behind it (R147, R148). -/
structure FieldSfd where
  corrQ : Nat
  phr : Nat
deriving DecidableEq, Repr

/-- The CORR values of a channel's last symbols (R143). -/
structure FieldSpan where
  channel : Nat
  corr : List Nat
deriving DecidableEq, Repr

/-- A preamble as a wide radio detects it: whether it is a DSSS one; where its L-SIG (the SFD of a DSSS preamble) is decoded, the ns from the
preamble's start to its end, and those of its duration behind it (R200). -/
structure WidePreamble where
  dsss : Bool := false
  lsig : Option (Nat × Nat) := none
deriving DecidableEq, Repr

/-- A field frame as it was received up to its last chip (R148 to R171). -/
structure FieldRx where
  /-- the sender's own name for the frame; never interpreted -/
  id : Nat := 0
  /-- PSDU length of the PHR, and its reserved bit; MAC payload bytes (Table 0-2) -/
  len : Nat := 12
  payload : Nat := 0
  phrReserved : Bool := false
  fcsOk : Bool := true
  /-- frame type: 0 beacon, 1 data, 2 acknowledgement, 3 MAC command, 4 to 7 other; frame version 0 to 3 -/
  ftype : Nat := 1
  version : Nat := 1
  seqSuppressed : Bool := false
  dsn : Nat := 0
  ar : Bool := false
  /-- destination PAN and address; none: absent. `dstShort` none with `dstExt` none: no destination address -/
  dstPan : Option Nat := none
  dstShort : Option Nat := none
  dstExt : Option Nat := none
  srcPan : Option Nat := none
  srcShort : Option Nat := none
  srcExt : Option Nat := none
  /-- security: level 0 unsecured; key identifier mode, key index, key source; frame counter; how it was sealed, none where it arrives altered -/
  secLevel : Nat := 0
  keyMode : Nat := 0
  keyIndex : Nat := 0
  keySource : Nat := 0
  counter : Nat := 0
  sealed : Option FieldSeal := none
  /-- MAC command identifier (4: Data Request, 0xB5: vendor) and vendor sub-command -/
  command : Nat := 0
  sub : Nat := 0
  /-- a RENDEZVOUS frame: the neighbour that sent it -/
  rdvFrom : Option Nat := none
  /-- a FIELD_WAKE command: target code and key, as in Table 10-12 -/
  wakeTarget : Nat := 0xFF
  wakeKey : List Byte := []
  /-- the receive ring has a buffer for it -/
  buffer : Bool := true
  /-- descriptors that the device reads for a monitor delivery (R427) -/
  monitor : List RxDesc := []
deriving DecidableEq, Repr

/-- The MAC header of a frame as CCM* authenticates it (R168; IEEE 802.15.4-2020, PRESUMED, log entry 113): frame control, sequence number, addresses,
auxiliary security header. -/
def FieldRx.header (x : FieldRx) : List Nat :=
  let o (v : Option Nat) : Nat := match v with | some n => n + 1 | none => 0
  [x.ftype, x.version, (if x.seqSuppressed then 0 else x.dsn + 1), (if x.ar then 1 else 0), o x.dstPan, o x.dstShort, o x.dstExt, o x.srcPan,
    o x.srcShort, o x.srcExt, x.secLevel, x.keyMode, x.keyIndex, x.keySource, x.counter]

/-- The options of Table 4-4 that a PPDU can use; `other` is one that the table does not name. -/
inductive PhyOption where
  | ldpc | stbc | beamformed | muMimo | dcm | punctured | multiRu | pbcc | dsssOfdm | greenfield | unequalMod | split80 | srp | midamble | emlmr
  | nstr | txopSharing | other
deriving DecidableEq, Repr

/-- A PPDU's format (Table 4-3): 0 non-HT (duplicate above 20 MHz), 1 HT mixed, 2 VHT, 3 HE SU, 4 EHT MU, 5 DSSS and CCK, 6 HE ER SU, 7 HE MU,
8 HE TB, 9 EHT TB, above 9 another; its highest MCS or rate (of non-HT and DSSS the place of the rate in the table's list), streams, WIDTH
(Table 4-14), GI in 0.1 µs (0 for DSSS), LTF (1, 2, 4; 0 where the format has none), options. -/
structure PhyMode where
  format : Nat := 0
  mcs : Nat := 0
  nss : Nat := 1
  width : Nat := 0
  gi : Nat := 8
  ltf : Nat := 0
  options : List PhyOption := []
deriving DecidableEq, Repr

/-- The SIG fields of a PPDU (R199, R204, R205). -/
structure SigFacts where
  sigOk : Bool := true
  phy : PhyMode := {}
  /-- the BSS colour of an HE or EHT PPDU -/
  colour : Option Nat := none
  /-- duration of an OFDM symbol, ns -/
  symbol : Nat := 4000
deriving DecidableEq, Repr

/-- A link of an association (Table 5-7): its record, the station's address on it, CAPS, MCS_CAP, the A-MPDU length exponent. -/
structure LinkGrant where
  record : Nat
  addr : Nat := 0
  caps : Nat := 0
  mcsCap : Nat := 15
  ampduExp : Nat := 0
deriving DecidableEq, Repr

/-- A key that a handshake of the Steward's gives an entry (R262, R272); cipher 0: the entry is deleted. -/
structure KeyGrant where
  entry : Nat
  cipher : Nat := 1
  keyId : Nat := 0
  txActive : Bool := true
  rxEnable : Bool := true
  key : List Byte := []
deriving DecidableEq, Repr

/-- A change of a client entry by the Steward (R270): FLAGS of Table 5-6, U-APSD, MAX_SP, MCS_CAP of the link. -/
structure EntryChange where
  flags : Nat := 1
  uapsd : Nat := 0
  maxSp : Nat := 0
  mcsCap : Nat := 15
deriving DecidableEq, Repr

/-- Facts of an association that the Steward grants (R225, R226, R270), or of the upstream link as it comes up (R223, R266). -/
structure Assoc where
  client : Nat
  bss : Nat := 0
  addr : Nat := 0
  aid : Nat := 1
  /-- FLAGS of Table 5-6; PS and TWT member are the radio's own -/
  flags : Nat := 1
  link1 : Option LinkGrant := none
  link2 : Option LinkGrant := none
  key0 : Nat := 0xFFFF
  key1 : Nat := 0xFFFF
  uapsd : Nat := 0
  maxSp : Nat := 0
  /-- EMLSR padding and transition delay, ns (R227) -/
  emPad : Nat := 0
  emDelay : Nat := 0
  /-- BSS colour of the upstream BSS -/
  colour : Nat := 0
deriving DecidableEq, Repr

/-- What a management or control frame asks for, beside its delivery to the Steward. -/
inductive Mgmt where
  /-- nothing further -/
  | other
  /-- the Steward grants an association with these facts -/
  | assoc (a : Assoc)
  /-- the station leaves, with a reason code -/
  | leave (reason : Nat)
  /-- a handshake with the sender ends with these keys; the Steward changes the sender's entry -/
  | keys (l : List KeyGrant)
  | entry (x : EntryChange)
  /-- a BlockAck agreement is made on a TID: the device is originator or recipient; buffer size and first sequence number -/
  | addBa (tid size ssn : Nat) (originator : Bool)
  | delBa (tid : Nat) (originator : Bool)
  /-- a BlockAckReq that moves the window of a TID -/
  | bar (tid ssn : Nat)
  /-- an individual TWT request for flow `flow`: phase in µs, interval and offset in beats, duration in µs; whether announced -/
  | twt (flow phase interval offset dur : Nat) (announced : Bool)
  /-- the station tears its TWT flow down -/
  | twtEnd (flow : Nat)
  /-- the station asks to join a broadcast or restricted TWT schedule of its BSS, or leaves it -/
  | twtJoin (restricted : Bool) (id : Nat) (join : Bool)
  /-- an FTM request: ASAP, frames per burst, minimum delta in µs, burst duration in µs, format (as in PhyMode) and WIDTH -/
  | ftm (asap perBurst delta dur format width : Nat)
  /-- what the Steward's coexistence scan of 2.4 GHz makes of the frame: whether it forbids 40 MHz (Table 4-4) -/
  | scan (forbids : Bool)
  /-- the upstream link comes up with these facts, or goes down -/
  | upLink (a : Option Assoc)
  /-- a beacon: whether it is the upstream AP's, and the band and primary channel that it gives -/
  | beacon (upstream : Bool) (band primary : Nat)
  /-- a PS-Poll -/
  | psPoll
deriving DecidableEq, Repr

/-- One MPDU of a received PPDU (R253). -/
structure Mpdu where
  fcsOk : Bool := true
  /-- the receiver address -/
  ra : Nat := 0xFFFFFFFFFFFF
  /-- class 3 -/
  class3 : Bool := true
  /-- index of the sender's client entry; its address -/
  client : Option Nat := none
  sender : Nat := 0
  /-- a management frame or control frame -/
  mgmt : Option Mgmt := none
  /-- a robust management frame -/
  robust : Bool := false
  retry : Bool := false
  seq : Nat := 0
  /-- TID; none: no QoS Control field -/
  tid : Option Nat := none
  prot : Bool := false
  keyId : Nat := 0
  /-- the group key entry of a protected group frame, for the upstream station -/
  groupKey : Option Nat := none
  micOk : Bool := true
  pn : Nat := 0
  wantsAck : Bool := true
  /-- power management bit -/
  pm : Bool := false
  /-- buffer status reported per AC, bytes -/
  reports : List (Nat × Nat) := []
  /-- a Null frame carries no MSDU -/
  null : Bool := false
  /-- four-address frame -/
  fourAddr : Bool := false
  frame : Frame := {}
  /-- the further MSDUs, where the MPDU carries an A-MSDU -/
  more : List Frame := []
  /-- the receive ring has a buffer -/
  buffer : Bool := true
deriving DecidableEq, Repr

/-- What a received PPDU acknowledges of the radio's own exchange: a queue, and for each of its MPDUs, oldest first, whether it is
acknowledged; MPDUs beyond the list are not. -/
structure AckFacts where
  queue : Nat
  acked : List Bool
deriving DecidableEq, Repr

/-- A PPDU that ends PHY_OK. -/
structure PpduRx where
  /-- signal strength, dBm; MCS and streams -/
  rssi : Int := -60
  mcs : Nat := 0
  nss : Nat := 1
  mpdus : List Mpdu := []
  acks : List AckFacts := []
  /-- clients that sent nothing in the RU that the radio's own trigger gave them (R242) -/
  silent : List Nat := []
  /-- air time of the response that it calls for, ns, and its format -/
  respDur : Nat := 28000
  respPhy : PhyMode := {}
  /-- a trigger frame for the station role calls for a TB PPDU; MPDUs of the station role that this has room for -/
  solicited : Bool := false
  respCount : Nat := 1
  /-- descriptors that the device reads for monitor deliveries (R427) -/
  monitor : List RxDesc := []
deriving DecidableEq, Repr

/-- A device-initiated exchange as it starts (R191, R230, R340). -/
structure WideAir where
  /-- the plan entry that places it (Table 7-10): 2 UPSTREAM, 3 BEACON, 4 SU, 5 TRIG_UL, 6 DL_MU, 7 SOUNDING, 9 GROUP, 0x0A FTM; 0x20 a QoS
  Null of R232; 0x21 a timing measurement frame; 0x22 a PS-Poll of the station role -/
  kind : Nat
  /-- number of the planned exchange (ARG) -/
  slot : Nat := 0
  /-- MPDUs drawn from the queue that wins (2, 4, 9), and MSDUs that one of them may hold -/
  count : Nat := 1
  amsdu : Nat := 1
  /-- air time of the PPDU, and of the whole exchange with its last response, ns -/
  dur : Nat := 100000
  total : Nat := 144000
  phy : PhyMode := {}
  /-- a lower power that the plan requests, 0.25 dBm -/
  power : Option Int := none
  wantsAck : Bool := true
  /-- ns from the PPDU's first sample to the first bit of a Timestamp field (R235) -/
  tsAt : Nat := 28000
  /-- the last exchange of an FTM session -/
  last : Bool := false
  /-- what each 20 MHz subchannel of the operating channel, lowest first, shows as the exchange would start: energy in dBm, and the strength of a
  valid preamble; nothing is sensed on subchannels beyond the list (R198) -/
  cca : List (Int × Option Int) := []
deriving DecidableEq, Repr

/-- The Steward's rate and power policy for one exchange of a plan (R341): entry kind (5, 6, 7, 0x0A), place, the number of frames (6) or users
(5), bytes of one RU, streams, MU-MIMO, BSRP. -/
structure ExchPolicy where
  kind : Nat
  start : Nat
  dur : Nat
  count : Nat := 1
  capacity : Nat := 0
  nss : Nat := 1
  mu : Bool := false
  bsrp : Bool := false
  /-- air time of the trigger frame, µs -/
  trig : Nat := 60
  /-- the RUs of the users, as the lowest 20 MHz subchannel that each touches and their number (R241); duration of the TB PPDUs, µs -/
  rus : List (Nat × Nat) := []
  tb : Nat := 0
  /-- clients that a BSRP trigger polls -/
  polled : List Nat := []
deriving DecidableEq, Repr

/-- The Steward's inputs for the plan of one radio (R341): the air time of its beacon, the exchanges, how many µs of group delivery are due. -/
structure AirPolicy where
  radio : Nat
  beaconUs : Nat
  group : Nat := 0
  exchanges : List ExchPolicy := []
deriving DecidableEq, Repr

end Sys2Proof
end

