-- ==== Sys2Proof/Machine/State/Wide.lean ====
section
/-! DEFINITION. The state of the wide radios W1 (0) and W2 (1): PHY (chapter 4), access, key store, clients (chapter 5). -/

namespace Sys2Proof.Machine

/-- WIDE_CHAN_SET (Table 4-14). -/
structure WideChan where
  band : Nat := 0xFF
  primary : Nat := 0
  width : Nat := 0
  puncture : Nat := 0
  chainMax : Nat := 0xF
  listenChain : Nat := 0
deriving DecidableEq, Repr, Inhabited

/-- WIDE_TXPWR_CONFIG (Table 4-15); powers and gains in 0.25 dB units. -/
structure WidePower where
  closedLoop : Bool := true
  grant : Bool := false
  regDomain : Nat := 0
  maxEirp : Int := 0
  maxPsd : Int := 0x7FFF
  antGain : Int := 0
  femGain : List Int := [0, 0, 0, 0]
  expiry : Nat := 0
deriving DecidableEq, Repr, Inhabited

/-- WIDE_RX_CONFIG (Table 4-16). -/
structure WideRxCfg where
  restart : Nat := 3
  capture : Nat := 10
  captureEn : Bool := true
  obssEn : Bool := false
  monitor : Bool := false
  pd : Int := -82
  ed : Int := -62
  obssPd : Int := -82
deriving DecidableEq, Repr, Inhabited

/-- WIDE_FTM_CONFIG (Table 4-17). -/
structure FtmCfg where
  responder : Bool := false
  timing : Bool := true
  maxSessions : Nat := 16
  maxPerBurst : Nat := 8
  minDelta : Nat := 500
deriving DecidableEq, Repr, Inhabited

/-- The BSS fields of WIDE_BSS_SET (Table 5-9). BSSID and BSS_COLOUR have no Cold value: 0. -/
structure Bss where
  enable : Bool := false
  ulTrigOnly : Bool := false
  mfp : Bool := false
  fourAddr : Bool := false
  hidden : Bool := false
  bssid : Nat := 0
  dtim : Nat := 2
  colour : Nat := 0
  maxSta : Nat := 128
deriving DecidableEq, Repr, Inhabited

/-- The radio-wide beacon fields of WIDE_BSS_SET. -/
structure BeaconCfg where
  interval : Nat := 0
  phase : Nat := 0
  offset : Nat := 40
  maxDelay : Nat := 100
deriving DecidableEq, Repr, Inhabited

/-- WIDE_UPSTREAM_SET (Table 5-10). -/
structure Upstream where
  enable : Bool := false
  mld : Bool := false
  sta : Nat := 0
  ap : Nat := 0
  pmMode : Nat := 0
  neighbour : Nat := 0
  share : Nat := 16
deriving DecidableEq, Repr, Inhabited

/-- WIDE_ACCESS_CONFIG (Table 5-11). -/
structure AccessCfg where
  retryLimit : Nat := 10
  tbMissLimit : Nat := 4
  noshowLimit : Nat := 8
  lifetime : List Nat := [1000, 500, 100, 50]
  psMaxFrames : Nat := 256
  psLifetime : Nat := 5000
  reorder : Nat := 50
  noshowUs : Nat := 200
deriving DecidableEq, Repr, Inhabited

/-- A broadcast or restricted TWT schedule (Table 5-13). -/
structure TwtSched where
  announced : Bool := false
  trigger : Bool := false
  tids : Nat := 0
  phase : Nat := 20
  interval : Nat := 1
  offset : Nat := 0
  duration : Nat := 256
deriving DecidableEq, Repr, Inhabited

/-- A neighbour record (R266). -/
structure Neighbour where
  enable : Bool := false
  learn : Bool := false
  role : Nat := 0
  radio : Nat := 0
  addr : Nat := 0
  client : Nat := 0xFFFF
deriving DecidableEq, Repr, Inhabited

/-- A key entry (R262, R263, Table 5-12). -/
structure KeyEntry where
  owner : Nat := 45
  cipher : Nat := 0
  keyId : Nat := 0
  txActive : Bool := false
  rxEnable : Bool := false
  setPn : Bool := false
  radio : Nat := 0
  client : Nat := 0xFFFF
  /-- transmit PN, or outgoing frame counter -/
  txPn : Nat := 0
  /-- receive PN per TID, and for robust management frames (key 16) -/
  rxPn : List (Nat × Nat) := []
  keySource : Nat := 0
  key : List Byte := []
  lowTold : Bool := false
deriving DecidableEq, Repr, Inhabited

/-- Kept values of both wide chapters. Keyed by radio; BSSs by 8 · radio + BSS; TWT schedules by
((radio · 8 + BSS) · 2 + kind) · 16 + id. Field key entries are Kept (R264). -/
structure WideKept where
  chan : List (Nat × WideChan) := []
  power : List (Nat × WidePower) := []
  rx : List (Nat × WideRxCfg) := []
  pair : Bool := false
  ftm : List (Nat × FtmCfg) := []
  /-- barred channels: band · 256 + 20 MHz channel number, end beat (R197) -/
  barred : List (Nat × Nat) := []
  bss : List (Nat × Bss) := []
  beacon : List (Nat × BeaconCfg) := []
  upstream : List (Nat × Upstream) := []
  access : List (Nat × AccessCfg) := []
  twt : List (Nat × TwtSched) := []
  neighbours : List (Nat × Neighbour) := []
  fieldKeys : List (Nat × KeyEntry) := []
deriving DecidableEq, Repr, Inhabited

/-- What a wide receiver holds (R200 to R206). -/
inductive WideRxPhase where
  | idle
  /-- acquiring: detection instant, strength, start of the preamble (local ns), DSSS; where the L-SIG (the SFD of a DSSS preamble) is decoded, the
  local instants of its end and of the end of its duration; the receive stamp for each WIDTH, and whether its calibration is stale -/
  | acquiring (at' : Nat) (strength : Int) (start : Nat) (dsss : Bool) (lsig : Option (Nat × Nat)) (stamps : List (Stamp × Bool))
  /-- past the SIG fields: latched strength, receive stamp and whether its calibration is stale, solicited by the radio's own trigger, local
  instants of the end of the L-SIG duration and of the start of its last symbol -/
  | receiving (strength : Int) (stamp : Stamp) (stale solicited : Bool) (endAt lastSymbol : Nat)
deriving DecidableEq, Repr

/-- A channel change under way (R219): announced, waiting for its commit window, or in its availability check. -/
structure ChanMove where
  chan : WideChan
  job : Option Nat
  /-- TBTTs still to pass before the change (channel switch announcement) -/
  csa : Option Nat := none
  /-- the beat at whose commit window the channel changes, once known -/
  eff : Option Nat := none
  /-- the availability check ends at this beat -/
  cacEnd : Option Nat := none
  reason : Nat := 0
  /-- the channel to go back to -/
  back : WideChan := {}
  /-- the radio leaves its channel at this beat's commit window at the latest: a confirmed radar (R197) -/
  latest : Option Nat := none
deriving DecidableEq, Repr

/-- An MPDU that a response answers (R254): sender, TID (16: none), sequence number, and whether it is acknowledged; an MPDU of an agreement that ends
DECRYPT_FAIL is not. -/
structure AckBit where
  client : Nat
  tid : Nat
  seq : Nat
  acked : Bool
deriving DecidableEq, Repr

/-- An immediate response that is committed (R215, R231): local instants of T0 and of the commitment, duration, format, what it answers, the MPDUs of the
station role that a TB PPDU has room for. -/
structure Response where
  at' : Nat
  since : Nat
  dur : Nat
  phy : PhyMode := {}
  acks : List AckBit := []
  count : Nat := 0
deriving DecidableEq, Repr

/-- A stamp for Table 4-10: whether its calibration was stale, and whether it is one of a DSSS PPDU (R208). -/
structure TimingStamp where
  stamp : Stamp := {}
  stale : Bool := false
  dsss : Bool := false
deriving DecidableEq, Repr, Inhabited

/-- The stamps of a timing frame for Table 4-10: when it left, when its acknowledgement came. -/
structure TimingPair where
  tod : TimingStamp := {}
  toa : Option TimingStamp := none
deriving DecidableEq, Repr, Inhabited

/-- An MPDU held for reordering (R257): radio, stamp, MPDU. -/
structure HeldMpdu where
  radio : Nat
  stamp : Stamp
  stale : Bool
  m : Mpdu
  /-- of a DSSS PPDU; signal strength, MCS and streams of the PPDU -/
  dsss : Bool := false
  rssi : Int := 0
  mcs : Nat := 0
  nss : Nat := 1
deriving DecidableEq, Repr

/-- A BlockAck agreement with the device as recipient (R255 to R257): size, window start,
MPDUs held, the beat since which a gap holds delivery, numbers that the window was moved past without them. -/
structure BaRx where
  size : Nat
  start : Nat
  held : List (Nat × HeldMpdu) := []
  gap : Option Nat := none
  passed : List Nat := []
deriving DecidableEq, Repr

/-- A client entry (Table 5-6) and its power-save and agreement state. -/
structure Client where
  kind : Nat := 1
  bss : Nat := 0
  addr : Nat := 0
  aid : Nat := 1
  flags : Nat := 0
  ps : Bool := false
  link1 : Nat := 0xFFFF
  link2 : Nat := 0xFFFF
  key0 : Nat := 0xFFFF
  key1 : Nat := 0xFFFF
  uapsd : Nat := 0
  maxSp : Nat := 0
  assocBeat : Nat := 0
  lastRx : Nat := 0
  outBytes : Nat := 0
  inBytes : Nat := 0
  emPad : Nat := 0
  emDelay : Nat := 0
  /-- absent from a radio until a local instant (R227) -/
  absent : List (Nat × Nat) := []
  /-- PS-Polls still to be answered (R250), with the radio they came on -/
  polls : List Nat := []
  /-- frames left in a U-APSD service period -/
  spLeft : Option Nat := none
  /-- originator agreements: TID, buffer size -/
  baTx : List (Nat × Nat) := []
  baRx : List (Nat × BaRx) := []
  /-- a BlockAckReq is due on these TIDs, with the starting sequence number that it gives (R259) -/
  barDue : List (Nat × Nat) := []
  /-- sequence control per TID (16: no QoS Control field) -/
  seqRec : List (Nat × Nat) := []
  /-- next transmit sequence number per TID -/
  txSeq : List (Nat × Nat) := []
deriving DecidableEq, Repr

/-- One beat in which a link was served at an MCS and stream count: MPDUs sent and lost (R244). -/
structure LinkPer where
  beat : Nat
  mcs : Nat
  nss : Nat
  sent : Nat
  lost : Nat
deriving DecidableEq, Repr

/-- One beat of exchanges with a neighbour (R269): air time in µs, MPDUs sent and lost, the sum of their MCS. -/
structure MetricRow where
  beat : Nat
  air : Nat := 0
  sent : Nat := 0
  lost : Nat := 0
  mcsSum : Nat := 0
deriving DecidableEq, Repr

/-- A link record (Table 5-7). -/
structure LinkRec where
  client : Nat
  radio : Nat
  caps : Nat := 0
  addr : Nat := 0
  mcsCap : Nat := 15
  mcs : Nat := 4
  nss : Nat := 1
  rssi : Int := 0
  ampduExp : Nat := 0
  baSize : Nat := 1
  txMpdu : Nat := 0
  txFail : Nat := 0
  tbMiss : Nat := 0
  /-- left out of basic triggers (R243) -/
  silent : Bool := false
  /-- air time per beat in µs over the last 1,000 beats (R269, Table 5-7) -/
  air : List (Nat × Nat) := []
  per : List LinkPer := []
  /-- beat of the last exchange that succeeded (R244) -/
  lastOk : Nat := 0
deriving DecidableEq, Repr

/-- An individual TWT agreement (R245, R246). -/
structure TwtFlow where
  radio : Nat
  client : Nat
  flow : Nat
  phase : Nat
  interval : Nat
  offset : Nat
  dur : Nat
  announced : Bool
  noshows : Nat := 0
deriving DecidableEq, Repr

/-- A service period that runs (R247 to R249): its key (agreement number, or 1,000,000 + schedule key), 0 individual, 1 broadcast, 2
restricted, start and nominal end in TBC ns, announced, members, those present, those judged no-shows. -/
structure ServicePeriod where
  key : Nat
  kind : Nat
  startNs : Nat
  endNs : Nat
  announced : Bool := false
  members : List Nat
  present : List Nat := []
  judged : List Nat := []
deriving DecidableEq, Repr

/-- An MPDU that is on the air, or waits for its acknowledgement. -/
structure SentMpdu where
  queue : Nat
  item : Queued
deriving DecidableEq, Repr

/-- An exchange in progress (R230): as it started; 0 on the air, 1 waiting for what answers it. -/
structure Exchange where
  air : WideAir
  phase : Nat := 0
  startMono : Nat
  /-- the transmit stamp, and CAL_STALE and HOLDOVER at its instant -/
  stamp : Stamp := {}
  flags : Bool × Bool := (false, false)
  sent : List SentMpdu := []
  /-- users of a trigger frame that are still to answer: clients -/
  users : List Nat := []
  upstream : Bool := false
  /-- power management of a QoS Null (R232) -/
  pm : Nat := 0
deriving DecidableEq, Repr

/-- One wide radio. -/
structure Radio where
  rx : WideRxPhase := .idle
  /-- an acquisition behind the last symbol of a PPDU -/
  rxNext : WideRxPhase := .idle
  /-- chains powered now, the chain mask of this beat and that of the beat before (R189, R207) -/
  chains : Nat := 0
  mask : Nat := 0
  oldMask : Nat := 0
  /-- closed-loop correction per chain in 0.25 dB units, beats held at its limit, the deviation measured since the last commit window -/
  tpc : List Int := [0, 0, 0, 0]
  tpcRun : List Nat := [0, 0, 0, 0]
  tpcSeen : List (Option Int) := [none, none, none, none]
  /-- 6 GHz transmission is stopped (R195) -/
  grantStopped : Bool := false
  /-- radar confirmed: data transmission stops from this beat on (R197) -/
  radarStop : Option Nat := none
  move : Option ChanMove := none
  /-- the operating width is capped by the mode (R185) -/
  capped : Bool := false
  /-- test mode and its chains; its last beat, 0 for none; the local instant from which its PPDUs are still to be counted -/
  test : Option (Nat × Nat) := none
  testEnd : Nat := 0
  testFrom : Nat := 0
  exchange : Option Exchange := none
  /-- a transmission that waits for an obstruction to end: its facts, its start instant, its frames -/
  waiting : Option Exchange := none
  /-- the waiting transmission waits for an F24 span (R215) -/
  shareWait : Bool := false
  responseAt : Option Response := none
  /-- the response is on the air -/
  responding : Bool := false
  /-- the medium is busy until this local instant by L-SIG (R198, R204); spans of busy time of the beat -/
  busyUntil : Nat := 0
  busy : List (Nat × Nat) := []
  /-- the PPDU being received is a DSSS one (R208) -/
  rxDsss : Bool := false
  /-- the 20 MHz subchannels last found busy (R198); the local instant since which the primary is busy by energy; the last one at which it was found
  idle again, a PPDU of the radio's own ended or a beacon was queued (R236) -/
  cca : Nat := 0
  edFrom : Option Nat := none
  idleFrom : Nat := 0
  /-- the coexistence scan forbids 40 MHz in 2.4 GHz (Table 4-4) -/
  forbid40 : Bool := false
  /-- BSS colour of the upstream BSS, while the link is up -/
  upColour : Option Nat := none
  /-- the last timing frame of each kind and planned exchange: key 65536 · kind + exchange (R209) -/
  timing : List (Nat × TimingPair) := []
  /-- OBSS-PD power limit until this local instant (R199) -/
  obssUntil : Nat := 0
  upWindow : Bool := false
  /-- R232: a QoS Null due with this power management; the power management last sent, and whether it was acknowledged -/
  nullDue : Option Nat := none
  upPm : Nat := 1
  upPmAcked : Bool := true
  /-- R232, mode 1: the TWT agreement with the upstream AP: interval in beats, phase and duration in µs -/
  upTwt : Option (Nat × Nat × Nat) := none
  /-- the upstream client, while the link is up -/
  upLink : Option Nat := none
  /-- a beacon is due until this local instant: the end of the TBTT span -/
  beaconDue : Option Nat := none
  /-- TBTTs so far -/
  tbtts : Nat := 0
  lastTbtt : Option Nat := none
  bcnMissRun : Nat := 0
  /-- BSS Parameters Change Count per BSS (R240) -/
  changeCount : List (Nat × Nat) := []
  /-- the beacon body last committed (R239) -/
  beaconBody : BeaconBody := {}
  /-- BSSs whose group-addressed frames a DTIM beacon has released, with its beat (R238) -/
  groupRelease : List (Nat × Nat) := []
  periods : List ServicePeriod := []
  ftmSessions : Nat := 0
  /-- beat at which the Steward was last told of a sender without an entry (Table 5-3) -/
  class3 : List (Nat × Nat) := []
  tpcStk : Bool := false
  grantStk : Bool := false
  radarStk : Bool := false
  pnLowStk : Bool := false
  micStk : Bool := false
  noshowStk : Bool := false
  /-- PHY counters of Table 4-19 by response offset; access counters of Table 5-14: key 256 · (BSS, 255 the radio) + offset -/
  phyCounts : List (Nat × Nat) := []
  counts : List (Nat × Nat) := []
deriving DecidableEq, Repr

/-- A WIDE_CLIENT_DEL that awaits its deauthentication frame (R271). -/
structure ClientDel where
  job : Nat
  client : Nat
  due : Nat
deriving DecidableEq, Repr

/-- The wide chapters outside Kept values. -/
structure Wide where
  radios : Vector Radio 2 := .replicate 2 {}
  clients : List (Nat × Client) := []
  links : List (Nat × LinkRec) := []
  twt : List (Nat × TwtFlow) := []
  /-- WLAN key entries; field entries stand among the Kept values -/
  keys : List (Nat × KeyEntry) := []
  /-- WLAN key entries that the next commit window installs (R265, R271) -/
  keysNext : List (Nat × KeyEntry) := []
  dels : List ClientDel := []
  /-- beat of the last WIDE_RELAY_MISS per destination address, and of the last WIDE_MIC_FAIL per station address (R274) -/
  relayMiss : List (Nat × Nat) := []
  micTold : List (Nat × Nat) := []
  /-- members of the broadcast and restricted TWT schedules, by schedule as in WideKept (R245) -/
  twtMembers : List (Nat × List Nat) := []
  /-- the last 1,000 beats with each neighbour (R269) -/
  metrics : List (Nat × List MetricRow) := []
  /-- APs whose beacons were heard: address, 256 · band + primary channel (R224) -/
  heard : List (Nat × Nat) := []
deriving DecidableEq, Repr

end Sys2Proof.Machine
end

