-- ==== Sys2Proof/Machine/State/Wired.lean ====
section
/-! DEFINITION. The state of the wired ports, the switch and routing (chapter 8). -/

namespace Sys2Proof.Machine

/-- WIRED_PORT_SET (Table 8-11), every field Kept. -/
structure WPortCfg where
  mode : Nat := 0
  fec : Nat := 0
  an : Bool := true
  eee : Bool := false
  pauseRx : Bool := false
  pauseTx : Bool := false
  learn : Bool := true
  sTag : Bool := false
  dscpTrust : Bool := false
  deiIn : Bool := false
  maxFrame : Nat := 1522
  pvid : Nat := 1
  accept : Nat := 0
  ingressFilter : Bool := true
  state : Nat := 2
  defaultClass : Nat := 0
  xoffKb : Nat := 192
  xonKb : Nat := 128
  quanta : Nat := 0xFFFF
  lpiIdle : Nat := 100
  twMin : Nat := 0
  phyad : Nat := 0xFF
  bssPvid : List Nat := [1, 1, 1, 1, 1, 1, 1, 1]
  ringMap : List Nat := [0, 1, 2, 3, 4, 5, 6, 7]
deriving DecidableEq, Repr, Inhabited

/-- WIRED_T1S_SET (Table 8-2). -/
structure T1sCfg where
  plca : Bool := true
  nodeId : Nat := 0
  nodeCount : Nat := 8
  toTimer : Nat := 32
  maxBurst : Nat := 0
  burstTimer : Nat := 128
deriving DecidableEq, Repr, Inhabited

/-- WIRED_SWITCH_CONFIG. -/
structure SwitchCfg where
  l2Age : Nat := 300000
  flowAge : Nat := 60000
  rstp : Nat := 0
  route : Bool := false
deriving DecidableEq, Repr, Inhabited

/-- A VLAN entry (Table 8-13). -/
structure Vlan where
  valid : Bool := false
  learn : Bool := false
  dhcp : Bool := false
  member : Nat := 0
  untag : Nat := 0
deriving DecidableEq, Repr, Inhabited

/-- An L2 entry (Table 8-8). -/
structure L2Entry where
  mac : Nat
  vid : Nat
  destKind : Nat := 0
  static : Bool := false
  hit : Bool := true
  classOvr : Bool := false
  dest : Nat := 0
  policer : Nat := 0xFFFF
  cls : Nat := 0
deriving DecidableEq, Repr, Inhabited

/-- An L3 interface, a next hop (Table 8-14) and a prefix. -/
structure L3If where
  enable : Bool := false
  v4 : Bool := false
  v6 : Bool := false
  vid : Nat := 1
  mac : Nat := 0
  mtu : Nat := 1500
deriving DecidableEq, Repr, Inhabited

structure NextHop where
  kind : Nat := 0
  valid : Bool := false
  dest : Nat := 0
  ifc : Nat := 0
  mac : Nat := 0
deriving DecidableEq, Repr, Inhabited

structure Prefix where
  v6 : Bool
  len : Nat
  addr : Nat
  action : Nat
  nh : Nat
deriving DecidableEq, Repr, Inhabited

/-- Kept values of the wired chapter. Static L2 entries are keyed by table index 4 · bucket + way. -/
structure WiredKept where
  ports : List (Nat × WPortCfg) := []
  t1s : List (Nat × T1sCfg) := []
  switch : SwitchCfg := {}
  vlans : List (Nat × Vlan) := [(1, { valid := true, learn := true, member := 0x0FFFFFFF, untag := 0x00FFFFFF })]
  groups : List (Nat × Nat) := []
  ifs : List (Nat × L3If) := []
  nexthops : List (Nat × NextHop) := []
  prefixes : List Prefix := []
  pcpMaps : List (Nat × List Nat) := []
  dscpMaps : List (Nat × List Nat) := []
  statics : List (Nat × L2Entry) := []
deriving DecidableEq, Repr, Inhabited

/-- A flow (Table 8-15): its key of R394 as numbers, and what it gives. -/
structure Flow where
  v6 : Bool
  proto : Nat
  vid : Nat
  sport : Nat
  dport : Nat
  src : Nat
  dst : Nat
  nh : Nat
  policer : Nat
  classOvr : Bool
  cls : Nat
  hit : Bool := true
deriving DecidableEq, Repr

/-- A frame on its way out of a wired port or into the host. -/
structure WiredTx where
  item : Queued
  startNs : Nat
  endNs : Nat
  /-- the end of SFD on the medium: the stamp's instant, and CAL_STALE and HOLDOVER as they stood at it -/
  stamp : Stamp
  flags : Bool × Bool := (false, false)
  /-- the local instant of the end of SFD -/
  issue : Nat := 0
deriving DecidableEq, Repr

/-- A frame being received: its cells (none: no cell was free), its stamp. -/
structure RxRun where
  cells : Option Nat := none
  stamp : Stamp := {}
  calStale : Bool := false
deriving DecidableEq, Repr

/-- One port's running state. -/
structure WPort where
  /-- 0 down, 1 up, 2 held down (half duplex) -/
  link : Nat := 0
  speed : Nat := 0
  linkChanges : Nat := 0
  /-- local instant at which the present pause ends -/
  pauseEnd : Option Nat := none
  /-- quanta accepted while a frame is in progress: its pause runs from the frame's end -/
  pauseAfter : Option Nat := none
  xoff : Bool := false
  xoffAt : Nat := 0
  /-- a PAUSE that waits for the frame in progress: its quanta -/
  pauseDue : Option Nat := none
  lpiTx : Bool := false
  lpiRx : Bool := false
  eeeAgreed : Bool := false
  partnerTw : Nat := 0
  /-- local instant since which no frame has been eligible -/
  idleFrom : Nat := 0
  /-- the transmit wake time ends at this local instant -/
  wakeEnd : Option Nat := none
  /-- the frame being received, from its first cell on -/
  rx : Option RxRun := none
  tx : Option WiredTx := none
  /-- PLCA_STATE (Table 8-12) -/
  plca : Nat := 0
  beaconAt : Nat := 0
  /-- attempts of the head frame that met collisions -/
  attempts : Nat := 0
  /-- a frame waits for a back-off, or for the next opportunity -/
  retry : Option WiredTx := none
  /-- traps per reason in the present 1,000 beats -/
  traps : List (Nat × Nat) := []
  trapsFrom : Nat := 0
  /-- the last frame sent ended here: the gap that follows it -/
  gapEnd : Nat := 0
  extraSent : Nat := 0
  /-- a PLCA burst may go on until this local instant (Table 8-2) -/
  burstUntil : Option Nat := none
  /-- the port pair is a transparent one (R61): the other port -/
  transparent : Option Nat := none
  /-- the PCS lane position of a 25G BH port, in 2^-16 ns (Table 1-11) -/
  lanePos : Int := 0
  /-- counters of Table 8-16 keyed by response offset -/
  counts : List (Nat × Nat) := []
  rxClientBytes : Nat := 0
  txDelivBytes : Nat := 0
deriving DecidableEq, Repr

/-- The wired chapter outside Kept values. -/
structure Wired where
  ports : List (Nat × WPort) := []
  learned : List (Nat × L2Entry) := []
  flows : List (Nat × Flow) := []
  /-- beats at which the last ageing sweeps ran -/
  l2Sweep : Nat := 0
  flowSweep : Nat := 0
  l2FullBeat : Option Nat := none
  /-- MDC rate in units of 1.25 MHz -/
  mdc : Nat := 2
  /-- a WIRED_MDIO that is not answered yet: its job -/
  mdio : List Nat := []
  mdioPollBeat : Nat := 0
  linkDownStk : Bool := false
  plcaStk : Bool := false
  l2FullStk : Bool := false
  flowFullStk : Bool := false
  /-- switch-scope counters keyed by response offset -/
  counts : List (Nat × Nat) := []
deriving DecidableEq, Repr

end Sys2Proof.Machine
end

