-- ==== Sys2Proof/Machine/State/Kept.lean ====
section
/-! DEFINITION. The Kept values of every chapter in one structure: what a flash copy of the Ingot and the journal record
(R11, R119, R526), so that a restore is one assignment. -/

namespace Sys2Proof.Machine

/-- Kept values of start-up and security (chapter 12). -/
structure BootKept where
  /-- the lane 2 CMAC key (SEC_KEY_SET kind 0) -/
  lane2Key : Option (List Byte) := none
  subsysVendor : Nat := 0
  subsysId : Nat := 0
  factoryRestoreCnt : Nat := 0
deriving DecidableEq, Repr, Inhabited

/-- The Kept values (R11, R119): what a flash copy of the Ingot and the journal record. -/
structure Kept where
  time : TimeKept := {}
  stw : StewardKept := {}
  power : PowerKept := {}
  assay : AssayKept := {}
  boot : BootKept := {}
  plan : PlannerKept := {}
  mem : MemKept := {}
  wired : WiredKept := {}
  front : FrontKept := {}
  field : FieldKept := {}
  wide : WideKept := {}
  pole : PoleKept := {}
deriving DecidableEq, Repr, Inhabited

end Sys2Proof.Machine
end

