-- ==== Sys2Proof/Machine/State/Boot.lean ====
section
/-! DEFINITION. The state of start-up, flash, fuses, Ingot copies and image update (chapter 12). -/

namespace Sys2Proof.Machine

/-- The Kept values that a valid factory seed's records spell: their layout inside a record is not in the spec (log entry 12). -/
opaque seedKept : Memory → Kept

/-- Do the records of a flash copy of these values stay within what its region holds (R526)? The records' own layouts are not in the spec (log
entry 12). -/
opaque copyFits : Kept → Bool

/-- A commit record (R531, Table 12-9); a torn or absent copy is none. -/
structure CommitRecord where
  seq : Nat
  active : Nat
  trial : Bool
  trialsLeft : Nat := 0
  autoConfirm : Bool := false
  versionA : Nat := 0
  versionB : Nat := 0
  confirmBeats : Nat := 600000
deriving DecidableEq, Repr

/-- A valid flash copy of the Ingot (R526, Table 12-7): its records ARE the Kept values. -/
structure IngotCopy where
  seq : Nat
  /-- SERIAL of another device (R529); none: this device's own -/
  foreign : Option Nat := none
  deviceOnly : Bool := false
  kept : Kept
  writeBeat : Nat := 0
  fwVersion : Nat := 0
  epoch : Nat := 0
  /-- energy accumulators per pair, which a copy carries (R490) -/
  energy : List (Nat × Energy) := []
deriving DecidableEq, Repr

/-- The octal-SPI flash (R518, Table 12-4). Image slots and the seed region are byte memories from their own offset 0. -/
structure Flash where
  imageA : Memory := []
  imageB : Memory := []
  seed : Memory := []
  copy0 : Option IngotCopy := none
  copy1 : Option IngotCopy := none
  /-- a copy region that was erased and whose write did not complete: it fails its CRCs (R527) -/
  torn0 : Bool := false
  torn1 : Bool := false
  rec0 : Option CommitRecord := none
  rec1 : Option CommitRecord := none
deriving DecidableEq, Repr

/-- The fuses: permanent under every reset (Table 12-1). -/
structure Fuses where
  rollback : Nat := 0
  ownerHash : Option (List Byte) := none
  revoked : Nat := 0
deriving DecidableEq, Repr

/-- The straps as sampled (R514, Table 12-2). -/
structure Straps where
  bootSrc : Nat := 0
  sbAddr : Nat := 0
  factoryN : Bool := true
  testMode : Bool := false
deriving DecidableEq, Repr

/-- An open image update (R532). `slot` is 0 A, 1 B, 2 RAM. -/
structure ImageUpdate where
  lane : Nat
  slot : Nat
  imageLen : Nat
  secVer : Nat
deriving DecidableEq, Repr

/-- What the flash is erasing or programming (R532, R527, R534). -/
inductive FlashJob where
  /-- IMG_WRITE of a command's bytes: the job, target slot, offset, bytes -/
  | image (job target offset : Nat) (bytes : List Byte)
  | seed (job offset : Nat) (bytes : List Byte)
  /-- the commit record of IMG_COMMIT: the job, the record, ACTIVATE -/
  | commit (job : Nat) (record : CommitRecord) (activate : Bool)
  /-- the permanent record of a confirmation; the job of IMG_CONFIRM where a command asked -/
  | confirm (asker : Option Nat) (record : CommitRecord)
  /-- a flash copy of the Ingot: region and contents -/
  | copy (region : Nat) (ingot : IngotCopy)
deriving DecidableEq, Repr

/-- Start-up, images and security outside Kept values. -/
structure Boot where
  flash : Flash := {}
  fuses : Fuses := {}
  straps : Straps := {}
  /-- the last row of Table 12-3 that is complete: 0 straps latched, 1 ROM runs … 8 READY (log entry 5) -/
  stage : Nat := 1
  /-- the power-on reset is held: no supply is up -/
  porHeld : Bool := false
  /-- SYS_RESET_N is low -/
  pinHeld : Bool := false
  /-- the thermal reset holds the device until sensor 7 cools (R552) -/
  thermalHeld : Bool := false
  /-- this start leads to Recovery whatever the images are -/
  toRecovery : Bool := false
  /-- this start is a warm reset: retained SRAM may be used, FACTORY_N is sampled at its end -/
  warm : Bool := false
  /-- the retained SRAM is valid (AON marker, R528) -/
  sramValid : Bool := false
  /-- the journal in retained SRAM: the working image as of the last complete entry, and the SEQ of its base copy -/
  journal : Kept := {}
  journalBase : Nat := 0
  journalBytes : Nat := 0
  /-- what the flash does: the first is in progress, the others wait -/
  flashJobs : List FlashJob := []
  update : Option ImageUpdate := none
  /-- a host load's RAM target (R532) -/
  ram : Memory := []
  runningSecVer : Nat := 0
  /-- events recorded before READY, raised there: stamp, source, code, data -/
  atReady : List (Stamp × Nat × Nat × List Byte) := []
  /-- FACTORY_N has been low since its sample, and this start judges it (R530) -/
  factoryWatch : Bool := false
  /-- beats of READY operation on a trial image (R534) -/
  trialBeats : Nat := 0
  /-- IMG_COMMIT waits for a flash copy: its job -/
  commitWaits : Option Nat := none
  /-- the copy in flight was taken after that IMG_COMMIT -/
  commitInCopy : Bool := false
  /-- a factory restore was carried out, by 0 strap or 1 command: reported at READY (R530) -/
  factoryBy : Option Nat := none
  /-- PERST_N is high (R536) -/
  perstHigh : Bool := true
  /-- a host load waits for, or runs, a RAM image (R532) -/
  hostRun : Bool := false
  /-- the subsystem IDs that the PCIe endpoint presents: they change at a warm reset (SEC_PCIE_IDS) -/
  pcieVendor : Nat := 0
  pcieDevice : Nat := 0
  hallmarkFailStk : Bool := false
  revertStk : Bool := false
  ingotForeignStk : Bool := false
  /-- counters of Table 12-13, keyed by response offset from 20 -/
  counts : List (Nat × Nat) := []
deriving DecidableEq, Repr

end Sys2Proof.Machine
end

