-- ==== Sys2Proof/Syntax/Boot.lean ====
section
/-! DEFINITION. Operand types of the start-up chapter. -/

namespace Sys2Proof

/-- The outcomes of the self-tests of a start-up stage (R523, R415). -/
structure BootFacts where
  keyStoreOk : Bool := true
  fuseStable : Bool := true
  sramOk : Bool := true
  dramOk : Bool := true
  /-- the devices as detected (R401): type 0 LPDDR4X, 1 LPDDR5; ranks; GB per channel -/
  dramType : Nat := 1
  dramRanks : Nat := 1
  dramGb : Nat := 2
  /-- lines that failed verification, per channel (R415) -/
  linesFailed0 : Nat := 0
  linesFailed1 : Nat := 0
deriving DecidableEq, Repr

end Sys2Proof
end

