-- ==== Sys2Proof/Syntax/Cal.lean ====
section
/-! DEFINITION. Operand types of the Burnisher. -/

namespace Sys2Proof

/-- What a Burnisher step finds at its end (R301, R302): how long it lasted in ns, the highest energy of its quiet check in dBm, the codes
measured, whether a search ended on the first or last code of its range, the differences from the result in force in the parts of Table 6-8
that no code gives (in tenths of their unit), and whether the tuning margin of an oscillator is below 5 %. -/
structure CalFacts where
  dur : Nat := 40000
  energy : Int := -128
  codes : List Int := []
  atEnd : Bool := false
  diffs : List Nat := []
  lowMargin : Bool := false
deriving DecidableEq, Repr

end Sys2Proof
end

