-- ==== Sys2Proof/Syntax/Pole.lean ====
section
/-! DEFINITION. Operand types of the pole I/O chapter. -/

namespace Sys2Proof

/-- The samples of one beat as the converter yields them (R484): per channel 0 to 3 the codes of its modulator, sample by sample, before they
are held to full scale, and the samples lost under R486, each as (channel, index). -/
structure MeterFrame where
  codes : List (List Int) := []
  lost : List (Nat × Nat) := []
deriving DecidableEq, Repr

end Sys2Proof
end

