-- ==== Sys2Proof/Syntax/Power.lean ====
section
/-! DEFINITION. Operand types of the power chapter. -/

namespace Sys2Proof

/-- A frame with EtherType 0x88B5 as it reaches a port in Doze (R474, Table 10-11). -/
structure WakeFrame where
  /-- VLAN tags it carries -/
  tags : Nat := 0
  /-- addressed to the management MAC address or to broadcast -/
  toMe : Bool := true
  fcsOk : Bool := true
  ver : Nat := 1
  target : Nat := 0xFF
  key : List Byte := []
  nodeId : Nat := 0
deriving DecidableEq, Repr

end Sys2Proof
end

