-- ==== Sys2Proof/Syntax.lean ====
section
/-! DEFINITION. The commands of the BX9224 block: ONE inductive, one constructor per row of spec/opcode_table.json, in the
table's order. A row that the spec writes as a Steward command takes the command as its sender writes it (Cmd); a row that
is an event, a pin or a register access takes the facts of that event. -/

namespace Sys2Proof

inductive Instr where
  /-- R32: a beat boundary; the commit window opens. -/
  | commitWindow
  /-- R340: 500 µs into the beat; plan computation starts, with the Steward's inputs (R341). -/
  | planComputation (policy : List AirPolicy)
  /-- R38: 900 µs into the beat; plans are latched. -/
  | planCommit
  /-- R34: a job of unit `source` passed its deadline unfinished and ended `overrunNs` later. -/
  | beatOverrun (source overrunNs : Nat)
  /-- R41: an offset measurement is judged. -/
  | servoMeasurement (m : Measurement)
  | sourceTimeout
  | rebaseLoad
  /-- R54: `intervals` announce intervals have passed since the entry into HOLDOVER with cause STEP. -/
  | autoRebase (intervals : Nat)
  /-- R55: the first time source yields `ns` and `frac`. -/
  | initialRebase (ns frac : Nat)
  | triggerFire (chan : Nat)
  /-- R75: an edge on PPS_IN; `falling` is its direction. -/
  | ppsInEdge (falling : Bool)
  /-- R76: an NMEA sentence that names second `utc` of UTC completes on TOD_RXD. -/
  | todSentence (utc : Nat)
  | ppsMissedSecond
  | tbNowLoRead
  | timeGet (c : Cmd)
  | timeServoConfig (c : Cmd)
  | timeOffsetFeed (c : Cmd)
  | timeRebase (c : Cmd)
  | timePortComp (c : Cmd)
  | timeTsqRead (c : Cmd)
  | timeTrigArm (c : Cmd)
  | timeTrigCancel (c : Cmd)
  | timePpsConfig (c : Cmd)
  | timeCounters (c : Cmd)
  | timeSafeClear (c : Cmd)
  /-- R103: a write of MBX_DB of a lane by its own transport; bit s of `ring` rings slot s. -/
  | doorbell (lane : Nat) (ring : BitVec 16)
  | mbxDoneWrite (lane : Nat) (done : BitVec 16)
  | laneClaim (lane nonce : Nat)
  | hardClaim (lane nonce : Nat)
  | laneReleaseWrite (lane nonce : Nat)
  | leaseRenew (lane : Nat)
  | evrRdWrite (lane rdIdx : Nat)
  | mbxErrRead (lane : Nat)
  | evrLostRead (lane : Nat)
  | sysResetWarm
  | sysResetRecovery
  | sysResetRestart
  /-- R118: a write of PWR_REQ. -/
  | pwrReqWrite (target reqTag : Nat)
  /-- R15: a write of `value` to the direct register at `offset` by transport `via` (0 PCIe, 1 SPI, 2 sideband). -/
  | registerWrite (via offset : Nat) (value : BitVec 32)
  | inbandCommand (f : InbandFrame)
  | inbandDone (f : InbandFrame)
  | inbandClaim (f : InbandFrame)
  | inbandRenewal (f : InbandFrame)
  | inbandBulkWrite (f : InbandFrame)
  | inbandBulkRead (f : InbandFrame)
  | inbandRelease (f : InbandFrame)
  | leaseExpiry (lane : Nat)
  | laneWdogExpiry (lane : Nat)
  | eventBatchWrite
  | stewardRestart
  | stewardReady
  | ingotCopyStart
  /-- R527: the flash copy write completes, or fails when `ok` is false. -/
  | ingotCopyDone (ok : Bool)
  | heartbeat
  | sysGetInfo (c : Cmd)
  | sysNop (c : Cmd)
  | sysCancel (c : Cmd)
  | sysResetCmd (c : Cmd)
  | sysIngotSave (c : Cmd)
  | sysLaneConfig (c : Cmd)
  | sysCounters (c : Cmd)
  /-- R512: the warm reset that is due begins; at its end BOOT_SRC and FACTORY_N are sampled (R514). -/
  | warmReset (bootSrc : Nat) (factoryN : Bool)
  /-- R513: SYS_RESET_N is low for `lowNs` nanoseconds. -/
  | sysResetNLow (lowNs : Nat)
  /-- R139: a preamble on `channel` (11 to 26, or 100 plus the sub-GHz channel): its timing in chips, and what was seen of it. -/
  | fieldDetect (channel : Nat) (timing : Int) (seen : FieldPeriods)
  | fieldAcqAbandon (channel : Nat)
  /-- R147: with the PHR that follows, which says where the last chip lies. -/
  | fieldSfdEnd (channel : Nat) (rssi : Int) (sfd : FieldSfd)
  /-- R143: CORR of 8 consecutive symbols. -/
  | fieldSyncLost (span : FieldSpan)
  | fieldGainReduce (db : Nat)
  | fieldRxEnd (channel : Nat) (x : FieldRx)
  | fieldAckSend (chain : Nat)
  | fieldTxRelease (chain slots : Nat)
  | fieldBackoffEnd (chain : Nat)
  | fieldCcaEnd (chain : Nat) (energy : Int) (slots : Nat)
  | fieldTxEnd (chain : Nat)
  | fieldAckWaitEnd (chain slots : Nat)
  | pollAnswerSend (chain : Nat) (energy : Int) (slots : Nat)
  | childFrameExpired (child : Nat)
  | fieldChildSilent (child : Nat)
  | fieldRdvSend (record len : Nat)
  | fieldRdvMissed (record : Nat)
  | fieldRdvLost (record : Nat)
  | fieldConfig (c : Cmd)
  | fieldChildSet (c : Cmd)
  | fieldChildDel (c : Cmd)
  | fieldChildGet (c : Cmd)
  | fieldRdvSet (c : Cmd)
  | fieldOrphanPlan (c : Cmd)
  | fieldTest (c : Cmd)
  | fieldCounters (c : Cmd)
  /-- R200: a preamble is detected; it began `ago` ns ago. -/
  | wideDetect (radio : Nat) (strength : Int) (ago : Nat) (preamble : WidePreamble)
  | wideAcqAbandon (radio : Nat)
  | wideSigEnd (radio : Nat) (x : SigFacts)
  | wideCarrierLost (radio : Nat)
  | widePpduEnd (radio : Nat) (x : PpduRx)
  | wideExchangeStart (radio : Nat) (a : WideAir)
  | wideResponseSend (radio : Nat)
  /-- R206; `deviation` is what each chain's detector shows against the target power, 0.25 dB (R194). -/
  | wideTxEnd (radio : Nat) (deviation : List Int)
  | wideAckTimeout (radio : Nat)
  | msduLifetimeExpiry (queue : Nat)
  | psLifetimeExpiry (queue : Nat)
  | reorderTimeout (client tid : Nat)
  /-- R236: a TBTT, with the air time of the beacon; `upstream`: the upstream AP's TBTT in ns after this one, and its phase in beats. -/
  | beaconTbtt (radio airNs : Nat) (upstream : Option (Nat × Nat))
  | beaconSkip (radio : Nat)
  /-- R247: individual agreement `key`, or 1,000,000 + the key of a schedule with the clients that have joined it. -/
  | twtSpStart (key : Nat) (members : List Nat)
  | twtNoshow (radio key : Nat)
  | twtSpEnd (radio key : Nat)
  /-- R232: the air time of the QoS Null frame, and of it with its acknowledgement. -/
  | upstreamWindowStart (radio airNs total : Nat)
  | upstreamWindowEnd (radio airNs total : Nat)
  | grantExpiry
  | radarPulse (radio : Nat)
  /-- R197: `hit` are the 20 MHz subchannels with radar; the channel that the Steward moves to (band 0xFF: none), announced for `csa` beacon
  intervals. -/
  | radarConfirmed (radio hit band primary width puncture csa : Nat)
  | cacEnd (radio : Nat)
  /-- R197: the barred 20 MHz channel, as 256 · band + channel number. -/
  | nonOccupancyEnd (channel : Nat)
  | wideChanSet (c : Cmd)
  | wideTxpwrConfig (c : Cmd)
  | wideRxConfig (c : Cmd)
  | wideMldPair (c : Cmd)
  | wideFtmConfig (c : Cmd)
  | wideTest (c : Cmd)
  | widePhyCounters (c : Cmd)
  | wideBssSet (c : Cmd)
  | wideUpstreamSet (c : Cmd)
  | wideAccessConfig (c : Cmd)
  | wideClientGet (c : Cmd)
  | wideClientDel (c : Cmd)
  | wideKeyInstall (c : Cmd)
  | wideKeyDel (c : Cmd)
  | wideKeyInfo (c : Cmd)
  | wideTwtSet (c : Cmd)
  | wideNeighbourSet (c : Cmd)
  | wideAccessCounters (c : Cmd)
  | synthLocked (synth : Nat)
  /-- R278: synthesiser `synth` loses lock; `slots` is the back-off drawn for the retry of a field frame that it cuts. -/
  | synthUnlock (synth slots : Nat)
  | obstructionEnd (source : Nat)
  | lateAllowanceExpiry (source : Nat)
  | paTimeout (source chain slots : Nat)
  /-- R291: REQ rises on port `port`; `pri` is the level of PRI. -/
  | coexReqRise (port : Nat) (pri : Bool)
  | coexGrant (port : Nat)
  | coexReqFall (port : Nat)
  | coexRevoke (port : Nat)
  | coexCoolEnd (port : Nat)
  | coexBlankRise (port : Nat)
  | coexBlankFall (port : Nat)
  | coexHoldRise (port : Nat)
  | coexHoldFall (port : Nat)
  /-- R299: a step of calibration `cal` for a target of Table 6-18 comes due. -/
  | calStepStart (cal target sub : Nat)
  | calStepEnd (cal target sub : Nat) (facts : CalFacts)
  | staleRetryExpiry (cal target sub : Nat)
  | fePinConfig (c : Cmd)
  | feCoexConfig (c : Cmd)
  | calConfig (c : Cmd)
  | calRun (c : Cmd)
  | calStatus (c : Cmd)
  | feCounters (c : Cmd)
  /-- R326: a frame of the Steward's services for `queue`, leaving under `vid` where it goes to a wired port. -/
  | enqueue (queue : Nat) (payload : Payload) (vid : Nat)
  /-- R316: `egress` falls free; `descs` are the receive descriptors that the device reads, for the host CPU port. -/
  | egressSelect (egress : Nat) (descs : List RxDesc)
  | gateEntryChange (egress : Nat)
  | planQueueSet (c : Cmd)
  | planClassSet (c : Cmd)
  | planPolicerSet (c : Cmd)
  | planGateSet (c : Cmd)
  | planMaskSet (c : Cmd)
  | planAirConfig (c : Cmd)
  | planAirRead (c : Cmd)
  | planQueueGet (c : Cmd)
  | planCounters (c : Cmd)
  /-- R362: the conditions of the port's mode are met; `word` is the speed that an SGMII PHY reports, `half` its half duplex. -/
  | linkUp (port word : Nat) (half : Bool)
  | linkDown (port : Nat)
  | mdioPoll
  | plcaBeaconRx (port : Nat)
  | plcaFallback (port : Nat)
  | transmitOpportunity (port : Nat)
  /-- R369: a collision `bits` bit times into the frame in progress; `slots` is the back-off drawn. -/
  | collision (port bits slots : Nat)
  | csmaBackoffEnd (port : Nat)
  | rxCellClaim (port : Nat)
  | wiredFrameRx (port : Nat) (w : WiredRx)
  | pauseEnd (port : Nat)
  | pauseRepeat (port : Nat)
  | lpiEntry (port : Nat)
  | lpiWakeEnd (port : Nat)
  | wiredTxEnd (port : Nat)
  | l2AgeSweep
  | flowAgeSweep
  | wiredPortSet (c : Cmd)
  | wiredPortStatus (c : Cmd)
  | wiredT1sSet (c : Cmd)
  | wiredSwitchConfig (c : Cmd)
  | wiredVlanSet (c : Cmd)
  | wiredGroupSet (c : Cmd)
  | wiredL2Set (c : Cmd)
  | wiredL2Read (c : Cmd)
  | wiredL3IfSet (c : Cmd)
  | wiredNexthopSet (c : Cmd)
  | wiredPrefixSet (c : Cmd)
  | wiredFlowSet (c : Cmd)
  | wiredClassMap (c : Cmd)
  | wiredMdio (c : Cmd)
  | wiredCounters (c : Cmd)
  /-- R413: the next refresh burst slot of `channel`; `delayNs` is how long panic holds it back, `pass` what the pattern
  compare of a training step directly behind it gives (R416). -/
  | refreshBurst (channel delayNs : Nat) (pass : Bool)
  /-- R413: MR4 of `channel` gives the multiplier `m` and the device temperature in 0.1 °C. -/
  | mr4Read (channel m : Nat) (temp : Int)
  /-- R407: port `port` receives the block at device address `addr`; `ecc` 0 clean, 1 corrected, 2 uncorrectable; `tx`: port 4 reads
  for transmission; `queue`: the queue whose head frame holds the block. -/
  | dramReadDone (port addr ecc : Nat) (tx : Bool) (queue : Option Nat)
  | portLeaseExpiry (port : Nat)
  /-- R430: the descriptors that the device reads at the next index of a host transmit ring. -/
  | txRingPoll (ring : Nat) (descs : List TxDesc)
  | ringStatusWrite (ring : Nat)
  | memConfig (c : Cmd)
  | memPoolSet (c : Cmd)
  | memCellSet (c : Cmd)
  | memPortSet (c : Cmd)
  | memRingSet (c : Cmd)
  | memRingRead (c : Cmd)
  | memStatus (c : Cmd)
  | memCounters (c : Cmd)
  | fullReturn
  /-- R451: an AVSBus voltage read returns `mv`; `acked` is false where the regulator does not acknowledge it. -/
  | avsRead (acked : Bool) (mv : Nat)
  | avsTimeout
  /-- R458: block `block` answers; `refuse` is 0 where it agrees, else a reason of Table 10-6. -/
  | entryBlockReply (block refuse : Nat)
  | entryUndoDone
  | spiCsFall
  /-- R471: the address at `offset` from the base matches; `recoveryWrite`: the transaction writes 0x5A5A_0001 to SYS_RESET. -/
  | sidebandAddressMatch (offset : Nat) (recoveryWrite : Bool)
  | sidebandHoldEnd
  | wakeFrameRx (port : Nat) (f : WakeFrame)
  | linkEnergy (port : Nat)
  | gpioEdge (pin : Nat) (rising : Bool)
  | pwrAlarmFire
  | rdvLeadAlarm (record : Nat)
  /-- R466: the AON sensor reads `temp` in 0.1 °C. -/
  | thermalWake (temp : Int)
  | debugStartBit
  | wakeBringupStage
  | dormantReturn
  | brownOut
  | supplyMonitorTrip (supply : Nat)
  | porRelease (bootSrc sbAddr : Nat) (factoryN testMode : Bool)
  | pwrSetMode (c : Cmd)
  | pwrConfig (c : Cmd)
  | pwrAlarm (c : Cmd)
  | pwrStatus (c : Cmd)
  | pwrCounters (c : Cmd)
  /-- R485: the metering frame of the last sampled beat is processed; `f` is what the converter sampled. -/
  | meterJob (f : MeterFrame)
  /-- R496: interface `port` starts its next frame, `extra` ns (0 to 1,200,000) being the random part of the settling time. -/
  | daliFrameStart (port extra : Nat)
  | daliFrameEnd (port : Nat)
  /-- R496: a backward frame whose start bit began `gap` ns after the forward frame's end; `corrupt`: with a bit-timing violation. -/
  | daliBackwardRx (port gap data : Nat) (corrupt : Bool)
  | daliAnswerWindowEnd (port : Nat)
  /-- R495, R499: a frame of another master, of `bits` bits, ends; `good`: without an error. -/
  | daliForwardRx (port bits data : Nat) (good : Bool)
  | daliCollision (port : Nat)
  | daliBusFault (port : Nat)
  | daliBusRecover (port : Nat)
  | timerWrap (chan : Nat)
  /-- R503: `which` is 0 for CMP_A and 1 for CMP_B. -/
  | timerMatch (chan which : Nat)
  | timerCapture (pin : Nat) (rising : Bool)
  | meterConfig (c : Cmd)
  | meterTrigSet (c : Cmd)
  | meterCaptureFire (c : Cmd)
  | meterCaptureRead (c : Cmd)
  | meterEnergyRead (c : Cmd)
  | daliConfig (c : Cmd)
  | daliSend (c : Cmd)
  | tmrChanSet (c : Cmd)
  | tmrGroup (c : Cmd)
  | tmrCompare (c : Cmd)
  | tmrCaptureRead (c : Cmd)
  | gpioConfig (c : Cmd)
  | gpioWrite (c : Cmd)
  | poleCounters (c : Cmd)
  /-- R515: the next stage of Table 12-3 completes, with the outcomes of its self-tests. -/
  | bootStage (f : BootFacts)
  | factoryStrapTimeout
  | autoConfirm
  | perstNFall
  | secInfo (c : Cmd)
  | secAttest (c : Cmd)
  | secCertRead (c : Cmd)
  | secKeySet (c : Cmd)
  | imgBegin (c : Cmd)
  | imgWrite (c : Cmd)
  | imgCommit (c : Cmd)
  | imgConfirm (c : Cmd)
  | secFactoryRestore (c : Cmd)
  | seedWrite (c : Cmd)
  | secPcieIds (c : Cmd)
  | secCounters (c : Cmd)
  /-- R542: the pair whose turn it is counts `nU` and `nS` in its window. -/
  | assayPairMeasure (nU nS : Nat)
  | assayReplanPeriodic
  /-- R549: the eight readings in 0.1 °C, and the activity model's power, averaged over 1,000 beats, in 10 mW units. -/
  | sensorRead (temps : List Int) (pEst : Nat)
  | thermalTrip
  /-- R552: sensor 7 reads `temp` in 0.1 °C; BOOT_SRC and FACTORY_N are sampled at the reset's end. -/
  | thermalRelease (temp : Int) (bootSrc : Nat) (factoryN : Bool)
  /-- R547: a second passes; in Dormant, sensor 7 reads `aon` in 0.1 °C. -/
  | lifeEqTick (aon : Int)
  | stewardWdogExpiry
  | stewardException
  | chipWdogExpiry
  | parityError (source : Nat)
  | unitResume (source : Nat)
  | assayStatus (c : Cmd)
  | assayConfig (c : Cmd)
  | assayReplan (c : Cmd)
  | assayPairRead (c : Cmd)
  | assayFaultLog (c : Cmd)
  | assayUnitEnable (c : Cmd)
  | assayCounters (c : Cmd)
  /-- R38: the plan of unit `source` for the next beat is complete. -/
  | planCompletion (source : Nat)
  /-- R70: the pulse that channel `chan` drives ends. -/
  | triggerPulseEnd (chan : Nat)
  | fieldGainRaise (db : Nat)
  /-- R288: the input at the ball of a chain is at `level` dBm. -/
  | bypRise (source chain : Nat) (level : Int)
  | bypFall (source chain : Nat) (level : Int)
  | rendezvousWindowStart (record : Nat)
  | shaperCreditZero (egress cls : Nat)
  /-- R409: the unit behind `port` takes its FIFO to `level` bytes; `tx`: port 4 transmits. -/
  | panicRise (port level : Nat) (tx : Bool)
  | dozeDramExit
  /-- R442: the Steward's mode schedule asks for the mode of code `target`. -/
  | stewardModeSchedule (target : Nat)
  /-- R448: the Steward chooses operating point `op`. -/
  | operatingPointChange (op : Nat)
  | daliTwiceTimeout (port : Nat)
  | fieldTestEnd (chain : Nat)
  | wideTestEnd (radio : Nat)
  | wideClientDelTimeout (client : Nat)
  /-- R532: the erase and programme in progress completes; `ok` says whether the read-back agrees. -/
  | flashProgrammeDone (ok : Bool)
  | perstNRise
  /-- R513: SYS_RESET_N rises; BOOT_SRC and FACTORY_N are sampled (R514). -/
  | sysResetNRise (bootSrc : Nat) (factoryN : Bool)
  | pcieLinkUp
deriving DecidableEq, Repr

end Sys2Proof
end

