-- ==== Sys2Proof/Machine/State.lean ====
section
/-! DEFINITION. The state of the block. -/

namespace Sys2Proof.Machine

/-- Reasons a command stops with a fault: this block has none. The type has one constructor, raised by no meaning. -/
inductive Fault where
  /-- Raised by no command: the spec gives every command of the table an effect. Safe. -/
  | unreachable
deriving DecidableEq, Repr

/-- Reasons a command has no meaning. -/
inductive Refusal where
  /-- A command whose meaning is not written yet (exec's arm). Safe. -/
  | notModelled (mnemonic : String)
  /-- POR_RELEASE with the TEST_MODE strap at 1: "a test state to which this manual does not apply" (Table 12-2). Safe. -/
  | testMode
deriving DecidableEq, Repr

/-- The state of the block: one component a chapter, the Kept values in force and as accepted, the model's own fields. -/
structure State where
  time : Timebase := {}
  stw : Steward := {}
  power : Power := {}
  boot : Boot := {}
  assay : Assay := {}
  plan : Planner := {}
  mem : MemState := {}
  wired : Wired := {}
  front : Front := {}
  field : Field := {}
  wide : Wide := {}
  pole : Pole := {}
  /-- Kept values in force -/
  kept : Kept := {}
  /-- Kept values as accepted: they come into force at the next commit window -/
  next : Kept := {}
  /-- what the last command sent out (the model's own field) -/
  outbox : List Output := []
  /-- number of free values drawn so far (the model's own field) -/
  draws : Nat := 0
  /-- commands that wait, first in, first out -/
  pending : List Instr := []
deriving DecidableEq, Repr

/-- The machine right after the release of the power-on reset with no Ingot in flash: every field at its Cold value. -/
def State.reset : State := {}

end Sys2Proof.Machine
end

