-- ==== Sys2Proof/Machine/Ops.lean ====
section
/-! DEFINITION. The named operations over the state: time, free values, Kept values, events, lanes, the Steward's command
pipeline, cancels, lane release and the ownership sweep, the end of a command. -/

namespace Sys2Proof.Machine

/-- The outcome type of a command's meaning. -/
abbrev Out := Host.Outcome State Fault Refusal

/-! ### Time -/

/-- TBC nanoseconds (R23). -/
def State.ns (s : State) : Nat := s.time.acc / 2 ^ 32
/-- The TBC fraction, 2^-16 ns. -/
def State.frac (s : State) : Nat := s.time.acc / 2 ^ 16 % 2 ^ 16
/-- The TBC as one number in units of 2^-16 ns. -/
def State.tbc (s : State) : Nat := s.time.acc / 2 ^ 16
/-- The beat number (R31). -/
def State.beat (s : State) : Nat := s.ns / 1000000
/-- The beat phase in ns (R31). -/
def State.phase (s : State) : Nat := s.ns % 1000000
/-- The present instant as a stamp (R27). -/
def State.stamp (s : State) : Stamp := { frac := s.frac, ns := s.ns, epoch := s.kept.time.epoch }

/-- FADJ's limit, ±500 ppm (R24). -/
def fadjMax : Int := 4294967

/-- The TBC runs: not in Dormant, until bring-up stage 3 of a wake (R81). -/
def clockRuns (s : State) : Bool :=
  decide (s.power.mode ≠ .dormant) || (match s.power.waking with | some w => decide (w.stage ≥ 3) | none => false)

/-- INC in units of 2^-32 ns: 2 ns + FADJ per 500 MHz tick (R24); in Doze 25 ns · (1 + FADJ · 2^-33) per 40 MHz tick,
rounded down to the accumulator's unit (R80, log entry 7). -/
def State.inc (s : State) : Nat :=
  if s.power.mode = .doze then ((25 * (2 ^ 33 + s.time.fadj)) / 2).toNat
  else ((2 * 2 ^ 32 : Int) + s.time.fadj).toNat

/-- The accumulator is 96 bits wide: 80 of the TBC and 16 more fraction bits. -/
def accWrap (a : Nat) : Nat := a % 2 ^ 96

/-- The fewest whole ticks that bring the accumulator to at least `target` (none where it is there). -/
def ticksTo (acc inc target : Nat) : Nat := if target ≤ acc then 0 else (target - acc + (inc - 1)) / inc

/-- Local nanoseconds of one TIME tick. -/
def State.tickNs (s : State) : Nat := if s.power.mode = .doze then 25 else 2

/-- `k` TIME ticks (R24); while the TBC stands (R81) only local time passes. -/
def ticks (k : Nat) (s : State) : State :=
  { s with time.acc := if clockRuns s then accWrap (s.time.acc + k * s.inc) else s.time.acc, time.mono := s.time.mono + k * s.tickNs }

/-- Time moved on to the first TIME tick at which the TBC nanoseconds reach `ns` (R32, R69): no step back, and none at all while the TBC
stands (R81). -/
def advanceTo (ns : Nat) (s : State) : State :=
  if clockRuns s then ticks (ticksTo s.time.acc s.inc (ns * 2 ^ 32)) s else s

/-- Local time moved on to the first TIME tick at or after `ns`: no step back. -/
def advanceMono (ns : Nat) (s : State) : State := ticks ((ns - s.time.mono + (s.tickNs - 1)) / s.tickNs) s

/-- Time moved on to phase `p` ns of the present beat, where it is not past it. -/
def advancePhase (p : Nat) (s : State) : State := advanceTo (s.beat * 1000000 + p) s

/-- The bookkeeping of unit `src`. -/
def State.unit (s : State) (src : Nat) : UnitPlan := Map.getD s.time.units src {}

/-- Is a job of unit `src` that overran still running, so that no planned work of the unit starts (R34)? -/
def State.overrunning (s : State) (src : Nat) : Bool := s.time.mono < (s.unit src).busyUntil

/-- Planned work of unit `src` starts when a job of the unit that overran has ended, not earlier (R34). -/
def afterOverrun (src : Nat) (s : State) : State := advanceMono (s.unit src).busyUntil s

/-- One TIME tick (R24). -/
def tickTime (s : State) : State := ticks 1 s

/-- R26: is stamp `a` later than stamp `b`, by epoch in serial-number order and then by value? -/
def laterEpoch (a b : Nat) : Bool :=
  let d := (a + 256 - b) % 256
  if d = 128 then decide (b < a) else decide (1 ≤ d ∧ d ≤ 127)

/-- The order of events (R26, R67): by epoch, then stamp, then lower source number first. -/
def stampLe (a b : Stamp) : Bool :=
  if a.epoch ≠ b.epoch then laterEpoch b.epoch a.epoch
  else decide (a.ns < b.ns ∨ (a.ns = b.ns ∧ a.frac ≤ b.frac))

/-! ### Free values -/

/-- One free natural number drawn: the value and the state with the draw counted. -/
def draw (s : State) : Nat × State := (Config.freeNat s.draws, { s with draws := s.draws + 1 })

/-- One free choice drawn. -/
def drawBit (s : State) : Bool × State := (Config.freeBit s.draws, { s with draws := s.draws + 1 })

/-! ### Kept values -/

/-- A Kept value that hardware or firmware changes in place: in force at once, and in what the next commit window takes. -/
def setKept (f : Kept → Kept) (s : State) : State := { s with kept := f s.kept, next := f s.next }

/-- A setting as a command changes it: it comes into force at the next commit window (Table 2-7). -/
def stageKept (f : Kept → Kept) (s : State) : State := { s with next := f s.next }

/-! ### Events and outputs -/

/-- An event raised with stamp `t` under source `src` (R67, R584). -/
def raiseAt (t : Stamp) (src code : Nat) (data : List Byte) (s : State) : State :=
  { s with stw.events := s.stw.events ++ [{ stamp := t, source := src, code := code, data := data }] }

/-- An event raised at the present instant. -/
def raise (src code : Nat) (data : List Byte) (s : State) : State := raiseAt s.stamp src code data s

/-- The state sends something out. -/
def emit (o : Output) (s : State) : State := { s with outbox := s.outbox ++ [o] }

/-- An INT_STATUS sticky bit set (Table 2-11). -/
def setInt (i : Nat) (s : State) : State := { s with stw.sticky := setBit32 s.stw.sticky i }

/-! ### Lanes -/

/-- Lane `n` (a lane that does not exist reads as an unclaimed one). -/
def State.lane (s : State) (n : Nat) : Lane := s.stw.lanes.getD n {}

/-- Lane `n` changed by `f`. -/
def updLane (n : Nat) (f : Lane → Lane) (s : State) : State := { s with stw.lanes := Bank.modify s.stw.lanes n f }

/-- Slot `k` of lane `n`. -/
def State.slot (s : State) (n k : Nat) : Slot := (s.lane n).slots.getD k {}

/-- Slot `k` of lane `n` changed by `f`. -/
def updSlot (n k : Nat) (f : Slot → Slot) (s : State) : State :=
  updLane n (fun l => { l with slots := Bank.modify l.slots k f }) s

/-- The owner source number of a lane (Table 2-1). -/
def laneOwner (n : Nat) : Nat := if n = 0 then 42 else if n = 1 then 43 else if n = 2 then 46 else 47

/-- The Kept settings of lane `n` in force. -/
def State.laneCfg (s : State) (n : Nat) : LaneConfig := s.kept.stw.lanes.getD n {}

/-- MBX_BUSY as a mask (R102). -/
def Lane.busy (l : Lane) : Nat := maskOf ((List.range 16).filter (fun k => (l.slots.getD k {}).phase = .held))

/-- MBX_DONE as a mask (R102). -/
def Lane.doneMask (l : Lane) : Nat := maskOf ((List.range 16).filter (fun k => (l.slots.getD k {}).phase = .done))

/-- Renewal: the lease and the lane watchdog restart (R96). -/
def renewLane (n : Nat) (s : State) : State :=
  if (s.lane n).claimed then
    updLane n (fun l => { l with leaseLeft := (s.laneCfg n).leaseBeats, wdogLeft := (s.laneCfg n).wdogBeats,
                                  wdogExpired := false }) s
  else s

/-- The lane's unread entries. -/
def Lane.unread (l : Lane) : Nat := (l.wrIdx + 1024 - l.rdIdx) % 1024

/-! ### Interrupts -/

/-- LANEn_EVT (Table 2-11). -/
def evtLevel (s : State) (n : Nat) : Bool :=
  let l := s.lane n
  let g := s.laneCfg n
  decide (l.unread ≥ g.thresh) ||
    (decide (g.age ≠ 0) && decide (l.unread ≠ 0) &&
      decide (s.beat ≥ (Map.getD l.writtenAt l.rdIdx s.beat) + g.age))

/-- INT_STATUS (R116, Table 2-11): the level bits as they stand and the sticky bits. -/
def intStatus (s : State) : BitVec 32 :=
  s.stw.sticky ||| BitVec.ofNat 32 (fieldsWord [
    (0, bit ((s.lane 0).doneMask ≠ 0)), (1, bit (evtLevel s 0)), (2, bit ((s.lane 1).doneMask ≠ 0)),
    (3, bit (evtLevel s 1)), (6, bit (s.stw.state = .ready)),
    (8, bit (s.time.holdoverStk || s.time.tsqOvfStk || s.time.safePlanStk)), (11, bit s.stw.causeNewStk)])

/-- The sticky bits of INT_STATUS that software clears by W1C: 4, 5, 7, 9, 10 and 16 to 31 (Table 2-11). -/
def intW1cMask : BitVec 32 := 0xFFFF06B0

/-- R116: the vectors whose enabled bit has risen since the last command send their message; INT_N follows by level. -/
def settle (s : State) : State :=
  let now := intStatus s &&& s.stw.enMsix
  let rising := now &&& ~~~s.stw.msixPrev
  { s with stw.msixPrev := now, outbox := s.outbox ++ (bitsSet 32 rising.toNat).map .msix }

/-- INT_N is driven low (R116). -/
def intPinLow (s : State) : Bool := (intStatus s &&& s.stw.enPin) ≠ 0

/-- No reset is held: neither power-on reset, nor SYS_RESET_N, nor a thermal reset. -/
def alive (s : State) : Bool := !s.boot.porHeld && !s.boot.pinHeld && !s.boot.thermalHeld

/-- The effect `f` on everything but the queue of waiting commands, which it neither sees nor changes; the outbox starts empty. -/
def apart (f : State → State) (s : State) : State := { f { s with outbox := [], pending := [] } with pending := s.pending }

/-- A command of a block that is not held in reset: its effect, then the interrupts settled. While a reset is held nothing happens
(R538). -/
def act (f : State → State) (s : State) : Out := .next (settle (if alive s then apart f s else { s with outbox := [] }))

/-- A command that acts whether a reset is held or not (the resets themselves). -/
def actAlways (f : State → State) (s : State) : Out := .next (settle (apart f s))

/-! ### When the Steward runs -/

/-- The Steward's cores run: not while an entry to Doze or Dormant is at step 3 or beyond, not in Doze outside a listen beat,
not in Dormant before the bring-up stage at which they run (R439, R462, Table 10-9). -/
def coresRun (s : State) : Bool :=
  (match s.power.entry with
   | some e => decide (e.step < 3)
   | none => true) &&
  (match s.power.mode with
   | .doze => s.power.listenBeat || (match s.power.waking with | some w => decide (w.stage ≥ 5) | none => false)
   | .dormant => (match s.power.waking with | some w => decide (w.stage ≥ 5) | none => false)
   | _ => true)

/-- The Steward accepts commands: READY or RECOVERY, with its cores running (R103, R517). -/
def serving (s : State) : Bool := (decide (s.stw.state = .ready) || decide (s.stw.state = .recovery)) && coresRun s

/-- A host load (BOOT_SRC 10 or 11) waits in ROM for its image (R514, R532). -/
def hostLoading (s : State) : Bool := decide (s.stw.state = .rom) && decide (s.boot.stage = 3) && decide (s.boot.straps.bootSrc ≥ 2)

/-- The ROM takes the image commands of a host load through its lane: 0 for BOOT_SRC 10, 1 for 11 (Table 12-2, R532). -/
def romTakes (s : State) (lane op : Nat) : Bool :=
  hostLoading s && decide (lane + 2 = s.boot.straps.bootSrc) && [0x0A05, 0x0A06, 0x0A07].contains op

/-- The direct register window answers: from the ROM state on, not in Dormant (R472, Table 12-3). -/
def windowUp (s : State) : Bool :=
  decide (s.boot.stage ≥ 1) &&
  (match s.power.mode with
   | .dormant => (match s.power.waking with | some w => decide (w.stage ≥ 5) | none => false)
   | _ => true)

/-- Unit `src` works: it is in no unit reset and not disabled (R556, R558). -/
def unitUp (s : State) (src : Nat) : Bool := !Map.has s.assay.resets src && !s.assay.disabled.contains src

/-- The radios are open and the data plane runs: from the commit window of READY (R516), in a serving mode or Doze. -/
def dataPlane (s : State) : Bool :=
  decide (s.boot.stage = 8) && decide (s.power.mode ≠ .dormant) && decide (s.power.mode ≠ .recovery)

/-- PWR_MODE.MODE's code (Table 2-17). -/
def Mode.code : Mode → Nat
  | .full => 0 | .lean => 1 | .watch => 2 | .doze => 3 | .dormant => 4 | .recovery => 5

/-- The mode a code names. -/
def modeOf : Nat → Mode
  | 0 => .full | 1 => .lean | 2 => .watch | 3 => .doze | 4 => .dormant | _ => .recovery

/-- Full, Lean or Watch. -/
def Mode.serves : Mode → Bool
  | .full => true | .lean => true | .watch => true | _ => false

/-- SYS_STATE.STW_STATE's code (Table 2-13). -/
def StwState.code : StwState → Nat
  | .rom => 0 | .booting => 1 | .restoring => 2 | .ready => 3 | .restarting => 4 | .recovery => 5 | .fault => 6

/-! ### Answers -/

/-- Status codes (Table 2-8). -/
abbrev stOk : Nat := 0
abbrev stBusy : Nat := 1
abbrev stUnsupported : Nat := 2
abbrev stBadArg : Nat := 3
abbrev stNoResource : Nat := 4
abbrev stTooLate : Nat := 5
abbrev stDenied : Nat := 6
abbrev stWrongMode : Nat := 7
abbrev stAbandoned : Nat := 8
abbrev stLate : Nat := 9
abbrev stStale : Nat := 10

/-- An OK answer with fields. -/
def ok (body : List Byte := []) : Reply := { body := body }
/-- BAD_ARG with the offset of the field found wrong. -/
def badArg (off : Nat) : Reply := { status := stBadArg, detail := off }
/-- DENIED with the owner's source number, 0xFF where there is none. -/
def denied (owner : Nat := 0xFF) : Reply := { status := stDenied, detail := owner }

/-- The bytes of a response slot (Table 2-6). -/
def responseBytes (j : Job) (r : Reply) : List Byte :=
  le 2 j.opcode ++ le 2 (16 + r.body.length) ++ le 2 j.cmd.tag ++ le 1 r.status ++ le 1 r.detail ++
    le 4 j.acceptBeat ++ le 4 r.bulkOut ++ r.body

/-- A frame from the device on lane 2 or 3, under the next SEQ of its direction (Table 2-4). -/
def sendInband (lane kind slot : Nat) (body : List Byte) (s : State) : State :=
  let n := (s.lane lane).seqOut + 1
  emit (.inband lane kind slot n body) (updLane lane (fun l => { l with seqOut := n }) s)

/-- Completion (Table 2-7): the response slot is written in full, BUSY clears and DONE sets on one cycle; lanes 2 and 3 get
their response as a KIND 2 frame. -/
def deliver (j : Job) (r : Reply) (s : State) : State :=
  if j.lane < 4 then
    let s1 := updSlot j.lane j.slot (fun x => { x with phase := .done, accepted := false, response := responseBytes j r }) s
    let s2 := if r.status = stAbandoned then
        updLane j.lane (fun l => { l with abandonCnt := satInc 32 l.abandonCnt }) s1 else s1
    if j.lane = 2 ∨ j.lane = 3 then sendInband j.lane 2 j.slot (responseBytes j r) s2 else s2
  else s

/-- PWR_RESULT written (R118, Table 2-17), and PWR_CHANGE_STK with it. -/
def putPwrResult (tag status cause source : Nat) (s : State) : State :=
  setInt 9 { s with power.resultTag := tag % 256, power.resultStatus := status, power.resultCause := cause, power.resultSource := source }

/-- PWR_RESULT is also written for PWR_SET_MODE (R118): here for one that is answered, with `r`, without the power sequencer. -/
def notePower (op : Nat) (c : Cmd) (r : Reply) (s : State) : State := if op = 0x0301 then putPwrResult c.tag r.status r.detail 0 s else s

/-- A command answered ABANDONED with `detail` (Table 2-8). -/
def deliverAbandoned (detail : Nat) (j : Job) (s : State) : State :=
  let r : Reply := { status := stAbandoned, detail := detail }
  deliver j r (notePower j.opcode j.cmd r s)

/-- The answer of a command past its point of commitment: written now, or once the Steward is READY again (R125). -/
def respond (j : Job) (r : Reply) (s : State) : State :=
  if s.stw.state = .restarting then
    { s with stw.jobs := s.stw.jobs ++ [{ j with committed := true, reply := some r, durableFrom := none, inCopy := false }] }
  else deliver j r s

/-- DURABLE of a command (Table 2-5). -/
def Job.durable (j : Job) : Bool := hasBit j.cmd.flags 1

/-- A command ends with its own status: held until a flash copy contains its changes when DURABLE asks for it and it succeeded (R119), else
answered. `eff` is the beat at whose commit window the last of its changes takes effect. -/
def complete (eff : Nat) (j : Job) (r : Reply) (s : State) : State :=
  if j.durable ∧ r.status = stOk then
    { s with stw.jobs := s.stw.jobs ++ [{ j with committed := true, reply := some r, durableFrom := some eff }] }
  else respond j r s

/-- The open job of number `id`. -/
def State.job (s : State) (id : Nat) : Option Job := s.stw.jobs.find? (fun j => j.id = id)

/-- Job `id` taken off the list. -/
def dropJob (id : Nat) (s : State) : State := { s with stw.jobs := s.stw.jobs.filter (fun j => j.id ≠ id) }

/-- A SYS_CANCEL that met the completion of job `id` and awaits that job's response (R110): its second number names the job, from 1. -/
def Job.trails (j : Job) (id : Nat) : Bool := decide (j.opcode = 0x0103) && decide (j.aux = id + 1) && j.reply.isNone

/-- Job `id` has its response: the cancels that came too late for it have theirs behind it (R110), and so has a cancel of such a cancel, up to
the sixteen slots of a lane. -/
def followUp : Nat → Nat → State → State
  | 0, _, s => s
  | n + 1, id, s =>
    if (s.job id).isSome then s
    else (s.stw.jobs.filter (·.trails id)).foldl (fun s j => followUp n j.id (respond j { status := stTooLate } (dropJob j.id s))) s

/-- Job `id` ends with `r`; a job whose lane has been released is gone, and its response is discarded (R98). -/
def completeJob (id : Nat) (r : Reply) (s : State) : State :=
  match s.job id with
  | some j => followUp 16 id (complete s.beat j r (dropJob id s))
  | none => s

/-- As completeJob, for an optional asker (none: the device itself asked). -/
def completeAsker (id : Option Nat) (r : Reply) (s : State) : State :=
  match id with
  | some i => completeJob i r s
  | none => s

/-- Job `id` has passed its point of commitment (R108). -/
def commitJob (id : Nat) (s : State) : State :=
  { s with stw.jobs := s.stw.jobs.map (fun j => if j.id = id then { j with committed := true } else j) }

/-- Job `id` is answered ABANDONED with `detail` at once, even during a Steward restart (R110, R125). -/
def abandonJob (id detail : Nat) (s : State) : State :=
  match s.job id with
  | some j => deliverAbandoned detail j (dropJob id s)
  | none => s

/-! ### Commands -/

/-- What a command's work says at its acceptance: an answer at once, or a wait (with its point of commitment passed or not,
and two numbers its chapter keeps with the job). -/
inductive Verdict where
  | reply (r : Reply)
  | wait (committed : Bool) (due aux : Nat)
deriving DecidableEq, Repr

/-- What the Steward does with a command of one opcode: the field table it judges the command by, and the work. The job
number is the one under which a waiting command will be found. -/
structure Handler where
  fields : List FieldSpec
  run : Cmd → Nat → State → State × Verdict

/-- R128: in Recovery only the system (0x01) and security-and-images (0x0A) areas are served. -/
def areaServed (op : Nat) (s : State) : Bool :=
  s.stw.state ≠ .recovery || op / 256 = 1 || op / 256 = 10

/-- The refusals that come before a command's fields are judged: version (R120), header (R100), mode (R128). -/
def refuseEarly (op : Nat) (c : Cmd) (s : State) : Option Reply :=
  if c.ifver / 16 ≠ 4 then some { status := stUnsupported, detail := 1 }
  else match badHeader c with
    | some d => some (badArg d)
    | none => if !areaServed op s then some { status := stWrongMode, detail := s.power.mode.code } else none

/-- The offset of the first wrong field (R107): `d`, a field whose value its table does not allow, or a lower one that the command's own
rules find wrong. -/
def firstWrong (d : Nat) : Verdict → Nat
  | .reply r => if r.status = stBadArg ∧ 0 < r.detail ∧ r.detail < d then r.detail else d
  | .wait _ _ _ => d

/-- The effect of a command on the state and its verdict, from its acceptance on (R17, R107, R120). -/
def perform (op : Nat) (h : Handler) (c : Cmd) (id : Nat) (s : State) : State × Verdict :=
  match refuseEarly op c s with
  | some r => (notePower op c r s, .reply r)
  | none =>
    match badField h.fields c with
    | some d =>
      let r := badArg (firstWrong d (h.run c id s).2)
      (notePower op c r s, .reply r)
    | none => h.run c id s

/-- Acceptance of the command in slot `k` of lane `n` (Table 2-7): read once, counted, worked, answered or left open. -/
def accept (op : Nat) (h : Handler) (n k : Nat) (s : State) : State :=
  let c := { (s.slot n k).cmd with lane := n, slot := k }
  let id := s.stw.nextJob
  let j : Job := { id := id, lane := n, slot := k, opcode := op, cmd := c, acceptBeat := s.beat % 2 ^ 32 }
  let s1 := updSlot n k (fun x => { x with accepted := true }) s
  let s2 := updLane n (fun l => { l with order := l.order.filter (· ≠ k), cmdCnt := satInc 32 l.cmdCnt }) s1
  let s3 := { s2 with stw.nextJob := id + 1 }
  match perform op h c id s3 with
  | (t, .reply r) => complete (s.beat + 1) j r t
  | (t, .wait cm due aux) =>
    { t with stw.jobs := t.stw.jobs ++ [{ j with committed := cm, due := due, aux := aux }] }

/-- A doorbell ignored (R99, R103): counted; one that names a slot that is not FREE raises SYS_DB_ERROR. -/
def doorbellError (n k : Nat) (s : State) : State :=
  let s1 := updLane n (fun l => { l with dbErrCnt := satInc 16 l.dbErrCnt }) s
  if (s.lane n).claimed ∧ s.stw.state ≠ .fault then raise 45 0x0103 (le 1 n ++ le 1 k) s1 else s1

/-- HOST_REQ latched by a doorbell of lane 0 or 1 between the start of step 3 and AP5 of an entry (R462). -/
def doorbellWake (n : Nat) (s : State) : State :=
  match s.power.entry with
  | some e =>
    if (n = 0 ∨ n = 1) ∧ 3 ≤ e.step ∧ e.step ≤ 5 ∧ e.undo = none then
      { s with power.wakeStk := s.power.wakeStk ||| 1,
               power.entry := some { e with wake := if e.wake = none then some (1, e.left, s.stamp) else e.wake } }
    else s
  | none => s

/-- Ring slot `k` of lane `n` (R99, R102, R103): BUSY sets on this cycle. Every doorbell of a claimed lane renews its lease (R96). -/
def ringSlot (n k : Nat) (s : State) : State :=
  if !(s.lane n).claimed ∨ s.stw.state = .fault then doorbellError n k s
  else if (s.slot n k).phase ≠ .free then renewLane n (doorbellError n k s)
  else
    let s1 := updSlot n k (fun x => { x with phase := .held, accepted := false }) s
    let s2 := updLane n (fun l => { l with order := l.order ++ [k] }) s1
    doorbellWake n (renewLane n s2)

/-- Is slot `k` the next that the Steward accepts on lane `n`, and does it serve (R104)? -/
def acceptable (n k : Nat) (s : State) : Bool :=
  (serving s || romTakes s n (s.slot n k).opcode) && decide ((s.lane n).order.head? = some k)

/-- A whole command as its sender sends it: the slot and the bulk region written where the slot is FREE, the doorbell, and, where the Steward
serves and no earlier doorbell of the lane waits, its acceptance (Table 2-7, log entry 4). -/
def submit (op : Nat) (h : Handler) (c : Cmd) (s : State) : State :=
  if c.lane ≥ 4 ∨ c.slot ≥ 16 ∨ !windowUp s then s
  else
    let fresh : Bool := (s.lane c.lane).claimed && decide ((s.slot c.lane c.slot).phase = .free) && decide (s.stw.state ≠ .fault)
    let s1 := if fresh then updLane c.lane (fun l => { l with
        slots := Bank.modify l.slots c.slot (fun x => { x with opcode := op, cmd := c }),
        bulk := Memory.writeList l.bulk c.bulkOff c.region }) s else s
    let s2 := ringSlot c.lane c.slot s1
    if fresh && acceptable c.lane c.slot s2 then accept op h c.lane c.slot s2 else s2

/-- The job of a doorbell that has not been accepted: slot `k` of lane `n` is rung, and its command as yet unread (R104, R108). -/
def rungJob (n k : Nat) (s : State) : Job :=
  { id := s.stw.nextJob, lane := n, slot := k, opcode := (s.slot n k).opcode, cmd := (s.slot n k).cmd, acceptBeat := s.beat % 2 ^ 32 }

/-- A handler that only reads: no fields of its own but those of `fields`, an OK answer built from the state. -/
def readHandler (fields : List FieldSpec) (f : Cmd → State → List Byte) : Handler :=
  { fields := fields, run := fun c _ s => (s, .reply (ok (f c s))) }

end Sys2Proof.Machine
end

