-- ==== Sys2Proof/Machine/Memory.lean ====
section
/-! DEFINITION. DRAM, pools, the cell buffer and the rings' settings (chapter 9). The paths of frames through rings stand in
Wired.lean, which needs the switch. -/

namespace Sys2Proof.Machine

/-! ### Counters of Table 9-11, by response offset -/

abbrev cEccCe : Nat := 20
abbrev cEccUe : Nat := 24
abbrev cSrEntry : Nat := 28
abbrev cSrRefuse : Nat := 32
abbrev cTrainStep : Nat := 36
abbrev cPoolFull : Nat := 56
abbrev cCellDrop : Nat := 60
abbrev cSweepCell : Nat := 64

/-- A memory counter incremented. -/
def memCount (k : Nat) (s : State) : State := { s with mem.counts := tally s.mem.counts k }

/-! ### Cells -/

/-- RESERVE_CELLS and SHARE_MAX_CELLS of an account (R424). -/
def cellLimits (s : State) (a : Nat) : Nat × Nat := Map.getD s.kept.mem.cells a (256, 8192)

/-- The sum of the reserves of accounts 0 to 28. -/
def reserveSum (m : List (Nat × (Nat × Nat))) : Nat :=
  (List.range 29).foldl (fun t a => t + (Map.getD m a (256, 8192)).1) 0

/-- Cells that an account holds from its reserve, and from the shared pool. -/
def accountUse (s : State) (a : Nat) : Nat × Nat :=
  s.mem.cells.foldl (fun t e => if e.2.account = a then (t.1 + e.2.reserved, t.2 + e.2.shared) else t) (0, 0)

/-- Shared cells held by all accounts. -/
def sharedUse (s : State) : Nat := s.mem.cells.foldl (fun t e => t + e.2.shared) 0

/-- Cells held by all accounts. -/
def cellsUsed (s : State) : Nat := s.mem.cells.foldl (fun t e => t + e.2.shared + e.2.reserved) 0

/-- Bytes that a port holds in the cell buffer (R425). -/
def portBytes (s : State) (a : Nat) : Nat := ((accountUse s a).1 + (accountUse s a).2) * 256

/-- The cells of a frame of `len` bytes (R422). -/
def cellsFor (len : Nat) : Nat := (len + 255) / 256

/-- `n` cells split into those from the account's reserve and those from the shared pool; none where neither suffices (R424). -/
def claimSplit (s : State) (a n : Nat) : Option (Nat × Nat) :=
  let lim := cellLimits s a
  let use := accountUse s a
  let r := min n (lim.1 - use.1)
  let sh := n - r
  if sh = 0 ∨ (use.2 + sh ≤ lim.2 ∧ reserveSum s.kept.mem.cells + sharedUse s + sh ≤ 65536) then some (r, sh) else none

/-- A new frame of `n` cells stored under `owner`, charged to account `a` (R424, R426). -/
def claimCells (owner a n : Nat) (refs : List Nat) (s : State) : Option (Nat × State) :=
  match claimSplit s a n with
  | none => none
  | some (r, sh) =>
    some (s.mem.nextCells,
      { s with mem.cells := Map.set s.mem.cells s.mem.nextCells
                 { owner := owner, account := a, reserved := r, shared := sh, refs := refs },
               mem.nextCells := s.mem.nextCells + 1 })

/-- `n` more cells for record `id`, of a frame being received. -/
def growCells (id n : Nat) (s : State) : Option State :=
  match Map.get? s.mem.cells id with
  | none => none
  | some c =>
    match claimSplit s c.account n with
    | none => none
    | some (r, sh) =>
      some { s with mem.cells := Map.set s.mem.cells id { c with reserved := c.reserved + r, shared := c.shared + sh } }

/-- All cells of record `id` freed. -/
def freeCells (id : Nat) (s : State) : State := { s with mem.cells := Map.erase s.mem.cells id }

/-- The source number of an egress for owner tags (R426). -/
def egressSource (e : Nat) : Nat :=
  if e < 24 then 8 + e else if e = 24 then 32 else if e = 25 then 33 else if e = 26 then 34 else 42

/-- From enqueue on, the cells belong to the egresses `refs` (R426). -/
def handCells (id : Nat) (refs : List Nat) (s : State) : State :=
  match Map.get? s.mem.cells id with
  | none => s
  | some c =>
    { s with mem.cells := Map.set s.mem.cells id
               { c with refs := refs, owner := match refs with
                   | [e] => egressSource e
                   | _ => 5 } }

/-- Egress `e` releases its reference: the last one frees the cells (R425). -/
def releaseCells (id e : Nat) (s : State) : State :=
  match Map.get? s.mem.cells id with
  | none => s
  | some c =>
    let refs := c.refs.erase e
    if refs = [] then freeCells id s else { s with mem.cells := Map.set s.mem.cells id { c with refs := refs } }

/-- The ownership sweep over the cell buffer (R426): cells owned by `src` are freed, its references under 5 removed; the records
freed are given back, for the queues that named them. -/
def sweepCells (src : Nat) (s : State) : State :=
  s.mem.cells.foldl (fun s e =>
    let gone := e.2.refs.filter (fun x => egressSource x ≠ src)
    let n := e.2.reserved + e.2.shared
    if e.2.owner = src ∨ (e.2.owner = 5 ∧ e.2.refs ≠ gone ∧ gone = []) then
      { freeCells e.1 s with mem.counts := tallyBy s.mem.counts cSweepCell n }
    else if e.2.owner = 5 ∧ e.2.refs ≠ gone then
      { s with mem.cells := Map.set s.mem.cells e.1 { e.2 with refs := gone } }
    else s) s

/-! ### Pools -/

/-- Usable DRAM in MB (R403). -/
def usableMb (c : MemConfig) : Nat := if c.ecc then 2 * c.gb * 1024 * 7 / 8 else 2 * c.gb * 1024

/-- What STEWARD receives of the pools `p`; none where the others leave less than nothing (R405). -/
def stewardMb (c : MemConfig) (p : Pools) : Option Nat :=
  if p.queueMb + p.psMb + p.ringMb + p.captureMb ≤ usableMb c then
    some (usableMb c - (p.queueMb + p.psMb + p.ringMb + p.captureMb)) else none

/-- Bytes of pool 1 QUEUE, 2 PS of W1, 3 PS of W2, 5 CAPTURE (R405). -/
def poolBytes (s : State) (p : Nat) : Nat :=
  let g := s.mem.pools
  if p = 1 then g.queueMb * 2 ^ 20
  else if p = 2 then g.psMb * 2 ^ 20 * g.psW1Pct / 100
  else if p = 3 then g.psMb * 2 ^ 20 - g.psMb * 2 ^ 20 * g.psW1Pct / 100
  else g.captureMb * 2 ^ 20

/-- Bytes charged to a pool. -/
def poolUsed (s : State) (p : Nat) : Nat := Map.getD s.mem.used p 0

/-- The pool's number in Table 9-2's order. -/
def poolCode (p : Nat) : Nat := if p = 1 then 1 else if p = 5 then 4 else 2

/-- Does pool `p` take `n` more bytes? -/
def poolFits (s : State) (p n : Nat) : Bool := poolUsed s p + n ≤ poolBytes s p

/-- `n` bytes charged to pool `p`; MEM_POOL_LOW below 10 % free, at most once in 1,000 beats (R406). -/
def chargePool (p n : Nat) (s : State) : State :=
  let s1 := { s with mem.used := Map.set s.mem.used p (poolUsed s p + n) }
  let free := poolBytes s1 p - poolUsed s1 p
  let recent := match Map.get? s1.mem.lowBeat p with
    | some b => decide (s1.beat < b + 1000)
    | none => false
  if free * 10 < poolBytes s1 p ∧ !recent then
    raise 5 0x0803 (le 1 (poolCode p) ++ le 4 (free / 2 ^ 20)) { s1 with mem.lowBeat := Map.set s1.mem.lowBeat p s1.beat }
  else s1

/-- A frame leaves: its charge is given back. -/
def uncharge (p n : Nat) (s : State) : State :=
  if p = 0 then s else { s with mem.used := Map.set s.mem.used p (poolUsed s p - n) }

/-! ### Refresh -/

/-- tREFI, Q, nb and S for multiplier m (R413, Table 9-4). -/
def refreshPlan (m : Nat) : Nat × Nat × Nat :=
  let q := (1000000 * m + 3903) / 3904
  let nb := (q + 3) / 4
  (q, nb, 980000 / nb)

/-- A DRAM channel. -/
def State.channel (s : State) (k : Nat) : DramChannel := s.mem.channels.getD k {}

/-- A DRAM channel changed. -/
def updChannel (k : Nat) (f : DramChannel → DramChannel) (s : State) : State :=
  { s with mem.channels := Bank.modify s.mem.channels k f }

/-- Is a real-time port in panic (R409)? -/
def anyPanic (s : State) : Bool := s.mem.ports.toList.any (·.panic)

/-- REFRESH_BURST (R413, R414, R410): the next burst of the beat on channel `k`, at its slot, held back at most 2 µs by panic,
and not before a burst that overran has ended (R34). -/
def refreshBurst (k delayNs : Nat) (s : State) : State :=
  if k ≥ 2 ∨ !s.power.dramAwake ∨ s.boot.stage < 7 ∨ s.time.settling then s
  else
    let c := s.channel k
    let (q, nb, step) := refreshPlan c.m
    let i := if c.burstBeat = s.beat then c.burst else 0
    if i ≥ nb then s
    else
      let late := if anyPanic s then min delayNs 2000 else 0
      let s1 := afterOverrun 6 (advancePhase (20000 + i * step + late) s)
      let n := if i + 1 = nb then q - 4 * (nb - 1) else 4
      emit (.frame 6 0 [k, i, n]) (updChannel k (fun c => { c with burst := i + 1, burstBeat := s.beat }) s1)

/-- SR_EXIT (R421): one burst of four refreshes on each channel, then the plan resumes with the next slot of the beat; slots that
passed are not owed, and a slot on the same tick is filled. -/
def selfRefreshExit (s : State) : State :=
  (List.range 2).foldl (fun s k =>
    let (_, nb, step) := refreshPlan (s.channel k).m
    let next := if s.phase < 20000 then 0 else min nb ((s.phase - 20000) / step + 1)
    emit (.frame 6 1 [k, 4]) (updChannel k (fun c => { c with burst := next, burstBeat := s.beat }) s))
    { s with power.dramAwake := true, mem.drive := .running }

/-- SR_ENTRY (R419): both channels enter self-refresh. -/
def selfRefreshEnter (s : State) : State := memCount cSrEntry { s with power.dramAwake := false, mem.drive := .gated }

/-- A DRAM ball that the device drives low (R565): CK, CS and DRST_N in reset. Every other ball is then high impedance. -/
def dramBallLow (b : DramBall) (s : State) : Bool := decide (s.mem.drive = .reset) && decide (b ≠ .other)

/-- A DRAM ball at high impedance (R565). -/
def dramBallFree (b : DramBall) (s : State) : Bool := decide (s.mem.drive = .reset) && decide (b = .other)

/-- MR4_READ (R413): every 16 beats; a new multiplier takes effect at the next commit window. -/
def mr4Read (k m : Nat) (temp : Int) (s : State) : State :=
  if k < 2 ∧ (m = 1 ∨ m = 2 ∨ m = 4) ∧ s.beat % 16 = 0 ∧ s.power.dramAwake then
    updChannel k (fun c => { c with mNext := m, temp := temp }) s
  else s

/-- Refresh multipliers at a commit window (R413). -/
def refreshCommit (s : State) : State :=
  (List.range 2).foldl (fun s k =>
    let c := s.channel k
    if c.mNext ≠ c.m then raise 6 0x0807 (le 1 k ++ le 1 c.mNext) (updChannel k (fun c => { c with m := c.mNext }) s) else s) s

/-! ### Ports, panic, ECC -/

/-- A DRAM port. -/
def State.dport (s : State) (p : Nat) : DramPort := s.mem.ports.getD p {}

/-- A DRAM port changed. -/
def updDport (p : Nat) (f : DramPort → DramPort) (s : State) : State := { s with mem.ports := Bank.modify s.mem.ports p f }

/-- Settings of a port (Table 9-3). -/
def portSet (s : State) (p : Nat) : PortSet := Map.getD s.kept.mem.ports p { weight := if p = 6 then 4 else 2 }

/-- FIFO bytes of a real-time port (Table 9-3). -/
def fifoBytes (p : Nat) : Nat := if p ≤ 1 then 65536 else if p ≤ 3 then 32768 else 4096

/-- Does the port feed a transmitter? Port 4 does both: the caller says which. -/
def txPort (p : Nat) (tx : Bool) : Bool := decide (p = 1) || decide (p = 3) || (decide (p = 4) && tx)

/-- PANIC_CHANGE (R409): the FIFO's level crosses a threshold. -/
def setFifo (p level : Nat) (tx : Bool) (s : State) : State :=
  if p ≥ 6 then s
  else
    let size := fifoBytes p
    let pct := (portSet s p).panicPct
    let lv := min level size
    let rise := if txPort p tx then lv * 100 < pct * size else lv * 100 > (100 - pct) * size
    let clear := if txPort p tx then lv * 100 ≥ (pct + 20) * size else lv * 100 < (80 - pct) * size
    updDport p (fun d => { d with level := lv,
                                  panic := if d.panic then !clear else rise,
                                  panicCnt := if !d.panic ∧ rise then satInc 32 d.panicCnt else d.panicCnt }) s

/-- RT_UNDERRUN or RT_OVERFLOW of a port (R411). -/
def rtFault (p : Nat) (ovr : Bool) (s : State) : State :=
  { updDport p (fun d => if ovr then { d with overflow := satInc 32 d.overflow } else { d with underrun := satInc 32 d.underrun }) s
    with mem.rtFaultStk := true }

/-- PANIC_RISE (R409, R411): the unit has taken its port's FIFO to `level`; an empty transmit FIFO or a full receive FIFO is counted. -/
def panicRise (p level : Nat) (tx : Bool) (s : State) : State :=
  if p ≥ 6 ∨ !dataPlane s then s
  else
    let s1 := setFifo p level tx s
    if txPort p tx then (if level = 0 then rtFault p false s1 else s1)
    else if level ≥ fifoBytes p then rtFault p true s1 else s1

/-- The channel that a device address lies in (R404). -/
def addrChannel (s : State) (a : Nat) : Nat := a / 2 ^ s.mem.config.grain % 2

/-- The channel address (R404). -/
def channelAddr (s : State) (a : Nat) : Nat :=
  a / 2 ^ (s.mem.config.grain + 1) * 2 ^ s.mem.config.grain + a % 2 ^ s.mem.config.grain

/-- Rank, bank, row and column of a device address (R404): page 4 KB; 8 banks for LPDDR4X, 16 for LPDDR5. -/
def dramCoord (s : State) (a : Nat) : Nat × Nat × Nat × Nat :=
  let ca := channelAddr s a
  let r := usableMb s.mem.config * 2 ^ 20 / 2 / max 1 s.mem.config.ranks
  let nb := if s.mem.config.type = 0 then 8 else 16
  let x := ca % r
  let row := x / (4096 * nb)
  (ca / r, (x / 4096 % nb) ^^^ (row % nb), row, x % 4096)

/-- DATA of MEM_ECC (Table 9-12): channel, device address [35:6], whether it could not be corrected. -/
def eccData (k a ue : Nat) : List Byte := le 1 k ++ le 4 (a / 64) ++ le 1 ue

/-- DRAM_READ_DONE (R407, R412): a block read by port `p` from device address `a`; `ecc` 0 clean, 1 corrected, 2 uncorrectable. The
poisoned frame and the Steward's fault stand in Faults.lean. -/
def dramRead (p a ecc : Nat) (tx : Bool) (s : State) : State :=
  let k := addrChannel s a
  let s1 := if p < 6 then setFifo p (if txPort p tx then (s.dport p).level + 64 else (s.dport p).level - 64) tx s
    else updDport p (fun d => { d with outstanding := d.outstanding - 1 }) s
  if ecc = 1 then
    let c := s1.channel k
    let fresh : Bool := decide (s1.beat ≥ c.ceFrom + 1000)
    let n := if fresh then 1 else c.ceRun + 1
    let s2 := memCount cEccCe (updChannel k (fun c => { c with ceRun := n, ceFrom := if fresh then s1.beat else c.ceFrom }) s1)
    if n = 65 then raise 6 0x0805 (eccData k a 0) s2 else s2
  else if ecc = 2 then
    raise 6 0x0805 (eccData k a 1)
      (memCount cEccUe { s1 with mem.eccUeStk := true,
                                 mem.poisoned := if s1.mem.poisoned.contains (a / 64) then s1.mem.poisoned
                                   else a / 64 :: s1.mem.poisoned })
  else s1

/-- The owner of a DRAM port (Table 9-3). -/
def dportOwner (p : Nat) : Nat :=
  if p ≤ 1 then 32 else if p ≤ 3 then 33 else if p = 4 then 34 else if p = 5 then 37 else if p = 6 then 5 else if p = 7 then 45 else 42

/-- PORT_LEASE_EXPIRY (R412). -/
def portExpiry (p : Nat) (s : State) : State :=
  if 6 ≤ p ∧ p ≤ 8 then
    raise 6 0x0806 (le 1 p ++ le 1 (dportOwner p)) (updDport p (fun d => { d with outstanding := 0, expire := satInc 32 d.expire }) s)
  else s

/-- The sweep of a port's owner discards its outstanding transactions (R408, Table 13-8). -/
def sweepDports (src : Nat) (s : State) : State :=
  (List.range 9).foldl (fun s p => if dportOwner p = src then updDport p (fun d => { d with outstanding := 0 }) s else s) s

/-! ### Start -/

/-- Detection and training at start-up (R401, R415): the devices, the rate, MEM_TRAIN_DONE of each channel (raised at READY). -/
def memoryStart (f : BootFacts) (full : Bool) (s : State) : State :=
  let d : MemConfig := { type := f.dramType, ranks := f.dramRanks, gb := f.dramGb,
                         rate := if f.dramType = 0 then 3200 else 4266 }
  let evt (k failed : Nat) := (s.stamp, 6, 0x0804, le 1 k ++ le 1 (if full ∨ failed ≠ 0 then 0 else 1) ++ le 2 failed)
  { s with mem.detected := some d, mem.config := s.kept.mem.config.getD d, mem.pools := s.kept.mem.pools,
           mem.drive := .running,
           mem.trained := [0, 1].filter (fun k => full || decide ((if k = 0 then f.linesFailed0 else f.linesFailed1) ≠ 0)),
           boot.atReady := s.boot.atReady ++ [evt 0 f.linesFailed0, evt 1 f.linesFailed1] }

/-! ### Rings -/

/-- The rings of Table 9-6. -/
def ringExists (r : Nat) : Bool := decide (r ≤ 10) || (decide (16 ≤ r) && decide (r ≤ 23)) || (decide (32 ≤ r) && decide (r ≤ 34))

/-- A host ring. -/
def hostRing (r : Nat) : Bool := decide (r ≤ 10) || (decide (16 ≤ r) && decide (r ≤ 23))

/-- Ring `r`. Internal rings are on, with 2 KB buffers. -/
def State.ring (s : State) (r : Nat) : Ring := Map.getD s.mem.rings r { on := decide (32 ≤ r), entries := 4096 }

/-- Ring `r` changed. -/
def updRing (r : Nat) (f : Ring → Ring) (s : State) : State := { s with mem.rings := Map.set s.mem.rings r (f (s.ring r)) }

/-- A ring runs dry (R432): counted, MEM_RING_DRY once per ring and beat. -/
def ringDry (r : Nat) (s : State) : State :=
  let s1 := { updRing r (fun g => { g with dry := satInc 32 g.dry }) s with mem.ringDryStk := true }
  if (s1.ring r).dryBeat = some s1.beat then s1
  else raise 5 0x0801 (le 1 r ++ le 8 s1.beat) (updRing r (fun g => { g with dryBeat := some s1.beat }) s1)

/-- Disable a ring: a frame in progress is dropped and counted (R432). -/
def disableRing (r : Nat) (s : State) : State :=
  updRing r (fun g => { g with on := false, deviceHeld := 0, open' := none,
                               offDrop := if g.open'.isSome then satInc 32 g.offDrop else g.offDrop }) s

/-- When lane 0 is released every host ring is disabled (R427). -/
def disableHostRings (s : State) : State :=
  s.mem.rings.foldl (fun s e => if hostRing e.1 ∧ e.2.on then disableRing e.1 s else s) s

/-- RING_STATUS_WRITE (R431): the 16-byte status block, no more often than STATUS_US; MEM_RING_BATCH once per ring and beat. -/
def ringStatus (r : Nat) (s : State) : State :=
  let g := s.ring r
  if !g.on ∨ !g.statusDue ∨ !hostRing r ∨ !s.power.pcieUp then s
  else
    let s1 := match g.statusAt with
      | some t => advanceMono (t + g.statusUs * 1000) s
      | none => s
    let block := le 2 g.nextIdx ++ le 2 0 ++ le 4 s1.beat ++ le 4 g.dry ++ le 4 0
    let s2 := emit (.hostMem g.statusAddr block)
      (updRing r (fun g => { g with statusDue := false, statusAt := some s1.time.mono }) s1)
    if g.notify ∧ g.batchBeat ≠ some s2.beat then
      raise 5 0x0802 (le 1 r ++ le 2 g.nextIdx) (updRing r (fun g => { g with batchBeat := some s2.beat }) s2)
    else s2

/-! ### Commands -/

/-- RATE_MTS of a type (Table 9-1). -/
def rateOk (type rate : Nat) : Bool := if type = 0 then [3200, 3733, 4266].contains rate else [4266, 5500, 6400].contains rate

/-- MEM_CONFIG (R401, Table 9-10). -/
def memConfig : Handler where
  fields := [fRange 16 1 0 1, fRange 17 1 1 2, fAny 18 2, fOneOf 20 1 [2, 4, 8], fRange 21 1 8 16, fMask 22 1 1, fZero 23 1]
  run c _ s :=
    let d := s.mem.detected.getD {}
    let g : MemConfig := { type := c.u 16 1, ranks := c.u 17 1, rate := c.u 18 2, gb := c.u 20 1, grain := c.u 21 1, ecc := c.flag 22 1 0 }
    if g.type ≠ d.type then (s, .reply (badArg 16))
    else if g.ranks ≠ d.ranks then (s, .reply (badArg 17))
    else if !rateOk g.type g.rate then (s, .reply (badArg 18))
    else if g.gb ≠ d.gb then (s, .reply (badArg 20))
    else (stageKept (fun k => { k with mem.config := some g }) s, .reply (ok (le 1 d.type ++ le 1 d.ranks ++ le 1 d.gb ++ [0])))

/-- MEM_POOL_SET (R405). -/
def memPoolSet : Handler where
  fields := [fAny 16 4, fAny 20 4, fAny 24 4, fAny 28 4, fRange 32 1 0 100, fZero 33 3]
  run c _ s :=
    let p : Pools := { queueMb := c.u 16 4, psMb := c.u 20 4, ringMb := c.u 24 4, captureMb := c.u 28 4, psW1Pct := c.u 32 1 }
    match [16, 20, 24, 28].find? (fun o => c.u o 4 % 64 ≠ 0) with
    | some o => (s, .reply (badArg o))
    | none =>
      match stewardMb (s.next.mem.config.getD (s.mem.detected.getD {})) p with
      | some m =>
        if m < 512 then (s, .reply (badArg 16))
        else (stageKept (fun k => { k with mem.pools := p }) s, .reply (ok (le 4 m)))
      | none => (s, .reply (badArg 16))

/-- MEM_CELL_SET (R424). -/
def memCellSet : Handler where
  fields := [fOneOf 16 1 (List.range 29 ++ [0xFF]), fZero 17 1, fRange 18 2 0 4096, fRange 20 4 0 65536]
  run c _ s :=
    let v := (c.u 18 2, c.u 20 4)
    let accs := if c.u 16 1 = 0xFF then List.range 29 else [c.u 16 1]
    let m := accs.foldl (fun m a => Map.set m a v) s.next.mem.cells
    if reserveSum m > 32768 ∧ reserveSum m > reserveSum s.next.mem.cells then (s, .reply (badArg 18))
    else (stageKept (fun k => { k with mem.cells := m }) s, .reply (ok))

/-- MEM_PORT_SET (R409, R410, R412): the fields of the other kind of port are not judged. -/
def memPortSet : Handler where
  fields := [fRange 16 1 0 8, fAny 17 1, fAny 18 1, fZero 19 1, fAny 20 2]
  run c _ s :=
    let p := c.u 16 1
    let old := Map.getD s.next.mem.ports p { weight := if p = 6 then 4 else 2 }
    if p ≤ 5 then
      if c.u 17 1 < 20 ∨ c.u 17 1 > 70 then (s, .reply (badArg 17))
      else (stageKept (fun k => { k with mem.ports := Map.set k.mem.ports p { old with panicPct := c.u 17 1 } }) s, .reply (ok))
    else if c.u 18 1 < 1 ∨ c.u 18 1 > 16 then (s, .reply (badArg 18))
    else if c.u 20 2 < 20 ∨ c.u 20 2 > 5000 then (s, .reply (badArg 20))
    else
      let new := { old with weight := c.u 18 1, leaseUs := c.u 20 2 }
      (stageKept (fun k => { k with mem.ports := Map.set k.mem.ports p new }) s, .reply (ok))

/-- MEM_RING_SET (R427, R428, R433): from lane 0 only; disabling judges no other field. -/
def memRingSet : Handler where
  fields := [fAny 16 1, fMask 17 1 3, fAny 18 2, fAny 20 2, fAny 22 2, fAny 24 8, fAny 32 8]
  run c _ s :=
    let r := c.u 16 1
    if c.lane ≠ 0 then (s, .reply (denied))
    else if !hostRing r then (s, .reply (badArg 16))
    else if !c.flag 17 1 0 then
      (if (s.ring r).on then disableRing r s else s, .reply (ok))
    else if !([64, 128, 256, 512, 1024, 2048, 4096].contains (c.u 18 2)) then (s, .reply (badArg 18))
    else if c.u 20 2 < 5 ∨ c.u 20 2 > 1000 then (s, .reply (badArg 20))
    else if c.u 22 2 < 1 ∨ c.u 22 2 > 1000 then (s, .reply (badArg 22))
    else if c.u 24 8 % 64 ≠ 0 then (s, .reply (badArg 24))
    else if (s.ring r).on then (s, .reply { status := stBusy })
    else
      (updRing r (fun g => { g with on := true, notify := c.flag 17 1 1, entries := c.u 18 2, pollUs := c.u 20 2, statusUs := c.u 22 2,
                                    base := c.u 24 8, statusAddr := c.u 32 8, nextIdx := 0, deviceHeld := 0, open' := none,
                                    statusDue := false, statusAt := none }) s, .reply (ok))

/-- MEM_RING_READ. -/
def memRingRead : Handler where
  fields := [fAny 16 1, fZero 17 3]
  run c _ s :=
    let r := c.u 16 1
    if !ringExists r then (s, .reply (badArg 16))
    else
      let g := s.ring r
      (s, .reply (ok (le 2 g.nextIdx ++ le 1 (bit g.on) ++ [0] ++ le 2 g.deviceHeld ++ le 4 g.dry ++ le 4 g.offDrop)))

/-- MEM_STATUS. The free MB of STEWARD and of RING, which no rule accounts for, are free values within the pool. -/
def memStatus : Handler where
  fields := []
  run _ _ s :=
    let chan (k : Nat) :=
      let c := s.channel k
      le 2 s.mem.config.rate ++ le 1 c.m ++ le 1 c.stale ++ leInt 2 c.temp ++ le 10 0
    let free (p : Nat) := (poolBytes s p - poolUsed s p) / 2 ^ 20
    let total := (stewardMb s.mem.config s.mem.pools).getD 0
    let (a, s1) := draw s
    let (b, s2) := draw s1
    (s2, .reply (ok (chan 0 ++ chan 1 ++ le 4 (a % (total + 1)) ++ le 4 (free 1) ++ le 4 (free 2 + free 3) ++
      le 4 (b % (s.mem.pools.ringMb + 1)) ++ le 4 (free 5) ++ le 4 (65536 - cellsUsed s))))

/-- The sticky flags of MEM_COUNTERS (R434). -/
def memSticky (s : State) : Nat := fieldsWord [(0, bit s.mem.eccUeStk), (1, bit s.mem.ringDryStk), (2, bit s.mem.rtFaultStk)]

/-- The 16 counters of Table 9-11 for one scope, as (offset, value) pairs. -/
def memScope (s : State) (sel : Nat) : List (Nat × Nat) :=
  let m := s.mem.counts
  let at' (l : List Nat) := l.map (fun k => (k, tallyOf m k))
  if sel = 0 then at' [cEccCe, cEccUe, cSrEntry, cSrRefuse, cTrainStep, cPoolFull]
  else if sel = 1 then at' [cCellDrop, cSweepCell]
  else if sel ≤ 10 then
    let d := s.dport (sel - 2)
    [(40, d.panicCnt), (44, d.underrun), (48, d.overflow), (52, d.expire)]
  else
    let g := s.ring (sel - 0x40)
    [(68, g.frames), (72, g.dry), (76, g.offDrop), (80, g.descErr)]

/-- The counters of one scope cleared. -/
def memClear (sel : Nat) (s : State) : State :=
  if sel = 0 then { s with mem.counts := s.mem.counts.filter (fun e => e.1 = cCellDrop ∨ e.1 = cSweepCell) }
  else if sel = 1 then { s with mem.counts := s.mem.counts.filter (fun e => ¬ (e.1 = cCellDrop ∨ e.1 = cSweepCell)) }
  else if sel ≤ 10 then updDport (sel - 2) (fun d => { d with panicCnt := 0, underrun := 0, overflow := 0, expire := 0 }) s
  else updRing (sel - 0x40) (fun g => { g with frames := 0, dry := 0, offDrop := 0, descErr := 0 }) s

/-- MEM_COUNTERS (R433, R434). -/
def memCounters : Handler where
  fields := [fAny 16 1, fMask 17 1 3, fMask 18 1 7, fZero 19 1]
  run c _ s :=
    let sel := c.u 16 1
    if sel > 10 ∧ (sel < 0x40 ∨ !ringExists (sel - 0x40)) then (s, .reply (badArg 16))
    else
      let vals := memScope s sel
      let body := le 1 (memSticky s) ++ [0, 0, 0] ++
        ((List.range 16).map (fun i => le 4 (Map.getD vals (20 + 4 * i) 0))).flatten
      let s1 := if c.flag 17 1 0 then memClear sel s else s
      let w := c.u 18 1
      let s2 := if c.flag 17 1 1 then
          { s1 with mem.eccUeStk := s1.mem.eccUeStk && !hasBit w 0, mem.ringDryStk := s1.mem.ringDryStk && !hasBit w 1,
                    mem.rtFaultStk := s1.mem.rtFaultStk && !hasBit w 2 } else s1
      (s2, .reply (ok body))

/-! ### Meanings -/

/-- MR4_READ. -/
def execMr4Read (channel m : Nat) (temp : Int) (s : State) : Out := act (mr4Read channel m temp) s
/-- PORT_LEASE_EXPIRY. -/
def execPortLeaseExpiry (port : Nat) (s : State) : Out := act (portExpiry port) s
/-- PANIC_RISE. -/
def execPanicRise (port level : Nat) (tx : Bool) (s : State) : Out := act (panicRise port level tx) s
/-- RING_STATUS_WRITE. -/
def execRingStatusWrite (ring : Nat) (s : State) : Out := act (ringStatus ring) s
/-- MEM_CONFIG. -/
def execMemConfig (c : Cmd) (s : State) : Out := act (submit 0x0801 memConfig c) s
/-- MEM_POOL_SET. -/
def execMemPoolSet (c : Cmd) (s : State) : Out := act (submit 0x0802 memPoolSet c) s
/-- MEM_CELL_SET. -/
def execMemCellSet (c : Cmd) (s : State) : Out := act (submit 0x0803 memCellSet c) s
/-- MEM_PORT_SET. -/
def execMemPortSet (c : Cmd) (s : State) : Out := act (submit 0x0804 memPortSet c) s
/-- MEM_RING_SET. -/
def execMemRingSet (c : Cmd) (s : State) : Out := act (submit 0x0805 memRingSet c) s
/-- MEM_RING_READ. -/
def execMemRingRead (c : Cmd) (s : State) : Out := act (submit 0x0806 memRingRead c) s
/-- MEM_STATUS. -/
def execMemStatus (c : Cmd) (s : State) : Out := act (submit 0x0807 memStatus c) s
/-- MEM_COUNTERS. -/
def execMemCounters (c : Cmd) (s : State) : Out := act (submit 0x0808 memCounters c) s

end Sys2Proof.Machine
end

