-- ==== Sys2Proof/Machine/Planner.lean ====
section
/-! DEFINITION. The Planisher's queues, finish tags, shapers, policers and gate lists (chapter 7). Air plans stand in AirPlan.lean,
the wired egresses in Switch.lean and Wired.lean. -/

namespace Sys2Proof.Machine

/-! ### Counters of Table 7-21, by response offset -/

abbrev cSelect : Nat := 20
abbrev cQDrop : Nat := 24
abbrev cYellowDrop : Nat := 28
abbrev cGateWait : Nat := 32
abbrev cNeverFit : Nat := 36
abbrev cShaped : Nat := 40
abbrev cRelease : Nat := 44
abbrev cActive : Nat := 64
abbrev cIdle : Nat := 68
abbrev cFill : Nat := 72
abbrev cPwrClip : Nat := 76
abbrev cMaskConflict : Nat := 80
abbrev cRepeat : Nat := 84
abbrev cSafeAir : Nat := 88

/-- A Planisher counter of egress `e` advanced. -/
def planAdd (e k n : Nat) (s : State) : State := { s with plan.counts := tallyBy s.plan.counts (128 * e + k) n }
/-- A Planisher counter of egress `e` incremented. -/
def planCount (e k : Nat) (s : State) : State := planAdd e k 1 s

/-! ### Queues -/

/-- Does the number name a queue of Table 7-2 (R314)? -/
def queueValid (q : Nat) : Bool :=
  decide (q ≤ 0xDF) || (decide (0x1000 ≤ q) && decide (q ≤ 0x1FFF)) || (decide (0x2000 ≤ q) && decide (q ≤ 0x2BFF)) ||
  (decide (0x3000 ≤ q) && decide (q ≤ 0x33FF)) || (decide (0x3F00 ≤ q) && decide (q ≤ 0x3F05))

/-- The range of Table 7-2 that a queue lies in. -/
def queueRange (q : Nat) : Nat :=
  if q ≤ 0xDF then 0 else if q ≤ 0x1FFF then 1 else if q ≤ 0x2BFF then 2 else if q ≤ 0x33FF then 3 else 4

/-- A field child queue. -/
def childQueue (q : Nat) : Bool := queueRange q = 2

/-- The Cold settings of a queue (Tables 7-6 and 7-13). -/
def coldQueue (q : Nat) : QueueSet :=
  match queueRange q with
  | 0 => { cls := q % 8, limitKb := if q / 8 = 26 then 32 else if q / 8 = 24 ∨ q / 8 = 25 then 128 else 256 }
  | 1 => { limitKb := 128 }
  | 2 => { limitKb := 8 }
  | 3 => { limitKb := 1024 }
  | _ => { limitKb := 64, yellowPct := 100 }

/-- The settings of a queue in force. -/
def queueSet (s : State) (q : Nat) : QueueSet := Map.getD s.kept.plan.queues q (coldQueue q)

/-- The class of a queue (Table 7-2); 8 for M. -/
def queueClass (s : State) (q : Nat) : Nat :=
  match queueRange q with
  | 0 => q % 8
  | 1 => 2 * (q % 4)
  | 2 => (queueSet s q).cls
  | 3 => 2 * (q % 4) + 1
  | _ => 8

/-- The egresses of a queue (Table 7-2): a client's links, a neighbour's radio. -/
def queueEgress (s : State) (q : Nat) : List Nat :=
  match queueRange q with
  | 0 => [q / 8]
  | 1 =>
    match Map.get? s.wide.clients ((q - 0x1000) / 4) with
    | some c => (if c.link1 ≠ 0xFFFF then [24] else []) ++ (if c.link2 ≠ 0xFFFF then [25] else [])
    | none => []
  | 2 => [26]
  | 3 =>
    match Map.get? s.kept.wide.neighbours ((q - 0x3000) / 4) with
    | some n => [24 + n.radio]
    | none => []
  | _ => if q ≤ 0x3F01 then [24] else if q ≤ 0x3F03 then [25] else [26]

/-- The egress that a queue's own counters and tag classes go by. -/
def queueHome (s : State) (q : Nat) : Nat := (queueEgress s q).headD 26

/-- Is the queue cell-homed (R423)? -/
def cellHomed (q : Nat) : Bool := decide (q < 8 * 24) || (decide (8 * 27 ≤ q) && decide (q < 8 * 28))

/-- Queue `q` as it stands. -/
def State.queue (s : State) (q : Nat) : PQueue := Map.getD s.plan.queues q {}

/-- Queue `q` changed. -/
def updQueue (q : Nat) (f : PQueue → PQueue) (s : State) : State := { s with plan.queues := Map.set s.plan.queues q (f (s.queue q)) }

/-- Bytes in a queue, as charged. -/
def PQueue.bytes (p : PQueue) : Nat := p.frames.foldl (fun t f => t + f.charge) 0

/-! ### Finish tags -/

/-- R319: does tag `a` precede tag `b`? -/
def tagPrecedes (a b : Nat) : Bool :=
  let d := (b + 2 ^ 48 - a) % 2 ^ 48
  decide (1 ≤ d) && decide (d ≤ 2 ^ 47 - 1)

/-- The later of two tags, in serial order. -/
def tagMax (a b : Nat) : Nat := if tagPrecedes a b then b else a

/-- R318: the tag of a frame of charge `l` in a queue of weight `w`. -/
def finishTag (v fPrev l w : Nat) : Nat := (tagMax v fPrev + l * 2 ^ 20 / max 1 w) % 2 ^ 48

/-- The key of class `c` of egress `e`. -/
def classKey (e c : Nat) : Nat := 16 * e + c

/-- The Cold settings of a class (Table 7-14, R356). -/
def coldClass (k : Nat) : ClassSet :=
  let e := k / 16
  let c := k % 16
  if e = 24 ∨ e = 25 then { hold := if c ≤ 1 then 16 else if c ≤ 3 then 8 else if c ≤ 5 then 2 else 0 } else {}

/-- Settings of a class in force. -/
def classSet (s : State) (k : Nat) : ClassSet := Map.getD s.kept.plan.classes k (coldClass k)

/-- The running state of a class. -/
def State.classRun (s : State) (k : Nat) : ClassRun := Map.getD s.plan.classes k {}

/-- The head of queue `q` tagged where it is not (R318). -/
def tagHead (q : Nat) (s : State) : State :=
  let p := s.queue q
  match p.frames with
  | f :: r =>
    match f.tag with
    | some _ => s
    | none =>
      let v := (s.classRun (classKey (queueHome s q) (queueClass s q))).v
      let t := finishTag v p.fPrev f.charge (queueSet s q).weight
      updQueue q (fun p => { p with frames := { f with tag := some t } :: r, fPrev := t }) s
  | [] => s

/-! ### Shapers -/

/-- The credit of class `k` now, and the instant it is reckoned at (R323): grown at RATE_KBPS · 125 bytes a second, up to BURST. -/
def creditNow (s : State) (k : Nat) : Int × Nat :=
  let g := classSet s k
  let r := s.classRun k
  let cap : Int := g.burst * 256
  let grow : Nat := g.rateKbps * (s.time.mono - r.at') * 32 / 10 ^ 6
  if r.credit + (grow : Int) ≥ cap then (cap, s.time.mono)
  else (r.credit + (grow : Int), r.at' + grow * 10 ^ 6 / (max 1 (g.rateKbps * 32)))

/-- Is class `k` held back by its shaper (R323)? -/
def shapedOut (s : State) (k : Nat) : Bool := (classSet s k).shaped && decide ((creditNow s k).1 < 0)

/-- A selection in class `k`: V takes the tag, the credit is charged (R318, R323). -/
def chargeClass (k tag l : Nat) (s : State) : State :=
  let c := creditNow s k
  let r := s.classRun k
  { s with plan.classes := Map.set s.plan.classes k { r with v := tag, credit := c.1 - 256 * l, at' := c.2 } }

/-! ### Admission (R326) -/

/-- Counted and discarded for QLIMIT, PLAN_QUEUE_DROP at most once per queue in 1,000 beats (R359). -/
def dropForLimit (q : Nat) (s : State) : State :=
  let s1 := planCount (queueHome s q) cQDrop (updQueue q (fun p => { p with drops := satInc 32 p.drops }) s)
  let recent := match (s1.queue q).dropEvent with
    | some b => decide (s1.beat < b + 1000)
    | none => false
  if recent then s1
  else raise 4 0x0705 (le 2 q ++ le 4 (s1.queue q).bytes) (updQueue q (fun p => { p with dropEvent := some s1.beat }) s1)

/-- A client's queues of one access category: its own, and the relay queues where it stands for a neighbour (R266). -/
def clientQueues (s : State) (c ac : Nat) : List Nat :=
  (0x1000 + 4 * c + ac) :: (s.kept.wide.neighbours.filter (fun e => decide (e.2.client = c))).map (fun e => 0x3000 + 4 * e.1 + ac)

/-- Frames buffered for a client over its queues. -/
def clientFrames (s : State) (c : Nat) : Nat :=
  ((List.range 4).map (fun a => (clientQueues s c a).foldl (fun t q => t + (s.queue q).frames.length) 0)).sum

/-- The station that a client queue, or the relay queue of a downstream gateway, serves (R266, R270). -/
def queueStation (s : State) (q : Nat) : Option Nat :=
  if queueRange q = 1 then some ((q - 0x1000) / 4)
  else if queueRange q = 3 then
    (match Map.get? s.kept.wide.neighbours ((q - 0x3000) / 4) with
     | some g => if g.role = 1 ∧ g.client ≠ 0xFFFF then some g.client else none
     | none => none)
  else none

/-- The station of a queue, when it is in power-save mode: client index (R250, R251). -/
def psClient (s : State) (q : Nat) : Option Nat :=
  match queueStation s q with
  | some c => (match Map.get? s.wide.clients c with
    | some x => if x.ps then some c else none
    | none => none)
  | none => none

/-- PS_DROP_CNT of the radio that charges the frame (R251). -/
def psDrop (q c : Nat) (s : State) : State :=
  let r := queueHome s q - 24
  let b := (Map.getD s.wide.clients c {}).bss
  let f (x : Radio) := { x with counts := tally (tally x.counts (256 * 255 + 96)) (256 * b + 96) }
  { s with wide.radios := Bank.modify s.wide.radios r f }

/-- The DRAM pool that a frame of queue `q` is charged to (R406); 0 for a cell-homed queue. -/
def queuePool (s : State) (q : Nat) : Nat :=
  if cellHomed q then 0 else match psClient s q with
    | some _ => if queueHome s q = 25 then 3 else 2
    | none => 1

/-- A full child queue (R163). -/
def childDrop (q : Nat) (s : State) : State :=
  let c := q - 0x2000
  let band := (Map.getD s.kept.field.children c {}).bandChan / 128
  let run := Map.getD s.field.run c {}
  { s with field.counts := tally s.field.counts (256 * band + 124),
           field.run := Map.set s.field.run c { run with counts := tally run.counts 124 } }

/-- ENQUEUE (R326, R406, R163, R251): the frame is admitted, or discarded and counted at the first limit reached. Says whether it was
admitted. -/
def enqueue (q : Nat) (f : Queued) (s : State) : State × Bool :=
  let p := s.queue q
  let g := queueSet s q
  let pool := queuePool s q
  let len := f.charge
  let limitHit : Bool := if childQueue q then
      decide (p.frames.length ≥ (Map.getD s.kept.field.children (q - 0x2000) {}).qdepth)
    else decide (p.bytes + f.charge > g.limitKb * 1024)
  let yellowHit : Bool := decide (f.colour ≠ 0) &&
    (if childQueue q then
      decide (p.frames.length * 100 > g.yellowPct * (Map.getD s.kept.field.children (q - 0x2000) {}).qdepth)
    else decide (p.bytes * 100 > g.yellowPct * (g.limitKb * 1024)))
  if limitHit then (if childQueue q then childDrop q s else dropForLimit q s, false)
  else if yellowHit then (planCount (queueHome s q) cYellowDrop s, false)
  else
    let psFull : Option Nat := match psClient s q with
      | some c => if clientFrames s c ≥ (Map.getD s.kept.wide.access (queueHome s q - 24) {}).psMaxFrames then some c else none
      | none => none
    match psFull with
    | some c => (psDrop q c s, false)
    | none =>
      if pool ≠ 0 ∧ !poolFits s pool len then
        let s1 := memCount cPoolFull (dropForLimit q s)
        (match psClient s q with
         | some c => psDrop q c s1
         | none => s1, false)
      else
        let s1 := if pool ≠ 0 then chargePool pool len s else s
        let item := { f with pool := pool, enqBeat := s.beat, held := g.eventHold, tag := none, waited := false, seen := none,
                              charged := false, air := none }
        (tagHead q (updQueue q (fun p => { p with frames := p.frames ++ [item] }) s1), true)

/-- Does a queue hold a frame that is not held (PEND, R161)? -/
def pendQ (s : State) (q : Nat) : Bool := (s.queue q).frames.any (fun f => !f.held)

/-- A change from `was` noted with its instant; a frame is on the air for 10.24 ms at most, and what is older than 20 ms is forgotten. -/
def noteChange (now : Nat) (was : Bool) (l : List (Nat × Bool)) : List (Nat × Bool) :=
  (now, was) :: l.filter (fun e => decide (now ≤ e.1 + 20000000))

/-- `f` changes queue `q`: of a child's queue, a change of PEND is noted with its instant (R161, R164). -/
def watchPend (q : Nat) (f : State → State) (s : State) : State :=
  let t := f s
  if childQueue q ∧ pendQ t q ≠ pendQ s q then
    let c := q - 0x2000
    { t with field.pends := Map.set t.field.pends c (noteChange t.time.mono (pendQ s q) (Map.getD t.field.pends c [])) }
  else t

/-- A frame leaves the block or is discarded: its cells and its pool charge are given back; `e` is the egress. -/
def leave (e : Nat) (f : Queued) (s : State) : State :=
  let s1 := uncharge f.pool f.charge s
  match f.cells with
  | some id => releaseCells id e s1
  | none => s1

/-- The head of queue `q` taken off; the next frame becomes the head and is tagged (R318). -/
def popHead (q : Nat) (s : State) : State :=
  tagHead q (updQueue q (fun p => { p with frames := p.frames.tail }) s)

/-- A frame returned to the head of its queue with its tag unchanged; it is not charged again (R320). -/
def returnHead (q : Nat) (f : Queued) (s : State) : State := updQueue q (fun p => { p with frames := { f with charged := true } :: p.frames }) s

/-- Every frame of queue `q` discarded. -/
def flushQueue (q : Nat) (s : State) : State :=
  let p := s.queue q
  let s1 := p.frames.foldl (fun s f => leave (queueHome s q) f s) s
  if p.frames = [] then s else updQueue q (fun p => { p with frames := [] }) s1

/-! ### Selection (R316) -/

/-- A queue of egress `e` and class `c` with a frame that can be taken, and that frame. -/
def ready (s : State) (e c : Nat) (ok' : Nat → Queued → Bool) : List (Nat × Queued) :=
  s.plan.queues.filterMap (fun x =>
    if (queueEgress s x.1).contains e ∧ queueClass s x.1 = c then
      match x.2.frames with
      | f :: _ => if !f.held ∧ ok' x.1 f then some (x.1, f) else none
      | [] => none
    else none)

/-- The earliest finish tag; equal tags go to the lower queue number. -/
def earliest : List (Nat × Queued) → Option (Nat × Queued)
  | [] => none
  | x :: r =>
    match earliest r with
    | none => some x
    | some y => if tagPrecedes (y.2.tag.getD 0) (x.2.tag.getD 0) then some y else some x

/-- The frame selected from class `c` of egress `e`: taken off its queue, charged where it was not before (R320), and counted. -/
def selectFrom (e c q : Nat) (f : Queued) (s : State) : State :=
  let k := classKey e c
  let s1 := if f.charged then s else chargeClass k (f.tag.getD 0) f.charge s
  planCount e cSelect (popHead q (updQueue q (fun p => { p with lastClass := some k }) s1))

/-- The queues of egress `e` judged in R316's order from class `c` downward: the frame selected, and the state with the counts of
classes refused for credit. `ok'` says which heads may start. -/
def judgeClasses (e : Nat) (ok' : Nat → Queued → Bool) : Nat → State → State × Option (Nat × Nat × Queued)
  | 0, s => (s, none)
  | c + 1, s =>
    match earliest (ready s e c ok') with
    | none => judgeClasses e ok' c s
    | some (q, f) =>
      if shapedOut s (classKey e c) then judgeClasses e ok' c (planCount e cShaped s)
      else (s, some (c, q, f))

/-- The management queues of an egress, in queue-number order; class M may be shaped (R316). -/
def judgeManagement (e : Nat) (ok' : Nat → Queued → Bool) (s : State) : State × Option (Nat × Nat × Queued) :=
  match (ready s e 8 ok').head? with
  | none => (s, none)
  | some (q, f) => if shapedOut s (classKey e 8) then (planCount e cShaped s, none) else (s, some (8, q, f))

/-- R316: management queues, then classes 7 to 0; a Planisher in unit reset selects nothing (R556). -/
def judge (e : Nat) (ok' : Nat → Queued → Bool) (s : State) : State × Option (Nat × Nat × Queued) :=
  if !unitUp s 4 then (s, none) else
  match judgeManagement e ok' s with
  | (s1, some r) => (s1, some r)
  | (s1, none) => judgeClasses e ok' 8 s1

/-! ### Gate lists (R331 to R336) -/

/-- P = T / gcd(T, 1,000) (R331). -/
def gateBeats (cycle : Nat) : Nat := cycle / Nat.gcd cycle 1000

/-- The gate list in force on egress `e`. -/
def gateList (s : State) (e : Nat) : Option GateList := Map.get? s.kept.plan.gates e

/-- Is class `c` open in every entry? -/
def GateList.always (g : GateList) (c : Nat) : Bool := g.entries.all (fun x => hasBit x.1 c)

/-- The entries from ns `t` of the cycle on, once round: the rest of the present entry first. Durations in ns. -/
def gateFrom : List (Nat × Nat) → Nat → List (Nat × Nat) → List (Nat × Nat)
  | [], _, before => before
  | (m, d) :: r, t, before =>
    if t < d * 1000 then (m, d * 1000 - t) :: r.map (fun x => (x.1, x.2 * 1000)) ++ before ++ [(m, t)]
    else gateFrom r (t - d * 1000) (before ++ [(m, d * 1000)])

/-- Nanoseconds for which class `c` stays open from now; 0 where it is closed. -/
def openRun (c : Nat) : List (Nat × Nat) → Nat
  | [] => 0
  | (m, d) :: r => if hasBit m c then d + openRun c r else 0

/-- How long class `c` of gate list `g` stays open from `wait` ns after the present instant. In the settling interval of a rebase, which ends at the
next beat boundary, every gate holds the state that it had at the end of beat B (Table 1-9). -/
def gateRun (s : State) (g : GateList) (c wait : Nat) : Nat :=
  let from' (ns : Nat) : Nat := openRun c (gateFrom g.entries (ns % (g.cycle * 1000)) [])
  let left := 1000000 - s.phase
  if s.time.settling ∧ wait < left then (if from' s.time.settleNs = 0 then 0 else left - wait + from' (s.ns + left))
  else from' (s.ns + wait)

/-- How long class `c` of egress `e` stays open from `wait` ns after the present instant; none: without bound. -/
def gateOpenFor (s : State) (e c wait : Nat) : Option Nat :=
  match gateList s e with
  | none => none
  | some g => if g.always c then none else some (gateRun s g c wait)

/-- Ns to the next change of the gates of egress `e`. -/
def gateNext (s : State) (e : Nat) : Option Nat :=
  match gateList s e with
  | none => none
  | some g => (gateFrom g.entries (s.ns % (g.cycle * 1000)) []).head?.map (·.2)

/-- The longest run of entries that open class `c`, in µs: `cur` the run so far, `best` the longest. -/
def longestRun (c : Nat) : List (Nat × Nat) → Nat → Nat → Nat
  | [], cur, best => max cur best
  | (m, d) :: r, cur, best => if hasBit m c then longestRun c r (cur + d) best else longestRun c r 0 (max cur best)

/-- W_c in µs; 0xFFFF_FFFF for an unbounded window (R332, R333). -/
def windowUs (g : Option GateList) (c : Nat) : Nat :=
  match g with
  | none => 0xFFFFFFFF
  | some g => if g.always c then 0xFFFFFFFF else longestRun c (g.entries ++ g.entries) 0 0

/-- R333: a frame of `ns` on egress `e` never fits a window of class `c`. -/
def neverFits (s : State) (e c ns : Nat) : Bool :=
  match gateList s e with
  | none => false
  | some g => !g.always c && decide (ns > 1000 * windowUs (some g) c)

/-! ### Release by time trigger (R337) -/

/-- Frames of queue `q` released; counted on its egress. -/
def releaseQueue (q : Nat) (s : State) : State :=
  let n := ((s.queue q).frames.filter (·.held)).length
  if n = 0 then s
  else watchPend q (fun s =>
    planAdd (queueHome s q) cRelease n (updQueue q (fun p => { p with frames := p.frames.map (fun f => { f with held := false }) }) s)) s

/-- Planisher event `ev` is fired. -/
def fireEvent (ev : Nat) (s : State) : State :=
  s.plan.queues.foldl (fun s x =>
    if (queueSet s x.1).eventHold ∧ (queueSet s x.1).event = ev then releaseQueue x.1 s else s) s

/-! ### Policers (R327 to R330) -/

/-- A policer's settings and running state. -/
def policerSet (s : State) (i : Nat) : PolicerSet := Map.getD s.kept.plan.policers i {}
def State.policerRun (s : State) (i : Nat) : PolicerRun :=
  Map.getD s.plan.policers i { tc := (policerSet s i).cbs * 256, tp := (policerSet s i).pbs * 256 }

/-- The buckets filled up to now. -/
def fillBuckets (s : State) (i : Nat) : PolicerRun :=
  let g := policerSet s i
  let r := s.policerRun i
  let dt := s.time.mono - r.at'
  { r with tc := min (g.cbs * 256) (r.tc + g.cir * dt * 32 / 10 ^ 6), tp := min (g.pbs * 256) (r.tp + g.pir * dt * 32 / 10 ^ 6),
           at' := s.time.mono }

/-- R328: one policer meters a frame of `b` bytes that arrives with `colour` (0 green, 1 yellow, 2 red): the colour found. -/
def meter (s : State) (i b colour : Nat) : PolicerRun × Nat :=
  let g := policerSet s i
  let r := fillBuckets s i
  let c := if g.aware then colour else 0
  if c = 2 ∨ r.tp < b * 256 then ({ r with red := satInc 32 r.red }, 2)
  else if c = 1 ∨ r.tc < b * 256 then ({ r with tp := r.tp - b * 256, yellow := satInc 32 r.yellow }, 1)
  else ({ r with tp := r.tp - b * 256, tc := r.tc - b * 256, green := satInc 32 r.green }, 0)

/-- R327, R329: a frame passes policer `i`: the state, its colour, the class its action names, whether it is dropped. The counter of a
colour counts the colour with which the frame leaves. -/
def police (i b colour : Nat) (cls : Option Nat) (s : State) : State × Nat × Option Nat × Bool :=
  let g := policerSet s i
  if !g.enable then (s, colour, cls, false)
  else
    let m := meter s i b colour
    let c := max colour m.2
    let a := bitsOf g.actions (2 * c + 1) (2 * c)
    let base := fillBuckets s i
    let r := { m.1 with green := base.green, yellow := base.yellow, red := base.red }
    let r1 := if c = 0 then { r with green := satInc 32 r.green } else if c = 1 then { r with yellow := satInc 32 r.yellow }
      else { r with red := satInc 32 r.red }
    let r2 := if a = 2 then { r1 with dropped := satInc 32 r1.dropped } else r1
    ({ s with plan.policers := Map.set s.plan.policers i r2 }, c, if a = 1 then some g.reclass else cls, decide (a = 2))

/-- The policer bound to a port (kind 1) or a client (kind 2). -/
def boundPolicer (s : State) (kind n : Nat) : List Nat :=
  s.kept.plan.policers.filterMap (fun e => if e.2.enable ∧ e.2.bindKind = kind ∧ e.2.bind = n then some e.1 else none)

/-- The policers of a frame in order (R327): it is dropped by the first whose action says so. -/
def policeAll : List Nat → Nat → Nat → Option Nat → State → State × Nat × Option Nat × Bool
  | [], _, colour, cls, s => (s, colour, cls, false)
  | i :: r, b, colour, cls, s =>
    match police i b colour cls s with
    | (s1, c, k, true) => (s1, c, k, true)
    | (s1, c, k, false) => policeAll r b c k s1

/-! ### The commit window -/

/-- R321: every empty queue whose F_prev precedes V of the class it was last served in takes that V; the same for uplink demand (R322). -/
def sweepTags (s : State) : State :=
  let down (p : PQueue) : PQueue := match p.lastClass with
    | some k => if p.frames = [] ∧ tagPrecedes p.fPrev (s.classRun k).v then { p with fPrev := (s.classRun k).v } else p
    | none => p
  let up (p : PQueue) : PQueue := match p.lastUl with
    | some k => if p.ulBytes = 0 ∧ tagPrecedes p.fPrevUl (s.classRun k).vUl then { p with fPrevUl := (s.classRun k).vUl } else p
    | none => p
  { s with plan.queues := Map.mapVals s.plan.queues (fun _ p => up (down p)) }

/-- New settings in force: shapers' credits and policers' buckets are full again, cleared event holds release (R323, R328, R337). -/
def planSettings (old : Kept) (s : State) : State :=
  let g := s.kept.plan
  let s1 := g.classes.foldl (fun s e =>
    if Map.get? old.plan.classes e.1 = some e.2 then s
    else { s with plan.classes := Map.set s.plan.classes e.1
                    { s.classRun e.1 with credit := e.2.burst * 256, at' := s.time.mono } }) s
  let s2 := g.policers.foldl (fun s e =>
    if Map.get? old.plan.policers e.1 = some e.2 then s
    else { s with plan.policers := Map.set s.plan.policers e.1
                    { s.policerRun e.1 with tc := e.2.cbs * 256, tp := e.2.pbs * 256, at' := s.time.mono } }) s1
  s2.plan.queues.foldl (fun s x => if !(queueSet s x.1).eventHold then releaseQueue x.1 s else s) s2

/-- Settings accepted after 500 µs move up one window (R357). -/
def lateSettings (s : State) : State :=
  match s.plan.late with
  | some p => { s with next.plan := p, plan.late := none }
  | none => s

/-- Gate lists whose effective beat has come (R334): in force, answered, reported. -/
def gateCommit (b : Nat) (s : State) : State :=
  let due := s.plan.gatePending.filter (fun e => e.2.beat ≤ b)
  due.foldl (fun s e =>
    let put (k : Kept) : Kept := match e.2.list with
      | some g => { k with plan.gates := Map.set k.plan.gates e.1 g }
      | none => { k with plan.gates := Map.erase k.plan.gates e.1 }
    let s1 := raise 4 0x0702 (le 1 e.1 ++ le 8 e.2.beat) (setKept put s)
    completeJob e.2.job (ok (le 8 e.2.beat ++ ((List.range 8).map (fun c => le 4 (windowUs e.2.list c))).flatten)) s1)
    { s with plan.gatePending := s.plan.gatePending.filter (fun e => e.2.beat > b) }

/-- Masks whose effective beat has come (R352). -/
def maskCommit (b : Nat) (s : State) : State :=
  let due := s.plan.maskPending.filter (fun e => e.2.beat ≤ b)
  due.foldl (fun s e =>
    let put (k : Kept) : Kept :=
      let m := Map.getD k.plan.masks e.1 {}
      { k with plan.masks := Map.set k.plan.masks e.1 { m with ap := e.2.ap.getD m.ap, up := e.2.up.getD m.up } }
    let s1 := raise 4 0x0703 (le 1 e.1 ++ le 8 e.2.beat) (setKept put s)
    completeJob e.2.job (ok (le 8 e.2.beat)) s1)
    { s with plan.maskPending := s.plan.maskPending.filter (fun e => e.2.beat > b) }

/-- The plan commit of beat `b`: gate lists and masks of the next beat pass their point of commitment (R334, R352). -/
def planCommitGates (b : Nat) (s : State) : State :=
  let s1 := s.plan.gatePending.foldl (fun s e => if e.2.beat ≤ b + 1 then commitJob e.2.job s else s) s
  s.plan.maskPending.foldl (fun s e => if e.2.beat ≤ b + 1 then commitJob e.2.job s else s) s1

/-- A unit reset of the Planisher (R585): queues stay; V and F_prev go to 0 and the heads are tagged again; credits and buckets are
full; a plan under computation is discarded. -/
def resetPlanner (s : State) : State :=
  let clearQ (p : PQueue) : PQueue := { p with fPrev := 0, fPrevUl := 0, frames := p.frames.map (fun f => { f with tag := none }) }
  let fullC (e : Nat × ClassRun) : Nat × ClassRun :=
    (e.1, { v := 0, vUl := 0, credit := (classSet s e.1).burst * 256, at' := s.time.mono })
  let fullP (e : Nat × PolicerRun) : Nat × PolicerRun :=
    (e.1, { e.2 with tc := (policerSet s e.1).cbs * 256, tp := (policerSet s e.1).pbs * 256, at' := s.time.mono })
  let s1 := { s with plan.queues := Map.mapVals s.plan.queues (fun _ p => clearQ p),
                     plan.classes := s.plan.classes.map fullC, plan.policers := s.plan.policers.map fullP,
                     plan.computed := [] }
  s1.plan.queues.foldl (fun s x => tagHead x.1 s) s1

/-! ### Commands -/

/-- R357: a setting accepted before 500 µs of its beat is in force at the next commit window, a later one at the one after. -/
def stagePlan (f : PlannerKept → PlannerKept) (s : State) : State :=
  if s.phase < 500000 then { s with next.plan := f s.next.plan, plan.late := s.plan.late.map f }
  else { s with plan.late := some (f (s.plan.late.getD s.next.plan)) }

/-- The settings as accepted so far. -/
def planAccepted (s : State) : PlannerKept := s.plan.late.getD s.next.plan

/-- PLAN_QUEUE_SET (Table 7-13). -/
def planQueueSet : Handler where
  fields := [fAny 16 2, fAny 18 2, fAny 20 1, fMask 21 1 1, fRange 22 2 1 65535, fAny 24 2, fRange 26 1 0 100, fAny 27 1]
  run c _ s :=
    let a := c.u 16 2
    let b := c.u 18 2
    if !queueValid a then (s, .reply (badArg 16))
    else if !queueValid b ∨ queueRange a ≠ queueRange b ∨ b < a then (s, .reply (badArg 18))
    else if (if childQueue a then c.u 20 1 > 7 else c.u 20 1 ≠ 0xFF) then (s, .reply (badArg 20))
    else if !childQueue a ∧ c.u 24 2 = 0 then (s, .reply (badArg 24))
    else
      let g : QueueSet := { cls := c.u 20 1, eventHold := c.flag 21 1 0, weight := c.u 22 2, limitKb := c.u 24 2,
                            yellowPct := c.u 26 1, event := c.u 27 1 }
      let put (p : PlannerKept) : PlannerKept :=
        { p with queues := (List.range (b + 1 - a)).foldl (fun m i => Map.set m (a + i) g) p.queues }
      (stagePlan put s, .reply (ok))

/-- PLAN_CLASS_SET (Table 7-14). -/
def planClassSet : Handler where
  fields := [fRange 16 1 0 27, fRange 17 1 0 8, fMask 18 1 1, fRange 19 1 0 16, fRange 20 4 64 100000000, fRange 24 4 1600 16777215]
  run c _ s :=
    let e := c.u 16 1
    let k := c.u 17 1
    if k = 8 ∧ (e < 24 ∨ e > 26) then (s, .reply (badArg 17))
    else if c.u 19 1 ≠ 0 ∧ !((e = 24 ∨ e = 25) ∧ k ≤ 7) then (s, .reply (badArg 19))
    else
      let g : ClassSet := { shaped := c.flag 18 1 0, hold := c.u 19 1, rateKbps := c.u 20 4, burst := c.u 24 4 }
      (stagePlan (fun p => { p with classes := Map.set p.classes (classKey e k) g }) s, .reply (ok))

/-- PLAN_POLICER_SET (Table 7-15): a second binding to the same port or client replaces the first. -/
def planPolicerSet : Handler where
  fields := [fRange 16 2 0 1023, fMask 18 1 3, fMask 19 1 0x3F, fRange 20 1 0 2, fRange 21 1 0 7, fAny 22 2,
    fRange 24 4 0 100000000, fRange 28 4 0 100000000, fRange 32 4 1536 16777215, fRange 36 4 1536 16777215]
  run c _ s :=
    let a := c.u 19 1
    if a % 4 = 3 ∨ a / 4 % 4 = 3 ∨ a / 16 % 4 = 3 then (s, .reply (badArg 19))
    else if (c.u 20 1 = 1 ∧ c.u 22 2 > 23) ∨ (c.u 20 1 = 2 ∧ c.u 22 2 > 4095) then (s, .reply (badArg 22))
    else if c.u 28 4 < c.u 24 4 then (s, .reply (badArg 28))
    else
      let g : PolicerSet := { enable := c.flag 18 1 0, aware := c.flag 18 1 1, actions := a, bindKind := c.u 20 1,
                              reclass := c.u 21 1, bind := c.u 22 2, cir := c.u 24 4, pir := c.u 28 4,
                              cbs := c.u 32 4, pbs := c.u 36 4 }
      let unbind (_ : Nat) (p : PolicerSet) : PolicerSet :=
        if g.bindKind ≠ 0 ∧ p.bindKind = g.bindKind ∧ p.bind = g.bind then { p with bindKind := 0, bind := 0 } else p
      (stagePlan (fun p => { p with policers := Map.set (Map.mapVals p.policers unbind) (c.u 16 2) g }) s, .reply (ok))

/-- The gate entries of a bulk region (Table 7-7); none where one breaks the layout. -/
def gateEntries : List Byte → Option (List (Nat × Nat))
  | a :: b :: x :: y :: r =>
    let w := leNat [a, b, x, y]
    if bitsOf w 11 8 ≠ 0 ∨ w / 4096 < 1 ∨ w / 4096 > 256000 then none
    else (gateEntries r).map (fun l => (w % 256, w / 4096) :: l)
  | [] => some []
  | _ => none

/-- The first allowed effective beat (R334, R352): the first multiple of `p` at least two beats after acceptance. -/
def firstAllowed (s : State) (p : Nat) : Nat := (s.beat + 2 + (p - 1)) / p * p

/-- The effective beat that a command names, or its refusal (R334, R352): DETAIL 24 for one that is no multiple of `p`, LATE for one
before the first allowed. -/
def effectiveBeat (s : State) (p named : Nat) : Except Reply Nat :=
  if named = 0 then .ok (firstAllowed s p)
  else if named % p ≠ 0 then .error (badArg 24)
  else if named < firstAllowed s p then .error { status := stLate }
  else .ok named

/-- The gate list that PLAN_GATE_SET carries, or its refusal (R331, R334). -/
def gateOf (c : Cmd) (s : State) : Except Reply GateList :=
  let n := c.u 18 2
  let t := c.u 20 4
  if n < 1 ∨ n > 256 then .error (badArg 18)
  else if t < 1 ∨ t > 256000 ∨ gateBeats t > 256 then .error (badArg 20)
  else if !hasBit c.flags 0 ∨ c.bulkLen ≠ 4 * n then .error (badArg 0)
  else match gateEntries (Memory.readList s.draws (s.lane c.lane).bulk c.bulkOff c.bulkLen) with
    | none => .error (badArg 0)
    | some es =>
      if es.foldl (fun a x => a + x.2) 0 ≠ t then .error (badArg 20) else .ok { cycle := t, entries := es }

/-- PLAN_GATE_SET (R331, R334, Table 7-16): answered at its effective beat. -/
def planGateSet : Handler where
  fields := [fRange 16 1 0 23, fMask 17 1 1, fAny 18 2, fAny 20 4, fAny 24 8]
  run c id s :=
    let e := c.u 16 1
    let place (g : Option GateList) (p : Nat) : State × Verdict :=
      match effectiveBeat s p (c.u 24 8) with
      | .error r => (s, .reply r)
      | .ok b => ({ s with plan.gatePending := s.plan.gatePending ++ [(e, { list := g, beat := b, job := id })] }, .wait false b 0)
    if c.flag 17 1 0 then
      match gateOf c s with
      | .error r => (s, .reply r)
      | .ok g => place (some g) (gateBeats g.cycle)
    else place none (match gateList s e with | some g => gateBeats g.cycle | none => 1)

/-- PLAN_MASK_SET (R351, R352, Table 7-17): answered at its effective beat. -/
def planMaskSet : Handler where
  fields := [fRange 16 1 0 1, fMask 17 1 3, fZero 18 6, fAny 24 8, fAny 32 32, fAny 64 32]
  run c id s :=
    let r := c.u 16 1
    if s.plan.cityMasks.contains r then (s, .reply (denied 45))
    else match effectiveBeat s 256 (c.u 24 8) with
      | .error e => (s, .reply e)
      | .ok b =>
        let m : MaskPending := { ap := if c.flag 17 1 0 then some (c.u 32 32) else none,
                                 up := if c.flag 17 1 1 then some (c.u 64 32) else none, beat := b, job := id }
        ({ s with plan.maskPending := s.plan.maskPending ++ [(r, m)] }, .wait false b 0)

/-- PLAN_AIR_CONFIG (Table 7-18): with RADIO 2 only the four window fields apply and are judged. -/
def planAirConfig : Handler where
  fields := [fRange 16 1 0 2, fAny 17 1, fRange 18 1 1 255, fAny 19 1, fAny 20 4, fRange 24 2 1 256, fRange 26 2 20 900,
    fRange 28 2 0 500, fAny 30 2]
  run c _ s :=
    let r := c.u 16 1
    let old := Map.getD (planAccepted s).air r {}
    if r ≠ 2 ∧ c.u 17 1 > 3 then (s, .reply (badArg 17))
    else if r ≠ 2 ∧ (c.u 19 1 < 1 ∨ c.u 19 1 > 64) then (s, .reply (badArg 19))
    else if r ≠ 2 ∧ (c.u 20 4 < 16384 ∨ c.u 20 4 > 16777215) then (s, .reply (badArg 20))
    else if c.u 26 2 + c.u 28 2 > 950 then (s, .reply (badArg 28))
    else if r ≠ 2 ∧ c.u 30 2 > 930 then (s, .reply (badArg 30))
    else
      let g : AirConfig := { old with calSpacing := c.u 18 1, coexPeriod := c.u 24 2, coexPhase := c.u 26 2, coexUs := c.u 28 2 }
      let g1 : AirConfig := if r = 2 then g else
        { g with consol := c.flag 17 1 0, idleOff := c.flag 17 1 1, upEvery := c.u 19 1, fillBytes := c.u 20 4, suMin := c.u 30 2 }
      (stagePlan (fun p => { p with air := Map.set p.air r g1 }) s, .reply (ok))

/-- The 8 bytes of an air plan entry (Table 7-9). -/
def PlanEntry.bytes (e : PlanEntry) : List Byte := le 1 e.kind ++ le 1 e.flags ++ le 2 e.start ++ le 2 e.dur ++ le 2 e.arg

/-- PLAN_AIR_READ (Table 7-19). -/
def planAirRead : Handler where
  fields := [fRange 16 1 0 2, fRange 17 1 0 1, fZero 18 2]
  run c _ s :=
    let r := c.u 16 1
    if !hasBit c.flags 0 ∨ c.bulkLen < 512 then (s, .reply (badArg 0))
    else if c.u 17 1 = 1 ∧ s.time.planCommitBeat ≠ some s.beat then (s, .reply { status := stLate })
    else
      let p := if c.u 17 1 = 0 then Map.getD s.plan.inForce r {} else Map.getD s.plan.latched r {}
      let bytes := (p.entries.map PlanEntry.bytes).flatten
      let s1 := updLane c.lane (fun l => { l with bulk := Memory.writeList l.bulk c.bulkOff bytes }) s
      (s1, .reply { ok (le 8 p.beat ++ le 1 p.entries.length ++
          le 1 (fieldsWord [(0, bit p.repeated), (1, bit p.safe), (2, bit p.clipped)]) ++ [0, 0]) with bulkOut := bytes.length })

/-- Is a frame of the queue urgent for its class's hold horizon now (R355)? -/
def urgentHead (s : State) (q : Nat) : Bool :=
  match (s.queue q).frames with
  | f :: _ =>
    match f.seen with
    | some b => !f.held && decide (s.beat ≥ b + (classSet s (classKey (queueHome s q) (queueClass s q))).hold)
    | none => false
  | [] => false

/-- PLAN_QUEUE_GET (Table 7-20). -/
def planQueueGet : Handler where
  fields := [fAny 16 2, fZero 18 2]
  run c _ s :=
    let q := c.u 16 2
    if !queueValid q then (s, .reply (badArg 16))
    else
      let g := queueSet s q
      let p := s.queue q
      let held := p.frames.any (·.held)
      let head := p.frames.head?
      (s, .reply (ok (le 1 (queueClass s q) ++ le 1 (fieldsWord [(0, bit (p.frames ≠ [])), (1, bit held), (2, bit (urgentHead s q))]) ++
        le 2 g.weight ++ le 2 g.limitKb ++ [0, 0] ++ le 4 p.bytes ++ le 4 p.frames.length ++
        le 6 ((head.bind (·.tag)).getD 0) ++ le 6 p.fPrev ++ le 4 p.drops ++ le 4 ((head.bind (·.seen)).getD 0))))

/-- PLAN_COUNTERS (R358). -/
def planCounters : Handler where
  fields := [fOneOf 16 1 (List.range 28 ++ [0xFE, 0xFF]), fMask 17 1 3, fAny 18 2, fMask 20 1 3, fZero 21 3]
  run c _ s :=
    let sel := c.u 16 1
    let i := c.u 18 2
    if sel = 0xFE ∧ i > 1023 then (s, .reply (badArg 18))
    else
      let p := s.policerRun i
      let val (k : Nat) : Nat :=
        if sel < 28 then tallyOf s.plan.counts (128 * sel + k)
        else if sel = 0xFE then
          (if k = 48 then p.green else if k = 52 then p.yellow else if k = 56 then p.red else if k = 60 then p.dropped else 0)
        else 0
      let body := le 1 (fieldsWord [(0, bit s.plan.neverFitStk), (1, bit s.plan.clipStk)]) ++ [0, 0, 0] ++
        ((List.range 18).map (fun j => le 4 (val (20 + 4 * j)))).flatten
      let s1 := if c.flag 17 1 0 then
          (if sel < 28 then { s with plan.counts := s.plan.counts.filter (fun e => e.1 / 128 ≠ sel) }
           else if sel = 0xFE then
             { s with plan.policers := Map.set s.plan.policers i { p with green := 0, yellow := 0, red := 0, dropped := 0 } }
           else s) else s
      let w := c.u 20 1
      (if c.flag 17 1 1 then { s1 with plan.neverFitStk := s1.plan.neverFitStk && !hasBit w 0,
                                       plan.clipStk := s1.plan.clipStk && !hasBit w 1 } else s1, .reply (ok body))

/-! ### Meanings -/

/-- PLAN_QUEUE_SET. -/
def execPlanQueueSet (c : Cmd) (s : State) : Out := act (submit 0x0701 planQueueSet c) s
/-- PLAN_CLASS_SET. -/
def execPlanClassSet (c : Cmd) (s : State) : Out := act (submit 0x0702 planClassSet c) s
/-- PLAN_POLICER_SET. -/
def execPlanPolicerSet (c : Cmd) (s : State) : Out := act (submit 0x0703 planPolicerSet c) s
/-- PLAN_GATE_SET. -/
def execPlanGateSet (c : Cmd) (s : State) : Out := act (submit 0x0704 planGateSet c) s
/-- PLAN_MASK_SET. -/
def execPlanMaskSet (c : Cmd) (s : State) : Out := act (submit 0x0705 planMaskSet c) s
/-- PLAN_AIR_CONFIG. -/
def execPlanAirConfig (c : Cmd) (s : State) : Out := act (submit 0x0706 planAirConfig c) s
/-- PLAN_AIR_READ. -/
def execPlanAirRead (c : Cmd) (s : State) : Out := act (submit 0x0707 planAirRead c) s
/-- PLAN_QUEUE_GET. -/
def execPlanQueueGet (c : Cmd) (s : State) : Out := act (submit 0x0708 planQueueGet c) s
/-- PLAN_COUNTERS. -/
def execPlanCounters (c : Cmd) (s : State) : Out := act (submit 0x0709 planCounters c) s

end Sys2Proof.Machine
end

