-- ==== Sys2Proof/Machine/Release.lean ====
section
/-! DEFINITION. Cancelling what an open command has pending (R106, R108), releasing a lane (R98), the ownership sweep (R557). -/

namespace Sys2Proof.Machine

/-- One trigger channel changed. -/
def updTrig (ch : Nat) (f : Trigger → Trigger) (s : State) : State := { s with time.triggers := Bank.modify s.time.triggers ch f }

/-- A trigger channel of index `ch`. -/
def State.trig (s : State) (ch : Nat) : Trigger := s.time.triggers.getD ch {}

/-- TB_TRIG_ABANDONED (Table 1-25): channel; cause 0 CANCEL, 1 REBASE, 2 LATE. -/
def abandonTrig (ch cause : Nat) (s : State) : State :=
  raise 0 0x0208 (le 1 ch ++ le 1 cause) (updTrig ch (fun t => { t with armed := false, held := false }) s)

/-- Every channel that `party` armed is cancelled with cause CANCEL (Table 13-8). -/
def sweepTriggers (party : Nat) (s : State) : State :=
  (List.range 16).foldl (fun s ch =>
    if (s.trig ch).armed ∧ (s.trig ch).party = party then abandonTrig ch 0 s else s) s

/-- Queued frames whose cells a sweep has freed are gone (R426). -/
def dropLost (s : State) : State :=
  let here (f : Queued) : Bool := match f.cells with | some id => Map.has s.mem.cells id | none => true
  let s1 := { s with plan.queues := Map.mapVals s.plan.queues (fun _ p => { p with frames := p.frames.filter here }) }
  s1.plan.queues.foldl (fun s x => tagHead x.1 s) s1

/-- The ownership sweep of source `src` over what the chapters before this one hold: its trigger channels are cancelled, its cells freed,
its DRAM transactions discarded, and with lane 0's transport the host rings disabled (R557, Table 13-8). The lane itself, coexistence grants and captures are swept by the callers. -/
def sweepResources (src : Nat) (s : State) : State :=
  let s1 := sweepDports src (dropLost (sweepCells src (sweepTriggers src s)))
  if src = 42 then disableHostRings s1 else s1

/-- A channel move whose command is taken back (R197, R219): one that has not begun is gone, and the radio stands again under what the command took the
place of, a move away from a radar or the check of a radio that opens; in the check of its own channel the radio goes back at the next commit window,
and does not transmit before. -/
def undoMove (job : Nat) (s : State) (w : Radio) : Radio :=
  match w.move with
  | some m =>
    let off : WideChan := { m.back with band := 0xFF }
    if m.job ≠ some job then w
    else if m.cacEnd.isNone then
      { w with move := m.latest.map (fun b => { chan := off, job := none, latest := some b, reason := 2, back := off }) }
    else if m.eff.isSome then { w with move := some { chan := m.back, job := none, cacEnd := m.cacEnd, back := off } }
    else { w with move := some { chan := m.back, job := none, eff := some (s.beat + 1), cacEnd := m.cacEnd, reason := 3, back := m.back } }
  | none => w

/-- A calibration run without the job; one that only the job asked for, and that has not begun, is gone. -/
def undoRun (job : Nat) (r : CalRun) : Option CalRun :=
  let left := r.jobs.filter (· ≠ job)
  if r.jobs.contains job ∧ left = [] ∧ !r.auto ∧ !r.running ∧ r.stepsDone = 0 ∧ r.fails = 0 ∧ r.dir = 0 ∧ r.found = [] then none else some { r with jobs := left }

/-- A DALI interface without the frame of the job. -/
def clearBus (job : Nat) (b : DaliBus) : DaliBus := { b with slots := b.slots.filter (fun e => e.2.job ≠ job) }

/-- The asker that a mode request by command `j` stands under. -/
def Job.asker (j : Job) : Asker := .job j.id j.cmd.tag

/-- The entry to Doze or Dormant under way is the one that command `j` asked for. -/
def entryOf (j : Job) (s : State) : Bool := s.power.entry.any (fun e => decide (e.asker = j.asker))

/-- What an abandoned command had pending is taken back, so that it has had no effect (R106): a rebase, a gate list or mask, a channel move, a
calibration, an image commit, a DALI frame, an entry to Doze or Dormant, whose end then answers nobody. -/
def undoPending (j : Job) (s : State) : State :=
  let s1 := match s.time.rebase with
    | some r => if r.asker = some j.id then { s with time.rebase := none } else s
    | none => s
  let s2 := { s1 with
    plan.gatePending := s1.plan.gatePending.filter (fun e => e.2.job ≠ j.id),
    plan.maskPending := s1.plan.maskPending.filter (fun e => e.2.job ≠ j.id),
    wide.radios := s1.wide.radios.map (undoMove j.id s1),
    front.calJobs := s1.front.calJobs.filter (fun x => x.job ≠ j.id),
    front.runs := s1.front.runs.filterMap (undoRun j.id),
    boot.commitWaits := if s1.boot.commitWaits = some j.id then none else s1.boot.commitWaits,
    pole.dali := s1.pole.dali.map (clearBus j.id) }
  match s2.power.entry with
  | some e =>
    if e.asker ≠ j.asker then s2
    else if e.undo = none then
      { s2 with power.entry := some { e with asker := .self, cancelled := true,
                                             wake := if e.wake = none then some (0, e.left, s.stamp) else e.wake } }
    else { s2 with power.entry := some { e with asker := .self } }
  | none => s2

/-- The instant that what the command has pending is certain or complete has come, though the row that records it has not run (R110): the plan
commit of a rebase's beat, the plan commit before the effective beat of a gate list or a beat mask, the end of an availability check. -/
def pastPoint (j : Job) (s : State) : Bool :=
  s.time.rebase.any (fun r => decide (r.asker = some j.id) && decide (r.beat * 1000000 + 900000 ≤ s.ns)) ||
  s.plan.gatePending.any (fun e => decide (e.2.job = j.id) && decide (e.2.beat * 1000000 ≤ s.ns + 100000)) ||
  s.plan.maskPending.any (fun e => decide (e.2.job = j.id) && decide (e.2.beat * 1000000 ≤ s.ns + 100000)) ||
  s.wide.radios.toList.any (fun w => w.move.any (fun m => decide (m.job = some j.id) && m.cacEnd.any (fun b => decide (b * 1000000 ≤ s.ns))))

/-- The command has not reached its point of commitment (R108, R110). -/
def undecided (s : State) (j : Job) : Bool := !j.committed && !pastPoint j s

/-- Lane release (R98, R105): each command before its point of commitment, one rung and not yet accepted included, is answered ABANDONED with
DETAIL LANE_RELEASED; the responses of the others are discarded. `cause`: 0 by its holder, 1 lease expiry, 2 hard claim, 3 reset of its transport
(Table 2-24). -/
def releaseLane (n cause : Nat) (s : State) : State :=
  let mine := s.stw.jobs.filter (fun j => j.lane = n)
  let s0 := (mine.filter (undecided s)).foldl (fun s j => deliverAbandoned 3 j (undoPending j s)) s
  let s1 := (s.lane n).order.foldl (fun s k => deliverAbandoned 3 (rungJob n k s) s) s0
  let s2 := { s1 with stw.jobs := s1.stw.jobs.filter (fun j => j.lane ≠ n) }
  let s3 := updLane n (fun l => { l with
      claimed := false, nonce := 0, wdogExpired := false, leaseLeft := 0, wdogLeft := 0,
      slots := l.slots.map (fun x => { x with phase := .free, accepted := false }), order := [],
      wrIdx := 0, rdIdx := 0, phase := true, entrySeq := 0, lostMark := false, ring := [], writtenAt := [],
      bulk := [],
      leaseExpireCnt := if cause = 1 then satInc 32 l.leaseExpireCnt else l.leaseExpireCnt }) s2
  let s4 := sweepResources (laneOwner n) s3
  let s5 := { s4 with power.holds := s4.power.holds.filter (· ≠ n),
                      boot.update := (match s4.boot.update with
                        | some u => if u.lane = n then none else some u
                        | none => none) }
  let s6 := { s5 with stw.events := s5.stw.events ++
    [{ stamp := s5.stamp, source := 45, code := 0x0102, data := le 1 n ++ le 1 cause, skip := n }] }
  if n < 2 ∧ cause ≠ 0 then setInt (4 + n) s6 else s6

end Sys2Proof.Machine
end

