-- ==== Sys2Proof/Machine/Switch.lean ====
section
/-! DEFINITION. The switch: tables, traps, routing, the forwarding pipeline up to the queues (chapter 8), and the switch commands. -/

namespace Sys2Proof.Machine

/-! ### Counters of Table 8-16, by response offset -/

abbrev cRxOk : Nat := 36
abbrev cRunt : Nat := 40
abbrev cCodeErr : Nat := 44
abbrev cOversize : Nat := 48
abbrev cFcsErr : Nat := 52
abbrev cNoCell : Nat := 56
abbrev cRxPause : Nat := 60
abbrev cMacCtl : Nat := 64
abbrev cTxOk : Nat := 68
abbrev cTxPause : Nat := 72
abbrev cTxOversize : Nat := 76
abbrev cTxLinkDown : Nat := 80
abbrev cLpiEntry : Nat := 84
abbrev cPlcaColl : Nat := 88
abbrev cLateColl : Nat := 92
abbrev cExcessColl : Nat := 96
abbrev cVlanDrop : Nat := 100
abbrev cStateDrop : Nat := 104
abbrev cEgressVlan : Nat := 108
abbrev cTrapDrop : Nat := 112
abbrev cSaViolation : Nat := 116
abbrev cMove : Nat := 120
abbrev cL2Full : Nat := 124
abbrev cL2Drop : Nat := 128
abbrev cRouteFwd : Nat := 132
abbrev cRouteTrap : Nat := 136
abbrev cRouteDrop : Nat := 140
abbrev cFlowHit : Nat := 144

/-- A port by switch index. -/
def State.wport (s : State) (i : Nat) : WPort := Map.getD s.wired.ports i { plca := 0 }
/-- A port changed. -/
def updPort (i : Nat) (f : WPort → WPort) (s : State) : State := { s with wired.ports := Map.set s.wired.ports i (f (s.wport i)) }
/-- A port counter incremented. -/
def portCount (i k : Nat) (s : State) : State := updPort i (fun p => { p with counts := tally p.counts k }) s
/-- A switch counter incremented. -/
def switchCount (k : Nat) (s : State) : State := { s with wired.counts := tally s.wired.counts k }

/-- WIRED_PORT_SET of a port in force. -/
def portCfg (s : State) (i : Nat) : WPortCfg := Map.getD s.kept.wired.ports i {}
/-- A VLAN entry. -/
def vlan (s : State) (v : Nat) : Vlan := Map.getD s.kept.wired.vlans v {}
/-- Is switch index `i` a member of VID `v`? -/
def member (s : State) (v i : Nat) : Bool := (vlan s v).valid && hasBit (vlan s v).member i

/-- Source number of a port by switch index (Table 8-1). -/
def portSource (i : Nat) : Nat := if i < 24 then 8 + i else if i = 24 then 32 else if i = 25 then 33 else if i = 26 then 34 else 42

/-! ### CRC-32 of IEEE 802.3 -/

/-- One bit of the reflected CRC-32. -/
def crcBit (c : Nat) : Nat := if c % 2 = 1 then (c / 2) ^^^ 0xEDB88320 else c / 2
/-- One byte of the reflected CRC-32. -/
def crcByte (c : Nat) (b : Byte) : Nat := crcBit (crcBit (crcBit (crcBit (crcBit (crcBit (crcBit (crcBit (c ^^^ b.toNat))))))))
/-- The CRC-32 of a byte list. -/
def crc32 (l : List Byte) : Nat := (l.foldl crcByte 0xFFFFFFFF) ^^^ 0xFFFFFFFF

/-- `n` bytes of `v` in network order. -/
def be (n v : Nat) : List Byte := (le n v).reverse

/-- The bucket of an L2 key (R386). -/
def l2Bucket (mac vid : Nat) : Nat := crc32 (be 6 mac ++ le 2 vid) % 4096

/-- A flow's address in 16 bytes: an IPv4 address in the first 4. -/
def flowAddr (v6 : Bool) (a : Nat) : List Byte := if v6 then be 16 a else be 4 a ++ List.replicate 12 0

/-- The bucket of a flow (R394). -/
def flowBucket (f : Flow) : Nat :=
  crc32 (le 1 (if f.v6 then 6 else 4) ++ le 1 f.proto ++ le 2 f.vid ++ be 2 f.sport ++ be 2 f.dport ++
    flowAddr f.v6 f.src ++ flowAddr f.v6 f.dst) % 2048

/-! ### The L2 table -/

/-- The entry at a table index: static or learned. -/
def l2At (s : State) (i : Nat) : Option L2Entry :=
  match Map.get? s.kept.wired.statics i with
  | some e => some e
  | none => Map.get? s.wired.learned i

/-- The table index of a key, if it is there: one of its bucket's four ways. -/
def l2Find (s : State) (mac vid : Nat) : Option Nat :=
  let b := 4 * l2Bucket mac vid
  [b, b + 1, b + 2, b + 3].find? (fun i => match l2At s i with
    | some e => decide (e.mac = mac) && decide (e.vid = vid)
    | none => false)

/-- The lowest free way of a bucket. -/
def l2Free (s : State) (bucket : Nat) : Option Nat :=
  let b := 4 * bucket
  [b, b + 1, b + 2, b + 3].find? (fun i => (l2At s i).isNone)

/-- A lookup hit sets HIT (R389). -/
def l2Hit (i : Nat) (s : State) : State :=
  match Map.get? s.wired.learned i with
  | some e => { s with wired.learned := Map.set s.wired.learned i { e with hit := true } }
  | none => s

/-- SOURCE_LEARN (R388): the key learned, rewritten, refused; none where a STATIC entry points elsewhere. -/
def learn (mac vid kind dest : Nat) (s : State) : Option State :=
  match l2Find s mac vid with
  | some i =>
    match l2At s i with
    | some e =>
      if e.destKind = kind ∧ e.dest = dest then some (l2Hit i s)
      else if e.static then none
      else some (switchCount cMove { s with wired.learned := Map.set s.wired.learned i { mac := mac, vid := vid, destKind := kind, dest := dest } })
    | none => some s
  | none =>
    match l2Free s (l2Bucket mac vid) with
    | some i => some { s with wired.learned := Map.set s.wired.learned i { mac := mac, vid := vid, destKind := kind, dest := dest } }
    | none =>
      let s1 := { switchCount cL2Full s with wired.l2FullStk := true }
      let recent := match s1.wired.l2FullBeat with
        | some b => decide (s1.beat < b + 1000)
        | none => false
      some (if recent then s1
        else raise 5 0x0403 (le 2 (l2Bucket mac vid) ++ le 2 vid) { s1 with wired.l2FullBeat := some s1.beat })

/-- Learned entries that point to a port are removed (R363). -/
def forgetPort (i : Nat) (s : State) : State :=
  { s with wired.learned := s.wired.learned.filter (fun e => ¬ (e.2.destKind = 0 ∧ e.2.dest = i)) }

/-- L2_AGE_SWEEP (R389): learned entries without HIT go; the others lose it. -/
def l2AgeSweep (s : State) : State :=
  let age := s.kept.wired.switch.l2Age
  if age = 0 ∨ s.beat < s.wired.l2Sweep + age / 2 then s
  else { s with wired.l2Sweep := s.beat,
                wired.learned := (s.wired.learned.filter (fun e => e.2.hit)).map (fun e => (e.1, { e.2 with hit := false })) }

/-- FLOW_AGE_SWEEP (R394). -/
def flowAgeSweep (s : State) : State :=
  if s.beat < s.wired.flowSweep + s.kept.wired.switch.flowAge / 2 then s
  else { s with wired.flowSweep := s.beat,
                wired.flows := (s.wired.flows.filter (fun e => e.2.hit)).map (fun e => (e.1, { e.2 with hit := false })) }

/-! ### Frames on their way -/

/-- Where a frame came from (R380). -/
structure Ingress where
  index : Nat
  bss : Nat := 0
  client : Option Nat := none
  ac : Nat := 0
  neighbour : Option Nat := none
  /-- the cells it holds, for a wired port -/
  cells : Option Nat := none
  /-- rewritten by routing (R392) -/
  routed : Bool := false
  stamp : Stamp := {}
  calStale : Bool := false
deriving DecidableEq, Repr

/-- The VID, the tag that was recognised, and whether the frame counts as tagged, of a frame at a port (R381). -/
def frameVid (s : State) (x : Ingress) (f : Frame) : Nat × Option VTag × Bool :=
  let g := portCfg s x.index
  if x.index = 24 ∨ x.index = 25 then (g.bssPvid.getD x.bss 1, none, false)
  else match f.tag with
    | some t =>
      if t.tpid = 0x8100 ∨ (t.tpid = 0x88A8 ∧ g.sTag) then
        if t.vid = 0 then (g.pvid, some t, false) else (t.vid, some t, true)
      else (g.pvid, none, false)
    | none => (g.pvid, none, false)

/-- Does ACCEPT admit the frame, and ingress filtering pass it (R381)? -/
def vlanAdmits (s : State) (x : Ingress) (vid : Nat) (tagged : Bool) : Bool :=
  let g := portCfg s x.index
  (if g.accept = 1 then tagged else if g.accept = 2 then !tagged else true) && (!g.ingressFilter || member s vid x.index)

/-- PCP and DSCP maps (R383). -/
def pcpClass (s : State) (i p : Nat) : Nat := match Map.get? s.kept.wired.pcpMaps i with | some m => m.getD p p | none => p
def dscpClass (s : State) (i d : Nat) : Nat := match Map.get? s.kept.wired.dscpMaps i with | some m => m.getD d (d / 8) | none => d / 8

/-- The class of a frame (R383), before any CLASS override. -/
def frameClass (s : State) (x : Ingress) (f : Frame) (t : Option VTag) : Nat :=
  let g := portCfg s x.index
  if x.index = 24 ∨ x.index = 25 then 2 * x.ac
  else match g.dscpTrust, f.ip, t with
    | true, some h, _ => dscpClass s x.index h.dscp
    | _, _, some t => pcpClass s x.index t.pcp
    | _, _, none => g.defaultClass

end Sys2Proof.Machine

namespace Sys2Proof

/-- Payload bytes of a frame, between the type field and the FCS. -/
def Frame.payload (f : Frame) : Nat := f.len - 18 - (if f.tag.isSome then 4 else 0) - f.pad
/-- MSDU bytes: the payload behind an LLC/SNAP header of 8 bytes. -/
def Frame.msdu (f : Frame) : Nat := f.payload + 8

end Sys2Proof

namespace Sys2Proof.Machine

/-- Bytes of a frame as a wired port sends it: padded to 64 (R373). -/
def sentLen (f : Frame) (tagged : Bool) : Nat := max 64 (f.len - (if f.tag.isSome then 4 else 0) + (if tagged then 4 else 0))

/-- A frame goes to the Steward (reason as in Output.toSteward). -/
def toSteward (reason : Nat) (x : Ingress) (f : Frame) (s : State) : State := emit (.toSteward reason x.index f.id) s

/-- A broadcast or multicast address: the group bit is the least significant of the first byte. -/
def groupAddr (a : Nat) : Bool := hasBit a 40

/-- The frame's cells are given up: nothing in the cell buffer refers to it. -/
def dropCells (x : Ingress) (s : State) : State := match x.cells with | some id => freeCells id s | none => s

/-- What is enqueued where: a queue, the egress, the item without its cells. -/
structure Target where
  queue : Nat
  egress : Nat
  item : Queued
deriving DecidableEq, Repr

/-- The frame as an entry for a queue of egress `e` in class `c` under VID `v` (R317). -/
def entryFor (s : State) (x : Ingress) (f : Frame) (e c v colour : Nat) : Queued :=
  let tagged : Bool := decide (e < 24) && !hasBit (vlan s v).untag e
  let len := if e < 24 then sentLen f tagged + 20 else if e = 27 then f.len else f.msdu
  { payload := .eth f, charge := len, ingress := x.index, vid := v, tagged := tagged, colour := colour, cls := c,
    pcp := if x.routed then some c else f.tag.map (·.pcp), dei := match f.tag with | some t => !x.routed && t.dei | none => false,
    rxStamp := x.stamp, calStale := x.calStale }

/-- Egress filtering (R395, R373, R363, R432): is the frame let through to egress `e`? The counts where it is not. -/
def egressPasses (f : Frame) (e c v : Nat) (s : State) : State × Bool :=
  if !member s v e then (portCount e cEgressVlan s, false)
  else if e < 24 then
    if sentLen f (!hasBit (vlan s v).untag e) > (portCfg s e).maxFrame then (portCount e cTxOversize s, false)
    else if (s.wport e).link ≠ 1 then (portCount e cTxLinkDown s, false)
    else (s, true)
  else if e = 27 then
    let r := (portCfg s 27).ringMap.getD c c
    if (s.ring r).on then (s, true) else (updRing r (fun g => { g with offDrop := satInc 32 g.offDrop }) s, false)
  else (s, true)

/-- A frame that is not in cells is copied into them for its cell-homed queues (R423): account of its ingress, 28 for the Steward. -/
def copyIn (x : Ingress) (f : Frame) (s : State) : Option (Nat × State) :=
  let account := if x.index ≤ 27 then x.index else 28
  let owner := if x.index = 27 then 42 else if x.index = 24 then 32 else if x.index = 25 then 33 else if x.index = 26 then 34 else 45
  claimCells owner account (cellsFor f.len) [] s

/-- Every target enqueued: the egresses of cell-homed queues that admitted it, in order. -/
def enqueueAll (id : Option Nat) : List Target → State → State × List Nat × Nat
  | [], s => (s, [], 0)
  | t :: r, s =>
    let q := enqueue t.queue { t.item with cells := if cellHomed t.queue then id else none } s
    let rest := enqueueAll id r q.1
    (rest.1, if q.2 ∧ cellHomed t.queue then t.egress :: rest.2.1 else rest.2.1, rest.2.2 + (if q.2 then 1 else 0))

/-- Enqueue to a set of queues (R423, R425, R426): stored once in cells for all cell-homed queues, once in DRAM for each other; says
how many queues took it. -/
def enqueueTargets (x : Ingress) (f : Frame) (ts : List Target) (s : State) : State × Nat :=
  if ts.any (fun t => cellHomed t.queue) then
    match x.cells with
    | some id =>
      match enqueueAll (some id) ts s with
      | (s1, [], n) => (freeCells id s1, n)
      | (s1, refs, n) => (handCells id refs s1, n)
    | none =>
      match copyIn x f s with
      | none => 
        let r := enqueueAll none (ts.filter (fun t => !cellHomed t.queue)) (memCount cCellDrop s)
        (r.1, r.2.2)
      | some (id, s1) =>
        match enqueueAll (some id) ts s1 with
        | (s2, [], n) => (freeCells id s2, n)
        | (s2, refs, n) => (handCells id refs s2, n)
  else
    match enqueueAll none ts (dropCells x s) with
    | (s1, _, n) => (s1, n)

/-- Queues of one destination (R386, R387): DEST_KIND and DEST; class `c`. Egress filtering is applied here. -/
def destTargets (x : Ingress) (f : Frame) (kind dest c v colour : Nat) (s : State) : State × List Target :=
  if kind = 0 then
    if dest < 24 ∨ dest = 27 then
      match egressPasses f dest c v s with
      | (s1, true) => (s1, [{ queue := 8 * dest + c, egress := dest, item := entryFor s x f dest c v colour }])
      | (s1, false) => (s1, [])
    else if dest = 26 then (toSteward 16 x f s, [])
    else
      match egressPasses f dest c v s with
      | (s1, true) => (s1, [{ queue := 8 * dest + 2 * (c / 2), egress := dest, item := entryFor s x f dest c v colour }])
      | (s1, false) => (s1, [])
  else if kind = 1 then
    match Map.get? s.wide.clients dest with
    | none => (s, [])
    | some cl =>
      let e := if cl.link1 ≠ 0xFFFF then 24 else 25
      if (portCfg s e).bssPvid.getD cl.bss 1 ≠ v then (portCount e cEgressVlan s, [])
      else (s, [{ queue := 0x1000 + 4 * dest + c / 2, egress := e, item := entryFor s x f e c v colour }])
  else
    match Map.get? s.kept.wide.neighbours dest with
    | none => (s, [])
    | some n =>
      if !n.enable then (s, [])
      else (s, [{ queue := 0x3000 + 4 * dest + c / 2, egress := 24 + n.radio, item := entryFor s x f (24 + n.radio) c v colour }])

/-- The group queue of a radio: one copy for every enabled BSS whose BSS_PVID is the VID (R387). -/
def groupTargets (x : Ingress) (f : Frame) (e c v colour : Nat) (s : State) : List Target :=
  let n := ((List.range 8).filter (fun b =>
    (Map.getD s.kept.wide.bss (8 * (e - 24) + b) {}).enable && decide ((portCfg s e).bssPvid.getD b 1 = v))).length
  List.replicate n { queue := 8 * e + 2 * (c / 2), egress := e, item := entryFor s x f e c v colour }

/-- Flooding over the indexes of a mask (R387): never back to a wired ingress or the host port. -/
def floodTargets (x : Ingress) (f : Frame) (mask c v colour : Nat) (s : State) : State × List Target :=
  (bitsSet 28 mask).foldl (fun acc e =>
    if e = x.index ∧ e ≠ 24 ∧ e ≠ 25 then acc
    else if e = 24 ∨ e = 25 then (acc.1, acc.2 ++ groupTargets x f e c v colour acc.1)
    else
      let r := destTargets x f 0 e c v colour acc.1
      (r.1, acc.2 ++ r.2)) (s, [])

/-- An accepted frame is counted (R372): RX_OK_CNT where it was queued or trapped; RX_CLIENT_BYTES of a wired port where it was queued
to a forwarding destination. -/
def countAccepted (x : Ingress) (f : Frame) (queued : Nat) (s : State) : State :=
  if x.index ≤ 27 then
    updPort x.index (fun p => { p with
      rxClientBytes := if queued = 0 ∨ x.index ≥ 24 then p.rxClientBytes else satAdd 64 p.rxClientBytes f.payload })
      (portCount x.index cRxOk s)
  else s

/-! ### Traps (Table 8-7) -/

/-- A UDP packet to one of the ports. -/
def udpTo (f : Frame) (ps : List Nat) : Bool :=
  match f.ip with
  | some h => decide (h.proto = 17) && !h.laterFragment && ps.contains h.dport
  | none => false

/-- The enabled L3 interface of a VID. -/
def ifOf (s : State) (vid : Nat) : Option (Nat × L3If) := s.kept.wired.ifs.find? (fun e => e.2.enable && decide (e.2.vid = vid))

/-- The reason for which the frame is trapped: 0 PTP, 1 LLDP, 2 reserved multicast, 3 management lane, 4 wake frame, 5 address
resolution, 6 DHCP, 7 own address. -/
def trapReason (s : State) (x : Ingress) (f : Frame) (vid : Nat) : Option Nat :=
  if (f.etherType = 0x88F7 ∨ udpTo f [319, 320]) ∧ (s.wport x.index).transparent = none then some 0
  else if f.da = 0x0180C200000E ∧ f.etherType = 0x88CC then some 1
  else if 0x0180C2000000 ≤ f.da ∧ f.da ≤ 0x0180C200000F ∧ f.etherType ≠ 0x8808 then some 2
  else if f.etherType = 0x88B6 ∧ f.toMgmt then some 3
  else if f.etherType = 0x88B5 then some 4
  else
    let nd : Bool := match f.ip with
      | some h => match h.icmp6 with | some t => h.v6 && decide (133 ≤ t) && decide (t ≤ 137) | none => false
      | none => false
    let onIf : Bool := match ifOf s vid with
      | some (_, i) => decide (f.da = i.mac) || groupAddr f.da
      | none => false
    if (f.etherType = 0x0806 ∨ nd = true) ∧ onIf = true then some 5
    else if udpTo f [67, 547] ∧ (vlan s vid).dhcp then some 6
    else if f.toDevice ∧ f.ip.isSome then some 7
    else none

/-- A trap within its rate of 2,000 per reason, port and 1,000 beats (R385); discarded beyond it and during a Steward restart (R365). -/
def trapTo (reason : Nat) (x : Ingress) (f : Frame) (s : State) : State × Bool :=
  let p := s.wport x.index
  let fresh : Bool := decide (s.beat ≥ p.trapsFrom + 1000)
  let n := if fresh then 0 else Map.getD p.traps reason 0
  if n ≥ 2000 ∨ s.stw.state = .restarting then (portCount x.index cTrapDrop s, false)
  else
    let s1 := updPort x.index (fun p => { p with
      traps := Map.set (if fresh then [] else p.traps) reason (n + 1), trapsFrom := if fresh then s.beat else p.trapsFrom }) s
    (toSteward reason x f s1, true)

/-! ### Routing (R391 to R393) -/

/-- An IPv4 or IPv6 prefix matches an address. -/
def Prefix.matches (p : Prefix) (v6 : Bool) (a : Nat) : Bool :=
  let w := if v6 then 128 else 32
  decide (p.v6 = v6) && decide (a / 2 ^ (w - p.len) = p.addr / 2 ^ (w - p.len))

/-- The longest match. -/
def longestMatch (v6 : Bool) (a : Nat) : List Prefix → Option Prefix
  | [] => none
  | p :: r =>
    match longestMatch v6 a r with
    | none => if p.matches v6 a then some p else none
    | some q => if p.matches v6 a ∧ p.len > q.len then some p else some q

/-- The flow of a packet (R391): its table index and entry. -/
def flowFind (s : State) (h : IpHeader) (vid : Nat) : Option (Nat × Flow) :=
  let tcpUdp : Bool := (decide (h.proto = 6) || decide (h.proto = 17)) && !h.laterFragment
  s.wired.flows.find? (fun e =>
    decide (e.2.v6 = h.v6) && decide (e.2.src = h.src) && decide (e.2.dst = h.dst) && decide (e.2.proto = h.proto) &&
    decide (e.2.sport = if tcpUdp then h.sport else 0) && decide (e.2.dport = if tcpUdp then h.dport else 0) && decide (e.2.vid = vid))

/-- What routing decides. -/
inductive Routed where
  | drop
  | trap
  /-- next hop, rewritten frame, new VID, policer, class override -/
  | go (nh : NextHop) (f : Frame) (vid : Nat) (policer : Nat) (cls : Option Nat)
deriving DecidableEq, Repr

/-- R393: the next hop `n` of a routed packet: its MTU, its validity, the rewrite of R392. -/
def routeVia (s : State) (n : NextHop) (f : Frame) (h : IpHeader) (policer : Nat) (cls : Option Nat) : Routed :=
  let i := Map.getD s.kept.wired.ifs n.ifc {}
  if n.kind = 4 then .drop
  else if n.kind ≠ 3 ∧ f.payload > i.mtu then .trap
  else if n.kind ≠ 3 ∧ !n.valid then .trap
  else .go n { f with da := n.mac, sa := i.mac, ip := some { h with ttl := h.ttl - 1 } } i.vid policer cls

/-- Routing of a packet (R391, R393): the state carries HIT bits and FLOW_HIT_CNT. -/
def route (f : Frame) (h : IpHeader) (vid : Nat) (s : State) : State × Routed :=
  if !h.v6 ∧ !h.checksumOk then (s, .drop)
  else if h.ttl ≤ 1 ∨ h.options then (s, .trap)
  else match flowFind s h vid with
    | some (i, fl) =>
      let s1 := switchCount cFlowHit { s with wired.flows := Map.set s.wired.flows i { fl with hit := true } }
      (s1, routeVia s (Map.getD s.kept.wired.nexthops fl.nh {}) f h fl.policer (if fl.classOvr then some fl.cls else none))
    | none =>
      match longestMatch h.v6 h.dst s.kept.wired.prefixes with
      | none => (s, .trap)
      | some p =>
        if p.action = 1 then (s, .trap)
        else if p.action = 2 then (s, .drop)
        else (s, routeVia s (Map.getD s.kept.wired.nexthops p.nh {}) f h 0xFFFF none)

/-- Is the frame routed: to the MAC of the enabled interface of its VID, which enables its IP version (R391)? -/
def routedHere (s : State) (f : Frame) (vid : Nat) : Option IpHeader :=
  match f.ip, ifOf s vid with
  | some h, some (_, i) => if s.kept.wired.switch.route ∧ f.da = i.mac ∧ (if h.v6 then i.v6 else i.v4) then some h else none
  | _, _ => none

/-! ### The pipeline (R380) -/

/-- The policers of a frame (R327): ingress port, client, table entry. -/
def framePolicers (s : State) (x : Ingress) (entry : Nat) : List Nat :=
  (if x.index < 24 then boundPolicer s 1 x.index else []) ++
  (match x.client with | some c => boundPolicer s 2 c | none => []) ++ (if entry < 1024 then [entry] else [])

/-- The source address of a frame learned where its port, its VLAN and, for a four-address frame, its neighbour learn (R267, R382); none where the
address may not move. -/
def learnSource (x : Ingress) (f : Frame) (vid : Nat) (s : State) : Option State :=
  if !(portCfg s x.index).learn ∨ !(vlan s vid).learn ∨ x.index = 28 then some s
  else match x.neighbour, x.client with
    | some n, _ => if (Map.getD s.kept.wide.neighbours n {}).learn then learn f.sa vid 2 n s else some s
    | none, some c => learn f.sa vid 1 c s
    | none, none => learn f.sa vid 0 x.index s

/-- Steps 6 to 9 with a destination known: policers, learning, egress, enqueue. `find` gives the targets for a class and colour. -/
def finish (x : Ingress) (f : Frame) (inVid cls colour entry : Nat)
    (find : Nat → Nat → State → State × List Target) (s : State) : State :=
  let b := if x.index = 24 ∨ x.index = 25 then f.msdu else f.len
  match policeAll (framePolicers s x entry) b colour none s with
  | (s1, _, _, true) => dropCells x s1
  | (s1, col, re, false) =>
    match learnSource x f inVid s1 with
    | none => dropCells x (switchCount cSaViolation s1)
    | some s2 =>
      let (s3, ts) := find (re.getD cls) col s2
      let r := enqueueTargets x f ts s3
      let s4 := if ts = [] then dropCells x r.1 else r.1
      if r.2 = 0 then s4 else countAccepted x f r.2 s4

/-- Step 5 of R380: routing or the L2 lookup, then the rest. -/
def lookupAndSend (x : Ingress) (f : Frame) (vid cls colour : Nat) (s : State) : State :=
  match routedHere s f vid with
  | some h =>
    match route f h vid s with
    | (s1, .drop) => dropCells x (switchCount cRouteDrop s1)
    | (s1, .trap) => countAccepted x f 0 (dropCells x (toSteward 17 x f (switchCount cRouteTrap s1)))
    | (s1, .go n f2 v pol ov) =>
      let s2 := switchCount cRouteFwd s1
      if n.kind = 3 then countAccepted x f 0 (dropCells x (toSteward 18 x f2 s2))
      else finish { x with routed := true } f2 vid (ov.getD cls) colour pol (fun c col s => destTargets { x with routed := true } f2 n.kind n.dest c v col s) s2
  | none =>
    match l2Find s f.da vid with
    | some i =>
      match l2At s i with
      | none => dropCells x s
      | some e =>
        let s1 := l2Hit i s
        let c := if e.classOvr then e.cls else cls
        if e.destKind = 4 then dropCells x (switchCount cL2Drop s1)
        else if e.destKind = 5 then countAccepted x f 0 (dropCells x (toSteward 19 x f s1))
        else if e.destKind = 3 then
          finish x f vid c colour e.policer (fun c col s =>
            floodTargets x f ((Map.getD s.kept.wired.groups e.dest 0) &&& (vlan s vid).member) c vid col s) s1
        else if e.destKind = 0 ∧ e.dest = x.index then dropCells x s1
        else finish x f vid c colour e.policer (fun c col s => destTargets x f e.destKind e.dest c vid col s) s1
    | none =>
      let m := (vlan s vid).member
      let wiredMask := if groupAddr f.da then m else m % 2 ^ 24 + (if hasBit m 27 then 2 ^ 27 else 0)
      finish x f vid cls colour 0xFFFF (fun c col s => floodTargets x f wiredMask c vid col s) s

/-- FORWARDING (R380): a frame that passed the MAC checks. -/
def forward (x : Ingress) (f : Frame) (s : State) : State :=
  match frameVid s x f with
  | (vid, tag, tagged) =>
    if !vlanAdmits s x vid tagged then dropCells x (portCount x.index cVlanDrop s)
    else
      let g := portCfg s x.index
      let reason := trapReason s x f vid
      let cls := frameClass s x f tag
      let colour := match tag with | some t => if g.deiIn ∧ t.dei then 1 else 0 | none => 0
      if g.state ≠ 2 ∧ reason ≠ some 1 ∧ reason ≠ some 2 then
        let s1 := if g.state = 1 then (learnSource x f vid s).getD s else s
        dropCells x (portCount x.index cStateDrop s1)
      else match reason with
        | some 2 =>
          if hasBit s.kept.wired.switch.rstp x.index then
            (match trapTo 2 x f s with
             | (s1, true) => countAccepted x f 0 (dropCells x s1)
             | (s1, false) => dropCells x s1)
          else dropCells x s
        | some 4 => dropCells x s
        | some 5 =>
          if groupAddr f.da then lookupAndSend x f vid cls colour (trapTo 5 x f s).1
          else match trapTo 5 x f s with
            | (s1, true) => countAccepted x f 0 (dropCells x s1)
            | (s1, false) => dropCells x s1
        | some r =>
          (match trapTo r x f s with
           | (s1, true) => countAccepted x f 0 (dropCells x s1)
           | (s1, false) => dropCells x s1)
        | none => lookupAndSend x f vid cls colour s

/-! ### ENQUEUE: frames from the Steward, their egress already chosen (R380) -/

/-- L of a payload in queue `q` (R317). -/
def chargeOf (s : State) (q : Nat) (p : Payload) (vid : Nat) : Queued :=
  match p with
  | .field m => { payload := p, charge := m.len }
  | .eth f =>
    let e := queueHome s q
    entryFor s { index := 28 } f e (queueClass s q) vid 0

/-- ENQUEUE (R326): a frame of the Steward's services for queue `q`; a wired egress applies its own filtering first. A field
frame that no channel of Table 3-1 can carry is none. -/
def enqueueRow (q : Nat) (p : Payload) (vid : Nat) (s : State) : State :=
  if !queueValid q ∨ !dataPlane s then s
  else
    let item := chargeOf s q p vid
    match p with
    | .eth f =>
      let e := queueHome s q
      if queueRange q = 0 ∧ (e < 24 ∨ e = 27) then
        match egressPasses f e (q % 8) vid s with
        | (s1, true) => (enqueueTargets { index := 28 } f [{ queue := q, egress := e, item := item }] s1).1
        | (s1, false) => s1
      else (enqueue q item s).1
    | .field m => if m.wf then watchPend q (fun s => (enqueue q item s).1) s else s

/-! ### Commands of the switch -/

/-- WIRED_SWITCH_CONFIG. -/
def wiredSwitchConfig : Handler where
  fields := [fAny 16 4, fRange 20 4 1000 4000000, fRange 24 4 0 0xFFFFFF, fMask 28 1 1, fZero 29 3]
  run c _ s :=
    let a := c.u 16 4
    if a ≠ 0 ∧ (a < 10000 ∨ a > 4000000) then (s, .reply (badArg 16))
    else
      let g : SwitchCfg := { l2Age := a, flowAge := c.u 20 4, rstp := c.u 24 4, route := c.flag 28 1 0 }
      (stageKept (fun k => { k with wired.switch := g }) s, .reply (ok))

/-- WIRED_VLAN_SET (Table 8-13). -/
def wiredVlanSet : Handler where
  fields := [fRange 16 2 1 4094, fMask 18 1 7, fZero 19 1, fRange 20 4 0 0x0FFFFFFF, fRange 24 4 0 0x00FFFFFF]
  run c _ s :=
    let v : Vlan := { valid := c.flag 18 1 0, learn := c.flag 18 1 1, dhcp := c.flag 18 1 2, member := c.u 20 4, untag := c.u 24 4 }
    (stageKept (fun k => { k with wired.vlans := Map.set k.wired.vlans (c.u 16 2) v }) s, .reply (ok))

/-- WIRED_GROUP_SET. -/
def wiredGroupSet : Handler where
  fields := [fRange 16 1 0 255, fZero 17 3, fRange 20 4 0 0x0FFFFFFF]
  run c _ s :=
    (stageKept (fun k => { k with wired.groups := Map.set k.wired.groups (c.u 16 1) (c.u 20 4) }) s, .reply (ok))

/-- The limit of DEST for a DEST_KIND (Table 8-8). -/
def destOk (kind dest : Nat) : Bool :=
  if kind = 0 then decide (dest ≤ 27) else if kind = 1 then decide (dest ≤ 1023) else if kind ≤ 3 then decide (dest ≤ 255) else true

/-- A MAC address field: six bytes in medium order. -/
def macAt (c : Cmd) (o : Nat) : Nat := leNat (c.bytesAt o 6).reverse

/-- A transport port in a command: medium order (R13). -/
def portAt (c : Cmd) (o : Nat) : Nat := leNat (c.bytesAt o 2).reverse

/-- WIRED_L2_SET (R390): in force at once. -/
def wiredL2Set : Handler where
  fields := [fAny 16 6, fRange 22 2 1 4094, fRange 24 1 0 5, fMask 25 1 15, fAny 26 2, fAny 28 2, fRange 30 1 0 7, fZero 31 1]
  run c _ s :=
    let mac := macAt c 16
    let vid := c.u 22 2
    let b := l2Bucket mac vid
    let reply (i : Nat) : Verdict := .reply (ok (le 2 b ++ le 1 (i % 4) ++ [0]))
    let drop (i : Nat) (s : State) : State :=
      { setKept (fun k => { k with wired.statics := Map.erase k.wired.statics i }) s with
        wired.learned := Map.erase s.wired.learned i }
    if !destOk (c.u 24 1) (c.u 26 2) then (s, .reply (badArg 26))
    else if c.u 28 2 > 1023 ∧ c.u 28 2 ≠ 0xFFFF then (s, .reply (badArg 28))
    else if !c.flag 25 1 0 then
      match l2Find s mac vid with
      | some i => (drop i s, reply i)
      | none => (s, reply 0)
    else
      let e : L2Entry := { mac := mac, vid := vid, destKind := c.u 24 1, static := true, hit := c.flag 25 1 2,
                           classOvr := c.flag 25 1 3, dest := c.u 26 2, policer := c.u 28 2, cls := c.u 30 1 }
      let put (i : Nat) : State := setKept (fun k => { k with wired.statics := Map.set k.wired.statics i e }) (drop i s)
      match l2Find s mac vid with
      | some i => (put i, reply i)
      | none =>
        match l2Free s b with
        | some i => (put i, reply i)
        | none =>
          match [4 * b, 4 * b + 1, 4 * b + 2, 4 * b + 3].find? (fun i => (Map.get? s.kept.wired.statics i).isNone) with
          | some i => (put i, reply i)
          | none => (s, .reply { status := stNoResource })

/-- The 16 bytes of an L2 entry (Table 8-8). -/
def L2Entry.bytes (e : L2Entry) : List Byte :=
  be 6 e.mac ++ le 2 e.vid ++ le 1 e.destKind ++
    le 1 (fieldsWord [(0, 1), (1, bit e.static), (2, bit e.hit), (3, bit e.classOvr)]) ++ le 2 e.dest ++ le 2 e.policer ++ le 1 e.cls ++ [0]

/-- Every valid entry by table index, rising. -/
def l2All (s : State) : List (Nat × L2Entry) :=
  s.kept.wired.statics.foldl (fun m e => Map.set m e.1 e.2) s.wired.learned

/-- WIRED_L2_READ. -/
def wiredL2Read : Handler where
  fields := [fRange 16 2 0 16383, fRange 18 2 1 4096]
  run c _ s :=
    if !hasBit c.flags 0 ∨ c.bulkLen < 16 * c.u 18 2 then (s, .reply (badArg 0))
    else
      let all := (l2All s).filter (fun e => e.1 ≥ c.u 16 2)
      let out := all.take (c.u 18 2)
      let next := match out.getLast? with
        | some e => if out.length = c.u 18 2 ∧ e.1 < 16383 then e.1 + 1 else 0xFFFF
        | none => 0xFFFF
      let bytes := (out.map (fun e => e.2.bytes)).flatten
      (updLane c.lane (fun l => { l with bulk := Memory.writeList l.bulk c.bulkOff bytes }) s,
        .reply { ok (le 2 out.length ++ le 2 next) with bulkOut := bytes.length })

/-- WIRED_L3_IF_SET (Table 8-14): one interface per VID. -/
def wiredL3IfSet : Handler where
  fields := [fAny 16 1, fMask 17 1 7, fRange 18 2 1 4094, fAny 20 6, fRange 26 2 576 9198]
  run c _ s :=
    if c.flag 17 1 0 ∧ s.next.wired.ifs.any (fun e => decide (e.1 ≠ c.u 16 1) && e.2.enable && decide (e.2.vid = c.u 18 2)) then
      (s, .reply (badArg 18))
    else
      let i : L3If := { enable := c.flag 17 1 0, v4 := c.flag 17 1 1, v6 := c.flag 17 1 2, vid := c.u 18 2, mac := macAt c 20, mtu := c.u 26 2 }
      (stageKept (fun k => { k with wired.ifs := Map.set k.wired.ifs (c.u 16 1) i }) s, .reply (ok))

/-- WIRED_NEXTHOP_SET (Table 8-14). -/
def wiredNexthopSet : Handler where
  fields := [fRange 16 2 0 1023, fRange 18 1 0 4, fMask 19 1 1, fAny 20 2, fAny 22 1, fZero 23 1, fAny 24 6]
  run c _ s :=
    let k := c.u 18 1
    if k ≤ 2 ∧ !destOk k (c.u 20 2) then (s, .reply (badArg 20))
    else
      let n : NextHop := { kind := k, valid := c.flag 19 1 0, dest := c.u 20 2, ifc := c.u 22 1, mac := macAt c 24 }
      (stageKept (fun k => { k with wired.nexthops := Map.set k.wired.nexthops (c.u 16 2) n }) s, .reply (ok))

/-- WIRED_PREFIX_SET (R391). -/
def wiredPrefixSet : Handler where
  fields := [fMask 16 1 3, fAny 17 1, fRange 18 1 0 2, fZero 19 1, fRange 20 2 0 1023, fZero 22 2, fAny 24 16]
  run c _ s :=
    let v6 := c.flag 16 1 1
    let w := if v6 then 128 else 32
    let len := c.u 17 1
    let a := if v6 then leNat (c.bytesAt 24 16).reverse else leNat (c.bytesAt 24 4).reverse
    if len > w then (s, .reply (badArg 17))
    else if a % 2 ^ (w - len) ≠ 0 ∨ (!v6 ∧ c.u 28 12 ≠ 0) then (s, .reply (badArg 24))
    else
      let rest := s.next.wired.prefixes.filter (fun p => ¬ (p.v6 = v6 ∧ p.len = len ∧ p.addr = a))
      if c.flag 16 1 0 then
        if rest.length ≥ 2048 then (s, .reply { status := stNoResource })
        else
          let ps := rest ++ [{ v6 := v6, len := len, addr := a, action := c.u 18 1, nh := c.u 20 2 }]
          (stageKept (fun k => { k with wired.prefixes := ps }) s, .reply (ok (le 2 ps.length ++ [0, 0])))
      else (stageKept (fun k => { k with wired.prefixes := rest }) s, .reply (ok (le 2 rest.length ++ [0, 0])))

/-- WIRED_FLOW_SET (R394, Table 8-15): in force at once; flows are not Kept. -/
def wiredFlowSet : Handler where
  fields := [fMask 16 1 7, fAny 17 1, fRange 18 2 1 4094, fAny 20 2, fAny 22 2, fAny 24 16, fAny 40 16, fRange 56 2 0 1023, fAny 58 2,
    fRange 60 1 0 7, fZero 61 3]
  run c _ s :=
    let v6 := c.flag 16 1 1
    let addr (o : Nat) : Nat := if v6 then leNat (c.bytesAt o 16).reverse else leNat (c.bytesAt o 4).reverse
    if !v6 ∧ c.u 28 12 ≠ 0 then (s, .reply (badArg 24))
    else if !v6 ∧ c.u 44 12 ≠ 0 then (s, .reply (badArg 40))
    else if c.u 58 2 > 1023 ∧ c.u 58 2 ≠ 0xFFFF then (s, .reply (badArg 58))
    else
      let f : Flow := { v6 := v6, proto := c.u 17 1, vid := c.u 18 2, sport := portAt c 20, dport := portAt c 22, src := addr 24, dst := addr 40,
                        nh := c.u 56 2, policer := c.u 58 2, classOvr := c.flag 16 1 2, cls := c.u 60 1 }
      let b := 4 * flowBucket f
      let same (e : Nat × Flow) : Bool := decide (e.2.v6 = f.v6) && decide (e.2.proto = f.proto) && decide (e.2.vid = f.vid) &&
        decide (e.2.sport = f.sport) && decide (e.2.dport = f.dport) && decide (e.2.src = f.src) && decide (e.2.dst = f.dst)
      match s.wired.flows.find? same with
      | some (i, _) =>
        ({ s with wired.flows := if c.flag 16 1 0 then Map.set s.wired.flows i f else Map.erase s.wired.flows i },
          .reply (ok (le 2 i ++ [0, 0])))
      | none =>
        if !c.flag 16 1 0 then (s, .reply (ok (le 2 b ++ [0, 0])))
        else match [b, b + 1, b + 2, b + 3].find? (fun i => !Map.has s.wired.flows i) with
          | some i => ({ s with wired.flows := Map.set s.wired.flows i f }, .reply (ok (le 2 i ++ [0, 0])))
          | none => ({ s with wired.flowFullStk := true }, .reply { status := stNoResource })

/-- WIRED_CLASS_MAP (R383). -/
def wiredClassMap : Handler where
  fields := [fRange 16 1 0 27, fMask 17 1 3, fZero 18 2, fAny 20 8, fAny 28 64]
  run c _ s :=
    let i := c.u 16 1
    let pcp := (List.range 8).map (fun k => c.u (20 + k) 1)
    let dscp := (List.range 64).map (fun k => c.u (28 + k) 1)
    match (List.range 72).find? (fun k => (if k < 8 then c.flag 17 1 0 else c.flag 17 1 1) ∧ c.u (20 + k) 1 > 7) with
    | some k => (s, .reply (badArg (if k < 8 then 20 else 28)))
    | none =>
      let put (k : Kept) : Kept :=
        { k with wired.pcpMaps := if c.flag 17 1 0 then Map.set k.wired.pcpMaps i pcp else k.wired.pcpMaps,
                 wired.dscpMaps := if c.flag 17 1 1 then Map.set k.wired.dscpMaps i dscp else k.wired.dscpMaps }
      (stageKept put s, .reply (ok))

/-! ### Meanings -/

/-- L2_AGE_SWEEP. -/
def execL2AgeSweep (s : State) : Out := act l2AgeSweep s
/-- FLOW_AGE_SWEEP. -/
def execFlowAgeSweep (s : State) : Out := act flowAgeSweep s
/-- WIRED_SWITCH_CONFIG. -/
def execWiredSwitchConfig (c : Cmd) (s : State) : Out := act (submit 0x0404 wiredSwitchConfig c) s
/-- WIRED_VLAN_SET. -/
def execWiredVlanSet (c : Cmd) (s : State) : Out := act (submit 0x0405 wiredVlanSet c) s
/-- WIRED_GROUP_SET. -/
def execWiredGroupSet (c : Cmd) (s : State) : Out := act (submit 0x0406 wiredGroupSet c) s
/-- WIRED_L2_SET. -/
def execWiredL2Set (c : Cmd) (s : State) : Out := act (submit 0x0407 wiredL2Set c) s
/-- WIRED_L2_READ. -/
def execWiredL2Read (c : Cmd) (s : State) : Out := act (submit 0x0408 wiredL2Read c) s
/-- WIRED_L3_IF_SET. -/
def execWiredL3IfSet (c : Cmd) (s : State) : Out := act (submit 0x0409 wiredL3IfSet c) s
/-- WIRED_NEXTHOP_SET. -/
def execWiredNexthopSet (c : Cmd) (s : State) : Out := act (submit 0x040A wiredNexthopSet c) s
/-- WIRED_PREFIX_SET. -/
def execWiredPrefixSet (c : Cmd) (s : State) : Out := act (submit 0x040B wiredPrefixSet c) s
/-- WIRED_FLOW_SET. -/
def execWiredFlowSet (c : Cmd) (s : State) : Out := act (submit 0x040C wiredFlowSet c) s
/-- WIRED_CLASS_MAP. -/
def execWiredClassMap (c : Cmd) (s : State) : Out := act (submit 0x040D wiredClassMap c) s

end Sys2Proof.Machine
end

