-- ==== Sys2Proof/Machine/Timebase.lean ====
section
/-! DEFINITION. The timebase (chapter 1): servo, rebase, transmit timestamp queues, PPS, time registers and commands.
Trigger channels stand in Trigger.lean; what a beat boundary does is gathered in Beat.lean. -/

namespace Sys2Proof.Machine

/-! ### Counters of Table 1-24, by response offset -/

abbrev cServoMeas : Nat := 24
abbrev cStepSeen : Nat := 28
abbrev cHoldover : Nat := 32
abbrev cRebase : Nat := 36
abbrev cPlanMiss : Nat := 40
abbrev cSafePlan : Nat := 44
abbrev cTrigFire : Nat := 48
abbrev cTrigLate : Nat := 52
abbrev cPpsMiss : Nat := 56
abbrev cOffsetStale : Nat := 60

/-- A timebase counter incremented. -/
def timeCount (k : Nat) (s : State) : State := { s with time.counts := tally s.time.counts k }

/-- A one-shot trigger whose instant passed in Dormant is abandoned with cause LATE, and its instant counts as missed (R83, Table 1-24). -/
def missedTrigger (ch : Nat) (s : State) : State :=
  let t := s.trig ch
  if t.armed ∧ !t.held ∧ t.period = 0 ∧ t.nextNs ≤ s.ns then timeCount cTrigLate (abandonTrig ch 2 s) else s

/-! ### Servo -/

/-- SERVO_STATE's code (Table 1-5). -/
def ServoState.code : ServoState → Nat
  | .freeRun => 0 | .acquiring => 1 | .locked => 2 | .holdover => 3

/-- A suspended rendezvous resumes when the servo is LOCKED again, synchronised, so that G is GUARD_MIN (R176). -/
def rdvRestored (s : State) (r : RdvRun) : RdvRun :=
  if r.suspended then { r with suspended := false, syncAt := s.time.mono, syncDorm := s.power.dormantNs } else r

/-- A change of servo state raises TB_SERVO_STATE (R40) and restarts the count of R47. The time not LOCKED (R175) runs from the loss of LOCKED, or
from the entry to the Doze in which it is lost. -/
def setServo (n : ServoState) (s : State) : State :=
  if s.time.servo = n then s
  else raise 0 0x0201 (le 1 n.code ++ le 1 s.time.servo.code)
    { s with time.servo := n, time.srcBeats := 0,
             time.unlockedAt := if s.time.servo = .locked ∧ !s.time.dozed then s.time.mono else s.time.unlockedAt,
             time.dozed := false,
             field.rdv := if n = .locked then Map.mapVals s.field.rdv (fun _ r => rdvRestored s r) else s.field.rdv }

/-- FADJ of a frequency y, given in units of 10^-3 · 2^-32 ppb: y · 8.589934592 rounded to the nearest integer, halves away
from zero, clamped to ±4,294,967 (R42). -/
def fadjOf (y : Int) : Int := clampInt (-fadjMax) fadjMax (roundAway (2 * y) (10 ^ 12))

/-- FADJ in HOLDOVER and in FREE_RUN: the integral term alone (Table 1-8). -/
def holdFadj (s : State) : Int := fadjOf (-s.kept.time.integral)

/-- Entry into HOLDOVER with a cause (R46, R47): flag, counter and event; a change of cause is an entry too. The run of eight steps starts afresh
at it, one that a source timeout interrupts included, and so does the run of eight measurements within the threshold by which HOLDOVER is left
(R48), where the cause changes inside HOLDOVER (DESIGN CHOICE, log entry 69). -/
def enterHoldover (c : HoldCause) (s : State) : State :=
  let s1 := setServo .holdover s
  let s2 := { s1 with time.cause := c, time.srcBeats := 0, time.goodRun := 0, time.stepRun := 0,
                      time.stepFirst := (match c with | .step => some s.time.lastTheta | .sourceLost => none),
                      time.stepSteady := true,
                      time.holdoverStk := true,
                      time.fadjNext := some (holdFadj s, s.beat + 1) }
  raise 0 0x0202 (le 1 (match c with | .step => 0 | .sourceLost => 1)) (timeCount cHoldover s2)

/-- R41: the control law on an accepted θ (units of 2^-16 ns), gains in 10^-3 ppb/ns: the new integral term and y, both in
units of 10^-3 · 2^-32 ppb. Every product is exact in these units (R44). -/
def controlLaw (g : ServoConfig) (i theta : Int) : Int × Int :=
  let p := (g.kp : Int) * theta * 2 ^ 16
  let k := (g.ki : Int) * theta * 2 ^ 16
  let u := p + i + k
  let bound : Int := (g.slewPpm : Int) * 1000 * 1000 * 2 ^ 32
  if (u.natAbs : Int) ≤ bound then (i + k, -u) else (i, if u > 0 then -bound else bound)

/-- An accepted measurement in FREE_RUN, ACQUIRING or LOCKED (R40 to R42): FADJ of the next beat, and the state. -/
def applyMeasurement (theta : Int) (s : State) : State :=
  let g := s.kept.time.servo
  let r := controlLaw g s.kept.time.integral theta
  let s1 := setKept (fun k => { k with time.integral := r.1 })
    { s with time.lastMeas := s.time.mono, time.lastMeasDorm := s.power.dormantNs }
  let s2 := { s1 with time.fadjNext := some (fadjOf r.2, s.beat + 1) }
  let s3 := if s2.time.servo = .freeRun then setServo .acquiring s2 else s2
  if theta.natAbs < g.lockNs * 2 ^ 16 then
    let s4 := { s3 with time.lockRun := s3.time.lockRun + 1 }
    if s4.time.servo = .acquiring ∧ s4.time.lockRun ≥ 8 then setServo .locked { s4 with time.afterDormant := false } else s4
  else
    let s4 := { s3 with time.lockRun := 0 }
    if s4.time.servo = .locked then setServo .acquiring s4 else s4

/-- Is the measured step still within STEP_NS of its first value, with `theta` measured now (R54)? Every measurement of a HOLDOVER with cause STEP
is judged, within the step threshold or beyond it. -/
def steadyAfter (theta : Int) (s : State) : Bool :=
  s.time.stepSteady && (match s.time.servo, s.time.cause, s.time.stepFirst with
    | .holdover, .step, some f => decide ((theta - f).natAbs ≤ s.kept.time.servo.stepNs * 2 ^ 16)
    | _, _, _ => true)

/-- A measurement beyond the step threshold (R45, R46, R54). It is not applied, and the run of accepted ones toward LOCKED stays as it is
(DESIGN CHOICE, log entry 69). -/
def stepMeasurement (theta : Int) (s : State) : State :=
  let s1 := timeCount cStepSeen { s with time.goodRun := 0 }
  match s1.time.servo, s1.time.cause with
  | .freeRun, _ => s1
  | .holdover, .step =>
    { s1 with time.stepFirst := some (s1.time.stepFirst.getD theta) }
  | _, _ =>
    let s2 := { s1 with time.stepRun := s1.time.stepRun + 1 }
    if s2.time.stepRun ≥ 8 then enterHoldover .step s2 else s2

/-- A measurement from the selected source is judged (R41, R45 to R49, R80). -/
def measure (theta : Int) (epoch : Nat) (s : State) : State :=
  let s1 := timeCount cServoMeas { s with time.srcBeats := 0 }
  if s1.power.mode = .doze ∨ s1.power.mode = .dormant then s1
  else if laterEpoch s1.kept.time.epoch epoch ∨ s1.time.loadTick = some s1.time.acc then timeCount cOffsetStale s1
  else
    let s2 := { s1 with time.lastTheta := theta, time.stepSteady := steadyAfter theta s1 }
    if theta.natAbs > s2.kept.time.servo.stepNs * 2 ^ 16 then stepMeasurement theta s2
    else
      let s3 := { s2 with time.stepRun := 0 }
      if s3.time.servo = .holdover then
        let s4 := { s3 with time.goodRun := s3.time.goodRun + 1 }
        if s4.time.goodRun ≥ 8 then setServo .acquiring { s4 with time.goodRun := 0, time.lockRun := 0 } else s4
      else applyMeasurement theta s3

/-- θ of a measurement (R39, Table 1-7): SRC 1 by its four terms, SRC 2 as computed. -/
def measuredTheta (m : Measurement) : Int :=
  if m.src = 1 then m.t2 - m.t1 - m.correction - m.meanPathDelay else m.theta

/-- SERVO_MEASUREMENT (R41): a measurement of a source that is not selected is none of the servo's. -/
def servoMeasured (m : Measurement) (s : State) : State :=
  let g := s.kept.time.servo
  if (m.src = 1 ∨ m.src = 2) ∧ g.src = m.src ∧ (m.src = 1 → g.port = m.port) then measure (measuredTheta m) m.epoch s else s

/-- The count of R47 runs: ACQUIRING, LOCKED and HOLDOVER with cause STEP, outside Doze; with SRC 0 the servo holds its
state (Table 1-7). -/
def srcCounting (s : State) : Bool :=
  decide (s.kept.time.servo.src ≠ 0) &&
  decide (s.power.mode ≠ .doze) && decide (s.power.mode ≠ .dormant) &&
  (match s.time.servo, s.time.cause with
   | .acquiring, _ => true
   | .locked, _ => true
   | .holdover, .step => true
   | _, _ => false)

/-- SOURCE_TIMEOUT (R47): the count has reached SRC_TIMEOUT. -/
def sourceTimedOut (s : State) : State :=
  if srcCounting s ∧ s.time.srcBeats ≥ s.kept.time.servo.srcTimeout then enterHoldover .sourceLost s else s

/-! ### TIME_REBASE -/

/-- Rebase beat B: the first beat whose plan commit falls at least 50 µs after the present instant (R51). -/
def rebaseBeat (s : State) : Nat :=
  if s.time.acc ≤ (s.beat * 1000000 + 850000) * 2 ^ 32 then s.beat else s.beat + 1

/-- The value the TBC takes at the load tick, in 2^-16 ns; the old value there is exactly (B + 1) · 10^6 ns (R87). -/
def rebaseResult (b : Nat) (relative : Bool) (v : Int) : Int :=
  if relative then ((b + 1) * 1000000 * 2 ^ 16 : Nat) + v else v

/-- Does a TBC value fit the 80 bits? -/
def fitsTbc (v : Int) : Bool := decide (0 ≤ v) && decide (v < 2 ^ 80)

/-- A TIME_REBASE accepted (R51): REBASE_PEND. -/
def startRebase (relative : Bool) (v : Int) (asker : Option Nat) (s : State) : State :=
  { s with time.rebase := some { beat := rebaseBeat s, relative := relative, value := v, asker := asker } }

/-- The plan commit of beat B (Table 1-9): the load is certain; triggers whose next instant then lies at or after the end of B are quiesced,
one-shots cancelled with cause REBASE and periodic ones held. A periodic trigger whose next instant at 900 µs still lies in B fires in B and
is neither held nor re-armed (DEDUCED from the table's words, log entry 70). -/
def rebaseCommit (s : State) : State :=
  match s.time.rebase with
  | none => s
  | some r =>
    if r.committed then s
    else
      let fin := (r.beat + 1) * 1000000
      let s1 := (List.range 16).foldl (fun s ch =>
        let t := s.trig ch
        if t.armed ∧ t.nextNs ≥ fin then
          if t.period = 0 then abandonTrig ch 1 s else updTrig ch (fun t => { t with held := true }) s
        else s) s
      let s2 := { s1 with time.rebase := some { r with committed := true } }
      match r.asker with
      | some id => commitJob id s2
      | none => s2

/-- AUTO_REBASE (R54, R55): HOLDOVER with cause STEP for the wait, the step steady, not forbidden. The load removes the
measured step: a relative TIME_REBASE of −θ (log entry 8). -/
def autoRebase (intervals : Nat) (s : State) : State :=
  let g := s.kept.time.servo
  let wait := if s.time.afterDormant then 2 else g.rebaseWait
  if serving s ∧ s.time.servo = .holdover ∧ s.time.cause = .step ∧ intervals ≥ wait ∧ s.time.stepSteady ∧ !g.noAutoRebase ∧
      s.time.rebase = none ∧ fitsTbc (rebaseResult (rebaseBeat s) true (-s.time.lastTheta)) then
    startRebase true (-s.time.lastTheta) none s
  else s

/-- INITIAL_REBASE (R55): in FREE_RUN, from the opening of the radios on (R516), one absolute TIME_REBASE. -/
def initialRebase (ns frac : Nat) (s : State) : State :=
  if serving s ∧ s.boot.stage = 8 ∧ s.time.servo = .freeRun ∧ s.time.rebase = none ∧ frac < 2 ^ 16 ∧ ns < 2 ^ 64 then
    startRebase false (ns * 2 ^ 16 + frac : Nat) none s
  else s

/-! ### Stamps and transmit timestamp queues -/

/-- A stamp of `epoch` from a TBC value in units of 2^-16 ns. -/
def stampOf (epoch : Nat) (v : Int) : Stamp :=
  { frac := v.toNat % 2 ^ 16, ns := v.toNat / 2 ^ 16 % 2 ^ 64, epoch := epoch }

/-- Stamp compensation in force for a port or radio (R58): ingress, egress. -/
def portComp (s : State) (src : Nat) : Int × Int := Map.getD s.kept.time.portComp src (0, 0)

/-- The key of a calibration result: calibration, target, sub-target, variant. -/
def calKey (id target sub variant : Nat) : Nat := ((id * 64 + target) * 256 + sub) * 64 + variant

/-- The CHAIN_DELAY results (calibration 0x08) among results in force. -/
def delayResults (l : List (Nat × CalResult)) : List (Nat × CalResult) := l.filter (fun e => decide (e.1 / (64 * 256 * 64) = 8))

/-- A change of what stamps go by is kept for as long as an instant before it may still be stamped: 2 ms are enough for every detection that R57
dates back. -/
def addPast (p : StampPast) (s : State) : List StampPast := p :: s.time.past.filter (fun x => decide (s.time.mono < x.till + 2000000))

/-- The internal delay of a port or radio chain: the CHAIN_DELAY result in force (R58). -/
def chainDelay (s : State) (src sub variant : Nat) : Int :=
  match Map.get? s.kept.front.results (calKey 8 src sub variant) with
  | some r => r.codes.headD 0
  | none => Config.chainDelay (calKey 8 src sub variant)

/-- CAL_STALE of a port or radio chain (R59). -/
def chainStale (s : State) (src sub variant : Nat) : Bool :=
  match Map.get? s.front.notes (calKey 8 src sub variant) with
  | some n => n.stale.isSome
  | none => false

/-- The part of the internal delay of a 25G BH port that its PCS lane position makes (Table 1-11). -/
def laneDelay (s : State) (src : Nat) : Int := (Map.getD s.wired.ports (src - 8) {}).lanePos

/-- The changes of what stamps go by that came after the local instant `t`, the oldest last. -/
def pastSince (s : State) (t : Nat) : List StampPast := s.time.past.filter (fun p => decide (t < p.till))

/-- The internal delay in force at the local instant `t` (R58): the Burnisher's result, and of a wired port the lane position. -/
def delayAt (s : State) (t src sub variant : Nat) : Int :=
  (match (pastSince s t).getLast? with
   | none => chainDelay s src sub variant
   | some p => (match Map.get? p.delays (calKey 8 src sub variant) with
     | some r => r.codes.headD 0
     | none => Config.chainDelay (calKey 8 src sub variant))) +
    (if 8 ≤ src ∧ src < 32 then laneDelay s src else 0)

/-- The compensations in force at the local instant `t`. -/
def compAt (s : State) (t src : Nat) : Int × Int :=
  match (pastSince s t).getLast? with
  | none => portComp s src
  | some p => Map.getD p.comp src (0, 0)

/-- The epoch of the local instant `t`. -/
def epochAt (s : State) (t : Nat) : Nat :=
  match (pastSince s t).getLast? with
  | none => s.kept.time.epoch
  | some p => p.epoch

/-- The TBC at the local instant `ago` ns before the present one, in units of 2^-16 ns: of the time line of that instant. -/
def tbcAgo (s : State) (ago : Nat) : Int :=
  ((s.time.acc : Int) - (ago / s.tickNs * s.inc : Nat) - (pastSince s (s.time.mono - ago)).foldl (fun a p => a + p.shift) 0) / 2 ^ 16

/-- The ingress stamp of an event detected `ago` ns before the present instant (R58): delay, compensation and epoch are those of that instant. -/
def ingressStamp (src sub variant ago : Nat) (s : State) : Stamp :=
  let t := s.time.mono - ago
  stampOf (epochAt s t) (tbcAgo s ago - delayAt s t src sub variant - (compAt s t src).1)

/-- The egress stamp of an event issued `ahead` ns after the present instant (R58). -/
def egressStamp (src sub variant ahead : Nat) (s : State) : Stamp :=
  stampOf s.kept.time.epoch (((s.time.acc + ahead / s.tickNs * s.inc : Nat) : Int) / 2 ^ 16 + delayAt s s.time.mono src sub variant + (portComp s src).2)

/-- The flags of a stamp made now on the chain of `src` (R59, Table 1-12): CAL_STALE, and the servo in HOLDOVER. -/
def stampFlags (src sub variant : Nat) (s : State) : Bool × Bool := (chainStale s src sub variant, decide (s.time.servo = .holdover))

/-- The queue of `src` on the present tick: what arrived on an earlier one is no longer fresh (R66). -/
def tsqNow (src : Nat) (s : State) : Tsq :=
  let q : Tsq := Map.getD s.time.tsq src {}
  if q.tick = some s.time.acc then q
  else { q with tick := some s.time.acc, fresh := 0, spilt := [], ovfBefore := q.ovf, dropBefore := q.dropCnt }

/-- A stamp reaches the transmit timestamp queue of `src` (R62 to R64): stored, or discarded where 16 entries wait. `flags`: CAL_STALE and
HOLDOVER as they stood at the stamp's instant. -/
def pushTsq (src : Nat) (stamp : Stamp) (flags : Bool × Bool) (oneStep : Bool) (tag : Nat) (s : State) : State :=
  let q := tsqNow src s
  let e : TsqEntry := { stamp := stamp, calStale := flags.1, oneStep := oneStep, holdover := flags.2, tag := tag % 65536, seq := q.seq }
  if q.entries.length < 16 then
    { s with time.tsq := Map.set s.time.tsq src { q with entries := q.entries ++ [e], seq := (q.seq + 1) % 65536, fresh := q.fresh + 1 } }
  else
    let s1 := { s with time.tsq := Map.set s.time.tsq src
                         { q with seq := (q.seq + 1) % 65536, ovf := true, dropCnt := satInc 32 q.dropCnt, spilt := q.spilt ++ [e] },
                       time.tsqOvfBefore := if s.time.tsqOvfTick = some s.time.acc then s.time.tsqOvfBefore else s.time.tsqOvfStk,
                       time.tsqOvfTick := some s.time.acc,
                       time.tsqOvfStk := true }
    if q.ovf then s1 else raise 0 0x0204 (le 1 src) s1

/-- The 16 bytes of a queue entry (Table 1-12). -/
def TsqEntry.bytes (e : TsqEntry) : List Byte :=
  le 2 e.stamp.frac ++ le 8 e.stamp.ns ++ le 1 e.stamp.epoch ++
    le 1 (fieldsWord [(0, bit e.calStale), (1, bit e.oneStep), (2, bit e.holdover)]) ++ le 2 e.tag ++ le 2 e.seq

/-- Frames on wired media whose end of SFD has not crossed yet are stamped by what is in force from now on (R58). -/
def restampTx (s : State) : State :=
  { s with wired.ports := Map.mapVals s.wired.ports (fun e p => match p.tx with
      | some t => if s.time.mono ≤ t.issue then
          { p with tx := some { t with stamp := egressStamp (8 + e) 0 0 (t.issue - s.time.mono) s, flags := stampFlags (8 + e) 0 0 s } } else p
      | none => p) }

/-- A commit window that changed what stamps go by: instants before it keep `old`, later ones take what is in force now (R58, R304). -/
def notePast (old : Kept) (s : State) : State :=
  if s.kept.time.portComp = old.time.portComp ∧ delayResults s.kept.front.results = delayResults old.front.results then s
  else restampTx { s with time.past := addPast { till := s.time.mono, comp := old.time.portComp, delays := delayResults old.front.results,
                                                 epoch := old.time.epoch } s }

/-! ### The load of a rebase -/

/-- A beat number moved by `d` beats. -/
def shiftBeat (d : Int) (b : Nat) : Nat := ((b : Int) + d).toNat

/-- A queued frame whose beats are moved. -/
def Queued.shift (d : Int) (f : Queued) : Queued := { f with enqBeat := shiftBeat d f.enqBeat, seen := f.seen.map (shiftBeat d) }

/-- A frame in field access whose beats are moved. -/
def FieldAccess.shift (d : Int) (a : FieldAccess) : FieldAccess := { a with queued := a.queued.map (·.shift d) }

/-- A duplicate entry whose beat is moved. -/
def DupEntry.shift (d : Int) (e : DupEntry) : DupEntry := { e with beat := shiftBeat d e.beat }

/-- An exchange whose frames' beats are moved. -/
def Exchange.shift (d : Int) (x : Exchange) : Exchange := { x with sent := x.sent.map (fun m => { m with item := m.item.shift d }) }

/-- A client whose beats are moved. -/
def Client.shift (d : Int) (c : Client) : Client :=
  { c with baRx := Map.mapVals c.baRx (fun _ a => { a with gap := a.gap.map (shiftBeat d) }) }

/-- A wide radio whose beats are moved: its frames, the ends of a channel move and of a stop, a test's last beat. -/
def Radio.shift (d : Int) (w : Radio) : Radio :=
  let go := shiftBeat d
  { w with exchange := w.exchange.map (·.shift d), waiting := w.waiting.map (·.shift d), radarStop := w.radarStop.map go,
           testEnd := if w.testEnd = 0 then 0 else go w.testEnd, groupRelease := Map.mapVals w.groupRelease (fun _ b => go b),
           move := w.move.map (fun m => { m with eff := m.eff.map go, cacEnd := m.cacEnd.map go, latest := m.latest.map go }) }

/-- A count of beats that is held as the beat at which it began or ends goes on across a load that moves the beat number by `d`: how long frames have
waited, how long a sender is remembered, when a mode change, a channel move or a reset is due (DESIGN CHOICE, log entry 104). -/
def shiftWaits (d : Int) (s : State) : State :=
  let go := shiftBeat d
  let ends (k : Kept) : Kept := { k with wide.barred := Map.mapVals k.wide.barred (fun _ b => go b) }
  { s with
    kept := ends s.kept, next := ends s.next,
    plan.queues := Map.mapVals s.plan.queues (fun _ p => { p with frames := p.frames.map (·.shift d), ulSeen := p.ulSeen.map go }),
    field.chains := s.field.chains.map (fun c => { c with access := c.access.map (·.shift d), parked := c.parked.map (·.shift d) }),
    field.run := Map.mapVals s.field.run (fun _ r => { r with dup := r.dup.shift d, replayBeat := r.replayBeat.map go, lastPoll := go r.lastPoll }),
    field.unknown := s.field.unknown.map (fun e => (e.1, e.2.shift d)),
    field.unknownReplay := s.field.unknownReplay.map (fun e => (e.1, go e.2)),
    wide.radios := s.wide.radios.map (·.shift d),
    wide.clients := Map.mapVals s.wide.clients (fun _ c => c.shift d),
    wide.links := Map.mapVals s.wide.links (fun _ l => { l with lastOk := go l.lastOk, air := l.air.map (fun e => (go e.1, e.2)), per := l.per.map (fun p => { p with beat := go p.beat }) }),
    wide.dels := s.wide.dels.map (fun x => { x with due := go x.due }),
    wide.relayMiss := Map.mapVals s.wide.relayMiss (fun _ b => go b),
    wide.micTold := Map.mapVals s.wide.micTold (fun _ b => go b),
    wide.metrics := Map.mapVals s.wide.metrics (fun _ l => l.map (fun x => { x with beat := go x.beat })),
    power.change := s.power.change.map (fun c => { c with eff := c.eff.map go }),
    power.waking := s.power.waking.map (fun w => { w with eff := w.eff.map go }),
    power.radiosFrom := if s.power.radiosFrom = 0 then 0 else go s.power.radiosFrom,
    power.holdUntil := if s.power.holdUntil = 0 then 0 else go s.power.holdUntil,
    stw.warmReq := s.stw.warmReq.map (fun w => { w with due := w.due.map go }),
    stw.restartReq := s.stw.restartReq.map (fun r => (r.1, go r.2)),
    stw.jobs := s.stw.jobs.map (fun j => { j with durableFrom := j.durableFrom.map go }),
    stw.lanes := s.stw.lanes.map (fun l => { l with writtenAt := Map.mapVals l.writtenAt (fun _ b => go b) }),
    assay.restarts := s.assay.restarts.map go, assay.vcoreOff := s.assay.vcoreOff.map go,
    mem.lowBeat := Map.mapVals s.mem.lowBeat (fun _ b => go b) }

/-- The load itself, at the end of beat B: the TBC takes the new value, in a new epoch, and the servo acquires anew (R51, Table 1-9). PPS_OUT's
channel is held for re-arming whatever its next instant was, since PPS_OUT is driven at the whole seconds of the new time (R78). -/
def loadRebase (r : Rebase) (s : State) : State :=
  let v := (rebaseResult r.beat r.relative r.value).toNat
  let s1 := setKept (fun k => { k with time.epoch := (k.time.epoch + 1) % 256 })
    { s with time.acc := accWrap (v * 2 ^ 16), time.rebase := none }
  let s2 := { s1 with time.loadTick := some s1.time.acc, time.loadBeat := r.beat, time.settling := true, time.settleNs := s.ns - 1,
                      time.past := addPast { till := s.time.mono, comp := s.kept.time.portComp, delays := delayResults s.kept.front.results,
                                             epoch := s.kept.time.epoch, shift := (s1.time.acc : Int) - s.time.acc } s1,
                      time.triggers := s1.time.triggers.map (fun t => if t.party = 45 ∧ t.target = 1 ∧ t.armed then { t with held := true } else t),
                      time.nextCommit := if s1.phase = 0 ∧ s1.frac = 0 then s1.beat else s1.beat + 1,
                      time.computeBeat := none, time.planCommitBeat := none, stw.batchBeat := s1.beat,
                      time.lockRun := 0, time.stepRun := 0, time.goodRun := 0, time.srcBeats := 0,
                      time.afterDormant := false, time.ppsIn.spanStart := (s1.ns : Int) - s.ns + s.time.ppsIn.spanStart,
                      time.fadjNext := (match s1.time.fadjNext with
                        | some (f, _) => some (f, 0)
                        | none => none) }
  let s3 := raise 0 0x0203 (le 8 r.beat ++ le 1 s2.kept.time.epoch) (timeCount cRebase s2)
  let s4 := shiftWaits ((s2.time.nextCommit : Int) - (r.beat + 1 : Nat)) (setServo .acquiring s3)
  completeAsker r.asker (ok (le 8 r.beat ++ le 8 s4.beat ++ le 1 s4.kept.time.epoch ++ [0, 0, 0])) (restampTx s4)

/-- REBASE_LOAD (R51, Table 1-9): the plan commit of beat B, where it has not been, then the end of B. While the TBC stands still (R81) the end
of B does not come. -/
def rebaseLoad (s : State) : State :=
  match s.time.rebase with
  | none => s
  | some r =>
    if clockRuns s then loadRebase r (advanceTo ((r.beat + 1) * 1000000) (rebaseCommit (advanceTo (r.beat * 1000000 + 900000) s))) else s

/-! ### PPS -/

/-- PPS_PRESENT (Table 1-5). -/
def ppsPresent (s : State) : Bool := decide (s.time.ppsIn.goodRun ≥ 2)

/-- PPS_IN_EDGE (R75): stamped on its active edge while PPS_IN is enabled. -/
def ppsEdge (falling : Bool) (s : State) : State :=
  let g := s.kept.time.pps
  if g.inEnable ∧ g.inFalling = falling then
    { s with time.ppsIn := { unlabelled := some s.stamp, spanStart := s.ns, missRun := 0,
                             goodRun := s.time.ppsIn.goodRun + 1 } }
  else s

/-- TOD_SENTENCE (R76, R77, R79): the sentence labels the preceding edge when it completes within 900 ms of it; with SRC 3 the
labelled edge is a measurement. An edge of an earlier epoch gives no θ; with SRC 3 it counts as a measurement received and discarded, in
SERVO_MEAS_CNT and OFFSET_STALE_CNT, "as under R49" (DEDUCED, log entry 91). -/
def todSentence (utc : Nat) (s : State) : State :=
  let g := s.kept.time.pps
  if !g.todEnable then s
  else match s.time.ppsIn.unlabelled with
    | none => s
    | some e =>
      let s1 := { s with time.ppsIn.unlabelled := none }
      if e.epoch ≠ s.kept.time.epoch then
        if s.kept.time.servo.src = 3 then timeCount cOffsetStale (timeCount cServoMeas s1) else s1
      else if s.ns - e.ns > 900000000 then s1
      else if s.kept.time.servo.src = 3 then
        let edge : Int := ((e.ns * 2 ^ 16 + e.frac : Nat) : Int) - g.inDelay
        let label : Int := ((utc : Int) + g.utcOffset) * (10 ^ 9 * 2 ^ 16)
        measure (edge - label) e.epoch s1
      else s1

/-- PPS_MISSED_SECOND (R77): a span of 1,000 beats, with 1 beat of tolerance, without an edge. No beat passes while the TBC stands still. -/
def ppsMissed (s : State) : State :=
  let p := s.time.ppsIn
  if s.kept.time.pps.inEnable ∧ clockRuns s then
    let s1 := advanceTo (p.spanStart + (p.missRun + 1) * 1000000000 + 1000000).toNat s
    let s2 := timeCount cPpsMiss { s1 with time.ppsIn := { p with missRun := p.missRun + 1, goodRun := 0 } }
    if p.missRun = 0 then raise 0 0x0209 (le 4 (((s2.ns : Int) - p.spanStart) / 1000000000).toNat) s2 else s2
  else s

/-! ### Time registers -/

/-- TB_NOW_LO_READ (R30): the set latched from one tick; the read returns NS_LO. -/
def tbNowLoRead (s : State) : State :=
  if windowUp s then
    emit (.regRead (s.ns % 2 ^ 32)) { s with time.latch := {
      nsLo := s.ns % 2 ^ 32, nsHi := s.ns / 2 ^ 32 % 2 ^ 32, frac := s.frac, epoch := s.kept.time.epoch,
      beat := s.beat % 2 ^ 32, phase := s.phase } }
  else s

/-- TB_STATUS (Table 1-5). -/
def tbStatus (s : State) : Nat :=
  fieldsWord [(0, s.time.servo.code), (2, bit s.time.holdoverStk), (3, bit s.time.tsqOvfStk), (4, bit s.time.safePlanStk),
    (5, bit (ppsPresent s)), (6, bit s.time.rebase.isSome), (8, s.kept.time.epoch)]

/-! ### Plans and overruns -/

/-- The bookkeeping of unit `src` changed. -/
def updUnit (src : Nat) (f : UnitPlan → UnitPlan) (s : State) : State :=
  { s with time.units := Map.modify s.time.units src {} f }

/-- A job of unit `src` overruns its deadline of beat `b` by `ovr` ns and ends at local instant `fin` (R34, R35); an end on the deadline's own tick
is no overrun (R37). The event carries `b`, and the test of two consecutive beats goes by it. -/
def overrunIn (b fin src ovr : Nat) (s : State) : State :=
  if ovr = 0 ∨ src > 47 then s
  else
    let u := s.unit src
    let again : Bool := decide (u.lastOverrun = b) && decide (b ≠ 0)
    let s1 := updUnit src (fun u => { u with overrunCnt := satInc 16 u.overrunCnt, lastOverrun := b + 1,
                                             toSafe := u.toSafe || again, busyUntil := max u.busyUntil fin }) s
    raise src 0x0205 (le 8 b ++ le 4 ovr) s1

/-- The beat of an overrun is that of the present instant, in a job whose deadline is the end of its beat the one after it (DESIGN CHOICE, log
entry 71). -/
def overrunUntil (fin src ovr : Nat) (s : State) : State := overrunIn s.beat fin src ovr s

/-- A job of unit `src` that began `dur` ns ago ends now (R33, R37): where the end of its beat lies further back than the present tick, it has
overrun by what has passed since. -/
def jobEnded (src dur : Nat) (s : State) : State :=
  if s.phase < dur ∧ s.tickNs ≤ s.phase then overrunUntil s.time.mono src s.phase s else s

/-- A job passes its deadline now and runs on for `ovr` ns (R33, R34). -/
def overrun (src ovr : Nat) (s : State) : State := overrunUntil (s.time.mono + ovr) src ovr s

/-- A plan of unit `src` for the next beat is complete. -/
def planCompleted (src : Nat) (s : State) : State := updUnit src (fun u => { u with complete := true }) s

/-- The plan commit has taken what was complete. -/
def clearComplete (s : State) : State := { s with time.units := Map.mapVals s.time.units (fun _ u => { u with complete := false }) }

/-- CLEAR_INTEGRAL takes effect: I is 0, and with it FADJ where I alone gives FADJ (Table 1-8). -/
def clearIntegral (s : State) : State :=
  let s1 := setKept (fun k => { k with time.integral := 0 }) { s with time.clearIntegral := false }
  if s1.time.servo = .freeRun ∨ s1.time.servo = .holdover then { s1 with time.fadj := 0, time.fadjNext := none } else s1

/-- What the timebase does at a commit window of beat `b`, `n` beats after the last (R32, R35, R42, R47, R85, R58). -/
def timeCommit (b n : Nat) (s : State) : State :=
  let s1 := match s.time.fadjNext with
    | some (f, at') => if at' ≤ b then { s with time.fadj := f, time.fadjNext := none } else s
    | none => s
  let s2 := if s1.time.clearIntegral then clearIntegral s1 else s1
  let s3 := { s2 with time.settling := false, time.srcBeats := if srcCounting s2 then s2.time.srcBeats + n else s2.time.srcBeats }
  s3.time.units.foldl (fun s e =>
    let u := s.unit e.1
    if u.toSafe ∧ u.safe ∧ !u.clearing then updUnit e.1 (fun u => { u with toSafe := false }) s
    else if u.toSafe then
      raise e.1 0x0206 (le 8 b) (timeCount cSafePlan
        { updUnit e.1 (fun u => { u with toSafe := false, safe := true, clearing := false }) s with time.safePlanStk := true })
    else if u.clearing then updUnit e.1 (fun u => { u with clearing := false, safe := false }) s
    else s) s3

/-- What new Kept settings do to the timebase when they come into force (R47: a change of SRC; R77: PPS_IN enabled). -/
def timeSettings (old : Kept) (s : State) : State :=
  let g := s.kept.time
  let s1 := if g.servo.src ≠ old.time.servo.src then { s with time.srcBeats := 0 } else s
  if g.pps.inEnable ≠ old.time.pps.inEnable then { s1 with time.ppsIn := { spanStart := (s.ns : Int) } } else s1

/-! ### Commands -/

/-- TIME_GET (R84, Table 1-16). -/
def timeGet : Handler := readHandler [] (fun _ s =>
  s.stamp.bytes ++ le 8 s.beat ++ le 1 s.time.servo.code ++ le 1 s.kept.time.servo.src ++ [0, 0] ++
    leInt 8 s.time.lastTheta ++ leInt 4 s.time.fadj ++ leInt 4 (roundAway s.kept.time.integral (2 ^ 32)))

/-- TIME_SERVO_CONFIG (R85, Table 1-17). -/
def timeServoConfig : Handler where
  fields := [fRange 16 1 0 3, fRange 17 1 0 23, fMask 18 2 3, fAny 20 2, fAny 22 2, fRange 24 2 1 500,
    fRange 26 2 1 65535, fRange 28 4 1000 100000000, fRange 32 2 10 65535, fRange 34 1 1 255, fZero 35 1]
  run c _ s :=
    if c.u 16 1 ≠ 1 ∧ c.u 17 1 ≠ 0 then (s, .reply (badArg 17))
    else
      let g : ServoConfig := {
        src := c.u 16 1, port := c.u 17 1, noAutoRebase := c.flag 18 2 0, kp := c.u 20 2,
        ki := c.u 22 2, slewPpm := c.u 24 2, lockNs := c.u 26 2, stepNs := c.u 28 4, srcTimeout := c.u 32 2,
        rebaseWait := c.u 34 1 }
      ({ stageKept (fun k => { k with time.servo := g }) s with
          time.clearIntegral := s.time.clearIntegral || c.flag 18 2 1 }, .reply (ok))

/-- TIME_OFFSET_FEED (R86, Table 1-18). A measurement answered STALE has been received from the selected source (R47, Table 1-24). -/
def timeOffsetFeed : Handler where
  fields := [fAny 16 8, fAny 24 2, fAny 26 8, fAny 34 1, fZero 35 1, fZero 36 4]
  run c _ s :=
    if s.kept.time.servo.src ≠ 2 then (s, .reply (denied))
    else if laterEpoch s.kept.time.epoch (c.u 34 1) ∨
        (c.u 34 1 = s.kept.time.epoch ∧ s.ns > c.u 26 8 + 2000 * 1000000) then
      (timeCount cOffsetStale (timeCount cServoMeas { s with time.srcBeats := 0 }), .reply { status := stStale })
    else (measure (c.i 16 8) (c.u 34 1) s, .reply (ok))

/-- TIME_REBASE (R51, R87, Table 1-19). -/
def timeRebase : Handler where
  fields := [fRange 16 1 0 1, fZero 17 3, fAny 20 2, fZero 22 2, fAny 24 8]
  run c id s :=
    let rel := c.u 16 1 = 1
    let v : Int := (if rel then c.i 24 8 else (c.u 24 8 : Int)) * 2 ^ 16 + (c.u 20 2 : Int)
    if s.time.rebase.isSome then (s, .reply { status := stBusy })
    else if s.kept.time.servo.src = 1 then (s, .reply (denied 45))
    else if !fitsTbc (rebaseResult (rebaseBeat s) rel v) then (s, .reply (badArg 24))
    else (startRebase rel v (some id) s, .wait false 0 0)

/-- TIME_PORT_COMP (R58, Table 1-20). -/
def timePortComp : Handler where
  fields := [fRange 16 1 8 35, fZero 17 3, fAny 20 4, fAny 24 4]
  run c _ s :=
    (stageKept (fun k => { k with time.portComp := Map.set k.time.portComp (c.u 16 1) (c.i 20 4, c.i 24 4) }) s, .reply (ok))

/-- TIME_PPS_CONFIG (R87, Table 1-23). Channel 15 belongs to another party while a lane holds it, or the metering service (R72). -/
def timePpsConfig : Handler where
  fields := [fMask 16 1 0xF, fRange 17 1 0 2, fZero 18 2, fAny 20 4, fRange 24 4 1000 900000000,
    fSigned 28 4 (-500000) 500000, fAny 32 4]
  run c _ s :=
    let t := s.trig 15
    if c.flag 16 1 2 ∧ t.armed ∧ (t.party ≠ 45 ∨ s.pole.trigCh = some 15) ∧ !s.next.time.pps.outEnable then (s, .reply (denied t.party))
    else
      let g : PpsConfig := {
        inEnable := c.flag 16 1 0, inFalling := c.flag 16 1 1, outEnable := c.flag 16 1 2,
        todEnable := c.flag 16 1 3, todBaud := c.u 17 1, inDelay := c.i 20 4, outWidth := c.u 24 4,
        outOffset := c.i 28 4, utcOffset := c.i 32 4 }
      (stageKept (fun k => { k with time.pps := g }) s, .reply (ok))

/-- TIME_COUNTERS (R88, Table 1-24). -/
def timeCounters : Handler where
  fields := [fRange 16 1 0 1, fMask 17 1 1, fZero 18 2]
  run c _ s :=
    let clear := c.flag 17 1 0
    if c.u 16 1 = 0 then
      (if clear then { s with time.counts := [] } else s,
        .reply (ok (le 8 0 ++ tallyBytes s.time.counts 24 10)))
    else
      (if clear then { s with time.units := Map.mapVals s.time.units (fun _ u => { u with overrunCnt := 0 }) } else s,
        .reply (ok (le 8 0 ++ ((List.range 48).map (fun k => le 2 (s.unit k).overrunCnt)).flatten)))

/-- TIME_SAFE_CLEAR (R35). -/
def timeSafeClear : Handler where
  fields := [fRange 16 1 0 47, fZero 17 3]
  run c _ s :=
    (if (s.unit (c.u 16 1)).safe then updUnit (c.u 16 1) (fun u => { u with clearing := true }) s else s, .reply (ok))

/-! ### Meanings -/

/-- SERVO_MEASUREMENT. -/
def execServoMeasurement (m : Measurement) (s : State) : Out := act (servoMeasured m) s
/-- SOURCE_TIMEOUT. -/
def execSourceTimeout (s : State) : Out := act sourceTimedOut s
/-- REBASE_LOAD. -/
def execRebaseLoad (s : State) : Out := act rebaseLoad s
/-- AUTO_REBASE. -/
def execAutoRebase (intervals : Nat) (s : State) : Out := act (autoRebase intervals) s
/-- INITIAL_REBASE. -/
def execInitialRebase (ns frac : Nat) (s : State) : Out := act (initialRebase ns frac) s
/-- PPS_IN_EDGE. -/
def execPpsInEdge (falling : Bool) (s : State) : Out := act (ppsEdge falling) s
/-- TOD_SENTENCE. -/
def execTodSentence (utc : Nat) (s : State) : Out := act (todSentence utc) s
/-- PPS_MISSED_SECOND. -/
def execPpsMissedSecond (s : State) : Out := act ppsMissed s
/-- TB_NOW_LO_READ. -/
def execTbNowLoRead (s : State) : Out := act tbNowLoRead s
/-- TIME_GET. -/
def execTimeGet (c : Cmd) (s : State) : Out := act (submit 0x0201 timeGet c) s
/-- TIME_SERVO_CONFIG. -/
def execTimeServoConfig (c : Cmd) (s : State) : Out := act (submit 0x0202 timeServoConfig c) s
/-- TIME_OFFSET_FEED. -/
def execTimeOffsetFeed (c : Cmd) (s : State) : Out := act (submit 0x0203 timeOffsetFeed c) s
/-- TIME_REBASE. -/
def execTimeRebase (c : Cmd) (s : State) : Out := act (submit 0x0204 timeRebase c) s
/-- TIME_PORT_COMP. -/
def execTimePortComp (c : Cmd) (s : State) : Out := act (submit 0x0205 timePortComp c) s
/-- TIME_PPS_CONFIG. -/
def execTimePpsConfig (c : Cmd) (s : State) : Out := act (submit 0x0209 timePpsConfig c) s
/-- TIME_COUNTERS. -/
def execTimeCounters (c : Cmd) (s : State) : Out := act (submit 0x020A timeCounters c) s
/-- TIME_SAFE_CLEAR. -/
def execTimeSafeClear (c : Cmd) (s : State) : Out := act (submit 0x020B timeSafeClear c) s

end Sys2Proof.Machine
end

