-- ==== Sys2Proof/Machine/Wired.lean ====
section
/-! DEFINITION. The wired ports: links, receiving, transmitting, PAUSE, EEE, 10BASE-T1S segments, the host rings' paths, and the
commands of the ports (chapters 8 and 9). -/

namespace Sys2Proof.Machine

/-! ### Ports -/

/-- Is the port a TS port? -/
def tsPort (e : Nat) : Bool := decide (16 ≤ e) && decide (e < 24)

/-- The wired ports are enabled: from the restore on (Table 12-3), in Full, Lean and Watch (R439). -/
def wiredOn (s : State) : Bool := decide (7 ≤ s.boot.stage) && decide (s.boot.stage ≤ 8) && s.power.mode.serves

/-- WIRED_T1S_SET of a port in force. -/
def t1sCfg (s : State) (e : Nat) : T1sCfg := Map.getD s.kept.wired.t1s e {}

/-- SPEED of a mode (Table 8-12); SGMII follows the PHY's in-band word. -/
def modeSpeed (mode word : Nat) : Nat :=
  if mode = 1 then 2 else if mode = 2 then 4 else if mode = 3 then 5 else if mode = 4 then min word 2 else if mode = 5 then 3 else 0

/-- The bit time of a SPEED in units of 10 ps. -/
def bitUnits (speed : Nat) : Nat :=
  if speed = 0 then 10000 else if speed = 1 then 1000 else if speed = 2 then 100 else if speed = 3 then 40 else if speed = 4 then 10 else 4

/-- `n` bit times of port `e` in ns, rounded up. -/
def bitsNs (s : State) (e n : Nat) : Nat := (n * bitUnits (s.wport e).speed + 99) / 100

/-- The duration of a frame of `len` bytes with its preamble (R332). -/
def frameNs (s : State) (e len : Nat) : Nat := bitsNs s e ((8 + len) * 8)

/-- PLCA_STATE of a port as its settings give it: 0 off, 1 coordinator, 2 follower (R367). -/
def plcaOf (s : State) (e : Nat) : Nat :=
  let t := t1sCfg s e
  if (portCfg s e).mode ≠ 6 ∨ !t.plca then 0 else if t.nodeId = 0 then 1 else 2

/-- EEE exists for a mode and speed (R378). -/
def eeeMode (e mode speed : Nat) : Bool :=
  (decide (e < 4) && decide (mode = 2)) || (decide (4 ≤ e) && decide (e < 16) &&
    ((decide (mode = 4) && (decide (speed = 1) || decide (speed = 2))) || decide (mode = 5)))

/-- The default wake time in µs (Table 8-6). -/
def defaultTw (mode speed : Nat) : Nat :=
  if mode = 2 then 5 else if mode = 4 ∧ speed = 2 then 17 else if mode = 4 ∧ speed = 1 then 30 else if mode = 5 then 15 else 0

/-- Tw_tx in µs (R379). -/
def twTx (s : State) (e : Nat) : Nat :=
  let p := s.wport e
  let g := portCfg s e
  max (max (defaultTw g.mode p.speed) g.twMin) p.partnerTw

/-! ### PAUSE sending (R377) -/

/-- A waiting PAUSE goes out between frames, ahead of every queued frame. -/
def sendPause (e : Nat) (s : State) : State :=
  let p := s.wport e
  match p.pauseDue with
  | none => s
  | some q =>
    if p.tx.isSome ∨ p.link ≠ 1 then s
    else
      emit (.frame (portSource e) 1 [q])
        (portCount e cTxPause (updPort e (fun p => { p with
          pauseDue := none, lpiTx := false, xoffAt := s.time.mono, gapEnd := s.time.mono + bitsNs s e (84 * 8), idleFrom := s.time.mono }) s))

/-- PAUSE_SEND: the bytes that a port holds have crossed XOFF_KB or XON_KB. -/
def pauseCheck (e : Nat) (s : State) : State :=
  let p := s.wport e
  let g := portCfg s e
  if !g.pauseTx ∨ tsPort e ∨ p.link ≠ 1 then s
  else
    let held := portBytes s e
    let s1 := if !p.xoff ∧ held > g.xoffKb * 1024 then updPort e (fun p => { p with xoff := true, pauseDue := some g.quanta }) s
      else if p.xoff ∧ held < g.xonKb * 1024 then updPort e (fun p => { p with xoff := false, pauseDue := some 0 }) s
      else s
    sendPause e s1

/-- PAUSE_SEND on every port that has a setting. -/
def pauseAll (s : State) : State := s.kept.wired.ports.foldl (fun s x => if x.1 < 24 then pauseCheck x.1 s else s) s

/-- PAUSE_REPEAT (R377): half of the pause time sent has passed, and the bytes held stay above XON_KB. -/
def pauseRepeat (e : Nat) (s : State) : State :=
  let p := s.wport e
  let g := portCfg s e
  if !p.xoff ∨ !g.pauseTx ∨ p.link ≠ 1 ∨ portBytes s e ≤ g.xonKb * 1024 then s
  else
    let s1 := advanceMono (p.xoffAt + bitsNs s e (g.quanta * 512) / 2) s
    sendPause e (updPort e (fun p => { p with pauseDue := some g.quanta }) s1)

/-! ### Transmitting -/

/-- The bytes of a queued frame as a wired port sends it, from destination address to FCS. -/
def sentBytes (q : Queued) : Nat := q.charge - 20

/-- PLAN_NEVER_FITS, at most once per egress and class in 1,000 beats (R333). -/
def neverFitEvent (e c len : Nat) (s : State) : State :=
  let s1 := { s with plan.neverFitStk := true }
  let recent := match Map.get? s.plan.lastEvent (16 * e + c) with
    | some b => decide (s.beat < b + 1000)
    | none => false
  if recent then s1
  else raise 4 0x0701 (le 1 e ++ le 1 c ++ le 2 len) { s1 with plan.lastEvent := Map.set s1.plan.lastEvent (16 * e + c) s1.beat }

/-- NEVER_FITS (R333): heads that no window of their class can hold are discarded. `n` bounds the number of frames. -/
def purgeQueue (e c q : Nat) : Nat → State → State
  | 0, s => s
  | n + 1, s =>
    match (s.queue q).frames with
    | f :: _ =>
      if neverFits s e c (frameNs s e (sentBytes f)) then
        let s1 := planCount e cNeverFit (leave e f (popHead q s))
        purgeQueue e c q n (neverFitEvent e c (sentBytes f) s1)
      else s
    | [] => s

/-- The never-fits rule over every queue of egress `e` that has a gate list. -/
def purgeEgress (e : Nat) (s : State) : State :=
  if (gateList s e).isNone then s
  else s.plan.queues.foldl (fun s x =>
    if queueRange x.1 = 0 ∧ x.1 / 8 = e then purgeQueue e (queueClass s x.1) x.1 x.2.frames.length s else s) s

/-- The never-fits rule over every egress with a gate list. -/
def purgeGated (s : State) : State := s.kept.plan.gates.foldl (fun s x => purgeEgress x.1 s) s

/-- May the head `f` of queue `q` start on wired egress `e`, `wait` ns from now (R332)? -/
def gateFits (s : State) (e wait q : Nat) (f : Queued) : Bool :=
  match gateOpenFor s e (queueClass s q) wait with
  | none => true
  | some open' => decide (0 < open') && decide (frameNs s e (sentBytes f) ≤ open')

/-- GATE_WAIT_CNT: heads that were judged and do not fit are counted once a wait (R332). `c` is the class selected, 8 for management,
none where nothing was. -/
def countWaits (e wait : Nat) (c : Option Nat) (s : State) : State :=
  if (gateList s e).isNone then s
  else s.plan.queues.foldl (fun s x =>
    if queueRange x.1 = 0 ∧ x.1 / 8 = e ∧ (match c with | some c => decide (c ≤ queueClass s x.1) | none => true) = true then
      match (s.queue x.1).frames with
      | f :: r =>
        if !f.held ∧ !f.waited ∧ !gateFits s e wait x.1 f then
          planCount e cGateWait (updQueue x.1 (fun p => { p with frames := { f with waited := true } :: r }) s)
        else s
      | [] => s
    else s) s

/-- A PTP message that the timestamp unit of an egress recognises as it leaves, tagged or not (R60): behind at most two VLAN tags. -/
def ptpSeen (tagged : Bool) (f : Frame) : Bool :=
  f.ptp.isSome && (decide (f.etherType = 0x88F7) || udpTo f [319]) && decide (bit tagged + f.inner ≤ 2)

/-- A Sync of the Steward's PTP service that it marked one-step, as the egress recognises it. -/
def oneStepSync (q : Queued) (f : Frame) : Bool :=
  (match f.ptp with | some m => m.oneStepSync | none => false) && decide (q.ingress = 28) && ptpSeen q.tagged f

/-- The tag under which the egress stamp of a frame is queued (R56, Table 1-12): that of the transmit descriptor, or the sequenceId of an event
message that the PTP service marked. None: no stamp is asked for. -/
def stampTag (q : Queued) (f : Frame) : Option Nat :=
  match f.stamp, f.ptp with
  | some n, _ => some n
  | none, some m => if m.marked && m.event && decide (q.ingress = 28) && ptpSeen q.tagged f then some m.sequenceId else none
  | none, none => none

/-- What makes a change of a PTP message checksum-neutral (R60): 0 nothing (no UDP), 1 the UDP checksum is cleared (IPv4), 2 the 2-byte trailer is
updated (IPv6). -/
def ptpNeutral (f : Frame) : Nat := if f.etherType = 0x88F7 then 0 else if f.ip.any (·.v6) then 2 else 1

/-- The residence time, egress less ingress stamp, as correctionField's signed 64-bit number (R61). Stamps of different epochs are never subtracted
(R53): across a load nothing is added (DEDUCED, log entry 75). -/
def residence (ingress egress : Stamp) : Option Nat :=
  if ingress.epoch ≠ egress.epoch then none
  else some ((((egress.ns * 2 ^ 16 + egress.frac : Nat) : Int) - ((ingress.ns * 2 ^ 16 + ingress.frac : Nat) : Int)) % 2 ^ 64).toNat

/-- A frame's fields on the medium (R373, R384, R395): its name, destination, source, VID where tagged (0xFFFF: untagged), PCP, DEI, length. A tag
whose PCP no rule gives carries a free one. -/
def wireFields (q : Queued) (f : Frame) (s : State) : State × List Nat :=
  let (pcp, s1) := match q.pcp with
    | some p => (p, s)
    | none => if q.tagged then (match draw s with | (n, t) => (n % 8, t)) else (0, s)
  (s1, [f.id, f.da, f.sa, if q.tagged then q.vid else 0xFFFF, pcp, bit q.dei, sentBytes q])

/-- What the egress unit writes into a PTP message on the fly, with what keeps its checksum right (ONE_STEP_SYNC, R60; residence time, R61). -/
def ptpFields (e : Nat) (q : Queued) (f : Frame) (stamp : Stamp) (s : State) : List Nat :=
  if oneStepSync q f then [1, stamp.ns / 10 ^ 9, stamp.ns % 10 ^ 9, stamp.frac, ptpNeutral f]
  else if f.ptp.any (·.event) ∧ ptpSeen q.tagged f ∧ (s.wport q.ingress).transparent = some e then
    (match residence q.rxStamp stamp with | some d => [2, d, ptpNeutral f] | none => [])
  else []

/-- A frame starts on its medium. -/
def startTx (e : Nat) (q : Queued) (s : State) : State :=
  match q.payload with
  | .field _ => s
  | .eth f =>
    let t : WiredTx := { item := q, startNs := s.time.mono, endNs := s.time.mono + frameNs s e (sentBytes q),
                         stamp := egressStamp (portSource e) 0 0 (bitsNs s e 64) s, flags := stampFlags (portSource e) 0 0 s,
                         issue := s.time.mono + bitsNs s e 64 }
    match wireFields q f s with
    | (s1, fields) => emit (.frame (portSource e) 0 fields) (updPort e (fun p => { p with tx := some t, wakeEnd := none, lpiTx := false }) s1)

/-- Selection on a wired port that is free to start a frame now (R316, R332, R336). `wait` is the wake time of a port in LPI: then the
port only signals wake, and the frame starts when it ends (R379). -/
def pickFrame (e : Nat) (s : State) : State :=
  let s0 := purgeEgress e s
  let wait := if (s0.wport e).lpiTx then twTx s0 e * 1000 else 0
  match judge e (gateFits s0 e wait) s0 with
  | (s1, none) => countWaits e wait none s1
  | (s1, some (c, q, f)) =>
    let s2 := countWaits e wait (some c) s1
    if wait ≠ 0 then updPort e (fun p => { p with lpiTx := false, wakeEnd := some (s2.time.mono + wait) }) s2
    else startTx e { f with waited := false } (selectFrom e c q f s2)

/-- Is wired port `e` free to start a frame: up, nothing in progress, not paused, not waking? -/
def portFree (s : State) (e : Nat) : Bool :=
  let p := s.wport e
  wiredOn s && decide (p.link = 1) && p.tx.isNone && p.pauseEnd.isNone && p.wakeEnd.isNone

/-- A wired port selects its next frame, after the gap behind the last one. A TS port in PLCA starts frames in its opportunities, and
within a burst (Table 8-2); a frame that waits for its back-off goes first. -/
def wiredSelect (e : Nat) (s : State) : State :=
  let p := s.wport e
  if !portFree s e then s
  else if tsPort e ∧ (p.plca = 1 ∨ p.plca = 2) then
    match p.burstUntil with
    | some t =>
      if s.time.mono ≤ t ∧ p.extraSent < (t1sCfg s e).maxBurst ∧ p.retry.isNone then
        pickFrame e (updPort e (fun p => { p with extraSent := p.extraSent + 1, burstUntil := none }) (advanceMono p.gapEnd s))
      else s
    | none => s
  else if p.retry.isSome then s
  else pickFrame e (advanceMono p.gapEnd s)

/-! ### The host receive rings (R427 to R432) -/

/-- The written-back receive descriptor (Table 9-7). -/
def rxWriteBack (s : State) (q : Queued) (kind bufLen : Nat) (first last : Bool) (frameLen : Nat) (tagged : Bool) (info : List Byte) : List Byte :=
  q.rxStamp.bytes ++ le 2 bufLen ++
    le 1 (fieldsWord [(1, bit first), (2, bit last), (3, bit q.calStale), (4, bit (decide (s.time.servo = .holdover))), (5, bit tagged)]) ++
    le 1 kind ++ le 4 (if last then frameLen else 0) ++ le 1 q.ingress ++ le 1 (q.cls + 8 * q.colour) ++ le 2 q.vid ++ info

/-- The descriptors that a frame of `len` bytes takes, in order: none where the ring runs dry first, with the number filled. -/
def fillBuffers : List RxDesc → Nat → Nat → Except Nat (List (RxDesc × Nat))
  | ds, 0, _ => match ds with | _ => .ok []
  | [], _ + 1, n => .error n
  | d :: r, len + 1, n =>
    if !d.own then .error n
    else
      match fillBuffers r (len + 1 - d.size) (n + 1) with
      | .error k => .error k
      | .ok l => .ok ((d, min d.size (len + 1)) :: l)

/-- The data and the write-backs of a delivered frame, ring index rising from `i`, `off` bytes written so far. -/
def writeBuffers (r : Nat) (q : Queued) (id kind len : Nat) (tagged : Bool) (info : List Byte) : List (RxDesc × Nat) → Nat → Nat → State → State
  | [], _, _, s => s
  | (d, n) :: rest, i, off, s =>
    let g := s.ring r
    let wb := rxWriteBack s q kind n (decide (off = 0)) (decide (rest = [])) len tagged info
    let s1 := emit (.hostMem (g.base + 32 * (i % max 1 g.entries)) wb) (emit (.hostData d.addr id n off) s)
    writeBuffers r q id kind len tagged info rest (i + 1) (off + n) s1

/-- A frame of `len` bytes for receive ring `r` (R432): delivered whole, or the ring is dry. -/
def ringDeliver (r : Nat) (q : Queued) (id kind len : Nat) (tagged : Bool) (info : List Byte) (ds : List RxDesc) (s : State) : State × Bool :=
  if !(s.ring r).on then (updRing r (fun g => { g with offDrop := satInc 32 g.offDrop }) s, false)
  else match fillBuffers ds len 0 with
    | .error n => (ringDry r (updRing r (fun g => { g with deviceHeld := n }) s), false)
    | .ok l =>
      let s1 := writeBuffers r q id kind len tagged info l (s.ring r).nextIdx 0 s
      (updRing r (fun g => { g with nextIdx := (g.nextIdx + l.length) % max 1 g.entries, deviceHeld := 0,
                                    frames := satInc 32 g.frames, statusDue := true }) s1, true)

/-- The host CPU port's egress: the frame selected goes to its ring (R396). -/
def hostSelect (ds : List RxDesc) (s : State) : State :=
  if !dataPlane s ∨ !s.power.pcieUp then s
  else match judge 27 (fun _ _ => true) s with
    | (s1, none) => s1
    | (s1, some (c, q, f)) =>
      let s2 := selectFrom 27 c q f s1
      match f.payload with
      | .field _ => s2
      | .eth m =>
        let r := (portCfg s2 27).ringMap.getD (queueClass s2 q) 0
        pauseAll (leave 27 f (ringDeliver r f m.id 0 (m.len - 4) m.tag.isSome (List.replicate 8 0) ds s2).1)

/-- EGRESS_SELECT of a wired port or the host CPU port. -/
def egressSelect (e : Nat) (ds : List RxDesc) (s : State) : State :=
  if e < 24 then wiredSelect e s else if e = 27 then hostSelect ds s else s

/-- GATE_ENTRY_CHANGE (R331): time moves to the next change of the gates of egress `e`; none changes in the settling interval of a rebase. -/
def gateEntryChange (e : Nat) (s : State) : State :=
  match if s.time.settling then none else gateNext s e with
  | some d => wiredSelect e (advanceTo (s.ns + d) s)
  | none => s

/-- SHAPER_CREDIT_ZERO (R325): the credit of a shaped class reaches 0. -/
def shaperCreditZero (e c : Nat) (s : State) : State :=
  let k := classKey e c
  let g := classSet s k
  let now := creditNow s k
  if !g.shaped ∨ now.1 ≥ 0 ∨ g.rateKbps = 0 then s
  else
    let need := (-now.1).toNat
    let s1 := advanceMono (now.2 + (need * 10 ^ 6 + (g.rateKbps * 32 - 1)) / (g.rateKbps * 32)) s
    if e < 24 then wiredSelect e s1 else s1

/-- WIRED_TX_END (R373): the last bit leaves; the frame is counted, stamped (R56 to R64) and its storage given back; what the egress unit wrote into
a PTP message is told under its name (frame kind 6). -/
def wiredTxEnd (e : Nat) (s : State) : State :=
  let p := s.wport e
  match p.tx with
  | none => s
  | some t =>
    let s1 := advanceMono t.endNs s
    let pl := match t.item.payload with | .eth f => f.payload | .field _ => 0
    let s2 := match t.item.payload with
      | .eth f =>
        let told := match ptpFields e t.item f t.stamp s1 with
          | [] => s1
          | l => emit (.frame (portSource e) 6 (f.id :: l)) s1
        (match stampTag t.item f with
         | some tag => pushTsq (portSource e) t.stamp t.flags (oneStepSync t.item f) tag told
         | none => told)
      | .field _ => s1
    let s3 := portCount e cTxOk (leave e t.item s2)
    let s4 := updPort e (fun p => { p with
      tx := none, attempts := 0, gapEnd := s3.time.mono + bitsNs s3 e 96, idleFrom := s3.time.mono,
      pauseEnd := match p.pauseAfter with | some q => some (s3.time.mono + bitsNs s3 e (q * 512)) | none => p.pauseEnd,
      pauseAfter := none,
      burstUntil := if (p.plca = 1 ∨ p.plca = 2) ∧ p.extraSent < (t1sCfg s3 e).maxBurst
        then some (s3.time.mono + bitsNs s3 e (t1sCfg s3 e).burstTimer) else none,
      txDelivBytes := if t.item.ingress < 24 then satAdd 64 p.txDelivBytes pl else p.txDelivBytes }) s3
    pauseAll (sendPause e s4)

/-! ### PAUSE and EEE -/

/-- PAUSE_RX (R375, R376): a valid PAUSE is accepted at the end of its FCS. -/
def pauseRx (e quanta : Nat) (s : State) : State :=
  let s1 := portCount e cRxPause s
  updPort e (fun p =>
    if quanta = 0 then { p with pauseEnd := none, pauseAfter := none }
    else if p.tx.isSome then { p with pauseEnd := none, pauseAfter := some quanta }
    else { p with pauseEnd := some (s1.time.mono + bitsNs s1 e (quanta * 512)), pauseAfter := none }) s1

/-- PAUSE_END (R376): the pause runs out and transmission resumes. -/
def pauseEnd (e : Nat) (s : State) : State :=
  match (s.wport e).pauseEnd with
  | some t => wiredSelect e (updPort e (fun p => { p with pauseEnd := none }) (advanceMono t s))
  | none => s

/-- Would a frame of port `e` be eligible now (R316)? A paused port has none. -/
def anyEligible (s : State) (e : Nat) : Bool :=
  (s.wport e).pauseEnd.isNone && ((judge e (gateFits s e 0) s).2).isSome

/-- LPI_ENTRY (R379). -/
def lpiEntry (e : Nat) (s : State) : State :=
  let p := s.wport e
  let g := portCfg s e
  if e ≥ 24 ∨ !wiredOn s ∨ !g.eee ∨ !p.eeeAgreed ∨ !eeeMode e g.mode p.speed ∨ p.link ≠ 1 ∨ p.tx.isSome ∨ p.lpiTx ∨ p.wakeEnd.isSome then s
  else
    let s1 := advanceMono (p.idleFrom + g.lpiIdle * 1000) s
    if anyEligible s1 e then wiredSelect e s1
    else portCount e cLpiEntry (updPort e (fun p => { p with lpiTx := true }) s1)

/-- LPI_WAKE_END (R379): the waiting frame starts. -/
def lpiWakeEnd (e : Nat) (s : State) : State :=
  match (s.wport e).wakeEnd with
  | some t => wiredSelect e (updPort e (fun p => { p with wakeEnd := none }) (advanceMono t s))
  | none => s

/-- The link partner's EEE TLV (R379): the agreed times; WIRED_EEE when they change. -/
def eeeTlv (e tw : Nat) (s : State) : State :=
  let p := s.wport e
  let g := portCfg s e
  if !g.eee ∨ !eeeMode e g.mode p.speed ∨ (p.eeeAgreed ∧ p.partnerTw = tw) then s
  else
    let s1 := updPort e (fun p => { p with eeeAgreed := true, partnerTw := tw }) s
    raise (portSource e) 0x0404 (le 4 (twTx s1 e) ++ le 4 (defaultTw g.mode p.speed)) s1

/-! ### Links -/

/-- WIRED_LINK (Table 8-17). -/
def linkEvent (e up reason : Nat) (s : State) : State :=
  raise (portSource e) 0x0401 (le 1 up ++ le 1 (s.wport e).speed ++ le 1 reason) s

/-- Every queued frame of a port is discarded and counted (R363). -/
def flushPort (e : Nat) (s : State) : State :=
  (List.range 8).foldl (fun s c =>
    let q := 8 * e + c
    let n := (s.queue q).frames.length
    updPort e (fun p => { p with counts := tallyBy p.counts cTxLinkDown n }) (flushQueue q s)) s

/-- A port whose link has gone down: what it sent, received, paused for and had agreed is over (R363, R368, R379). -/
def linkCleared (p : WPort) : WPort :=
  { p with
    link := 0, linkChanges := satInc 32 p.linkChanges, tx := none, retry := none, rx := none, pauseEnd := none, pauseAfter := none,
    pauseDue := none, xoff := false, lpiTx := false, lpiRx := false, eeeAgreed := false, partnerTw := 0, wakeEnd := none, plca := 0,
    attempts := 0, extraSent := 0, burstUntil := none }

/-- The link of port `e` goes down (R363), with WIRED_LINK's `reason`. -/
def linkLost (e reason : Nat) (s : State) : State :=
  let p := s.wport e
  if p.link = 0 then s
  else if p.link = 2 then updPort e (fun p => { p with link := 0 }) s
  else
    let s1 := match p.tx with
      | some t => portCount e cTxLinkDown (leave e t.item s)
      | none => s
    let s2 := match p.retry with
      | some t => portCount e cTxLinkDown (leave e t.item s1)
      | none => s1
    let s3 := match p.rx with
      | some r => (match r.cells with | some id => freeCells id s2 | none => s2)
      | none => s2
    let s4 := updPort e linkCleared s3
    let s5 := forgetPort e (flushPort e s4)
    linkEvent e 0 reason { s5 with wired.linkDownStk := true }

/-- The PCS lane position of a BH port in a 25G mode, which a link that comes up finds anew: no rule gives its value, so it is a free one (Table
1-11; DESIGN CHOICE, log entry 117). -/
def laneDraw (e mode : Nat) (s : State) : Int × State :=
  if e < 4 ∧ mode = 3 then (Config.lanePosition s.draws, { s with draws := s.draws + 1 }) else (0, s)

/-- LINK_UP (R362): the conditions of the port's mode are met; `word` is the speed of the SGMII in-band word. -/
def linkUp (e word : Nat) (half : Bool) (s : State) : State :=
  let p := s.wport e
  let g := portCfg s e
  if e ≥ 24 ∨ !wiredOn s ∨ !unitUp s (8 + e) ∨ g.mode = 0 then s
  else if g.mode = 4 ∧ half then
    if p.link = 2 then s
    else
      let s1 := if p.link = 1 then linkLost e 1 s
        else linkEvent e 0 1 (updPort e (fun p => { p with speed := modeSpeed g.mode word }) s)
      updPort e (fun p => { p with link := 2 }) s1
  else if p.link = 1 then s
  else
    let (n, s1) := laneDraw e g.mode s
    linkEvent e 1 0 (updPort e (fun p => { p with
      transparent := Config.ptpPair e, lanePos := n,
      link := 1, speed := modeSpeed g.mode word, linkChanges := satInc 32 p.linkChanges, plca := plcaOf s e, beaconAt := s.time.mono,
      idleFrom := s.time.mono, gapEnd := s.time.mono, attempts := 0 }) s1)

/-- LINK_DOWN. -/
def linkDown (e : Nat) (s : State) : State := if e < 24 then linkLost e 0 s else s

/-- Port settings at a commit window (R397): a change of MODE or FEC takes the link down; PLCA and EEE settings apply. -/
def wiredSettings (old : Kept) (s : State) : State :=
  let o (e : Nat) : WPortCfg := Map.getD old.wired.ports e {}
  let s1 := (List.range 24).foldl (fun s e =>
    let g := portCfg s e
    let a := if (o e).mode ≠ g.mode ∨ (o e).fec ≠ g.fec then linkLost e 2 s else s
    let b := if !g.eee ∧ (o e).eee then updPort e (fun p => { p with lpiTx := false, eeeAgreed := false, partnerTw := 0, wakeEnd := none }) a else a
    let c := if !g.pauseTx ∧ (o e).pauseTx then updPort e (fun p => { p with xoff := false, pauseDue := none }) b else b
    let d := if !g.pauseRx ∧ (o e).pauseRx then updPort e (fun p => { p with pauseEnd := none, pauseAfter := none }) c else c
    if tsPort e ∧ Map.getD old.wired.t1s e {} ≠ t1sCfg s e ∧ (d.wport e).link = 1 then
      updPort e (fun p => { p with plca := plcaOf d e, beaconAt := d.time.mono }) d
    else d) s
  if old.plan.gates ≠ s.kept.plan.gates then purgeGated s1 else s1

/-! ### 10BASE-T1S (R367 to R369) -/

/-- WIRED_PLCA with the new state. -/
def setPlca (e v : Nat) (s : State) : State :=
  raise (portSource e) 0x0402 (le 1 v) (updPort e (fun p => { p with plca := v }) s)

/-- PLCA_BEACON_RX (R368). -/
def plcaBeaconRx (e : Nat) (s : State) : State :=
  let p := s.wport e
  if p.link ≠ 1 ∨ (p.plca ≠ 2 ∧ p.plca ≠ 3) then s
  else
    let s1 := updPort e (fun p => { p with beaconAt := s.time.mono }) s
    if p.plca = 3 then setPlca e 2 s1 else s1

/-- PLCA_FALLBACK (R368): 4,000 bit times without a BEACON. -/
def plcaFallback (e : Nat) (s : State) : State :=
  let p := s.wport e
  if p.link ≠ 1 ∨ p.plca ≠ 2 then s
  else
    let s1 := advanceMono (p.beaconAt + bitsNs s e 4000) s
    setPlca e 3 { s1 with wired.plcaStk := true }

/-- A frame that met a collision starts again. -/
def restartTx (e : Nat) (t : WiredTx) (s : State) : State := startTx e t.item (updPort e (fun p => { p with retry := none }) s)

/-- TRANSMIT_OPPORTUNITY (R367, R332): the port sends, or yields where nothing fits. A coordinator's first opportunity follows its BEACON. -/
def transmitOpportunity (e : Nat) (s : State) : State :=
  let p := s.wport e
  if !tsPort e ∨ !portFree s e ∨ (p.plca ≠ 1 ∧ p.plca ≠ 2) then s
  else
    let s1 := updPort e (fun p => { p with extraSent := 0, burstUntil := none }) s
    match p.retry with
    | some t => if gateFits s1 e 0 (8 * e + t.item.cls) t.item then restartTx e t s1 else s1
    | none => pickFrame e s1

/-- COLLISION (R369): `bits` bit times into the frame; `slots` is the back-off drawn, within the truncated binary exponential range. -/
def collision (e bits slots : Nat) (s : State) : State :=
  let p := s.wport e
  match p.tx with
  | none => s
  | some t =>
    if !tsPort e then s
    else
      let s0 := advanceMono (t.startNs + bitsNs s e bits) s
      let plca : Bool := decide (p.plca = 1) || decide (p.plca = 2)
      let n := p.attempts + 1
      let s1 := if plca then portCount e cPlcaColl s0 else s0
      if !plca ∧ bits > 512 then
        portCount e cLateColl (leave e t.item (updPort e (fun p => { p with tx := none, attempts := 0, gapEnd := s0.time.mono + bitsNs s e 128 }) s1))
      else if n ≥ 16 then
        portCount e cExcessColl (leave e t.item (updPort e (fun p => { p with tx := none, attempts := 0, gapEnd := s0.time.mono + bitsNs s e 128 }) s1))
      else
        let wait := if plca then 0 else slots % 2 ^ (min n 10) * 512
        updPort e (fun p => { p with tx := none, attempts := n, retry := some t, gapEnd := s0.time.mono + bitsNs s e (32 + 96 + wait) }) s1

/-- CSMA_BACKOFF_END (R369): the frame is retried. -/
def csmaBackoffEnd (e : Nat) (s : State) : State :=
  let p := s.wport e
  match p.retry with
  | none => s
  | some t => if !portFree s e ∨ p.plca = 1 ∨ p.plca = 2 then s else restartTx e t (advanceMono p.gapEnd s)

/-- MDIO_POLL (R366): every 100 beats the Steward polls each PHY named in WIRED_PORT_SET. -/
def mdioPoll (s : State) : State :=
  if !wiredOn s ∨ !coresRun s ∨ s.beat < s.wired.mdioPollBeat + 100 then s
  else
    let phys := ((List.range 12).map (fun k => (portCfg s (4 + k)).phyad)).filter (· ≤ 31)
    emit (.frame 5 2 phys) { s with wired.mdioPollBeat := s.beat }

/-! ### Receiving -/

/-- The first cell of a frame on port `e` is claimed, `bits` bit times after the end of its SFD (R371). -/
def claimFirst (e bits : Nat) (s : State) : State :=
  let p := s.wport e
  if e ≥ 24 ∨ !wiredOn s ∨ p.link ≠ 1 ∨ p.rx.isSome then s
  else
    let run : RxRun := { stamp := ingressStamp (portSource e) 0 0 (bitsNs s e bits) s, calStale := chainStale s (portSource e) 0 0 }
    match claimCells (portSource e) e 1 [] s with
    | some (id, s1) => pauseAll (updPort e (fun p => { p with rx := some { run with cells := some id } }) s1)
    | none => updPort e (fun p => { p with rx := some run }) s

/-- RX_CELL_CLAIM (R371): 64 bytes have arrived and the first cell is claimed. -/
def rxCellClaim (e : Nat) (s : State) : State := claimFirst e 512 s

/-- WIRED_FRAME_RX (R371, R372): the outcome of a frame whose FCS has ended. -/
def wiredFrameRx (e : Nat) (w : WiredRx) (s : State) : State :=
  if e ≥ 24 ∨ !wiredOn s ∨ (s.wport e).link ≠ 1 then s
  else if w.frame.len < 64 then portCount e cRunt s
  else
    let s0 := claimFirst e (8 * w.frame.len) s
    match (s0.wport e).rx with
    | none => s0
    | some run =>
      let g := portCfg s0 e
      let more := cellsFor (min w.frame.len (g.maxFrame + 1)) - 1
      let s1 := updPort e (fun p => { p with rx := none }) s0
      let grown : Option State := match run.cells with
        | some id => growCells id more s1
        | none => none
      let held := grown.getD s1
      let done := match run.cells with | some id => freeCells id held | none => held
      pauseAll (
        if w.codeError then portCount e cCodeErr done
        else if w.frame.len > g.maxFrame then portCount e cOversize done
        else if !w.fcsOk then portCount e cFcsErr done
        else if grown.isNone then portCount e cNoCell done
        else if w.frame.etherType = 0x8808 then
          if w.frame.len = 64 ∧ w.opcode = 1 ∧ (w.frame.da = 0x0180C2000001 ∨ w.toPort) ∧ !tsPort e ∧ g.pauseRx then pauseRx e w.quanta done
          else portCount e cMacCtl done
        else
          let s2 := purgeGated (forward { index := e, cells := run.cells, stamp := run.stamp, calStale := run.calStale } w.frame held)
          match w.eee with
          | some tw => if w.frame.etherType = 0x88CC then eeeTlv e tw s2 else s2
          | none => s2)

/-! ### Host transmit rings (R428 to R430) -/

/-- A transmit descriptor as written back (Table 9-8). -/
def txWriteBack (d : TxDesc) (status : Nat) : List Byte :=
  le 8 d.addr ++ le 2 d.bufLen ++
    le 1 (fieldsWord [(1, bit d.first), (2, bit d.last), (3, bit d.direct), (4, bit d.stampReq)]) ++ le 1 d.cls ++ le 1 d.egress ++ le 1 0 ++
    le 2 d.tagNo ++ le 1 (if d.last then status else 0) ++ List.replicate 15 0

/-- One descriptor of ring `r` written back. -/
def txDone (r : Nat) (d : TxDesc) (status : Nat) (s : State) : State :=
  let g := s.ring r
  emit (.hostMem (g.base + 32 * g.nextIdx) (txWriteBack d status))
    (updRing r (fun g => { g with nextIdx := (g.nextIdx + 1) % max 1 g.entries, statusDue := true }) s)

/-- Frames queued in the block and handed to the Steward so far in this command: it rises exactly where a frame is accepted. -/
def takenCount (s : State) : Nat :=
  s.plan.queues.foldl (fun n q => n + q.2.frames.length) 0 +
    (s.outbox.filter (fun o => match o with | .toSteward _ _ _ => true | _ => false)).length

/-- A whole frame from the host enters (R396): TX_STATUS. -/
def hostFrame (first : TxDesc) (total : Nat) (s : State) : State × Nat :=
  let f : Frame := { first.frame with len := max 64 (total + 4), stamp := if first.stampReq then some first.tagNo else none }
  let x : Ingress := { index := 27 }
  if first.direct then
    let v := (frameVid s x f).1
    let e := first.egress
    if sentLen f (!hasBit (vlan s v).untag e) > (portCfg s e).maxFrame then (portCount e cTxOversize s, 1)
    else if (s.wport e).link ≠ 1 then (portCount e cTxLinkDown s, 1)
    else
      let r := enqueueTargets x f [{ queue := 8 * e + first.cls % 8, egress := e, item := entryFor s x f e (first.cls % 8) v 0 }] s
      (r.1, if r.2 = 0 then 1 else 0)
  else
    match claimCells 42 27 (cellsFor f.len) [] s with
    | none => (memCount cCellDrop s, 1)
    | some (id, s1) =>
      let s2 := forward { x with cells := some id } f s1
      (s2, if takenCount s2 > takenCount s1 then 0 else 1)

/-- TX_RING_POLL (R429, R430): the descriptors at the ring's next index, in order, up to the first whose OWN is 0. -/
def txRing (r : Nat) : List TxDesc → State → State
  | [], s => s
  | d :: rest, s =>
    if !d.own then s
    else
      let bad (s : State) : State := updRing r (fun g => { g with descErr := satInc 32 g.descErr, open' := none }) s
      let g := s.ring r
      let s1 : State := match g.open', d.first with
        | some _, true =>
          let t := bad s
          if d.last then txDone r d 2 (bad t) else txDone r d 0 (updRing r (fun g => { g with open' := some (d.bufLen, d) }) t)
        | none, false => txDone r d 2 (bad s)
        | none, true =>
          if !d.last then txDone r d 0 (updRing r (fun g => { g with open' := some (d.bufLen, d) }) s)
          else if d.bufLen + 4 > 9216 ∨ (d.direct ∧ d.egress > 23) then txDone r d 2 (bad s)
          else
            let h := hostFrame d d.bufLen s
            txDone r d h.2 (updRing r (fun g => { g with frames := satInc 32 g.frames }) h.1)
        | some (n, h0), false =>
          let total := n + d.bufLen
          if !d.last then txDone r d 0 (updRing r (fun g => { g with open' := some (total, h0) }) s)
          else if total + 4 > 9216 ∨ (h0.direct ∧ h0.egress > 23) then txDone r d 2 (bad s)
          else
            let h := hostFrame h0 total s
            txDone r d h.2 (updRing r (fun g => { g with open' := none, frames := satInc 32 g.frames }) h.1)
      txRing r rest s1

/-- TX_RING_POLL. -/
def txRingPoll (r : Nat) (ds : List TxDesc) (s : State) : State :=
  if r < 16 ∨ r > 23 ∨ !(s.ring r).on ∨ !dataPlane s ∨ !s.power.pcieUp ∨ s.power.mode = .doze then s
  else pauseAll (purgeGated (txRing r ds s))

/-! ### Commands -/

/-- MODE values of a port (Table 8-11). -/
def modeOk (e m : Nat) : Bool :=
  m = 0 || (if e < 4 then decide (1 ≤ m) && decide (m ≤ 3) else if e < 16 then m = 4 || m = 5 else decide (e < 24) && decide (m = 6))

/-- FEC values of a mode (R361). -/
def fecOk (m f : Nat) : Bool := f = 0 || (m = 2 && f = 1) || (m = 3 && (f = 1 || f = 2))

/-- WIRED_PORT_SET (Table 8-11). -/
def wiredPortSet : Handler where
  fields := [fRange 16 1 0 27, fRange 17 1 0 6, fRange 18 1 0 2, fAny 19 1, fRange 20 2 64 9216, fRange 22 2 1 4094, fRange 24 1 0 2,
    fMask 25 1 1, fRange 26 1 0 2, fRange 27 1 0 7, fRange 28 2 4 4096, fAny 30 2, fRange 32 2 1 65535, fRange 34 2 10 10000,
    fRange 36 2 0 1000, fAny 38 1, fZero 39 1, fAny 40 16]
  run c _ s :=
    let e := c.u 16 1
    let m := c.u 17 1
    let fl := c.u 19 1
    let pv := (List.range 8).map (fun k => c.u (40 + 2 * k) 2)
    let rings := (List.range 8).map (fun k => c.u (40 + k) 1)
    let mapOk : Bool := if e = 24 ∨ e = 25 then pv.all (fun v => decide (1 ≤ v) && decide (v ≤ 4094))
      else if e = 27 then rings.all (· ≤ 7) && decide (c.u 48 8 = 0) else decide (c.u 40 16 = 0)
    if !modeOk e m then (s, .reply (badArg 17))
    else if !fecOk m (c.u 18 1) then (s, .reply (badArg 18))
    else if (bitsOf fl 3 2 ≠ 0 ∧ (m = 0 ∨ m = 6)) ∨ (hasBit fl 1 ∧ m ≠ 2 ∧ m ≠ 4 ∧ m ≠ 5) then (s, .reply (badArg 19))
    else if tsPort e ∧ c.u 20 2 > 2000 then (s, .reply (badArg 20))
    else if c.u 30 2 + 4 > c.u 28 2 then (s, .reply (badArg 30))
    else if 4 ≤ e ∧ e < 16 ∧ c.u 38 1 > 31 ∧ c.u 38 1 ≠ 0xFF then (s, .reply (badArg 38))
    else if !mapOk then (s, .reply (badArg 40))
    else if e < 24 ∧ hasBit s.next.wired.switch.rstp e ∧ c.u 26 1 ≠ (Map.getD s.next.wired.ports e {}).state then (s, .reply (denied 45))
    else
      let g : WPortCfg :=
        { mode := m, fec := c.u 18 1, an := hasBit fl 0, eee := hasBit fl 1, pauseRx := hasBit fl 2, pauseTx := hasBit fl 3,
          learn := hasBit fl 4, sTag := hasBit fl 5, dscpTrust := hasBit fl 6, deiIn := hasBit fl 7, maxFrame := c.u 20 2, pvid := c.u 22 2,
          accept := c.u 24 1, ingressFilter := c.flag 25 1 0, state := c.u 26 1, defaultClass := c.u 27 1, xoffKb := c.u 28 2,
          xonKb := c.u 30 2, quanta := c.u 32 2, lpiIdle := c.u 34 2, twMin := c.u 36 2, phyad := c.u 38 1,
          bssPvid := if e = 24 ∨ e = 25 then pv else [1, 1, 1, 1, 1, 1, 1, 1],
          ringMap := if e = 27 then rings else [0, 1, 2, 3, 4, 5, 6, 7] }
      (stageKept (fun k => { k with wired.ports := Map.set k.wired.ports e g }) s, .reply (ok))

/-- WIRED_PORT_STATUS (Table 8-12). -/
def wiredPortStatus : Handler :=
  readHandler [fRange 16 1 0 23, fZero 17 3] (fun c s =>
    let e := c.u 16 1
    let p := s.wport e
    let remain := match p.pauseEnd with | some t => t - s.time.mono | none => 0
    le 1 p.link ++ le 1 (if p.link = 0 then modeSpeed (portCfg s e).mode 0 else p.speed) ++
      le 1 (fieldsWord [(0, bit (decide (remain ≠ 0))), (1, bit p.xoff)]) ++
      le 1 (fieldsWord [(0, bit p.lpiTx), (1, bit p.lpiRx), (2, bit p.eeeAgreed)]) ++ le 2 (twTx s e) ++
      le 2 (defaultTw (portCfg s e).mode p.speed) ++ le 1 p.plca ++ le 3 0 ++ le 4 (min remain 0xFFFFFFFF) ++ le 4 p.linkChanges)

/-- WIRED_T1S_SET (Table 8-2). -/
def wiredT1sSet : Handler where
  fields := [fRange 16 1 16 23, fMask 17 1 1, fRange 18 1 0 254, fRange 19 1 2 32, fRange 20 1 16 255, fRange 21 1 0 15, fRange 22 1 32 255,
    fZero 23 1]
  run c _ s :=
    let g : T1sCfg := { plca := c.flag 17 1 0, nodeId := c.u 18 1, nodeCount := c.u 19 1, toTimer := c.u 20 1, maxBurst := c.u 21 1,
                        burstTimer := c.u 22 1 }
    (stageKept (fun k => { k with wired.t1s := Map.set k.wired.t1s (c.u 16 1) g }) s, .reply (ok))

/-- WIRED_MDIO (R366): one transaction, whole; what a PHY answers to a read is a free value. -/
def wiredMdio : Handler where
  fields := [fRange 16 1 0 4, fRange 17 1 0 31, fRange 18 1 0 31, fZero 19 1, fAny 20 2, fAny 22 2]
  run c _ s :=
    let op := c.u 16 1
    if op = 4 then
      if [1, 2, 4, 8].contains (c.u 22 2) then ({ s with wired.mdc := c.u 22 2 }, .reply (ok (le 2 (c.u 22 2)))) else (s, .reply (badArg 22))
    else if op ≤ 1 ∧ c.u 20 2 > 31 then (s, .reply (badArg 20))
    else if s.stw.jobs.any (fun j => decide (j.opcode = 0x040E) && decide (j.lane ≠ c.lane)) then (s, .reply { status := stBusy })
    else
      let s1 := emit (.frame 5 3 [op, c.u 17 1, c.u 18 1, c.u 20 2, c.u 22 2]) s
      if op = 0 ∨ op = 2 then
        match draw s1 with
        | (n, s2) => (s2, .reply (ok (le 2 n)))
      else (s1, .reply (ok (le 2 (c.u 22 2))))

/-- The sticky flags of the wired chapter (R398). -/
def wiredSticky (s : State) : Nat :=
  fieldsWord [(0, bit s.wired.linkDownStk), (1, bit s.wired.plcaStk), (2, bit s.wired.l2FullStk), (3, bit s.wired.flowFullStk)]

/-- WIRED_COUNTERS (R398, Table 8-16). -/
def wiredCounters : Handler where
  fields := [fOneOf 16 1 ((List.range 28) ++ [0xFF]), fMask 17 1 3, fMask 18 1 15, fZero 19 1]
  run c _ s :=
    let e := c.u 16 1
    let p := s.wport e
    let body := le 1 (wiredSticky s) ++ le 3 0 ++
      (if e = 0xFF then List.replicate 96 0 ++ tallyBytes s.wired.counts 116 8
       else le 8 p.rxClientBytes ++ le 8 p.txDelivBytes ++ tallyBytes p.counts 36 20 ++ List.replicate 32 0)
    let s1 := if !c.flag 17 1 0 then s
      else if e = 0xFF then { s with wired.counts := [] }
      else updPort e (fun p => { p with counts := [], rxClientBytes := 0, txDelivBytes := 0 }) s
    let k (i : Nat) : Bool := c.flag 17 1 1 && c.flag 18 1 i
    let s2 := { s1 with wired.linkDownStk := s1.wired.linkDownStk && !k 0, wired.plcaStk := s1.wired.plcaStk && !k 1,
                        wired.l2FullStk := s1.wired.l2FullStk && !k 2, wired.flowFullStk := s1.wired.flowFullStk && !k 3 }
    (s2, .reply (ok body))

/-! ### Meanings -/

/-- EGRESS_SELECT. -/
def execEgressSelect (egress : Nat) (descs : List RxDesc) (s : State) : Out := act (egressSelect egress descs) s
/-- ENQUEUE. -/
def execEnqueue (queue : Nat) (payload : Payload) (vid : Nat) (s : State) : Out := act (fun s => purgeGated (enqueueRow queue payload vid s)) s
/-- GATE_ENTRY_CHANGE. -/
def execGateEntryChange (egress : Nat) (s : State) : Out := act (gateEntryChange egress) s
/-- SHAPER_CREDIT_ZERO. -/
def execShaperCreditZero (egress cls : Nat) (s : State) : Out := act (shaperCreditZero egress cls) s
/-- LINK_UP. -/
def execLinkUp (port word : Nat) (half : Bool) (s : State) : Out := act (linkUp port word half) s
/-- LINK_DOWN. -/
def execLinkDown (port : Nat) (s : State) : Out := act (linkDown port) s
/-- MDIO_POLL. -/
def execMdioPoll (s : State) : Out := act mdioPoll s
/-- PLCA_BEACON_RX. -/
def execPlcaBeaconRx (port : Nat) (s : State) : Out := act (plcaBeaconRx port) s
/-- PLCA_FALLBACK. -/
def execPlcaFallback (port : Nat) (s : State) : Out := act (plcaFallback port) s
/-- TRANSMIT_OPPORTUNITY. -/
def execTransmitOpportunity (port : Nat) (s : State) : Out := act (transmitOpportunity port) s
/-- COLLISION. -/
def execCollision (port bits slots : Nat) (s : State) : Out := act (fun s => pauseAll (collision port bits slots s)) s
/-- CSMA_BACKOFF_END. -/
def execCsmaBackoffEnd (port : Nat) (s : State) : Out := act (csmaBackoffEnd port) s
/-- RX_CELL_CLAIM. -/
def execRxCellClaim (port : Nat) (s : State) : Out := act (rxCellClaim port) s
/-- WIRED_FRAME_RX. -/
def execWiredFrameRx (port : Nat) (w : WiredRx) (s : State) : Out := act (wiredFrameRx port w) s
/-- PAUSE_END. -/
def execPauseEnd (port : Nat) (s : State) : Out := act (pauseEnd port) s
/-- PAUSE_REPEAT. -/
def execPauseRepeat (port : Nat) (s : State) : Out := act (pauseRepeat port) s
/-- LPI_ENTRY. -/
def execLpiEntry (port : Nat) (s : State) : Out := act (lpiEntry port) s
/-- LPI_WAKE_END. -/
def execLpiWakeEnd (port : Nat) (s : State) : Out := act (lpiWakeEnd port) s
/-- WIRED_TX_END. -/
def execWiredTxEnd (port : Nat) (s : State) : Out := act (wiredTxEnd port) s
/-- TX_RING_POLL. -/
def execTxRingPoll (ring : Nat) (descs : List TxDesc) (s : State) : Out := act (txRingPoll ring descs) s
/-- WIRED_PORT_SET. -/
def execWiredPortSet (c : Cmd) (s : State) : Out := act (submit 0x0401 wiredPortSet c) s
/-- WIRED_PORT_STATUS. -/
def execWiredPortStatus (c : Cmd) (s : State) : Out := act (submit 0x0402 wiredPortStatus c) s
/-- WIRED_T1S_SET. -/
def execWiredT1sSet (c : Cmd) (s : State) : Out := act (submit 0x0403 wiredT1sSet c) s
/-- WIRED_MDIO. -/
def execWiredMdio (c : Cmd) (s : State) : Out := act (submit 0x040E wiredMdio c) s
/-- WIRED_COUNTERS. -/
def execWiredCounters (c : Cmd) (s : State) : Out := act (submit 0x040F wiredCounters c) s

end Sys2Proof.Machine
end

