-- ==== Sys2Proof/Machine/Radio.lean ====
section
/-! DEFINITION. What the field radio and the wide radios share in the front end (chapter 6): synthesisers, obstructions, pin sequences,
coexistence holds. -/

namespace Sys2Proof.Machine

/-! ### Counters of Table 6-16, by response offset -/

abbrev cRelock : Nat := 20
abbrev cUnlock : Nat := 24
abbrev cTxWait : Nat := 28
abbrev cLateDrop : Nat := 32
abbrev cRequeue : Nat := 36
abbrev cPaTimeout : Nat := 40
abbrev cCoexGrant : Nat := 44
abbrev cCoexRevoke : Nat := 48
abbrev cCoexBlank : Nat := 52
abbrev cCoexHold : Nat := 56
abbrev cCalRun : Nat := 60
abbrev cCalApply : Nat := 64
abbrev cCalQuiet : Nat := 68
abbrev cCalPlaus : Nat := 72
abbrev cCalRange : Nat := 76
abbrev cCalDefer : Nat := 80
abbrev cCalStale : Nat := 84

/-- A front-end counter of a scope incremented: 3 the Burnisher, 32 to 35 a radio, 36 the coexistence ports. -/
def frontCount (scope k : Nat) (s : State) : State := { s with front.counts := tally s.front.counts (128 * scope + k) }

/-! ### Synthesisers (R275 to R277) -/

/-- A synthesiser: 0 W1, 1 W2, 2 F24 receive, 3 F24 transmit, 4 FSG. -/
def State.synth (s : State) (i : Nat) : Synth := s.front.synths.getD i {}

/-- A synthesiser changed. -/
def updSynth (i : Nat) (f : Synth → Synth) (s : State) : State := { s with front.synths := Bank.modify s.front.synths i f }

/-- Source number of the radio that a synthesiser serves. -/
def synthRadio (i : Nat) : Nat := if i = 0 then 32 else if i = 1 then 33 else if i ≤ 3 then 34 else 35

/-- The synthesiser that a radio transmits with. -/
def txSynth (src : Nat) : Nat := if src = 32 then 0 else if src = 33 then 1 else if src = 34 then 3 else 4

/-- Lock times in ns from OFF, from STANDBY, and of a retune (Table 6-1). -/
def offLockNs (i : Nat) : Nat := if i = 2 ∨ i = 3 then 100000 else 150000
def standbyLockNs (i : Nat) : Nat := if i = 2 ∨ i = 3 then 50000 else 80000
def retuneNs (i : Nat) : Nat := if i = 3 then 40000 else if i = 4 then 80000 else 60000

/-- On frequency: LOCKED, or a relock or retune whose time has passed. -/
def synthReady (s : State) (i : Nat) : Bool :=
  let y := s.synth i
  decide (y.state = .locked) || (decide (y.state = .settling) && decide (y.lockAt ≤ s.time.mono))

/-- A relock from OFF or STANDBY starts; the front-end controller carries it out. -/
def startLock (i : Nat) (s : State) : State :=
  let y := s.synth i
  let go (ns : Nat) : State :=
    frontCount (synthRadio i) cRelock (updSynth i (fun y => { y with state := .settling, lockAt := s.time.mono + ns }) s)
  if !unitUp s 36 then s
  else match y.state with
  | .off => go (offLockNs i)
  | .standby => go (standbyLockNs i)
  | .locked => s
  | .settling => s

/-- A retune of a synthesiser that is on frequency. -/
def startRetune (i : Nat) (s : State) : State :=
  if synthReady s i then updSynth i (fun y => { y with state := .settling, lockAt := s.time.mono + retuneNs i }) s else s

/-- To OFF or STANDBY. -/
def dropLock (i : Nat) (to' : SynthState) (s : State) : State := updSynth i (fun y => { y with state := to' }) s

/-- SYNTH_LOCKED (R277). -/
def synthLocked (i : Nat) (s : State) : State :=
  let y := s.synth i
  if i < 5 ∧ y.state = .settling then updSynth i (fun y => { y with state := .locked }) (advanceMono y.lockAt s) else s

/-! ### Obstructions (R279) -/

/-- Settings of a coexistence port. -/
def coexCfg (s : State) (n : Nat) : CoexCfg := Map.getD s.kept.front.coex n {}
/-- A coexistence port. -/
def State.coexPort (s : State) (n : Nat) : CoexPort := s.front.coex.getD n {}
/-- A coexistence port changed. -/
def updCoex (n : Nat) (f : CoexPort → CoexPort) (s : State) : State := { s with front.coex := Bank.modify s.front.coex n f }

/-- Does port `n` serve radio `src`? -/
def coexServes (s : State) (n src : Nat) : Bool := decide ((coexCfg s n).mode ≠ 0) && hasBit (coexCfg s n).radios (src - 32)

/-- A coexistence hold applies to radio `src` (R292, R293, R297). -/
def coexHold (s : State) (src : Nat) : Bool :=
  [0, 1].any (fun n => coexServes s n src &&
    (if (coexCfg s n).mode = 1 then (s.coexPort n).granted.isSome || decide ((s.coexPort n).holdUntil > s.time.mono)
     else (s.coexPort n).pri))

/-- A priority request that serves radio `src` is pending: no new device-initiated transmission starts (R291). -/
def priorityPending (s : State) (src : Nat) : Bool :=
  [0, 1].any (fun n => coexServes s n src && decide ((coexCfg s n).mode = 1) && (s.coexPort n).pending.isSome && (s.coexPort n).pri)

/-- A Burnisher step runs on one of the chains of radio `src`, or on its transmit synthesiser. -/
def stepRunning (s : State) (src chains : Nat) : Bool :=
  s.front.runs.any (fun r => r.running && decide (r.target = src) && (decide (r.id = 3) || hasBit chains r.sub))

/-- The chains of radio `src` are obstructed (R279). -/
def obstructed (s : State) (src chains : Nat) : Bool := !synthReady s (txSynth src) || stepRunning s src chains || coexHold s src

/-- W2 operates in 2.4 GHz and F24 is enabled (R214). -/
def shares24 (s : State) : Bool := decide ((Map.getD s.kept.wide.chan 1 {}).band = 0) && s.kept.field.config.f24

/-- The lateness allowance of a kind of transmission in ns (R280). -/
def allowance (s : State) (kind : Nat) : Nat := if kind = 0 then s.kept.front.cal.lateAllow * 1000 else 0

/-- The transmission of radio `src` waits from now on (R279). -/
def setWaiting (src kind chains : Nat) (s : State) : State :=
  frontCount src cTxWait { s with front.waiting := Map.set s.front.waiting src { t0 := s.time.mono, t1 := s.time.mono, kind := kind, chains := chains } }

/-! ### Pins (R284 to R288) -/

/-- FE_PIN_CONFIG of a chain in force. -/
def pinCfg (s : State) (src chain : Nat) : PinCfg := Map.getD s.kept.front.pins (4 * src + chain) (if src ≥ 34 then PinCfg.field else {})

/-- The leading edges of the transmit sequence on one chain (Table 6-3). -/
def leadEdges (src t0 : Nat) (s : State) (chain : Nat) : State :=
  let g := pinCfg s src chain
  let i := 4 * src + chain
  let s1 := if g.lnaFitted then emit (.pinAt "LNA_EN" i false (t0 - 25 * g.lnaOff)) s else s
  let s2 := emit (.pinAt "TRSW" i true (t0 - 25 * g.trswLead)) s1
  if g.paFitted then emit (.pinAt "PA_EN" i true (t0 - 25 * g.paLead)) s2 else s2

/-- The trailing edges; a cut transmission has its PA_EN low at once (R278). -/
def trailEdges (src t1 : Nat) (cut : Bool) (s : State) (chain : Nat) : State :=
  let g := pinCfg s src chain
  let i := 4 * src + chain
  let s1 := if g.paFitted then emit (.pinAt "PA_EN" i false (if cut then t1 else t1 + 25 * g.paLag)) s else s
  let s2 := emit (.pinAt "TRSW" i false (t1 + 25 * g.trswLag)) s1
  if g.lnaFitted then emit (.pinAt "LNA_EN" i true (t1 + 25 * g.lnaOn)) s2 else s2

/-- TXACT of the blanking ports that serve radio `src` (R297). -/
def txAct (src : Nat) (level : Bool) (ns : Nat) (s : State) : State :=
  [0, 1].foldl (fun s n =>
    if coexServes s n src ∧ (coexCfg s n).mode = 2 ∧ (coexCfg s n).txactOut then emit (.pinAt "COEX_GNT" n level ns) s else s) s

/-- The chains of a mask. -/
def chainsOf (mask : Nat) : List Nat := bitsSet 4 mask

/-- The earliest leading edge, in ns before T0. -/
def leadNs (s : State) (src chains : Nat) : Nat := (chainsOf chains).foldl (fun m c => max m (25 * (pinCfg s src c).lnaOff)) 0

/-- A transmission of radio `src` starts now and lasts `dur` ns. -/
def startRadio (src kind chains dur : Nat) (s : State) : State :=
  let t0 := s.time.mono
  let s1 := txAct src true (t0 - leadNs s src chains) ((chainsOf chains).foldl (leadEdges src t0) s)
  { s1 with front.tx := Map.set s1.front.tx src { t0 := t0, t1 := t0 + dur, kind := kind, chains := chains },
            front.waiting := Map.erase s1.front.waiting src }

/-- The blank of radio `src` that a transmission was to hold until `tail` ns behind its end at `fin` ends `tail` ns behind now (R158, R206). -/
def cutBlank (src fin tail : Nat) (s : State) : State :=
  if Map.getD s.front.blankUntil src 0 = fin + tail then
    { s with front.blankUntil := Map.set s.front.blankUntil src (min (fin + tail) (s.time.mono + tail)) }
  else s

/-- The blanks that a transmission of radio `src` lays end with its cut: its own and, between F24 and W2, the other's (R214). -/
def cutBlanks (src fin : Nat) (s : State) : State :=
  let s1 := cutBlank src fin (if src ≥ 34 then 10000 else 2000) s
  if src = 34 then cutBlank 33 fin 10000 s1 else if src = 33 then cutBlank 34 fin 10000 s1 else s1

/-- The transmission of radio `src` ends, or is cut, now. -/
def endRadio (src : Nat) (cut : Bool) (s : State) : State :=
  match Map.get? s.front.tx src with
  | none => s
  | some t =>
    let last := (chainsOf t.chains).foldl (fun m c => max m (25 * (pinCfg s src c).lnaOn)) 0
    let s1 := txAct src false (s.time.mono + last) ((chainsOf t.chains).foldl (trailEdges src s.time.mono cut) s)
    { (if cut then cutBlanks src t.t1 s1 else s1) with front.tx := Map.erase s1.front.tx src }

/-- Is radio `src` transmitting? -/
def transmitting (s : State) (src : Nat) : Bool := Map.has s.front.tx src

/-- A test mode sends on radio `src` (R220): its transmission has no end yet. -/
def testSends (s : State) (src : Nat) : Bool := match Map.get? s.front.tx src with | some t => decide (t.kind = 3) | none => false

/-- A span of local time that a radio has committed to a transmission, with the instant of the commitment (R215). -/
structure TxSpan where
  lo : Nat
  hi : Nat
  since : Nat := 0

/-- What radio `src` has on the air, committed before anything that is still to start. -/
def onAir (s : State) (src : Nat) : List TxSpan :=
  match Map.get? s.front.tx src with
  | some t => [{ lo := t.t0 - leadNs s src t.chains, hi := if t.kind = 3 then s.time.mono + 1000000000 else t.t1 }]
  | none => []

/-- The spans that W2 has committed (R215): on the air, a response due, the beacons and trigger frames of the plan in force; of an exchange whose MU-BAR
or BFRP trigger frame stands behind other PPDUs the whole entry (DESIGN CHOICE, log entry 108). -/
def wideSpans (s : State) : List TxSpan :=
  let p := Map.getD s.plan.inForce 1 {}
  let delay := (Map.getD s.kept.wide.beacon 1 {}).maxDelay
  let w := s.wide.radios.getD 1 {}
  let lead := leadNs s 33 w.chains
  let at' (us : Nat) : Nat := s.time.mono + us * 1000 - s.phase
  onAir s 33 ++
    (match w.responseAt with | some x => [{ lo := x.at' - lead, hi := x.at' + x.dur, since := x.since }] | none => []) ++
    p.entries.filterMap (fun e =>
      if e.kind = 3 then some { lo := at' (e.start + 19) - lead, hi := at' (e.start + e.dur - delay), since := at' 0 - 100000 }
      else if e.kind = 5 then
        some { lo := at' e.start - lead, hi := at' (e.start + ((p.slots.find? (fun x => decide (x.id = e.arg))).map (·.trig)).getD 0), since := at' 0 - 100000 }
      else if e.kind = 6 ∨ e.kind = 7 then some { lo := at' e.start - lead, hi := at' (e.start + e.dur), since := at' 0 - 100000 }
      else none)

/-- R215, R216: an F24 transmission of `dur` ns from now on, committed at `since`, would overlap a span that W2 committed before, or on the same
tick. -/
def wideClash (s : State) (src dur since : Nat) : Bool :=
  decide (src = 34) && shares24 s && (wideSpans s).any (fun x =>
    decide (x.lo < s.time.mono + dur) && decide (s.time.mono - leadNs s 34 1 < x.hi) && decide (x.since ≤ since))

/-- The first rendezvous instant of a record, in TBC ns, at or after `from'`. -/
def rdvInstant (g : Rdv) (from' : Nat) : Nat :=
  let p := max 1 g.period
  let b := from' / 1000000
  let n := b + (g.offset + p - b % p) % p
  let t := n * 1000000 + g.phaseUs * 1000
  if t < from' then t + p * 1000000 else t

/-- A rendezvous frame of the band leaves within `lead` ns. -/
def rdvSoon (s : State) (band lead : Nat) : Bool :=
  s.kept.field.rdv.any (fun e => e.2.enable && !e.2.listen && decide (e.2.band = band) && !(Map.getD s.field.rdv e.1 {}).suspended &&
    decide (rdvInstant e.2 s.ns ≤ s.ns + lead))

/-- The front-end sequence of a transmission that radio `src` has committed has begun (R158, R206): of a response, an acknowledgement, the answer to
a poll, a rendezvous frame, or a frame whose CCA is about to end (DESIGN CHOICE, log entry 103: a CCA that then finds the channel busy does not undo
the blank). -/
def sequenceBegun (s : State) (src : Nat) : Bool :=
  if src < 34 then
    let w := s.wide.radios.getD (src - 32) {}
    w.responseAt.any (fun x => decide (x.at' ≤ s.time.mono + leadNs s src w.chains)) && !obstructed s src w.chains
  else
    let c := s.field.chains.getD (src - 34) {}
    let lead := leadNs s src 1
    let soon (t : Nat) : Bool := decide (t ≤ s.time.mono + lead)
    (c.acks.any (fun k => soon k.at') || c.answers.head?.any (fun p => soon p.at') || c.access.any (fun a => decide (a.stage = 1) && soon a.due) ||
      (dataPlane s && rdvSoon s (src - 34) lead)) && !obstructed s src 1

/-- Receivers of radio `src` blanked until local instant `t`. -/
def blankTo (src t : Nat) (s : State) : State := { s with front.blankUntil := Map.set s.front.blankUntil src (max t (Map.getD s.front.blankUntil src 0)) }

/-- Are the receivers of radio `src` blanked now: by a transmission, its own or across the shared 2.4 GHz, a shared aerial or a BLANK input
(R158, R206, R214, R292, R297)? -/
def blanked (s : State) (src : Nat) : Bool :=
  decide (Map.getD s.front.blankUntil src 0 > s.time.mono) || transmitting s src || sequenceBegun s src ||
    (shares24 s && ((decide (src = 34) && (testSends s 33 || sequenceBegun s 33)) || (decide (src = 33) && (testSends s 34 || sequenceBegun s 34)))) ||
    [0, 1].any (fun n => coexServes s n src &&
      (if (coexCfg s n).mode = 1 then (s.coexPort n).granted.isSome && (coexCfg s n).shared else (s.coexPort n).req))

end Sys2Proof.Machine
end

