-- ==== Sys2Proof/Machine/WidePhy.lean ====
section
/-! DEFINITION. The wide radios W1 and W2 at the PHY (chapter 4): channels, transmit power, detection, restart, capture, the ends of a
reception, radar. Radios are numbered 0 (W1) and 1 (W2). -/

namespace Sys2Proof.Machine

/-! ### Counters of Tables 4-19 and 5-14, by response offset -/

abbrev pRxPpdu : Nat := 20
abbrev pFalseDet : Nat := 24
abbrev pRestart : Nat := 28
abbrev pCaptured : Nat := 32
abbrev pSigErr : Nat := 36
abbrev pFormat : Nat := 40
abbrev pStreams : Nat := 44
abbrev pBlanked : Nat := 48
abbrev pCarrierLost : Nat := 52
abbrev pOtherBss : Nat := 56
abbrev pTxPpdu : Nat := 60
abbrev pTxLimited : Nat := 64
abbrev pTpcLimit : Nat := 68
abbrev pCcaBusy : Nat := 72
abbrev pRadar : Nat := 76
abbrev pShareHold : Nat := 80
abbrev pShareResp : Nat := 84
abbrev pFtmReq : Nat := 88
abbrev pFtmRefused : Nat := 92
abbrev pTmSent : Nat := 96

abbrev aOutBytes : Nat := 20
abbrev aInBytes : Nat := 28
abbrev aRxMpdu : Nat := 36
abbrev aFcs : Nat := 40
abbrev aClass3 : Nat := 44
abbrev aDup : Nat := 48
abbrev aNoKey : Nat := 52
abbrev aUnprot : Nat := 56
abbrev aMic : Nat := 60
abbrev aReorderLate : Nat := 64
abbrev aReplay : Nat := 68
abbrev aRxDrop : Nat := 72
abbrev aTxOk : Nat := 76
abbrev aTxRetry : Nat := 80
abbrev aTxLifetime : Nat := 84
abbrev aTxLate : Nat := 88
abbrev aPsExpired : Nat := 92
abbrev aPsDrop : Nat := 96
abbrev aPsEmpty : Nat := 100
abbrev aBcnSkip : Nat := 104
abbrev aUpBcnMiss : Nat := 108
abbrev aRespMiss : Nat := 112
abbrev aPlanReject : Nat := 116
abbrev aTbMiss : Nat := 120
abbrev aNoshow : Nat := 124
abbrev aSpShared : Nat := 128
abbrev aRelayFwd : Nat := 132
abbrev aRelayLoop : Nat := 136

/-- Radio `r`. -/
def State.wr (s : State) (r : Nat) : Radio := s.wide.radios.getD r {}
/-- Radio `r` changed. -/
def updWr (r : Nat) (f : Radio → Radio) (s : State) : State := { s with wide.radios := Bank.modify s.wide.radios r f }
/-- The source number of radio `r`. -/
def wideSrc (r : Nat) : Nat := 32 + r
/-- A PHY counter of radio `r` incremented. -/
def phyCount (r k : Nat) (s : State) : State := updWr r (fun x => { x with phyCounts := tally x.phyCounts k }) s
/-- An access counter of radio `r` incremented, and of BSS `b` where the event belongs to one. -/
def accCount (r : Nat) (b : Option Nat) (k : Nat) (s : State) : State :=
  updWr r (fun x => { x with counts := match b with
    | some i => tally (tally x.counts (256 * 255 + k)) (256 * i + k)
    | none => tally x.counts (256 * 255 + k) }) s
/-- A byte counter of radio `r` and BSS `b` (8 bytes wide) advanced. -/
def accBytes (r : Nat) (b : Option Nat) (k n : Nat) (s : State) : State :=
  let add (m : List (Nat × Nat)) (i : Nat) : List (Nat × Nat) := Map.modify m (256 * i + k) 0 (fun v => satAdd 64 v n)
  updWr r (fun x => { x with counts := match b with | some i => add (add x.counts 255) i | none => add x.counts 255 }) s

/-- Settings in force. -/
def chanCfg (s : State) (r : Nat) : WideChan := Map.getD s.kept.wide.chan r {}
def powerCfg (s : State) (r : Nat) : WidePower := Map.getD s.kept.wide.power r {}
def wrxCfg (s : State) (r : Nat) : WideRxCfg := Map.getD s.kept.wide.rx r {}
def ftmCfg (s : State) (r : Nat) : FtmCfg := Map.getD s.kept.wide.ftm r {}
def bssCfg (s : State) (r b : Nat) : Bss := Map.getD s.kept.wide.bss (8 * r + b) {}
def beaconCfg (s : State) (r : Nat) : BeaconCfg := Map.getD s.kept.wide.beacon r {}
def upCfg (s : State) (r : Nat) : Upstream := Map.getD s.kept.wide.upstream r {}
def accessCfg (s : State) (r : Nat) : AccessCfg := Map.getD s.kept.wide.access r {}

/-! ### Channels (R184, R185, R211) -/

/-- MHz of a WIDTH code (Table 4-14). -/
def widthMhz (w : Nat) : Nat := if w = 0 then 20 else if w = 1 then 40 else if w = 2 then 80 else if w = 3 then 160 else 320

/-- The channel that contains primary `n` at a width: low edge in MHz, 20 MHz subchannels, index of the primary; none where the band has no
such channel (R184). -/
def chanBlock (band n w : Nat) : Option (Nat × Nat × Nat) :=
  let k := widthMhz w / 20
  if band = 0 then
    if n < 1 ∨ n > 13 ∨ k > 2 then none
    else if k = 1 then some (2397 + 5 * n, 1, 0)
    else
      let above : Bool := if n < 5 then true else if n > 9 then false else Config.secondaryAbove n
      if above then some (2397 + 5 * n, 2, 0) else some (2377 + 5 * n, 2, 1)
  else if band = 1 ∨ band = 2 then
    let base := if band = 2 then 1 else if n < 100 then 36 else if n < 149 then 100 else 149
    let top := if band = 2 then 233 else if n < 100 then 64 else if n < 149 then 144 else 177
    if n < base ∨ n > top ∨ (n - base) % 4 ≠ 0 ∨ (band = 1 ∧ k > 8) then none
    else
      let i := (n - base) / 4
      let off := if w = 5 then 8 else 0
      if i < off then none
      else
        let first := i - (i - off) % k
        if base + 4 * (first + k - 1) > top then none
        else some ((if band = 1 then 5000 else 5950) + 5 * (base + 4 * first) - 10, k, i - first)
  else none

/-- Is `m` a run of `w` subchannels aligned to `w`, of `k`? -/
def alignedRun (m w k : Nat) : Bool := (List.range (k / w)).any (fun j => decide (m = (2 ^ w - 1) * 2 ^ (j * w)))

/-- PUNCTURE patterns for `k` subchannels with primary `p` (Table 4-14; PRESUMED, log entry 39: IEEE 802.11be): one 20 MHz of 80 MHz; one 20 or an
aligned 40 of 160 MHz; an aligned 40 or 80 of 320 MHz, or its lowest or highest 80 with an aligned 40. -/
def punctureOk (k m p : Nat) : Bool :=
  !hasBit m p && (decide (m = 0) ||
    (if k = 4 then alignedRun m 1 4
     else if k = 8 then alignedRun m 1 8 || alignedRun m 2 8
     else if k = 16 then
       alignedRun m 2 16 || alignedRun m 4 16 ||
         (List.range 8).any (fun j => decide (m = 15 + 3 * 4 ^ j ∧ 2 ≤ j) || decide (m = 15 * 2 ^ 12 + 3 * 4 ^ j ∧ j < 6))
     else false))

/-- The widest WIDTH of radio `r` while its mode caps it (R185). -/
def modeCapWidth (r : Nat) : Nat := if r = 0 then 3 else 2

/-- The operating width of a configured width in a mode (R185). -/
def capWidth (m : Mode) (r w : Nat) : Nat := if m = .lean ∨ m = .watch then min w (modeCapWidth r) else w

/-- The operating width of a configured width (R185). -/
def operWidth (s : State) (r w : Nat) : Nat := capWidth s.power.mode r w

/-- The operating channel: low edge, subchannels, primary's index, puncture bitmap inside it. -/
def operating (s : State) (r : Nat) : Option (Nat × Nat × Nat × Nat) :=
  let c := chanCfg s r
  match chanBlock c.band c.primary c.width, chanBlock c.band c.primary (operWidth s r c.width) with
  | some (l0, _, _), some (l1, k, p) => some (l1, k, p, c.puncture / 2 ^ ((l1 - l0) / 20) % 2 ^ k)
  | _, _ => none

/-- Does [lo, hi) MHz meet a radar range (R196)? -/
def radarRange (lo hi : Nat) : Bool := (decide (lo < 5350) && decide (5250 < hi)) || (decide (lo < 5725) && decide (5470 < hi))

/-- Does a channel setting meet a radar range? -/
def radarChan (c : WideChan) : Bool :=
  match chanBlock c.band c.primary c.width with
  | some (l, k, _) => radarRange l (l + 20 * k)
  | none => false

/-- The keys of the 20 MHz channels of a setting in the barred list (R197). -/
def chanKeys (c : WideChan) : List Nat :=
  match chanBlock c.band c.primary c.width with
  | some (l, k, _) => (List.range k).map (fun i => 256 * c.band + (l + 20 * i + 10 - 5000) / 5)
  | none => []

/-- Does the setting overlap a barred channel (R197)? -/
def chanBarred (s : State) (c : WideChan) : Bool :=
  decide (c.band = 1) && (chanKeys c).any (fun k => match Map.get? s.kept.wide.barred k with | some b => decide (s.beat < b) | none => false)

/-- Beats of the availability check that a setting needs (R197): none where it meets no radar range. -/
def cacBeats (s : State) (r : Nat) (c : WideChan) : Option Nat :=
  if !radarChan c then none
  else match chanBlock c.band c.primary c.width with
    | some (l, k, _) => some (if (powerCfg s r).regDomain = 1 ∧ l < 5650 ∧ 5600 < l + 20 * k then 600000 else 60000)
    | none => none

/-- The gap in MHz between the nearest edges of two settings (R211). -/
def chanGap (a b : WideChan) : Option Nat :=
  match chanBlock a.band a.primary a.width, chanBlock b.band b.primary b.width with
  | some (la, ka, _), some (lb, kb, _) => some (max (lb - (la + 20 * ka)) (la - (lb + 20 * kb)))
  | _, _ => none

/-- Both settings stand and keep 200 MHz between them. -/
def pairOk (a b : WideChan) : Bool := match chanGap a b with | some g => decide (g ≥ 200) | none => false

/-- The channels to which radio `r` is set or is to be set (R211). -/
def chanTargets (s : State) (r : Nat) : List WideChan :=
  chanCfg s r :: (match (s.wr r).move with | some m => [m.chan] | none => [])

/-- Do the two radios stand under the pairing rule: as one AP MLD, or as one non-AP MLD toward an upstream AP MLD (R211, R212)? -/
def pairRule (s : State) : Bool :=
  s.kept.wide.pair || s.next.wide.pair ||
    [0, 1].all (fun r => let u := Map.getD s.next.wide.upstream r {}; u.enable && u.mld)

/-! ### Chains and readiness (R189, R228) -/

/-- Are the radios open, in a mode in which they run, with a channel, for radio `r`? -/
def wideOn (s : State) (r : Nat) : Bool :=
  decide (r < 2) && dataPlane s && unitUp s (32 + r) && s.power.mode.serves && decide ((chanCfg s r).band ≠ 0xFF)

/-- Does radio `r` receive now? -/
def wideHears (s : State) (r : Nat) : Bool :=
  wideOn s r && decide ((s.wr r).chains ≠ 0) && synthReady s r && !blanked s (wideSrc r)

/-- The number of chains in a mask. -/
def chainCount (m : Nat) : Nat := (bitsSet 4 m).length

/-- The lowest-numbered chain of a mask. -/
def refChain (m : Nat) : Nat := (bitsSet 4 m).headD 0

/-- The reference chain of a PPDU that started at local instant `t` (R207): by the chain mask of the beat in which it started; a chain that only
a reception of the beat before keeps powered counts where the mask of that beat has none. -/
def refChainAt (s : State) (r t : Nat) : Nat :=
  let w := s.wr r
  let m := if s.time.mono - s.phase ≤ t then w.mask else w.oldMask
  refChain (if m = 0 then w.chains else m)

/-- Does the AP role of radio `r` stand? -/
def apOn (s : State) (r : Nat) : Bool := wideOn s r && (bssCfg s r 0).enable

/-- A reception or a response keeps chains powered over a beat boundary (R189). -/
def holdsChains (s : State) (r : Nat) : Bool :=
  decide ((s.wr r).rx ≠ .idle) || (s.wr r).responseAt.isSome || transmitting s (wideSrc r)

/-- The chains that only a reception kept powered are powered down once it and its response have ended (R189, R276). -/
def settleChains (r : Nat) (s : State) : State :=
  let w := s.wr r
  if holdsChains s r ∨ w.chains = w.mask then s
  else
    let s1 := updWr r (fun w => { w with chains := w.mask }) s
    if w.mask = 0 then dropLock r .standby s1 else s1

/-! ### Formats (R186, R187, Tables 4-3 and 4-4) -/

end Sys2Proof.Machine

namespace Sys2Proof

/-- HE and EHT formats; trigger-based formats. -/
def PhyMode.high (p : PhyMode) : Bool := decide (p.format = 3) || decide (p.format = 4) || (decide (6 ≤ p.format) && decide (p.format ≤ 9))
def PhyMode.triggered (p : PhyMode) : Bool := decide (p.format = 8) || decide (p.format = 9)
def PhyMode.eht (p : PhyMode) : Bool := decide (p.format = 4) || decide (p.format = 9)

/-- G_BF applies: a beamformed or MU-MIMO PPDU (R192). -/
def PhyMode.beamformed (p : PhyMode) : Bool := p.options.contains .beamformed || p.options.contains .muMimo

/-- The highest modulation of a PPDU as a row of Table 4-5 from 0. -/
def PhyMode.modulation (p : PhyMode) : Nat :=
  if p.format ≤ 1 ∨ p.format = 5 then 0
  else if p.mcs = 8 ∨ p.mcs = 9 then 1 else if p.mcs = 10 ∨ p.mcs = 11 then 2 else if p.mcs = 12 ∨ p.mcs = 13 then 3 else 0

/-- The bands and radios of a format. -/
def PhyMode.bandOk (p : PhyMode) (r band : Nat) : Bool :=
  if p.format = 5 then decide (r = 1) && decide (band = 0) else if p.format = 1 then decide (band ≠ 2)
  else if p.format = 2 then decide (band = 1) else true

/-- The MCS or rates of a format. -/
def PhyMode.mcsOk (p : PhyMode) (band : Nat) : Bool :=
  if p.format = 0 then decide (p.mcs ≤ 7) else if p.format = 1 then decide (p.mcs ≤ 31) else if p.format = 2 then decide (p.mcs ≤ 9)
  else if p.format = 5 then decide (p.mcs ≤ 3) else if p.format = 6 then decide (p.mcs ≤ 2)
  else if p.eht then decide (p.mcs ≤ 15) && (decide (p.mcs ≠ 14) || (decide (band = 2) && decide (Machine.widthMhz p.width ≥ 80)))
  else decide (p.mcs ≤ 11)

/-- The widest MHz of a format. -/
def PhyMode.widest (p : PhyMode) : Nat :=
  if p.format = 0 ∨ p.eht then 320 else if p.format = 1 then 40 else if p.format = 5 ∨ p.format = 6 then 20 else 160

/-- The streams of a format. -/
def PhyMode.nssOk (p : PhyMode) : Bool :=
  if p.format = 0 ∨ p.format = 5 then decide (p.nss = 1) else if p.format = 1 then decide (p.nss = p.mcs / 8 + 1) && decide (p.nss ≤ 4)
  else decide (1 ≤ p.nss) && decide (p.nss ≤ 4)

/-- The guard intervals and LTFs of a format. -/
def PhyMode.giOk (p : PhyMode) : Bool :=
  if p.format = 0 then decide (p.gi = 8) && decide (p.ltf = 0) else if p.format = 5 then decide (p.ltf = 0)
  else if p.format = 1 ∨ p.format = 2 then (decide (p.gi = 8) || decide (p.gi = 4)) && decide (p.ltf = 0)
  else [8, 16, 32].contains p.gi && (if p.eht then [2, 4].contains p.ltf else [1, 2, 4].contains p.ltf)

/-- The options of Table 4-4 that a format supports in a PPDU that is sent, or received: of STBC the 2 space-time streams from 1 stream, and receive;
of VHT MU-MIMO the beamformer's side. -/
def PhyMode.optionOk (p : PhyMode) (sent : Bool) : PhyOption → Bool
  | .ldpc => p.high || decide (p.format = 1) || decide (p.format = 2)
  | .stbc => decide (p.format = 1) && (!sent || decide (p.nss = 1))
  | .beamformed => p.high || decide (p.format = 1) || decide (p.format = 2)
  | .muMimo => p.high || (sent && decide (p.format = 2))
  | .dcm => p.high
  | .punctured => p.high
  | .multiRu => p.eht
  | .pbcc | .dsssOfdm | .greenfield | .unequalMod | .split80 | .srp | .midamble | .emlmr | .nstr | .txopSharing | .other => false

end Sys2Proof

namespace Sys2Proof.Machine

/-- Are the format and options of a PPDU that is sent, or received, supported on radio `r` in a band (R186, R187)? -/
def phyOk (s : State) (r band : Nat) (sent : Bool) (p : PhyMode) : Bool :=
  decide (p.format ≤ 9) && p.bandOk r band && p.mcsOk band && p.nssOk && decide (p.width ≤ 5) && decide (widthMhz p.width ≤ p.widest) && p.giOk &&
    p.options.all (p.optionOk sent) && !(decide (p.format = 1) && decide (p.width = 1) && decide (band = 0) && (s.wr r).forbid40)

/-! ### Transmit power (R191 to R194, R199), in 10^-6 dB -/

/-- 10 · log10 of a width in MHz and of a number of chains. -/
def logWidth (w : Nat) : Int :=
  if w = 0 then 13010300 else if w = 1 then 16020600 else if w = 2 then 19030900 else if w = 3 then 22041200 else 25051500
def logChains (n : Nat) : Int := if n ≤ 1 then 0 else if n = 2 then 3010300 else if n = 3 then 4771213 else 6020600

/-- The rate ceiling (Table 4-5). -/
def rateCeiling (modulation : Nat) : Int :=
  if modulation = 0 then 6000000 else if modulation = 1 then 3000000 else if modulation = 2 then 0 else -2000000

/-- The regulatory value of chain `c` with `n` chains transmitting at a width (R192). -/
def regulatory (g : WidePower) (c n w : Nat) (beamformed : Bool) : Int :=
  let eirp : Int := if g.maxPsd = 0x7FFF then g.maxEirp * 250000 else min (g.maxEirp * 250000) (g.maxPsd * 250000 + logWidth w)
  eirp - g.antGain * 250000 - (if beamformed then logChains n else 0) - logChains n - g.femGain.getD c 0 * 250000

/-- The OBSS-PD limit of chain `c` (R199): the sum over the chains, in equal parts. -/
def obssLimit (s : State) (r c n : Nat) : Option Int :=
  if (wrxCfg s r).obssEn ∧ (s.wr r).obssUntil > s.time.mono then
    some ((21 - ((wrxCfg s r).obssPd + 82)) * 1000000 - logChains n - (powerCfg s r).femGain.getD c 0 * 250000)
  else none

/-- The ball power of chain `c` in 0.25 dB units (R191, R194): the lowest of the values, rounded down, lowered by the closed loop, within the
setting range. -/
def ballPower (s : State) (r : Nat) (p : PhyMode) (power : Option Int) (n c : Nat) : Int :=
  let base := min (rateCeiling p.modulation) (regulatory (powerCfg s r) c n p.width p.beamformed)
  let p1 := match power with | some p => min base (p * 250000) | none => base
  let p2 := match obssLimit s r c n with | some l => min p1 l | none => p1
  let v := p2 / 250000
  let corr := if (powerCfg s r).closedLoop then min 0 ((s.wr r).tpc.getD c 0) else 0
  max (-120) (v + corr)

/-- Does a rate ceiling bind below the regulatory value on some chain (Table 4-19)? -/
def ceilingBinds (s : State) (r : Nat) (p : PhyMode) (power : Option Int) (chains : Nat) : Bool :=
  (chainsOf chains).any (fun c =>
    let ceil := rateCeiling p.modulation
    decide (ceil < regulatory (powerCfg s r) c (chainCount chains) p.width p.beamformed) &&
      (match power with | some p => decide (ceil ≤ p * 250000) | none => true))

/-- R193: some regulatory value of a 20 MHz PPDU on every chain of CHAIN_MAX lies below −30 dBm. -/
def powerTooLow (g : WidePower) (chainMax : Nat) : Bool :=
  (chainsOf chainMax).any (fun c => decide (regulatory g c (chainCount chainMax) 0 false < -30000000))

/-- R195: transmission in 6 GHz is stopped. -/
def grantHolds (s : State) (r : Nat) : Bool :=
  decide ((chanCfg s r).band = 2) &&
    ((s.wr r).grantStopped || ((powerCfg s r).grant && decide (s.beat ≥ (powerCfg s r).expiry)))

/-- In the availability check of its channel (R197). -/
def inCac (s : State) (r : Nat) : Bool := (s.wr r).move.any (fun m => m.cacEnd.isSome)

/-! ### Receiving (R198 to R206) -/

/-- The primary is busy over a span of local time (R198). -/
def busySpan (r t0 t1 : Nat) (s : State) : State :=
  updWr r (fun x => { x with busy := x.busy ++ [(t0, t1)], busyUntil := max x.busyUntil t1 }) s

/-- A reception or acquisition ends: the receiver goes on to the acquisition behind it, or is idle. -/
def rxIdle (r : Nat) (s : State) : State := updWr r (fun x => { x with rx := x.rxNext, rxNext := .idle }) s

/-- A PPDU ends with an outcome of Table 4-8; it leaves a descriptor only while PHY_MONITOR is set (R205). -/
def endPpdu (r outcome counter : Nat) (s : State) : State :=
  let s1 := rxIdle r (phyCount r counter s)
  if (wrxCfg s r).monitor then emit (.frame (wideSrc r) 40 [outcome]) s1 else s1

/-- The L-SIG of an acquisition, or its SFD, has ended by local instant `t`. -/
def pastLsig (lsig : Option (Nat × Nat)) (t : Nat) : Bool := match lsig with | some (e, _) => decide (e ≤ t) | none => false

/-- The instant at which an acquisition that does not decode its L-SIG or SFD is abandoned (R200). -/
def acqLimit (at' : Nat) (dsss : Bool) : Nat := at' + (if dsss then 160000 else 24000)

/-- A blank of the receivers of radio `r` begins at local instant `from'`, now or at the start of the front-end sequence that leads up to now (R206):
a reception past L-SIG ends BLANKED and its medium stays busy for the L-SIG duration, an acquisition is dropped, and what was detected after the
blank began was not received. -/
def blankWide (r from' : Nat) (s : State) : State :=
  let s1 := updWr r (fun x => { x with rxNext := .idle }) s
  match (s1.wr r).rx with
  | .idle => s1
  | .acquiring t _ _ _ l _ =>
    if from' ≤ t then rxIdle r s1
    else if pastLsig l from' then endPpdu r 5 pBlanked (busySpan r t ((l.getD (0, 0)).2) s1)
    else rxIdle r (busySpan r t from' s1)
  | .receiving _ _ _ _ _ _ => endPpdu r 5 pBlanked s1

/-- The threshold at which a valid preamble makes the primary busy (R198). -/
def preambleThreshold (s : State) (r : Nat) (dsss : Bool) : Int := (wrxCfg s r).pd + (if dsss then 6 else 0)

/-- Is subchannel `i` of the operating channel busy (Table 4-7)? A punctured one is not sensed. -/
def subBusy (s : State) (r : Nat) (cca : List (Int × Option Int)) (i : Nat) : Bool :=
  match operating s r, cca[i]? with
  | some (_, k, p, punct), some (energy, preamble) =>
    decide (i < k) && !hasBit punct i &&
      (decide (energy ≥ (wrxCfg s r).ed) ||
        preamble.any (fun x => decide (x ≥ (wrxCfg s r).pd + (if i = p then 0 else 10))))
  | _, _ => false

/-- The busy subchannels as a mask. -/
def busySubs (s : State) (r : Nat) (cca : List (Int × Option Int)) : Nat := maskOf ((List.range 16).filter (subBusy s r cca))

/-- The CCA state of radio `r` as last sensed (R198): the busy subchannels, and the primary's busy time by energy, which runs from the sensing that
finds it busy to the one that finds it idle (DEDUCED, log entry 107). -/
def senseMedium (r : Nat) (cca : List (Int × Option Int)) (s : State) : State :=
  let m := busySubs s r cca
  let now := s.time.mono
  let busy : Bool := match operating s r with | some (_, _, p, _) => hasBit m p | none => false
  updWr r (fun w => match w.edFrom with
    | some t => if busy then { w with cca := m } else { w with cca := m, busy := w.busy ++ [(t, now)], idleFrom := max w.idleFrom now, edFrom := none }
    | none => { w with cca := m, edFrom := if busy then some now else none }) s

/-- The subchannels of the operating channel that a PPDU of a width covers: the aligned block that holds the primary. -/
def coveredSubs (s : State) (r w : Nat) : List Nat :=
  match operating s r with
  | some (_, k, p, _) => let n := min k (widthMhz w / 20); (List.range n).map (fun i => p - p % n + i)
  | none => []

/-- Variant of a chain delay: results per band and width (R586). -/
def delayVariant (s : State) (r width : Nat) : Nat := 8 * (chanCfg s r).band + width

/-- The receive stamps of a PPDU whose preamble began at local instant `st`, one for each WIDTH that its SIG fields may turn out to give, as delays,
compensation and epoch stand now, at its detection (R58, R207). -/
def rxStamps (s : State) (r st : Nat) : List (Stamp × Bool) :=
  let ref := refChainAt s r st
  (List.range 6).map (fun w => (ingressStamp (wideSrc r) ref (delayVariant s r w) (s.time.mono - st) s, chainStale s (wideSrc r) ref (delayVariant s r w)))

/-- The exchange whose trigger frame solicits TB PPDUs: a trigger for uplink data, MU-BAR, BFRP (R203). -/
def solicits (kind : Nat) : Bool := decide (kind = 5) || decide (kind = 6) || decide (kind = 7)

/-- The radio awaits the TB PPDUs that its own trigger frame solicited: what it receives counts as one of them until its SIG fields say otherwise
(DEDUCED, log entry 106). -/
def awaitsTb (s : State) (r : Nat) : Bool := (s.wr r).exchange.any (fun e => solicits e.air.kind && decide (e.phase = 1))

/-- WIDE_DETECT, with restart and capture (R200 to R203): `start` is the local instant of the preamble's start; `lsig`, where its L-SIG or SFD is
decoded, the instants of its end and of the end of its duration. A detection in the symbol that ends L-SIG is judged as one after it. -/
def wideDetect (r : Nat) (strength : Int) (start : Nat) (dsss : Bool) (lsig : Option (Nat × Nat)) (s : State) : State :=
  let g := wrxCfg s r
  let now := s.time.mono
  let fresh : WideRxPhase := .acquiring now strength start dsss (lsig.filter (fun x => decide (x.1 ≤ acqLimit now dsss))) (rxStamps s r start)
  let put (s : State) : State := updWr r (fun x => { x with rx := fresh }) s
  if !wideHears s r ∨ strength < preambleThreshold s r dsss ∨ (dsss ∧ (chanCfg s r).band ≠ 0) then s
  else match (s.wr r).rx with
    | .idle => put s
    | .acquiring t p st d l _ =>
      if dsss then s
      else if pastLsig l (now + (if d then 0 else 4000)) then
        if g.captureEn ∧ !awaitsTb s r ∧ strength ≥ p + g.capture then put (endPpdu r 4 pCaptured (busySpan r t now s)) else s
      else if strength ≥ p + g.restart ∧ (st > start + 100 ∨ start > st + 100) then
        put (phyCount r pRestart (busySpan r t now s))
      else s
    | .receiving p _ _ solicited endAt lastSymbol =>
      if dsss ∨ solicited ∨ !g.captureEn ∨ strength < p + g.capture then s
      else if now ≥ lastSymbol then updWr r (fun x => { x with rxNext := fresh }) s
      else
        let s1 := endPpdu r 4 pCaptured s
        put (updWr r (fun x => { x with busyUntil := if x.busyUntil = endAt then now else x.busyUntil }) s1)

/-- WIDE_ACQ_ABANDON (R200): the L-SIG or SFD was not decoded in time. -/
def wideAbandon (r : Nat) (s : State) : State :=
  match (s.wr r).rx with
  | .acquiring t _ _ d none _ =>
    let lim := acqLimit t d
    settleChains r (rxIdle r (phyCount r pFalseDet (busySpan r t lim (advanceMono lim s))))
  | _ => s

/-- Does a BSS colour match neither a BSS of the radio nor its upstream BSS (R199)? -/
def otherBss (s : State) (r : Nat) (x : SigFacts) : Bool :=
  x.phy.high && x.colour.any (fun k =>
    !(List.range 8).any (fun b => (bssCfg s r b).enable && decide ((bssCfg s r b).colour = k)) && decide ((s.wr r).upLink.isNone ∨ (s.wr r).upColour ≠ some k))

/-- WIDE_SIG_END (R190, R199, R204, R205): the SIG fields have ended behind an L-SIG that was decoded. -/
def wideSigEnd (r : Nat) (x : SigFacts) (s : State) : State :=
  match (s.wr r).rx with
  | .acquiring t p _ _ (some (e, fin)) stamps =>
    let now := s.time.mono
    if now < e then s
    else
      let s1 := busySpan r t now s
      let held (s : State) : State := busySpan r now fin s
      if !x.sigOk then settleChains r (endPpdu r 1 pSigErr (held s1))
      else if !phyOk s r (chanCfg s r).band false x.phy ∨ widthMhz x.phy.width > widthMhz (operWidth s r (chanCfg s r).width) then
        settleChains r (endPpdu r 2 pFormat (held s1))
      else if x.phy.nss > chainCount (s.wr r).chains then settleChains r (endPpdu r 3 pStreams (held s1))
      else if (wrxCfg s r).obssEn ∧ otherBss s r x ∧ p < (wrxCfg s r).obssPd then
        settleChains r (endPpdu r 7 pOtherBss (updWr r (fun w => { w with obssUntil := max w.obssUntil fin }) s1))
      else
        let stamp := stamps.getD x.phy.width ({}, false)
        let own : Bool := x.phy.triggered && awaitsTb s r
        updWr r (fun w => { w with rxDsss := decide (x.phy.format = 5), rx := .receiving p stamp.1 stamp.2 own fin (fin - x.symbol) }) (held s1)
  | _ => s

/-- WIDE_CARRIER_LOST (R204): the primary stays busy for the L-SIG duration. -/
def wideCarrierLost (r : Nat) (s : State) : State :=
  match (s.wr r).rx with
  | .receiving _ _ _ _ _ _ => settleChains r (endPpdu r 6 pCarrierLost s)
  | _ => s

/-! ### Radar (R196, R197) -/

/-- RADAR_PULSE: reported to the Steward. -/
def radarPulse (r : Nat) (s : State) : State :=
  match operating s r with
  | some (l, k, _, _) =>
    if wideHears s r ∧ radarRange l (l + 20 * k) then emit (.toSteward 33 (24 + r) 0) (phyCount r pRadar s) else s
  | none => s

end Sys2Proof.Machine
end

