-- ==== Sys2Proof/Machine/FieldTx.lean ====
section
/-! DEFINITION. The field radio, transmitting: channel access, acknowledgement waits, completion, frame counters, blanking (chapter 3). -/

namespace Sys2Proof.Machine

/-! ### Counters of Table 3-22, by response offset -/

abbrev fRxOk : Nat := 24
abbrev fFalseDet : Nat := 28
abbrev fRestart : Nat := 32
abbrev fCaptured : Nat := 36
abbrev fBlanked : Nat := 40
abbrev fSyncLost : Nat := 44
abbrev fPhrErr : Nat := 48
abbrev fFcsErr : Nat := 52
abbrev fFiltered : Nat := 56
abbrev fUnsupp : Nat := 60
abbrev fDup : Nat := 64
abbrev fNoKey : Nat := 68
abbrev fSecLevel : Nat := 72
abbrev fReplay : Nat := 76
abbrev fMic : Nat := 80
abbrev fAckSent : Nat := 84
abbrev fAckMissed : Nat := 88
abbrev fPoll : Nat := 92
abbrev fPollPend : Nat := 96
abbrev fEmptyPend : Nat := 100
abbrev fTxOk : Nat := 104
abbrev fTxNoAck : Nat := 108
abbrev fTxBusy : Nat := 112
abbrev fTxLate : Nat := 116
abbrev fExpired : Nat := 120
abbrev fFcExhaust : Nat := 128
abbrev fOrphanPush : Nat := 132
abbrev fRdvMiss : Nat := 136
abbrev fRdvLost : Nat := 140

/-! ### Channels and records. A channel is keyed 11 to 26 on F24 and 100 + k on FSG -/

/-- The chain of a channel: 0 F24, 1 FSG. -/
def chainOf (ch : Nat) : Nat := if ch ≥ 100 then 1 else 0
/-- The source number of a chain. -/
def fieldSource (chain : Nat) : Nat := 34 + chain
/-- The key of channel `k` of a band. -/
def chanKey (band k : Nat) : Nat := if band = 0 then k else 100 + k
/-- A symbol period in ns (Table 3-1). -/
def symNs (ch : Nat) : Nat := if ch = 100 then 40000 else 16000
/-- FIELD_CONFIG in force. -/
def fcfg (s : State) : FieldConfig := s.kept.field.config
/-- A child record. -/
def childRec (s : State) (c : Nat) : Option Child := Map.get? s.kept.field.children c
/-- A child's running state. -/
def childRun (s : State) (c : Nat) : ChildRun := Map.getD s.field.run c {}
/-- A child's running state changed. -/
def updRun (c : Nat) (f : ChildRun → ChildRun) (s : State) : State := { s with field.run := Map.set s.field.run c (f (childRun s c)) }
/-- Time gone by, the time in Dormant included. -/
def elapsed (s : State) : Nat := s.time.mono + s.power.dormantNs
/-- A chain. -/
def State.fchain (s : State) (k : Nat) : FieldChain := s.field.chains.getD k {}
/-- A chain changed. -/
def updFchain (k : Nat) (f : FieldChain → FieldChain) (s : State) : State := { s with field.chains := Bank.modify s.field.chains k f }
/-- Is a chain enabled? -/
def bandOn (s : State) (chain : Nat) : Bool := unitUp s (34 + chain) && (if chain = 0 then (fcfg s).f24 else (fcfg s).fsg)

/-- A field counter: band scope, channel scope where it has one, child scope where it has one. -/
def fieldCount (ch k : Nat) (child : Option Nat) (s : State) : State :=
  let c1 := tally s.field.counts (256 * chainOf ch + k)
  let c2 := if ch < 100 ∧ (k ≤ 64 ∨ k = 84 ∨ k = 88) then tally c1 (256 * ch + k) else c1
  let s1 := { s with field.counts := c2 }
  match child with
  | some c => updRun c (fun r => { r with counts := tally r.counts k }) s1
  | none => s1

/-- A restart that did not stand (R144) is not counted; a counter at its maximum stays there (R19). -/
def uncountRestart (ch : Nat) (s : State) : State :=
  let less (k : Nat) (m : List (Nat × Nat)) : List (Nat × Nat) := if tallyOf m k = 2 ^ 32 - 1 then m else Map.set m k (tallyOf m k - 1)
  let c1 := less (256 * chainOf ch + fRestart) s.field.counts
  { s with field.counts := if ch < 100 then less (256 * ch + fRestart) c1 else c1 }

/-- MAC service data bytes delivered to or from an endpoint, a field child, in all and for the child (R1, R2, Table 0-2). -/
def fieldBytes (out : Bool) (child : Option Nat) (n : Nat) (s : State) : State :=
  match child with
  | some c =>
    let s1 := if out then { s with field.outBytes := satAdd 64 s.field.outBytes n } else { s with field.inBytes := satAdd 64 s.field.inBytes n }
    updRun c (fun r => if out then { r with outBytes := satAdd 64 r.outBytes n } else { r with inBytes := satAdd 64 r.inBytes n }) s1
  | none => s

/-- The child that a queue belongs to. -/
def queueChild (q : Nat) : Option Nat := if childQueue q then some (q - 0x2000) else none

/-- A Doze listen beat (R173). -/
def listenNow (s : State) : Bool := decide (s.beat % max 1 (fcfg s).dozePeriod < (fcfg s).dozeListen)

/-- The field radio runs: the radios are open, not in Dormant or Recovery. -/
def fieldUp (s : State) : Bool := dataPlane s

/-- The field radio is on its safe plan (R155). -/
def fieldSafe (s : State) (chain : Nat) : Bool := (s.unit (fieldSource chain)).safe

/-! ### Keys and outgoing counters (R168, R171, R172) -/

/-- A field key entry. -/
def fieldKey (s : State) (k : Nat) : Option KeyEntry := Map.get? s.kept.wide.fieldKeys k

/-- Counter `n` put in place of `old`; a counter that a command has loaded and that is not in force yet stands. -/
def advanceKey (k old n : Nat) (m : List (Nat × KeyEntry)) : List (Nat × KeyEntry) :=
  match Map.get? m k with
  | some e => if e.txPn = old then Map.set m k { e with txPn := n } else m
  | none => m

/-- The next outgoing counter of key `k`: none where the frame would need 0xFFFF_FFFF. FIELD_FC_LOW once above 0xFFF0_0000; a flash copy is
due 2^19 after the newest one. -/
def nextCounter (ch k : Nat) (s : State) : Option Nat × State :=
  match fieldKey s k with
  | none => (none, s)
  | some e =>
    let n := e.txPn + 1
    if n ≥ 0xFFFFFFFF then (none, s)
    else
      let s1 := setKept (fun x => { x with wide.fieldKeys := advanceKey k e.txPn n x.wide.fieldKeys }) s
      let s2 := if n - Map.getD s1.field.fcCopied k 0 ≥ 2 ^ 19 then { s1 with stw.saveNow := true } else s1
      let s3 := if n > 0xFFF00000 ∧ !s2.field.fcLow.contains k then
          raise (fieldSource (chainOf ch)) 0x0602 (le 2 k ++ le 4 n) { s2 with field.fcLow := k :: s2.field.fcLow, field.fcLowStk := true }
        else s2
      (some n, s3)

/-! ### Completion (R159) -/

/-- The counter of a status of Table 3-9. -/
def statusCounter (st : Nat) : Nat :=
  if st = 0 then fTxOk else if st = 1 then fTxNoAck else if st = 2 then fTxBusy else if st = 3 then fTxLate
  else if st = 4 then fExpired else if st = 5 then fFcExhaust else 0

/-- A key's outgoing counter is exhausted: counted and told (R171). -/
def exhausted (ch : Nat) (key : Option Nat) (s : State) : State :=
  raise (fieldSource (chainOf ch)) 0x0603 (le 2 (key.getD 0xFFFF)) (fieldCount ch fFcExhaust none s)

/-- A field transmission to `child` completes with a status of Table 3-9. -/
def fieldDone (ch st : Nat) (child : Option Nat) (m : FieldTx) (s : State) : State :=
  let s1 := if st = 5 then exhausted ch m.key s
    else if statusCounter st ≠ 0 then fieldCount ch (statusCounter st) (if st = 3 then none else child) s else s
  let s2 := if st = 0 ∧ m.orphan then fieldCount ch fOrphanPush none s1 else s1
  let s3 := if st = 0 then fieldBytes true child m.payload s2 else s2
  emit (.frame (fieldSource (chainOf ch)) 20 [m.id, st]) s3

/-- FIELD_TX_COMPLETE: a frame of queue `q` completes with a status; its storage is given back. -/
def completeField (ch q st : Nat) (f : Queued) (m : FieldTx) (s : State) : State := fieldDone ch st (queueChild q) m (leave 26 f s)

/-- The frame in access on a chain, where it was taken off its queue (false: it answers a poll and stays at the head). -/
def FieldAccess.taken (a : FieldAccess) : Bool := a.limit.isNone

/-- The same frame of a queue, whatever tag it has come to. -/
def sameFrame (f g : Queued) : Bool := decide (f.payload = g.payload) && decide (f.enqBeat = g.enqBeat) && decide (f.charge = g.charge)

/-- Frame `f` leaves queue `q`; a new head is tagged. -/
def dropFrame (q : Nat) (f : Queued) (s : State) : State := tagHead q (updQueue q (fun p => { p with frames := p.frames.eraseP (sameFrame f) }) s)

/-- Frame `f` of queue `q` is now `g`, where it stood. -/
def swapFrame (q : Nat) (f g : Queued) (s : State) : State :=
  updQueue q (fun p => match p.frames.findIdx? (sameFrame f) with
    | some i => { p with frames := p.frames.set i g }
    | none => p) s

/-- The access slot of a chain is given up: a frame that was put off goes on with its back-off. -/
def clearAccess (chain : Nat) (s : State) : State :=
  updFchain chain (fun c => { c with access := c.parked.map (fun a => { a with stage := 0 }), parked := none }) s

/-- The access of a chain ends with a status. -/
def endAccess (chain st : Nat) (s : State) : State :=
  match (s.fchain chain).access with
  | none => s
  | some a =>
    let ch := chanKey a.item.band a.item.channel
    let s1 := clearAccess chain s
    match a.queued with
    | none => fieldDone ch st (queueChild a.queue) a.item s1
    | some f => completeField ch a.queue st f a.item (if a.taken then s1 else watchPend a.queue (dropFrame a.queue f) s1)

/-- A frame goes back, with no completion, to the place it has in its queue: the head, for one that was taken off, its tag unchanged (R320). The
sends that it has had stay counted. -/
def returnFrame (a : FieldAccess) (s : State) : State :=
  match a.queued with
  | none => s
  | some f =>
    if a.taken then watchPend a.queue (returnHead a.queue { f with payload := .field { a.item with sends := a.retries } }) s
    else swapFrame a.queue f { f with payload := .field a.item, charged := true } s

/-- The access of a chain ends with no completion. -/
def returnAccess (chain : Nat) (s : State) : State :=
  match (s.fchain chain).access with
  | none => s
  | some a => returnFrame a (clearAccess chain s)

/-- May a frame in access go on (R155, R173)? An answer to a poll always; another frame neither on the safe plan nor in Doze outside listen
beats. -/
def mayAccess (s : State) (chain : Nat) (a : FieldAccess) : Bool :=
  !a.taken || (!fieldSafe s chain && (decide (s.power.mode ≠ .doze) || listenNow s))

/-! ### Blanking and cutting -/

/-- Monitor delivery is on for a channel (R148). -/
def monitored (s : State) (ch : Nat) : Bool := if ch ≥ 100 then (fcfg s).fsgMonitor else hasBit (fcfg s).monitorMask (ch - 11)

/-- What a wait for an acknowledgement does when the reception that held it open ends without one: retry, or NO_ACK (R156, R163). `slots`
is the back-off drawn. -/
def noAck (chain slots : Nat) (s : State) : State :=
  match (s.fchain chain).access with
  | none => s
  | some a =>
    if !a.taken then
      let n := a.item.sends + 1
      let s1 := updFchain chain (fun c => { c with access := some { a with item := { a.item with sends := n } } }) s
      if a.queued.isNone ∨ n > (fcfg s).maxRetries then endAccess chain 1 s1 else returnAccess chain s1
    else if a.retries ≥ (fcfg s).maxRetries then endAccess chain 1 s
    else
      let be := (fcfg s).minBe
      let unit := 20 * symNs (chanKey a.item.band a.item.channel)
      let a1 := { a with retries := a.retries + 1, nb := 0, be := be, stage := 0, due := s.time.mono + slots % 2 ^ be * unit }
      let s1 := updFchain chain (fun c => { c with access := some a1 }) s
      if !mayAccess s chain a then returnAccess chain s1 else if chain = 0 then startRetune 3 s1 else s1

/-- A wait that only a reception on `ch` held open ends: no acknowledgement came of it. The back-off of the retry is drawn. -/
def waitOver (ch : Nat) (s : State) : State :=
  let k := chainOf ch
  match (s.fchain k).access with
  | some a =>
    if a.stage = 5 ∧ chanKey a.item.band a.item.channel = ch then
      let (slots, s1) := draw s
      noAck k slots s1
    else s
  | none => s

/-- What a channel's detector holds. -/
def State.rxOf (s : State) (ch : Nat) : RxPhase := Map.getD s.field.rx ch .idle
/-- A channel's detector set. -/
def setRx (ch : Nat) (x : RxPhase) (s : State) : State := { s with field.rx := Map.set s.field.rx ch x }

/-- A stamp and its CAL_STALE as a descriptor gives them. -/
def stampNats (st : Stamp) (stale : Bool) : List Nat := [st.frac, st.ns, st.epoch, bit stale]

/-- Table 3-7 but for ACKINFO. -/
def fieldInfo (ch st : Nat) (rssi : Int) (corrQ : Nat) (child : Option Nat) (sec : Nat) : List Byte :=
  le 1 st ++ le 1 (if ch ≥ 100 then ch - 100 else ch) ++ leInt 1 rssi ++ le 1 corrQ ++ le 2 (child.getD 0xFFFF) ++ le 1 sec

/-- What the channel does once reception `r` has ended: the search that a detection in its last symbol began (R145), or nothing. -/
def afterRx (r : Reception) : RxPhase :=
  match r.next with
  | some p => .acquiring p none none
  | none => .idle

/-- The next descriptor of a host ring as the device reads it for a frame that no command brings to its end: a free value (log entry 86). -/
def freeDesc (s : State) : RxDesc × State :=
  let (b, s1) := drawBit s
  let (a, s2) := draw s1
  ({ own := b, addr := a % 2 ^ 64 }, s2)

/-- A reception cut short is delivered to the monitor ring (Tables 3-6, 9-6): its sender is not known, its length is what the PHR said. -/
def monitorCut (ch st : Nat) (r : Reception) (s : State) : State :=
  let len := (r.fin - r.at') / (2 * symNs ch) - 1
  let (d, s1) := freeDesc s
  (ringDeliver 10 { payload := .field { len := len }, charge := len, ingress := 26, rxStamp := r.stamp, calStale := r.stale } 0 2 len false
    (fieldInfo ch st r.rssi r.corrQ none 0 ++ [0]) [d] s1).1

/-- A reception past its SFD ends with a status, delivered to the monitor only, of a frame that is not complete. -/
def endReception (ch st counter : Nat) (s : State) : State :=
  match s.rxOf ch with
  | .receiving r =>
    let s1 := fieldCount ch counter none (setRx ch (afterRx r) s)
    waitOver ch (if monitored s1 ch then monitorCut ch st r s1 else s1)
  | _ => s

/-- A blank of one channel from local instant `from'` on (R158): an acquisition is dropped and counted, a reception ends BLANKED; what was
detected within the blank was not received, and a frame whose SFD ended within it was still an acquisition when it began. -/
def blankChannel (from' ch : Nat) (s : State) : State :=
  match s.rxOf ch with
  | .idle => s
  | .acquiring p _ _ => if p.at' < from' then fieldCount ch fBlanked none (setRx ch .idle s) else setRx ch .idle s
  | .receiving r =>
    if r.at' < from' then endReception ch 5 fBlanked (setRx ch (.receiving { r with next := none }) s)
    else waitOver ch (fieldCount ch fBlanked none (setRx ch .idle s))

/-- A blank of every channel of a chain from local instant `from'` on (R158, R300): now, or the start of the front-end sequence that leads up to
now. -/
def blankChain (chain from' : Nat) (s : State) : State :=
  s.field.rx.foldl (fun s x => if chainOf x.1 = chain then blankChannel from' x.1 s else s) s

/-! ### Starting a frame -/

/-- The duration of a PSDU of `len` bytes on a channel, in ns. -/
def fieldNs (ch len : Nat) : Nat := (6 + len) * 2 * symNs ch

/-- A field transmission of `dur` ns starts now: pins, blank of the chain from the start of the front-end sequence until 10 µs after its last
chip; F24 blanks W2 in 2.4 GHz as well (R158, R214). -/
def startField (chain kind dur : Nat) (s : State) : State :=
  let src := fieldSource chain
  let from' := s.time.mono - leadNs s src 1
  let s1 := startRadio src kind 1 dur (blankChain chain from' s)
  let s2 := blankTo src (s1.time.mono + dur + 10000) s1
  if chain = 0 ∧ shares24 s then settleChains 1 (blankTo 33 (s2.time.mono + dur + 10000) (blankWide 1 from' s2)) else s2

/-- The frame to a joining child: unsecured while its KEY_IDX is 0xFFFF, else at MIN_SEC_LEVEL with that key (R181). -/
def asJoining (s : State) (q : Nat) (m : FieldTx) : FieldTx :=
  match queueChild q with
  | some c =>
    match childRec s c with
    | some r => if !r.joining then m else if r.keyIdx = 0xFFFF then { m with secLevel := 0, key := none } else { m with secLevel := r.minSec, key := some r.keyIdx }
    | none => m
  | none => m

/-- The frame that answers a poll from queue `q`: the first that is not held (R161, R164). -/
def firstFree (s : State) (q : Nat) : Option Queued := (s.queue q).frames.find? (fun f => !f.held)

/-- A data frame with an empty payload, AR 0, to the child of queue `q` (R164). Its PSDU of 11 bytes and its DSN of 0 are the model's (DESIGN CHOICE,
log entry 99). -/
def emptyFrame (q band channel : Nat) : FieldTx := { id := q, len := 11, ar := false, child := queueChild q, band := band, channel := channel }

/-- The bytes that CCM* at a level adds to a frame under key identifier mode 0: auxiliary security header and MIC. -/
def sealBytes (level : Nat) : Nat := if level = 0 then 0 else 5 + (if level % 4 = 0 then 0 else if level % 4 = 1 then 4 else if level % 4 = 2 then 8 else 16)

/-- The empty frame as it is sent: to a joining child that has a key, secured with it (R181). -/
def emptyAnswer (s : State) (q band channel : Nat) : FieldTx :=
  let m := asJoining s q (emptyFrame q band channel)
  { m with len := m.len + sealBytes m.secLevel }

/-- The frame that an access would send now. -/
def accessItem (s : State) (a : FieldAccess) : FieldTx :=
  if a.taken then asJoining s a.queue a.item
  else match firstFree s a.queue with
    | some f => (match f.payload with
      | .field m => asJoining s a.queue { m with band := a.item.band, channel := a.item.channel }
      | .eth _ => emptyAnswer s a.queue a.item.band a.item.channel)
    | none => emptyAnswer s a.queue a.item.band a.item.channel

/-- How long the answer to a poll would take if it were sent now. -/
def answerNs (s : State) (p : PollAnswer) : Nat :=
  fieldNs p.channel ((((firstFree s (0x2000 + p.child)).bind (fun f => match f.payload with | .field m => some m.len | .eth _ => none))).getD 11)

/-- An acknowledgement stands committed from the last chip of the frame that it answers on (R215). -/
def AckDue.since (k : AckDue) : Nat := k.lastChip

/-- PSDU bytes of a RENDEZVOUS message with short addresses, unsecured (Table 3-13; PRESUMED, log entry 78: IEEE 802.15.4-2020). -/
def rdvBytes : Nat := 32

/-- How long a rendezvous frame takes. -/
def rdvNs (g : Rdv) : Nat := fieldNs (chanKey g.band g.channel) rdvBytes

/-- An access takes the frame that it sends: an answer to a poll is charged to its class as it is taken (R320). -/
def claimFrame (a : FieldAccess) (s : State) : FieldAccess × State :=
  let a1 := { a with item := accessItem s a }
  if a.taken then (a1, s)
  else match firstFree s a.queue with
    | none => (a1, s)
    | some f =>
      (match f.payload with
       | .eth _ => (a1, s)
       | .field _ =>
         let key := classKey 26 (queueClass s a.queue)
         ({ a1 with queued := some f }, planCount 26 cSelect (if f.charged then s else chargeClass key (f.tag.getD 0) f.charge s)))

/-- The transmit power of a chain (R135, Table 3-17), as a byte. -/
def fieldPower (s : State) (chain : Nat) : Nat := unsignedOf 8 (if chain = 0 then (fcfg s).txpwr24 else (fcfg s).txpwrSg)

/-- What the CCM* protection of an outgoing frame uses (R168): level, key entry, frame counter; the nonce holds the device's extended address. -/
def sealNats (level : Nat) (key fc : Option Nat) : List Nat := [level, if level = 0 then 0xFFFF else key.getD 0xFFFF, fc.getD 0]

/-- The frame in access on a chain, its counter assigned, goes on the air. -/
def launchField (chain : Nat) (a : FieldAccess) (s : State) : State :=
  let src := fieldSource chain
  let m := a.item
  let ch := chanKey m.band m.channel
  let dur := fieldNs ch m.len
  let more : Bool := !a.taken && decide (((s.queue a.queue).frames.filter (fun f => !f.held)).length > 1)
  let stamp := m.stamp.map (fun _ => (egressStamp src 0 0 0 s, stampFlags src 0 0 s))
  let s1 := startField chain (if m.instant.isSome then 2 else 0) dur s
  let a1 := { a with stage := 2, due := s.time.mono + dur, lastChip := s.time.mono + dur, stamp := stamp }
  let s2 := updFchain chain (fun c => { c with access := some a1 }) s1
  if !a.taken ∧ a.queued.isNone then
    emit (.frame src 15 ([ch, (queueChild a.queue).getD 0xFFFF, fieldPower s chain] ++ sealNats m.secLevel m.key m.fc))
      (fieldCount ch fEmptyPend (queueChild a.queue) s2)
  else emit (.frame src 2 ([m.id, ch, m.len, m.dsn, bit m.ar, bit more, fieldPower s chain] ++ sealNats m.secLevel m.key m.fc ++ m.body.map (·.toNat))) s2

/-- The frame in access on a chain starts (R156, R162, R164, R171): its counter is assigned at its first transmission. One that may not go on, or
an answer past its limit, goes back. -/
def sendAccess (chain : Nat) (s : State) : State :=
  match (s.fchain chain).access with
  | none => s
  | some a =>
    if !mayAccess s chain a ∨ a.limit.any (fun t => decide (t < s.time.mono)) then returnAccess chain s
    else
      let (b, s1) := claimFrame a s
      let s2 := updFchain chain (fun c => { c with access := some b }) s1
      let m := b.item
      if m.secLevel = 0 then launchField chain b s2
      else match m.key with
        | none => endAccess chain 7 s2
        | some k =>
          if (fieldKey s k).isNone then endAccess chain 7 s2
          else match m.fc with
            | some _ => launchField chain b s2
            | none =>
              match nextCounter (chanKey m.band m.channel) k s2 with
              | (some n, s3) => launchField chain { b with item := { m with fc := some n } } s3
              | (none, s3) => endAccess chain 5 s3

/-- May the first chip of a device-initiated frame of radio `src` leave now (R34, R51, R154)? Not in the commit window, behind 950 µs, in a settling
interval, or while a job of the radio overruns. -/
def chipWindow (s : State) (src : Nat) : Bool :=
  decide (20000 ≤ s.phase) && decide (s.phase ≤ 950000) && !s.time.settling && !s.overrunning src

/-- The frame in access starts now, or waits for an obstruction to end (R279, R280), a span that W2 has committed among them (R215). One that comes
to start outside the window of R154 is put off to another CCA, which is no back-off. -/
def tryAccess (chain : Nat) (s : State) : State :=
  let src := fieldSource chain
  match (s.fchain chain).access with
  | none => s
  | some a =>
    let m := accessItem s a
    let wait (s : State) : State := updFchain chain (fun c => { c with access := some { a with stage := 4, due := s.time.mono } }) s
    if !mayAccess s chain a then returnAccess chain s
    else if !chipWindow s src then updFchain chain (fun c => { c with access := some { a with stage := 0, due := s.time.mono } }) s
    else if transmitting s src then wait s
    else if obstructed s src 1 ∨ priorityPending s src ∨ wideClash s src (fieldNs (chanKey m.band m.channel) m.len) (a.since.getD s.time.mono) then
      setWaiting src (if m.instant.isSome then 2 else 0) 1 (wait s)
    else sendAccess chain s

/-- A frame in access that waited for the chain's own transmission to end tries again. -/
def resumeAccess (chain : Nat) (s : State) : State :=
  match (s.fchain chain).access with
  | some a => if a.stage = 4 ∧ !Map.has s.front.waiting (fieldSource chain) then tryAccess chain s else s
  | none => s

/-- R281: a waiting device-initiated frame can no longer start before 950 µs into the beat. -/
def pastAccess (s : State) : Bool := decide (s.phase ≥ 950000)

/-! ### Channel access (R154, R156, R157) -/

/-- The phase in ns lies in a CAL or COEX window of the field plan in force (R348). -/
def fieldWindowed (s : State) : Bool :=
  (Map.getD s.plan.inForce 2 {}).entries.any (fun e =>
    (decide (e.kind = 0x0B) || decide (e.kind = 0x0C)) && decide (e.start * 1000 ≤ s.phase) && decide (s.phase < (e.start + e.dur) * 1000))

/-- The access of a frame that was taken off its queue, or that answers a poll (`limit`), begins with a back-off. -/
def beginAccess (chain slots : Nat) (q : Nat) (f : Option Queued) (m : FieldTx) (limit : Option Nat) (s : State) : State :=
  let be := (fcfg s).minBe
  let unit := 20 * symNs (chanKey m.band m.channel)
  let s1 := if chain = 0 then startRetune 3 s else s
  let a : FieldAccess := { item := m, queued := f, queue := q, nb := 0, be := be, retries := m.sends, stage := 0,
                           due := s1.time.mono + slots % 2 ^ be * unit, limit := limit }
  updFchain chain (fun c => { c with access := some a }) s1

/-- May the Planisher release the head `f` of queue `q` on this chain (R348, R161)? -/
def releasable (s : State) (chain q : Nat) (f : Queued) : Bool :=
  match f.payload with
  | .eth _ => false
  | .field m =>
    match queueRange q with
    | 0 => decide (m.band = chain)
    | 2 =>
      (match childRec s (q - 0x2000) with
       | some r => r.rxOnIdle && decide (r.bandChan / 128 = chain)
       | none => false)
    | _ => decide (q = 0x3F04 + chain)

/-- FIELD_TX_RELEASE (R348): one device-initiated frame per band at a time, in R316's order. -/
def fieldRelease (chain slots : Nat) (s : State) : State :=
  let c := s.fchain chain
  if chain ≥ 2 ∨ !fieldUp s ∨ !bandOn s chain ∨ c.access.isSome ∨ c.test.isSome ∨ fieldSafe s chain ∨
      (s.power.mode = .doze ∧ !listenNow s) ∨ s.power.entry.any (fun e => e.step ≥ 2) ∨
      s.phase < 20000 ∨ s.phase ≥ 950000 ∨ fieldWindowed s ∨ s.time.settling ∨ s.overrunning (fieldSource chain) then s
  else match judge 26 (releasable s chain) s with
    | (s1, none) => s1
    | (s1, some (cls, q, f)) =>
      match f.payload with
      | .eth _ => s1
      | .field m =>
        let m1 := match queueChild q with
          | some k => (match childRec s1 k with
            | some r => { m with band := chain, channel := r.bandChan % 32 }
            | none => m)
          | none => { m with band := chain, channel := if chain = 1 then (fcfg s1).fsgChannel else m.channel }
        beginAccess chain slots q (some f) m1 none (watchPend q (selectFrom 26 cls q f) s1)

/-- The instant at which a CCA of `dur` ns may start (R154): not before 20 µs of a beat, ending by 950 µs; else at 20 µs of the next. -/
def ccaStart (dur : Nat) (s : State) : State :=
  if s.phase < 20000 then advancePhase 20000 s
  else if s.phase + dur > 950000 then advanceTo ((s.beat + 1) * 1000000 + 20000) s
  else s

/-- FIELD_BACKOFF_END: the back-off expires and a CCA of 8 symbol periods begins, behind a job that overruns (R34). -/
def backoffEnd (chain : Nat) (s : State) : State :=
  match (s.fchain chain).access with
  | none => s
  | some a =>
    if a.stage ≠ 0 ∨ s.time.settling then s
    else if !mayAccess s chain a then returnAccess chain s
    else
      let dur := 8 * symNs (chanKey a.item.band a.item.channel)
      let s1 := ccaStart dur (afterOverrun (fieldSource chain) (advanceMono a.due s))
      updFchain chain (fun c => { c with access := some { a with stage := 1, due := s1.time.mono + dur } }) s1

/-- The CCA test (R157): `energy` is the channel's energy in dBm. -/
def ccaBusy (s : State) (ch : Nat) (energy : Int) : Bool :=
  let g := fcfg s
  let ed := decide (energy ≥ g.ccaEd)
  let cs := decide (s.rxOf ch ≠ .idle)
  if g.ccaMode = 1 then ed else if g.ccaMode = 2 then cs else if g.ccaAnd then ed && cs else ed || cs

/-- FIELD_CCA_END (R156, R157, R162). A CCA of mode 2 judges the detector as it stands at the CCA's end (DESIGN CHOICE, log entry 97); an answer whose
fallback exceeds MAX_BACKOFFS goes back to its queue, not completed, as one past its limit does (DESIGN CHOICE, log entry 98). -/
def ccaEnd (chain : Nat) (energy : Int) (slots : Nat) (s : State) : State :=
  match (s.fchain chain).access with
  | none => s
  | some a =>
    if a.stage ≠ 1 then s
    else
      let ch := chanKey a.item.band a.item.channel
      let s1 := advanceMono a.due s
      if !mayAccess s1 chain a ∨ a.limit.any (fun t => decide (t < s1.time.mono)) then returnAccess chain s1
      else if ccaBusy s1 ch energy then
        let nb := a.nb + 1
        if nb > (fcfg s1).maxBackoffs then (if a.taken then endAccess chain 2 s1 else returnAccess chain s1)
        else
          let be := min (a.be + 1) (fcfg s1).maxBe
          let a1 := { a with nb := nb, be := be, stage := 0, due := s1.time.mono + slots % 2 ^ be * (20 * symNs ch) }
          updFchain chain (fun c => { c with access := some a1 }) s1
      else if (match a.item.instant with | some t => decide (s1.ns > t) | none => false) then endAccess chain 3 s1
      else tryAccess chain s1

/-- FIELD_ACK_WAIT_END (R156): the wait expires. A reception whose SFD ended within it may still be the acknowledgement. -/
def ackWaitEnd (chain slots : Nat) (s : State) : State :=
  match (s.fchain chain).access with
  | none => s
  | some a =>
    if a.stage ≠ 3 then s
    else
      let s1 := advanceMono a.due s
      match s1.rxOf (chanKey a.item.band a.item.channel) with
      | .receiving r =>
        if r.at' ≤ a.due ∧ a.lastChip < r.at' then updFchain chain (fun c => { c with access := some { a with stage := 5 } }) s1 else noAck chain slots s1
      | _ => noAck chain slots s1

/-- An access has frame `f` of queue `q` on the air, or awaits its acknowledgement: the frame still stands in the queue. -/
def answering (q : Nat) (f : Queued) (a : FieldAccess) : Bool := decide (a.queue = q) && !a.taken && a.queued.any (sameFrame f)

/-- CHILD_FRAME_EXPIRED (R163): frames that have waited PERSIST_BEATS in a child queue complete EXPIRED; one on the air is not touched. -/
def expireChild (c : Nat) (s : State) : State :=
  let q := 0x2000 + c
  let old (f : Queued) : Bool := decide (s.beat ≥ f.enqBeat + (fcfg s).persist) && !s.field.chains.any (fun x => x.access.any (answering q f))
  let ch := if ((childRec s c).getD {}).bandChan ≥ 128 then 101 else 11
  let gone := (s.queue q).frames.filter old
  if gone = [] then s
  else
    let s1 := gone.foldl (fun s f => match f.payload with
      | .field m => completeField ch q 4 f m s
      | .eth _ => leave 26 f s) (watchPend q (updQueue q (fun p => { p with frames := p.frames.filter (fun f => !old f) })) s)
    tagHead q s1

end Sys2Proof.Machine
end

