-- ==== Sys2Proof/Machine/Lanes.lean ====
section
/-! DEFINITION. Lanes, doorbells, event rings, direct registers, in-band frames and the system commands (chapter 2), but for
what needs every handler (Perform.lean) and what needs flash or the Assay unit (Boot.lean, Faults.lean). -/

namespace Sys2Proof.Machine

/-! ### Claims and leases -/

/-- A lane claimed with a nonce: its lease and watchdog start, and on lanes 2 and 3 the session SEQ restarts (R94, R95). -/
def claimLane (n nonce : Nat) (s : State) : State :=
  updLane n (fun l => { l with claimed := true, nonce := nonce, wdogExpired := false,
                                leaseLeft := (s.laneCfg n).leaseBeats, wdogLeft := (s.laneCfg n).wdogBeats,
                                seqIn := 0, seqOut := 0 }) s

/-- A plain claim is judged (R94): it succeeds on an unclaimed lane, with a nonzero nonce. -/
def judgeClaim (n nonce : Nat) (s : State) : State :=
  if nonce % 65536 ≠ 0 ∧ !(s.lane n).claimed then claimLane n (nonce % 65536) s else s

/-- A hard claim is judged (R97): it succeeds on an unclaimed lane or after the watchdog's expiry; otherwise it is counted. -/
def judgeHardClaim (n nonce : Nat) (s : State) : State :=
  if nonce % 65536 = 0 then s
  else if !(s.lane n).claimed then claimLane n (nonce % 65536) s
  else if (s.lane n).wdogExpired then claimLane n (nonce % 65536) (releaseLane n 2 s)
  else updLane n (fun l => { l with hardClaimCnt := satInc 16 l.hardClaimCnt }) s

/-- A register write that reaches lane `n` by its own transport: lanes 0 and 1, with the window up (R91). -/
def viaRegisters (n : Nat) (s : State) (f : State → State) : State := if n < 2 ∧ windowUp s then f s else s

/-- DOORBELL (R103): every slot named is rung, in ascending order (R104). On an unclaimed lane the write is counted once (R99). -/
def doorbell (n : Nat) (ring : BitVec 16) (s : State) : State :=
  viaRegisters n s (fun s =>
    if (!(s.lane n).claimed ∨ s.stw.state = .fault) ∧ ring ≠ 0 then doorbellError n 0 s
    else (bitsSet 16 ring.toNat).foldl (fun s k => ringSlot n k s) s)

/-- A write of MBX_DONE: slots in DONE become FREE, and the lease is renewed (R103, R96). -/
def freeSlots (n : Nat) (done : BitVec 16) (s : State) : State :=
  renewLane n ((bitsSet 16 done.toNat).foldl (fun s k =>
    if (s.slot n k).phase = .done then updSlot n k (fun x => { x with phase := .free }) s else s) s)

/-- A release write (R94): acted on only under the holder's NONCE. -/
def releaseWrite (n nonce : Nat) (s : State) : State :=
  if (s.lane n).claimed ∧ (s.lane n).nonce = nonce % 65536 then releaseLane n 0 s else s

/-- EVR_RD_WRITE (R114): RD_IDX moves up to WR_IDX at most; the lease is renewed. -/
def evrRd (n idx : Nat) (s : State) : State :=
  let l := s.lane n
  let step := (idx % 1024 + 1024 - l.rdIdx) % 1024
  renewLane n (if step ≤ l.unread then updLane n (fun l => { l with rdIdx := idx % 1024 }) s else s)

/-- MBX_ERR_READ (R15): both counters returned, then cleared. -/
def mbxErrRead (n : Nat) (s : State) : State :=
  if n < 4 ∧ windowUp s then
    let l := s.lane n
    emit (.regRead (l.dbErrCnt + l.hardClaimCnt * 65536)) (updLane n (fun l => { l with dbErrCnt := 0, hardClaimCnt := 0 }) s)
  else s

/-- EVR_LOST_READ (R15). -/
def evrLostRead (n : Nat) (s : State) : State :=
  if n < 4 ∧ windowUp s then
    emit (.regRead (s.lane n).evrLostCnt) (updLane n (fun l => { l with evrLostCnt := 0 }) s)
  else s

/-- LEASE_EXPIRY (R98): the lease has run out. -/
def leaseExpired (n : Nat) (s : State) : State :=
  if n < 4 ∧ (s.lane n).claimed ∧ (s.lane n).leaseLeft = 0 then releaseLane n 1 s else s

/-- LANE_WDOG_EXPIRY (R96, R97). -/
def wdogExpired (n : Nat) (s : State) : State :=
  if n < 4 ∧ (s.lane n).claimed ∧ (s.lane n).wdogLeft = 0 then updLane n (fun l => { l with wdogExpired := true }) s else s

/-! ### Registers -/

/-- MBX_CLAIM as read (Table 2-14). -/
def mbxClaim (l : Lane) : Nat := fieldsWord [(0, l.nonce), (17, bit l.claimed), (18, bit l.wdogExpired)]

/-- The Steward's cores run on, or will run, to write a flash copy: not in Dormant before a wake, nor on the way into it. -/
def copyAhead (s : State) : Bool :=
  (decide (s.power.mode ≠ .dormant) || s.power.waking.isSome) &&
    s.power.entry.all (fun e => decide (e.target ≠ .dormant) || decide (e.step = 1) || e.undo.isSome)

/-- A warm reset requested by a command (`delay` 10) or by SYS_RESET or the sideband (0) (R129): it waits for the flash copy where a change is
pending and the Steward writes copies, during its own restart too, but not in Dormant, nor from step 2 of an entry to it on. A second request joins the first: the one reset serves both, and leads into
Recovery where either asks for it (DESIGN CHOICE, log entry 81). -/
def requestWarm (recovery : Bool) (delay : Nat) (cause : Nat) (s : State) : State :=
  match s.stw.warmReq with
  | some w => { s with stw.warmReq := some { w with intoRecovery := w.intoRecovery || recovery, delay := max w.delay delay } }
  | none =>
    if s.stw.changePending ∧ (s.stw.state = .ready ∨ s.stw.state = .restarting) ∧ copyAhead s then
      { s with stw.warmReq := some { intoRecovery := recovery, waitCopy := true, delay := delay, cause := cause },
               stw.saveNow := true }
    else { s with stw.warmReq := some { intoRecovery := recovery, due := some (s.beat + delay), delay := delay, cause := cause } }

/-- MBX_CFG as a write sets it (Table 2-14): an out-of-range write leaves both fields unchanged. -/
def writeMbxCfg (n : Nat) (v : Nat) (s : State) : State :=
  let lease := bitsOf v 15 0
  let wdog := bitsOf v 31 16
  if 100 ≤ lease ∧ 20 ≤ wdog ∧ wdog + 1 ≤ lease then
    setKept (fun k => { k with stw.lanes := Bank.modify k.stw.lanes n (fun g => { g with leaseBeats := lease, wdogBeats := wdog }) }) s
  else s

/-- EVR_MASK as a write sets it: reserved bits ignored (R16). -/
def writeEvrMask (n v : Nat) (s : State) : State :=
  setKept (fun k => { k with stw.lanes := Bank.modify k.stw.lanes n (fun g => { g with areaEn := v &&& 0x1FFE }) }) s

/-- EVR_COAL as a write sets it: THRESH 0 leaves both fields unchanged. -/
def writeEvrCoal (n v : Nat) (s : State) : State :=
  if bitsOf v 9 0 = 0 then s
  else setKept (fun k => { k with stw.lanes := Bank.modify k.stw.lanes n (fun g => { g with
    thresh := bitsOf v 9 0, age := bitsOf v 23 16 }) }) s

/-- REGISTER_WRITE (R15, R91, R117): a write of a direct register that has no row of its own. The sideband reaches the SYS_,
TB_ and PWR_ blocks only; a transport reaches the MBX_ and EVR_ registers of its own lane only; every other write is ignored. -/
def registerWrite (via off : Nat) (value : BitVec 32) (s : State) : State :=
  let v := value.toNat
  if !windowUp s then s
  else if off = 0x00C then
    if hasBit v 8 then { s with stw.causeNewStk := false } else s
  else if off = 0x018 then { s with stw.scratch := v }
  else if off = 0x414 then
    { s with time.holdoverStk := s.time.holdoverStk && !hasBit v 2, time.tsqOvfStk := s.time.tsqOvfStk && !hasBit v 3,
             time.safePlanStk := s.time.safePlanStk && !hasBit v 4 }
  else if off = 0x50C then { s with power.wakeStk := w1c s.power.wakeStk (value.setWidth 16) }
  else if via ≥ 2 then s
  else if off = 0x114 + 0x40 * via then writeMbxCfg via v s
  else if off = 0x208 + 0x20 * via then writeEvrMask via v s
  else if off = 0x20C + 0x20 * via then writeEvrCoal via v s
  else if off = 0x300 then { s with stw.sticky := w1c s.stw.sticky (value &&& intW1cMask) }
  else if off = 0x304 then { s with stw.enMsix := value }
  else if off = 0x308 then { s with stw.enPin := value }
  else if off = 0x30C then { s with stw.pushPull := hasBit v 0 }
  else s

/-! ### Event rings -/

/-- Order of two events in a batch (R67, R112); firings of two triggers on one tick go by channel number, lower first (R74). -/
def eventLe (a b : Event) : Bool :=
  if a.stamp.epoch = b.stamp.epoch ∧ a.stamp.ns = b.stamp.ns ∧ a.stamp.frac = b.stamp.frac then
    if a.source = b.source ∧ a.code = 0x0207 ∧ b.code = 0x0207 then decide (leNat (a.data.take 1) ≤ leNat (b.data.take 1))
    else decide (a.source ≤ b.source)
  else stampLe a.stamp b.stamp

/-- `e` put into its place in a sorted batch, behind its equals. -/
def insertEvent (e : Event) : List Event → List Event
  | [] => [e]
  | x :: r => if eventLe x e then x :: insertEvent e r else e :: x :: r

/-- A batch in order (R67); events of equal stamp and source keep the order in which they were raised. -/
def sortEvents (l : List Event) : List Event := l.foldl (fun acc e => insertEvent e acc) []

/-- One event reaches the ring of lane `n` (R114, R115): stored, or discarded where 1,023 unread entries wait. -/
def ringEvent (n : Nat) (outOfOrder : Bool) (e : Event) (s : State) : State :=
  let l := s.lane n
  if l.unread ≥ 1023 then
    let s1 := updLane n (fun l => { l with evrLostCnt := satInc 16 l.evrLostCnt, lostMark := true }) s
    if n < 2 then setInt 10 s1 else s1
  else
    let x : RingEntry := { code := e.code, source := e.source, phase := l.phase, lost := l.lostMark,
                           outOfOrder := outOfOrder, stamp := e.stamp, seq := l.entrySeq, data := e.data }
    let w := (l.wrIdx + 1) % 1024
    updLane n (fun l => { l with ring := Map.set l.ring l.wrIdx x, writtenAt := Map.set l.writtenAt l.wrIdx s.beat,
                                  wrIdx := w, phase := if w = 0 then !l.phase else l.phase,
                                  entrySeq := (l.entrySeq + 1) % 65536, lostMark := false }) s

/-- The 32 bytes of a ring entry (Table 2-10). -/
def RingEntry.bytes (x : RingEntry) : List Byte :=
  le 2 x.code ++ le 1 x.source ++ le 1 (fieldsWord [(0, bit x.phase), (1, bit x.lost), (2, bit x.outOfOrder)]) ++
    x.stamp.bytes ++ le 2 x.seq ++ (x.data ++ List.replicate (14 - x.data.length) 0).take 14

/-- Does lane `n` get event `e` (R113)? -/
def wants (s : State) (n : Nat) (e : Event) : Bool :=
  (s.lane n).claimed && hasBit (s.laneCfg n).areaEn (e.code / 256) && decide (e.skip ≠ n)

/-- Lanes 2 and 3 get a batch in KIND 3 frames of at most 40 entries, and so have read it (R113, log entry 11). -/
def sendBatch (n : Nat) (fuel : Nat) (s : State) : State :=
  match fuel with
  | 0 => s
  | fuel + 1 =>
    let l := s.lane n
    let k := min 40 l.unread
    if k = 0 then s
    else
      let es := ((List.range k).map (fun i =>
        match Map.get? l.ring ((l.rdIdx + i) % 1024) with | some x => x.bytes | none => [])).flatten
      sendBatch n fuel (sendInband n 3 k es (updLane n (fun l => { l with rdIdx := (l.rdIdx + k) % 1024 }) s))

/-- EVENT_BATCH_WRITE (R112, R113): the events of earlier beats go to each ring in order; one whose beat's batch has been
written carries OUT_OF_ORDER. -/
def eventBatch (s : State) : State :=
  let b := s.beat
  let isDue : Event → Bool := fun e => decide (e.stamp.epoch ≠ s.kept.time.epoch) || decide (e.stamp.ns / 1000000 < b)
  let batch := sortEvents (s.stw.events.filter isDue)
  let s1 := { s with stw.events := s.stw.events.filter (fun e => !isDue e), stw.batchBeat := b }
  let late : Event → Bool := fun e =>
    decide (e.stamp.epoch = s.kept.time.epoch) && decide (e.stamp.ns / 1000000 < s.stw.batchBeat)
  let s2 := batch.foldl (fun s e => (List.range 4).foldl (fun s n => if wants s n e then ringEvent n (late e) e s else s) s) s1
  sendBatch 3 26 (sendBatch 2 26 s2)

/-! ### In-band frames -/

/-- A frame counted as discarded under R93. -/
def inbandAuthFail (s : State) : State := { s with stw.inbandAuthFailCnt := satInc 32 s.stw.inbandAuthFailCnt }

/-- The addressing, arrival and TAG conditions of lane 2 (R93). -/
def inbandAddressed (f : InbandFrame) (s : State) : Bool :=
  f.toMgmtMac && (match f.vlan with | some v => decide (v = s.kept.stw.mgmtVlan) | none => f.onCpuPort) &&
    f.tagOk && s.kept.boot.lane2Key.isSome

/-- Is lane 3 open (R93)? -/
def lane3Open (s : State) : Bool := s.kept.stw.lane3Open || decide (s.stw.state = .recovery)

/-- An in-band frame other than a claim is judged; an accepted one renews the lease and has its effect (R93, R96). -/
def inbandFrame (f : InbandFrame) (g : State → State) (s : State) : State :=
  if f.lane = 2 then
    if !inbandAddressed f s then inbandAuthFail s
    else if f.seq ≤ (s.lane 2).seqIn then inbandAuthFail s
    else g (renewLane 2 (updLane 2 (fun l => { l with seqIn := f.seq }) s))
  else if f.lane = 3 then
    if !lane3Open s then s
    else if !f.tagOk then { s with stw.debugCrcErrCnt := satInc 32 s.stw.debugCrcErrCnt }
    else g (renewLane 3 s)
  else s

/-- A number in the frame's BODY. -/
def InbandBody.u (b : List Byte) (off len : Nat) : Nat := leNat ((b.drop off).take len)

/-- The claim of a KIND 5 frame: NONCE, HARD (Table 2-3). The frame, accepted, then renews the lane (R96): the claim is judged first, since by
its own renewal no hard claim could ever succeed (DESIGN CHOICE, log entry 80). -/
def inbandJudge (f : InbandFrame) (s : State) : State :=
  let nonce := InbandBody.u f.body 0 2
  renewLane f.lane (if hasBit (InbandBody.u f.body 2 1) 0 then judgeHardClaim f.lane nonce s else judgeClaim f.lane nonce s)

/-- INBAND_CLAIM (R95): judged against CLAIM_SEQ on lane 2; answered by KIND 6 under the claim's own SEQ. A SEQ exactly 2^31 ahead, which
serial-number arithmetic leaves undefined, counts as not greater (DESIGN CHOICE, log entry 80). -/
def inbandClaim (f : InbandFrame) (s : State) : State :=
  let answer : State → State := fun s =>
    emit (.inband f.lane 6 f.slot f.seq (le 4 (mbxClaim (s.lane f.lane)) ++
      le 4 (if f.lane = 2 then s.kept.stw.claimSeq else 0))) s
  if f.lane = 2 then
    if !inbandAddressed f s then inbandAuthFail s
    else
      let d := (f.seq + 2 ^ 32 - s.kept.stw.claimSeq) % 2 ^ 32
      if 1 ≤ d ∧ d < 2 ^ 31 then
        answer (inbandJudge f (setKept (fun k => { k with stw.claimSeq := f.seq % 2 ^ 32 }) s))
      else answer s
  else if f.lane = 3 then
    if !lane3Open s then s
    else if !f.tagOk then { s with stw.debugCrcErrCnt := satInc 32 s.stw.debugCrcErrCnt }
    else answer (inbandJudge f s)
  else s

/-- INBAND_DONE (KIND 4): frees SLOT as a write of MBX_DONE. -/
def inbandDone (f : InbandFrame) (s : State) : State :=
  inbandFrame f (fun s =>
    if (s.slot f.lane f.slot).phase = .done ∧ f.slot < 16 then updSlot f.lane f.slot (fun x => { x with phase := .free }) s
    else s) s

/-- INBAND_BULK_WRITE (KIND 8): up to 1,024 data bytes at BODY's offset, inside the 64 KB window of a claimed lane. -/
def inbandBulkWrite (f : InbandFrame) (s : State) : State :=
  inbandFrame f (fun s =>
    let off := InbandBody.u f.body 0 4
    let data := f.body.drop 4
    if (s.lane f.lane).claimed ∧ data.length ≤ 1024 ∧ off + data.length ≤ 65536 then
      updLane f.lane (fun l => { l with bulk := Memory.writeList l.bulk off data }) s
    else s) s

/-- INBAND_BULK_READ (KIND 9): the data of the window; a byte nothing has written is free (R98, log entry 3). -/
def inbandBulkRead (f : InbandFrame) (s : State) : State :=
  inbandFrame f (fun s =>
    let off := InbandBody.u f.body 0 4
    let len := InbandBody.u f.body 4 4
    if (s.lane f.lane).claimed ∧ off + len ≤ 65536 then
      sendInband f.lane 9 f.slot (Memory.readList s.draws (s.lane f.lane).bulk off len) { s with draws := s.draws + 65536 }
    else s) s

/-- INBAND_RELEASE (KIND 10): frees the lane as its holder. -/
def inbandRelease (f : InbandFrame) (s : State) : State :=
  inbandFrame f (fun s => if (s.lane f.lane).claimed then releaseLane f.lane 0 s else s) s

/-! ### Heartbeat -/

/-- HEARTBEAT (R555): every 100 beats in READY or RECOVERY; it restarts the chip watchdog. At its maximum BEATS_100 wraps (R19 speaks of _CNT
counters only; DESIGN CHOICE, log entry 80). -/
def heartbeat (s : State) : State :=
  if (s.stw.state = .ready ∨ s.stw.state = .recovery) ∧ s.stw.heartBeats ≥ 100 then
    { s with stw.heartbeat := (s.stw.heartbeat + 1) % 2 ^ 32, stw.heartBeats := s.stw.heartBeats - 100, assay.chipWdog := 0 }
  else s

/-- What the lanes and the Steward's own counts do at a commit window, `n` beats after the last (R96, Table 2-20). -/
def laneCommit (n : Nat) (s : State) : State :=
  let asleep : Bool := decide (s.power.mode = .doze) || decide (s.power.mode = .dormant)
  let s1 := if asleep then s else
    { s with stw.lanes := s.stw.lanes.map (fun l =>
        if l.claimed then { l with leaseLeft := countDown l.leaseLeft n, wdogLeft := countDown l.wdogLeft n } else l) }
  let running : Bool := decide (s.stw.state = .ready) || decide (s.stw.state = .recovery)
  { s1 with stw.uptime := s.stw.uptime + n,
            stw.heartBeats := if running then s.stw.heartBeats + n else s.stw.heartBeats,
            stw.restartBeats := if s.stw.state = .restarting then s.stw.restartBeats + n else s.stw.restartBeats }

/-! ### System commands -/

/-- SYS_ID (Table 2-13). -/
def sysId : Nat := fieldsWord [(0, 0x9224), (16, 1), (20, 0), (24, 0x54)]

/-- SYS_STATE (Table 2-13). -/
def sysState (s : State) : Nat :=
  fieldsWord [(0, s.stw.state.code), (3, s.stw.restoreSrc), (5, s.stw.imageSlot), (6, bit s.stw.trialBoot),
    (8, if s.stw.state = .fault then s.stw.faultCode else 0)]

/-- SYS_GET_INFO (R128, Table 2-20). -/
def sysGetInfo : Handler := readHandler [] (fun _ s =>
  le 4 sysId ++ le 1 0x42 ++ le 1 s.stw.state.code ++ le 1 s.power.mode.code ++
    le 1 (fieldsWord [(0, s.stw.imageSlot), (1, bit s.stw.trialBoot), (2, s.stw.restoreSrc)]) ++
    le 4 s.stw.fwVersion ++ le 8 Config.serial ++ le 3 s.kept.stw.nodeId ++ [0] ++ le 4 s.stw.restartCnt ++ le 8 s.stw.uptime)

/-- SYS_NOP (R128): the 16 bytes at 16 to 31 come back. -/
def sysNop : Handler := readHandler [fAny 16 16] (fun c _ => c.bytesAt 16 16)

/-- SYS_CANCEL (R108 to R110): of a slot of its own lane. Its answer is never written before that of the command it names. -/
def sysCancel : Handler where
  fields := [fRange 16 1 0 15, fZero 17 3]
  run c id s :=
    let k := c.u 16 1
    let x := s.slot c.lane k
    if k = c.slot then (s, .reply (badArg 16))
    else match x.phase with
      | .free => (s, .reply (badArg 16))
      | .done => (s, .reply { status := stTooLate })
      | .held =>
        match s.stw.jobs.find? (fun j => j.lane = c.lane ∧ j.slot = k) with
        | none =>
          -- rung and not yet accepted: cancellable from its doorbell (R108)
          (deliverAbandoned 1 (rungJob c.lane k s)
            (updLane c.lane (fun l => { l with order := l.order.filter (· ≠ k) }) s), .reply (ok))
        | some j =>
          -- TOO_LATE, behind the response of the command that it names
          if !undecided s j then (s, .wait true 0 (j.id + 1))
          -- an entry to Doze or Dormant is undone first; both answers follow its end (R465, R479)
          else if entryOf j s then
            let s1 := undoPending j s
            ({ s1 with power.entry := s1.power.entry.map (fun e => { e with asker := j.asker, cancelJob := some id }) }, .wait true 0 0)
          else (abandonJob j.id 1 (undoPending j s), .reply (ok))

/-- SYS_LANE_CONFIG (R130, Table 2-22). DESIGN CHOICE (log entry 94): FLAGS [0] and [1] act whatever LANE names, and a field that its table does not
allow is answered BAD_ARG before the lane's right to the command is judged. -/
def sysLaneConfig : Handler where
  fields := [fRange 16 1 0 3, fMask 17 1 3, fAny 18 2, fAny 20 2, fMask 22 2 0x1FFE, fRange 24 2 1 1023, fAny 26 1,
    fZero 27 1, fAny 28 2, fZero 30 2]
  run c _ s :=
    let n := c.u 16 1
    let old := s.next.stw.lanes.getD n {}
    let lease := if c.u 18 2 = 0 then old.leaseBeats else c.u 18 2
    let wdog := if c.u 20 2 = 0 then old.wdogBeats else c.u 20 2
    if n ≠ c.lane ∧ ¬(c.lane < 2 ∧ 2 ≤ n) then (s, .reply (denied (if (s.lane n).claimed then laneOwner n else 0xFF)))
    else if lease < 100 then (s, .reply (badArg 18))
    else if wdog < 20 ∨ wdog ≥ lease then (s, .reply (badArg (if c.u 20 2 = 0 then 18 else 20)))
    else if c.flag 17 1 1 ∧ ¬(1 ≤ c.u 28 2 ∧ c.u 28 2 ≤ 4094) then (s, .reply (badArg 28))
    else
      let g : LaneConfig := { leaseBeats := lease, wdogBeats := wdog, areaEn := c.u 22 2, thresh := c.u 24 2, age := c.u 26 1 }
      (stageKept (fun k => { k with
        stw.lanes := k.stw.lanes.setIfInBounds n g, stw.lane3Open := k.stw.lane3Open || c.flag 17 1 0,
        stw.mgmtVlan := if c.flag 17 1 1 then c.u 28 2 else k.stw.mgmtVlan }) s, .reply (ok))

/-- SYS_COUNTERS (R131, Table 2-23). MBX_DB_ERR_CNT, HARD_CLAIM_CNT and EVR_LOST_CNT are the counters of MBX_ERR and EVR_LOST: one count each,
which saturates at the 16 bits of its register field and which either read clears (DESIGN CHOICE, log entry 80). -/
def sysCounters : Handler where
  fields := [fRange 16 1 0 3, fMask 17 1 1, fZero 18 2]
  run c _ s :=
    let n := c.u 16 1
    let l := s.lane n
    let body := le 8 0 ++ le 4 l.cmdCnt ++ le 4 l.abandonCnt ++ le 4 l.dbErrCnt ++ le 4 l.hardClaimCnt ++
      le 4 l.leaseExpireCnt ++ le 4 l.evrLostCnt ++ le 4 (if n = 2 then s.stw.inbandAuthFailCnt else 0) ++
      le 4 (if n = 3 then s.stw.debugCrcErrCnt else 0) ++ le 4 s.stw.restartCnt ++ le 4 s.stw.ingotWriteCnt ++
      le 4 s.stw.ingotFailCnt
    let s1 := if c.flag 17 1 0 then
        { updLane n (fun l => { l with cmdCnt := 0, abandonCnt := 0, dbErrCnt := 0, hardClaimCnt := 0, leaseExpireCnt := 0,
                                        evrLostCnt := 0 }) s with
          stw.inbandAuthFailCnt := if n = 2 then 0 else s.stw.inbandAuthFailCnt,
          stw.debugCrcErrCnt := if n = 3 then 0 else s.stw.debugCrcErrCnt }
      else s
    (s1, .reply (ok body))

/-! ### Meanings -/

/-- MBX_DONE_WRITE. -/
def execMbxDoneWrite (lane : Nat) (done : BitVec 16) (s : State) : Out :=
  act (fun s => viaRegisters lane s (freeSlots lane done)) s
/-- LANE_CLAIM. -/
def execLaneClaim (lane nonce : Nat) (s : State) : Out := act (fun s => viaRegisters lane s (judgeClaim lane nonce)) s
/-- HARD_CLAIM. -/
def execHardClaim (lane nonce : Nat) (s : State) : Out := act (fun s => viaRegisters lane s (judgeHardClaim lane nonce)) s
/-- LANE_RELEASE_WRITE. -/
def execLaneReleaseWrite (lane nonce : Nat) (s : State) : Out := act (fun s => viaRegisters lane s (releaseWrite lane nonce)) s
/-- LEASE_RENEW. -/
def execLeaseRenew (lane : Nat) (s : State) : Out := act (fun s => viaRegisters lane s (renewLane lane)) s
/-- EVR_RD_WRITE. -/
def execEvrRdWrite (lane rdIdx : Nat) (s : State) : Out := act (fun s => viaRegisters lane s (evrRd lane rdIdx)) s
/-- MBX_ERR_READ. -/
def execMbxErrRead (lane : Nat) (s : State) : Out := act (mbxErrRead lane) s
/-- EVR_LOST_READ. -/
def execEvrLostRead (lane : Nat) (s : State) : Out := act (evrLostRead lane) s
/-- SYS_RESET_WARM. -/
def execSysResetWarm (s : State) : Out := act (fun s => if windowUp s then requestWarm false 0 3 s else s) s
/-- SYS_RESET_RECOVERY. -/
def execSysResetRecovery (s : State) : Out := act (fun s => if windowUp s then requestWarm true 0 3 s else s) s
/-- SYS_RESET_RESTART (R122). -/
def execSysResetRestart (s : State) : Out :=
  act (fun s => if windowUp s ∧ s.stw.restartReq = none then { s with stw.restartReq := some (1, s.beat) } else s) s
/-- REGISTER_WRITE. -/
def execRegisterWrite (via offset : Nat) (value : BitVec 32) (s : State) : Out := act (registerWrite via offset value) s
/-- INBAND_DONE. -/
def execInbandDone (f : InbandFrame) (s : State) : Out := act (inbandDone f) s
/-- INBAND_CLAIM. -/
def execInbandClaim (f : InbandFrame) (s : State) : Out := act (inbandClaim f) s
/-- INBAND_RENEWAL. -/
def execInbandRenewal (f : InbandFrame) (s : State) : Out := act (inbandFrame f (fun s => s)) s
/-- INBAND_BULK_WRITE. -/
def execInbandBulkWrite (f : InbandFrame) (s : State) : Out := act (inbandBulkWrite f) s
/-- INBAND_BULK_READ. -/
def execInbandBulkRead (f : InbandFrame) (s : State) : Out := act (inbandBulkRead f) s
/-- INBAND_RELEASE. -/
def execInbandRelease (f : InbandFrame) (s : State) : Out := act (inbandRelease f) s
/-- LEASE_EXPIRY. -/
def execLeaseExpiry (lane : Nat) (s : State) : Out := act (leaseExpired lane) s
/-- LANE_WDOG_EXPIRY. -/
def execLaneWdogExpiry (lane : Nat) (s : State) : Out := act (wdogExpired lane) s
/-- EVENT_BATCH_WRITE. -/
def execEventBatchWrite (s : State) : Out := act eventBatch s
/-- HEARTBEAT. -/
def execHeartbeat (s : State) : Out := act heartbeat s
/-- SYS_GET_INFO. -/
def execSysGetInfo (c : Cmd) (s : State) : Out := act (submit 0x0101 sysGetInfo c) s
/-- SYS_NOP. -/
def execSysNop (c : Cmd) (s : State) : Out := act (submit 0x0102 sysNop c) s
/-- SYS_CANCEL. -/
def execSysCancel (c : Cmd) (s : State) : Out := act (submit 0x0103 sysCancel c) s
/-- SYS_LANE_CONFIG. -/
def execSysLaneConfig (c : Cmd) (s : State) : Out := act (submit 0x0106 sysLaneConfig c) s
/-- SYS_COUNTERS. -/
def execSysCounters (c : Cmd) (s : State) : Out := act (submit 0x0107 sysCounters c) s

end Sys2Proof.Machine
end

