-- ==== Sys2Proof/Machine/Power.lean ====
section
/-! DEFINITION. The power sequencer (chapter 10): mode requests, entries to Doze and Dormant, wakes, operating points, AVSBus. -/

namespace Sys2Proof.Machine

/-! ### Counters of Table 10-17, by response offset -/

abbrev cModeChange : Nat := 20
abbrev cEntry : Nat := 24
abbrev cEntryDone : Nat := 28
abbrev cEntryWakeAbort : Nat := 32
abbrev cEntryRefused : Nat := 36
abbrev cWake : Nat := 40
abbrev cRdvWake : Nat := 44
abbrev cOpChange : Nat := 48
abbrev cFullWithheld : Nat := 52
abbrev cAvsRetry : Nat := 56
abbrev cAvsFault : Nat := 60
abbrev cDozeSrRetry : Nat := 64
abbrev cWakeFrameBad : Nat := 68

/-- A power counter incremented. -/
def powerCount (k : Nat) (s : State) : State := { s with power.counts := tally s.power.counts k }

/-- PWR_MODE changes: PWR_CHANGE_STK (Table 2-11), for any of its fields, IN_TRANSITION among them. -/
def modeChanges (s : State) : State := setInt 9 s

/-- IN_TRANSITION (R118). -/
def inTransition (s : State) : Bool := s.power.change.isSome || s.power.entry.isSome || s.power.waking.isSome

/-! ### Fault log -/

/-- An entry of the fault log, newest first, the latest 32 (R553). -/
def logFault (src cls action : Nat) (data : List Byte) (s : State) : State :=
  setKept (fun k => { k with assay.faultLog :=
    ({ stamp := s.stamp, source := src, cls := cls, action := action, data := data } :: k.assay.faultLog).take 32 }) s

/-! ### Operating points -/

/-- Nominal VDD_CORE of an operating point in mV (Table 10-3). -/
def opNominal (op : Nat) : Nat := if op = 1 then 600 else if op = 2 then 650 else if op = 3 then 720 else if op = 4 then 800 else 0

/-- Ceiling of the target of an operating point in mV (Table 13-2). -/
def opCeiling (op : Nat) : Nat := if op = 1 then 680 else if op = 2 then 720 else if op = 3 then 790 else 850

/-- VDD_CORE target of an operating point: nominal plus guard, held at the ceiling (R447, R546). -/
def opTargetMv (s : State) (op : Nat) : Nat := min (opNominal op + s.kept.assay.guards.getD (op - 1) 0) (opCeiling op)

/-- Is an operating point still in the Assay unit's table (R447)? -/
def opInTable (s : State) (op : Nat) : Bool := decide (1 ≤ op) && decide (op ≤ 4) && !s.kept.assay.removed.contains op

/-- The operating points a mode may use (Table 10-3), less those the governor bars (Table 13-5). -/
def opAllowed (s : State) (m : Mode) (op : Nat) : Bool :=
  opInTable s op && (decide (s.assay.govLevel < 2) || decide (op = 1)) &&
  (match m with
   | .full => decide (op = 3 ∨ op = 4)
   | .lean => decide (op = 1 ∨ op = 2)
   | .watch => decide (op = 1)
   | .doze => decide (op = 1)
   | .dormant => false
   | .recovery => decide (op = 1))

/-- The operating point a mode change brings: the present one where the mode allows it, else the nearest the mode allows
(the Steward's choice within the range, R448, log entry 9). -/
def opForMode (s : State) (m : Mode) : Nat :=
  if opAllowed s m s.power.op then s.power.op
  else match m with
    | .full => 3
    | .lean => if s.power.op ≥ 2 ∧ opAllowed s .lean 2 then 2 else 1
    | .dormant => 0
    | _ => 1

/-- A new VDD_CORE target written by AVSBus (Table 10-4). -/
def writeAvs (mv : Nat) (raise : Bool) (op : Nat) (s : State) : State :=
  { s with power.vcoreTarget := mv, power.avs := some { mv := mv, raise := raise, op := op, writtenNs := s.ns },
           power.avsRetries := 0 }

/-- After three consecutive faults no raise is granted until AVS_FAULT_STK is cleared (R452). -/
def raiseHeld (s : State) : Bool := s.power.avsFaultStk && decide (s.power.avsFaultRun ≥ 3)

/-- The operating point in force changes, in a commit window (R448, R449): a fall writes the lower target after it. -/
def setOp (op : Nat) (s : State) : State :=
  if op = s.power.op then s
  else
    let s1 := raise 1 0x0305 (le 1 s.power.op ++ le 1 op)
      (powerCount cOpChange (modeChanges { s with power.op := op, power.opBeats := 0, power.opNext := none }))
    if op < s.power.op then writeAvs (opTargetMv s op) false op { s1 with power.confirmedOp := op } else s1

/-! ### Answers to mode requests -/

/-- What a mode request is answered with (R118, Table 10-14). -/
structure ModeReply where
  status : Nat := 0
  detail : Nat := 0
  abort : Nat := 0xFF
  reason : Nat := 0
  source : Nat := 0
  eff : Nat := 0
  wakes : Nat := 0
  resumeUs : Nat := 0
deriving DecidableEq, Repr

/-- The response of PWR_SET_MODE (Table 10-14). -/
def modeReply (r : ModeReply) (s : State) : Reply :=
  { status := r.status, detail := r.detail,
    body := if r.status = stBadArg then [] else
      le 1 s.power.mode.code ++ le 1 s.power.op ++ le 1 r.abort ++ le 1 r.reason ++ le 1 r.source ++ [0, 0, 0] ++
      le 8 r.eff ++ le 2 r.wakes ++ [0, 0] ++ le 4 r.resumeUs }

/-- PWR_RESULT written (R118). SOURCE is the refusing block's number when STATUS is ABANDONED with DETAIL REFUSED, else 0. -/
def writeResult (tag : Nat) (r : ModeReply) (s : State) : State :=
  putPwrResult tag r.status r.detail (if r.status = stAbandoned ∧ r.detail = 5 then r.source else 0) s

/-- The answer to whoever asked: PWR_RESULT, and the command's response, where its lane is still held (R98). -/
def answerMode (a : Asker) (r : ModeReply) (s : State) : State :=
  match a with
  | .self => s
  | .req tag => writeResult tag r s
  | .job id tag => completeJob id (modeReply r s) (writeResult tag r s)

/-! ### Mode changes -/

/-- Beat M of a change reckoned at the present instant (R446). -/
def reckon (s : State) : Nat := if s.phase < 500000 then s.beat + 1 else s.beat + 2

/-- A change to serving mode `m` starts (R443, R446, R449): at once where no raise is needed, after the confirmation of the new
voltage otherwise. -/
def startChange (m : Mode) (a : Asker) (cause : Nat) (withheld : Bool) (s : State) : State :=
  let op := opForMode s m
  if op > s.power.confirmedOp then
    if raiseHeld s then answerMode a { status := stAbandoned, detail := 5, source := 1 } s
    else writeAvs (opTargetMv s op) true op
      (modeChanges { s with power.change := some { target := m, eff := none, asker := a, cause := cause, withheld := withheld } })
  else modeChanges { s with power.change := some { target := m, eff := some (reckon s), asker := a, cause := cause, withheld := withheld } }

/-- Blocks asked at each step (Table 10-5); a Doze to Dormant entry has the Ingot copy alone as its step 1 (R457). -/
def entryBlocks (left : Mode) (step : Nat) : List Nat :=
  if step = 1 then (if left = .doze then [45] else [32, 33, 36, 45])
  else if step = 2 then (List.range 24).map (· + 8) ++ [34, 35, 42, 43]
  else if step = 3 then [3, 4, 37, 38, 39, 41, 45]
  else if step = 4 then [6]
  else if step = 5 then [0]
  else [1]

/-- AP0: an entry to Doze or Dormant starts (R456); for Dormant a flash copy of the Ingot is asked for (R119). -/
def startEntry (m : Mode) (a : Asker) (cause : Nat) (s : State) : State :=
  let s1 := powerCount cEntry (modeChanges
    { s with power.entry := some { target := m, left := s.power.mode, asker := a, cause := cause, step := 1 } })
  if m = .dormant ∧ s1.stw.changePending then { s1 with stw.saveNow := true } else s1

/-- A mode request judged (R118, R442 to R445, R461, R462, R473, R479). Some answer where it is answered at once. -/
def requestMode (target : Nat) (a : Asker) (cause : Nat) (s : State) : State × Option ModeReply :=
  let m := modeOf target
  if inTransition s then (s, some { status := stBusy })
  else if s.power.mode = .recovery ∨ s.boot.stage ≠ 8 then (s, some { status := stWrongMode, detail := s.power.mode.code })
  else if m.serves ∧ s.power.mode = .doze then
    -- a host request in Doze is itself a wake (Table 10-2): HOST_REQ
    (powerCount cWake (modeChanges { s with
        power.wakeStk := s.power.wakeStk ||| 1,
        power.waking := some { bits := 1, target := m, left := .doze, latchNs := s.ns, stage := 1, asker := some a } }), none)
  else if m.serves then
    let s1 := { s with power.wantFull := decide (m = .full) }
    let withheld : Bool := decide (m = .full) && !s.power.fullAllowed
    let s2 := if withheld then powerCount cFullWithheld s1 else s1
    let t := if withheld then Mode.lean else m
    if t = s.power.mode then (s2, some { detail := if withheld then 0x10 else 0, eff := s.power.modeSince })
    else if opForMode s2 t > s2.power.confirmedOp ∧ raiseHeld s2 then (s2, some { status := stAbandoned, detail := 5, source := 1 })
    else (startChange t a cause withheld s2, none)
  else if m = s.power.mode then (s, some { eff := s.power.modeSince })
  else if s.beat < s.power.holdUntil then (s, some { status := stAbandoned, detail := 4, abort := 0 })
  else match s.power.wakeSeen with
    | some (tick, b) =>
      if tick = s.time.acc ∧ hasBit (if m = .doze then s.kept.power.config.wakeEnDoze else s.kept.power.config.wakeEnDormant) b then
        ({ s with power.wakeStk := s.power.wakeStk ||| BitVec.ofNat 16 (2 ^ b) }, some { status := stAbandoned, detail := 4, abort := 0 })
      else (startEntry m a cause s, none)
    | none => (startEntry m a cause s, none)

/-- PWR_SET_MODE (R442 to R445, R479); PWR_RESULT is written for it too (R118), a TARGET that names no mode included. -/
def pwrSetMode : Handler where
  fields := [fAny 16 1, fMask 17 1 3, fZero 18 2]
  run c id s :=
    if inTransition s then (writeResult c.tag { status := stBusy } s, .reply (modeReply { status := stBusy } s))
    else if c.lane = 3 then (writeResult c.tag { status := stDenied, detail := 0xFF } s, .reply (modeReply { status := stDenied, detail := 0xFF } s))
    else if c.u 16 1 ≥ 5 then (writeResult c.tag { status := stBadArg, detail := 16 } s, .reply (badArg 16))
    else
      let holds1 := if c.flag 17 1 1 then s.power.holds.filter (· ≠ c.lane) else s.power.holds
      let holds2 := if c.flag 17 1 0 ∧ !holds1.contains c.lane then c.lane :: holds1 else holds1
      match requestMode (c.u 16 1) (.job id c.tag) 0 { s with power.holds := holds2 } with
      | (t, some r) => (writeResult c.tag r t, .reply (modeReply r t))
      | (t, none) => (t, .wait (modeOf (c.u 16 1)).serves 0 0)

/-- PWR_REQ_WRITE (R118, R444, R462): BUSY while IN_TRANSITION is 1, whatever TARGET is. -/
def pwrReq (target tag : Nat) (s : State) : State :=
  if !windowUp s then s
  else if inTransition s then writeResult tag { status := stBusy } s
  else if target % 8 ≥ 5 then writeResult tag { status := stBadArg } s
  else match requestMode (target % 8) (.req tag) 0 s with
    | (t, some r) => writeResult tag r t
    | (t, none) => t

/-- STEWARD_MODE_SCHEDULE (R442, R445): the Steward's own request, unless a host's hold suspends the schedule. -/
def modeSchedule (target : Nat) (s : State) : State :=
  if target ≤ 4 ∧ s.power.holds = [] ∧ s.stw.state = .ready ∧ coresRun s ∧ s.power.mode ≠ .dormant then
    (requestMode target .self 3 s).1
  else s

/-- FULL_RETURN (R443): 60,000 consecutive beats of FULL_ALLOWED, and the last request asked for Full. -/
def fullReturn (s : State) : State :=
  if s.power.fullBeats ≥ 60000 ∧ s.power.wantFull ∧ s.power.fullAllowed ∧ s.power.mode.serves ∧ s.power.mode ≠ .full ∧
      !inTransition s ∧ s.boot.stage = 8 then
    startChange .full .self 4 false s
  else s

/-- In Full without permission, and with no transition under way, the device moves to Lean (R8, R443). A change or an entry that is under way
ends first; `powerCommit` and `undoDone` judge what it leaves. -/
def leaveFull (s : State) : State :=
  if s.power.mode = .full ∧ !s.power.fullAllowed ∧ !inTransition s then startChange .lean .self 2 false s else s

/-- FULL_ALLOWED takes a new value (R8, R443, R545, R551): its fall in Full brings the device to Lean. -/
def setFullAllowed (v : Bool) (s : State) : State :=
  if v = s.power.fullAllowed then s
  else leaveFull (raise 1 0x0306 (le 1 (bit v)) (modeChanges { s with power.fullAllowed := v, power.fullBeats := 0 }))

/-! ### The entry sequence -/

/-- May block `b` refuse with `reason` (Table 10-6)? -/
def refusalOf (b reason : Nat) : Bool :=
  decide ((b = 39 ∧ reason = 1) ∨ (b = 41 ∧ reason = 2) ∨ (b = 6 ∧ (reason = 3 ∨ reason = 4 ∨ reason = 5)) ∨
    (b = 42 ∧ reason = 6) ∨ (b = 37 ∧ reason = 7) ∨ (b = 45 ∧ reason = 8))

/-- An entry is abandoned at an abort point (R459, R460): the undo begins. -/
def abandonEntry (e : Entry) (ap detail src reason : Nat) (s : State) : State :=
  let s1 := { s with power.entry := some { e with undo := some (ap, detail, src, reason) } }
  if detail = 5 then powerCount cEntryRefused { s1 with power.entryRefusedStk := true } else powerCount cEntryWakeAbort s1

/-- Step 6 is complete: the mode is in force (Table 10-5). In Doze the servo's FADJ is its HOLDOVER value (R80); in Dormant
the TBC stops and the sleep clock counts from here, with a measured ratio that is a free value (R81, log entry 7). A wake
latched after AP5 is served from the new mode. -/
def finishEntry (e : Entry) (s : State) : State :=
  let s1 := raise 1 0x0301 (le 1 e.target.code ++ le 1 e.left.code ++ le 1 e.cause)
    (powerCount cModeChange (powerCount cEntryDone { modeChanges s with
      power.entry := none, power.mode := e.target, power.op := if e.target = .dormant then 0 else 1,
      power.confirmedOp := 1, power.modeSince := s.beat, power.avs := none, power.opNext := none,
      power.listenBeat := false, power.dramAwake := false, power.chainsW1 := 0, power.chainsW2 := 0,
      power.rdvVisit := false, mem.drive := if e.target = .dormant then .retained else s.mem.drive }))
  let s2 := if e.target = .doze then { s1 with time.fadj := holdFadj s, time.fadjNext := none,
                                               time.unlockedAt := if s.time.servo = .locked ∧ !s.time.dozed then s.time.mono else s.time.unlockedAt,
                                               time.dozed := true }
    else
      let (r, s1d) := draw s1
      { s1d with power.sleepAcc := s.time.acc, power.sleepTicks := 0, power.sleepPpb := ((r % 2 ^ 20 : Nat) : Int) - 2 ^ 19,
                 power.pcieUp := false }
  let s3 := match e.asker with
    | .self => s2
    | .req tag => writeResult tag {} s2
    | .job id tag => { writeResult tag {} s2 with power.sleeper := some id }
  match e.wake with
  | some (bits, target, _) =>
    powerCount cWake { s3 with power.waking := some { bits := bits, target := target, left := e.target, latchNs := s.ns,
                                                      stage := if e.target = .doze then 1 else 0 } }
  | none => s3

/-- Every block of the step has agreed: the abort point is judged, then the next step starts (R456, R460). -/
def stepEnds (e : Entry) (s : State) : State :=
  if e.step ≥ 6 then finishEntry e s
  else match e.wake with
    | some _ => abandonEntry e e.step (if e.cancelled then 1 else 4) 0 0 s
    | none =>
      let s1 := { s with power.entry := some { e with step := e.step + 1, agreed := [] } }
      if e.step = 5 then
        match e.asker with
        | .job id _ => commitJob id s1
        | _ => s1
      else s1

/-- A DRAM training step runs (R416, R419). -/
def training (s : State) : Bool := s.front.runs.any (fun r => r.running && decide (r.id = 9))

/-- What a block's own state makes it answer: FLASH refuses while it erases or programmes, DRAM in panic or training (Table 10-6); others
answer as the event says. The pole's own refusals are judged by `poleBusy`. -/
def effectiveRefusal (b refuse : Nat) (poleBusy : Nat) (s : State) : Nat :=
  if b = 41 then (if s.boot.flashJobs ≠ [] then 2 else 0)
  else if b = 39 ∨ b = 37 then poleBusy
  else if b = 6 then (if anyPanic s then 3 else if training s then 4 else if refuse = 5 then 5 else 0)
  else if refusalOf b refuse then refuse else 0

/-- A flash copy of the Ingot is in flight (R527). -/
def copying (s : State) : Bool := s.boot.flashJobs.any (fun j => match j with | .copy _ _ => true | _ => false)

/-- ENTRY_BLOCK_REPLY (R458, R459, R463): the block agrees and stops, or refuses; the Steward's step 1 waits for the Ingot copy
that a Dormant entry asks for. -/
def blockReply (b refuse poleBusy : Nat) (s : State) : State :=
  match s.power.entry with
  | none => s
  | some e =>
    if e.undo.isSome ∨ !(entryBlocks e.left e.step).contains b ∨ e.agreed.contains b then s
    else if b = 45 ∧ e.step = 1 ∧ e.target = .dormant ∧ (s.stw.saveNow ∨ copying s) then s
    else
      let r := if e.step = 1 then 0 else effectiveRefusal b refuse poleBusy s
      if r ≠ 0 then
        match e.wake with
        | some _ => abandonEntry e e.step (if e.cancelled then 1 else 4) 0 0 s
        | none => abandonEntry e e.step 5 b r s
      else
        let e1 := { e with agreed := b :: e.agreed }
        if (entryBlocks e.left e.step).all (fun x => e1.agreed.contains x) then stepEnds e1 s
        else { s with power.entry := some e1 }

/-- ENTRY_UNDO_DONE (R459, R464, R479): the request is answered, the device is back in the mode it left at the commit window
that R446 gives, and a cancel that waited is answered after it. -/
def undoDone (s : State) : State :=
  match s.power.entry with
  | none => s
  | some e =>
    match e.undo with
    | none => s
    | some (ap, detail, src, reason) =>
      let s0 := if s.power.dramAwake ∨ e.left = .doze then s else selfRefreshExit s
      let s1 := raise 1 0x0302 (le 1 e.target.code ++ le 1 ap ++ le 1 detail ++ le 1 src ++ le 1 reason)
        (modeChanges { s0 with power.entry := none, power.radiosFrom := reckon s })
      let s2 := answerMode e.asker { status := stAbandoned, detail := detail, abort := ap, reason := reason, source := src,
                                     eff := reckon s } s1
      leaveFull (completeAsker e.cancelJob (ok) s2)

/-! ### Wakes -/

/-- Is wake source `b` enabled for mode `m` (R466, Table 10-7)? HOST_REQ and SIDEBAND always are. -/
def wakeEnabled (m : Mode) (b : Nat) (s : State) : Bool :=
  match m with
  | .doze => decide (b = 0 ∨ b = 2) || (hasBit s.kept.power.config.wakeEnDoze b && [3, 5, 6, 7, 9, 10, 11].contains b)
  | .dormant => decide (b = 2) || (hasBit s.kept.power.config.wakeEnDormant b && [1, 4, 6, 7, 8, 9, 10].contains b)
  | _ => false

/-- WAKE_TARGET as a mode. -/
def wakeTarget (s : State) : Mode := modeOf s.kept.power.config.wakeTarget

/-- A wake source fires (R460, R466, R467): latched during an entry that arms it, or in Doze or Dormant; the first to fire sets
the target, and a later one only its bit. Elsewhere it is remembered for its own tick (R461). -/
def fireWake (b : Nat) (target : Mode) (s : State) : State :=
  let mask : BitVec 16 := BitVec.ofNat 16 (2 ^ b)
  match s.power.entry with
  | some e =>
    if wakeEnabled e.target b s ∧ e.undo = none then
      { s with power.wakeStk := s.power.wakeStk ||| mask,
               power.entry := some { e with wake := match e.wake with
                 | some (bits, t, st) => some (bits ||| 2 ^ b, t, st)
                 | none => some (2 ^ b, if e.step ≥ 6 then target else e.left, s.stamp) } }
    else s
  | none =>
    if wakeEnabled s.power.mode b s then
      match s.power.waking with
      | some w => { s with power.wakeStk := s.power.wakeStk ||| mask, power.waking := some { w with bits := w.bits ||| 2 ^ b } }
      | none => powerCount cWake (modeChanges { s with
          power.wakeStk := s.power.wakeStk ||| mask,
          power.waking := some { bits := 2 ^ b, target := target, left := s.power.mode, latchNs := s.ns,
                                 stage := if s.power.mode = .doze then 1 else 0 } })
    else { s with power.wakeSeen := some (s.time.acc, b) }

/-- SPI_CS_FALL (Table 10-7): in Dormant it wakes, and the transaction is discarded. -/
def spiCsFall (s : State) : State := if s.power.mode = .dormant then fireWake 1 (wakeTarget s) s else s

/-- The mode that a sideband offset names (Table 10-10); none where it wakes nothing. -/
def sidebandTarget (off : Nat) (s : State) : Option Mode :=
  if off = 1 then some .doze else if off = 2 then some .watch else if off = 3 then some .lean else if off = 4 then some .full
  else if off = 5 ∨ off = 7 then some (wakeTarget s) else none

/-- SIDEBAND_ADDRESS_MATCH (R460, R471, R473). -/
def sidebandMatch (off : Nat) (recoveryWrite : Bool) (s : State) : State :=
  if off = 6 then if recoveryWrite then requestWarm true 0 3 s else s
  else match sidebandTarget off s with
    | none => s
    | some m =>
      if s.power.entry.isSome then fireWake 2 m s
      else match s.power.mode with
        | .dormant => fireWake 2 m s
        | .doze => if off = 1 then s else fireWake 2 m s
        | .recovery => s
        | _ => if off = 7 then { s with power.holdUntil := s.beat + 1000 } else s

/-- SIDEBAND_HOLD_END (R473): 1,000 beats after the match, new requests are accepted again. -/
def sidebandHoldEnd (s : State) : State := if s.power.holdUntil ≤ s.beat then { s with power.holdUntil := 0 } else s

/-- Does a wake frame meet R474? -/
def wakeFrameOk (f : WakeFrame) (s : State) : Bool :=
  decide (f.tags ≤ 1) && f.toMe && f.fcsOk && decide (f.ver = 1) && decide (f.target ≤ 2 ∨ f.target = 0xFF) &&
    decide (f.key = s.kept.power.config.wakeKey) && f.key.any (· ≠ 0) &&
    decide (f.nodeId = s.kept.stw.nodeId ∨ f.nodeId = 0xFFFFFF)

/-- The mode a wake frame's TARGET names (Table 10-11). -/
def frameTarget (t : Nat) (s : State) : Mode := if t = 0xFF then wakeTarget s else modeOf t

/-- WAKE_FRAME_RX (R474): on BH0, BH1 or TS0 in Doze. -/
def wakeFrame (port : Nat) (f : WakeFrame) (s : State) : State :=
  if s.power.mode = .doze ∧ (port = 8 ∨ port = 9 ∨ port = 24) then
    if wakeFrameOk f s then fireWake 3 (frameTarget f.target s) s else powerCount cWakeFrameBad s
  else s

/-- LINK_ENERGY (R476): BH0 or BH1 in Dormant. -/
def linkEnergy (port : Nat) (s : State) : State :=
  if s.power.mode = .dormant ∧ (port = 8 ∨ port = 9) then fireWake 4 (wakeTarget s) s else s

/-- The wake part of GPIO_EDGE (Table 10-7): a pin of GPIO_WAKE on its edge, GPIO[7:0] only in Dormant. -/
def gpioWake (pin : Nat) (rising : Bool) (s : State) : State :=
  if pin < 32 ∧ hasBit s.kept.power.config.gpioWake pin ∧ rising = !s.kept.power.config.gpioFalling ∧
      (s.power.mode = .dormant → pin < 8) then
    fireWake 6 (wakeTarget s) s
  else s

/-- Nanoseconds in 2^-32 units that `n` sleep-clock ticks amount to (R81). -/
def sleepSpan (n : Nat) (ppb : Int) : Nat :=
  ((n : Int) * 30517578125 * 2 ^ 32 * (10 ^ 9 + ppb) / (10 ^ 6 * 10 ^ 9)).toNat

/-- Time passes to the TBC instant `ns`: by TIME ticks, or in Dormant by the fewest sleep-clock ticks that reach it. -/
def passTo (ns : Nat) (s : State) : State :=
  if s.power.mode = .dormant then
    let need := ns * 2 ^ 32 - s.power.sleepAcc
    let n := (need * (10 ^ 6 * 10 ^ 9) / ((30517578125 * 2 ^ 32 * (10 ^ 9 + s.power.sleepPpb)).toNat) + 1)
    { s with power.sleepTicks := max s.power.sleepTicks n }
  else advanceTo ns s

/-- PWR_ALARM_FIRE (R480): at the start of its beat; in a serving mode it is spent and wakes nothing. -/
def alarmFire (s : State) : State :=
  match s.power.alarm with
  | none => s
  | some b =>
    let s1 := { passTo (b * 1000000) s with power.alarm := none }
    if s1.power.mode = .doze ∨ s1.power.mode = .dormant ∨ s1.power.entry.isSome then
      fireWake 7 (modeOf s1.kept.power.config.alarmTarget) s1
    else s1

/-- RDV_LEAD_ALARM (R470): in Dormant, it wakes into Doze. -/
def rdvLeadAlarm (record : Nat) (s : State) : State :=
  if s.power.mode = .dormant ∧ s.power.rdvAlarms.contains record ∧ s.power.waking = none then
    let s1 := fireWake 8 .doze { s with power.rdvAlarms := s.power.rdvAlarms.filter (· ≠ record) }
    if s1.power.waking.isSome then powerCount cRdvWake { s1 with power.rdvVisit := true } else s1
  else s

/-- THERMAL_WAKE (R466): above TEMP_WAKE_HI or below TEMP_WAKE_LO. -/
def thermalWake (temp : Int) (s : State) : State :=
  if temp > 10 * s.kept.power.config.tempWakeHi ∨ temp < 10 * s.kept.power.config.tempWakeLo then
    fireWake 9 (wakeTarget s) s
  else s

/-- DEBUG_START_BIT (R466): while lane 3 is open. -/
def debugStartBit (s : State) : State := if lane3Open s then fireWake 10 (wakeTarget s) s else s

/-- Triggers at a wake from Dormant, taken as the resume, since none fires before (R83, log entry 74): one-shots whose instant passed are abandoned
with cause LATE; periodic ones go on at the first instant at least 50 µs after it; the instants missed are counted (Table 1-24). -/
def wakeTriggers (s : State) : State :=
  (List.range 16).foldl (fun s ch =>
    let t := s.trig ch
    let lim := s.ns + 50000
    if !t.armed ∨ t.held then s
    else if t.period = 0 then missedTrigger ch s
    else if t.nextNs < lim then
      let k := (lim - t.nextNs + (t.period - 1)) / t.period
      { updTrig ch (fun t => { t with nextNs := t.nextNs + k * t.period }) s with
        time.counts := tallyBy s.time.counts cTrigLate k }
    else s) s

/-- The metering trigger after a wake: it counts from the first whole beat at or after its channel's next instant. -/
def wakeMeter (s : State) : State :=
  match s.pole.trigCh with
  | some ch => { s with pole.liveFrom := ((s.trig ch).nextNs + 999999) / 1000000 }
  | none => s

/-- WAKE_BRINGUP_STAGE (R468, Table 10-9). Stages: 1 LDO, 2 voltage, 3 PLLs and time, 4 DRAM, 5 Steward cores, 6 SERDES and FIELD,
7 W1 and W2, 8 ready; a wake into Doze is ready at 6. -/
def bringupStage (s : State) : State :=
  match s.power.waking with
  | none => s
  | some w =>
    if w.eff.isSome then s
    else
      let k := w.stage + 1
      let ready : Bool := decide (k = 8) || (decide (k = 6) && decide (w.target = .doze))
      let s1 := { s with power.waking := some { w with stage := k, eff := if ready then some (reckon s) else none } }
      if k = 2 then { (if s1.power.op = 1 then s1 else modeChanges s1) with power.op := 1, power.confirmedOp := 1, power.vcoreTarget := opTargetMv s1 1 }
      else if k = 3 ∧ w.left = .dormant then
        let acc := accWrap (s.power.sleepAcc + sleepSpan s.power.sleepTicks s.power.sleepPpb)
        let s2 := { s1 with time.acc := acc, time.nextCommit := acc / 2 ^ 32 / 1000000 + 1,
                            power.dormantNs := s.power.dormantNs + (acc - s.power.sleepAcc) / 2 ^ 32 }
        let s3 := if s2.time.servo = .holdover ∧ s2.time.cause = .sourceLost then s2 else enterHoldover .sourceLost s2
        { s3 with time.afterDormant := true }
      else if k = 4 then (if s1.power.dramAwake then s1 else selfRefreshExit s1)
      else if k = 6 ∧ w.left = .dormant then { s1 with power.pcieWakeLow := true }
      else s1

/-- Resume (R468, R469, R80): at the commit window of M the target mode is in force. Full is reached through Lean (R467). -/
def resume (w : Waking) (b : Nat) (s : State) : State :=
  let m := if w.target = .full then .lean else w.target
  let us := (s.ns - w.latchNs) / 1000
  let s1 := { s with power.waking := none, power.mode := m, power.op := 1, power.modeSince := b, power.lastWake := w.bits,
                     power.lastResumeUs := us, power.listenBeat := false, power.dramAwake := decide (m ≠ .doze),
                     time.srcBeats := 0 }
  let s2 := if w.left = .dormant then wakeMeter (wakeTriggers s1)
    else if w.left = .doze ∧ s1.time.servo = .locked then setServo .acquiring { s1 with time.lockRun := 0 } else s1
  let s3 := raise 1 0x0303 (le 2 w.bits ++ le 1 w.left.code ++ le 4 us)
    (raise 1 0x0301 (le 1 m.code ++ le 1 w.left.code ++ le 1 1) (powerCount cModeChange (modeChanges s2)))
  let r : ModeReply := { eff := b, wakes := w.bits, resumeUs := us }
  let s4 := match s3.power.sleeper with
    | some id => completeJob id (modeReply r s3) { s3 with power.sleeper := none }
    | none => s3
  let s5 := match w.asker with
    | some a => answerMode a r s4
    | none => s4
  if w.target = .full then
    if s5.power.fullAllowed then startChange .full .self 1 false { s5 with power.wantFull := true }
    else powerCount cFullWithheld { s5 with power.wantFull := true }
  else s5

/-- DORMANT_RETURN (R470): after the rendezvous visit, no other wake latched since, the Steward requests Dormant again. -/
def dormantReturn (s : State) : State :=
  if s.power.mode = .doze ∧ s.power.rdvVisit ∧ s.kept.power.config.rdvReturn ∧ !inTransition s then startEntry .dormant .self 3 s
  else s

/-! ### AVSBus -/

/-- AVS_READ (R451): a transaction not acknowledged is repeated up to three times; a read within AVS_TOL_MV confirms. -/
def avsRead (acked : Bool) (mv : Nat) (s : State) : State :=
  if !acked then
    if s.power.avsRetries < 3 then powerCount cAvsRetry { s with power.avsRetries := s.power.avsRetries + 1 } else s
  else
    let s1 := { s with power.vcoreRead := mv, power.avsRetries := 0 }
    match s1.power.avs with
    | none => s1
    | some t =>
      let tol := s1.kept.power.config.avsTol
      if t.mv ≤ mv + tol ∧ mv ≤ t.mv + tol then
        let s2 := { s1 with power.avs := none, power.avsFaultRun := 0 }
        if t.raise then
          let s3 := { s2 with power.confirmedOp := max s2.power.confirmedOp t.op }
          match s3.power.change with
          | some c => if c.eff = none then { s3 with power.change := some { c with eff := some (reckon s3) } } else s3
          | none => s3
        else s2
      else s1

/-- A target not confirmed in its time: counted, reported, logged as class 10; no further raise is asked for (R452). -/
def avsFault (a : AvsTarget) (s : State) : State :=
  let data := le 2 a.mv ++ le 2 s.power.vcoreRead
  logFault 1 10 0 data (raise 1 0x0304 data (powerCount cAvsFault
    { s with power.avs := none, power.avsFaultStk := true, power.avsFaultRun := s.power.avsFaultRun + 1 }))

/-- What a raise that failed leaves: the target of the point in force again, and the change that waited for it answered ABANDONED (R452). -/
def raiseFailed (s : State) : State :=
  let s1 := writeAvs (opTargetMv s s.power.op) false s.power.op { s with power.opNext := none }
  match s1.power.change with
  | some c =>
    if c.eff = none then answerMode c.asker { status := stAbandoned, detail := 5, source := 1 } (modeChanges { s1 with power.change := none }) else s1
  | none => s1

/-- AVS_TIMEOUT (R452): a target not confirmed within AVS_TIMEOUT_US of its write. -/
def avsTimeout (s : State) : State :=
  match s.power.avs with
  | none => s
  | some a =>
    let s1 := avsFault a (advanceTo (a.writtenNs + s.kept.power.config.avsTimeoutUs * 1000) s)
    if a.raise then raiseFailed s1 else s1

/-- OPERATING_POINT_CHANGE (R448, R449): within the mode's range, after OP_HOLD beats; a raise writes the target first. -/
def opChange (op : Nat) (s : State) : State :=
  if opAllowed s s.power.mode op ∧ op ≠ s.power.op ∧ s.power.opBeats ≥ s.kept.power.config.opHold ∧ s.power.opNext = none ∧
      s.power.avs = none ∧ !inTransition s ∧ s.boot.stage = 8 then
    if op > s.power.confirmedOp then
      if raiseHeld s then s else writeAvs (opTargetMv s op) true op { s with power.opNext := some op }
    else { s with power.opNext := some op }
  else s

/-- A change between serving modes takes effect at the commit window of beat `b` (R446). One to Full whose permission has fallen meanwhile is
withheld: it brings Lean (R8, R443), and changes nothing where the device is in Lean. -/
def changeCommit (b : Nat) (c : ModeChange) (s : State) : State :=
  let held : Bool := decide (c.target = .full) && !s.power.fullAllowed
  let m : Mode := if held then .lean else c.target
  let old := s.power.mode
  let s1 : State := modeChanges { (if held then powerCount cFullWithheld s else s) with power.change := none }
  let s2 := if m = old then s1
    else raise 1 0x0301 (le 1 m.code ++ le 1 old.code ++ le 1 c.cause)
      (powerCount cModeChange (setOp (opForMode s m) { s1 with power.mode := m, power.modeSince := b }))
  answerMode c.asker { detail := if c.withheld || held then 0x10 else 0, eff := b } s2

/-- What the power sequencer does at the commit window of beat `b`, `n` beats after the last (R446, R448, R468). -/
def powerCommit (b n : Nat) (s : State) : State :=
  let s1 := { s with power.opBeats := s.power.opBeats + n,
                     power.fullBeats := if s.power.fullAllowed then s.power.fullBeats + n else 0 }
  let s2 := match s1.power.opNext with
    | some op => if op ≤ s1.power.confirmedOp ∧ s1.power.mode.serves then setOp op s1 else s1
    | none => s1
  let s3 := match s2.power.change with
    | some c =>
      match c.eff with
      | some m => if m ≤ b then changeCommit b c s2 else s2
      | none => s2
    | none => s2
  match s3.power.waking with
  | some w =>
    match w.eff with
    | some m => if m ≤ b then resume w b s3 else s3
    | none => s3
  | none => s3

/-! ### Commands -/

/-- PWR_CONFIG (R478, Table 10-15). -/
def pwrConfig : Handler where
  fields := [fRange 16 1 0 2, fRange 17 1 0 3, fMask 18 1 7, fRange 19 1 0 15, fMask 20 2 0x0FFF, fMask 22 2 0x0FFF, fAny 24 4,
    fAny 28 6, fAny 34 1, fAny 35 1, fRange 36 2 10 65535, fRange 38 1 0 3, fRange 39 1 1 50, fRange 40 1 2 25, fAny 41 1,
    fAny 42 1, fZero 43 1, fRange 44 2 100 5000, fZero 46 2]
  run c _ s :=
    (stageKept (fun k => { k with power.config := {
      wakeTarget := c.u 16 1, alarmTarget := c.u 17 1, gpioFalling := c.flag 18 1 0, rdvReturn := c.flag 18 1 2,
      avsRail := c.u 19 1, wakeEnDoze := c.u 20 2, wakeEnDormant := c.u 22 2, gpioWake := c.u 24 4,
      wakeKey := if c.flag 18 1 1 then c.bytesAt 28 6 else k.power.config.wakeKey,
      tempWakeHi := c.i 34 1, tempWakeLo := c.i 35 1, opHold := c.u 36 2, avsClk := c.u 38 1, avsSlew := c.u 39 1,
      avsTol := c.u 40 1, avsPmNormal := c.u 41 1, avsPmLight := c.u 42 1, avsTimeoutUs := c.u 44 2 } }) s, .reply (ok))

/-- PWR_ALARM (R480). -/
def pwrAlarm : Handler where
  fields := [fMask 16 1 1, fZero 17 3, fAny 20 8]
  run c _ s :=
    if !c.flag 16 1 0 then ({ s with power.alarm := none }, .reply (ok))
    else if c.u 20 8 < s.beat + 100 then (s, .reply { status := stLate })
    else ({ s with power.alarm := some (c.u 20 8) }, .reply (ok))

/-- PWR_STATUS (Table 10-16). -/
def pwrStatus : Handler := readHandler [] (fun _ s =>
  le 1 s.power.mode.code ++ le 1 s.power.op ++
    le 1 (fieldsWord [(0, bit s.power.fullAllowed), (1, bit (inTransition s)), (2, bit (s.power.holds ≠ [])),
      (3, bit (raiseHeld s))]) ++
    le 1 (s.power.chainsW1 % 16 + 16 * (s.power.chainsW2 % 16)) ++ le 2 s.power.vcoreTarget ++ le 2 s.power.vcoreRead ++
    le 2 s.power.avsStatus ++ le 2 (s.kept.assay.guards.getD (s.power.op - 1) 0) ++ le 8 s.power.modeSince ++
    le 2 s.power.lastWake ++ [0, 0] ++ le 4 s.power.lastResumeUs)

/-- PWR_COUNTERS (R481, Table 10-17). Clearing AVS_FAULT_STK ends the hold of R452. -/
def pwrCounters : Handler where
  fields := [fMask 16 1 3, fMask 17 1 3, fZero 18 2]
  run c _ s :=
    let body := le 1 (bit s.power.avsFaultStk + 2 * bit s.power.entryRefusedStk) ++ [0, 0, 0] ++
      tallyBytes s.power.counts 20 13 ++ le 4 s.kept.power.brownOutCnt
    let s1 := if c.flag 16 1 0 then
        setKept (fun k => { k with power.brownOutCnt := 0 }) { s with power.counts := [] } else s
    let clr := fun i => c.flag 16 1 1 && c.flag 17 1 i
    ({ s1 with power.avsFaultStk := s.power.avsFaultStk && !clr 0, power.entryRefusedStk := s.power.entryRefusedStk && !clr 1,
               power.avsFaultRun := if clr 0 then 0 else s.power.avsFaultRun }, .reply (ok body))

/-! ### Meanings -/

/-- PWR_REQ_WRITE. -/
def execPwrReqWrite (target reqTag : Nat) (s : State) : Out := act (pwrReq target reqTag) s
/-- FULL_RETURN. -/
def execFullReturn (s : State) : Out := act fullReturn s
/-- AVS_TIMEOUT. -/
def execAvsTimeout (s : State) : Out := act avsTimeout s
/-- SPI_CS_FALL. -/
def execSpiCsFall (s : State) : Out := act spiCsFall s
/-- SIDEBAND_ADDRESS_MATCH. -/
def execSidebandAddressMatch (offset : Nat) (recoveryWrite : Bool) (s : State) : Out := act (sidebandMatch offset recoveryWrite) s
/-- SIDEBAND_HOLD_END. -/
def execSidebandHoldEnd (s : State) : Out := act sidebandHoldEnd s
/-- WAKE_FRAME_RX. -/
def execWakeFrameRx (port : Nat) (f : WakeFrame) (s : State) : Out := act (wakeFrame port f) s
/-- LINK_ENERGY. -/
def execLinkEnergy (port : Nat) (s : State) : Out := act (linkEnergy port) s
/-- PWR_ALARM_FIRE. -/
def execPwrAlarmFire (s : State) : Out := act alarmFire s
/-- RDV_LEAD_ALARM. -/
def execRdvLeadAlarm (record : Nat) (s : State) : Out := act (rdvLeadAlarm record) s
/-- THERMAL_WAKE. -/
def execThermalWake (temp : Int) (s : State) : Out := act (thermalWake temp) s
/-- DEBUG_START_BIT. -/
def execDebugStartBit (s : State) : Out := act debugStartBit s
/-- DORMANT_RETURN. -/
def execDormantReturn (s : State) : Out := act dormantReturn s
/-- PWR_SET_MODE. -/
def execPwrSetMode (c : Cmd) (s : State) : Out := act (submit 0x0301 pwrSetMode c) s
/-- PWR_CONFIG. -/
def execPwrConfig (c : Cmd) (s : State) : Out := act (submit 0x0302 pwrConfig c) s
/-- PWR_ALARM. -/
def execPwrAlarm (c : Cmd) (s : State) : Out := act (submit 0x0303 pwrAlarm c) s
/-- PWR_STATUS. -/
def execPwrStatus (c : Cmd) (s : State) : Out := act (submit 0x0304 pwrStatus c) s
/-- PWR_COUNTERS. -/
def execPwrCounters (c : Cmd) (s : State) : Out := act (submit 0x0305 pwrCounters c) s
/-- STEWARD_MODE_SCHEDULE. -/
def execStewardModeSchedule (target : Nat) (s : State) : Out := act (modeSchedule target) s
/-- OPERATING_POINT_CHANGE. -/
def execOperatingPointChange (op : Nat) (s : State) : Out := act (opChange op) s
/-- PCIE_LINK_UP (R440). -/
def execPcieLinkUp (s : State) : Out := act (fun s => { s with power.pcieUp := true, power.pcieWakeLow := false }) s

end Sys2Proof.Machine
end

