-- ==== Sys2Proof/Machine/FieldRx.lean ====
section
/-! DEFINITION. The field radio, receiving: detection, the checks of a frame, acknowledgements, polls and their answers (chapter 3). -/

namespace Sys2Proof.Machine

/-! ### Detection (R139 to R147) -/

/-- A test mode 3 of the chain counts receptions on this channel, whatever FIELD_CONFIG says of it (R180, Table 3-21). -/
def testOpen (s : State) (ch : Nat) : Bool :=
  match (s.fchain (chainOf ch)).test with
  | some (m, c, _, _) => decide (m = 3) && decide (chanKey (chainOf ch) c = ch)
  | none => false

/-- Does channel `ch` receive now (R134, R136, R138, R173)? -/
def channelOpen (s : State) (ch : Nat) : Bool :=
  let k := chainOf ch
  let rdvOpen : Bool := s.field.rdv.any (fun r =>
    (r.2.window.isSome || r.2.continuous.isSome) && (match Map.get? s.kept.field.rdv r.1 with
      | some g => decide (chanKey g.band g.channel = ch)
      | none => false))
  fieldUp s && !blanked s (fieldSource k) && synthReady s (if k = 0 then 2 else 4) &&
    (testOpen s ch || (bandOn s k &&
      (if k = 0 then decide (11 ≤ ch) && decide (ch ≤ 26) && hasBit (fcfg s).chanMask (ch - 11)
       else decide (ch = 100 + (fcfg s).fsgChannel) && decide ((s.fchain 1).retuneUntil ≤ s.time.mono)))) &&
    (decide (s.power.mode ≠ .doze) || listenNow s || rdvOpen)

/-- Symbol periods of CORR, timing and power, oldest first, that qualify for a detection at `timing` (R139): DET_COUNT of them, each with CORR of
DET_THRESH and power of DET_FLOOR at least, at timings that move by a chip at most from one to the next. -/
def qualifies (g : FieldConfig) (timing : Int) (periods : List (Nat × Int × Int)) : Bool :=
  decide (periods.length = g.detCount) && periods.all (fun p => decide (p.1 ≥ g.detThresh) && decide (p.2.2 ≥ g.detFloor)) &&
    (periods.zip (periods.drop 1)).all (fun x => decide ((x.2.2.1 - x.1.2.1).natAbs ≤ 1)) && decide (periods.getLast?.map (·.2.1) = some timing)

/-- A detection after the SFD is judged (R142, R145): at CAPTURE_MARGIN above the frame's strength it ends the frame, or, in the symbol period of
the frame's last chip, waits for the frame to end. -/
def judgeCapture (ch : Nat) (p : Preamble) (s : State) : State :=
  match s.rxOf ch with
  | .receiving r =>
    if p.strength < r.rssi + (fcfg s).captureMargin then s
    else if p.at' + symNs ch > r.fin then setRx ch (.receiving { r with next := some p }) s
    else setRx ch (.acquiring p none none) (endReception ch 4 fCaptured (setRx ch (.receiving { r with next := none }) s))
  | _ => s

/-- FIELD_DETECT, with FIELD_ACQ_RESTART and FIELD_CAPTURE: a preamble is detected at `timing` chips with a strength in dBm (R139, R141, R142). -/
def fieldDetect (ch : Nat) (timing strength : Int) (periods : List (Nat × Int × Int)) (s : State) : State :=
  if !channelOpen s ch ∨ !qualifies (fcfg s) timing periods then s
  else
    let p : Preamble := { at' := s.time.mono, timing := timing, strength := strength }
    match s.rxOf ch with
    | .idle => setRx ch (.acquiring p none none) s
    | .acquiring o b _ =>
      if (timing - o.timing).natAbs > 1 ∧ strength ≥ o.strength + 3 then fieldCount ch fRestart none (setRx ch (.acquiring p (some o) none) s)
      else setRx ch (.acquiring o b (some p)) s
    | .receiving _ => judgeCapture ch p s

/-- FIELD_ACQ_ABANDON (R140): no SFD within 12 symbol periods. -/
def acqAbandon (ch : Nat) (s : State) : State :=
  match s.rxOf ch with
  | .acquiring p _ _ => fieldCount ch fFalseDet none (setRx ch .idle (advanceMono (p.at' + 12 * symNs ch) s))
  | _ => s

/-- The last chip of a frame whose SFD ends at `t` (R133, R148): after as many bytes as the PHR says, or after a wrong PHR. -/
def lastChipAt (ch phr t : Nat) : Nat := t + (if phr ≥ 128 ∨ phr ≤ 4 then 2 else 2 * (1 + phr)) * symNs ch

/-- The SFD of preamble `p` ends now (R140, R147): RSSI, CORR_Q and the stamp of the SHR's first chip are latched. F24's channelizer latency of
2.4 µs is removed. -/
def latchSfd (ch : Nat) (rssi : Int) (corrQ phr : Nat) (s : State) : State :=
  let src := fieldSource (chainOf ch)
  let late := if ch < 100 then 2400 else 0
  let r : Reception := { rssi := rssi, corrQ := corrQ, stamp := ingressStamp src 0 0 (10 * symNs ch + late) s, stale := chainStale s src 0 0,
                         at' := s.time.mono, fin := lastChipAt ch phr s.time.mono }
  setRx ch (.receiving r) s

/-- FIELD_SFD_END (R140, R144, R147): an SFD that ends in the symbol period of a detection stands, that of the preamble which a restart put
aside too, and the detection is judged as one after it. -/
def sfdEnd (ch : Nat) (rssi : Int) (corrQ phr : Nat) (s : State) : State :=
  let same (p : Preamble) : Bool := decide (s.time.mono < p.at' + symNs ch)
  let late (p : Preamble) : Bool := decide (s.time.mono > p.at' + 12 * symNs ch)
  match s.rxOf ch with
  | .acquiring p (some o) missed =>
    if same p ∧ !late o then judgeCapture ch p (latchSfd ch rssi corrQ phr (uncountRestart ch s))
    else if late p then s
    else (match missed with
      | some m => if same m then judgeCapture ch m (latchSfd ch rssi corrQ phr s) else latchSfd ch rssi corrQ phr s
      | none => latchSfd ch rssi corrQ phr s)
  | .acquiring p none missed =>
    if late p then s
    else (match missed with
      | some m => if same m then judgeCapture ch m (latchSfd ch rssi corrQ phr s) else latchSfd ch rssi corrQ phr s
      | none => latchSfd ch rssi corrQ phr s)
  | _ => s

/-- FIELD_SYNC_LOST (R143): the mean CORR of 8 consecutive symbols lies below SYNC_FLOOR. -/
def syncLost (ch : Nat) (corr : List Nat) (s : State) : State :=
  if corr.length = 8 ∧ corr.sum < 8 * (fcfg s).syncFloor then endReception ch 3 fSyncLost s else s

/-- FIELD_GAIN_REDUCE (R137). -/
def gainReduce (db : Nat) (s : State) : State := if bandOn s 0 ∧ fieldUp s then { s with field.gainDb := s.field.gainDb + db } else s

/-- FIELD_GAIN_RAISE (R137): by at most 6 dB in 16 µs, only while no F24 channel holds an acquisition or a reception. -/
def gainRaise (db : Nat) (s : State) : State :=
  if !bandOn s 0 ∨ !fieldUp s ∨ s.field.rx.any (fun x => decide (x.1 < 100) && decide (x.2 ≠ .idle)) then s
  else
    let s1 := advanceMono (s.field.gainAt + 16000) s
    { s1 with field.gainDb := s1.field.gainDb - min db 6, field.gainAt := s1.time.mono }

/-! ### The checks (R148 to R171) -/

/-- The child that sent a frame (R160). -/
def senderChild (s : State) (x : FieldRx) : Option Nat :=
  match x.srcShort, x.srcExt with
  | some a, _ => (s.kept.field.children.find? (fun e => decide (e.2.short = a) && decide (a ≠ 0xFFFE))).map (·.1)
  | none, some a => (s.kept.field.children.find? (fun e => decide (e.2.ext = a))).map (·.1)
  | none, none => none

/-- The key of an unknown sender in the duplicate cache. -/
def senderKey (x : FieldRx) : Nat :=
  match x.srcExt, x.srcShort with
  | some a, _ => 2 * a + 1
  | none, some a => 2 * (a + 65536 * x.srcPan.getD 0)
  | none, none => 0

/-- The access that an acknowledgement on `ch` answers: the chain awaits it, the DSN (or, where sequence numbers are suppressed, the frame
counter) is that of its frame (R149, R156). -/
def awaited (s : State) (ch : Nat) (x : FieldRx) : Option FieldAccess :=
  match (s.fchain (chainOf ch)).access with
  | some a =>
    if (a.stage = 3 ∨ a.stage = 5) ∧ chanKey a.item.band a.item.channel = ch ∧
        (if x.seqSuppressed then some x.counter = a.item.fc else x.dsn = a.item.dsn) then some a else none
  | none => none

/-- The address filter (R149). -/
def addressOk (s : State) (ch : Nat) (x : FieldRx) : Bool :=
  let g := fcfg s
  let toMe : Bool := (match x.dstPan with | some p => decide (p = g.panId ∨ p = 0xFFFF) | none => false) &&
    ((match x.dstShort with | some a => decide (a = g.short ∨ a = 0xFFFF) | none => false) ||
     (match x.dstExt with | some a => decide (a = Config.extAddress) | none => false))
  let noDst : Bool := x.dstShort.isNone && x.dstExt.isNone
  toMe || (decide (x.ftype = 1 ∨ x.ftype = 3) && noDst && decide (x.srcPan = some g.panId)) ||
    (decide (x.ftype = 0) && (decide (x.srcPan = some g.panId) || g.beaconAny)) || (decide (x.ftype = 2) && (awaited s ch x).isSome)

/-- The child that a frame is from: an enhanced acknowledgement, which names no source, is from the device whose frame it answers. -/
def fromChild (s : State) (ch : Nat) (x : FieldRx) : Option Nat := if x.ftype = 2 then (awaited s ch x).bind (·.item.child) else senderChild s x

/-- The duplicate entry of the sender, if any. -/
def dupOf (s : State) (ch : Nat) (x : FieldRx) : Option DupEntry :=
  match fromChild s ch x with
  | some c => some (childRun s c).dup
  | none => if x.ftype = 2 then none else (s.field.unknown.find? (fun e => e.1 = senderKey x)).map (·.2)

/-- R166: is the frame a duplicate? The DSN of an acknowledgement is that of the frame it answers, and none of its sender's (DEDUCED, log entry 86). -/
def isDuplicate (s : State) (ch : Nat) (x : FieldRx) : Bool :=
  match dupOf s ch x with
  | none => false
  | some d =>
    if x.secLevel ≠ 0 then decide ((if x.keyMode = 0 then d.fcPair else d.fcGroup) = some x.counter)
    else decide (x.ftype ≠ 2) && decide (d.dsn = some x.dsn) && decide (s.beat ≤ d.beat + (fcfg s).dupWindow)

/-- Encryption and MIC length that a level gives. -/
def levelOk (level least : Nat) : Bool := (decide (level ≥ 4) || decide (least < 4)) && decide (level % 4 ≥ least % 4)

/-- The key entry that a secured frame from `child` names (R168): none is SEC_NO_KEY. -/
def frameKey (s : State) (child : Option Nat) (x : FieldRx) : Option Nat :=
  if child.isNone ∧ x.srcExt.isNone then none
  else if x.keyMode = 0 then
    match child with
    | some c => match childRec s c with
      | some r => if r.keyIdx = 0xFFFF ∨ (fieldKey s r.keyIdx).isNone then none else some r.keyIdx
      | none => none
    | none => none
  else
    match fieldKey s (4096 + x.keyIndex) with
    | some e => if e.keySource = x.keySource then some (4096 + x.keyIndex) else none
    | none => none

/-- The MIC of a secured frame matches (R168): it was sealed with this key, level and counter, with the header that has arrived, and with the
extended address of its sender, which the child record gives for a short one. A level without a MIC has none to fail. -/
def micOk (s : State) (child : Option Nat) (x : FieldRx) (key : Nat) : Bool :=
  let ext : Option Nat := match child.bind (childRec s) with | some r => some r.ext | none => x.srcExt
  decide (x.secLevel % 4 = 0) || (match x.sealed, fieldKey s key with
    | some m, some e => decide (m.key = e.key) && decide (some m.ext = ext) && decide (m.counter = x.counter) && decide (m.level = x.secLevel) &&
      decide (m.header = x.header)
    | _, _ => false)

/-- The security checks (R168 to R170, R181): the status, 0 where they pass. -/
def securityStatus (s : State) (ch : Nat) (x : FieldRx) : Nat :=
  let child := fromChild s ch x
  let rec' : Option Child := match child with | some c => childRec s c | none => none
  let least := match rec' with | some r => if r.joining then (fcfg s).minSecUnknown else r.minSec | none => (fcfg s).minSecUnknown
  if x.secLevel = 0 then (if least = 0 then 0 else 0x0A)
  else match frameKey s child x with
    | none => 0x09
    | some key =>
      if !levelOk x.secLevel least then 0x0A
      else
        let last : Option Nat := match rec' with
          | some r => if x.keyMode = 0 then r.inFcPair else r.inFcGroup
          | none => match dupOf s ch x with
            | some d => if x.keyMode = 0 then d.fcPair else d.fcGroup
            | none => none
        if x.counter = 0xFFFFFFFF ∨ last.any (fun n => decide (x.counter ≤ n)) then 0x0B
        else if !micOk s child x key then 0x0C else 0

/-- The status of a frame that reached its last chip (Table 3-6), in the order of R148. An immediate acknowledgement names no sender and cannot be
secured: no minimum applies to it (DEDUCED, log entry 79). -/
def rxStatus (s : State) (ch : Nat) (x : FieldRx) : Nat :=
  if x.len ≤ 4 ∨ x.phrReserved then 2
  else if !x.fcsOk then 1
  else if !addressOk s ch x then 6
  else if x.ftype ≥ 4 ∨ x.version = 3 ∨ (x.seqSuppressed ∧ x.secLevel = 0) then 7
  else if isDuplicate s ch x then 8
  else
    let sec := if x.ftype = 2 ∧ x.version < 2 ∧ x.secLevel = 0 then 0 else securityStatus s ch x
    if sec ≠ 0 then sec else if !x.buffer then 0x0D else 0

/-- The counter of a status. -/
def rxCounter (st : Nat) : Nat :=
  if st = 0 then fRxOk else if st = 1 then fFcsErr else if st = 2 then fPhrErr else if st = 6 then fFiltered else if st = 7 then fUnsupp
  else if st = 8 then fDup else if st = 9 then fNoKey else if st = 0x0A then fSecLevel else if st = 0x0B then fReplay else fMic

/-- The incoming counter of child `c` after a secured frame (R170). A counter that a command has loaded and that is not in force yet stands
(R180). -/
def acceptCounter (c : Nat) (x : FieldRx) (s : State) : State :=
  if x.secLevel = 0 then s
  else
    let was := (childRec s c).getD {}
    setKept (fun k => { k with field.children := match Map.get? k.field.children c with
      | some r => Map.set k.field.children c
          (if x.keyMode = 0 then (if r.inFcPair = was.inFcPair then { r with inFcPair := some x.counter } else r)
           else if r.inFcGroup = was.inFcGroup then { r with inFcGroup := some x.counter } else r)
      | none => k.field.children }) s

/-- The duplicate cache and the incoming counters after a frame that ended RX_OK (R166, R170). -/
def acceptSender (ch : Nat) (x : FieldRx) (rssi : Int) (corrQ : Nat) (s : State) : State :=
  let upd (d : DupEntry) : DupEntry :=
    { dsn := if x.seqSuppressed then d.dsn else some x.dsn,
      fcPair := if x.secLevel ≠ 0 ∧ x.keyMode = 0 then some x.counter else d.fcPair,
      fcGroup := if x.secLevel ≠ 0 ∧ x.keyMode ≠ 0 then some x.counter else d.fcGroup, beat := s.beat }
  match senderChild s x with
  | some c =>
    let s1 := updRun c (fun r => { r with dup := upd r.dup, rssi := rssi, corrQ := corrQ, channel := if ch ≥ 100 then ch - 100 else ch }) s
    acceptCounter c x s1
  | none =>
    let key := senderKey x
    let d := ((s.field.unknown.find? (fun e => e.1 = key)).map (·.2)).getD {}
    { s with field.unknown := ((key, upd d) :: s.field.unknown.filter (fun e => e.1 ≠ key)).take 64 }

/-- FIELD_REPLAY, at most once per sender in 1,000 beats; it sets REPLAY_STK (R183). -/
def replayEvent (ch : Nat) (x : FieldRx) (s : State) : State :=
  let s1 := { s with field.replayStk := true }
  let told (b : Option Nat) : Bool := match b with | some n => decide (s.beat < n + 1000) | none => false
  match senderChild s x with
  | some c =>
    if told (childRun s c).replayBeat then s
    else raise (fieldSource (chainOf ch)) 0x0606 (le 2 c ++ le 4 x.counter) (updRun c (fun r => { r with replayBeat := some s.beat }) s1)
  | none =>
    let k := senderKey x
    if told ((s.field.unknownReplay.find? (fun e => e.1 = k)).map (·.2)) then s
    else raise (fieldSource (chainOf ch)) 0x0606 (le 2 0xFFFF ++ le 4 x.counter)
      { s1 with field.unknownReplay := (k, s.beat) :: s.field.unknownReplay.filter (fun e => e.1 ≠ k) }

/-- The metadata of a descriptor (Table 3-7). -/
def fieldMeta (s : State) (ch st : Nat) (r : Reception) (x : FieldRx) : List Byte :=
  let dec : Bool := decide (x.secLevel ≥ 4) && decide (st = 0)
  fieldInfo ch st r.rssi r.corrQ (fromChild s ch x) (fieldsWord [(0, x.secLevel), (3, bit dec), (4, x.keyMode)])

/-- A value as it stood at local instant `t`, from its changes since: the value before the first of them. -/
def valueAt (changes : List (Nat × Bool)) (t : Nat) (now : Bool) : Bool := (((changes.filter (fun e => decide (t < e.1))).getLast?).map (·.2)).getD now

/-- The instant at which the search of the pending table completes (Table 3-11): 8 µs after the source address, of a frame whose last chip arrives
now. -/
def searchAt (s : State) (ch : Nat) (x : FieldRx) : Nat :=
  let address (short ext : Option Nat) : Nat := if short.isSome then 2 else if ext.isSome then 8 else 0
  let bytes := 2 + (if x.seqSuppressed then 0 else 1) + (if x.dstPan.isSome then 2 else 0) + address x.dstShort x.dstExt +
    (if x.srcPan.isSome then 2 else 0) + address x.srcShort x.srcExt
  s.time.mono - (x.len - bytes) * 2 * symNs ch + 8000

/-- The pending entry of child `c` as it stood at local instant `t` (R161, R164): PEND OR FORCE_PEND. -/
def entryAt (s : State) (c t : Nat) : Bool :=
  valueAt (Map.getD s.field.pends c []) t (pendQ s (0x2000 + c)) ||
    valueAt (Map.getD s.field.forces c []) t ((childRec s c).map (·.forcePend) = some true)

/-- Is a child's poll answered? An alternate child's only with its key (R178). -/
def answersPoll (s : State) (c : Nat) : Bool :=
  match childRec s c with
  | some r => !r.standby || r.joining || (decide (r.keyIdx ≠ 0xFFFF) && (fieldKey s r.keyIdx).isSome)
  | none => false

/-- The PSDU length of an enhanced acknowledgement (R150): frame control, DSN, destination, auxiliary header and MIC, FCS. -/
def ackLen (x : FieldRx) : Nat :=
  if x.version ≠ 2 then 5
  else
    let keyId := if x.keyMode = 0 then 0 else if x.keyMode = 1 then 1 else if x.keyMode = 2 then 5 else 9
    let mic := if x.secLevel % 4 = 0 then 0 else if x.secLevel % 4 = 1 then 4 else if x.secLevel % 4 = 2 then 8 else 16
    2 + (if x.seqSuppressed then 0 else 1) + (if x.srcExt.isSome then 8 else 2) + (if x.secLevel = 0 then 0 else 5 + keyId + mic) + 2

/-- The descriptor of a delivered frame is queued to F's ring, its ACKINFO as known then (Tables 3-5, 3-7, R56). -/
def queueDesc (src ackInfo : Nat) (d : Option FieldDesc) (s : State) : State :=
  match d with
  | some d => emit (.frame src 9 (d.id :: d.info.map (·.toNat) ++ [ackInfo] ++ stampNats d.stamp d.stale)) s
  | none => s

/-- What became of an acknowledgement: ACKINFO 2 missed, 1 sent, 5 sent with frame pending (Table 3-7). -/
def ackOutcome (k : AckDue) (info : Nat) (s : State) : State :=
  let src := fieldSource (chainOf k.channel)
  queueDesc src info k.desc (emit (.frame src 12 [k.channel, k.child.getD 0xFFFF, info]) s)

/-- An acknowledgement not sent (ACK_MISSED, R152). -/
def ackMissed (k : AckDue) (s : State) : State := ackOutcome k 2 (fieldCount k.channel fAckMissed none s)

/-- A due acknowledgement takes its place (R153): of two that would overlap, the one whose frame's last chip arrived first is sent; on one
tick, the lower channel's. -/
def queueAck (k : AckDue) (s : State) : State :=
  let chain := chainOf k.channel
  let clash (o : AckDue) : Bool := decide (o.at' < k.at' + k.dur) && decide (k.at' < o.at' + o.dur)
  let wins (o : AckDue) : Bool := decide (o.lastChip < k.lastChip) || (decide (o.lastChip = k.lastChip) && decide (o.channel < k.channel))
  let acks := (s.fchain chain).acks
  if acks.any (fun o => clash o && wins o) then ackMissed k s
  else
    let lost := acks.filter clash
    lost.foldl (fun s o => ackMissed o s) (updFchain chain (fun c => { c with acks := acks.filter (fun o => !clash o) ++ [k] }) s)

/-- The polls of R161 and R165: a Data Request from a valid child that ended RX_OK. -/
def acceptPoll (ch c : Nat) (s : State) : State :=
  let s1 := fieldCount ch fPoll (some c) (updRun c (fun r => { r with lastPoll := s.beat, pollAt := elapsed s, silentArmed := true, polled := true }) s)
  match childRec s1 c with
  | some r =>
    if r.standby ∧ !r.joining ∧ !(childRun s1 c).standbyTold then
      raise (fieldSource (chainOf ch)) 0x0607 (le 2 c ++ le 1 (if ch ≥ 100 then ch - 100 else ch)) (updRun c (fun x => { x with standbyTold := true }) s1)
    else s1
  | none => s1

/-- A rendezvous frame is heard (R174, R176): its SFD ended within the window, or while the listener listens on. -/
def rdvHeard (ch nb sfdAt : Nat) (s : State) : State :=
  s.field.rdv.foldl (fun s r =>
    match Map.get? s.kept.field.rdv r.1 with
    | some g =>
      let inWindow : Bool := decide (r.2.opened ≤ sfdAt) && (match r.2.window with | some t => decide (sfdAt ≤ t) | none => r.2.continuous.isSome)
      if g.enable ∧ g.listen ∧ g.neighbour = nb ∧ chanKey g.band g.channel = ch ∧ inWindow then
        let h := { r.2 with heard := true, continuous := none, syncAt := s.time.mono, syncDorm := s.power.dormantNs }
        { s with field.rdv := Map.set s.field.rdv r.1 h }
      else s
    | none => s) s

/-- The frame passed every check: delivery to the ring of F, policers, polls, wakes, rendezvous (R1, R2, R148, R161, R174, R177, R327, R475). Says
whether a policer let it through to the ring. -/
def deliverField (ch : Nat) (x : FieldRx) (r : Reception) (s : State) : State × Bool :=
  let child := senderChild s x
  let s1 := acceptSender ch x r.rssi r.corrQ (fieldBytes false child (if x.ftype = 1 then x.payload else 0) s)
  let pol : List Nat := match child with
    | some c => (match childRec s c with | some r => boundPolicer s 2 r.client | none => [])
    | none => []
  let (s2, kept) : State × Bool := match policeAll pol x.len 0 none s1 with
    | (t, _, _, true) => (t, false)
    | (t, _, _, false) => (emit (.toSteward 32 26 (senderKey x)) (updRing 34 (fun g => { g with frames := satInc 32 g.frames }) t), true)
  let s3 := match child with
    | some c => if x.ftype = 3 ∧ x.command = 4 then acceptPoll ch c s2 else s2
    | none => s2
  let vendor (sub : Nat) : Bool := decide (x.ftype = 3) && decide (x.command = 0xB5) && decide (x.sub = sub)
  let s4 := match x.rdvFrom with
    | some n => if vendor 3 then emit (.frame (fieldSource (chainOf ch)) 13 (n :: stampNats r.stamp r.stale)) (rdvHeard ch n r.at' s3) else s3
    | none => s3
  if vendor 2 ∧ s4.power.mode = .doze ∧ listenNow s4 ∧ x.wakeKey = s4.kept.power.config.wakeKey ∧
      x.wakeKey ≠ [0, 0, 0, 0, 0, 0] ∧ (x.wakeTarget ≤ 2 ∨ x.wakeTarget = 0xFF) then (fireWake 5 (frameTarget x.wakeTarget s4) s4, kept)
  else (s4, kept)

/-- A blank has begun over the channel's last chips: the front-end sequence of a committed transmission runs (R158, R214). -/
def overtaken (s : State) (chain : Nat) : Bool :=
  sequenceBegun s (fieldSource chain) || (decide (chain = 0) && shares24 s && sequenceBegun s 33)

/-- The acknowledgement that a frame calls for, one that ended RX_OK or as a duplicate (R150, R151, R161). -/
def ackFor (s : State) (ch : Nat) (x : FieldRx) (desc : Option FieldDesc) : AckDue :=
  let child := senderChild s x
  let poll : Bool := decide (x.ftype = 3) && decide (x.command = 4)
  let pend : Bool := poll && child.any (fun c => answersPoll s c && entryAt s c (searchAt s ch x))
  let secured : Bool := decide (x.version = 2) && decide (x.secLevel ≠ 0)
  { channel := ch, lastChip := s.time.mono, at' := s.time.mono + 12 * symNs ch, pending := pend, enhanced := decide (x.version = 2),
    dsn := if x.seqSuppressed then none else some x.dsn,
    dest := if x.version ≠ 2 then (0, 0) else match x.srcShort, x.srcExt with | some a, _ => (2, a) | none, some a => (3, a) | none, none => (0, 0),
    key := if secured then frameKey s child x else none, level := if secured then x.secLevel else 0,
    dur := fieldNs ch (ackLen x), poll := if pend then child else none, child := child, desc := desc }

/-- An acknowledgement that ended RX_OK: the counter of its sender and its duplicate entry, and delivery to the ring of F (R148, R166, R170). -/
def deliverAck (ch : Nat) (x : FieldRx) (r : Reception) (s : State) : State :=
  let src := fieldSource (chainOf ch)
  let child := fromChild s ch x
  let s1 := fieldCount ch fRxOk child s
  let s2 := match child with
    | some c => acceptCounter c x (if x.secLevel = 0 then s1 else updRun c (fun y => { y with dup := { y.dup with
        fcPair := if x.keyMode = 0 then some x.counter else y.dup.fcPair, fcGroup := if x.keyMode ≠ 0 then some x.counter else y.dup.fcGroup } }) s1)
    | none => s1
  queueDesc src 0 (some { id := x.id, info := fieldMeta s ch 0 r x, stamp := r.stamp, stale := r.stale })
    (emit (.toSteward 32 26 (senderKey x)) (updRing 34 (fun g => { g with frames := satInc 32 g.frames }) s2))

/-- FIELD_RX_END (R148, R158): the last chip arrives and the checks set the status. In test mode 3 the status is counted and nothing else is done
(Table 3-21). -/
def fieldRxEnd (ch : Nat) (x : FieldRx) (s : State) : State :=
  match s.rxOf ch with
  | .receiving r =>
    let chain := chainOf ch
    let src := fieldSource chain
    let child := senderChild s x
    if overtaken s chain then endReception ch 5 fBlanked s
    else
    let st := rxStatus s ch x
    let s0 := setRx ch (afterRx r) s
    if testOpen s ch then (if st = 0x0D then s0 else fieldCount ch (rxCounter st) child s0)
    else if x.ftype = 2 ∧ (st = 0 ∨ st = 0x0D) then
      let s1 := if st = 0x0D then ringDry 34 s0 else deliverAck ch x r s0
      match awaited s ch x with
      | some a => if r.at' ≤ a.lastChip + 54 * symNs ch then endAccess chain 0 s1 else waitOver ch s1
      | none => s1
    else
      let s1 := if st = 0x0D then ringDry 34 s0 else fieldCount ch (rxCounter st) child s0
      let s2 := if st = 0x0B then replayEvent ch x s1 else s1
      let s3 := if monitored s2 ch ∧ st ≠ 0 ∧ st ≠ 8 ∧ st ≠ 0x0D then
          (ringDeliver 10 { payload := .field { len := x.len }, charge := x.len, ingress := 26, rxStamp := r.stamp, calStale := r.stale }
            (senderKey x) 2 x.len false (fieldMeta s2 ch st r x ++ [0]) x.monitor s2).1
        else s2
      let (s4, kept) := if st = 0 then deliverField ch x r s3 else (s3, false)
      let desc : Option FieldDesc := if kept then some { id := x.id, info := fieldMeta s ch st r x, stamp := r.stamp, stale := r.stale } else none
      let s5 :=
        if x.ar ∧ x.dstShort ≠ some 0xFFFF ∧ (st = 0 ∨ st = 8) then
          queueAck { ackFor s ch x desc with lastChip := s4.time.mono, at' := s4.time.mono + 12 * symNs ch } (if chain = 0 then startRetune 3 s4 else s4)
        else queueDesc src 0 desc s4
      waitOver ch s5
  | _ => s

/-! ### Acknowledgements and answers to polls -/

/-- FIELD_ACK_SEND (R150 to R152, R171): the first acknowledgement due on a chain is sent, or missed. -/
def ackSend (chain : Nat) (s : State) : State :=
  match (s.fchain chain).acks with
  | [] => s
  | k :: rest =>
    let s1 := updFchain chain (fun c => { c with acks := rest }) (advanceMono k.at' s)
    let src := fieldSource chain
    if !fieldUp s1 ∨ transmitting s1 src then ackMissed k s1
    else if obstructed s1 src 1 ∨ wideClash s1 src k.dur k.since then frontCount src cLateDrop (ackMissed k s1)
    else
      let (fc, s2) : Option Nat × State := match k.key with
        | none => (some 0, s1)
        | some e => nextCounter k.channel e s1
      match fc with
      | none => ackMissed k (exhausted k.channel k.key s2)
      | some n =>
        let s3 := fieldCount k.channel fAckSent none (startField chain 1 k.dur s2)
        let s4 := match k.poll with | some c => fieldCount k.channel fPollPend (some c) s3 | none => s3
        emit (.frame src 3 ([k.channel, bit k.pending, bit k.enhanced, (k.dsn.map (· + 1)).getD 0, k.dest.1, k.dest.2, fieldPower s2 chain] ++ sealNats k.level k.key (some n)))
          (updFchain chain (fun c => { c with sendingAck := some (s2.time.mono + k.dur, k) }) s4)

/-- The acknowledgement on the air ends: reported, and the answer to a poll that it announces is due (R161, R162). -/
def ackEnd (chain : Nat) (k : AckDue) (s : State) : State :=
  let s1 := ackOutcome k (1 + 4 * bit k.pending) (updFchain chain (fun c => { c with sendingAck := none }) s)
  match k.poll with
  | none => s1
  | some ch =>
    let sub868 : Bool := decide (k.channel = 100)
    let delay := (if sub868 then max (fcfg s1).pendDelay 800 else (fcfg s1).pendDelay) * 1000
    let p : PollAnswer := { child := ch, channel := k.channel, at' := s1.time.mono + delay, limit := s1.time.mono + (if sub868 then 20000000 else 8000000),
                            since := s1.time.mono }
    updFchain chain (fun c => { c with answers := c.answers ++ [p] }) s1

/-- The frame in access has left: its stamp is filed, and its acknowledgement is awaited where it asks for one (R62, R156). -/
def accessSent (chain : Nat) (a : FieldAccess) (s : State) : State :=
  let src := fieldSource chain
  let s1 := match a.item.stamp, a.stamp with
    | some tag, some (st, flags) => pushTsq src st flags false tag s
    | _, _ => s
  if a.item.ar then
    let due := s1.time.mono + 54 * symNs (chanKey a.item.band a.item.channel)
    updFchain chain (fun c => { c with access := some { a with stage := 3, lastChip := s1.time.mono, due := due } }) s1
  else endAccess chain 0 s1

/-- FIELD_TX_END (R158, R159): the last chip leaves. -/
def fieldTxEnd (chain : Nat) (s : State) : State :=
  let src := fieldSource chain
  match Map.get? s.front.tx src with
  | none => s
  | some t =>
    if chain ≥ 2 ∨ t.kind = 3 then s
    else
      let s1 := endRadio src false (advanceMono t.t1 s)
      let c := s1.fchain chain
      match c.sendingAck, c.other with
      | some (_, k), _ => resumeAccess chain (ackEnd chain k s1)
      | none, some (ch, id) =>
        resumeAccess chain (fieldDone ch 0 none { id := id } (updFchain chain (fun c => { c with other := none }) s1))
      | none, none =>
        match c.access with
        | none => s1
        | some a => if a.stage = 2 then accessSent chain a s1 else resumeAccess chain s1

/-- May the answer to a poll take the chain: nothing that is on the air, that awaits its acknowledgement, or that answers another poll? -/
def answerFree (c : FieldChain) : Bool := match c.access with | some a => a.taken && [0, 1, 4].contains a.stage | none => true

/-- The answer `a` takes the chain; a frame in channel access is put off. -/
def beginAnswer (chain : Nat) (a : FieldAccess) (s : State) : State :=
  updFchain chain (fun c => { c with answers := c.answers.tail, parked := c.access, access := some a })
    { s with front.waiting := Map.erase s.front.waiting (fieldSource chain) }

/-- POLL_ANSWER_SEND (R162 to R164): `energy` is what the CCA measures, `slots` the back-off drawn where it is busy. An answer that finds the chain
taken stays due until its limit. -/
def pollAnswer (chain : Nat) (energy : Int) (slots : Nat) (s : State) : State :=
  match (s.fchain chain).answers with
  | [] => s
  | p :: rest =>
    if !fieldUp s ∨ s.time.mono > p.limit then updFchain chain (fun c => { c with answers := rest }) s
    else if !answerFree (s.fchain chain) ∨ s.time.settling then s
    else
      let dur := 8 * symNs p.channel
      let s0 := ccaStart dur (afterOverrun (fieldSource chain) (advanceMono (p.at' - dur) s))
      -- the transmit synthesiser is retuned for the answer while its CCA runs (R276)
      let s1 := if chain = 0 then startRetune 3 s0 else s0
      let now := s1.time.mono + dur
      let k := if p.channel ≥ 100 then p.channel - 100 else p.channel
      let a : FieldAccess := { item := emptyFrame (0x2000 + p.child) chain k, queue := 0x2000 + p.child, be := (fcfg s).minBe, stage := 1, due := now,
                               limit := some p.limit, since := some p.since }
      let s2 := beginAnswer chain a (advanceMono now s1)
      if s2.time.mono > p.limit then returnAccess chain s2
      else if ccaBusy s2 p.channel energy then
        let unit := 20 * symNs p.channel
        updFchain chain (fun c => { c with access := some { a with stage := 0, since := none, due := s2.time.mono + slots % 2 ^ a.be * unit } }) s2
      else tryAccess chain s2

end Sys2Proof.Machine
end

