-- ==== Sys2Proof/Machine/Field.lean ====
section
/-! DEFINITION. The field radio: rendezvous, silent children, settings at commit windows, commands (chapter 3). -/

namespace Sys2Proof.Machine

/-! ### Rendezvous (R174 to R176) -/

/-- A rendezvous record's running state. -/
def rdvRun (s : State) (r : Nat) : RdvRun := Map.getD s.field.rdv r {}
/-- A rendezvous record's running state changed. -/
def updRdv (r : Nat) (f : RdvRun → RdvRun) (s : State) : State := { s with field.rdv := Map.set s.field.rdv r (f (rdvRun s r)) }

/-- The guard G in ns (R175): twice 30 ppm of the time in Dormant and 2 ppm of the rest of the time not LOCKED, since the last
synchronisation, and GUARD_MIN at least. -/
def rdvGuard (s : State) (g : Rdv) (r : RdvRun) : Nat :=
  let meas := decide (s.time.lastMeas ≥ r.syncAt)
  let sync := if meas then s.time.lastMeas else r.syncAt
  let dorm := s.power.dormantNs - (if meas then s.time.lastMeasDorm else r.syncDorm)
  let free := if s.time.servo = .locked ∧ s.power.mode ≠ .doze then 0 else s.time.mono - max sync s.time.unlockedAt
  max (g.guardMin * 1000) ((2 * (30 * dorm + 2 * free) + 999999) / 1000000)

/-- A rendezvous of beat `b` needs the device awake (R174, R439): its instant, or the window around it, lies in the beat. -/
def rdvBeat (s : State) (b : Nat) : Bool :=
  s.kept.field.rdv.any (fun e =>
    let g := e.2
    let run := rdvRun s e.1
    let gd := if g.listen then rdvGuard s g run else 0
    let tail := if g.listen then gd + 10 * symNs (chanKey g.band g.channel) else 0
    g.enable && !run.suspended && bandOn s g.band &&
      (run.continuous.isSome || decide (rdvInstant g (b * 1000000 - tail) - gd < (b + 1) * 1000000)))

/-- Beat `b` is a listen beat of Doze, or meets a rendezvous (R173, R174, R439). -/
def dozeBeat (s : State) (b : Nat) : Bool := decide (b % max 1 (fcfg s).dozePeriod < (fcfg s).dozeListen) || rdvBeat s b

/-- FIELD_RDV_SEND (R174, R177): the rendezvous frame of `len` PSDU bytes, first chip at T, without CCA, with no lateness allowed (R33, R51: nor
may it start in a settling interval, or behind a job that overruns). It carries the
record, the beat, and the stamp of its first chip, formed under R58. -/
def rdvSend (r len : Nat) (s : State) : State :=
  match Map.get? s.kept.field.rdv r with
  | none => s
  | some g =>
    if !g.enable ∨ g.listen ∨ (rdvRun s r).suspended ∨ !fieldUp s ∨ !bandOn s g.band ∨ len < 5 ∨ 127 < len then s
    else
      let t := rdvInstant g s.ns
      let s1 := advanceTo t s
      let src := fieldSource g.band
      let ch := chanKey g.band g.channel
      if !chipWindow s1 src ∨ transmitting s1 src ∨ obstructed s1 src 1 ∨ wideClash s1 src (fieldNs ch len) 0 then
        fieldDone ch 3 none { id := 1000 + r } (frontCount src cLateDrop s1)
      else
        let st := egressStamp src 0 0 0 s1
        emit (.frame src 4 ([r, ch, s1.beat, fieldPower s1 g.band] ++ stampNats st (chainStale s1 src 0 0)))
          (updFchain g.band (fun c => { c with other := some (ch, 1000 + r) }) (startField g.band 2 (fieldNs ch len) s1))

/-- RENDEZVOUS_WINDOW_START (R174, R175): at T − G the listener starts to listen; at once where G exceeds 40 % of PERIOD. -/
def rdvWindow (r : Nat) (s : State) : State :=
  match Map.get? s.kept.field.rdv r with
  | none => s
  | some g =>
    let run := rdvRun s r
    if !g.enable ∨ !g.listen ∨ run.suspended ∨ run.window.isSome ∨ run.continuous.isSome ∨ !fieldUp s ∨ !bandOn s g.band then s
    else
      let gd := rdvGuard s g run
      let tail := gd + 10 * symNs (chanKey g.band g.channel)
      let t := rdvInstant g (s.ns - tail)
      let s1 := if gd * 10 > 4 * g.period * 1000000 then s else advanceTo (t - gd) s
      updRdv r (fun x => { x with window := some (s1.time.mono + (t + tail - s1.ns)), opened := s1.time.mono, guard := gd, heard := false })
        (startLock (if g.band = 0 then 2 else 4) s1)

/-- A reception whose SFD ended by `t` goes on on a channel. -/
def sfdBefore (s : State) (ch t : Nat) : Bool :=
  match s.rxOf ch with
  | .receiving r => decide (r.at' ≤ t)
  | _ => false

/-- FIELD_RDV_MISSED (R176): the window ends without the partner; continuous listening for 2 × G + PERIOD, rounded up to whole beats. -/
def rdvMissed (r : Nat) (s : State) : State :=
  match Map.get? s.kept.field.rdv r, (rdvRun s r).window with
  | some g, some t =>
    let ch := chanKey g.band g.channel
    if (rdvRun s r).heard then updRdv r (fun x => { x with window := none }) s
    else if sfdBefore s ch t then s
    else
      let s1 := advanceMono t s
      let gd := (rdvRun s1 r).guard
      let beats := (2 * gd + g.period * 1000000 + 999999) / 1000000
      raise (fieldSource g.band) 0x0604 (le 1 r ++ le 4 (gd / 1000))
        (fieldCount ch fRdvMiss none (updRdv r (fun x => { x with window := none, continuous := some (t + beats * 1000000) }) s1))
  | _, _ => s

/-- FIELD_RDV_LOST (R176): continuous listening ends without the partner; unless a frame whose SFD ended in time still arrives. The
rendezvous is suspended until the servo is LOCKED again, outside Doze (at once where it is). -/
def rdvLost (r : Nat) (s : State) : State :=
  match Map.get? s.kept.field.rdv r, (rdvRun s r).continuous with
  | some g, some t =>
    let ch := chanKey g.band g.channel
    if sfdBefore s ch t then s else
    let s1 := advanceMono t s
    let lost : Bool := decide (s1.time.servo ≠ .locked) || decide (s1.power.mode = .doze)
    let closed (x : RdvRun) : RdvRun :=
      { x with continuous := none, suspended := lost, syncAt := if lost then x.syncAt else s1.time.mono, syncDorm := if lost then x.syncDorm else s1.power.dormantNs }
    raise (fieldSource g.band) 0x0605 (le 1 r)
      { fieldCount ch fRdvLost none (updRdv r closed s1) with field.rdvLostStk := true }
  | _, _ => s

/-- Beats since a child's last poll, by the time gone by: a rebase in between moves the beat numbers, and not this (R165). -/
def pollAge (s : State) (run : ChildRun) : Nat := (elapsed s - run.pollAt) / 1000000

/-- FIELD_CHILD_SILENT (R165). -/
def childSilent (c : Nat) (s : State) : State :=
  match childRec s c with
  | none => s
  | some r =>
    let run := childRun s c
    let age := pollAge s run
    if r.pollExpect = 0 ∨ r.joining ∨ !run.silentArmed ∨ age < 4 * r.pollExpect * 1000 then s
    else raise (fieldSource (r.bandChan / 128)) 0x0601 (le 2 c ++ le 4 age) (updRun c (fun x => { x with silentArmed := false }) s)

/-! ### Commit windows -/

/-- The synthesisers of a chain: LOCKED while it is enabled; in Doze the receive LO stands by outside listen beats and rendezvous
windows (R276, R277), but for what goes on across them: a reception, an acknowledgement, an answer to a poll, a frame on the air (R173). -/
def fieldSynths (s : State) : State :=
  let rdvOpen (band : Nat) : Bool := s.field.rdv.any (fun r => (r.2.window.isSome || r.2.continuous.isSome) &&
    (match Map.get? s.kept.field.rdv r.1 with | some g => decide (g.band = band) | none => false))
  let busy (k : Nat) : Bool := s.field.rx.any (fun x => decide (chainOf x.1 = k) && decide (x.2 ≠ .idle))
  [0, 1].foldl (fun s k =>
    let rx := if k = 0 then 2 else 4
    if !bandOn s k ∧ (s.fchain k).test.isNone ∨ !fieldUp s then
      (if k = 0 then dropLock 3 .off (dropLock 2 .off s) else dropLock 4 .off s)
    else
      let s1 := if k = 0 then startLock 3 s else s
      let c := s.fchain k
      let answering : Bool := c.sendingAck.isSome || c.other.isSome || c.access.any (fun a => !a.taken || decide (2 ≤ a.stage))
      if s.power.mode = .doze ∧ !dozeBeat s s.beat ∧ !rdvOpen k ∧ !busy k ∧ c.acks = [] ∧ c.answers = [] ∧ !answering then
        (if (s1.synth rx).state = .off then s1 else dropLock rx .standby s1)
      else startLock rx s1) s

/-- At a plan commit: the receive LO of a Doze listen beat or of a rendezvous window starts to relock 900 µs into the preceding beat (R277). -/
def fieldPlanCommit (s : State) : State :=
  if s.power.mode = .doze ∧ fieldUp s ∧ dozeBeat s (s.beat + 1) then
    [0, 1].foldl (fun s k => if bandOn s k then startLock (if k = 0 then 2 else 4) s else s) s
  else s

/-- Everything a chain has in hand ends: receptions BLANKED, frames back to their queues, acknowledgements missed, answers dropped, a rendezvous
frame LATE (R159). -/
def stopChain (chain : Nat) (s : State) : State :=
  let src := fieldSource chain
  let c := s.fchain chain
  let s1 := endRadio src true (returnAccess chain (returnAccess chain (blankChain chain s.time.mono s)))
  let s2 := (c.acks ++ (c.sendingAck.map (·.2)).toList).foldl (fun s k => ackMissed k s) s1
  let s3 := match c.other with | some (ch, id) => fieldDone ch 3 none { id := id } s2 | none => s2
  { updFchain chain (fun c => { c with acks := [], answers := [], sendingAck := none, other := none }) s3 with front.waiting := Map.erase s3.front.waiting src }

/-- The push of the plan to a child (R178): an ORPHAN_PLAN message for its queue, secured at its MIN_SEC_LEVEL with its key, AR set. Its DSN is the
Steward's. -/
def pushPlan (plan : List Byte) (s : State) (x : Nat × Child) : State :=
  let (d, s1) := draw s
  let lvl := x.2.minSec
  let len := 11 + 1 + plan.length + sealBytes lvl
  let m : FieldTx := { id := 0xB501, len := len, ar := true, secLevel := lvl,
                       key := if lvl = 0 ∨ x.2.keyIdx = 0xFFFF then none else some x.2.keyIdx,
                       child := some x.1, band := x.2.bandChan / 128, channel := x.2.bandChan % 32, dsn := d % 256, orphan := true, body := 0xB5 :: plan }
  watchPend (0x2000 + x.1) (fun s => (enqueue (0x2000 + x.1) { payload := .field m, charge := len } s).1) s1

/-- The children to which the plan goes at a commit window (R178): all of the device's own when the plan has changed, but those for which the command
has queued it; and one that has joined, whose record is new or no longer JOINING. A STANDBY record is of a child of another gateway. -/
def planDue (old : Kept) (s : State) : List (Nat × Child) :=
  s.kept.field.children.filter (fun x =>
    !x.2.joining && !x.2.standby && !s.field.pushed.contains x.1 &&
      (decide (old.field.orphan ≠ s.kept.field.orphan) ||
        (match Map.get? old.field.children x.1 with | some o => o.joining || s.field.deleted.contains x.1 | none => true)))

/-- The plan pushed where it is due. -/
def pushPlans (old : Kept) (s : State) : State :=
  match s.kept.field.orphan with
  | some plan => (planDue old s).foldl (pushPlan plan) s
  | none => s

/-- A child that FIELD_CHILD_DEL has deleted (R180): its frames complete FLUSHED, its entries are cleared. An answer to its poll that has not been
sent goes on, and finds the queue empty (R164). -/
def forgetChild (c : Nat) (r : Child) (s : State) : State :=
  let q := 0x2000 + c
  let ch := if r.bandChan ≥ 128 then 101 else 11
  let mine (a : FieldAccess) : Bool := decide (a.queue = q) && (a.taken || a.queued.isSome)
  let s1 := [0, 1].foldl (fun s k =>
    let s1 := match (s.fchain k).parked with
      | some a => if mine a then returnFrame a (updFchain k (fun c => { c with parked := none }) s) else s
      | none => s
    if (s1.fchain k).access.any mine then returnAccess k s1 else s1) s
  let s2 := (s1.queue q).frames.foldl (fun s f => match f.payload with
    | .field m => completeField ch q 6 f m s
    | .eth _ => leave 26 f s) (updQueue q (fun p => { p with frames := [] }) s1)
  { s2 with field.run := Map.erase s2.field.run c, field.forces := Map.erase s2.field.forces c,
            field.pends := Map.set s2.field.pends c (noteChange s.time.mono (pendQ s q) (Map.getD s2.field.pends c [])) }

/-- A change of FORCE_PEND of child `c` is noted with its instant (R161, R164). -/
def watchForce (c : Nat) (was now : Bool) (s : State) : State :=
  if was = now then s
  else { s with field.forces := Map.set s.field.forces c (noteChange s.time.mono was (Map.getD s.field.forces c [])) }

/-- Settings of the field radio at a commit window (R180, R138). A rendezvous record set anew starts afresh; that its partner was heard stands while it
names the same neighbour (R175). -/
def fieldSettings (old : Kept) (s : State) : State :=
  let o := old.field.config
  let n := fcfg s
  let s1 := if o.f24 ∧ !n.f24 then stopChain 0 s else s
  let s2 := if o.fsg ∧ !n.fsg then stopChain 1 s1 else s1
  let s3 := if o.fsgChannel ≠ n.fsgChannel then
      startRetune 4 (updFchain 1 (fun c => { c with retuneUntil := s2.time.mono + 80000 }) (blankChain 1 s2.time.mono s2))
    else s2
  let s4 := old.field.children.foldl (fun s x =>
    if Map.has s.kept.field.children x.1 ∧ !s.field.deleted.contains x.1 then s else forgetChild x.1 x.2 s) s3
  let s5 := s4.kept.field.children.foldl (fun s x =>
    if Map.has old.field.children x.1 ∧ !s.field.deleted.contains x.1 then
      let was := (Map.get? old.field.children x.1).getD {}
      watchForce x.1 was.forcePend x.2.forcePend
        (if !was.standby ∧ x.2.standby then updRun x.1 (fun r => { r with standbyTold := false }) s else s)
    else watchForce x.1 false x.2.forcePend (updRun x.1 (fun _ => { lastPoll := s.beat, pollAt := elapsed s }) s)) s4
  let s6 := pushPlans old s5
  s6.kept.field.rdv.foldl (fun s x =>
    match Map.get? old.field.rdv x.1 with
    | some o => if o = x.2 then s
      else updRdv x.1 (fun r => if o.neighbour = x.2.neighbour then { syncAt := r.syncAt, syncDorm := r.syncDorm } else {}) s
    | none => updRdv x.1 (fun _ => {}) s) { s6 with field.deleted := [], field.pushed := [] }

/-! ### Commands -/

/-- FIELD_CONFIG (Table 3-17). -/
def fieldConfigCmd : Handler where
  fields := [fMask 16 1 3, fRange 17 1 0 10, fAny 18 2, fAny 20 2, fAny 22 2, fAny 24 2, fSigned 26 1 (-40) 20, fSigned 27 1 (-40) 20,
    fMask 28 1 7, fSigned 29 1 (-100) (-50), fRange 30 1 64 240, fRange 31 1 1 4, fSigned 32 1 (-110) (-70), fRange 33 1 3 15,
    fRange 34 1 16 200, fAny 35 1, fRange 36 1 0 5, fRange 37 1 0 7, fRange 38 1 0 7, fMask 39 1 3, fRange 40 2 100 65535,
    fRange 42 2 192 2000, fRange 44 4 1000 1000000, fRange 48 2 16 4096, fAny 50 2, fZero 52 4]
  run c _ s :=
    let minBe := bitsOf (c.u 35 1) 3 0
    let maxBe := bitsOf (c.u 35 1) 7 4
    if bitsOf (c.u 28 1) 1 0 = 0 then (s, .reply (badArg 28))
    else if minBe > 7 ∨ maxBe < 3 ∨ maxBe > 8 then (s, .reply (badArg 35))
    else if c.u 50 2 = 0 ∨ c.u 50 2 > c.u 48 2 then (s, .reply (badArg 50))
    else
      let g : FieldConfig :=
        { f24 := c.flag 16 1 0, fsg := c.flag 16 1 1, fsgChannel := c.u 17 1, panId := c.u 18 2, short := c.u 20 2, chanMask := c.u 22 2,
          monitorMask := c.u 24 2, txpwr24 := c.i 26 1, txpwrSg := c.i 27 1, ccaMode := bitsOf (c.u 28 1) 1 0, ccaAnd := c.flag 28 1 2,
          ccaEd := c.i 29 1, detThresh := c.u 30 1, detCount := c.u 31 1, detFloor := c.i 32 1, captureMargin := c.u 33 1,
          syncFloor := c.u 34 1, minBe := minBe, maxBe := maxBe, maxBackoffs := c.u 36 1, maxRetries := c.u 37 1, minSecUnknown := c.u 38 1,
          fsgMonitor := c.flag 39 1 0, beaconAny := c.flag 39 1 1, dupWindow := c.u 40 2, pendDelay := c.u 42 2, persist := c.u 44 4,
          dozePeriod := c.u 48 2, dozeListen := c.u 50 2 }
      (stageKept (fun k => { k with field.config := g }) s, .reply (ok (le 8 Config.extAddress)))

/-- Is a BAND_CHAN byte a channel of Table 3-1? -/
def bandChanOk (v : Nat) : Bool :=
  decide (v &&& 0x9F = v) && (if v ≥ 128 then decide (v % 32 ≤ 10) else decide (11 ≤ v % 32) && decide (v % 32 ≤ 26))

/-- FIELD_CHILD_SET (Table 3-18). -/
def fieldChildSet : Handler where
  fields := [fRange 16 2 0 3071, fRange 18 2 0 4095, fAny 20 8, fAny 28 2, fMask 30 1 0x9F, fMask 31 1 0x1F, fAny 32 2, fRange 34 1 0 7,
    fRange 35 1 1 32, fAny 36 2, fZero 38 2, fAny 40 4, fAny 44 4, fAny 48 4]
  run c _ s :=
    let i := c.u 16 2
    let others := s.next.field.children.filter (fun e => e.1 ≠ i)
    if others.any (fun e => decide (e.2.ext = c.u 20 8)) then (s, .reply (badArg 20))
    else if c.u 28 2 ≠ 0xFFFE ∧ others.any (fun e => decide (e.2.short = c.u 28 2)) then (s, .reply (badArg 28))
    else if !bandChanOk (c.u 30 1) then (s, .reply (badArg 30))
    else if c.u 32 2 > 4095 ∧ c.u 32 2 ≠ 0xFFFF then (s, .reply (badArg 32))
    else
      let was := Map.get? s.next.field.children i
      let load := c.flag 31 1 4
      let r : Child :=
        { client := c.u 18 2, ext := c.u 20 8, short := c.u 28 2, bandChan := c.u 30 1, rxOnIdle := c.flag 31 1 0, standby := c.flag 31 1 1,
          joining := c.flag 31 1 2, forcePend := c.flag 31 1 3, keyIdx := c.u 32 2, minSec := c.u 34 1, qdepth := c.u 35 1,
          pollExpect := c.u 36 2,
          inFcPair := if load then some (c.u 40 4) else was.bind (·.inFcPair),
          inFcGroup := if load then some (c.u 44 4) else was.bind (·.inFcGroup) }
      let keys (m : List (Nat × KeyEntry)) : List (Nat × KeyEntry) :=
        match Map.get? m (c.u 32 2) with
        | some e => if load then Map.set m (c.u 32 2) { e with txPn := c.u 48 4 } else m
        | none => m
      (stageKept (fun k => { k with field.children := Map.set k.field.children i r, wide.fieldKeys := keys k.wide.fieldKeys }) s, .reply (ok))

/-- FIELD_CHILD_DEL. -/
def fieldChildDel : Handler where
  fields := [fRange 16 2 0 3071, fZero 18 2]
  run c _ s :=
    if !Map.has s.next.field.children (c.u 16 2) then (s, .reply (badArg 16))
    else ({ stageKept (fun k => { k with field.children := Map.erase k.field.children (c.u 16 2) }) s with field.deleted := c.u 16 2 :: s.field.deleted }, .reply (ok))

/-- FIELD_CHILD_GET (Table 3-19). -/
def fieldChildGet : Handler where
  fields := [fRange 16 2 0 3071, fZero 18 2]
  run c _ s :=
    let i := c.u 16 2
    match childRec s i with
    | none => (s, .reply (badArg 16))
    | some r =>
      let run := childRun s i
      let out := match fieldKey s r.keyIdx with | some e => e.txPn | none => 0
      let flags := fieldsWord [(0, bit r.rxOnIdle), (1, bit r.standby), (2, bit r.joining), (3, bit r.forcePend)]
      (s, .reply (ok (le 2 i ++ le 2 r.client ++ le 8 r.ext ++ le 2 r.short ++ le 1 r.bandChan ++ le 1 flags ++ le 2 r.keyIdx ++ le 1 r.minSec ++
        le 1 r.qdepth ++ le 2 r.pollExpect ++ le 2 0 ++ le 4 (r.inFcPair.getD 0) ++ le 4 (r.inFcGroup.getD 0) ++ le 4 out ++
        le 2 (s.queue (0x2000 + i)).frames.length ++ le 2 (min 0xFFFF (pollAge s run)) ++ leInt 1 run.rssi ++ le 1 run.corrQ ++
        le 1 run.channel ++ [0])))

/-- FIELD_RDV_SET (Table 3-20). -/
def fieldRdvSet : Handler where
  fields := [fRange 16 1 0 7, fMask 17 1 7, fRange 18 2 0 255, fAny 20 1, fZero 21 1, fRange 22 2 100 65535, fAny 24 2, fRange 26 2 20 900,
    fRange 28 2 50 5000, fZero 30 2]
  run c _ s :=
    let band := bit (c.flag 17 1 2)
    let k := c.u 20 1
    if (if band = 0 then k < 11 ∨ k > 26 else k ≠ s.next.field.config.fsgChannel) then (s, .reply (badArg 20))
    else if c.u 24 2 ≥ c.u 22 2 then (s, .reply (badArg 24))
    else
      let g : Rdv := { enable := c.flag 17 1 0, listen := c.flag 17 1 1, band := band, neighbour := c.u 18 2, channel := k, period := c.u 22 2,
                       offset := c.u 24 2, phaseUs := c.u 26 2, guardMin := c.u 28 2 }
      (stageKept (fun x => { x with field.rdv := Map.set x.field.rdv (c.u 16 1) g }) s, .reply (ok))

/-- The first offset at which a plan at slot offset 20 breaks Table 3-14 or 3-15. -/
def badPlan (c : Cmd) : Option Nat :=
  let bad (o n lo hi : Nat) : Option Nat := if lo ≤ c.u o n ∧ c.u o n ≤ hi then none else some o
  let head := [bad 20 1 1 1, bad 21 1 1 1, bad 24 1 2 16, bad 25 1 0 2, bad 26 1 0 254, bad 27 1 0 4, bad 28 2 10 3600, bad 30 2 1 600]
  match head.filterMap id with
  | o :: _ => some o
  | [] =>
    let alts := (List.range (c.u 27 1)).map (fun i => 32 + 16 * i)
    match alts.find? (fun o => !bandChanOk (c.u (o + 12) 1) ∨ c.u (o + 15) 1 ≠ 0) with
    | some o => some (if !bandChanOk (c.u (o + 12) 1) then o + 12 else o + 15)
    | none => strayByte c (32 + 16 * c.u 27 1)

/-- FIELD_ORPHAN_PLAN (R178): stored, and its pushes queued. -/
def fieldOrphanPlan : Handler where
  fields := [fMask 16 1 3, fZero 17 1, fAny 18 2, fAny 20 76]
  run c _ s :=
    if c.flag 16 1 1 ∧ !Map.has s.kept.field.children (c.u 18 2) then (s, .reply (badArg 18))
    else match badPlan c with
      | some o => (s, .reply (badArg o))
      | none =>
        let plan := c.bytesAt 20 (12 + 16 * c.u 27 1)
        let who := s.kept.field.children.filter (fun x => c.flag 16 1 0 || (c.flag 16 1 1 && decide (x.1 = c.u 18 2)))
        let s1 := { stageKept (fun k => { k with field.orphan := some plan }) s with field.pushed := who.map (·.1) }
        (who.foldl (pushPlan plan) s1, .reply (ok))

/-- A test mode of a chain ends. -/
def stopFieldTest (chain : Nat) (s : State) : State :=
  match (s.fchain chain).test with
  | none => s
  | some _ =>
    let s1 := updFchain chain (fun c => { c with test := none }) s
    let s2 := { s1 with front.blankUntil := Map.erase s1.front.blankUntil (fieldSource chain) }
    if (Map.get? s.front.tx (fieldSource chain)).any (fun t => t.kind = 3) then endRadio (fieldSource chain) false s2 else s2

/-- FIELD_TEST (Table 3-21). -/
def fieldTest : Handler where
  fields := [fRange 16 1 0 3, fRange 17 1 0 1, fAny 18 1, fSigned 19 1 (-40) 20, fAny 20 4]
  run c _ s :=
    let chain := c.u 17 1
    let k := c.u 18 1
    if (if chain = 0 then k < 11 ∨ k > 26 else k > 10) then (s, .reply (badArg 18))
    else if bandOn s chain ∨ (if chain = 0 then s.next.field.config.f24 else s.next.field.config.fsg) then (s, .reply (denied))
    else
      let s1 := stopFieldTest chain s
      let m := c.u 16 1
      if m = 0 then (s1, .reply (ok))
      else
        let last := if c.u 20 4 = 0 then 0 else s.beat + c.u 20 4
        let s2 := updFchain chain (fun x => { x with test := some (m, k, c.u 19 1, last) }) s1
        let s3 := startLock (if chain = 0 then 2 else 4) (if chain = 0 then startLock 3 s2 else s2)
        ((if m = 3 then s3 else startRadio (fieldSource chain) 3 1 0 s3), .reply (ok))

/-- FIELD_TEST_END: a test with a nonzero DURATION reaches its last beat. -/
def fieldTestEnd (chain : Nat) (s : State) : State :=
  match (s.fchain chain).test with
  | some (_, _, _, b) => if b = 0 then s else stopFieldTest chain (advanceTo (b * 1000000) s)
  | none => s

/-- Counters of Table 3-22 with a child scope. -/
def childScope : List Nat := [24, 64, 68, 72, 76, 80, 92, 96, 100, 104, 108, 112, 120, 124]

/-- FIELD_COUNTERS (R182). -/
def fieldCounters : Handler where
  fields := [fRange 16 1 0 18, fMask 17 1 3, fAny 18 2, fMask 20 1 7, fZero 21 3]
  run c _ s :=
    let sel := c.u 16 1
    let scope := if sel ≤ 1 then sel else sel + 9
    let child := c.u 18 2
    let get (k : Nat) : Nat :=
      if sel = 18 then (if childScope.contains k then tallyOf (childRun s child).counts k else 0) else tallyOf s.field.counts (256 * scope + k)
    let body := le 4 0 ++ le 1 (fieldsWord [(0, bit s.field.fcLowStk), (1, bit s.field.rdvLostStk), (2, bit s.field.replayStk)]) ++ le 3 0 ++
      ((List.range 30).map (fun i => le 4 (get (24 + 4 * i)))).flatten
    let s1 := if !c.flag 17 1 0 then s
      else if sel = 18 then updRun child (fun r => { r with counts := [] }) s
      else { s with field.counts := s.field.counts.filter (fun e => e.1 / 256 ≠ scope) }
    let k (i : Nat) : Bool := c.flag 17 1 1 && c.flag 20 1 i
    let t : State := { s1 with field.fcLowStk := s1.field.fcLowStk && !k 0, field.rdvLostStk := s1.field.rdvLostStk && !k 1,
                               field.replayStk := s1.field.replayStk && !k 2 }
    if sel = 18 ∧ child > 3071 then (s, .reply (badArg 18)) else (t, .reply (ok body))

/-! ### Meanings -/

/-- FIELD_DETECT. -/
def execFieldDetect (channel : Nat) (timing : Int) (seen : FieldPeriods) (s : State) : Out :=
  act (fieldDetect channel timing seen.strength seen.periods) s
/-- FIELD_ACQ_ABANDON. -/
def execFieldAcqAbandon (channel : Nat) (s : State) : Out := act (acqAbandon channel) s
/-- FIELD_SFD_END. -/
def execFieldSfdEnd (channel : Nat) (rssi : Int) (sfd : FieldSfd) (s : State) : Out := act (sfdEnd channel rssi sfd.corrQ sfd.phr) s
/-- FIELD_SYNC_LOST. -/
def execFieldSyncLost (span : FieldSpan) (s : State) : Out := act (syncLost span.channel span.corr) s
/-- FIELD_GAIN_REDUCE. -/
def execFieldGainReduce (db : Nat) (s : State) : Out := act (gainReduce db) s
/-- FIELD_GAIN_RAISE. -/
def execFieldGainRaise (db : Nat) (s : State) : Out := act (gainRaise db) s
/-- FIELD_RX_END. -/
def execFieldRxEnd (channel : Nat) (x : FieldRx) (s : State) : Out := act (fieldRxEnd channel x) s
/-- FIELD_ACK_SEND. -/
def execFieldAckSend (chain : Nat) (s : State) : Out := act (ackSend chain) s
/-- FIELD_TX_RELEASE. -/
def execFieldTxRelease (chain slots : Nat) (s : State) : Out := act (fieldRelease chain slots) s
/-- FIELD_BACKOFF_END. -/
def execFieldBackoffEnd (chain : Nat) (s : State) : Out := act (backoffEnd chain) s
/-- FIELD_CCA_END. -/
def execFieldCcaEnd (chain : Nat) (energy : Int) (slots : Nat) (s : State) : Out := act (ccaEnd chain energy slots) s
/-- FIELD_TX_END. -/
def execFieldTxEnd (chain : Nat) (s : State) : Out := act (fieldTxEnd chain) s
/-- FIELD_ACK_WAIT_END. -/
def execFieldAckWaitEnd (chain slots : Nat) (s : State) : Out := act (ackWaitEnd chain slots) s
/-- POLL_ANSWER_SEND. -/
def execPollAnswerSend (chain : Nat) (energy : Int) (slots : Nat) (s : State) : Out := act (pollAnswer chain energy slots) s
/-- CHILD_FRAME_EXPIRED. -/
def execChildFrameExpired (child : Nat) (s : State) : Out := act (expireChild child) s
/-- FIELD_CHILD_SILENT. -/
def execFieldChildSilent (child : Nat) (s : State) : Out := act (childSilent child) s
/-- FIELD_RDV_SEND. -/
def execFieldRdvSend (record len : Nat) (s : State) : Out := act (rdvSend record len) s
/-- FIELD_RDV_MISSED. -/
def execFieldRdvMissed (record : Nat) (s : State) : Out := act (rdvMissed record) s
/-- FIELD_RDV_LOST. -/
def execFieldRdvLost (record : Nat) (s : State) : Out := act (rdvLost record) s
/-- RENDEZVOUS_WINDOW_START. -/
def execRendezvousWindowStart (record : Nat) (s : State) : Out := act (rdvWindow record) s
/-- FIELD_TEST_END. -/
def execFieldTestEnd (chain : Nat) (s : State) : Out := act (fieldTestEnd chain) s
/-- FIELD_CONFIG. -/
def execFieldConfig (c : Cmd) (s : State) : Out := act (submit 0x0601 fieldConfigCmd c) s
/-- FIELD_CHILD_SET. -/
def execFieldChildSet (c : Cmd) (s : State) : Out := act (submit 0x0602 fieldChildSet c) s
/-- FIELD_CHILD_DEL. -/
def execFieldChildDel (c : Cmd) (s : State) : Out := act (submit 0x0603 fieldChildDel c) s
/-- FIELD_CHILD_GET. -/
def execFieldChildGet (c : Cmd) (s : State) : Out := act (submit 0x0604 fieldChildGet c) s
/-- FIELD_RDV_SET. -/
def execFieldRdvSet (c : Cmd) (s : State) : Out := act (submit 0x0605 fieldRdvSet c) s
/-- FIELD_ORPHAN_PLAN. -/
def execFieldOrphanPlan (c : Cmd) (s : State) : Out := act (submit 0x0606 fieldOrphanPlan c) s
/-- FIELD_TEST. -/
def execFieldTest (c : Cmd) (s : State) : Out := act (submit 0x0607 fieldTest c) s
/-- FIELD_COUNTERS. -/
def execFieldCounters (c : Cmd) (s : State) : Out := act (submit 0x0608 fieldCounters c) s

end Sys2Proof.Machine
end

