-- ==== Sys2Proof/Machine/WideTx.lean ====
section
/-! DEFINITION. The wide radios, transmitting (chapters 4 and 5): which frames an exchange may carry, its start, its end, acknowledgements and
retries, completions, responses. -/

namespace Sys2Proof.Machine

/-! ### Queues of a radio -/

/-- The client of a client queue. -/
def clientOf (q : Nat) : Option Nat := if queueRange q = 1 then some ((q - 0x1000) / 4) else none

/-- The neighbour of a relay queue. -/
def neighbourOf (q : Nat) : Option Nat := if queueRange q = 3 then some ((q - 0x3000) / 4) else none

/-- The access category of a radio's queue: 0 BK to 3 VO. -/
def queueAc (q : Nat) : Nat := if queueRange q = 0 then q % 8 / 2 else q % 4

/-- A client entry. -/
def State.client (s : State) (c : Nat) : Client := Map.getD s.wide.clients c {}
/-- A client entry changed, where it exists. -/
def updClient (c : Nat) (f : Client → Client) (s : State) : State :=
  match Map.get? s.wide.clients c with
  | some x => { s with wide.clients := Map.set s.wide.clients c (f x) }
  | none => s

/-- The link record of client `c` on radio `r`. -/
def linkOf (s : State) (r c : Nat) : Option Nat :=
  match Map.get? s.wide.clients c with
  | some x => let l := if r = 0 then x.link1 else x.link2; if l = 0xFFFF then none else some l
  | none => none

/-- The link record of client `c` on radio `r` changed. -/
def updLink (r c : Nat) (f : LinkRec → LinkRec) (s : State) : State :=
  match linkOf s r c with
  | some l => { s with wide.links := Map.modify s.wide.links l { client := c, radio := r } f }
  | none => s

/-- The client that a queue's frames go to: its own, or that of its neighbour (R266). -/
def peerOf (s : State) (q : Nat) : Option Nat :=
  match clientOf q, neighbourOf q with
  | some c, _ => some c
  | none, some n =>
    (match Map.get? s.kept.wide.neighbours n with
     | some g => if g.client ≠ 0xFFFF then some g.client else none
     | none => none)
  | none, none => none

/-- BSS of a client, for the counters; none for the upstream AP. -/
def bssOf (s : State) (c : Option Nat) : Option Nat :=
  match c with
  | some i => (match Map.get? s.wide.clients i with | some x => if x.kind = 1 then some x.bss else none | none => none)
  | none => none

/-- Is the queue served in the station role (R230, R268, Table 7-3)? -/
def stationQueue (s : State) (q : Nat) : Bool :=
  match clientOf q, neighbourOf q with
  | some c, _ => decide ((s.client c).kind = 2)
  | none, some n => decide ((Map.getD s.kept.wide.neighbours n {}).role ≠ 1)
  | none, none => decide (q = 0x3F01) || decide (q = 0x3F03)

/-- The BSSs of radio `r` that a group-addressed frame goes to (R387). -/
def groupBss (s : State) (r : Nat) (f : Queued) : List Nat :=
  (List.range 8).filter (fun b => (bssCfg s r b).enable && decide ((portCfg s (24 + r)).bssPvid.getD b 1 = f.vid))

/-- The stations of radio `r`'s table that are absent from it now (R227). -/
def away (s : State) (r c : Nat) : Bool := (s.client c).absent.any (fun a => decide (a.1 = r) && decide (a.2 > s.time.mono))

/-- The neighbour records that client `c` stands for (R266). -/
def neighboursOf (s : State) (c : Nat) : List Nat := (s.kept.wide.neighbours.filter (fun e => decide (e.2.client = c))).map (·.1)

/-- Data transmission has stopped for a confirmed radar (R197). -/
def radarStopped (s : State) (r : Nat) : Bool := match (s.wr r).radarStop with | some b => decide (b ≤ s.beat) | none => false

/-- Does a queued frame announce a channel switch (R197)? -/
def Queued.announces (f : Queued) : Bool := match f.payload with | .eth m => m.mgmt.csa | .field _ => false

/-- Has BSS `b` of radio `r` a station in power-save mode (R238)? -/
def bssHasPs (s : State) (r b : Nat) : Bool :=
  s.wide.clients.any (fun e => decide (e.2.kind = 1) && decide (e.2.bss = b) && e.2.ps && (linkOf s r e.1).isSome)

/-- TIDs of an access category. -/
def acTids (ac : Nat) : Nat := if ac = 0 then 6 else if ac = 1 then 9 else if ac = 2 then 48 else 192

/-- The restricted TIDs that run for client `c` on radio `r` (R249). -/
def restrictedTids (s : State) (r c : Nat) : Nat :=
  (s.wr r).periods.foldl (fun t p =>
    if p.kind = 2 ∧ p.members.contains c then t ||| (Map.getD s.kept.wide.twt (p.key - 1000000) {}).tids else t) 0

/-- Is client `c` present in a service period that runs on radio `r` (R248)? -/
def presentIn (s : State) (r c : Nat) : Bool := (s.wr r).periods.any (fun p => p.present.contains c && decide (s.ns < p.endNs))

/-- May a frame of access category `ac` be sent to client `c` on radio `r` now (R227, R250)? -/
def servable (s : State) (r c ac : Nat) : Bool :=
  let x := s.client c
  (linkOf s r c).isSome && !away s r c &&
    (!x.ps || x.polls.contains r || presentIn s r c ||
      ((match x.spLeft with | some n => decide (n > 0) | none => false) && hasBit (x.uapsd / 16) ac))

/-- May a group-addressed frame be sent to BSS `b` of radio `r` now: no station saves power, or a DTIM beacon has released it (R238)? -/
def groupFree (s : State) (r b : Nat) (f : Queued) : Bool :=
  !bssHasPs s r b || (s.wr r).groupRelease.any (fun g => decide (g.1 = b) && decide (f.enqBeat < g.2))

/-- Group-addressed frames of BSS `b` that a DTIM beacon has released still wait (R238). -/
def groupWaiting (s : State) (r b : Nat) : Bool :=
  (s.wr r).groupRelease.any (fun g => decide (g.1 = b)) &&
    (List.range 8).any (fun k => match (s.queue (8 * (24 + r) + k)).frames.head? with
      | some f => !f.held && (groupBss s r f).contains b && bssHasPs s r b && groupFree s r b f
      | none => false)

/-- May the head of a queue be taken into an exchange of radio `r` in the given role? -/
def headOk (r : Nat) (station : Bool) (s : State) (q : Nat) (f : Queued) : Bool :=
  decide (stationQueue s q = station) && (!(queueSet s q).eventHold || f.seen.isSome) && (!radarStopped s r || f.announces) &&
    (match f.payload with | .field _ => false | .eth _ => true) &&
    (match clientOf q, neighbourOf q with
     | some c, _ => servable s r c (queueAc q) && (station || !groupWaiting s r (s.client c).bss)
     | none, some n => (Map.getD s.kept.wide.neighbours n {}).enable &&
         (match queueStation s q with | some c => servable s r c (queueAc q) && !groupWaiting s r (s.client c).bss | none => true)
     | none, none =>
       decide (queueRange q ≠ 0) || (groupBss s r f).all (fun b => groupFree s r b f))

/-- The heads that go first while service periods run (R247, R249): restricted traffic of members, then traffic of members. -/
def memberHead (r : Nat) (station restricted : Bool) (s : State) (q : Nat) (f : Queued) : Bool :=
  headOk r station s q f && (match peerOf s q with
    | some c => if restricted then (restrictedTids s r c &&& acTids (queueAc q)) ≠ 0
                else (s.wr r).periods.any (fun p => p.members.contains c && decide (s.ns < p.endNs))
    | none => false)

/-- A frame chosen for a single-user exchange: management, restricted members, members, the rest (R247, R249, R316). -/
def chooseHead (r : Nat) (station mgmtOnly : Bool) (s : State) : State × Option (Nat × Nat × Queued) :=
  let e := 24 + r
  if !unitUp s 4 then (s, none)
  else match judgeManagement e (headOk r station s) s with
    | (s1, some x) => (s1, some x)
    | (s1, none) =>
      if mgmtOnly then (s1, none)
      else match judgeClasses e (memberHead r station true s1) 8 s1 with
        | (s2, some x) => (s2, some x)
        | (s2, none) =>
          match judgeClasses e (memberHead r station false s2) 8 s2 with
          | (s3, some x) => (s3, some x)
          | (s3, none) => judgeClasses e (headOk r station s3) 8 s3

/-! ### Completions (R259, R260, R263) -/

/-- The counter of a completion status of Table 5-4 and whether it has a BSS scope. -/
def txCounter (st : Nat) : Option (Nat × Bool) :=
  if st = 0 then some (aTxOk, true) else if st = 1 then some (aTxRetry, true) else if st = 2 then some (aTxLifetime, true)
  else if st = 3 then some (aTxLate, false) else if st = 4 then some (aPsExpired, true) else none

/-- The BSSs in which the completion of a frame counts: its client's, or those that a group-addressed frame goes to. -/
def frameBss (s : State) (r q : Nat) (f : Queued) : List Nat := if queueRange q = 0 then groupBss s r f else (bssOf s (peerOf s q)).toList

/-- An access counter of radio `r` incremented once, and in each of some BSSs. -/
def accCounts (r : Nat) (bs : List Nat) (k : Nat) (s : State) : State :=
  updWr r (fun x => { x with counts := bs.foldl (fun m b => tally m (256 * b + k)) (tally x.counts (256 * 255 + k)) }) s

/-- A byte counter of radio `r` advanced once, and in each of some BSSs. -/
def accOctets (r : Nat) (bs : List Nat) (k n : Nat) (s : State) : State :=
  updWr r (fun x => { x with counts := (255 :: bs).foldl (fun m b => Map.modify m (256 * b + k) 0 (fun v => satAdd 64 v n)) x.counts }) s

/-- The BlockAckReqs that the discard of a frame makes due (R259): on each agreed TID of its access category, from behind its sequence number. -/
def barsFor (x : Client) (q : Nat) (f : Queued) : List (Nat × Nat) :=
  match f.air with
  | some a => (x.baTx.filter (fun t => hasBit (acTids (queueAc q)) t.1)).map (fun t => (t.1, (a.seq + 1) % 4096))
  | none => []

/-- WIDE_TX_COMPLETE: a frame of queue `q` completes on radio `r` with a status. -/
def completeWlan (r q st : Nat) (f : Queued) (s : State) : State :=
  let peer := peerOf s q
  let bs := frameBss s r q f
  let s1 := leave (24 + r) f s
  let s2 := match txCounter st with
    | some (k, perBss) => accCounts r (if perBss then bs else []) k s1
    | none => s1
  let bytes := match f.payload with | .eth m => m.payload | .field _ => 0
  let mgmt : Bool := decide (queueRange q = 4)
  let s3 := if st = 0 ∧ !mgmt then
      let t := accOctets r bs aOutBytes bytes s2
      (match peer with | some c => updClient c (fun x => { x with outBytes := satAdd 64 x.outBytes bytes }) t | none => t)
    else s2
  let s4 := match peer with
    | some c =>
      let t := if st = 1 ∨ st = 2 then updLink r c (fun l => { l with txFail := satInc 32 l.txFail }) s3 else s3
      if st = 1 ∨ st = 2 then updClient c (fun x => { x with barDue := (barsFor x q f).foldl (fun m b => Map.set m b.1 b.2) x.barDue }) t else t
    | none => s3
  let s5 := emit (.frame (wideSrc r) 20 [f.payload.id, st]) s4
  match f.job with
  | some j => completeJob j (ok) { s5 with wide.dels := s5.wide.dels.filter (fun d => d.job ≠ j) }
  | none => s5

/-- Every frame of queue `q` completes with a status. -/
def completeQueue (q st : Nat) (s : State) : State :=
  let r := queueHome s q - 24
  let fs := (s.queue q).frames
  if fs = [] then s
  else fs.foldl (fun s f => completeWlan r q st f s) (updQueue q (fun p => { p with frames := [] }) s)

/-- The pairwise entry of a client that is marked TX_ACTIVE (R265). -/
def activeKey (s : State) (c : Nat) : Option Nat :=
  [(s.client c).key0, (s.client c).key1].find? (fun k => decide (k ≠ 0xFFFF) && (match Map.get? s.wide.keys k with | some e => e.txActive | none => false))

/-- The group entry of radio `r` that is marked TX_ACTIVE, of the data ciphers or of the integrity ciphers (R261). -/
def groupKey (s : State) (r : Nat) (bip : Bool) : Option Nat :=
  (s.wide.keys.find? (fun e => decide (e.1 ≥ 4096) && decide (e.2.radio = r) && e.2.txActive && decide (e.2.cipher ≤ 4) != bip)).map (·.1)

/-- The key entry with which a frame of queue `q` is protected: none for unprotected; some none where the key is absent (Table 5-4, R261, R265, R267).
A robust management frame is protected where its station's entry has MFP, group-addressed where an enabled BSS requires it. -/
def txKey (s : State) (r q : Nat) (f : Queued) : Option (Option Nat) :=
  match peerOf s q with
  | some c =>
    (match activeKey s c with
     | some k => some (some k)
     | none => if hasBit (s.client c).flags 12 ∨ queueRange q = 3 then some none else none)
  | none =>
    if queueRange q = 3 then some none
    else if queueRange q = 0 then (groupKey s r false).map some
    else match f.payload with
      | .eth m =>
        if !m.mgmt.robust then none
        else if groupAddr m.da then (if (List.range 8).any (fun b => (bssCfg s r b).enable && (bssCfg s r b).mfp) then some (groupKey s r true) else none)
        else (match s.wide.clients.find? (fun e => decide (e.2.addr = m.da)) with
          | some e => if hasBit e.2.flags 9 then some (activeKey s e.1) else none
          | none => none)
      | .field _ => none

/-- The next PN of key entry `k`; WIDE_PN_LOW once at 2^48 − 2^32 (R263). What follows 2^48 − 1, which no rekeyed entry reaches, no rule says: free
(DESIGN CHOICE, log entry 114). -/
def nextPn (r k : Nat) (s0 : State) : State × Nat :=
  match Map.get? s0.wide.keys k with
  | none => (s0, 0)
  | some e =>
    let d := if e.txPn + 1 < 2 ^ 48 then (e.txPn + 1, s0) else draw s0
    let n := d.1 % 2 ^ 48
    let s := d.2
    let low : Bool := decide (n ≥ 2 ^ 48 - 2 ^ 32) && !e.lowTold
    let s1 := { s with wide.keys := Map.set s.wide.keys k { e with txPn := n, lowTold := e.lowTold || low } }
    (if low then raise (wideSrc r) 0x0513 (le 2 k) (updWr r (fun x => { x with pnLowStk := true }) s1) else s1, n)

/-- A frame made ready for its next send (R259, R265): the first send assigns its sequence number, key and PN; none where its key is absent. -/
def prepare (r q : Nat) (f : Queued) (s : State) : State × Option Queued :=
  match f.air with
  | some a => (s, some { f with air := some { a with tries := a.tries + 1 } })
  | none =>
    let seq := match peerOf s q with | some c => Map.getD (s.client c).txSeq (queueAc q) 0 | none => 0
    let numbered (s : State) : State := match peerOf s q with
      | some c => updClient c (fun x => { x with txSeq := Map.set x.txSeq (queueAc q) ((seq + 1) % 4096) }) s
      | none => s
    match txKey s r q f with
    | none => (numbered s, some { f with air := some { tries := 1, seq := seq } })
    | some none => (s, none)
    | some (some k) =>
      match nextPn r k s with
      | (s1, pn) => (numbered s1, some { f with air := some { tries := 1, seq := seq, pn := pn, key := k } })

/-- A PS-Poll or a U-APSD service period gives one frame (R250). -/
def spendService (r c : Nat) (s : State) : State :=
  updClient c (fun x =>
    if !x.ps then x
    else if x.polls.contains r ∧ !presentIn s r c then { x with polls := x.polls.erase r }
    else { x with spLeft := x.spLeft.map (· - 1) }) s

/-- The largest A-MPDU in bytes toward the peer of queue `q` (R255): what the peer advertises as 2^(13 + exponent) − 1 (PRESUMED, log entry 110), at most
6.3 MB. -/
def ampduMax (s : State) (r q : Nat) : Nat :=
  match (peerOf s q).bind (linkOf s r) with
  | some l => min 6300000 (2 ^ (13 + (Map.getD s.wide.links l { client := 0, radio := r }).ampduExp) - 1)
  | none => 6300000

/-- An agreement with the device as originator covers queue `q` (R255). -/
def agreedTx (s : State) (q : Nat) : Bool :=
  match peerOf s q with | some c => (s.client c).baTx.any (fun a => hasBit (acTids (queueAc q)) a.1) | none => false

/-- An exchange being filled from one queue: MPDUs and bytes that it may still take, MSDUs that the last MPDU may still take, the last MPDU's facts. -/
structure DrawRoom where
  mpdus : Nat
  bytes : Nat
  msdus : Nat := 0
  last : Option AirTx := none
deriving DecidableEq, Repr

/-- Frame `f` joins the last MPDU as one more MSDU of its A-MSDU (R255): a retry as it stood before, a first send where there is room. -/
def DrawRoom.joins (d : DrawRoom) (f : Queued) : Bool :=
  d.last.isSome && (match f.air with | some a => a.joined | none => decide (d.msdus ≠ 0))

/-- The room left by frame `f`, sent as `g`. -/
def DrawRoom.take (d : DrawRoom) (per : Nat) (f g : Queued) : DrawRoom :=
  if d.joins f then { d with bytes := d.bytes - f.charge, msdus := d.msdus - 1 }
  else { mpdus := d.mpdus - 1, bytes := d.bytes - f.charge, msdus := per - 1, last := g.air }

/-- Up to `n` frames taken from queue `q` within room `d`, oldest first, up to `per` of them in one MPDU; a frame whose key is absent completes
NO_KEY. -/
def drawWithin (r : Nat) (station : Bool) (c q per : Nat) : Nat → DrawRoom → State → State × List SentMpdu
  | 0, _, s => (s, [])
  | n + 1, d, s =>
    match (s.queue q).frames with
    | [] => (s, [])
    | f :: _ =>
      if f.held ∨ !headOk r station s q f ∨ (d.last.isSome ∧ d.bytes < f.charge) ∨ (!d.joins f ∧ d.mpdus = 0) then (s, [])
      else
        let s1 := selectFrom (24 + r) c q f s
        match (match f.air, d.last with
          | none, some a => if d.joins f then (s1, some { f with air := some { a with joined := true } }) else prepare r q f s1
          | _, _ => prepare r q f s1) with
        | (s2, none) => drawWithin r station c q per n d (completeWlan r q 6 f s2)
        | (s2, some g) =>
          let s3 := match queueStation s2 q with | some k => spendService r k s2 | none => s2
          let rest := drawWithin r station c q per n (d.take per f g) s3
          (rest.1, { queue := q, item := { g with charged := true } } :: rest.2)

/-- Up to `n` MPDUs taken from queue `q`, oldest first, each of up to `per` MSDUs where an agreement covers the queue (R255). -/
def drawFrames (r : Nat) (station : Bool) (c q n per : Nat) (s : State) : State × List SentMpdu :=
  let k := if agreedTx s q then max 1 per else 1
  drawWithin r station c q k (n * k) { mpdus := n, bytes := ampduMax s r q } s

/-- Frames that a plan has already selected, made ready (R324, R340); one that may no longer be sent goes back to the head of its queue (R227, R238, R247,
R250). -/
def readyPlanned (r : Nat) : List (Nat × Queued) → State → State × List SentMpdu
  | [], s => (s, [])
  | (q, f) :: l, s =>
    if !headOk r false s q f then
      let rest := readyPlanned r l s
      (returnHead q f rest.1, rest.2)
    else match prepare r q f s with
    | (s1, none) => readyPlanned r l (completeWlan r q 6 f s1)
    | (s1, some g) =>
      let rest := readyPlanned r l (match queueStation s1 q with | some k => spendService r k s1 | none => s1)
      (rest.1, { queue := q, item := { g with charged := true } } :: rest.2)

/-! ### Starting (R191, R206, R214, R215, R230, R279) -/

/-- The committed spans of F24 (R215): on the air, acknowledgements due, answers to polls, armed rendezvous frames, which stand committed since
their arming. -/
def fieldSpans (s : State) : List TxSpan :=
  let lead := leadNs s 34 1
  onAir s 34 ++
    (s.fchain 0).acks.map (fun k => { lo := k.at' - lead, hi := k.at' + k.dur, since := k.since }) ++
    (s.fchain 0).answers.map (fun p => { lo := p.at' - lead, hi := p.at' + answerNs s p, since := p.since }) ++
    s.kept.field.rdv.filterMap (fun e =>
      if e.2.enable ∧ !e.2.listen ∧ e.2.band = 0 ∧ !(rdvRun s e.1).suspended then
        let t := s.time.mono + ticksTo s.time.acc s.inc (rdvInstant e.2 s.ns * 2 ^ 32) * s.tickNs
        some { lo := t - lead, hi := t + rdvNs e.2 }
      else none)

/-- The end of the latest F24 span, committed before `since`, that a W2 transmission over [t0, t1) would overlap (R215); of what was committed on the
same tick W2 stands (R216). -/
def fieldClash (s : State) (r t0 t1 since : Nat) : Option Nat :=
  if r = 1 ∧ shares24 s then
    match (fieldSpans s).filter (fun x => decide (x.lo < t1) && decide (t0 < x.hi) && decide (x.since < since)) with
    | [] => none
    | l => some (l.foldl (fun m x => max m x.hi) 0)
  else none

/-- The instant at which an exchange that starts now was committed (R215): a beacon, or one with a trigger frame (basic, MU-BAR, BFRP), at the plan commit
of the previous beat. -/
def committedAt (s : State) (a : WideAir) : Nat := if a.kind = 3 ∨ solicits a.kind then s.time.mono - s.phase - 100000 else s.time.mono

/-- Is the exchange of the station role (R230)? -/
def stationKind (kind : Nat) : Bool := decide (kind = 2) || decide (kind = 0x20) || decide (kind = 0x22)

/-- Chains of an exchange: those of the beat's mask; LISTEN_CHAIN alone in Watch (R190). -/
def exchangeChains (s : State) (r : Nat) : Nat :=
  if s.power.mode = .watch then 2 ^ (chanCfg s r).listenChain &&& (s.wr r).mask else (s.wr r).mask

/-- Chains of a response: those of the mask, or those that the reception before it kept powered (R189). -/
def responseChains (s : State) (r : Nat) : Nat :=
  let m := exchangeChains s r
  if m = 0 then (s.wr r).chains else m

/-- The plan entry that places an exchange that starts now and lasts `total` (R230, R340). -/
def placing (s : State) (r : Nat) (a : WideAir) : Bool :=
  let p := Map.getD s.plan.inForce r {}
  let inside (kind : Nat) (any : Bool) : Bool := p.entries.any (fun e =>
    decide (e.kind = kind) && (any || decide (e.arg = a.slot)) && decide (e.start * 1000 ≤ s.phase) &&
      decide (s.phase + a.total ≤ (e.start + e.dur) * 1000))
  if a.kind = 3 then
    (match (s.wr r).beaconDue with | some t => decide (s.time.mono ≤ t) | none => false) &&
      !p.entries.any (fun e => decide (e.kind = 2) && decide (s.phase < (e.start + e.dur) * 1000) && decide (e.start * 1000 < s.phase + a.total))
  else if a.kind = 0x20 then (s.wr r).nullDue.isSome && inside 2 true
  else if a.kind = 0x22 then (s.wr r).upLink.isSome && inside 2 true
  else if a.kind = 0x21 then inside 4 true && (ftmCfg s r).timing && apOn s r
  else if a.kind = 4 ∨ a.kind = 2 ∨ a.kind = 9 then inside a.kind true
  else if a.kind = 0x0A then inside a.kind false && decide ((s.wr r).ftmSessions > 0) && apOn s r
  else inside a.kind false

/-- A restricted service period begins within the exchange (R249). -/
def restrictedAhead (s : State) (r total : Nat) : Bool :=
  (Map.getD s.plan.inForce r {}).entries.any (fun e =>
    decide (e.kind = 8) && decide (e.arg / 256 = 2) && decide (s.phase < e.start * 1000) && decide (e.start * 1000 < s.phase + total))

/-- Nothing is being received that began before the front-end sequence of a transmission that starts now (R206). -/
def rxFree (s : State) (r : Nat) : Bool :=
  match (s.wr r).rx with
  | .idle => true
  | .acquiring t _ _ _ _ _ => decide (s.time.mono - leadNs s (wideSrc r) (exchangeChains s r) < t)
  | .receiving _ _ _ _ _ _ => false

/-- Can the radio send the PPDU in this beat: its format and options, its width, its streams (R185 to R187, R190)? -/
def sendable (s : State) (r : Nat) (p : PhyMode) (chains : Nat) : Bool :=
  phyOk s r (chanCfg s r).band true p && decide (widthMhz p.width ≤ widthMhz (operWidth s r (chanCfg s r).width)) && decide (p.nss ≤ chainCount chains)

/-- SIFS in ns: 10 µs in 2.4 GHz, 16 µs elsewhere (Table 6-4). -/
def sifsNs (s : State) (r : Nat) : Nat := if (chanCfg s r).band = 0 then 10000 else 16000

/-- PIFS in ns: SIFS and one slot of 9 µs. -/
def pifsNs (s : State) (r : Nat) : Nat := sifsNs s r + 9000

/-- The subchannels that a PPDU covers are idle, as last sensed (R198); before a beacon for PIFS, from the TBTT on (R236; DEDUCED, log entry 107). -/
def mediumIdle (s : State) (r : Nat) (a : WideAir) : Bool :=
  let w := s.wr r
  decide (w.busyUntil ≤ s.time.mono) && (coveredSubs s r a.phy.width).all (fun i => !hasBit w.cca i) &&
    (decide (a.kind ≠ 3) || decide (max w.busyUntil w.idleFrom + pifsNs s r ≤ s.time.mono))

/-- The station role uses at most the streams and the width that the upstream AP advertises (R224, Table 5-7). -/
def withinUpstream (s : State) (r : Nat) (a : WideAir) : Bool :=
  !stationKind a.kind ||
    (match ((s.wr r).upLink.bind (linkOf s r)).bind (Map.get? s.wide.links) with
     | some l => decide (a.phy.nss ≤ l.caps % 8 + 1) && decide (widthMhz a.phy.width ≤ widthMhz (l.caps / 8 % 8))
     | none => true)

/-- May the exchange start now, obstructions apart (R32, R51, R185 to R187, R190, R195, R197, R198, R224, R228, R230, R249, R254)? A due beacon goes
ahead of every other frame (R236). -/
def mayStart (s : State) (r : Nat) (a : WideAir) : Bool :=
  let w := s.wr r
  wideOn s r && !s.time.settling && decide (exchangeChains s r ≠ 0) && !transmitting s (wideSrc r) && w.exchange.isNone && w.responseAt.isNone &&
    w.test.isNone && !inCac s r && !grantHolds s r && (!radarStopped s r || decide (a.kind = 3) || decide (a.kind = 4)) &&
    rxFree s r && mediumIdle s r a && sendable s r a.phy (exchangeChains s r) &&
    (decide (s.power.mode ≠ .watch) || [2, 3, 4, 9, 0x20, 0x21, 0x22].contains a.kind) &&
    decide (20000 ≤ s.phase) && decide (s.phase < 950000) && decide (s.phase + a.total ≤ 1000000) &&
    placing s r a && withinUpstream s r a && !restrictedAhead s r a.total && (decide (a.kind = 3) || w.beaconDue.isNone)

/-- The TSF of radio `r` at `ahead` ns from now (R235). -/
def tsfAt (s : State) (r ahead : Nat) : Nat :=
  let us := (s.ns + ahead / s.tickNs * s.inc / 2 ^ 32) / 1000
  let shift := 1000 * (beaconCfg s r).phase + (beaconCfg s r).offset
  (us + 2 ^ 64 - shift) % 2 ^ 64

/-- AIDs whose TIM bit is set (R250): power-save stations with frames in queues that are not delivery-enabled. -/
def timAids (s : State) (r : Nat) : List Nat :=
  s.wide.clients.filterMap (fun e =>
    if e.2.kind = 1 ∧ e.2.ps ∧ (linkOf s r e.1).isSome ∧
        ((List.range 4).any (fun ac => !hasBit (e.2.uapsd / 16) ac && (clientQueues s e.1 ac).any (fun q => !(s.queue q).frames.isEmpty))) = true then some e.2.aid
    else none)

/-- The group bit of BSS `b` in the TIM of a DTIM beacon: group-addressed frames wait for it (R238, R239). -/
def groupBit (s : State) (r b : Nat) : Bool :=
  (List.range 8).any (fun k => (s.queue (8 * (24 + r) + k)).frames.any (fun f => (groupBss s r f).contains b))

/-- The fields that the hardware writes into a beacon (R235, R239, R240): Timestamp, countdown, DTIM counts, group bits, change counts, TIM. -/
def beaconFields (s : State) (r : Nat) (a : WideAir) : List Nat :=
  let w := s.wr r
  let csa := match w.move with | some m => m.csa.getD 0 | none => 0
  let dtim (b : Nat) : Nat := let d := max 1 (bssCfg s r b).dtim; (d - w.tbtts % d) % d
  [tsfAt s r a.tsAt, csa] ++ (List.range 8).map dtim ++ (List.range 8).map (fun b => bit (decide (dtim b = 0) && groupBit s r b)) ++
    (List.range 8).map (fun b => Map.getD w.changeCount b 0) ++ timAids s r

/-- The body of a beacon as numbers (R239). -/
def BeaconBody.fields (b : BeaconBody) : List Nat := [b.width] ++ b.muEdca ++ b.twt.flatten ++ b.quiet.flatten

/-- The frames of an exchange, each with its More Data and EOSP (R238, R250): more of the same destination follow in the exchange or in the queues, of a
group only those that may be sent now; the last frame of a service period. -/
def moreData (s : State) (r : Nat) (station : Bool) : List SentMpdu → List (SentMpdu × Bool × Bool)
  | [] => []
  | m :: l =>
    let c := queueStation s m.queue
    let later : Bool := l.any (fun x => if c.isSome then decide (queueStation s x.queue = c) else decide (x.queue = m.queue))
    let waits : Bool := match c with
      | some k => (List.range 4).any (fun a => (clientQueues s k a).any (fun q => !(s.queue q).frames.isEmpty))
      | none => (s.queue m.queue).frames.any (fun f => headOk r station s m.queue f)
    let eosp : Bool := match c with
      | some k => !later && (match (s.client k).spLeft with | some n => decide (n = 0) || !waits | none => false)
      | none => false
    (m, later || waits, eosp) :: moreData s r station l

/-- The exponent of Max TOD Error and Max TOA Error (R209): the least `k` with 2^(k − 1) ps not below the 5 ns of Table 1-11, for a DSSS PPDU not below
the 50 ns of R208; 31 while the calibration is stale. -/
def errorExponent (dsss stale : Bool) : Nat := if stale then 31 else if dsss then 17 else 14

/-- A stamp as a timing measurement frame and as an FTM frame carry it (Table 4-10). -/
def stamp10ns (st : Stamp) : Nat := st.ns / 10 % 2 ^ 32
def stampPs (st : Stamp) : Nat := (st.ns * 1000 + (roundAway (st.frac * 1000) 65536).toNat) % 2 ^ 48

/-- The kinds of exchange that send timing frames. -/
def timingKind (kind : Nat) : Bool := decide (kind = 0x21) || decide (kind = 0x0A)

/-- What a timing frame carries (R209, Table 4-10): TOD and TOA of the frame before it in its series, with the error bounds in an FTM frame. -/
def timingFields (kind : Nat) (p : TimingPair) : List Nat :=
  let toa := p.toa.getD {}
  if kind = 0x21 then [stamp10ns p.tod.stamp, stamp10ns toa.stamp]
  else [stampPs p.tod.stamp, stampPs toa.stamp, errorExponent p.tod.dsss p.tod.stale, errorExponent toa.dsss toa.stale]

/-- The receivers that a PPDU of radio `r` blanks, from the start of its front-end sequence (R206, R214). -/
def blankFor (r lead : Nat) (s : State) : State :=
  let s1 := blankWide r (s.time.mono - lead) s
  if r = 1 ∧ shares24 s1 then blankChain 0 (s1.time.mono - lead) s1 else s1

/-- The ends of these blanks, for a PPDU that ends at local instant `fin`. -/
def blankUntilFor (r fin : Nat) (s : State) : State :=
  let s1 := blankTo (wideSrc r) (fin + 2000) s
  if r = 1 ∧ shares24 s1 then blankTo 34 (fin + 10000) s1 else s1

/-- A PPDU goes on the air now: its blanks, its pins, its count (R191, R206, R214, Table 4-19); what it emits begins with its powers. -/
def sendPpdu (r kind chains dur : Nat) (p : PhyMode) (power : Option Int) (s : State) : State :=
  let src := wideSrc r
  let s1 := blankUntilFor r (s.time.mono + dur) (startRadio src kind chains dur (blankFor r (leadNs s src chains) s))
  phyCount r pTxPpdu (if ceilingBinds s r p power chains then phyCount r pTxLimited s1 else s1)

/-- The powers at the balls of the chains that send a PPDU (R191). -/
def chainPowers (s : State) (r chains : Nat) (p : PhyMode) (power : Option Int) : List Nat :=
  (chainsOf chains).map (fun c => unsignedOf 16 (ballPower s r p power (chainCount chains) c))

/-- The users of a trigger frame as it names them (R242): client, MCS within MCS_CAP and streams of the link record, target receive power, which is the
strength last received (DESIGN CHOICE, log entry 111). -/
def triggerUsers (s : State) (r : Nat) (users : List Nat) : List Nat :=
  (users.map (fun c =>
    let l := match linkOf s r c with | some i => Map.getD s.wide.links i { client := c, radio := r } | none => { client := c, radio := r }
    [c, min l.mcs l.mcsCap, l.nss, unsignedOf 16 l.rssi])).flatten

/-- The addresses of a relayed frame (R268): addr1 the neighbour's, addr2 the radio's in the role concerned, addr3 and addr4 the original DA and SA. -/
def relayAddresses (s : State) (r : Nat) (m : SentMpdu) : Option (List Nat) :=
  match neighbourOf m.queue, m.item.payload with
  | some n, .eth f =>
    let own := if stationQueue s m.queue then (upCfg s r).sta else (bssCfg s r (((peerOf s m.queue).map (fun c => (s.client c).bss)).getD 0)).bssid
    some [f.id, (Map.getD s.kept.wide.neighbours n {}).addr, own, f.da, f.sa]
  | _, _ => none

/-- Is an MPDU a probe response? -/
def SentMpdu.probe (m : SentMpdu) : Bool := match m.item.payload with | .eth f => f.mgmt.probe | .field _ => false

/-- What the radio writes into the frames of an exchange: a beacon (42, and 58 its body), timing frames (42), a trigger frame (56: UL Length, UL MU CS
Required, users), the Timestamp of a probe response (42, R235), the addresses of relayed frames (57). -/
def contents (s : State) (r : Nat) (x : Exchange) : List (Nat × List Nat) :=
  let slot := (Map.getD s.plan.inForce r {}).slots.find? (fun e => decide (e.id = x.air.slot) && decide (e.kind = x.air.kind))
  (if x.air.kind = 3 then [(42, beaconFields s r x.air), (58, (s.wr r).beaconBody.fields)]
   else if timingKind x.air.kind then [(42, timingFields x.air.kind (Map.getD (s.wr r).timing (65536 * x.air.kind + x.air.slot) {}))]
   else if x.air.kind = 5 then [(56, [((slot.map (·.tb)).getD 0), 1] ++ triggerUsers s r x.users)]
   else []) ++
    (if x.sent.any SentMpdu.probe then [(42, [tsfAt s r x.air.tsAt])] else []) ++ (x.sent.filterMap (relayAddresses s r)).map (fun l => (57, l))

/-- The PPDU of exchange `x` goes on the air now, with its stamp (R191, R206, R207, R214). -/
def launch (r : Nat) (x : Exchange) (s : State) : State :=
  let src := wideSrc r
  let chains := exchangeChains s r
  let v := delayVariant s r x.air.phy.width
  let st := egressStamp src (refChain chains) v 0 s
  let flags := stampFlags src (refChain chains) v s
  let s1 := sendPpdu r (if x.air.kind = 3 ∨ x.air.kind = 5 then 2 else 0) chains x.air.dur x.air.phy x.air.power s
  let frames := (moreData s r x.upstream x.sent).map (fun m => [m.1.item.payload.id, bit m.2.1, bit m.2.2])
  let s2 := emit (.frame src 41 ([x.air.kind, x.air.dur, chains] ++ chainPowers s r chains x.air.phy x.air.power ++ frames.flatten)) s1
  let key := 65536 * x.air.kind + x.air.slot
  let s3 := (contents s r x).foldl (fun s e => emit (.frame src e.1 e.2) s) s2
  updWr r (fun w => { w with
    exchange := some { x with startMono := s.time.mono, stamp := st, flags := flags }, waiting := none, shareWait := false,
    timing := if timingKind x.air.kind then Map.set w.timing key { tod := { stamp := st, stale := flags.1, dsss := decide (x.air.phy.format = 5) } } else w.timing }) s3

/-- Does an item begin an MPDU? One that joins an A-MSDU does not. -/
def SentMpdu.leads (m : SentMpdu) : Bool := !m.item.air.any (·.joined)

/-- Clients that an exchange serves. -/
def servedClients (s : State) (x : Exchange) : List Nat :=
  (x.sent.filterMap (fun m => peerOf s m.queue) ++ x.users).eraseDups

/-- The row of the present beat in the record of neighbour `n` changed; rows older than 1,000 beats go (R269). -/
def updMetric (n : Nat) (f : MetricRow → MetricRow) (s : State) : State :=
  let rows := (Map.getD s.wide.metrics n []).filter (fun x => x.beat + 1000 > s.beat)
  let row := (rows.find? (fun x => decide (x.beat = s.beat))).getD { beat := s.beat }
  { s with wide.metrics := Map.set s.wide.metrics n (rows.filter (fun x => x.beat ≠ s.beat) ++ [f row]) }

/-- The MU-RTS frames that open an exchange with EMLSR clients, each with the padding delay of its client, a PPDU each (R227). -/
def openLinks (r : Nat) (x : Exchange) (s : State) : State :=
  (servedClients s x).foldl (fun s c =>
    if hasBit (s.client c).flags 2 then emit (.frame (wideSrc r) 45 [c, (s.client c).emPad]) (phyCount r pTxPpdu s) else s) s

/-- Air time, EMLSR absence and due BlockAckReqs of an exchange that starts (R227, R259, R269): BlockAckReqs with TID and starting sequence number, as an
MU-BAR in a trigger-based exchange. -/
def chargeLinks (r : Nat) (x : Exchange) (s : State) : State :=
  (servedClients s x).foldl (fun s c =>
    let cl := s.client c
    let sends := (x.sent.filter (fun m => decide (peerOf s m.queue = some c) && m.leads)).length
    let us := x.air.total / 1000
    let s1 := updLink r c (fun l => { l with
      txMpdu := satAdd 32 l.txMpdu sends, air := Map.modify (l.air.filter (fun e => e.1 + 1000 > s.beat)) s.beat 0 (· + us) }) s
    let s2 := (neighboursOf s c).foldl (fun s n => updMetric n (fun m =>
      { m with air := m.air + us, sent := m.sent + sends, mcsSum := m.mcsSum + sends * x.air.phy.mcs }) s) s1
    let s3 := if hasBit cl.flags 2 then updClient c (fun y => { y with absent := [(1 - r, s.time.mono + x.air.total + cl.emDelay)] }) s2 else s2
    if cl.barDue.isEmpty then s3
    else emit (.frame (wideSrc r) 46 ([c, bit (solicits x.air.kind)] ++ (cl.barDue.map (fun b => [b.1, b.2])).flatten))
      (updClient c (fun y => { y with barDue := [] }) s3)) s

/-- May a trigger frame name client `c` now: linked and not absent (R227), in a basic trigger not left out for its silence (R243)? -/
def triggerOk (s : State) (r c : Nat) (bsrp : Bool) : Bool :=
  (match linkOf s r c with | some l => bsrp || !(Map.getD s.wide.links l { client := c, radio := r }).silent | none => false) && !away s r c

/-- The frames, users and power management of an exchange that may start now; none where it has nothing to send. -/
def fillExchange (r : Nat) (a : WideAir) (s : State) : State × Option Exchange :=
  let base : Exchange := { air := a, startMono := s.time.mono, upstream := stationKind a.kind }
  let p := Map.getD s.plan.inForce r {}
  let slot : Option ExchSlot := p.slots.find? (fun x => decide (x.id = a.slot) && decide (x.kind = a.kind))
  if a.kind = 3 ∨ a.kind = 7 ∨ a.kind = 0x0A ∨ a.kind = 0x21 ∨ a.kind = 0x22 then (s, some base)
  else if a.kind = 0x20 then (s, some { base with pm := (s.wr r).nullDue.getD 0 })
  else if a.kind = 5 then
    match slot with
    | none => (s, none)
    | some t =>
      let us := t.queues.filterMap (fun e => match clientOf e.1 with
        | some c => if triggerOk s r c t.bsrp ∧ (t.bsrp ∨ !p.repeated ∨ (s.queue e.1).ulBytes > 0) then some c else none
        | none => none)
      (s, if us.isEmpty then none else some { base with users := us.eraseDups })
  else if a.kind = 6 then
    match slot with
    | none => (s, none)
    | some t =>
      let took := if p.repeated then
          t.queues.foldl (fun acc e =>
            let d := drawFrames r false (queueClass acc.1 e.1) e.1 e.2 a.amsdu acc.1
            (d.1, acc.2 ++ d.2)) (s, [])
        else
          readyPlanned r t.frames { s with plan.inForce := Map.set s.plan.inForce r { p with slots := p.slots.map (fun x => if x.id = t.id then { x with frames := [] } else x) } }
      (took.1, if took.2.isEmpty then none else some { base with sent := took.2 })
  else
    match chooseHead r (stationKind a.kind) ((p.lean && !p.active) || radarStopped s r) s with
    | (s1, none) => (s1, none)
    | (s1, some (c, q, _)) =>
      if a.kind = 9 ∧ queueRange q ≠ 0 then (s1, none)
      else
        let took := drawFrames r (stationKind a.kind) c q (max 1 a.count) a.amsdu s1
        (took.1, if took.2.isEmpty then none else some { base with sent := took.2 })

/-- A station whose PS-Poll finds no frame any more (R251). -/
def emptyPoll (s : State) (r : Nat) : Option Nat :=
  (s.wide.clients.find? (fun e => e.2.polls.contains r && !away s r e.1 &&
    (List.range 4).all (fun ac => hasBit (e.2.uapsd / 16) ac || (clientQueues s e.1 ac).all (fun q => (s.queue q).frames.isEmpty)))).map (·.1)

/-- That PS-Poll is answered with a QoS Null frame with More Data 0, a PPDU of its own (R251). -/
def answerPoll (r c : Nat) (a : WideAir) (s : State) : State :=
  emit (.frame (wideSrc r) 47 [c, 0])
    (accCount r (bssOf s (some c)) aPsEmpty (launch r { air := a, startMono := s.time.mono } (updClient c (fun x => { x with polls := x.polls.erase r }) s)))

/-- The exchange starts on a chain that is free. -/
def goExchange (r : Nat) (a : WideAir) (s : State) : State :=
  match (if a.kind = 4 ∧ !radarStopped s r then emptyPoll s r else none) with
  | some c => answerPoll r c a s
  | none =>
  match fillExchange r a s with
  | (s1, none) => s1
  | (s1, some x) =>
    let s2 := updWr r (fun w => { w with
      beaconDue := if a.kind = 3 then none else w.beaconDue,
      groupRelease := if a.kind = 3 then
          (List.range 8).foldl (fun m b => if w.tbtts % max 1 (bssCfg s r b).dtim = 0 then Map.set m b s.beat else m) w.groupRelease
        else w.groupRelease,
      nullDue := if a.kind = 0x20 then none else w.nullDue,
      upPm := if a.kind = 0x20 then x.pm else w.upPm, upPmAcked := if a.kind = 0x20 then false else w.upPmAcked }) s1
    chargeLinks r x (launch r x (openLinks r x s2))

/-- The exchange waits from now on; its frames stay in their queues. -/
def waitExchange (r : Nat) (a : WideAir) (s : State) : State :=
  updWr r (fun w => { w with waiting := some { air := a, startMono := s.time.mono, upstream := stationKind a.kind }, shareWait := false })
    (setWaiting (wideSrc r) (if a.kind = 3 ∨ a.kind = 5 then 2 else 0) (exchangeChains s r) s)

/-- The exchange waits for an F24 span to end (R215): no allowance of R280 runs. -/
def waitShare (r : Nat) (a : WideAir) (s : State) : State :=
  updWr r (fun w => { w with waiting := some { air := a, startMono := s.time.mono, upstream := stationKind a.kind }, shareWait := true })
    { s with front.waiting := Map.set s.front.waiting (wideSrc r) { t0 := s.time.mono, t1 := s.time.mono, kind := 0, chains := exchangeChains s r } }

/-- The exchange can start behind the F24 span that ends at `t` and its PPDU still end by 950 µs (R215). -/
def shareFits (s : State) (a : WideAir) (t : Nat) : Bool := decide (s.phase + (t - s.time.mono) + a.dur ≤ 950000)

/-- A device-initiated exchange starts, waits, or goes back to the Planisher (R230, R215, R279); it does not start before an overrun of its radio's unit
has ended (R34). -/
def tryExchange (r : Nat) (a : WideAir) (s : State) : State :=
  if !mayStart s r a ∨ (s.wr r).waiting.isSome ∨ s.overrunning (wideSrc r) then s
  else if obstructed s (wideSrc r) (exchangeChains s r) ∨ priorityPending s (wideSrc r) then waitExchange r a s
  else match fieldClash s r (s.time.mono - leadNs s (wideSrc r) (exchangeChains s r)) (s.time.mono + a.dur) (committedAt s a) with
    | some t =>
      let s1 := phyCount r pShareHold s
      if shareFits s a t then waitShare r a s1 else s1
    | none => goExchange r a s

/-- WIDE_EXCHANGE_START (R198, R230): the medium sensed as the exchange would start, and its start tried. -/
def exchangeStart (r : Nat) (a : WideAir) (s : State) : State := tryExchange r a (senseMedium r a.cca s)

/-! ### Ends -/

/-- Beats after which an MSDU of queue `q` expires (R259). -/
def lifetimeOf (s : State) (r q : Nat) : Nat := (accessCfg s r).lifetime.getD (queueAc q) 1000

/-- What becomes of an MPDU that is not acknowledged (R251, R259, R272): a completion status, FLUSHED where its station or its key is gone, or none where
it goes back to its queue. -/
def unackedStatus (s : State) (r : Nat) (m : SentMpdu) : Option Nat :=
  let tries := match m.item.air with | some a => a.tries | none => 1
  let gone : Bool := match clientOf m.queue with | some c => !Map.has s.wide.clients c | none => false
  let keyless : Bool := m.item.air.any (fun a => decide (a.key ≠ 0xFFFF) && !Map.has s.wide.keys a.key)
  if gone ∨ keyless then some 5
  else if tries ≥ (accessCfg s r).retryLimit + 1 then some 1
  else if (psClient s m.queue).isNone ∧ queueRange m.queue ≠ 4 ∧ s.beat ≥ m.item.enqBeat + lifetimeOf s r m.queue then some 2
  else none

/-- The MPDUs of an exchange end: acknowledged ones complete TX_OK, the others complete or return to the heads of their queues (R320). -/
def settleMpdus (r : Nat) (l : List (SentMpdu × Bool)) (s : State) : State :=
  let s1 := l.foldl (fun s e =>
    if e.2 then completeWlan r e.1.queue 0 e.1.item s
    else match unackedStatus s r e.1 with
      | some st => completeWlan r e.1.queue st e.1.item s
      | none => s) s
  l.reverse.foldl (fun t e => if !e.2 ∧ (unackedStatus s r e.1).isNone then returnHead e.1.queue e.1.item t else t) s1

/-- The record of an exchange's MPDUs for link adaptation (R244). -/
def recordPer (r : Nat) (x : Exchange) (l : List (SentMpdu × Bool)) (s : State) : State :=
  (x.sent.filterMap (fun m => peerOf s m.queue)).eraseDups.foldl (fun s c =>
    let mine := l.filter (fun e => decide (peerOf s e.1.queue = some c) && e.1.leads)
    let lost := (mine.filter (fun e => !e.2)).length
    let row : LinkPer := { beat := s.beat, mcs := x.air.phy.mcs, nss := x.air.phy.nss, sent := mine.length, lost := lost }
    (neighboursOf s c).foldl (fun s n => updMetric n (fun m => { m with lost := m.lost + lost }) s) <| updLink r c (fun y =>
      let beats := ((row :: y.per).map (·.beat)).eraseDups.take 16
      { y with per := (row :: y.per).filter (fun p => beats.contains p.beat), lastOk := if lost < mine.length then s.beat else y.lastOk }) s) s

/-- A triggered user sent nothing in its RU (R242, R243). -/
def tbMiss (r c : Nat) (s : State) : State :=
  accCount r none aTbMiss (updLink r c (fun l =>
    { l with tbMiss := satInc 16 l.tbMiss, silent := l.silent || decide (l.tbMiss + 1 ≥ (accessCfg s r).tbMissLimit) }) s)

/-- The exchange is over: its MPDUs settled by what was acknowledged, its remaining users missed. -/
def closeExchange (r : Nat) (acks : List AckFacts) (s : State) : State :=
  match (s.wr r).exchange with
  | none => s
  | some x =>
    let mark (m : SentMpdu) (i : Nat) : SentMpdu × Bool := (m, acks.any (fun a => decide (a.queue = m.queue) && a.acked.getD i false))
    let place (m : SentMpdu) : Nat :=
      ((x.sent.takeWhile (fun y => y ≠ m)).filter (fun y => decide (y.queue = m.queue) && y.leads)).length - (if m.leads then 0 else 1)
    let numbered := x.sent.map (fun m => mark m (place m))
    let s1 := updWr r (fun w => { w with exchange := none }) s
    let s2 := x.users.foldl (fun s c => tbMiss r c s) s1
    settleMpdus r numbered (recordPer r x numbered s2)

/-- Closed-loop measurements of a PPDU of 100 µs or more (R194). -/
def tpcMeasure (r dur : Nat) (meas : List Int) (s : State) : State :=
  if (powerCfg s r).closedLoop ∧ dur ≥ 100000 then
    updWr r (fun w => { w with tpcSeen := (List.range 4).map (fun c => match meas[c]? with | some d => some d | none => w.tpcSeen.getD c none) }) s
  else s

/-- WIDE_TX_END (R206): the PPDU ends; `meas` is the deviation from the target power that each chain's detector shows, 0.25 dB. -/
def wideTxEnd (r : Nat) (meas : List Int) (s : State) : State :=
  let src := wideSrc r
  match Map.get? s.front.tx src with
  | none => s
  | some t =>
    if r ≥ 2 ∨ t.kind = 3 then s
    else
      let s1 := updWr r (fun w => { w with idleFrom := max w.idleFrom t.t1 }) (tpcMeasure r (t.t1 - t.t0) meas (endRadio src false (advanceMono t.t1 s)))
      settleChains r (
      if (s1.wr r).responding then updWr r (fun w => { w with responding := false, exchange := w.exchange.map (fun x => { x with phase := 1 }) }) s1
      else match (s1.wr r).exchange with
        | none => s1
        | some x =>
          let s2 := x.sent.foldl (fun s m => match m.item.payload with
            | .eth f => (match f.stamp with | some tag => pushTsq src x.stamp x.flags false tag s | none => s)
            | .field _ => s) s1
          let s3 := if x.air.kind = 0x21 then phyCount r pTmSent s2 else s2
          let s4 := if x.air.kind = 0x0A ∧ x.air.last then
            updWr r (fun w => { w with ftmSessions := w.ftmSessions - 1, timing := Map.erase w.timing (65536 * 0x0A + x.air.slot) }) s3 else s3
          let waits : Bool := decide (x.air.kind = 0x20) || decide (x.air.kind = 7) || timingKind x.air.kind || !x.users.isEmpty || (x.air.wantsAck && !x.sent.isEmpty && decide (x.air.kind ≠ 9))
          if waits then updWr r (fun w => { w with exchange := some { x with phase := 1 } }) s4
          else
            let s5 := updWr r (fun w => { w with exchange := none }) s4
            settleMpdus r (x.sent.map (fun m => (m, true))) s5)

/-- The exchange ends unanswered; a QoS Null is due again (R232). -/
def unanswered (r : Nat) (s : State) : State :=
  match (s.wr r).exchange with
  | none => s
  | some x => if x.air.kind = 0x20 then updWr r (fun w => { w with exchange := none, nullDue := some x.pm }) s else closeExchange r [] s

/-- WIDE_ACK_TIMEOUT (R259): nothing answered the exchange. -/
def ackTimeout (r : Nat) (s : State) : State :=
  match (s.wr r).exchange with
  | none => s
  | some x =>
    if x.phase ≠ 1 ∨ (s.wr r).rx ≠ .idle then s else unanswered r s

/-- The transmission of radio `r` is cut (R278, R289): its frames are unacknowledged. -/
def cutWide (r : Nat) (s : State) : State :=
  if !transmitting s (wideSrc r) then s
  else
    let s1 := endRadio (wideSrc r) true s
    settleChains r (if (s1.wr r).responding then closeExchange r [] (updWr r (fun w => { w with responding := false }) s1)
      else unanswered r s1)

/-! ### Responses (R215, R231, R280) -/

/-- A response is committed at the end of the PPDU it answers; one that would overlap an exchange already started, on the air or awaiting its answer, is
not sent (R231). -/
def commitResponse (r dur : Nat) (p : PhyMode) (acks : List AckBit) (count : Nat) (s : State) : State :=
  if transmitting s (wideSrc r) ∨ (s.wr r).responseAt.isSome ∨ (s.wr r).exchange.isSome then accCount r none aRespMiss s
  else updWr r (fun w => { w with
    responseAt := some { at' := s.time.mono + sifsNs s r, since := s.time.mono, dur := dur, phy := p, acks := acks, count := count } }) s

/-- The kind of acknowledgement that a response carries (R254, R255): 0 none, 1 ACK, 2 compressed, 3 multi-TID, 4 multi-STA BlockAck. -/
def ackKind (s : State) (acks : List AckBit) : Nat :=
  match acks with
  | [] => 0
  | a :: l =>
    if l.any (fun x => x.client ≠ a.client) then 4
    else if l.any (fun x => x.tid ≠ a.tid) then 3
    else if l = [] ∧ !Map.has (s.client a.client).baRx a.tid then 1 else 2

/-- What a response says of the MPDUs that it answers (R254). -/
def ackFields (s : State) (acks : List AckBit) : List Nat :=
  ackKind s acks :: (acks.map (fun a => [a.client, a.tid, a.seq, bit a.acked])).flatten

/-- The frames of the station role that a TB PPDU carries (R231). -/
def drawTb (r : Nat) (x : Response) (s : State) : State × List SentMpdu :=
  if !x.phy.triggered ∨ (s.wr r).upLink.isNone then (s, [])
  else match chooseHead r true false s with
    | (s1, none) => (s1, [])
    | (s1, some (c, q, _)) => drawFrames r true c q x.count 1 s1

/-- WIDE_RESPONSE_SEND: SIFS after the PPDU; its powers are those of any PPDU (R191, R192, R199); none after a confirmed radar (R197). A TB PPDU carries
frames of the station role. -/
def responseSend (r : Nat) (s : State) : State :=
  match (s.wr r).responseAt with
  | none => s
  | some x =>
    let src := wideSrc r
    let s1 := updWr r (fun w => { w with responseAt := none }) (advanceMono x.at' s)
    let chains := responseChains s1 r
    if !wideOn s1 r ∨ chains = 0 ∨ grantHolds s1 r ∨ inCac s1 r ∨ radarStopped s1 r ∨ !sendable s1 r x.phy chains then settleChains r s1
    else if transmitting s1 src then accCount r none aRespMiss s1
    else if obstructed s1 src chains then settleChains r (frontCount src cLateDrop s1)
    else if (fieldClash s1 r (s1.time.mono - leadNs s1 src chains) (s1.time.mono + x.dur) x.since).isSome then settleChains r (phyCount r pShareResp s1)
    else
      let tb := drawTb r x s1
      let air : WideAir := { kind := 2, dur := x.dur, total := x.dur, phy := x.phy }
      emit (.frame src 48 ([x.dur, chains] ++ chainPowers s1 r chains x.phy none ++ ackFields s1 x.acks ++ tb.2.map (fun m => m.item.payload.id)))
        (updWr r (fun w => { w with responding := true,
                                    exchange := if tb.2.isEmpty then w.exchange else some { air := air, startMono := s1.time.mono, sent := tb.2, upstream := true } })
          (sendPpdu r 1 chains x.dur x.phy none tb.1))

/-! ### Lifetimes (R251, R259) -/

/-- Frames of queue `q` that have waited `life` beats complete with status `st`; time moves to the oldest one's expiry. -/
def expireQueue (q life st : Nat) (s : State) : State :=
  match (s.queue q).frames with
  | [] => s
  | f :: l =>
    let oldest := l.foldl (fun m x => min m x.enqBeat) f.enqBeat
    let s1 := advanceTo ((oldest + life) * 1000000) s
    let r := queueHome s1 q - 24
    let gone := (s1.queue q).frames.filter (fun x => x.enqBeat + life ≤ s1.beat)
    let s2 := updQueue q (fun p => { p with frames := p.frames.filter (fun x => x.enqBeat + life > s1.beat) }) s1
    tagHead q (gone.foldl (fun s x => completeWlan r q st x s) s2)

/-- MSDU_LIFETIME_EXPIRY: of an individually addressed frame that no power-save station waits for. -/
def msduExpiry (q : Nat) (s : State) : State :=
  if (queueRange q = 1 ∨ queueRange q = 3) ∧ (psClient s q).isNone then expireQueue q (lifetimeOf s (queueHome s q - 24) q) 2 s else s

/-- PS_LIFETIME_EXPIRY: of a frame buffered for a power-save station. -/
def psExpiry (q : Nat) (s : State) : State :=
  if (psClient s q).isSome then expireQueue q (accessCfg s (queueHome s q - 24)).psLifetime 4 s else s

end Sys2Proof.Machine
end

