-- ==== Sys2Proof/Machine/WideRx.lean ====
section
/-! DEFINITION. The wide radios, receiving (chapter 5): the MPDU checks, reordering, management frames, power save, TWT requests, four-address
relay, what a received PPDU acknowledges. -/

namespace Sys2Proof

/-- The links of an association, by radio. -/
def Assoc.links (a : Assoc) : List (Nat × LinkGrant) :=
  (a.link1.map (fun l => (0, l))).toList ++ (a.link2.map (fun l => (1, l))).toList

/-- Key bytes of a cipher (Table 5-5). -/
def Machine.keyBytes (cipher : Nat) : Nat := if cipher = 2 ∨ cipher = 4 ∨ cipher = 6 ∨ cipher = 8 then 32 else 16

/-- Does a key of the Steward's fit its entry (Table 5-5, Table 5-12)? -/
def KeyGrant.fits (g : KeyGrant) : Bool :=
  decide (g.entry < 4352) && decide (1 ≤ g.cipher) && decide (g.cipher ≤ 8) && decide (g.key.length = Machine.keyBytes g.cipher) &&
    (if g.entry < 4096 then decide (g.cipher ≤ 4) && decide (g.keyId ≤ 1) else decide (1 ≤ g.keyId) && decide (g.keyId ≤ 7))

end Sys2Proof

namespace Sys2Proof.Machine

/-! ### Clients that come and go (R225, R226, R270, R271) -/

/-- The frames of queue `q` are completed FLUSHED, and what waits on the air for it is settled later. -/
def flushWlan (q : Nat) (s : State) : State := completeQueue q 5 s

/-- A client leaves the table: its frames FLUSHED, its keys, agreements, link records and entry gone (R271). -/
def removeClient (c : Nat) (s : State) : State :=
  match Map.get? s.wide.clients c with
  | none => s
  | some x =>
    let queues := ((List.range 4).map (clientQueues s c)).flatten
    let s1 := queues.foldl (fun s q => flushWlan q s) s
    let dropKeys (m : List (Nat × KeyEntry)) : List (Nat × KeyEntry) :=
      m.filter (fun e => e.1 ≠ x.key0 ∧ e.1 ≠ x.key1 ∧ ¬(e.1 < 4096 ∧ e.2.cipher ≠ 9 ∧ e.2.client = c))
    { s1 with
      wide.clients := Map.erase s1.wide.clients c,
      wide.links := s1.wide.links.filter (fun e => e.2.client ≠ c),
      wide.twt := s1.wide.twt.filter (fun e => e.2.client ≠ c),
      wide.twtMembers := Map.mapVals s1.wide.twtMembers (fun _ l => l.filter (· ≠ c)),
      wide.keys := dropKeys s1.wide.keys, wide.keysNext := dropKeys s1.wide.keysNext,
      wide.radios := s1.wide.radios.map (fun w => { w with
        periods := w.periods.map (fun p => { p with members := p.members.filter (· ≠ c), present := p.present.filter (· ≠ c) }),
        upLink := if w.upLink = some c then none else w.upLink }),
      plan.queues := s1.plan.queues.map (fun e => if queues.contains e.1 then (e.1, { e.2 with ulBytes := 0, ulSeen := none }) else e) }

/-- The client index of the neighbour records of role 1 that name a station by its address is set at association, and goes with it (R266). -/
def setNeighbourClient (addr c : Nat) (s : State) : State :=
  setKept (fun k => { k with wide.neighbours := k.wide.neighbours.map (fun e =>
    if e.2.role = 1 ∧ e.2.addr = addr then (e.1, { e.2 with client := c }) else e) }) s

/-- A station leaves or is removed (WIDE_STA_LEFT): cause 0 the station left, 1 removed by the AP. -/
def stationLeft (c reason cause : Nat) (s : State) : State :=
  match Map.get? s.wide.clients c with
  | none => s
  | some x =>
    let r := if x.link1 ≠ 0xFFFF then 0 else 1
    let s1 := setNeighbourClient x.addr 0xFFFF (removeClient c s)
    raise (wideSrc r) 0x0511 (le 2 c ++ le 2 reason ++ le 1 cause) s1

/-- The upstream link of radio `r` goes down (WIDE_UP_LINK). -/
def upLinkDown (r : Nat) (s : State) : State :=
  match (s.wr r).upLink with
  | none => s
  | some c => raise (wideSrc r) 0x0516 (le 1 1 ++ le 1 (upCfg s r).neighbour) (removeClient c (updWr r (fun w => { w with upLink := none, upTwt := none }) s))

/-- Links that radio `r` associates, those of client `c` apart. -/
def linksOn (s : State) (r c : Nat) : Nat := (s.wide.links.filter (fun e => decide (e.2.radio = r) && decide (e.2.client ≠ c))).length

/-- Is a client in the BSS that an association joins? While W1 and W2 are paired a BSS index is one BSS of both radios (R226), else one on each. -/
def sameBss (s : State) (a : Assoc) (x : Client) : Bool :=
  decide (x.kind = 1) && decide (x.bss = a.bss) &&
    (s.kept.wide.pair || (a.link1.isSome && decide (x.link1 ≠ 0xFFFF)) || (a.link2.isSome && decide (x.link2 ≠ 0xFFFF)))

/-- Are the facts of an association possible, and within the limits of R225? -/
def assocOk (s : State) (a : Assoc) (kind : Nat) (bss : Nat → Bss) : Bool :=
  let others := s.wide.clients.filter (fun e => decide (e.1 ≠ a.client) && sameBss s a e.2)
  let here (r : Nat) : Nat := (others.filter (fun e => if r = 0 then decide (e.2.link1 ≠ 0xFFFF) else decide (e.2.link2 ≠ 0xFFFF))).length
  decide (a.client < 1024) && !a.links.isEmpty && (a.links.map (·.2.record)).Nodup &&
    (match Map.get? s.wide.clients a.client with | some x => decide (x.addr = a.addr) | none => true) &&
    !s.kept.field.children.any (fun e => decide (e.2.client = a.client)) &&
    (decide (a.links.length < 2) || (if kind = 1 then s.kept.wide.pair else pairOk (chanCfg s 0) (chanCfg s 1))) && a.links.all (fun e =>
      decide (e.2.record < 1024) && decide (linksOn s e.1 a.client < 512) &&
      (match Map.get? s.wide.links e.2.record with | some l => decide (l.client = a.client) | none => true) &&
      (decide (kind = 2) || ((bss e.1).enable && decide (here e.1 < (bss e.1).maxSta)))) &&
    (decide (kind = 2) || (decide (a.bss < 8) && decide (1 ≤ a.aid) && decide (a.aid ≤ 2006) && others.all (fun e => decide (e.2.aid ≠ a.aid))))

/-- The entry and the link records of an association (Tables 5-6, 5-7). -/
def makeClient (kind : Nat) (a : Assoc) (s : State) : State :=
  let x : Client := {
    kind := kind, bss := a.bss, addr := a.addr, aid := a.aid, flags := a.flags,
    link1 := (a.link1.map (·.record)).getD 0xFFFF, link2 := (a.link2.map (·.record)).getD 0xFFFF,
    key0 := a.key0, key1 := a.key1, uapsd := a.uapsd, maxSp := a.maxSp, assocBeat := s.beat % 2 ^ 32,
    emPad := a.emPad, emDelay := a.emDelay }
  a.links.foldl (fun s e => { s with wide.links := Map.set s.wide.links e.2.record {
      client := a.client, radio := e.1, caps := e.2.caps, addr := e.2.addr, mcsCap := e.2.mcsCap, ampduExp := e.2.ampduExp, lastOk := s.beat } })
    { s with wide.clients := Map.set s.wide.clients a.client x }

/-- An association that the Steward grants: refused with status code 17 past a limit (R225), else an entry and WIDE_STA_ASSOC. -/
def associate (r : Nat) (a : Assoc) (s : State) : State :=
  if !assocOk s a 1 (fun k => bssCfg s k a.bss) then emit (.frame (wideSrc r) 43 [a.addr, 17]) s
  else
    let s1 := setNeighbourClient a.addr a.client (makeClient 1 a (removeClient a.client s))
    raise (wideSrc r) 0x0510 (le 2 a.client ++ le 1 a.bss ++ le 2 (s1.client a.client).link1 ++ le 2 (s1.client a.client).link2)
      (emit (.frame (wideSrc r) 43 [a.addr, 0]) s1)

/-- Upstream windows of `len` µs that end at 950 µs of every UP_EVERY-th beat (R345): interval in beats, phase and duration in µs. -/
def upWindows (s : State) (r : Nat) : Nat × Nat × Nat :=
  let g := Map.getD s.kept.plan.air r {}
  let len := min 930 ((upCfg s r).share * 930 * g.upEvery / 64 / 10 * 10)
  (max 1 g.upEvery, 950 - len, len)

/-- In mode 1 the Steward asks the upstream AP for an individual TWT agreement that matches the upstream windows (R232): once per set of windows (DEDUCED,
log entry 116). -/
def askTwt (r : Nat) (s : State) : State :=
  let w := s.wr r
  let want := upWindows s r
  if w.upLink.isSome ∧ (upCfg s r).pmMode = 1 ∧ w.upTwt ≠ some want ∧ s.stw.state = .ready then
    emit (.frame (wideSrc r) 55 [want.1, want.2.1, want.2.2]) (updWr r (fun w => { w with upTwt := some want }) s)
  else s

/-- Does the station role of radio `r` save power (R232)? In mode 0 as its last QoS Null says; in mode 1 outside its windows. -/
def upAsleep (s : State) (r : Nat) : Bool := if (upCfg s r).pmMode = 1 then !(s.wr r).upWindow else decide ((s.wr r).upPm = 1)

/-- The upstream role named by WIDE_UPSTREAM_SET stands behind every link of the association: of both radios only as a non-AP MLD (R223). -/
def upNamed (s : State) (a : Assoc) : Bool :=
  a.links.all (fun e => (upCfg s e.1).enable && decide ((upCfg s e.1).ap = a.addr) && (decide (a.links.length < 2) || (upCfg s e.1).mld))

/-- The upstream link comes up (R223, R266): a radio has one upstream association, and what it had before goes. -/
def upLinkUp (r : Nat) (a : Assoc) (s0 : State) : State :=
  let s := ((a.links.filterMap (fun e => (s0.wr e.1).upLink)).filter (· ≠ a.client)).foldl (fun s c => removeClient c s) s0
  if !upNamed s a ∨ !a.links.any (fun e => decide (e.1 = r)) ∨ !assocOk s a 2 (fun _ => {}) then s0
  else
    let s1 := makeClient 2 a (removeClient a.client s)
    let s2 := { s1 with wide.radios := s1.wide.radios.mapIdx (fun i w =>
      if a.links.any (fun e => decide (e.1 = i)) then { w with upLink := some a.client, upColour := some a.colour, upTwt := none } else w) }
    raise (wideSrc r) 0x0516 (le 1 0 ++ le 1 (upCfg s r).neighbour) (a.links.foldl (fun s e => askTwt e.1 s) s2)

/-! ### The key store (R262, R265, R272) -/

/-- A key entry as accepted: the WLAN entry in force or due at the next commit window, or the field entry. -/
def keyEntry (s : State) (k : Nat) : Option KeyEntry :=
  match Map.get? s.wide.keysNext k, Map.get? s.wide.keys k with
  | some e, _ => some e
  | none, some e => some e
  | none, none => Map.get? s.next.wide.fieldKeys k

/-- Queues whose frames a key entry protects. -/
def keyQueues (s : State) (k : Nat) (e : KeyEntry) : List Nat :=
  if e.cipher = 9 then (s.plan.queues.filter (fun x => childQueue x.1 || decide (x.1 / 8 = 26) || decide (0x3F04 ≤ x.1))).map (·.1)
  else if k < 4096 then
    ((s.wide.clients.filter (fun x => decide (x.2.key0 = k) || decide (x.2.key1 = k))).map (fun x =>
      ((List.range 4).map (clientQueues s x.1)).flatten)).flatten
  else if e.cipher ≤ 4 then (List.range 8).map (fun i => 8 * (24 + e.radio) + i)
  else []

/-- Does frame `f` leave under key `k`: the one it was sent under, or the one it is to be sent under? -/
def usesKey (k : Nat) (e : KeyEntry) (f : Queued) : Bool :=
  match f.payload, f.air with
  | .field m, _ => decide (m.key = some k)
  | .eth _, some a => decide (a.key = k)
  | .eth _, none => e.txActive

/-- A frame of queue `q` is completed for a key deletion: FLUSHED. -/
def flushOne (q : Nat) (f : Queued) (s : State) : State :=
  match f.payload with
  | .field m => completeField (if m.band = 0 then m.channel else 100 + m.channel) q 6 f m s
  | .eth _ => completeWlan (queueHome s q - 24) q 5 f s

/-- The plans of a table without the frames that leave under key `k`. -/
def plansWithout (qs : List Nat) (uses : Queued → Bool) (m : List (Nat × AirPlan)) : List (Nat × AirPlan) :=
  Map.mapVals m (fun _ p => { p with slots := p.slots.map (fun x => { x with frames := x.frames.filter (fun f => !(qs.contains f.1 && uses f.2)) }) })

/-- The frames that a plan holds under key `k`. -/
def planFrames (qs : List Nat) (uses : Queued → Bool) (m : List (Nat × AirPlan)) : List (Nat × Queued) :=
  ((m.map (fun e => (e.2.slots.map (·.frames)).flatten)).flatten).filter (fun f => qs.contains f.1 && uses f.2)

/-- Every frame that waits under key `k` is completed FLUSHED, in its queue or in a plan (R272); what is on the air follows as it ends. -/
def flushKey (k : Nat) (e : KeyEntry) (s : State) : State :=
  let queues := keyQueues s k e
  let uses := usesKey k e
  let s1 := queues.foldl (fun s q =>
    let gone := (s.queue q).frames.filter uses
    if gone = [] then s
    else tagHead q (gone.foldl (fun s f => flushOne q f s) (updQueue q (fun p => { p with frames := p.frames.filter (fun f => !uses f) }) s))) s
  let held := planFrames queues uses s1.plan.inForce ++ planFrames queues uses s1.plan.latched ++ planFrames queues uses s1.plan.computed
  held.foldl (fun s f => flushOne f.1 f.2 s) { s1 with
    plan.inForce := plansWithout queues uses s1.plan.inForce, plan.latched := plansWithout queues uses s1.plan.latched,
    plan.computed := plansWithout queues uses s1.plan.computed, plan.missed := plansWithout queues uses s1.plan.missed }

/-- Key entry `k` is freed: the frames under it FLUSHED, the client entries that name it without it (R272). -/
def deleteKey (k : Nat) (e : KeyEntry) (s : State) : State :=
  let s1 := flushKey k e s
  let unlink (x : Client) : Client := { x with key0 := if x.key0 = k then 0xFFFF else x.key0, key1 := if x.key1 = k then 0xFFFF else x.key1 }
  { s1 with
    wide.keys := Map.erase s1.wide.keys k, wide.keysNext := Map.erase s1.wide.keysNext k,
    wide.clients := s1.wide.clients.map (fun x => (x.1, unlink x.2)) }

/-- May the Steward write an entry: free, its own, or one that a lane installed which has since been released (R262)? -/
def stewardMay (s : State) (k : Nat) : Bool :=
  match keyEntry s k with
  | none => true
  | some e => decide (e.owner = 45) || (List.range 4).all (fun n => decide (laneOwner n ≠ e.owner) || !(s.lane n).claimed)

/-- A handshake of the Steward's with client `c` of radio `r` ends (R262): it installs an entry under its own name, or deletes one. -/
def stewardKey (r c : Nat) (s : State) (g : KeyGrant) : State :=
  if !stewardMay s g.entry then s
  else if g.cipher = 0 then (match keyEntry s g.entry with | some e => if e.cipher = 9 then s else deleteKey g.entry e s | none => s)
  else if !g.fits then s
  else { s with wide.keysNext := Map.set s.wide.keysNext g.entry {
    owner := 45, cipher := g.cipher, keyId := g.keyId, txActive := g.txActive, rxEnable := g.rxEnable, radio := r,
    client := if g.entry < 4096 then c else 0xFFFF, key := g.key } }

/-! ### TWT requests (R245, R246, R353) -/

/-- The exponent, beyond 3, with which an INTERVAL is encoded: mantissa 125 · INTERVAL / 2^k within 16 bits. -/
def twtShift (n : Nat) : Nat := ((List.range 8).find? (fun k => decide (n ≤ 524 * 2 ^ k))).getD 7

/-- The least INTERVAL that is not below `n` and has an exact encoding. -/
def twtInterval (n : Nat) : Nat := (n + (2 ^ twtShift n - 1)) / 2 ^ twtShift n * 2 ^ twtShift n

/-- Does AP_MASK allow every beat of a series of service periods (R353)? -/
def twtMaskOk (s : State) (r interval offset phase dur : Nat) : Bool :=
  let m := (Map.getD s.kept.plan.masks r {}).ap
  let span := (phase + dur + 999) / 1000
  (List.range (256 / Nat.gcd 256 (max 1 interval))).all (fun j => (List.range (min 256 span)).all (fun k => hasBit m ((offset + j * interval + k) % 256)))

/-- Does a schedule meet R245? -/
def twtConforms (phase interval offset : Nat) : Bool :=
  decide (20 ≤ phase) && decide (phase ≤ 900) && decide (1 ≤ interval) && decide (interval ≤ 65535) && decide (twtInterval interval = interval) &&
    decide (offset < interval)

/-- Room for one more individual agreement (R246). -/
def twtRoom (s : State) (r key : Nat) : Bool :=
  Map.has s.wide.twt key || decide ((s.wide.twt.filter (fun e => decide (e.2.radio = r))).length < 256)

/-- A request to join a broadcast or restricted schedule of the client's BSS is accepted where the schedule is set, else rejected; a member may leave
(R245, R246). -/
def twtJoin (r c : Nat) (restricted : Bool) (id : Nat) (join : Bool) (s : State) : State :=
  let key := ((r * 8 + (s.client c).bss) * 2 + bit restricted) * 16 + id % 16
  let put (f : List Nat → List Nat) : State := { s with wide.twtMembers := Map.modify s.wide.twtMembers key [] f }
  if !join then put (fun l => l.filter (· ≠ c))
  else if Map.has s.kept.wide.twt key ∧ (bssCfg s r (s.client c).bss).enable then
    emit (.frame (wideSrc r) 44 [c, 256 * (1 + bit restricted) + id % 16, 0]) (put (fun l => if l.contains c then l else l ++ [c]))
  else emit (.frame (wideSrc r) 44 [c, 256 * (1 + bit restricted) + id % 16, 2]) s

/-- An individual TWT request: accepted, answered with the nearest conforming schedule at or after it, or rejected (R245). -/
def twtRequest (r c flow phase interval offset dur : Nat) (announced : Bool) (s : State) : State :=
  let key := (r * 1024 + c) * 8 + flow % 8
  let answer (code p i o : Nat) (s : State) : State := emit (.frame (wideSrc r) 44 [c, flow % 8, code, p, i, o]) s
  let i := twtInterval (max 1 interval)
  if !twtRoom s r key ∨ i > 65535 then answer 2 phase interval offset s
  else if twtConforms phase interval offset ∧ twtMaskOk s r interval offset phase dur then
    let g : TwtFlow :=
      { radio := r, client := c, flow := flow % 8, phase := phase, interval := interval, offset := offset, dur := dur, announced := announced }
    answer 0 phase interval offset { s with wide.twt := Map.set s.wide.twt key g }
  else
    let late : Nat := if phase > 900 then 1 else 0
    let p := if phase > 900 then 20 else max 20 phase
    match (List.range 1025).find? (fun d => decide (d ≥ late) && twtMaskOk s r i ((offset + d) % i) p dur) with
    | some d => answer 1 p i ((offset + d) % i) s
    | none => answer 2 phase interval offset s

/-! ### Reorder windows (R255 to R257) -/

/-- Distance of sequence numbers. -/
def seqGap (a b : Nat) : Nat := (b + 4096 - a) % 4096

/-- The access category of a TID. -/
def tidAc (t : Nat) : Nat := if t = 1 ∨ t = 2 then 0 else if t = 0 ∨ t = 3 then 1 else if t = 4 ∨ t = 5 then 2 else 3

/-- The key entry that protects a received MPDU (R265): installed, with RX enabled. -/
def rxKey (s : State) (m : Mpdu) : Option Nat :=
  let k := match m.groupKey, m.client with
    | some g, _ => g
    | none, some c => if m.keyId = 0 then (s.client c).key0 else if m.keyId = 1 then (s.client c).key1 else 0xFFFF
    | none, none => 0xFFFF
  match Map.get? s.wide.keys k with
  | some e => if e.rxEnable ∧ e.keyId = m.keyId then some k else none
  | none => none

/-- The receive PN that an MPDU is judged by: of its TID, of robust management frames (16), or of a group entry (0). -/
def pnSlot (m : Mpdu) : Nat := if m.groupKey.isSome then 0 else if m.mgmt.isSome then 16 else m.tid.getD 0

/-- Counter of a receive status and whether it has a BSS scope (Tables 5-3, 5-14). -/
def statusCount (r st : Nat) (b : Option Nat) (s : State) : State :=
  match [(0, aRxMpdu), (1, aFcs), (3, aClass3), (4, aDup), (5, aNoKey), (6, aUnprot), (7, aMic), (8, aReorderLate), (9, aReplay), (10, aRxDrop)].find?
      (fun e => decide (e.1 = st)) with
  | some e => accCount r (if st = 1 ∨ st = 3 ∨ st = 10 then none else b) e.2 s
  | none => s

/-! ### What an accepted frame does -/

/-- The member `c` is present in the service periods that run on radio `r` (R248). -/
def markPresent (r c : Nat) (shows : Bool) (s : State) : State :=
  let here (p : ServicePeriod) : Bool := p.members.contains c && decide (s.ns < p.endNs) && (!p.announced || shows) && !p.present.contains c
  let keys := ((s.wr r).periods.filter here).map (·.key)
  let s1 := updWr r (fun w => { w with periods := w.periods.map (fun p => if here p then { p with present := p.present ++ [c] } else p) }) s
  { s1 with wide.twt := s1.wide.twt.map (fun e => if keys.contains e.1 then (e.1, { e.2 with noshows := 0 }) else e) }

/-- Power management as an accepted frame carries it (R252). -/
def powerManage (c : Nat) (m : Mpdu) (s : State) : State :=
  if m.retry ∨ (s.client c).kind ≠ 1 then s
  else updClient c (fun x => { x with ps := m.pm, polls := if m.pm then x.polls else [], spLeft := if m.pm then x.spLeft else none }) s

/-- Buffer status that the frame reports (R322). -/
def takeReports (c : Nat) (m : Mpdu) (s : State) : State :=
  m.reports.foldl (fun s e =>
    if e.1 < 4 then updQueue (0x1000 + 4 * c + e.1) (fun p => { p with ulBytes := e.2, ulSeen := if e.2 = 0 then none else p.ulSeen }) s else s) s

/-- A U-APSD trigger frame starts a service period of up to MAX_SP frames (R250). -/
def uapsdTrigger (c : Nat) (m : Mpdu) (s : State) : State :=
  match m.tid with
  | none => s
  | some t =>
    let x := s.client c
    let n := (List.range 4).foldl (fun t a => t + (if hasBit (x.uapsd / 16) a then ((clientQueues s c a).map (fun q => (s.queue q).frames.length)).sum else 0)) 0
    if x.ps ∧ m.pm ∧ hasBit x.uapsd (tidAc t) ∧ x.spLeft.getD 0 = 0 then
      updClient c (fun y => { y with spLeft := some (if y.maxSp = 0 then n else min n (2 * y.maxSp)) }) s
    else s

/-- Frames on the relay queues of neighbour `n`. -/
def relayed (s : State) (n : Nat) : Nat := ((List.range 4).map (fun a => (s.queue (0x3000 + 4 * n + a)).frames.length)).sum

/-- A neighbour's frame (R267); its source is learned while LEARN_4ADDR is set, wherever the frame goes. `v`: the VLAN of the lookup. A frame counts as
relayed where it reaches a relay queue. -/
def relayFrame (r n : Nat) (x : Ingress) (f : Frame) (s0 : State) : State :=
  let v := (frameVid s0 x f).1
  let s := (learnSource x f v s0).getD s0
  if f.toMgmt then toSteward 36 x f s
  else if (routedHere s f v).isSome then forward x f s
  else match l2Find s f.da v with
    | none =>
      let recent : Bool := match Map.get? s.wide.relayMiss f.da with | some b => decide (s.beat < b + 1000) | none => false
      let s1 := toSteward 36 x f s
      if recent then s1
      else raise (wideSrc r) 0x0517 (le 1 n ++ be 6 f.da) { s1 with wide.relayMiss := Map.set s1.wide.relayMiss f.da s.beat }
    | some i =>
      match l2At s i with
      | some e =>
        if e.destKind = 2 ∧ e.dest = n then accCount r none aRelayLoop s
        else
          let s1 := forward x f s
          if e.destKind = 2 ∧ relayed s1 e.dest > relayed s e.dest then accCount r none aRelayFwd s1 else s1
      | none => s

/-- The data of an MPDU goes to the data path (R253, R267, R380). -/
def deliverData (h : HeldMpdu) (c : Nat) (s : State) : State :=
  let m := h.m
  let cl := s.client c
  let nb : Option Nat := if m.fourAddr then (neighboursOf s c).find? (fun n => (Map.getD s.kept.wide.neighbours n {}).enable) else none
  let x : Ingress := { index := 24 + h.radio, bss := cl.bss, client := some c, ac := tidAc (m.tid.getD 0), neighbour := nb,
                       stamp := h.stamp, calStale := h.stale }
  match nb with
  | some n => relayFrame h.radio n x m.frame s
  | none => forward x m.frame s

/-- Instants of a management frame as Table 4-10 writes them: in 10 ns and in 1 ps; whether the calibration is stale. -/
def stampFields (st : Stamp) (dsss stale : Bool) : List Nat :=
  [stamp10ns st, stampPs st, errorExponent dsss stale, bit stale]

/-- The FTM responder's answer (R210): 0 accepted, 1 request failed. -/
def ftmRequest (r asap perBurst delta dur format width : Nat) (s : State) : State :=
  let g := ftmCfg s r
  let s1 := phyCount r pFtmReq s
  if g.responder ∧ (s.wr r).ftmSessions < g.maxSessions ∧ asap ≤ 1 ∧ 2 ≤ perBurst ∧ perBurst ≤ g.maxPerBurst ∧ g.minDelta ≤ delta ∧ 2000 ≤ dur ∧ format ≤ 2 ∧ width ≤ 2 ∧ apOn s r then
    emit (.frame (wideSrc r) 49 [0]) (updWr r (fun w => { w with ftmSessions := w.ftmSessions + 1 }) s1)
  else emit (.frame (wideSrc r) 49 [1]) (phyCount r pFtmRefused s1)

/-- PS-Poll and BlockAckReq frames carry no sequence control of their own. -/
def Mgmt.unnumbered : Mgmt → Bool
  | .psPoll => true
  | .bar _ _ => true
  | _ => false

/-- Does the frame call for protocol work of the Steward's, which stops while it restarts (R124)? What a beacon or a control frame does in the radio
goes on. -/
def Mgmt.stewardWork : Mgmt → Bool
  | .beacon _ _ _ => false
  | .psPoll => false
  | .bar _ _ => false
  | _ => true

/-- What a management or control frame does beside its delivery to the Steward; while the Steward does not run its protocols, the delivery is all. -/
def mgmtEffect (h : HeldMpdu) (s : State) : State :=
  let r := h.radio
  let m := h.m
  let told := emit (.frame (wideSrc r) 50 (m.frame.id :: stampFields h.stamp h.dsss h.stale)) (emit (.toSteward 35 (24 + r) m.frame.id) s)
  if m.mgmt.any Mgmt.stewardWork ∧ s.stw.state ≠ .ready then told
  else match m.mgmt, m.client with
  | some (.assoc a), _ => associate r a told
  | some (.upLink (some a)), _ => upLinkUp r a told
  | some (.upLink none), _ => upLinkDown r told
  | some (.beacon up band primary), _ =>
    let s1 := { told with wide.heard := Map.set told.wide.heard m.sender (256 * band + primary) }
    if up then updWr r (fun w => { w with bcnMissRun := 0 }) s1 else s1
  | some (.ftm asap perBurst delta dur format width), _ => ftmRequest r asap perBurst delta dur format width told
  | some (.scan forbids), _ => updWr r (fun w => { w with forbid40 := forbids }) told
  | some (.keys l), some c => l.foldl (stewardKey r c) told
  | some (.entry e), some c =>
    updLink r c (fun l => { l with mcsCap := e.mcsCap }) (updClient c (fun x => { x with flags := e.flags, uapsd := e.uapsd, maxSp := e.maxSp }) told)
  | some (.twtJoin restricted id join), some c => twtJoin r c restricted id join told
  | some (.leave reason), some c => if (s.client c).kind = 2 then upLinkDown r told else stationLeft c reason 0 told
  | some (.addBa tid size ssn originator), some c =>
    if tid ≥ 8 then told
    else
      let n := max 1 (min size 1024)
      let s1 := updLink r c (fun l => { l with baSize := max l.baSize n }) told
      if originator then updClient c (fun x => { x with baTx := Map.set x.baTx tid n }) s1
      else
        let a : BaRx := { size := n, start := ssn % 4096 }
        updClient c (fun x => { x with baRx := Map.set x.baRx tid a }) s1
  | some (.delBa tid originator), some c =>
    updClient c (fun x => if originator then { x with baTx := Map.erase x.baTx tid } else { x with baRx := Map.erase x.baRx tid }) told
  | some (.twt flow phase interval offset dur announced), some c => twtRequest r c flow phase interval offset dur announced told
  | some (.twtEnd flow), some c =>
    { told with wide.twt := Map.erase told.wide.twt ((r * 1024 + c) * 8 + flow % 8),
                wide.radios := Bank.modify told.wide.radios r (fun w => { w with periods := w.periods.filter (fun p => p.key ≠ (r * 1024 + c) * 8 + flow % 8) }) }
  | some .psPoll, some c =>
    if (s.client c).ps then updClient c (fun x => { x with polls := x.polls ++ [r] }) s else s
  | some (.bar _ _), _ => s
  | some _, _ => told
  | none, _ => s

/-- One MSDU of a delivered MPDU (R2: after A-MSDU de-aggregation): its bits are counted and its data goes on. -/
def deliverMsdu (h : HeldMpdu) (c : Nat) (b : Option Nat) (f : Frame) (s : State) : State :=
  let n := f.payload
  deliverData { h with m := { h.m with frame := f } } c
    (accBytes h.radio b aInBytes n (updClient c (fun x => { x with inBytes := satAdd 64 x.inBytes n }) s))

/-- An MPDU ends RX_OK: counts, records, power management, reports, presence, delivery. -/
def acceptMpdu (h : HeldMpdu) (s : State) : State :=
  let r := h.radio
  let m := h.m
  match m.client with
  | none => mgmtEffect h (statusCount r 0 none s)
  | some c =>
    let b := bssOf s (some c)
    let agreed : Bool := match m.tid with | some t => m.mgmt.isNone && !m.null && Map.has (s.client c).baRx t | none => false
    let s1 := statusCount r 0 b (updClient c (fun x => { x with
      lastRx := s.beat % 2 ^ 32, seqRec := if agreed || m.mgmt.any Mgmt.unnumbered then x.seqRec else Map.set x.seqRec (m.tid.getD 16) m.seq }) s)
    let s2 := match rxKey s m with
      | some k => if m.prot then { s1 with wide.keys := Map.modify s1.wide.keys k {} (fun e => { e with rxPn := Map.set e.rxPn (pnSlot m) m.pn }) } else s1
      | none => s1
    let s3 := updLink r c (fun l => if l.silent then { l with silent := false, tbMiss := 0 } else l)
      (takeReports c m (uapsdTrigger c m (powerManage c m s2)))
    let shows : Bool := (match m.mgmt with | some .psPoll => true | _ => false) || (m.null && m.tid.isSome)
    let s4 := markPresent r c shows s3
    if m.mgmt.isSome then mgmtEffect h s4
    else if m.null then s4
    else (m.frame :: m.more).foldl (fun s f => deliverMsdu h c b f s) s4

/-! ### The checks (R253 to R258) -/

/-- The BlockAck agreement that an MPDU falls under: client, TID, window. -/
def agreement (s : State) (m : Mpdu) : Option (Nat × Nat × BaRx) :=
  if m.mgmt.isSome ∨ m.null then none
  else match m.client, m.tid with
    | some c, some t => (match Map.get? (s.client c).baRx t with | some a => some (c, t, a) | none => none)
    | _, _ => none

/-- Does a sequence number lie in the 2,048 before the window start? -/
def BaRx.before (a : BaRx) (q : Nat) : Bool := decide (1 ≤ seqGap q a.start) && decide (seqGap q a.start ≤ 2048)

/-- A duplicate (R256). -/
def isDupMpdu (s : State) (m : Mpdu) : Bool :=
  match agreement s m, m.client with
  | some (_, _, a), _ => Map.has a.held m.seq || (a.before m.seq && !a.passed.contains m.seq)
  | none, some c => m.retry && !m.mgmt.any Mgmt.unnumbered && decide (Map.get? (s.client c).seqRec (m.tid.getD 16) = some m.seq)
  | none, none => false

/-- Must a frame of this sender have been protected (Table 5-3)? A Null frame carries nothing to protect. -/
def needsProtection (s : State) (m : Mpdu) : Bool :=
  match m.client with
  | some c => if m.mgmt.isSome then m.robust && hasBit (s.client c).flags 9 else !m.null && hasBit (s.client c).flags 12
  | none => false

/-- The address filter (Table 5-3): a BSSID of the radio, the upstream station's address, a group address, or the MLD address, which is the BSSID of the
index on W1 while W1 and W2 are paired (R226). -/
def forMe (s : State) (r : Nat) (m : Mpdu) : Bool :=
  groupAddr m.ra || ((upCfg s r).enable && decide (m.ra = (upCfg s r).sta)) ||
    (List.range 8).any (fun b =>
      ((bssCfg s r b).enable && decide (m.ra = (bssCfg s r b).bssid)) ||
      (s.kept.wide.pair && (bssCfg s 0 b).enable && (bssCfg s 1 b).enable && decide (m.ra = (bssCfg s 0 b).bssid)))

/-- The checks before reordering, in their order. -/
def earlyStatus (s : State) (r : Nat) (m : Mpdu) : Nat :=
  if !m.fcsOk then 1
  else if !forMe s r m then 2
  else if m.class3 ∧ (match m.client with | some c => !Map.has s.wide.clients c | none => true) = true then 3
  else if isDupMpdu s m then 4
  else if m.prot ∧ (rxKey s m).isNone then 5
  else if !m.prot ∧ needsProtection s m then 6
  else if m.prot ∧ !m.micOk then 7
  else match agreement s m with
    | some (_, _, a) => if a.before m.seq then 8 else 0
    | none => 0

/-- The checks after reordering: replay, buffer (R258, R253). -/
def lateStatus (s : State) (m : Mpdu) : Nat :=
  let replayed : Bool := m.prot && (match rxKey s m with
    | some k => (match Map.get? (Map.getD s.wide.keys k {}).rxPn (pnSlot m) with | some v => decide (m.pn ≤ v) | none => false)
    | none => false)
  if replayed then 9 else if !m.buffer ∧ m.mgmt.isNone ∧ !m.null then 10 else 0

/-- An MPDU past reordering: accepted, or ended by the last checks. -/
def releaseMpdu (h : HeldMpdu) (s : State) : State :=
  match lateStatus s h.m with
  | 0 => acceptMpdu h s
  | st =>
    let s1 := statusCount h.radio st (bssOf s h.m.client) s
    if st = 10 then ringDry (32 + h.radio) s1 else s1

/-- A monitor delivery (R253, Table 9-7): what is left of the descriptors read. -/
def monitorMpdu (h : HeldMpdu) (st : Nat) (ds : List RxDesc) (s : State) : State × List RxDesc :=
  let m := h.m
  let q : Queued := { payload := .eth m.frame, charge := m.frame.len, ingress := 24 + h.radio, rxStamp := h.stamp, calStale := h.stale,
                      cls := 2 * tidAc (m.tid.getD 0), vid := (frameVid s { index := 24 + h.radio } m.frame).1 }
  let info := le 1 st ++ le 2 (m.client.getD 0xFFFF) ++ le 1 ((bssOf s m.client).getD 0) ++ leInt 1 h.rssi ++ le 1 (h.mcs % 16 + 16 * ((h.nss - 1) % 4)) ++ [0, 0]
  let used := if (s.ring (8 + h.radio)).on then (match fillBuffers ds m.frame.len 0 with | .ok l => l.length | .error _ => 0) else 0
  ((ringDeliver (8 + h.radio) q m.frame.id 1 m.frame.len false info ds s).1, ds.drop used)

/-- The window of an agreement changed. -/
def updBa (c t : Nat) (f : BaRx → BaRx) (s : State) : State :=
  updClient c (fun x => match Map.get? x.baRx t with | some a => { x with baRx := Map.set x.baRx t (f a) } | none => x) s

/-- An MPDU that was held for reordering is released (R257, R258): accepted, or ended by the last checks, and then told to the monitor ring while
PHY_MONITOR is set (R253; the descriptor is free, log entry 86) and left out of the scoreboard, so that it counts as passed over (R256). -/
def releaseHeld (c t : Nat) (h : HeldMpdu) (s : State) : State :=
  let st := lateStatus s h.m
  let s1 := releaseMpdu h s
  if st = 0 then s1
  else
    let s2 := updBa c t (fun a => { a with passed := a.passed ++ [h.m.seq] }) s1
    if (wrxCfg s2 h.radio).monitor then (let d := freeDesc s2; (monitorMpdu h st [d.1] d.2).1) else s2

/-- MPDUs held from the window start on are released in order; at most `n` of them. -/
def releaseRun (c t : Nat) : Nat → State → State
  | 0, s => s
  | n + 1, s =>
    match Map.get? (s.client c).baRx t with
    | none => s
    | some a =>
      match Map.get? a.held a.start with
      | none => s
      | some h =>
        releaseRun c t n (releaseHeld c t h (updBa c t (fun a => { a with start := (a.start + 1) % 4096, held := Map.erase a.held a.start }) s))

/-- After a move of the window: what can be released is; the gap that remains holds delivery from now. -/
def windowMoved (c t : Nat) (s : State) : State :=
  updBa c t (fun a => { a with gap := if a.held.isEmpty then none else some s.beat, passed := a.passed.filter (fun q => a.before q) }) (releaseRun c t 1024 s)

/-- The window moves to start at `ssn` (R257): held MPDUs before it are released, missing numbers are passed. -/
def moveWindow (c t ssn : Nat) (s : State) : State :=
  match Map.get? (s.client c).baRx t with
  | none => s
  | some a =>
    let skipped := (List.range (seqGap a.start ssn)).map (fun i => (a.start + i) % 4096)
    let lost := skipped.filter (fun q => !Map.has a.held q)
    let due := skipped.filterMap (fun q => Map.get? a.held q)
    let s1 := updBa c t (fun a => { a with start := ssn, held := a.held.filter (fun e => !skipped.contains e.1), passed := a.passed ++ lost }) s
    windowMoved c t (due.foldl (fun s h => releaseHeld c t h s) s1)

/-- An MPDU held until the gap before it is filled. -/
def holdMpdu (c t : Nat) (h : HeldMpdu) (s : State) : State :=
  updBa c t (fun a => { a with held := Map.set a.held h.m.seq h, gap := some (a.gap.getD s.beat) }) s

/-- An MPDU under an agreement, not a duplicate and not late: its status, 0 where it is accepted or held (R257). -/
def orderMpdu (c t : Nat) (h : HeldMpdu) (s : State) : State × Nat :=
  let place (a : BaRx) (s : State) : State × Nat :=
    if seqGap a.start h.m.seq = 0 then
      match lateStatus s h.m with
      | 0 => (windowMoved c t (acceptMpdu h (updBa c t (fun a => { a with start := (a.start + 1) % 4096 }) s)), 0)
      | st =>
        let s1 := releaseMpdu h s
        (s1, st)
    else (holdMpdu c t h s, 0)
  match Map.get? (s.client c).baRx t with
  | none => (s, 0)
  | some a =>
    if seqGap a.start h.m.seq < a.size then place a s
    else
      let s1 := moveWindow c t ((h.m.seq + 4097 - a.size) % 4096) s
      place (Map.getD (s1.client c).baRx t a) s1

/-- WIDE_MIC_FAIL, once per station in 60,000 beats (R274). -/
def micFail (r : Nat) (m : Mpdu) (s : State) : State :=
  let c := m.client.getD 0xFFFF
  let recent : Bool := match Map.get? s.wide.micTold m.sender with | some b => decide (s.beat < b + 60000) | none => false
  if recent then s
  else
    raise (wideSrc r) 0x0512 (le 2 c ++ le 2 ((rxKey s m).getD 0xFFFF) ++ le 1 (m.tid.getD 0))
      (updWr r (fun w => { w with micStk := true }) { s with wide.micTold := Map.set s.wide.micTold m.sender s.beat })

/-- A sender without an entry is told to the Steward once in 1,000 beats (Table 5-3). -/
def tellClass3 (r sender : Nat) (s : State) : State :=
  let recent : Bool := match Map.get? (s.wr r).class3 sender with | some b => decide (s.beat < b + 1000) | none => false
  if recent then s
  else emit (.toSteward 34 (24 + r) sender) (updWr r (fun w => { w with class3 := Map.set w.class3 sender s.beat }) s)

/-- WIDE_MPDU_RX: one MPDU through its checks, with its status; 0 where it is accepted or held. -/
def rxMpdu (h : HeldMpdu) (s : State) : State × Nat :=
  let m := h.m
  let r := h.radio
  match earlyStatus s r m with
  | 0 =>
    let s0 := match m.mgmt, m.client with
      | some (.bar t ssn), some c =>
        (match Map.get? (s.client c).baRx t with
         | some a => if 1 ≤ seqGap a.start ssn ∧ seqGap a.start ssn < 2048 then moveWindow c t (ssn % 4096) s else s
         | none => s)
      | _, _ => s
    (match agreement s0 m with
     | some (c, t, _) => orderMpdu c t h s0
     | none => (releaseMpdu h s0, lateStatus s0 m))
  | st =>
    let s1 := statusCount r st (bssOf s m.client) s
    (if st = 3 then tellClass3 r m.sender s1 else if st = 7 then micFail r m s1 else s1, st)

/-! ### The end of a PPDU -/

/-- What the PPDU says of the radio's own exchange (R230, R242, R259): its acknowledgements, its answers to a trigger, the users that were
silent; the acknowledgement of a timing frame gives its TOA (R209); the TB PPDU of a sounding sequence (`own`) ends it. -/
def resolveExchange (r : Nat) (x : PpduRx) (stamp : Stamp) (stale own : Bool) (s0 : State) : State :=
  match (s0.wr r).exchange with
  | none => s0
  | some e =>
    let toa : TimingStamp := { stamp := stamp, stale := stale, dsss := (s0.wr r).rxDsss }
    let s := if timingKind e.air.kind ∧ e.phase = 1 ∧ !e.air.last ∧ !x.acks.isEmpty then
        updWr r (fun w => { w with timing := Map.modify w.timing (65536 * e.air.kind + e.air.slot) {} (fun p => { p with toa := some toa }) }) s0
      else s0
    if e.phase ≠ 1 then s
    else if e.air.kind = 7 then
      if own then updWr r (fun w => { w with exchange := none }) s else s
    else if e.air.kind = 0x22 then
      if x.acks.isEmpty ∧ !x.mpdus.any (fun m => decide (m.client = (s.wr r).upLink)) then s else updWr r (fun w => { w with exchange := none }) s
    else if e.air.kind = 0x20 then
      if x.acks.isEmpty then s else updWr r (fun w => { w with exchange := none, upPmAcked := true }) s
    else if e.air.kind = 5 then
      let answered := e.users.filter (fun c => x.mpdus.any (fun m => decide (m.client = some c)) && !x.silent.contains c)
      if answered.isEmpty ∧ !e.users.any (fun c => x.silent.contains c) then s
      else
        let s1 := answered.foldl (fun s c => updLink r c (fun l => { l with tbMiss := 0, silent := false }) s) s
        closeExchange r x.acks (updWr r (fun w => { w with exchange := some { e with users := e.users.filter (fun c => !answered.contains c) } }) s1)
    else if x.acks.isEmpty ∧ !x.silent.any (fun c => (servedClients s e).contains c) then s
    else closeExchange r x.acks ((x.silent.filter (fun c => (servedClients s e).contains c)).foldl (fun s c => tbMiss r c s) s)

/-- What a response says of an MPDU that ends with a status (R254): acknowledged on RX_OK and DUPLICATE; under an agreement a bit left 0 on
DECRYPT_FAIL; nothing otherwise. -/
def answerTo (s : State) (m : Mpdu) (st : Nat) : Option AckBit :=
  let b : AckBit := { client := m.client.getD 0xFFFF, tid := m.tid.getD 16, seq := m.seq, acked := true }
  if !m.wantsAck then none
  else if st = 0 ∨ st = 4 then some b
  else if st = 7 ∧ (agreement s m).isSome then some { b with acked := false }
  else none

/-- The front-end sequence of the response that radio `r` has committed begins before local instant `t` (R206). -/
def blankedBy (s : State) (r t : Nat) : Bool :=
  (s.wr r).responseAt.any (fun x => decide (x.at' - leadNs s (wideSrc r) (s.wr r).chains < t))

/-- WIDE_PPDU_END (R205): PHY_OK; its MPDUs in order; the response it calls for (R231, R254). One whose end the sequence of a committed response
overtakes ends BLANKED (R206). -/
def ppduEnd (r : Nat) (x : PpduRx) (s : State) : State :=
  match (s.wr r).rx with
  | .receiving _ stamp stale own endAt _ =>
    if blankedBy s r endAt then endPpdu r 5 pBlanked s
    else
    let s0 := rxIdle r (phyCount r pRxPpdu (advanceMono endAt s))
    if (s0.wr r).test.isSome then s0
    else
      let s1 := resolveExchange r x stamp stale own s0
      let step (acc : State × List AckBit × List RxDesc) (m : Mpdu) : State × List AckBit × List RxDesc :=
        let h : HeldMpdu :=
          { radio := r, stamp := stamp, stale := stale, m := m, dsss := (s0.wr r).rxDsss, rssi := x.rssi, mcs := x.mcs, nss := x.nss }
        let got := rxMpdu h acc.1
        let s2 := match m.client with
          | some c => if got.2 = 0 then updLink r c (fun l => { l with rssi := x.rssi }) got.1 else got.1
          | none => got.1
        let due := acc.2.1 ++ (answerTo acc.1 m got.2).toList
        if got.2 ≠ 0 ∧ (wrxCfg s2 r).monitor then
          let d := monitorMpdu h got.2 acc.2.2 s2
          (d.1, due, d.2)
        else (s2, due, acc.2.2)
      let all := x.mpdus.foldl step (s1, [], x.monitor)
      settleChains r (if all.2.1.any (·.acked) ∨ x.solicited then commitResponse r x.respDur x.respPhy all.2.1 x.respCount all.1 else all.1)
  | _ => s

/-- REORDER_TIMEOUT (R257): the gap has held delivery for REORDER_TIMEOUT beats; the window moves past it. -/
def reorderTimeout (c t : Nat) (s : State) : State :=
  match Map.get? (s.client c).baRx t with
  | none => s
  | some a =>
    match a.gap with
    | none => s
    | some b =>
      let r := if (s.client c).link1 ≠ 0xFFFF then 0 else 1
      let s1 := advanceTo ((b + (accessCfg s r).reorder) * 1000000) s
      match (List.range 4096).find? (fun i => Map.has a.held ((a.start + i) % 4096)) with
      | some i => moveWindow c t ((a.start + i) % 4096) s1
      | none => s1

end Sys2Proof.Machine
end

