-- ==== Sys2Proof/Machine/WideAccess.lean ====
section
/-! DEFINITION. The wide radios on the beat (chapters 4 and 5): beacons, service periods, upstream windows, the grant, radar and channel
moves, and what a commit window brings. -/

namespace Sys2Proof.Machine

/-! ### Beacons (R234 to R240) -/

/-- P, the beats of a beacon interval. -/
def beaconBeats (g : BeaconCfg) : Nat := 128 * 2 ^ g.interval

/-- The TBTT span of a beacon of `beacon` ns (R236). -/
def tbttSpan (s : State) (r beacon : Nat) : Nat := pifsNs s r + beacon + 1000 * (beaconCfg s r).maxDelay

/-- The beat of the next TBTT of radio `r` that has not passed (R234). -/
def nextTbtt (s : State) (r : Nat) : Nat :=
  let g := beaconCfg s r
  let p := beaconBeats g
  let first := s.beat + (g.phase + p - s.beat % p) % p
  let passed (n : Nat) : Bool := decide (n * 1000000 + g.offset * 1000 < s.ns) || decide ((s.wr r).lastTbtt = some n)
  if passed first then first + p else first

/-- A channel switch announcement counts down at a TBTT; at 0 the change comes into force at the next beat's commit window (R219). -/
def csaStep (beat : Nat) (m : ChanMove) : ChanMove :=
  match m.csa with
  | some n => if n ≤ 1 then { m with csa := some 0, eff := some (beat + 1) } else { m with csa := some (n - 1) }
  | none => m

/-- BEACON_TBTT (R234 to R238): the beacon of `beacon` ns is due; `upstream`: the upstream AP's TBTT, in ns after this one, and its phase in
beats. -/
def beaconTbtt (r beacon : Nat) (upstream : Option (Nat × Nat)) (s0 : State) : State :=
  if !apOn s0 r ∨ inCac s0 r then s0
  else
    let b := nextTbtt s0 r
    let s := advanceTo (b * 1000000 + (beaconCfg s0 r).offset * 1000) s0
    let span := tbttSpan s r beacon
    let clash : Option Nat := match upstream with | some (t, ph) => if t < span ∧ (s.wr r).upLink.isSome then some ph else none | none => none
    let s1 := updWr r (fun w => { w with
      tbtts := w.tbtts + 1, lastTbtt := some b, beaconDue := some (s.time.mono + span),
      idleFrom := max w.idleFrom s.time.mono, move := w.move.map (csaStep b),
      bcnMissRun := if clash.isSome then w.bcnMissRun + 1 else w.bcnMissRun }) s
    match clash with
    | none => s1
    | some ph =>
      let s2 := accCount r none aUpBcnMiss s1
      if (s2.wr r).bcnMissRun = 8 then raise (wideSrc r) 0x0515 (le 2 (beaconCfg s r).phase ++ le 2 ph) s2 else s2

/-- A beacon that is not sent for its TBTT (R236, R237). -/
def dropBeacon (r : Nat) (s : State) : State :=
  let s1 := accCount r none aBcnSkip (updWr r (fun w => { w with beaconDue := none }) s)
  if (s1.wr r).waiting.any (fun x => decide (x.air.kind = 3)) then
    updWr r (fun w => { w with waiting := none, shareWait := false }) { s1 with front.waiting := Map.erase s1.front.waiting (wideSrc r) }
  else s1

/-- BEACON_SKIP (R236): the TBTT span ends without the beacon started. -/
def beaconSkip (r : Nat) (s : State) : State :=
  match (s.wr r).beaconDue with
  | none => s
  | some t => dropBeacon r (advanceMono t s)

/-- The BSS Parameters Change Count of every enabled BSS of radio `r` (R240). -/
def changeBss (r : Nat) (s : State) : State :=
  updWr r (fun w => { w with changeCount := (List.range 8).foldl (fun m b =>
    if (bssCfg s r b).enable then Map.modify m b 0 (fun v => (v + 1) % 256) else m) w.changeCount }) s

/-! ### Service periods (R245 to R249) -/

/-- The next start of a series of service periods in TBC ns: beats with beat mod INTERVAL = OFFSET, at PHASE µs. -/
def nextPeriod (s : State) (interval offset phase : Nat) : Nat :=
  let i := max 1 interval
  let n := s.beat + (offset + i - s.beat % i) % i
  let t := n * 1000000 + phase * 1000
  if t < s.ns then t + i * 1000000 else t

/-- A service period starts on radio `r`. -/
def startPeriod (r : Nat) (p : ServicePeriod) (s : State) : State :=
  updWr r (fun w => { w with periods := w.periods.filter (fun x => x.key ≠ p.key) ++ [p] }) s

/-- TWT_SP_START: agreement `key`, or schedule `key` − 1,000,000 with the members that have joined it (R245). -/
def twtStart (key : Nat) (s : State) : State :=
  if key < 1000000 then
    match Map.get? s.wide.twt key with
    | none => s
    | some f =>
      if !wideOn s f.radio then s
      else
        let t := nextPeriod s f.interval f.offset f.phase
        startPeriod f.radio { key := key, kind := 0, startNs := t, endNs := t + f.dur * 1000, announced := f.announced, members := [f.client] } (advanceTo t s)
  else
    let k := key - 1000000
    let r := k / 256
    let b := k / 32 % 8
    match Map.get? s.kept.wide.twt k with
    | none => s
    | some g =>
      if !wideOn s r ∨ !(bssCfg s r b).enable then s
      else
        let t := nextPeriod s g.interval g.offset g.phase
        let mine := (Map.getD s.wide.twtMembers k []).filter (fun c => (linkOf s r c).isSome && decide ((s.client c).kind = 1) && decide ((s.client c).bss = b))
        startPeriod r { key := key, kind := 1 + k / 16 % 2, startNs := t, endNs := t + g.duration * 1000, announced := g.announced, members := mine } (advanceTo t s)

/-- A member's no-show (R248). -/
def noShow (r key c : Nat) (s : State) : State :=
  let s1 := accCount r (bssOf s (some c)) aNoshow s
  match Map.get? s1.wide.twt key with
  | none => s1
  | some f =>
    let n := f.noshows + 1
    let s2 := { s1 with wide.twt := Map.set s1.wide.twt key { f with noshows := n } }
    if n = (accessCfg s r).noshowLimit then
      raise (wideSrc r) 0x0514 (le 2 c ++ le 1 f.flow ++ le 2 n) (updWr r (fun w => { w with noshowStk := true }) s2)
    else s2

/-- The members of period `p` that are not present are judged once (R248). -/
def judgeMembers (r : Nat) (p : ServicePeriod) (s : State) : State :=
  let gone := p.members.filter (fun c => !p.present.contains c && !p.judged.contains c)
  gone.foldl (fun s c => noShow r p.key c s)
    (updWr r (fun w => { w with periods := w.periods.map (fun x => if x.key = p.key then { x with judged := x.judged ++ gone } else x) }) s)

/-- The instant at which the members of a period are judged: NOSHOW_US after its start. -/
def judgeAt (s : State) (r : Nat) (p : ServicePeriod) : Nat := p.startNs + 1000 * (accessCfg s r).noshowUs

/-- TWT_NOSHOW (R248): NOSHOW_US after the start, the members that are not present are judged; in a period that ends before, at its end. -/
def twtNoshow (r key : Nat) (s : State) : State :=
  match (s.wr r).periods.find? (fun p => decide (p.key = key)) with
  | none => s
  | some p => if judgeAt s r p ≥ p.endNs then s else judgeMembers r p (advanceTo (judgeAt s r p) s)

/-- A period is over (R247, R248): one no longer than NOSHOW_US judges its members now. -/
def endPeriod (r : Nat) (p : ServicePeriod) (s : State) : State :=
  updWr r (fun w => { w with periods := w.periods.filter (fun x => x.key ≠ p.key) }) (if judgeAt s r p ≥ p.endNs then judgeMembers r p s else s)

/-- TWT_SP_END (R247): the nominal end. -/
def twtEnd (r key : Nat) (s : State) : State :=
  match (s.wr r).periods.find? (fun p => decide (p.key = key)) with
  | none => s
  | some p => endPeriod r p (advanceTo p.endNs s)

/-! ### Upstream windows (R229 to R232) -/

/-- The QoS Null frame of R232. -/
def nullAir (dur total : Nat) : WideAir := { kind := 0x20, dur := dur, total := total }

/-- UPSTREAM_WINDOW_START: the next upstream window of the plan in force opens. -/
def windowStart (r dur total : Nat) (s0 : State) : State :=
  match (Map.getD s0.plan.inForce r {}).entries.find? (fun e => decide (e.kind = 2) && decide (s0.phase ≤ e.start * 1000)) with
  | none => s0
  | some e =>
    if !wideOn s0 r then s0
    else
      let s := updWr r (fun w => { w with upWindow := true }) (advancePhase (e.start * 1000) s0)
      let w := s.wr r
      if (upCfg s r).pmMode = 0 ∧ w.upLink.isSome ∧ w.upPmAcked then
        tryExchange r (nullAir dur total) (updWr r (fun w => { w with nullDue := some 0 }) s)
      else s

/-- UPSTREAM_WINDOW_END: the window closes; in mode 0 the QoS Null with power management 1 ends with it. -/
def windowEnd (r dur total : Nat) (s0 : State) : State :=
  match (Map.getD s0.plan.inForce r {}).entries.find? (fun e => decide (e.kind = 2) && decide (s0.phase ≤ (e.start + e.dur) * 1000)) with
  | none => s0
  | some e =>
    if !wideOn s0 r ∨ !(s0.wr r).upWindow then s0
    else
      let fin := (e.start + e.dur) * 1000
      let w := s0.wr r
      if (upCfg s0 r).pmMode = 0 ∧ w.upLink.isSome ∧ w.upPmAcked ∧ w.upPm = 0 ∧ s0.phase + total ≤ fin then
        updWr r (fun w => { w with upWindow := false })
          (tryExchange r (nullAir dur total) (updWr r (fun w => { w with nullDue := some 1 }) (advancePhase (fin - total) s0)))
      else updWr r (fun w => { w with upWindow := false, nullDue := none }) (advancePhase fin s0)

/-! ### The grant (R195) -/

/-- GRANT_EXPIRY: at the commit window of GRANT_EXPIRY W1 stops every transmission in 6 GHz. -/
def grantExpiry (s0 : State) : State :=
  let g := powerCfg s0 0
  if !g.grant ∨ (s0.wr 0).grantStopped ∨ !clockRuns s0 then s0
  else
    let s := advanceTo (g.expiry * 1000000) s0
    let s1 := updWr 0 (fun w => { w with grantStopped := true, grantStk := true }) s
    raise 32 0x0503 (le 8 g.expiry) (if (chanCfg s 0).band = 2 ∧ !testSends s1 32 then cutWide 0 s1 else s1)

/-! ### Radar and channel moves (R197, R213, R219) -/

/-- May radio `r` work on a channel (Tables 4-1 and 4-14)? -/
def chanOk (r : Nat) (c : WideChan) : Bool :=
  (decide (c.band = 1) || (decide (r = 0) && decide (c.band = 2)) || (decide (r = 1) && decide (c.band = 0))) &&
    (if c.width ≥ 4 then decide (r = 0) && decide (c.band = 2) && decide (c.width ≤ 5) else true) &&
    (match chanBlock c.band c.primary c.width with
     | some (_, k, p) => decide (c.puncture < 2 ^ k) && punctureOk k c.puncture p
     | none => false)

/-- The two radios serve as separate single-link APs from now on (R213): a station associated on both links keeps the one that is not on radio `r`
(DESIGN CHOICE, log entry 76: no rule says what becomes of it). -/
def splitLinks (r : Nat) (s : State) : State :=
  let both := s.wide.clients.filter (fun e => decide (e.2.kind = 1) && decide (e.2.link1 ≠ 0xFFFF) && decide (e.2.link2 ≠ 0xFFFF))
  both.foldl (fun s e =>
    let l := if r = 0 then e.2.link1 else e.2.link2
    updClient e.1 (fun x => if r = 0 then { x with link1 := 0xFFFF } else { x with link2 := 0xFFFF }) { s with wide.links := Map.erase s.wide.links l }) s

/-- A radar move of radio `r` dissolves the pair where its channel does not keep it (R213). -/
def dissolve (r : Nat) (s : State) : State :=
  raise 32 0x0505 (le 1 (chanCfg s 0).primary ++ le 1 (chanCfg s 1).primary)
    (splitLinks r { setKept (fun k => { k with wide.pair := false }) s with next.wide.pair := false })

/-- WIDE_CHAN_CHANGED: band, primary, operating width, reason. -/
def chanChanged (r reason : Nat) (s : State) : State :=
  let c := chanCfg s r
  raise (wideSrc r) 0x0501 (le 1 c.band ++ le 1 c.primary ++ le 1 (operWidth s r c.width) ++ le 1 reason) s

/-- What the radio receives or sends ends for a retune: a reception past L-SIG ends CARRIER_LOST and counts as such (DESIGN CHOICE, log entry 101: no rule
names the status of a reception that a retune cuts). -/
def retuneStop (r : Nat) (s : State) : State :=
  let s1 := updWr r (fun x => { x with rxNext := .idle }) (cutWide r s)
  let s2 := match (s1.wr r).rx with
    | .receiving _ _ _ _ _ _ => endPpdu r 6 pCarrierLost s1
    | .acquiring _ _ _ _ l _ => if pastLsig l s1.time.mono then endPpdu r 6 pCarrierLost s1 else updWr r (fun x => { x with rx := .idle }) s1
    | .idle => s1
  settleChains r (updWr r (fun x => { x with responseAt := none, busyUntil := s2.time.mono }) s2)

/-- EFFECTIVE_BEAT and OPER_WIDTH of WIDE_CHAN_SET (Table 4-14). -/
def chanAnswer (r b : Nat) (s : State) : Reply := ok (le 8 b ++ le 1 (operWidth s r (chanCfg s r).width) ++ [0, 0, 0])

/-- The channel is in force: the event, the change counts, the answer. WIDE_CHAN_CHANGED is raised too when the check of a radio that opens ends, and when
the radio returns after a check that found radar, with reason 0 (DESIGN CHOICE, log entry 102). -/
def chanInForce (r b : Nat) (m : ChanMove) (s : State) : State :=
  let s1 := updWr r (fun w => { w with move := none, radarStop := none }) s
  completeAsker m.job (chanAnswer r b s1) (chanChanged r m.reason (changeBss r s1))

/-- A channel change at the commit window of beat `b` (R219): the radio retunes; a radar channel is first listened to (R197). -/
def applyMove (r b : Nat) (m : ChanMove) (s : State) : State :=
  let s0 := setKept (fun k => { k with wide.chan := Map.set k.wide.chan r m.chan }) s
  let s1 := startRetune r (retuneStop r (updWr r (fun w => { w with capped := decide (operWidth s0 r m.chan.width ≠ m.chan.width) }) s0))
  let s2 := if m.reason = 2 ∧ s1.kept.wide.pair ∧ !pairOk (chanCfg s1 0) (chanCfg s1 1) then dissolve r s1 else s1
  let again : Bool := decide (m.reason = 3)
  match (if again then none else cacBeats s2 r m.chan) with
  | some n => updWr r (fun w => { w with move := some { m with eff := none, csa := none, latest := none, cacEnd := some (b + n) }, radarStop := none }) s2
  | none => chanInForce r b { m with reason := if again then 0 else m.reason } s2

/-- CAC_END (R219): the availability check is over and the change commits. -/
def cacEnd (r : Nat) (s0 : State) : State :=
  match (s0.wr r).move with
  | some m =>
    if !clockRuns s0 then s0
    else
    (match m.cacEnd, m.eff with
     | some b, none => let s := advanceTo (b * 1000000) s0; chanInForce r b m s
     | _, _ => s0)
  | none => s0

/-- The barred list takes the 20 MHz channels that radar hit (R197). -/
def barChannels (r hit fin : Nat) (s : State) : State :=
  let keys := chanKeys (chanCfg s r)
  let hits := ((List.range keys.length).filter (hasBit hit)).map (fun i => keys.getD i 0)
  setKept (fun k => { k with wide.barred := hits.foldl (fun m x => Map.set m x fin) k.wide.barred }) s

/-- The channel move that a confirmed radar starts (R197): to the channel that the Steward names, announced for `csa` beacon intervals where the AP role
stands; where it names none that the radio may use, the radio has no channel from the end of the 10,000 beats on (DESIGN CHOICE, log entry 77). -/
def radarMove (s : State) (r csa : Nat) (to' : WideChan) : ChanMove :=
  let none' : WideChan := { chanCfg s r with band := 0xFF }
  if !chanOk r to' ∨ chanBarred s to' then { chan := none', job := none, latest := some (s.beat + 10000), reason := 2, back := none' }
  else
    let announced : Bool := apOn s r && decide (csa ≠ 0)
    { chan := to', job := none, csa := if announced then some csa else none, eff := if announced then none else some (s.beat + 1),
      reason := 2, back := none', latest := some (s.beat + 10000) }

/-- RADAR_CONFIRMED (R197, R213, R219): `hit` are the 20 MHz subchannels that radar was found on; `band`, `primary`, `width`, `puncture` are
the channel that the Steward moves to (band 0xFF: none), announced for `csa` beacon intervals. In an availability check the command is DENIED and the
radio, which still does not transmit, goes back to its former channel. A commanded change to a channel that is still free stands as the move, within
the same 10,000 beats (DEDUCED, log entry 92); one to a barred channel is DENIED. -/
def radarConfirmed (r hit band primary width puncture csa : Nat) (s : State) : State :=
  if r ≥ 2 ∨ !wideOn s r ∨ !radarChan (chanCfg s r) then s
  else
    let fin := s.beat + 1800000
    let old := chanCfg s r
    let s1 := barChannels r hit fin (updWr r (fun w => { w with radarStk := true }) s)
    let s2 := raise (wideSrc r) 0x0502 (le 1 old.primary ++ le 2 hit ++ le 8 fin) s1
    let stop (m : ChanMove) (s : State) : State := updWr r (fun w => { w with move := some m, radarStop := some (s2.beat + 1) }) s
    let to' : WideChan := { old with band := band, primary := primary, width := width, puncture := puncture }
    match (s.wr r).move with
    | some m =>
      if m.cacEnd.isSome then
        completeAsker m.job (denied) (updWr r (fun w => { w with
          move := some { chan := m.back, job := none, eff := some (s.beat + 1), cacEnd := m.cacEnd, reason := 3, back := m.back } }) s2)
      else if chanBarred s2 m.chan then completeAsker m.job (denied) (stop (radarMove s2 r csa to') s2)
      else stop { m with latest := some (s.beat + 10000) } s2
    | none => stop (radarMove s2 r csa to') s2

/-- NON_OCCUPANCY_END: a barred 20 MHz channel is free again. -/
def nonOccupancyEnd (key : Nat) (s0 : State) : State :=
  match Map.get? s0.kept.wide.barred key with
  | none => s0
  | some b => if clockRuns s0 then setKept (fun k => { k with wide.barred := Map.erase k.wide.barred key }) (advanceTo (b * 1000000) s0) else s0

/-- The beat at which the last bar on a setting's channels ends (R197). -/
def barEnd (s : State) (c : WideChan) : Nat :=
  if c.band = 1 then (chanKeys c).foldl (fun m k => max m (Map.getD s.kept.wide.barred k 0)) 0 else 0

/-- A radio that starts on a radar channel listens before it transmits (R197), the more while the channel is barred; its mode's cap is in force from
the start (R185). -/
def openRadio (r : Nat) (s0 : State) : State :=
  let c := chanCfg s0 r
  let s := updWr r (fun w => { w with capped := decide (operWidth s0 r c.width ≠ c.width) }) s0
  match cacBeats s r c with
  | some n =>
    updWr r (fun w => { w with move := some { chan := c, job := none, cacEnd := some (max s.beat (barEnd s c) + n), back := { c with band := 0xFF } } }) s
  | none => s

/-! ### Test modes (R220) -/

/-- The PPDUs that WIDE_TEST mode 2 has sent since they were last counted are counted (Table 4-19): how many, no rule says, since none gives their air
time; a free number, of PPDUs of at least 20 µs at 50 % duty (DESIGN CHOICE, log entry 105). -/
def countTest (r : Nat) (s : State) : State :=
  match (s.wr r).test with
  | some (2, _) =>
    let d := draw s
    let n := d.1 % ((s.time.mono - (s.wr r).testFrom) / 40000 + 2)
    updWr r (fun w => { w with phyCounts := Map.modify w.phyCounts pTxPpdu 0 (fun v => satAdd 32 v n), testFrom := s.time.mono }) d.2
  | _ => s

/-- A test mode ends. -/
def stopWideTest (r : Nat) (s : State) : State :=
  let s1 := updWr r (fun w => { w with test := none, testEnd := 0 }) (countTest r s)
  match Map.get? s1.front.tx (wideSrc r) with
  | some t => if t.kind = 3 then blankUntilFor r s1.time.mono (endRadio (wideSrc r) false s1) else s1
  | none => s1

/-- WIDE_TEST_END. -/
def wideTestEnd (r : Nat) (s : State) : State :=
  if (s.wr r).test.isSome ∧ (s.wr r).testEnd ≠ 0 ∧ clockRuns s then stopWideTest r (advanceTo ((s.wr r).testEnd * 1000000) s) else s

/-- WIDE_CLIENT_DEL_TIMEOUT (R271): 100 beats after the command it is answered. -/
def clientDelTimeout (c : Nat) (s : State) : State :=
  match s.wide.dels.find? (fun d => decide (d.client = c)) with
  | none => s
  | some d =>
    if clockRuns s then completeJob d.job (ok) { advanceTo (d.due * 1000000) s with wide.dels := s.wide.dels.filter (fun x => x.job ≠ d.job) }
    else s

/-! ### Stops -/

/-- Every station of radio `r`'s table is deauthenticated with a reason; `who` says which. -/
def deauthenticate (reason : Nat) (who : Nat → Client → Bool) (s : State) : State :=
  (s.wide.clients.filter (fun e => decide (e.2.kind = 1) && who e.1 e.2)).foldl (fun s e =>
    let r := if e.2.link1 ≠ 0xFFFF then 0 else 1
    stationLeft e.1 reason 1 (emit (.frame (wideSrc r) 53 [e.2.addr, reason]) s)) s

/-- Before the wide radios stop (R228): every station deauthenticated with reason 3, the upstream stations disassociated. -/
def wideFarewell (s : State) : State :=
  let s1 := deauthenticate 3 (fun _ _ => true) s
  [0, 1].foldl (fun s r => match (s.wr r).upLink with
    | some c => upLinkDown r (emit (.frame (wideSrc r) 53 [(s.client c).addr, 3]) s)
    | none => s) s1

/-- Radio `r` stops: what is in hand ends, its chains and its LO go off (R276). -/
def stopWide (r : Nat) (s : State) : State :=
  let s1 := closeExchange r [] (cutWide r s)
  let s2 := blankWide r s1.time.mono s1
  dropLock r .off (updWr r (fun w => { w with
    rx := .idle, rxNext := .idle, edFrom := none, chains := 0, mask := 0, exchange := none, waiting := none, shareWait := false, responseAt := none, responding := false, beaconDue := none,
    periods := [], upWindow := false, nullDue := none, busy := [], busyUntil := 0, groupRelease := [] })
    { s2 with front.waiting := Map.erase s2.front.waiting (wideSrc r) })

/-! ### Commit windows -/

/-- Covered length of spans within [lo, hi), by the points where they begin and end. -/
def coveredNs (spans : List (Nat × Nat)) (lo hi : Nat) : Nat :=
  let clip := (spans.map (fun x => (max lo x.1, min hi x.2))).filter (fun x => x.1 < x.2)
  let points := sortBy (fun a b => decide (a ≤ b)) (clip.map (·.1) ++ clip.map (·.2))
  (points.zip points.tail).foldl (fun t p => if clip.any (fun x => decide (x.1 ≤ p.1) && decide (p.2 ≤ x.2)) then t + (p.2 - p.1) else t) 0

/-- CCA_BUSY_CNT of the beat that ends (Table 4-19): the primary was busy for more than half of the service time. -/
def ccaBeat (r : Nat) (s : State) : State :=
  let w := s.wr r
  let t := s.time.mono
  let spans := w.busy ++ (match w.edFrom with | some b => [(b, t)] | none => [])
  let s1 := if coveredNs spans (t - 980000) (t - 50000) > 465000 then phyCount r pCcaBusy s else s
  updWr r (fun w => { w with busy := w.busy.filter (fun x => x.2 > t) }) s1

/-- The closed loop of radio `r` at a commit window (R194): only with CLOSED_LOOP set. -/
def tpcBeat (r : Nat) (s : State) : State :=
  if !(powerCfg s r).closedLoop then updWr r (fun w => { w with tpcRun := [0, 0, 0, 0], tpcSeen := [none, none, none, none] }) s
  else (List.range 4).foldl (fun s c =>
    let w := s.wr r
    let old := w.tpc.getD c 0
    let loopOpen : Bool := (Map.getD s.front.notes (calKey 7 (wideSrc r) c 0) {}).stale.isSome
    let new' : Int := match w.tpcSeen.getD c none with
      | some d => if loopOpen then old else clampInt (-12) 12 (old - clampInt (-2) 2 d)
      | none => old
    let run := if new' = 12 ∨ new' = -12 then w.tpcRun.getD c 0 + 1 else 0
    let s1 := updWr r (fun w => { w with tpc := w.tpc.set c new', tpcRun := w.tpcRun.set c run, tpcSeen := w.tpcSeen.set c none }) s
    if run = 100 then
      raise (wideSrc r) 0x0504 (le 1 c ++ leInt 2 new') (phyCount r pTpcLimit (updWr r (fun w => { w with tpcStk := true }) s1))
    else s1) s

/-- Keys that an installation brings into force (R265): TX_ACTIVE moves to the new entry, which the client names under its key ID and nowhere else. -/
def installKeys (s : State) : State :=
  s.wide.keysNext.foldl (fun s e =>
    let off (x : Nat × KeyEntry) : Nat × KeyEntry :=
      if e.2.txActive ∧ x.1 ≠ e.1 ∧ ((e.1 < 4096 ∧ x.1 < 4096 ∧ x.2.client = e.2.client) ∨
          (4096 ≤ e.1 ∧ 4096 ≤ x.1 ∧ x.2.radio = e.2.radio ∧ (decide (x.2.cipher ≤ 4) = decide (e.2.cipher ≤ 4))))
      then (x.1, { x.2 with txActive := false }) else x
    let point (x : Client) : Client := if e.2.keyId = 0 then { x with key0 := e.1 } else { x with key1 := e.1 }
    let free (x : Client) : Client := { x with key0 := if x.key0 = e.1 then 0xFFFF else x.key0, key1 := if x.key1 = e.1 then 0xFFFF else x.key1 }
    let s1 := { s with wide.keys := Map.set (s.wide.keys.map off) e.1 e.2, wide.clients := Map.mapVals s.wide.clients (fun _ x => free x) }
    if e.1 < 4096 then updClient e.2.client point s1 else s1) { s with wide.keysNext := [] }

/-- The mode cap of radio `r` (R185, R240): the event, the counts, the notifications to stations that are on the other link too. -/
def capBeat (r : Nat) (s : State) : State :=
  let c := chanCfg s r
  let now : Bool := decide (operWidth s r c.width ≠ c.width)
  if c.band = 0xFF ∨ (s.wr r).capped = now ∨ !s.power.mode.serves then s
  else
    let s1 := changeBss r (chanChanged r 1 (updWr r (fun w => { w with capped := now }) s))
    s1.wide.clients.foldl (fun s e =>
      if e.2.kind = 1 ∧ e.2.link1 ≠ 0xFFFF ∧ e.2.link2 ≠ 0xFFFF then emit (.frame (wideSrc r) 52 [e.1, operWidth s r c.width]) s else s) s1

/-- Chains and LO of radio `r` in the beat that begins (R189, R190, R276): those of the plan's mask, and those that a reception in progress or its
response still needs. -/
def chainBeat (r : Nat) (s : State) : State :=
  let w := s.wr r
  let src := wideSrc r
  let open' : Bool := dataPlane s && unitUp s src && s.power.mode.serves && decide ((chanCfg s r).band ≠ 0xFF)
  if !open' then updWr r (fun w => { w with chains := 0, mask := 0, oldMask := w.mask }) (if (s.synth r).state = .off then s else dropLock r .off s)
  else
    let want := match w.test with | some (_, m) => m | none => (Map.getD s.plan.inForce r {}).granted
    let chains := if holdsChains s r then want ||| w.chains else want
    let s1 := updWr r (fun w => { w with chains := chains, mask := want, oldMask := w.mask }) s
    if chains ≠ 0 then startLock r s1 else dropLock r .standby s1

/-- The LO of a radio whose plan for the next beat needs it starts to relock at the plan commit (R277). -/
def widePlanCommit (s : State) : State :=
  [0, 1].foldl (fun s r => if wideOn s r ∧ (Map.getD s.plan.latched r {}).granted ≠ 0 then startLock r s else s) s

/-- Does a span of µs meet an upstream window of a plan? -/
def meetsUpstream (p : AirPlan) (e : PlanEntry) : Bool :=
  p.entries.any (fun u => decide (u.kind = 2) && decide (u.start < e.start + e.dur) && decide (e.start < u.start + u.dur))

/-- Service periods of the beat (R249, R353): shared with an upstream window; in a beat that AP_MASK forbids. -/
def periodBeat (r b : Nat) (s : State) : State :=
  let p := Map.getD s.plan.inForce r {}
  let sp := p.entries.filter (fun e => decide (e.kind = 8))
  let s1 := if sp.any (fun e => decide (e.arg / 256 < 2) && meetsUpstream p e) then accCount r none aSpShared s else s
  let s2 := ((s1.wr r).periods.filter (fun x => x.endNs ≤ s.ns)).foldl (fun s p => endPeriod r p s) s1
  if wideOn s r ∧ !hasBit (Map.getD s.kept.plan.masks r {}).ap (b % 256) ∧ sp.any (fun e => decide (e.arg / 256 = 0)) then planCount (24 + r) cMaskConflict s2 else s2

/-- Frames that a plan selected and did not send go back to their queues (R320, R342). -/
def returnPlanned (p : AirPlan) (s : State) : State :=
  p.slots.reverse.foldl (fun s x => x.frames.reverse.foldl (fun s f => returnHead f.1 f.2 s) s) s

/-- Settings of the wide radios at the commit window of beat `b` (R185, R195, R219, R265, R271). -/
def wideSettings (old : Kept) (b : Nat) (s : State) : State :=
  let s1 := installKeys s
  let s2 := [0, 1].foldl (fun s r => match (s.wr r).move with
    | some m => if m.eff.any (fun e => decide (e ≤ b)) ∨ m.latest.any (fun e => decide (e ≤ b)) then applyMove r b m s else s
    | none => s) s1
  let s3 := [0, 1].foldl (fun s r =>
    let g := Map.getD old.wide.power r {}
    if powerCfg s r ≠ g then updWr r (fun w => { w with grantStopped := false }) s else s) s2
  let s4 := old.wide.bss.foldl (fun s e =>
    if e.2.enable ∧ !(Map.getD s.kept.wide.bss e.1 {}).enable then
      deauthenticate 3 (fun c x => decide (x.bss = e.1 % 8) && (linkOf s (e.1 / 8) c).isSome) s
    else if e.2.enable ∧ e.2.ulTrigOnly ≠ (Map.getD s.kept.wide.bss e.1 {}).ulTrigOnly then
      updWr (e.1 / 8) (fun w => { w with changeCount := Map.modify w.changeCount (e.1 % 8) 0 (fun v => (v + 1) % 256) }) s
    else s) s3
  let s5 := old.wide.neighbours.foldl (fun s e =>
    if e.2.enable ∧ !(Map.getD s.kept.wide.neighbours e.1 {}).enable then
      (List.range 4).foldl (fun s a => flushWlan (0x3000 + 4 * e.1 + a) s) s
    else s) s4
  let s6 := [0, 1].foldl (fun s r =>
    let o := Map.getD old.wide.upstream r {}
    let n := upCfg s r
    if o.enable ∧ (!n.enable ∨ n.ap ≠ o.ap ∨ n.sta ≠ o.sta) then upLinkDown r s else s) s5
  let s7 := if old.wide.pair ∧ !s6.kept.wide.pair then splitLinks 1 s6 else s6
  [0, 1].foldl (fun s r => askTwt r s) { s7 with wide.twtMembers := s7.wide.twtMembers.filter (fun e => Map.has s7.kept.wide.twt e.1) }

/-- What each beat brings to the wide radios at its commit window, after the settings and the plan of the beat. -/
def wideCommit (b : Nat) (s : State) : State :=
  [0, 1].foldl (fun s r => periodBeat r b (chainBeat r (capBeat r (tpcBeat r (ccaBeat r s))))) s

end Sys2Proof.Machine
end

