-- ==== Sys2Proof/Machine/WideCmd.lean ====
section
/-! DEFINITION. The commands of the wide-radio area (0x0501 to 0x051A) and the meanings of the wide-radio rows. -/

namespace Sys2Proof.Machine

/-! ### PHY commands (Tables 4-13 to 4-18) -/

/-- The first field of WIDE_CHAN_SET found wrong (Table 4-14). -/
def badChan (r : Nat) (c : WideChan) (csaFlag : Bool) (csa : Nat) : Option Nat :=
  let bandOk : Bool := decide (c.band = 1) || (decide (r = 0) && decide (c.band = 2)) || (decide (r = 1) && decide (c.band = 0))
  if !bandOk then some 17
  else if (chanBlock c.band c.primary 0).isNone then some 18
  else if (c.width ≥ 4 ∧ !(decide (r = 0) && decide (c.band = 2))) ∨ (chanBlock c.band c.primary c.width).isNone then some 19
  else if !chanOk r c then some 20
  else if c.chainMax = 0 then some 22
  else if !hasBit c.chainMax c.listenChain then some 23
  else if (if csaFlag then csa = 0 else csa ≠ 0) then some 25
  else none

/-- WIDE_CHAN_SET (R196, R197, R211, R219). While another WIDE_CHAN_SET of the radio is open it is BUSY (Table 2-18); a move away from a radar, or the
check of a radio that opens, gives way to it: the radio still leaves by the move's last beat, and does not transmit before its change. -/
def wideChanSet : Handler where
  fields := [fRange 16 1 0 1, fAny 17 1, fAny 18 1, fRange 19 1 0 5, fAny 20 2, fMask 22 1 0xF, fRange 23 1 0 3, fMask 24 1 1, fAny 25 1, fZero 26 2]
  run c id s :=
    let r := c.u 16 1
    let g : WideChan := { band := c.u 17 1, primary := c.u 18 1, width := c.u 19 1, puncture := c.u 20 2, chainMax := c.u 22 1, listenChain := c.u 23 1 }
    match badChan r g (c.flag 24 1 0) (c.u 25 1) with
    | some d => (s, .reply (badArg d))
    | none =>
      if radarChan g ∧ (powerCfg s r).regDomain = 0 then (s, .reply (denied))
      else if chanBarred s g then (s, .reply (denied))
      else if pairRule s ∧ !(chanTargets s (1 - r)).all (pairOk g) then (s, .reply { status := stUnsupported, detail := 0x10 })
      else if (s.wr r).move.any (fun m => m.job.isSome) then (s, .reply { status := stBusy })
      else
        let old := (s.wr r).move
        let announced : Bool := c.flag 24 1 0 && apOn s r && !inCac s r
        let m : ChanMove := { chan := g, job := some id, csa := if announced then some (c.u 25 1) else none,
                              eff := if announced then none else some (s.beat + 1), back := chanCfg s r,
                              latest := old.bind (·.latest), cacEnd := old.bind (·.cacEnd) }
        (updWr r (fun w => { w with move := some m }) s, .wait (cacBeats s r g).isNone 0 0)

/-- WIDE_TXPWR_CONFIG (R193, R195). Where only the values together are too low, DETAIL names MAX_EIRP (DESIGN CHOICE, log entry 100). -/
def wideTxpwrConfig : Handler where
  fields := [fRange 16 1 0 1, fMask 17 1 3, fRange 18 1 0 2, fZero 19 1, fAny 20 2, fAny 22 2, fAny 24 2, fZero 26 2, fAny 28 8, fAny 36 8, fZero 44 4]
  run c _ s :=
    let r := c.u 16 1
    let g : WidePower := { closedLoop := c.flag 17 1 0, grant := c.flag 17 1 1, regDomain := c.u 18 1, maxEirp := c.i 20 2, maxPsd := c.i 22 2,
                           antGain := c.i 24 2, femGain := (List.range 4).map (fun i => c.i (28 + 2 * i) 2), expiry := c.u 36 8 }
    if powerTooLow g (chanCfg s r).chainMax then (s, .reply (badArg 20))
    else (stageKept (fun k => { k with wide.power := Map.set k.wide.power r g }) s, .reply (ok))

/-- WIDE_RX_CONFIG. -/
def wideRxConfig : Handler where
  fields := [fRange 16 1 0 1, fRange 17 1 3 10, fRange 18 1 6 20, fMask 19 1 7, fSigned 20 1 (-92) (-72), fSigned 21 1 (-72) (-52),
             fSigned 22 1 (-82) (-62), fZero 23 1]
  run c _ s :=
    let g : WideRxCfg := { restart := c.u 17 1, capture := c.u 18 1, captureEn := c.flag 19 1 0, obssEn := c.flag 19 1 1, monitor := c.flag 19 1 2,
                           pd := c.i 20 1, ed := c.i 21 1, obssPd := c.i 22 1 }
    (stageKept (fun k => { k with wide.rx := Map.set k.wide.rx (c.u 16 1) g }) s, .reply (ok))

/-- WIDE_MLD_PAIR (R211). GAP_MHZ without two channels is a value that no rule gives: free. -/
def wideMldPair : Handler where
  fields := [fMask 16 1 1, fZero 17 3]
  run c _ s :=
    let on : Bool := c.flag 16 1 0
    if on ∧ !(chanTargets s 0).all (fun a => (chanTargets s 1).all (pairOk a)) then (s, .reply { status := stUnsupported, detail := 0x10 })
    else
      let s1 := stageKept (fun k => { k with wide.pair := on }) s
      match chanGap (chanCfg s 0) (chanCfg s 1) with
      | some g => (s1, .reply (ok (le 2 g ++ [0, 0])))
      | none => ((draw s1).2, .reply (ok (le 2 (draw s1).1 ++ [0, 0])))

/-- WIDE_FTM_CONFIG. -/
def wideFtmConfig : Handler where
  fields := [fRange 16 1 0 1, fMask 17 1 3, fRange 18 1 1 32, fRange 19 1 2 16, fRange 20 2 300 10000, fZero 22 2]
  run c _ s :=
    let g : FtmCfg := { responder := c.flag 17 1 0, timing := c.flag 17 1 1, maxSessions := c.u 18 1, maxPerBurst := c.u 19 1, minDelta := c.u 20 2 }
    (stageKept (fun k => { k with wide.ftm := Map.set k.wide.ftm (c.u 16 1) g }) s, .reply (ok))

/-- The first field of WIDE_TEST that lies outside Table 4-3 or Table 4-5. -/
def badTest (r : Nat) (g : WideChan) (p : PhyMode) (chains : Nat) (power : Int) : Option Nat :=
  if chains = 0 then some 18
  else if !p.bandOk r g.band then some 19
  else if !p.mcsOk g.band then some 20
  else if !p.nssOk ∨ p.nss > chainCount chains then some 21
  else if widthMhz p.width > p.widest ∨ widthMhz p.width > widthMhz g.width ∨ (p.width ≥ 4 ∧ p.width ≠ g.width) then some 22
  else if power * 250000 > rateCeiling p.modulation then some 24
  else none

/-- WIDE_TEST (R220): on the configured channel, and only while the radio carries no role. -/
def wideTest : Handler where
  fields := [fRange 16 1 0 1, fRange 17 1 0 3, fMask 18 1 0xF, fRange 19 1 0 5, fAny 20 1, fAny 21 1, fRange 22 1 0 5, fZero 23 1, fSigned 24 2 (-120) 24,
             fZero 26 2, fRange 28 4 100 65535, fAny 32 4]
  run c _ s :=
    let r := c.u 16 1
    let g := chanCfg s r
    let mode := c.u 17 1
    let role : Bool := (List.range 8).any (fun b => (bssCfg s r b).enable || (Map.getD s.next.wide.bss (8 * r + b) {}).enable) ||
      (upCfg s r).enable || (Map.getD s.next.wide.upstream r {}).enable
    match badTest r g { format := c.u 19 1, mcs := c.u 20 1, nss := c.u 21 1, width := c.u 22 1 } (c.u 18 1) (c.i 24 2) with
    | some d => (s, .reply (badArg d))
    | none =>
      if role ∨ g.band = 0xFF then (s, .reply (denied))
      else
        let s1 := stopWideTest r s
        if mode = 0 then (s1, .reply (ok))
        else
          let fin := if c.u 32 4 = 0 then 0 else s.beat + c.u 32 4
          let s2 := startLock r (updWr r (fun w => { w with test := some (mode, c.u 18 1), testEnd := fin, testFrom := s.time.mono, chains := c.u 18 1, mask := c.u 18 1 }) s1)
          let s3 := emit (.frame (wideSrc r) 54 [mode, c.u 19 1, c.u 20 1, c.u 21 1, c.u 22 1, c.u 24 2, c.u 28 4]) s2
          (if mode = 3 then s3 else startRadio (wideSrc r) 3 (c.u 18 1) 0 (blankFor r (leadNs s3 (wideSrc r) (c.u 18 1)) s3), .reply (ok))

/-- WIDE_PHY_COUNTERS (R221). -/
def widePhyCounters : Handler where
  fields := [fRange 16 1 0 1, fMask 17 1 3, fMask 18 1 7, fZero 19 1]
  run c _ s0 :=
    let r := c.u 16 1
    let s := countTest r s0
    let w := s.wr r
    let body := le 1 (fieldsWord [(0, bit w.tpcStk), (1, bit w.grantStk), (2, bit w.radarStk)]) ++ [0, 0, 0] ++ tallyBytes w.phyCounts 20 20
    let k (i : Nat) : Bool := c.flag 17 1 1 && c.flag 18 1 i
    (updWr r (fun w => { w with
      phyCounts := if c.flag 17 1 0 then [] else w.phyCounts,
      tpcStk := w.tpcStk && !k 0, grantStk := w.grantStk && !k 1, radarStk := w.radarStk && !k 2 }) s, .reply (ok body))

/-! ### Access commands (Tables 5-8 to 5-14) -/

/-- WIDE_BSS_SET. -/
def wideBssSet : Handler where
  fields := [fRange 16 1 0 1, fRange 17 1 0 7, fMask 18 2 0x1F, fAny 20 6, fRange 26 1 1 255, fRange 27 1 1 63, fRange 28 2 1 512, fRange 30 1 0 3,
             fZero 31 1, fAny 32 2, fRange 34 2 20 400, fRange 36 2 0 400, fZero 38 2]
  run c _ s :=
    let r := c.u 16 1
    let b := c.u 17 1
    let g : Bss := { enable := c.flag 18 2 0, ulTrigOnly := c.flag 18 2 1, mfp := c.flag 18 2 2, fourAddr := c.flag 18 2 3, hidden := c.flag 18 2 4,
                     bssid := macAt c 20, dtim := c.u 26 1, colour := c.u 27 1, maxSta := c.u 28 2 }
    let n : BeaconCfg := { interval := c.u 30 1, phase := c.u 32 2, offset := c.u 34 2, maxDelay := c.u 36 2 }
    if g.enable ∧ b ≠ 0 ∧ !(Map.getD s.next.wide.bss (8 * r) {}).enable then (s, .reply (badArg 18))
    else if n.phase ≥ beaconBeats n then (s, .reply (badArg 32))
    else (stageKept (fun k => { k with wide.bss := Map.set k.wide.bss (8 * r + b) g, wide.beacon := Map.set k.wide.beacon r n }) s, .reply (ok))

/-- WIDE_UPSTREAM_SET (R212, R224): an AP that the radio has heard on another primary channel is refused, and so is a non-AP MLD over channels that no
pair may have. -/
def wideUpstreamSet : Handler where
  fields := [fRange 16 1 0 1, fMask 17 1 3, fAny 18 6, fAny 24 6, fRange 30 1 0 1, fAny 31 1, fRange 32 2 1 48, fZero 34 2]
  run c _ s :=
    let r := c.u 16 1
    let g : Upstream := { enable := c.flag 17 1 0, mld := c.flag 17 1 1, sta := macAt c 18, ap := macAt c 24, pmMode := c.u 30 1,
                          neighbour := c.u 31 1, share := c.u 32 2 }
    let elsewhere : Bool := match Map.get? s.wide.heard g.ap with
      | some p => decide (p ≠ 256 * (chanCfg s r).band + (chanCfg s r).primary)
      | none => false
    if elsewhere then (s, .reply (badArg 24))
    else if g.enable ∧ g.mld ∧ (let o := Map.getD s.next.wide.upstream (1 - r) {}; o.enable && o.mld) = true ∧
        !(chanTargets s r).all (fun a => (chanTargets s (1 - r)).all (pairOk a)) then (s, .reply { status := stUnsupported, detail := 0x10 })
    else (stageKept (fun k => { k with wide.upstream := Map.set k.wide.upstream r g }) s, .reply (ok))

/-- WIDE_ACCESS_CONFIG. -/
def wideAccessConfig : Handler where
  fields := [fRange 16 1 0 1, fRange 17 1 1 31, fRange 18 1 1 15, fAny 19 1, fRange 20 2 1 65535, fRange 22 2 1 65535, fRange 24 2 1 65535,
             fRange 26 2 1 65535, fRange 28 2 16 4096, fRange 30 2 100 65535, fRange 32 2 1 1000, fRange 34 2 50 900]
  run c _ s :=
    let g : AccessCfg := { retryLimit := c.u 17 1, tbMissLimit := c.u 18 1, noshowLimit := c.u 19 1,
                           lifetime := (List.range 4).map (fun i => c.u (20 + 2 * i) 2), psMaxFrames := c.u 28 2, psLifetime := c.u 30 2,
                           reorder := c.u 32 2, noshowUs := c.u 34 2 }
    (stageKept (fun k => { k with wide.access := Map.set k.wide.access (c.u 16 1) g }) s, .reply (ok))

/-- A link record as WIDE_CLIENT_GET returns it (Table 5-7). -/
def linkBytes (s : State) (l : Nat) : List Byte :=
  match Map.get? s.wide.links l with
  | none => List.replicate 32 0
  | some x =>
    let air := (x.air.filter (fun e => e.1 + 1000 > s.beat)).foldl (fun t e => t + e.2) 0
    le 2 l ++ le 1 x.radio ++ le 1 x.caps ++ be 6 x.addr ++ le 1 x.mcsCap ++ le 1 (x.mcs % 16 + 16 * (x.nss - 1)) ++ leInt 1 x.rssi ++
      le 1 x.ampduExp ++ le 2 x.baSize ++ le 4 x.txMpdu ++ le 4 x.txFail ++ le 4 (min air (2 ^ 32 - 1)) ++ le 2 x.tbMiss ++ [0, 0]

/-- FLAGS of Table 5-6: PS and TWT member are the radio's own. -/
def clientFlags (s : State) (c : Nat) (x : Client) : Nat :=
  let base := maskOf ((bitsSet 13 x.flags).filter (fun i => i ≠ 8 ∧ i ≠ 11))
  base + 256 * bit x.ps + 2048 * bit (hasBit x.flags 11 || s.wide.twt.any (fun e => decide (e.2.client = c)) || s.wide.twtMembers.any (fun e => e.2.contains c))

/-- A client entry as WIDE_CLIENT_GET returns it (Tables 5-6, 5-7). -/
def clientBytes (s : State) (c : Nat) (x : Client) : List Byte :=
  le 2 c ++ le 1 x.kind ++ le 1 x.bss ++ be 6 x.addr ++ le 2 x.aid ++ le 2 (clientFlags s c x) ++ le 2 x.link1 ++ le 2 x.link2 ++
    le 2 x.key0 ++ le 2 x.key1 ++ le 1 ((neighboursOf s c).headD 0xFF) ++ le 1 x.uapsd ++ le 1 x.maxSp ++
    le 1 (min 255 (s.wide.twt.filter (fun e => decide (e.2.client = c))).length) ++ le 2 (maskOf (x.baTx.map (·.1))) ++ le 2 (maskOf (x.baRx.map (·.1))) ++
    le 2 (min 65535 (if x.ps then clientFrames s c else 0)) ++ le 4 x.assocBeat ++ le 4 x.lastRx ++ le 8 x.outBytes ++ le 8 x.inBytes ++
    linkBytes s x.link1 ++ linkBytes s x.link2

/-- WIDE_CLIENT_GET. -/
def wideClientGet : Handler where
  fields := [fAny 16 2, fZero 18 2]
  run c _ s := (s, .reply (match Map.get? s.wide.clients (c.u 16 2) with
    | some x => ok (clientBytes s (c.u 16 2) x)
    | none => badArg 16))

/-- Length of a deauthentication frame: at least its header and reason code, at most an 802.11 management frame; the rest no rule gives. -/
def deauthLen : Nat := 26 + Config.deauthBytes % 2279

/-- WIDE_CLIENT_DEL (R271): the entry goes at once; the answer waits for the deauthentication frame, or 100 beats. -/
def wideClientDel : Handler where
  fields := [fAny 16 2, fAny 18 2]
  run c id s :=
    let i := c.u 16 2
    match Map.get? s.wide.clients i with
    | none => (s, .reply (badArg 16))
    | some x =>
      let r := if x.link1 ≠ 0xFFFF then 0 else 1
      let q := 0x3F00 + 2 * r + (if x.kind = 2 then 1 else 0)
      let s1 := if x.kind = 2 then upLinkDown r s else stationLeft i (c.u 18 2) 1 s
      let frame : Frame := { da := x.addr, etherType := 0, len := deauthLen, mgmt := { robust := true, reason := some (c.u 18 2) } }
      let item : Queued := { chargeOf s1 q (.eth frame) 0 with job := some id }
      let s2 := (enqueue q item s1).1
      ({ s2 with wide.dels := s2.wide.dels ++ [{ job := id, client := i, due := s.beat + 100 }] }, .wait true (s.beat + 100) i)

/-- The first field of WIDE_KEY_INSTALL found wrong (Table 5-12, R272). -/
def badKey (c : Cmd) : Option Nat :=
  let k := c.u 16 2
  let cipher := c.u 18 1
  let wlan : Bool := decide (cipher ≠ 9)
  if k < 4096 ∧ 5 ≤ cipher ∧ cipher ≤ 8 then some 18
  else if wlan ∧ (if k < 4096 then c.u 19 1 > 1 else c.u 19 1 = 0 ∨ c.u 19 1 > 7) then some 19
  else if wlan = decide (c.u 21 1 = 2) then some 21
  else if (if k < 4096 then c.u 22 2 > (if wlan then 1023 else 4095) ∧ (wlan ∨ c.u 22 2 ≠ 0xFFFF) else c.u 22 2 ≠ 0xFFFF) then some 22
  else if c.u 24 8 ≥ (if wlan then 2 ^ 48 else 2 ^ 32) then some 24
  else if wlan ∧ c.u 32 8 ≠ 0 then some 32
  else if ((c.bytesAt 40 32).drop (keyBytes cipher)).any (fun b => decide (b ≠ 0)) then some 40
  else none

/-- WIDE_KEY_INSTALL (R262, R265, R272). -/
def wideKeyInstall : Handler where
  fields := [fRange 16 2 0 4351, fRange 18 1 1 9, fAny 19 1, fMask 20 1 7, fRange 21 1 0 2, fAny 22 2, fAny 24 8, fAny 32 8, fAny 40 32]
  run c _ s :=
    let k := c.u 16 2
    let who := laneOwner c.lane
    if c.lane ≥ 2 then (s, .reply (denied))
    else match badKey c with
      | some d => (s, .reply (badArg d))
      | none =>
        let held : Option Nat := match keyEntry s k with | some e => if e.owner = who then none else some e.owner | none => none
        match held with
        | some o => (s, .reply (denied o))
        | none =>
          let pn := if c.flag 20 1 2 then c.u 24 8 else 0
          let e : KeyEntry := { owner := who, cipher := c.u 18 1, keyId := c.u 19 1, txActive := c.flag 20 1 0, rxEnable := c.flag 20 1 1,
                                setPn := c.flag 20 1 2, radio := c.u 21 1, client := c.u 22 2, txPn := pn, keySource := c.u 32 8,
                                key := (c.bytesAt 40 32).take (keyBytes (c.u 18 1)) }
          if e.cipher = 9 then
            let s1 := { s with wide.keys := Map.erase s.wide.keys k, wide.keysNext := Map.erase s.wide.keysNext k,
                               field.fcLow := s.field.fcLow.filter (· ≠ k), field.fcCopied := Map.set s.field.fcCopied k pn }
            (stageKept (fun x => { x with wide.fieldKeys := Map.set x.wide.fieldKeys k e }) s1, .reply (ok))
          else
            let s1 := stageKept (fun x => { x with wide.fieldKeys := Map.erase x.wide.fieldKeys k }) s
            ({ s1 with wide.keysNext := Map.set s1.wide.keysNext k e }, .reply (ok))

/-- WIDE_KEY_DEL (R262, R272). -/
def wideKeyDel : Handler where
  fields := [fRange 16 2 0 4351, fZero 18 2]
  run c _ s :=
    let k := c.u 16 2
    match keyEntry s k with
    | none => (s, .reply (ok))
    | some e =>
      if e.owner ≠ laneOwner c.lane then (s, .reply (denied e.owner))
      else (stageKept (fun x => { x with wide.fieldKeys := Map.erase x.wide.fieldKeys k }) (deleteKey k e s), .reply (ok))

/-- WIDE_KEY_INFO: never the key. -/
def wideKeyInfo : Handler where
  fields := [fRange 16 2 0 4351]
  run c _ s :=
    let k := c.u 16 2
    let live := (Map.get? s.kept.wide.fieldKeys k).map (·.txPn)
    (s, .reply (match keyEntry s k with
      | none => ok (List.replicate 24 0)
      | some e => ok (le 1 e.cipher ++ le 1 e.keyId ++ le 1 (bit e.txActive + 2 * bit e.rxEnable + 4 * bit e.setPn) ++ le 1 e.radio ++
          le 1 e.owner ++ [0, 0, 0] ++ le 8 (if e.cipher = 9 then live.getD e.txPn else e.txPn) ++ le 8 (Map.getD e.rxPn (if 5 ≤ e.cipher ∧ e.cipher ≤ 8 then 0 else 16) 0))))

/-- WIDE_TWT_SET (R245, R246). -/
def wideTwtSet : Handler where
  fields := [fRange 16 1 0 1, fRange 17 1 0 7, fRange 18 1 0 1, fRange 19 1 1 8, fMask 20 1 7, fAny 21 1, fRange 22 2 20 900, fRange 24 2 1 65535,
             fAny 26 2, fRange 28 4 256 254976]
  run c _ s :=
    let kind := c.u 18 1
    let key := ((c.u 16 1 * 8 + c.u 17 1) * 2 + kind) * 16 + c.u 19 1
    let d := c.u 28 4
    let i := twtInterval (c.u 24 2)
    if kind = 1 ∧ c.u 19 1 > 4 then (s, .reply (badArg 19))
    else if i > 65535 then (s, .reply (badArg 24))
    else if c.u 26 2 ≥ c.u 24 2 then (s, .reply (badArg 26))
    else if (if d ≤ 65280 then d % 256 ≠ 0 else d % 1024 ≠ 0) then (s, .reply (badArg 28))
    else
      let g : TwtSched := { announced := c.flag 20 1 1, trigger := c.flag 20 1 2, tids := c.u 21 1, phase := c.u 22 2, interval := i, offset := c.u 26 2,
                            duration := d }
      (stageKept (fun k => { k with wide.twt := if c.flag 20 1 0 then Map.set k.wide.twt key g else Map.erase k.wide.twt key }) s, .reply (ok))

/-- WIDE_NEIGHBOUR_SET (R266). -/
def wideNeighbourSet : Handler where
  fields := [fAny 16 1, fMask 17 1 3, fRange 18 1 0 2, fRange 19 1 0 1, fAny 20 6, fAny 26 2]
  run c _ s :=
    let n := c.u 16 1
    let role := c.u 18 1
    if (if role = 1 then c.u 26 2 ≠ 0xFFFF else c.u 26 2 > 1023 ∧ c.u 26 2 ≠ 0xFFFF) then (s, .reply (badArg 26))
    else
      let station := (s.wide.clients.find? (fun e => decide (e.2.kind = 1) && decide (e.2.addr = macAt c 20))).map (·.1)
      let g : Neighbour := { enable := c.flag 17 1 0, learn := c.flag 17 1 1, role := role, radio := c.u 19 1, addr := macAt c 20,
                             client := if role = 1 then station.getD 0xFFFF else c.u 26 2 }
      (stageKept (fun k => { k with wide.neighbours := Map.set k.wide.neighbours n g }) s, .reply (ok))

/-- WIDE_ACCESS_COUNTERS (R273). -/
def wideAccessCounters : Handler where
  fields := [fRange 16 1 0 1, fOneOf 17 1 ([0, 1, 2, 3, 4, 5, 6, 7, 0xFF]), fMask 18 1 3, fMask 19 1 7]
  run c _ s :=
    let r := c.u 16 1
    let b := c.u 17 1
    let w := s.wr r
    let get (k : Nat) : Nat := tallyOf w.counts (256 * b + k)
    let body := le 1 (fieldsWord [(0, bit w.pnLowStk), (1, bit w.micStk), (2, bit w.noshowStk)]) ++ [0, 0, 0] ++ le 8 (get aOutBytes) ++ le 8 (get aInBytes) ++
      ((List.range 26).map (fun i => le 4 (get (36 + 4 * i)))).flatten
    let k (i : Nat) : Bool := c.flag 18 1 1 && c.flag 19 1 i
    (updWr r (fun w => { w with
      counts := if c.flag 18 1 0 then w.counts.filter (fun e => e.1 / 256 ≠ b) else w.counts,
      pnLowStk := w.pnLowStk && !k 0, micStk := w.micStk && !k 1, noshowStk := w.noshowStk && !k 2 }) s, .reply (ok body))

/-! ### Meanings -/

/-- WIDE_DETECT: `ago` ns before now the preamble began. -/
def execWideDetect (radio : Nat) (strength : Int) (ago : Nat) (preamble : WidePreamble) (s : State) : Out :=
  let st := s.time.mono - ago
  act (wideDetect radio strength st preamble.dsss (preamble.lsig.map (fun x => (st + x.1, st + x.1 + x.2)))) s
/-- WIDE_ACQ_ABANDON. -/
def execWideAcqAbandon (radio : Nat) (s : State) : Out := act (wideAbandon radio) s
/-- WIDE_SIG_END. -/
def execWideSigEnd (radio : Nat) (x : SigFacts) (s : State) : Out := act (wideSigEnd radio x) s
/-- WIDE_CARRIER_LOST. -/
def execWideCarrierLost (radio : Nat) (s : State) : Out := act (wideCarrierLost radio) s
/-- WIDE_PPDU_END. -/
def execWidePpduEnd (radio : Nat) (x : PpduRx) (s : State) : Out := act (ppduEnd radio x) s
/-- WIDE_EXCHANGE_START. -/
def execWideExchangeStart (radio : Nat) (a : WideAir) (s : State) : Out := act (exchangeStart radio a) s
/-- WIDE_RESPONSE_SEND. -/
def execWideResponseSend (radio : Nat) (s : State) : Out := act (responseSend radio) s
/-- WIDE_TX_END. -/
def execWideTxEnd (radio : Nat) (deviation : List Int) (s : State) : Out := act (wideTxEnd radio deviation) s
/-- WIDE_ACK_TIMEOUT. -/
def execWideAckTimeout (radio : Nat) (s : State) : Out := act (ackTimeout radio) s
/-- MSDU_LIFETIME_EXPIRY. -/
def execMsduLifetimeExpiry (queue : Nat) (s : State) : Out := act (msduExpiry queue) s
/-- PS_LIFETIME_EXPIRY. -/
def execPsLifetimeExpiry (queue : Nat) (s : State) : Out := act (psExpiry queue) s
/-- REORDER_TIMEOUT. -/
def execReorderTimeout (client tid : Nat) (s : State) : Out := act (reorderTimeout client tid) s
/-- BEACON_TBTT. -/
def execBeaconTbtt (radio airNs : Nat) (upstream : Option (Nat × Nat)) (s : State) : Out := act (beaconTbtt radio airNs upstream) s
/-- BEACON_SKIP. -/
def execBeaconSkip (radio : Nat) (s : State) : Out := act (beaconSkip radio) s
/-- TWT_SP_START. Its members are those that State holds; the list beside the key names nobody else. -/
def execTwtSpStart (key : Nat) (_ : List Nat) (s : State) : Out := act (twtStart key) s
/-- TWT_NOSHOW. -/
def execTwtNoshow (radio key : Nat) (s : State) : Out := act (twtNoshow radio key) s
/-- TWT_SP_END. -/
def execTwtSpEnd (radio key : Nat) (s : State) : Out := act (twtEnd radio key) s
/-- UPSTREAM_WINDOW_START. -/
def execUpstreamWindowStart (radio airNs total : Nat) (s : State) : Out := act (windowStart radio airNs total) s
/-- UPSTREAM_WINDOW_END. -/
def execUpstreamWindowEnd (radio airNs total : Nat) (s : State) : Out := act (windowEnd radio airNs total) s
/-- GRANT_EXPIRY. -/
def execGrantExpiry (s : State) : Out := act grantExpiry s
/-- RADAR_PULSE. -/
def execRadarPulse (radio : Nat) (s : State) : Out := act (radarPulse radio) s
/-- RADAR_CONFIRMED. -/
def execRadarConfirmed (radio hit band primary width puncture csa : Nat) (s : State) : Out :=
  act (radarConfirmed radio hit band primary width puncture csa) s
/-- CAC_END. -/
def execCacEnd (radio : Nat) (s : State) : Out := act (cacEnd radio) s
/-- NON_OCCUPANCY_END. -/
def execNonOccupancyEnd (channel : Nat) (s : State) : Out := act (nonOccupancyEnd channel) s
/-- WIDE_TEST_END. -/
def execWideTestEnd (radio : Nat) (s : State) : Out := act (wideTestEnd radio) s
/-- WIDE_CLIENT_DEL_TIMEOUT. -/
def execWideClientDelTimeout (client : Nat) (s : State) : Out := act (clientDelTimeout client) s
/-- WIDE_CHAN_SET. -/
def execWideChanSet (c : Cmd) (s : State) : Out := act (submit 0x0501 wideChanSet c) s
/-- WIDE_TXPWR_CONFIG. -/
def execWideTxpwrConfig (c : Cmd) (s : State) : Out := act (submit 0x0502 wideTxpwrConfig c) s
/-- WIDE_RX_CONFIG. -/
def execWideRxConfig (c : Cmd) (s : State) : Out := act (submit 0x0503 wideRxConfig c) s
/-- WIDE_MLD_PAIR. -/
def execWideMldPair (c : Cmd) (s : State) : Out := act (submit 0x0504 wideMldPair c) s
/-- WIDE_FTM_CONFIG. -/
def execWideFtmConfig (c : Cmd) (s : State) : Out := act (submit 0x0505 wideFtmConfig c) s
/-- WIDE_TEST. -/
def execWideTest (c : Cmd) (s : State) : Out := act (submit 0x0506 wideTest c) s
/-- WIDE_PHY_COUNTERS. -/
def execWidePhyCounters (c : Cmd) (s : State) : Out := act (submit 0x0507 widePhyCounters c) s
/-- WIDE_BSS_SET. -/
def execWideBssSet (c : Cmd) (s : State) : Out := act (submit 0x0510 wideBssSet c) s
/-- WIDE_UPSTREAM_SET. -/
def execWideUpstreamSet (c : Cmd) (s : State) : Out := act (submit 0x0511 wideUpstreamSet c) s
/-- WIDE_ACCESS_CONFIG. -/
def execWideAccessConfig (c : Cmd) (s : State) : Out := act (submit 0x0512 wideAccessConfig c) s
/-- WIDE_CLIENT_GET. -/
def execWideClientGet (c : Cmd) (s : State) : Out := act (submit 0x0513 wideClientGet c) s
/-- WIDE_CLIENT_DEL. -/
def execWideClientDel (c : Cmd) (s : State) : Out := act (submit 0x0514 wideClientDel c) s
/-- WIDE_KEY_INSTALL. -/
def execWideKeyInstall (c : Cmd) (s : State) : Out := act (submit 0x0515 wideKeyInstall c) s
/-- WIDE_KEY_DEL. -/
def execWideKeyDel (c : Cmd) (s : State) : Out := act (submit 0x0516 wideKeyDel c) s
/-- WIDE_KEY_INFO. -/
def execWideKeyInfo (c : Cmd) (s : State) : Out := act (submit 0x0517 wideKeyInfo c) s
/-- WIDE_TWT_SET. -/
def execWideTwtSet (c : Cmd) (s : State) : Out := act (submit 0x0518 wideTwtSet c) s
/-- WIDE_NEIGHBOUR_SET. -/
def execWideNeighbourSet (c : Cmd) (s : State) : Out := act (submit 0x0519 wideNeighbourSet c) s
/-- WIDE_ACCESS_COUNTERS. -/
def execWideAccessCounters (c : Cmd) (s : State) : Out := act (submit 0x051A wideAccessCounters c) s

end Sys2Proof.Machine
end

