-- ==== Sys2Proof/Machine/AirPlan.lean ====
section
/-! DEFINITION. Air plans (R338 to R356): how the Planisher computes the plans of the next beat, latches them at the plan commit, clips, repeats
or replaces them, and puts them in force. -/

namespace Sys2Proof.Machine

/-! ### Spans of a beat, in µs -/

/-- What is left of span `x` without span `y`. -/
def cutSpan (x y : Nat × Nat) : List (Nat × Nat) := ([(x.1, min x.2 y.1), (max x.1 y.2, x.2)]).filter (fun z => z.1 < z.2)

/-- What is left of spans without others. -/
def cutSpans (l ys : List (Nat × Nat)) : List (Nat × Nat) := ys.foldl (fun l y => (l.map (fun x => cutSpan x y)).flatten) l

/-- The span of an entry. -/
def PlanEntry.span (e : PlanEntry) : Nat × Nat := (e.start, e.start + e.dur)

/-- An overlay: CHAINS or TWT_SP (R339). -/
def PlanEntry.overlay (e : PlanEntry) : Bool := decide (e.kind = 1) || decide (e.kind = 8)

/-- The service time, 20 µs to 950 µs, that no entry takes (R339). -/
def freeTime (es : List PlanEntry) : List (Nat × Nat) := cutSpans [(20, 950)] ((es.filter (fun e => !e.overlay)).map PlanEntry.span)

/-- The first instant from `start` on at which `dur` µs are free. -/
def fit (free : List (Nat × Nat)) (start dur : Nat) : Option Nat :=
  free.findSome? (fun x => if max x.1 start + dur ≤ x.2 then some (max x.1 start) else none)

/-- Do two spans overlap? -/
def overlaps (x y : Nat × Nat) : Bool := decide (x.1 < y.2) && decide (y.1 < x.2)

/-! ### The planned beat -/

/-- The mode announced for beat `b` (R342, R446). -/
def modeAt (s : State) (b : Nat) : Mode :=
  match s.power.change with
  | some c => (match c.eff with | some m => if m ≤ b then c.target else s.power.mode | none => s.power.mode)
  | none =>
    match s.power.waking with
    | some w => (match w.eff with | some m => if m ≤ b then w.target else s.power.mode | none => s.power.mode)
    | none => s.power.mode

/-- An entry to Doze or Dormant has stopped radio `r` (Table 10-5, step 1). -/
def stoppedForEntry (s : State) (r : Nat) : Bool :=
  s.power.entry.any (fun e => decide (e.step ≥ 2) || (e.agreed.contains (32 + r) && (e.agreed.contains 45 || decide (e.left = .doze))))

/-- May radio `r` have chains in beat `b` (R441, R464, R558)? -/
def wideAllowed (s : State) (r b : Nat) : Bool :=
  dataPlane s && unitUp s (32 + r) && (modeAt s b).serves && decide ((chanCfg s r).band ≠ 0xFF) && !stoppedForEntry s r && decide (s.power.radiosFrom ≤ b)

/-- The channel that radio `r` has in beat `b`: that of a change due by then (R219). -/
def chanAt (s : State) (r b : Nat) : WideChan :=
  match (s.wr r).move with
  | some m => if m.eff.any (fun e => decide (e ≤ b)) ∨ m.latest.any (fun e => decide (e ≤ b)) then m.chan else chanCfg s r
  | none => chanCfg s r

/-- The operating width of radio `r` in beat `b` (R185). -/
def widthAt (s : State) (r b : Nat) : Nat := capWidth (modeAt s b) r (chanAt s r b).width

/-- Radio `r` retunes in beat `b`: nothing is placed in its first 60 µs (R219). -/
def retunes (s : State) (r b : Nat) : Bool := (s.wr r).move.any (fun m => m.eff.any (fun e => decide (e ≤ b)) || m.latest.any (fun e => decide (e ≤ b)))

/-- Entries of a beat in which the radio retunes, cut to what lies behind the first 60 µs. -/
def behindRetune (es : List PlanEntry) : List PlanEntry :=
  es.filterMap (fun e =>
    if 60 ≤ e.start then some e
    else if 60 < e.start + e.dur then some { e with start := 60, dur := e.start + e.dur - 60 } else none)

/-- Settings in force in the next beat: those accepted, with the masks that take effect at it (R352, R357). -/
def planView (s : State) : Kept :=
  let due := s.plan.maskPending.filter (fun e => e.2.beat ≤ s.beat + 1)
  let put (m : List (Nat × Masks)) (e : Nat × MaskPending) : List (Nat × Masks) :=
    let old := Map.getD m e.1 {}
    Map.set m e.1 { ap := e.2.ap.getD old.ap, up := e.2.up.getD old.up }
  { s.next with plan.masks := due.foldl put s.next.plan.masks }

/-- PLAN_AIR_CONFIG of a radio or F. -/
def airCfg (s : State) (r : Nat) : AirConfig := Map.getD s.kept.plan.air r {}

/-- The Planisher or radio `r` is on its safe plan (R349, R350). -/
def safeAir (s : State) (r : Nat) : Bool := (s.unit 4).safe || (s.unit (32 + r)).safe

/-- Is bit b of a mask set (R351)? -/
def apOpen (s : State) (r b : Nat) : Bool := hasBit (Map.getD s.kept.plan.masks r {}).ap (b % 256)
def upOpen (s : State) (r b : Nat) : Bool := hasBit (Map.getD s.kept.plan.masks r {}).up (b % 256)

/-! ### Entries by rule -/

/-- BEACON: the TBTT span of beat `b` (R234, R236), with its DTIM count. -/
def beaconEntries (s : State) (r b beaconUs : Nat) : List PlanEntry :=
  let g := beaconCfg s r
  if apOn s r ∧ !inCac s r ∧ b % beaconBeats g = g.phase then
    let d := max 1 (bssCfg s r 0).dtim
    [{ kind := 3, start := g.offset, dur := max 1 (tbttSpan s r (beaconUs * 1000) / 1000), arg := (d - ((s.wr r).tbtts + 1) % d) % d }]
  else []

/-- COEX (R347): moved to the end of a TBTT span, cut at 950 µs. -/
def coexEntries (g : AirConfig) (b : Nat) (tbtt : List (Nat × Nat)) : List PlanEntry :=
  if g.coexUs = 0 ∨ b % max 1 g.coexPeriod ≠ 0 then []
  else
    let st := match tbtt.find? (overlaps (g.coexPhase, g.coexPhase + g.coexUs)) with | some t => t.2 | none => g.coexPhase
    let fin := min 950 (st + g.coexUs)
    if st < fin then [{ kind := 0x0C, start := st, dur := fin - st }] else []

/-- The spans of a service period of `dur` µs that starts at `phase` µs of the beats with beat mod `interval` = `offset`, within beat `b`. -/
def periodSpans (b phase interval offset dur : Nat) : List (Nat × Nat) :=
  let i := max 1 interval
  let back := (b + i - offset % i) % i
  ((List.range (dur / (1000 * i) + 2)).filterMap (fun j =>
    let ago := back + j * i
    if ago > b then none
    else
      let lo := max 20 (phase - 1000 * ago)
      let hi := min 950 (phase + dur - 1000 * ago)
      if lo < hi then some (lo, hi) else none))

/-- TWT_SP overlays of beat `b` (R245 to R249): individual agreements, then schedules of enabled BSSs. -/
def twtEntries (s : State) (r b : Nat) : List PlanEntry :=
  let solo := (s.wide.twt.filter (fun e => decide (e.2.radio = r))).map (fun e =>
    (periodSpans b e.2.phase e.2.interval e.2.offset e.2.dur).map (fun x => ({ kind := 8, start := x.1, dur := x.2 - x.1, arg := e.1 % 256 } : PlanEntry)))
  let sched := (s.kept.wide.twt.filter (fun e => decide (e.1 / 256 = r) && (bssCfg s r (e.1 / 32 % 8)).enable)).map (fun e =>
    (periodSpans b e.2.phase e.2.interval e.2.offset e.2.duration).map (fun x =>
      ({ kind := 8, start := x.1, dur := x.2 - x.1, arg := 256 * (1 + e.1 / 16 % 2) + e.1 % 16 } : PlanEntry)))
  solo.flatten ++ sched.flatten

/-- UPSTREAM windows (R229, R345): `cut` are the spans cut out of them. -/
def upstreamEntries (s : State) (r b : Nat) (tbtt cut : List (Nat × Nat)) : List PlanEntry :=
  let u := upCfg s r
  if !u.enable ∨ !upOpen s r b ∨ b % (upWindows s r).1 ≠ 0 then []
  else
    let at' := (upWindows s r).2.1
    let st := match tbtt.find? (overlaps (at', 950)) with | some t => t.2 | none => at'
    let parts := cutSpans (if st < 950 then [(st, 950)] else []) cut
    ((parts.drop (parts.length - 2)).filter (fun x => x.1 + 50 ≤ x.2)).map (fun x => { kind := 2, start := x.1, dur := x.2 - x.1, arg := u.neighbour })

/-- Spans of the restricted service periods among entries. -/
def restrictedSpans (es : List PlanEntry) : List (Nat × Nat) :=
  (es.filter (fun e => decide (e.kind = 8) && decide (e.arg / 256 = 2))).map PlanEntry.span

/-- Entries of one kind over every free stretch of at least `least` µs. -/
def fillFree (kind arg least : Nat) (es : List PlanEntry) : List PlanEntry :=
  ((freeTime es).filter (fun x => x.1 + least ≤ x.2)).map (fun x => { kind := kind, start := x.1, dur := x.2 - x.1, arg := arg })

/-- The frame of a wide plan (R340, steps 2 to 4): beacon, coexistence, upstream windows, service periods, and the QUIET entries that close the
rest of the AP time. The safe plan has no coexistence window (R350). While the plan is made, an entry of kind 0 stands for the retune of R219. -/
def frameEntries (s : State) (r b beaconUs : Nat) (safe : Bool) : List PlanEntry :=
  let bcn := beaconEntries s r b beaconUs
  let tb := bcn.map PlanEntry.span
  let cx := if safe then [] else coexEntries (airCfg s r) b tb
  let tw := twtEntries s r b
  let up := upstreamEntries s r b tb (cx.map PlanEntry.span ++ restrictedSpans tw)
  let base := if retunes s r b then { kind := 0, start := 20, dur := 40 } :: behindRetune (bcn ++ cx ++ up ++ tw) else bcn ++ cx ++ up ++ tw
  base ++ (if inCac s r then fillFree 0x0D 2 1 base else if !apOpen s r b then fillFree 0x0D 0 1 base else [])

/-- Do QUIET entries close the AP time of the beat? -/
def quiet (es : List PlanEntry) : Bool := es.any (fun e => decide (e.kind = 0x0D))

/-- CHAINS and the other entries by their start. -/
def sortEntries (requested granted : Nat) (es : List PlanEntry) : List PlanEntry :=
  { kind := 1, start := 0, dur := 1000, arg := requested % 16 + 16 * (granted % 16) } ::
    sortBy (fun a c => decide (a.start ≤ c.start)) (es.filter (fun e => e.kind ≠ 0))

/-! ### Calibration windows (R346) -/

/-- A run's calibration target. -/
def CalRun.key (x : CalRun) : Nat := calKey x.id x.target x.sub x.variant

/-- Targets of unit `src` that have a step due and whose spacing has passed, for beat `b`. -/
def calDue (s : State) (src spacing b : Nat) : List CalRun :=
  (s.front.runs.filter (fun x => decide (x.target = src) && decide (x.id ≠ 4) && x.ready.isNone && decide (x.stepsDone < x.steps) && !x.running &&
    (match Map.get? s.plan.calOffer x.key with | some l => decide (l + spacing ≤ b) | none => true))).take 2

/-- CAL windows of 48 µs placed one after another, each at the first free instant. -/
def placeCals (runs : List CalRun) (es : List PlanEntry) : List PlanEntry :=
  runs.foldl (fun es x => match fit (freeTime es) 20 48 with
    | some t => es ++ [{ kind := 0x0B, flags := x.sub, start := t, dur := 48, arg := x.id }]
    | none => es) es

/-! ### Consolidation (R354, R355) -/

/-- The queues of radio `r` that hold data: neither management nor held. -/
def dataQueues (s : State) (r : Nat) : List (Nat × PQueue) :=
  s.plan.queues.filter (fun x => (queueEgress s x.1).contains (24 + r) && decide (queueRange x.1 ≠ 4))

/-- The hold horizon of a queue on radio `r`: 0 with CONSOL clear (R355). -/
def horizon (s : State) (r q : Nat) : Nat := if (airCfg s r).consol then (classSet s (classKey (24 + r) (queueClass s q))).hold else 0

/-- Is a frame of queue `q` urgent at this plan computation (R355)? -/
def urgentFrame (s : State) (r q : Nat) (f : Queued) : Bool :=
  !f.held && ((match f.seen with | some n => decide (n + horizon s r q ≤ s.beat) | none => false) ||
    ((decide (queueRange q = 1) || decide (queueRange q = 3)) && (psClient s q).isNone && decide (f.enqBeat + lifetimeOf s r q ≤ s.beat + 2)))

/-- Some queue of radio `r` holds an urgent frame or uplink demand (R355, 1). -/
def urgentData (s : State) (r : Nat) : Bool :=
  (dataQueues s r).any (fun x => x.2.frames.any (urgentFrame s r x.1) ||
    (decide (x.2.ulBytes > 0) && (match x.2.ulSeen with | some n => decide (n + horizon s r x.1 ≤ s.beat) | none => false)))

/-- Bytes waiting reach FILL_BYTES (R355, 2). -/
def fillReached (s : State) (r : Nat) : Bool :=
  (airCfg s r).consol &&
    decide ((dataQueues s r).foldl (fun t x => if (queueSet s x.1).eventHold then t else t + x.2.bytes) 0 ≥ (airCfg s r).fillBytes)

/-- A service period with a member covers the beat (R355, 3). -/
def memberPeriod (s : State) (r b : Nat) : Bool :=
  (s.wide.twt.any (fun e => decide (e.2.radio = r) && !(periodSpans b e.2.phase e.2.interval e.2.offset e.2.dur).isEmpty)) ||
    s.wide.twtMembers.any (fun e => decide (e.1 / 256 = r) && !e.2.isEmpty && (match Map.get? s.kept.wide.twt e.1 with
      | some g => (bssCfg s r (e.1 / 32 % 8)).enable && !(periodSpans b g.phase g.interval g.offset g.duration).isEmpty
      | none => false))

/-- What R355 finds for beat `b`: some ground other than FILL_BYTES, and FILL_BYTES. -/
def activeGrounds (s : State) (r b : Nat) (pol : AirPolicy) (es : List PlanEntry) (cals : Bool) : Bool × Bool :=
  let ap := apOpen s r b
  ((ap && urgentData s r) || memberPeriod s r b || es.any (fun e => decide (e.kind = 2)) || cals ||
      (!quiet es && pol.exchanges.any (fun x => decide (x.kind = 7) || decide (x.kind = 0x0A))),
    ap && fillReached s r)

/-! ### Exchanges (R322, R324, R340) -/

/-- Clients with a service period in beat `b`, with their restricted TIDs; 256: a period without restriction (R247, R249). -/
def plannedMembers (s : State) (r b : Nat) : List (Nat × Nat) :=
  (s.wide.twt.filter (fun e => decide (e.2.radio = r) && !(periodSpans b e.2.phase e.2.interval e.2.offset e.2.dur).isEmpty)).map (fun e => (e.2.client, 256)) ++
    (s.wide.twtMembers.map (fun e => match Map.get? s.kept.wide.twt e.1 with
      | some g =>
        if e.1 / 256 = r ∧ (bssCfg s r (e.1 / 32 % 8)).enable ∧ !(periodSpans b g.phase g.interval g.offset g.duration).isEmpty then
          e.2.map (fun c => (c, if e.1 / 16 % 2 = 1 then g.tids else 256))
        else []
      | none => [])).flatten

/-- May a head be selected into a planned exchange; of restricted traffic of members first, then of members, then of the rest (R247, R249). -/
def plannedHead (r : Nat) (ms : List (Nat × Nat)) (rank : Nat) (s : State) (q : Nat) (f : Queued) : Bool :=
  headOk r false s q f && (decide (queueRange q = 1) || decide (queueRange q = 3)) &&
    (match peerOf s q with
     | some c =>
       if rank = 0 then ms.any (fun m => decide (m.1 = c) && decide (m.2 ≠ 256) && decide (m.2 &&& acTids (queueAc q) ≠ 0))
       else if rank = 1 then ms.any (fun m => decide (m.1 = c)) else true
     | none => decide (rank = 2))

/-- The next frame of a planned exchange. -/
def nextPlanned (r : Nat) (ms : List (Nat × Nat)) (s : State) : State × Option (Nat × Nat × Queued) :=
  match judgeClasses (24 + r) (plannedHead r ms 0 s) 8 s with
  | (s1, some x) => (s1, some x)
  | (s1, none) =>
    match judgeClasses (24 + r) (plannedHead r ms 1 s1) 8 s1 with
    | (s2, some x) => (s2, some x)
    | (s2, none) => judgeClasses (24 + r) (plannedHead r ms 2 s2) 8 s2

/-- Frames selected into an exchange, members of the beat's service periods first and then in the order of R316, from client and relay queues. -/
def selectFrames (r : Nat) (ms : List (Nat × Nat)) : Nat → State → State × List (Nat × Queued)
  | 0, s => (s, [])
  | n + 1, s =>
    match nextPlanned r ms s with
    | (s1, none) => (s1, [])
    | (s1, some (c, q, f)) =>
      let rest := selectFrames r ms n (selectFrom (24 + r) c q f s1)
      (rest.1, (q, f) :: rest.2)

/-- Clients that may be granted uplink on radio `r`: linked, not silent (R243), not absent (R227), awake or in a service period. -/
def mayTrigger (s : State) (r c : Nat) : Bool :=
  (match linkOf s r c with | some l => !(Map.getD s.wide.links l { client := c, radio := r }).silent | none => false) &&
    decide ((s.client c).kind = 1) && !away s r c &&
    (!(s.client c).ps || (s.wr r).periods.any (fun p => p.members.contains c) || s.wide.twt.any (fun e => decide (e.2.radio = r) && decide (e.2.client = c)))

/-- Uplink demand of class `c` on radio `r` that is still ungranted, with the bytes a grant would cover and its tag (R322). -/
def demands (s : State) (r c cap : Nat) (given : List (Nat × Nat)) (users : List Nat) : List (Nat × Nat × Nat) :=
  s.plan.queues.filterMap (fun x =>
    match clientOf x.1 with
    | none => none
    | some k =>
      let left := x.2.ulBytes - Map.getD given x.1 0
      if left = 0 ∨ queueClass s x.1 ≠ c ∨ users.contains k ∨ !mayTrigger s r k then none
      else
        let l := min cap left
        some (x.1, l, finishTag (s.classRun (classKey (24 + r) c)).vUl x.2.fPrevUl l (queueSet s x.1).weight))

/-- The demand with the earliest tag; equal tags go to the lower queue number. -/
def earliestDemand : List (Nat × Nat × Nat) → Option (Nat × Nat × Nat)
  | [] => none
  | x :: l =>
    match earliestDemand l with
    | none => some x
    | some y => if tagPrecedes y.2.2 x.2.2 then some y else some x

/-- The next grant, judged from class `c` downward. -/
def judgeDemand (r cap : Nat) (given : List (Nat × Nat)) (users : List Nat) : Nat → State → State × Option (Nat × Nat × Nat × Nat)
  | 0, s => (s, none)
  | c + 1, s =>
    match earliestDemand (demands s r c cap given users) with
    | none => judgeDemand r cap given users c s
    | some (q, l, t) =>
      if shapedOut s (classKey (24 + r) c) then judgeDemand r cap given users c (planCount (24 + r) cShaped s) else (s, some (c, q, l, t))

/-- A grant charged: uplink V and F_prev take its tag, the credit is charged (R322, R323). -/
def chargeGrant (r c q l t : Nat) (s : State) : State :=
  let k := classKey (24 + r) c
  let cr := creditNow s k
  let run := s.classRun k
  updQueue q (fun p => { p with fPrevUl := t, lastUl := some k })
    { s with plan.classes := Map.set s.plan.classes k { run with vUl := t, credit := cr.1 - 256 * l, at' := cr.2 } }

/-- Up to `n` users granted: queue and bytes of each. -/
def grantUsers (r cap : Nat) : Nat → List (Nat × Nat) → List Nat → State → State × List (Nat × Nat)
  | 0, _, _, s => (s, [])
  | n + 1, given, users, s =>
    match judgeDemand r cap given users 8 s with
    | (s1, none) => (s1, [])
    | (s1, some (c, q, l, t)) =>
      let rest := grantUsers r cap n (Map.modify given q 0 (· + l)) ((q - 0x1000) / 4 :: users) (chargeGrant r c q l t s1)
      (rest.1, (q, l) :: rest.2)

/-- A plan under construction. -/
structure PlanDraft where
  entries : List PlanEntry := []
  slots : List ExchSlot := []
  /-- bytes granted so far per queue -/
  given : List (Nat × Nat) := []
deriving DecidableEq, Repr

/-- How many frames of each queue a list holds. -/
def queueCounts (l : List (Nat × Queued)) : List (Nat × Nat) := l.foldl (fun m f => Map.modify m f.1 0 (· + 1)) []

/-- One exchange of the Steward's policy placed (R340, step 6): where its time is free and it has something to carry. -/
def placeExchange (r : Nat) (x : ExchPolicy) (sd : State × PlanDraft) : State × PlanDraft :=
  let s := sd.1
  let d := sd.2
  let id := d.slots.length
  match fit (freeTime d.entries) x.start (max 1 x.dur) with
  | none => sd
  | some t =>
    let entry : PlanEntry := { kind := x.kind, start := t, dur := max 1 x.dur, arg := id }
    if x.kind = 5 then
      let g := if x.bsrp then (s, (x.polled.filter (fun c => (linkOf s r c).isSome)).map (fun c => (0x1000 + 4 * c, 0)))
        else grantUsers r x.capacity x.count d.given [] s
      if g.2.isEmpty then (g.1, d)
      else (g.1, { entries := d.entries ++ [{ entry with flags := bit x.bsrp }],
                   slots := d.slots ++ [{ id := id, kind := 5, queues := g.2, nss := x.nss, mu := x.mu, trig := x.trig, rus := x.rus, tb := x.tb, bsrp := x.bsrp }],
                   given := g.2.foldl (fun m e => Map.modify m e.1 0 (· + e.2)) d.given })
    else if x.kind = 6 then
      let g := selectFrames r (plannedMembers s r (s.beat + 1)) x.count s
      if g.2.isEmpty then (g.1, d)
      else (g.1, { d with entries := d.entries ++ [{ entry with flags := bit x.mu }],
                          slots := d.slots ++ [{ id := id, kind := 6, queues := queueCounts g.2, frames := g.2, nss := x.nss, mu := x.mu, trig := x.trig, rus := x.rus, tb := x.tb }] })
    else sd

/-- GROUP, SOUNDING and FTM entries (R340, step 5): the group delivery of a DTIM, the sequences and bursts that are due. -/
def placeDue (s : State) (r : Nat) (pol : AirPolicy) (es : List PlanEntry) : List PlanEntry :=
  let dtim : Bool := es.any (fun e => decide (e.kind = 3) && decide (e.arg = 0)) || (List.range 8).any (groupWaiting s r)
  let after := es.foldl (fun t e => if e.kind = 3 then max t (e.start + e.dur) else t) 20
  let es1 := if dtim ∧ pol.group > 0 then
      (match fit (freeTime es) after pol.group with | some t => es ++ [{ kind := 9, start := t, dur := pol.group }] | none => es)
    else es
  pol.exchanges.foldl (fun es x =>
    if x.kind = 7 ∨ x.kind = 0x0A then
      (match fit (freeTime es) x.start (max 1 x.dur) with
       | some t => es ++ [{ kind := x.kind, start := t, dur := max 1 x.dur, arg := if x.kind = 7 then (es.filter (fun e => decide (e.kind = 7))).length else x.count }]
       | none => es)
    else es) es1

/-- The beacon body that the Steward builds for beat `b` (R233, R239, R240, R246, R249). -/
def beaconBody (s : State) (r b : Nat) : BeaconBody :=
  let mine := s.kept.wide.twt.filter (fun e => decide (e.1 / 256 = r) && (bssCfg s r (e.1 / 32 % 8)).enable)
  { width := widthAt s r b,
    muEdca := (List.range 8).filter (fun k => (bssCfg s r k).enable && (bssCfg s r k).ulTrigOnly),
    twt := mine.map (fun e =>
      [e.1 / 32 % 8, e.1 / 16 % 2, e.1 % 16, bit e.2.announced + 2 * bit e.2.trigger, e.2.phase, e.2.interval, e.2.offset, e.2.duration]),
    quiet := (mine.filter (fun e => decide (e.1 / 16 % 2 = 1))).map (fun e =>
      let i := max 1 e.2.interval
      [e.1 / 32 % 8, e.1 % 16, e.2.phase, e.2.duration, (e.2.offset + i - b % i) % i]) }

/-- The body goes with the plan of a beat with a TBTT. -/
def bodyFor (es : List PlanEntry) (x : BeaconBody) : Option BeaconBody := if es.any (fun e => decide (e.kind = 3)) then some x else none

/-- The MCS and streams that a link's record proposes (R244): the highest MCS whose PER stayed below 10 % over the last 16 beats in which the link was
served, within MCS_CAP and the station's streams; none where no MCS did. -/
def LinkRec.proposal (l : LinkRec) : Option (Nat × Nat) :=
  let good (x : Nat × Nat) : Bool :=
    let mine := l.per.filter (fun p => decide (p.mcs = x.1) && decide (p.nss = x.2))
    decide ((mine.map (·.lost)).sum * 10 < (mine.map (·.sent)).sum)
  let ok' := ((l.per.map (fun p => (p.mcs, p.nss))).eraseDups).filter (fun x => good x && decide (x.1 ≤ l.mcsCap) && decide (x.2 ≤ l.caps % 8 + 1))
  ok'.foldl (fun b x => match b with
    | none => some x
    | some y => if y.1 < x.1 ∨ (y.1 = x.1 ∧ y.2 < x.2) then some x else some y) none

/-- Link adaptation of one record at a plan computation (R244): without a success in 1,000 beats it restarts at MCS 4 with one stream; where no MCS
qualifies it keeps what it had (DESIGN CHOICE, log entry 112). -/
def LinkRec.adapt (beat : Nat) (l : LinkRec) : LinkRec :=
  if l.lastOk + 1000 ≤ beat then { l with mcs := 4, nss := 1, per := [] }
  else match l.proposal with
    | some x => { l with mcs := x.1, nss := x.2 }
    | none => l

/-- Link adaptation of the records of radio `r`. -/
def adaptLinks (r : Nat) (s : State) : State :=
  { s with wide.links := Map.mapVals s.wide.links (fun _ l => if l.radio = r then l.adapt s.beat else l) }

/-- The plan of radio `r` for the next beat (R340), under the settings of that beat and with credits as they will stand at its start (R324). -/
def buildWide (r : Nat) (pol : AirPolicy) (s : State) : State × AirPlan :=
  let b := s.beat + 1
  let mode := modeAt s b
  let g := airCfg s r
  let c := chanAt s r b
  let es := frameEntries s r b pol.beaconUs false
  let cals := if quiet es then [] else calDue s (32 + r) g.calSpacing b
  let why := activeGrounds s r b pol es (!cals.isEmpty)
  let lean : Bool := decide (mode = .lean)
  let active : Bool := !lean || why.1 || why.2
  let request := if mode = .watch then 2 ^ c.listenChain else if active ∨ inCac s r then c.chainMax else if g.idleOff then 0 else 2 ^ c.listenChain
  let es1 := if quiet es ∨ !active then es
    else if mode = .watch then placeCals cals es
    else placeCals cals (placeDue s r pol es)
  let sd := if quiet es ∨ !active ∨ mode = .watch then (s, ({ entries := es1 } : PlanDraft))
    else (pol.exchanges.filter (fun x => decide (x.kind = 5) || decide (x.kind = 6))).foldl (fun sd x => placeExchange r x sd) (s, { entries := es1 })
  let es2 := sd.2.entries ++ fillFree 4 0 (max 1 g.suMin) sd.2.entries
  (sd.1, { beat := b, entries := sortEntries request 0 es2, requested := request, active := active, fill := lean && why.2 && !why.1, lean := lean,
           slots := sd.2.slots, body := bodyFor es (beaconBody s r b) })

/-- The safe air plan (R350). A beat that AP_MASK closes keeps its QUIET entries (R351). -/
def safePlan (s : State) (r beaconUs : Nat) : AirPlan :=
  let b := s.beat + 1
  let c := chanAt s r b
  let es := frameEntries s r b beaconUs true
  let request := if modeAt s b = .watch then 2 ^ c.listenChain else c.chainMax
  { beat := b, entries := sortEntries request 0 (es ++ (if quiet es then [] else fillFree 4 0 1 es)), safe := true, requested := request,
    body := bodyFor es { (s.wr r).beaconBody with width := widthAt s r b } }

/-- Users that one exchange may carry at the operating width of beat `b` (R188). -/
def maxUsers (s : State) (r b : Nat) : Nat :=
  let w := widthAt s r b
  if w ≥ 4 then 148 else if w = 3 then 74 else if w = 2 then 37 else if w = 1 then 18 else 9

/-- The clients that an exchange names. -/
def ExchSlot.users (x : ExchSlot) : List Nat := (x.queues.map (fun e => e.1 / 4)).eraseDups

/-- An exchange carries at most `n` users, four of them in one DL MU-MIMO PPDU (R188). -/
def ExchSlot.withinUsers (x : ExchSlot) (n : Nat) : Bool := decide (x.users.length ≤ n) && (!x.mu || decide (x.users.length ≤ 4))

/-- A repeated plan (R344): what belonged to a particular beat is placed afresh or dropped, exchanges are refilled as they run; one with more users
than the width of the beat carries (R188) is left out. -/
def repeatWide (s : State) (r b : Nat) : AirPlan :=
  let old := Map.getD s.plan.inForce r {}
  let us := (old.entries.foldl (fun t e => if e.kind = 3 then max t e.dur else t) 0) - (pifsNs s r) / 1000 - (beaconCfg s r).maxDelay
  let bcn := beaconEntries s r b (if us = 0 then max 1 (Config.beaconUs r) else us)
  let kept := old.entries.filter (fun e => [2, 4, 5, 6, 0x0C, 0x0D].contains e.kind && (decide (e.kind ≠ 2) || (upCfg s r).enable))
  let cut := (kept.map (fun e => (cutSpan e.span ((bcn.map PlanEntry.span).headD (0, 0))).map (fun x => { e with start := x.1, dur := x.2 - x.1 }))).flatten
  let left := if bcn.isEmpty then kept else cut
  let ups := left.filter (fun e => decide (e.kind = 2))
  let es := left.filter (fun e => decide (e.kind ≠ 2)) ++ ups.drop (ups.length - 2) ++ bcn ++ twtEntries s r b
  let after := bcn.foldl (fun t e => max t (e.start + e.dur)) 20
  let due : Bool := bcn.any (fun e => decide (e.arg = 0)) || (List.range 8).any (groupWaiting s r)
  let group := match old.entries.find? (fun e => decide (e.kind = 9)) with
    | some e => if due then (match fit (freeTime es) after e.dur with | some t => [{ e with start := t }] | none => []) else []
    | none => []
  let all := if retunes s r b then behindRetune (es ++ group) else es ++ group
  let fits := old.slots.filter (fun x => x.withinUsers (maxUsers s r b))
  let c := chanAt s r b
  let request := if modeAt s b = .watch ∨ (old.requested ≠ 0 ∧ old.requested &&& c.chainMax = 0) then 2 ^ c.listenChain else old.requested
  { old with requested := request, beat := b, repeated := true, safe := false, clipped := false,
             body := bodyFor bcn { (s.wr r).beaconBody with width := widthAt s r b }, slots := fits.map (fun x => { x with frames := [] }),
             entries := sortEntries request 0 (all.filter (fun e => !([5, 6].contains e.kind) || fits.any (fun x => decide (x.id = e.arg)))) }

/-! ### The field plan (R348) -/

/-- COEX of the field plan: while a port serves F24 or FSG (R347). -/
def fieldCoex (s : State) (b : Nat) : List PlanEntry :=
  if [0, 1].any (fun n => coexServes s n 34 || coexServes s n 35) then coexEntries (airCfg s 2) b [] else []

/-- RENDEZVOUS entries of beat `b` (R174): the sender's instant, or the listener's window. -/
def rdvEntries (s : State) (b : Nat) : List PlanEntry :=
  s.kept.field.rdv.filterMap (fun e =>
    let g := e.2
    if !g.enable ∨ (rdvRun s e.1).suspended ∨ b % max 1 g.period ≠ g.offset then none
    else if !g.listen then some { kind := 0x11, flags := 0, start := g.phaseUs, dur := 1, arg := e.1 }
    else
      let gd := (rdvGuard s g (rdvRun s e.1)) / 1000
      let lo := max 20 (g.phaseUs - gd)
      let hi := min 950 (g.phaseUs + gd + 10 * symNs (chanKey g.band g.channel) / 1000)
      some { kind := 0x11, flags := 1, start := lo, dur := max 1 (hi - lo), arg := e.1 })

/-- The field plan of the next beat. -/
def buildField (s : State) : AirPlan :=
  let b := s.beat + 1
  let mode := modeAt s b
  let listen : Bool := decide (mode ≠ .doze) || decide (b % max 1 (fcfg s).dozePeriod < (fcfg s).dozeListen)
  let bands := [0, 1].filter (fun k => bandOn s k)
  if mode = .dormant ∨ mode = .recovery ∨ !dataPlane s then { beat := b, active := false }
  else
    let safe : Bool := (s.unit 3).safe
    let cx := fieldCoex s b
    let due := if listen ∧ !safe then (bands.map (fun k => calDue s (34 + k) (airCfg s 2).calSpacing b)).flatten.take 2 else []
    let base := placeCals due cx
    let access := if listen then
        (bands.map (fun k => (freeTime base).map (fun x => ({ kind := 0x10, start := x.1, dur := x.2 - x.1, arg := k } : PlanEntry)))).flatten
      else []
    let ear := if mode = .doze ∧ listen then bands.map (fun k => ({ kind := 0x12, start := 0, dur := 1000, arg := k } : PlanEntry)) else []
    { beat := b, entries := sortBy (fun a c => decide (a.start ≤ c.start)) (base ++ access ++ ear ++ rdvEntries s b), active := !bands.isEmpty }

/-- A repeated field plan (R344). -/
def repeatField (s : State) (b : Nat) : AirPlan :=
  let old := Map.getD s.plan.inForce 2 {}
  let kept := old.entries.filter (fun e => [0x0C, 0x10, 0x12].contains e.kind)
  { old with beat := b, entries := sortBy (fun a c => decide (a.start ≤ c.start)) (kept ++ rdvEntries s b), repeated := true }

/-! ### Plan computation (R340, R341, R355) -/

/-- Frames and uplink demand present now are first seen by this computation (R355). -/
def markSeen (s : State) : State :=
  let n := s.beat
  let first (o : Option Nat) : Option Nat := match o with | some m => some m | none => some n
  { s with plan.queues := Map.mapVals s.plan.queues (fun _ p =>
      { p with frames := p.frames.map (fun f => { f with seen := first f.seen }), ulSeen := if p.ulBytes > 0 then first p.ulSeen else none }) }

/-- A computed plan that is not used: its frames go back (R320). -/
def dropComputed (i : Nat) (s : State) : State :=
  match Map.get? s.plan.computed i with
  | some p => { returnPlanned p s with plan.computed := Map.erase s.plan.computed i }
  | none => s

/-- The plan of one radio computed. -/
def computeWide (pols : List AirPolicy) (s : State) (r : Nat) : State :=
  if !wideAllowed s r (s.beat + 1) ∨ safeAir s r then s
  else
    let pol := (pols.find? (fun p => decide (p.radio = r))).getD { radio := r, beaconUs := max 1 (Config.beaconUs r) }
    let view := { s with kept := planView s, time.mono := s.time.mono + (1000000 - s.phase) }
    let x := buildWide r pol (adaptLinks r view)
    let s1 := { x.1 with kept := s.kept, time.mono := s.time.mono }
    { s1 with plan.computed := Map.set s1.plan.computed r x.2 }

/-- PLAN_COMPUTATION (R32, R340): at 500 µs of the beat, or when a job of the Planisher that overran has ended (R34); none in the settling interval
of a rebase (Table 1-9); no wide plan while the Steward is not READY, or after step 3 of an entry; none at all
while the Planisher is in unit reset. -/
def planComputation (pols : List AirPolicy) (s0 : State) : State :=
  if s0.time.computeBeat = some s0.beat ∨ s0.phase > 500000 ∧ s0.time.planCommitBeat = some s0.beat ∨ s0.time.settling ∨ !dataPlane s0 then s0
  else
    let s := [0, 1, 2].foldl (fun s i => dropComputed i s) (markSeen { afterOverrun 4 (advancePhase 500000 s0) with time.computeBeat := some s0.beat })
    let stopped : Bool := s.power.entry.any (fun e => decide (e.step ≥ 3))
    if !unitUp s 4 then s
    else
      let s1 := if s.stw.state = .ready ∧ !stopped then [0, 1].foldl (computeWide pols) s else s
      let deep : Bool := match s.power.entry with | some e => decide (e.target = .dormant) | none => false
      let idle : Bool := decide (modeAt s (s.beat + 1) = .doze) && !dozeBeat s (s.beat + 1)
      if ((stopped && deep) || idle) = true then s1
      else { s1 with plan.computed := Map.set s1.plan.computed 2 (buildField { s1 with kept := planView s1 }) }

/-! ### Plan commit (R36, R38, R241, R342) -/

/-- The operating channel of radio `r` in beat `b`: 20 MHz subchannels and puncture bitmap (R185, R219). -/
def operatingAt (s : State) (r b : Nat) : Option (Nat × Nat) :=
  let c := chanAt s r b
  match chanBlock c.band c.primary c.width, chanBlock c.band c.primary (widthAt s r b) with
  | some (l0, _, _), some (l1, k, _) => some (k, c.puncture / 2 ^ ((l1 - l0) / 20) % 2 ^ k)
  | _, _ => none

/-- R241: every user RU lies inside the operating channel and on no punctured subchannel. -/
def rusOk (s : State) (r b : Nat) (rus : List (Nat × Nat)) : Bool :=
  match operatingAt s r b with
  | some (k, punct) => rus.all (fun x => decide (x.1 + x.2 ≤ k) && (List.range x.2).all (fun i => !hasBit punct (x.1 + i)))
  | none => rus.isEmpty

/-- The TB PPDUs of a triggered exchange last at most 5.484 ms and end, with the trigger frame before them, within the exchange's entry (Table 5-2, R230). -/
def tbOk (p : AirPlan) (x : ExchSlot) : Bool :=
  decide (x.tb ≤ 5484) && (decide (x.kind ≠ 5) ||
    p.entries.all (fun e => decide (e.kind ≠ 5) || decide (e.arg ≠ x.id) || decide (x.tb = 0) || decide (x.trig + 10 + x.tb ≤ e.dur)))

/-- R229: at most two upstream windows, none without the role, within the service time and clear of the TBTT span. -/
def upstreamOk (s : State) (r : Nat) (p : AirPlan) : Bool :=
  let ups := p.entries.filter (fun e => decide (e.kind = 2))
  decide (ups.length ≤ 2) && (ups.isEmpty || (upCfg s r).enable || (Map.getD s.next.wide.upstream r {}).enable) &&
    ups.all (fun e => decide (20 ≤ e.start) && decide (e.start + e.dur ≤ 950) &&
      p.entries.all (fun x => decide (x.kind ≠ 3) || !overlaps e.span x.span))

/-- R241: is the plan within Table 5-2, R229 and R338? -/
def withinLimits (s : State) (r : Nat) (p : AirPlan) : Bool :=
  decide (p.entries.length ≤ 64) && decide (p.slots.length ≤ 32) &&
    p.slots.all (fun x => x.withinUsers (maxUsers s r p.beat) && rusOk s r p.beat x.rus && tbOk p x) && upstreamOk s r p &&
    decide (p.slots.foldl (fun t x => t + x.users.length) 0 ≤ (if r = 0 then 1024 else 512)) &&
    decide ((p.slots.map ExchSlot.users).flatten.eraseDups.length ≤ 256) &&
    decide ((p.slots.filter (fun x => x.mu && decide (x.kind = 6))).length ≤ 8) &&
    decide ((p.entries.filter (fun e => decide (e.kind = 7))).length ≤ 2)

/-- The chain mask that the power sequencer grants (R441, R550); in Watch LISTEN_CHAIN, whatever the plan requested (R190). -/
def grantMask (s : State) (r b request : Nat) : Nat :=
  if !wideAllowed s r b then 0
  else
    let c := chanAt s r b
    let a := if modeAt s b = .watch then 2 ^ c.listenChain else request &&& c.chainMax
    if s.assay.govLevel ≥ 3 then a &&& 2 ^ c.listenChain
    else if s.assay.govLevel = 2 then a &&& maskOf ((bitsSet 4 request).take 2)
    else a

/-- Does an exchange return its frames under a clipped mask (R342)? -/
def ExchSlot.clippedOut (x : ExchSlot) (granted : Nat) : Bool := x.mu || decide (x.nss > chainCount granted)

/-- PLAN_CLIPPED at most once per radio in 1,000 beats (R342, R359). -/
def tellClip (r request granted : Nat) (s : State) : State :=
  let s1 := planCount (24 + r) cPwrClip s
  if (Map.get? s.plan.lastEvent (1000 + r)).any (fun l => decide (s.beat < l + 1000)) then s1
  else
    raise 4 0x0704 (le 1 r ++ le 1 request ++ le 1 granted)
      { s1 with plan.clipStk := true, plan.lastEvent := Map.set s1.plan.lastEvent (1000 + r) s.beat }

/-- The grant judged on a plan (R342, R343). -/
def grantPlan (r : Nat) (p : AirPlan) (s : State) : State × AirPlan :=
  let g := grantMask s r p.beat p.requested
  let es := p.entries.map (fun e => if e.kind = 1 then { e with arg := p.requested % 16 + 16 * (g % 16) } else e)
  if p.requested &&& g = p.requested then (s, { p with entries := es, granted := g, clipped := false })
  else
    let out := p.slots.filter (fun x => x.clippedOut g)
    (tellClip r p.requested g (returnPlanned { p with slots := out } s),
      { p with entries := es, granted := g, clipped := true, slots := p.slots.filter (fun x => !x.clippedOut g) })

/-- The rebase beat commits no plan for the beat after it (R51). -/
def rebaseHolds (s : State) : Bool := s.time.rebase.any (fun x => decide (x.beat = s.beat))

/-- The grant on a plan is judged, and it is latched. -/
def latchPlan (r : Nat) (p : AirPlan) (s : State) : State :=
  let x := grantPlan r p s
  { x.1 with plan.latched := Map.set x.1.plan.latched r x.2 }

/-- The plan that radio `r` runs in the next beat. -/
def latchWide (s : State) (r : Nat) : State :=
  let b := s.beat + 1
  if !wideAllowed s r b then
    let s1 := dropComputed r s
    { s1 with plan.latched := Map.set s1.plan.latched r { beat := b, active := false } }
  else if safeAir s r then latchPlan r (safePlan s r (max 1 (Config.beaconUs r))) (dropComputed r s)
  else match Map.get? s.plan.computed r with
    | some p =>
      let again := latchPlan r (repeatWide s r b) (dropComputed r s)
      if rebaseHolds s ∨ p.beat ≠ b then again
      else if !(s.unit (32 + r)).complete then { again with plan.missed := Map.set again.plan.missed r p }
      else if !withinLimits s r p then accCount r none aPlanReject again
      else latchPlan r p { s with plan.computed := Map.erase s.plan.computed r }
    | none => latchPlan r (repeatWide s r b) s

/-- The field plan of the next beat. -/
def latchField (s : State) : State :=
  let done : Bool := (s.unit 34).complete || (s.unit 35).complete
  let again := repeatField s (s.beat + 1)
  let s1 := { s with plan.computed := Map.erase s.plan.computed 2 }
  if modeAt s (s.beat + 1) = .doze ∧ !dozeBeat s (s.beat + 1) then
    { s1 with plan.latched := Map.set s.plan.latched 2 { beat := s.beat + 1, active := false } }
  else match Map.get? s.plan.computed 2 with
  | some p =>
    if p.beat ≠ s.beat + 1 ∨ rebaseHolds s then { s1 with plan.latched := Map.set s.plan.latched 2 again }
    else if done then { s1 with plan.latched := Map.set s.plan.latched 2 p }
    else { s1 with plan.latched := Map.set s.plan.latched 2 again, plan.missed := Map.set s.plan.missed 2 p }
  | none => { s1 with plan.latched := Map.set s.plan.latched 2 again }

/-- The plans at a plan commit, and what they set going before their beat (R277). -/
def latchPlans (s : State) : State :=
  if !dataPlane s then s
  else
    let s1 := latchField (latchWide (latchWide { s with plan.missed := [] } 0) 1)
    fieldPlanCommit (widePlanCommit s1)

/-- The frames of a plan taken from the heads of their queues again, where they still stand there. -/
def retakeFrames (p : AirPlan) (s : State) : State × AirPlan :=
  let one (x : State × List (Nat × Queued)) (f : Nat × Queued) : State × List (Nat × Queued) :=
    let g := { f.2 with charged := true }
    if (x.1.queue f.1).frames.head? = some g then (popHead f.1 x.1, x.2 ++ [(f.1, g)]) else x
  let r := p.slots.foldl (fun (x : State × List ExchSlot) e =>
    let y := e.frames.foldl one (x.1, [])
    (y.1, x.2 ++ [{ e with frames := y.2 }])) (s, [])
  (r.1, { p with slots := r.2 })

/-- A plan whose completion is signalled on the tick of the plan commit, behind it, is latched after all (R38). -/
def lateCompletion (src : Nat) (s : State) : State :=
  let i := if src = 32 then 0 else if src = 33 then 1 else 2
  match Map.get? s.plan.missed i with
  | none => s
  | some p =>
    let s1 := { s with plan.missed := Map.erase s.plan.missed i }
    if i = 2 then { s1 with plan.latched := Map.set s1.plan.latched 2 p }
    else if !withinLimits s1 i p then accCount i none aPlanReject s1
    else
      let x := retakeFrames p (returnPlanned (Map.getD s1.plan.latched i {}) s1)
      latchPlan i x.2 x.1

/-- PLAN_COMPLETION (R36, R38) of the computation that began in the beat `computeBeat`: up to its deadline, 900 µs of that beat, and on its tick the
plan is complete; one signalled later is discarded, and the computation has overrun by what it ran over (R33): it is the Planisher's job (DESIGN
CHOICE, log entry 71). Without a computation under way there is nothing to complete. -/
def planCompletion (src : Nat) (s : State) : State :=
  match s.time.computeBeat with
  | none => s
  | some b =>
    let dead := b * 1000000 + 900000
    if s.time.planCommitBeat = some b ∧ b = s.beat ∧ s.time.planCommitTick = some s.time.acc then
      (if 32 ≤ src ∧ src ≤ 35 then lateCompletion src s else s)
    else if dead * 2 ^ 32 + s.inc ≤ s.time.acc then overrunIn b s.time.mono 4 (s.ns - dead) s
    else planCompleted src s

/-! ### The commit window -/

/-- Counters of a wide plan that comes into force (R36, Table 7-21). -/
def countPlan (r : Nat) (p : AirPlan) (s : State) : State :=
  let e := 24 + r
  let s1 := if p.repeated then planCount e cRepeat (timeCount cPlanMiss s) else s
  let s2 := if p.safe then planCount e cSafeAir s1 else s1
  if r < 2 ∧ p.lean then
    let s3 := planCount e (if p.active then cActive else cIdle) s2
    if p.fill then planCount e cFill s3 else s3
  else s2

/-- Does a CAL window of the plan of source `src` (34: F) offer itself to a target unit? -/
def calServes (src t : Nat) : Bool := decide (t = src) || (decide (src = 34) && decide (t = 35))

/-- CAL offers of a plan in force (R346). -/
def offerCals (src b : Nat) (p : AirPlan) (s : State) : State :=
  p.entries.foldl (fun s e =>
    if e.kind ≠ 0x0B then s
    else match s.front.runs.find? (fun x => decide (x.id = e.arg) && decide (x.sub = e.flags) && calServes src x.target) with
      | some x => { s with plan.calOffer := Map.set s.plan.calOffer x.key b }
      | none => s) s

/-- The plan of beat `b` of radio `r` or F in force: the one latched, or the last one again (R36). -/
def enforce (b : Nat) (s : State) (r : Nat) : State :=
  let old := Map.getD s.plan.inForce r {}
  let s0 := if r < 2 then returnPlanned old s else s
  let back := { s0 with plan.inForce := Map.set s0.plan.inForce r { old with slots := old.slots.map (fun x => { x with frames := [] }) } }
  let again := if r < 2 then repeatWide back r b else repeatField back b
  let x := match Map.get? s.plan.latched r with
    | some p => if p.beat = b then (back, p) else (returnPlanned p back, again)
    | none => (back, again)
  let open' : Bool := if r < 2 then wideAllowed s r b else true
  let p := if open' then { x.2 with granted := if r < 2 then grantMask s r b x.2.requested else 0 } else { beat := b, active := false }
  let s1 := if open' then x.1 else returnPlanned x.2 x.1
  let s2 := { s1 with plan.inForce := Map.set s1.plan.inForce r p, plan.latched := Map.erase s1.plan.latched r,
                      wide.radios := Bank.modify s1.wide.radios r (fun w => { w with beaconBody := p.body.getD w.beaconBody }) }
  let s3 := offerCals (if r < 2 then 32 + r else 34) b p s2
  if open' ∧ (r < 2 ∨ bandOn s 0 ∨ bandOn s 1) then countPlan r p s3 else s3

/-- The plans of beat `b` in force (R32), and the chains granted in it. -/
def enforcePlans (b : Nat) (s : State) : State :=
  if !dataPlane s then { s with power.chainsW1 := 0, power.chainsW2 := 0 }
  else
    let s1 := [0, 1, 2].foldl (fun s i => dropComputed i s) (enforce b (enforce b (enforce b s 0) 1) 2)
    { s1 with power.chainsW1 := (Map.getD s1.plan.inForce 0 {}).granted, power.chainsW2 := (Map.getD s1.plan.inForce 1 {}).granted }

/-- A unit reset of the Planisher (R585): the frames of a plan under computation go back first. -/
def resetPlanisher (s : State) : State := resetPlanner ([0, 1, 2].foldl (fun s i => dropComputed i s) s)

/-- PLAN_COMPLETION. -/
def execPlanCompletion (source : Nat) (s : State) : Out := act (planCompletion source) s
/-- PLAN_COMPUTATION. -/
def execPlanComputation (policy : List AirPolicy) (s : State) : Out := act (planComputation policy) s

end Sys2Proof.Machine
end

