-- ==== Sys2Proof/Machine/Boot.lean ====
section
/-! DEFINITION. Resets, the boot chain, the Ingot, factory restore, image update, host links (chapter 12). The stage that opens
the radios stands in Perform.lean, since the doorbells held until then are accepted there. -/

namespace Sys2Proof.Machine

/-! ### Counters of Table 12-13, by response offset -/

abbrev cHallmarkFail : Nat := 20
abbrev cTrialBoot : Nat := 24
abbrev cRevert : Nat := 28
abbrev cIngotCrcFail : Nat := 32
abbrev cAttest : Nat := 40

/-- A security counter incremented. -/
def bootCount (k : Nat) (s : State) : State := { s with boot.counts := tally s.boot.counts k }

/-- An event recorded before READY with the stamp of its own instant (R67), and raised there. -/
def atReady (src code : Nat) (data : List Byte) (s : State) : State :=
  { s with boot.atReady := s.boot.atReady ++ [(s.stamp, src, code, data)] }

/-- Is sequence number `a` above `b` in serial-number arithmetic modulo 2^32 (R527, R531)? -/
def seqAbove (a b : Nat) : Bool :=
  let d := (a + 2 ^ 32 - b % 2 ^ 32) % 2 ^ 32
  decide (1 ≤ d) && decide (d < 2 ^ 31)

/-! ### Images and Hallmarks -/

/-- Bytes of an image slot; a byte nothing has written is free. -/
def imgBytes (m : Memory) (off n : Nat) : List Byte := Memory.readList 0 m off n
/-- A number in an image. -/
def imgNat (m : Memory) (off n : Nat) : Nat := leNat (imgBytes m off n)

/-- The largest image slot, 24 MB (Table 12-4). -/
def slotBytes : Nat := 24 * 2 ^ 20

/-- The hash a Hallmark's PUBKEY must have (R520): a ROM key of KEY_SLOT for firmware, the owner fuses for a seed; none where the
slot is revoked or not fused. -/
def keyHash (kind keySlot : Nat) (f : Fuses) : Option (List Byte) :=
  if kind = 0 then (if keySlot < 4 ∧ !hasBit f.revoked keySlot then some (Config.romKeyHash keySlot) else none)
  else f.ownerHash

/-- What is wrong with the Hallmark at `off` that covers `len` bytes (R519, R520): none where it verifies; else 0 digest (its
layout included), 1 signature, 2 key, 3 version (Table 12-14). -/
def hallmarkFault (m : Memory) (off len kind : Nat) (f : Fuses) : Option Nat :=
  let digest := imgBytes m (off + 208) 48
  let pub := imgBytes m (off + 16) 96
  if imgNat m off 4 ≠ 0x4B524D48 ∨ imgNat m (off + 4) 1 ≠ kind ∨ imgNat m (off + 12) 4 ≠ len then some 0
  else if digest ≠ Config.sha384 (imgBytes m 0 len) then some 0
  else if !Config.ecdsaOk pub digest (imgBytes m (off + 112) 96) then some 1
  else if keyHash kind (imgNat m (off + 5) 1) f ≠ some (Config.sha384 pub) then some 2
  else if imgNat m (off + 8) 4 < f.rollback then some 3
  else none

/-- The image header's own conditions (R519). -/
def headerOk (m : Memory) : Bool :=
  decide (imgNat m 0 4 = 0x4D495842) && decide (imgNat m 4 2 = 1) && decide (imgNat m 20 1 = 0x42) &&
    decide (imgNat m 12 4 + 512 ≤ slotBytes) && decide (64 + imgNat m 8 4 + 512 ≤ imgNat m 12 4) &&
    decide (imgNat m 22 2 % 256 = imgNat m 19 1)

/-- The first Hallmark, over header and stage 1 (R519). -/
def firstFault (m : Memory) (f : Fuses) : Option Nat :=
  if !headerOk m then some 0 else hallmarkFault m (64 + imgNat m 8 4) (64 + imgNat m 8 4) 0 f

/-- The whole image: both Hallmarks verify and carry one SECURITY_VERSION (R520). -/
def imageFault (m : Memory) (f : Fuses) : Option Nat :=
  match firstFault m f with
  | some r => some r
  | none =>
    match hallmarkFault m (imgNat m 12 4) (imgNat m 12 4) 0 f with
    | some r => some r
    | none => if imgNat m (64 + imgNat m 8 4 + 8) 4 ≠ imgNat m (imgNat m 12 4 + 8) 4 then some 3 else none

/-- The image of slot 0 A, 1 B or the RAM target 2. -/
def imageOf (s : State) (slot : Nat) : Memory :=
  if slot = 0 then s.boot.flash.imageA else if slot = 1 then s.boot.flash.imageB else s.boot.ram

/-- FW_VERSION of a slot; 0 where it is not valid (Table 12-9). -/
def slotVersion (s : State) (slot : Nat) : Nat :=
  if imageFault (imageOf s slot) s.boot.fuses = none then imgNat (imageOf s slot) 16 4 else 0

/-! ### Commit records -/

/-- The valid commit record with the higher SEQ, and the copy it stands in (R531). -/
def newestRecord (f : Flash) : Option (Nat × CommitRecord) :=
  match f.rec0, f.rec1 with
  | some a, some b => if seqAbove b.seq a.seq then some (1, b) else some (0, a)
  | some a, none => some (0, a)
  | none, some b => some (1, b)
  | none, none => none

/-- The record in use; a flash with no valid record reads as slot A, permanent (log entry 13). -/
def recordNow (s : State) : CommitRecord :=
  match newestRecord s.boot.flash with
  | some (_, r) => r
  | none => { seq := 0, active := 0, trial := false }

/-- A commit record goes to the copy that does not hold the newest (R531). -/
def putRecord (r : CommitRecord) (s : State) : State :=
  match newestRecord s.boot.flash with
  | some (0, _) => { s with boot.flash.rec1 := some r }
  | _ => { s with boot.flash.rec0 := some r }

/-- The permanent record that names `slot`, one SEQ above the newest. -/
def permanentRecord (s : State) (slot : Nat) : CommitRecord :=
  { recordNow s with seq := ((recordNow s).seq + 1) % 2 ^ 32, active := slot, trial := false, trialsLeft := 0,
                     versionA := slotVersion s 0, versionB := slotVersion s 1 }

/-! ### The Ingot -/

/-- The newest valid flash copy of this device, and its region (R527, R529). -/
def newestCopy (f : Flash) : Option (Nat × IngotCopy) :=
  let own := fun c : Option IngotCopy => match c with | some x => if x.foreign = none then some x else none | none => none
  match own f.copy0, own f.copy1 with
  | some a, some b => if seqAbove b.seq a.seq then some (1, b) else some (0, a)
  | some a, none => some (0, a)
  | none, some b => some (1, b)
  | none, none => none

/-- The region a new copy is written to: the one that does not hold the newest valid copy (R527). -/
def freeRegion (f : Flash) : Nat := match newestCopy f with | some (0, _) => 1 | _ => 0

/-- SEQ of the next copy: one above the newest (R527). -/
def nextSeq (f : Flash) : Nat := match newestCopy f with | some (_, c) => (c.seq + 1) % 2 ^ 32 | none => 1

/-- A copy region erased, or written. -/
def putCopy (region : Nat) (c : Option IngotCopy) (torn : Bool) (s : State) : State :=
  if region = 0 then { s with boot.flash.copy0 := c, boot.flash.torn0 := torn }
  else { s with boot.flash.copy1 := c, boot.flash.torn1 := torn }

/-- The device records of `k` over every other value of `base` (R530). -/
def deviceRecords (k base : Kept) : Kept :=
  { base with
    assay := { k.assay with config := base.assay.config },
    power := { base.power with brownOutCnt := k.power.brownOutCnt },
    boot := { base.boot with factoryRestoreCnt := k.boot.factoryRestoreCnt } }

/-- The factory seed is valid: its Hallmark of kind 1 verifies under the owner key (R528). Its covered length is SIGNED_LEN of the
Hallmark that stands behind the records, found by BODY_LEN of its copy header. A SECRET record makes it invalid; the records'
bytes are walked by TYPE, VER, FLAGS and LEN (R526). -/
def seedHasSecret (m : Memory) (off fin fuel : Nat) : Bool :=
  match fuel with
  | 0 => false
  | fuel + 1 =>
    if off + 8 > fin then false
    else if hasBit (imgNat m (off + 3) 1) 0 then true
    else seedHasSecret m (off + 8 + (imgNat m (off + 4) 4 + 3) / 4 * 4) fin fuel

/-- Is the factory seed valid (R528)? -/
def seedValid (s : State) : Bool :=
  let m := s.boot.flash.seed
  let len := 64 + imgNat m 12 4
  decide (imgNat m 0 4 = 0x54474E49) && decide (imgNat m 4 2 = 1) && hasBit (imgNat m 6 2) 0 &&
    (hallmarkFault m len len 1 s.boot.fuses).isNone && !seedHasSecret m 64 len 65536

/-- Field key material under the device key (R264); the second time it is in the clear again. That the cipher is a keystream is the model's choice
(DESIGN CHOICE, log entry 109). -/
def sealKeys (m : List (Nat × KeyEntry)) : List (Nat × KeyEntry) :=
  Map.mapVals m (fun k e => { e with key := e.key.mapIdx (fun i b => b ^^^ Config.deviceStream k i) })

/-- What of the Kept values the Ingot holds: records with JOINING set are not Kept (R160, R181); field key material is encrypted (R264). -/
def ingotView (k : Kept) : Kept :=
  { k with field.children := k.field.children.filter (fun e => !e.2.joining), wide.fieldKeys := sealKeys k.wide.fieldKeys }

/-- The Kept values that a flash copy or the journal holds, as the key store opens them. -/
def openIngot (k : Kept) : Kept := { k with wide.fieldKeys := sealKeys k.wide.fieldKeys }

/-- KEPT_RESTORE (R528): the Kept values and RESTORE_SRC. -/
def restoreSource (s : State) : Kept × Nat :=
  let below : Kept × Nat := if seedValid s then (seedKept s.boot.flash.seed, 3) else ({}, 0)
  match newestCopy s.boot.flash with
  | some (_, c) =>
    if s.boot.warm ∧ s.boot.sramValid ∧ s.boot.journalBase = c.seq then (openIngot s.boot.journal, 1)
    else if c.deviceOnly then (deviceRecords c.kept below.1, below.2)
    else (openIngot c.kept, 2)
  | none => below

/-- Flash copies of other devices are reported and never used; copies that fail their CRC are counted (R529, Table 12-13). -/
def checkCopies (s : State) : State :=
  let foreign := fun (region : Nat) (c : Option IngotCopy) (s : State) =>
    match c with
    | some x =>
      match x.foreign with
      | some sn => atReady 41 0x0A05 (le 1 region ++ le 8 sn) { s with boot.ingotForeignStk := true }
      | none => s
    | none => s
  let torn := fun (t : Bool) (s : State) => if t then bootCount cIngotCrcFail s else s
  torn s.boot.flash.torn1 (torn s.boot.flash.torn0 (foreign 1 s.boot.flash.copy1 (foreign 0 s.boot.flash.copy0 s)))

/-- The restore at the end of RESTORING (R528, R512, R454, R553): on a warm reset the epoch and the integral run on; on a cold start
the servo is in FREE_RUN with FADJ at the Kept integral; a brown-out and a latched fault are taken up. -/
def restore (s : State) : State :=
  let (k, src) := restoreSource s
  let k1 : Kept := if s.boot.warm then { k with
    time.epoch := s.kept.time.epoch, time.integral := s.kept.time.integral } else k
  let k2 : Kept := if s.stw.lastReset = 1 ∧ !s.boot.warm then { k1 with
    power.brownOutCnt := satInc 32 k1.power.brownOutCnt } else k1
  let l := s.assay.latch
  let k3 : Kept := { k2 with
    assay.faultLog := (l.1 ++ k2.assay.faultLog).take 32,
    assay.chipWdogCnt := satAdd 32 k2.assay.chipWdogCnt l.2.1, assay.thermalTripCnt := satAdd 32 k2.assay.thermalTripCnt l.2.2 }
  let base := match newestCopy s.boot.flash with | some (_, c) => c.seq | none => 0
  let s1 := { s with
    pole.energy := (match newestCopy s.boot.flash with | some (_, c) => c.energy | none => []),
    pole.restoredBeat := (match newestCopy s.boot.flash with | some (_, c) => c.writeBeat | none => 0),
    kept := k3, next := k3, stw.restoreSrc := src, assay.latch := ([], 0, 0),
    boot.journal := ingotView k3, boot.journalBase := base, boot.sramValid := true, boot.journalBytes := 0,
    boot.pcieVendor := k3.boot.subsysVendor, boot.pcieDevice := k3.boot.subsysId,
    stw.changePending := (match newestCopy s.boot.flash with | some (_, c) => decide (c.kept ≠ ingotView k3) | none => decide (k3 ≠ ({} : Kept))) }
  let s2 := if s1.boot.warm then s1 else { s1 with time.fadj := holdFadj s1 }
  let s3 := if s.stw.lastReset = 1 ∧ !s.boot.warm then atReady 45 0x0307 (le 4 k3.power.brownOutCnt) s2 else s2
  match s3.boot.factoryBy with
  | some by' => atReady 40 0x0A06 (le 1 by' ++ le 1 src) { s3 with boot.factoryBy := none }
  | none => s3

/-- Dormant is about to be entered (R119): step 1 of its entry runs. -/
def preparing (s : State) : Bool := s.power.entry.any (fun e => decide (e.target = .dormant) && decide (e.step = 1) && e.undo.isNone)

/-- What the Ingot's working image does at a commit window, `n` beats after the last (R119, R525): a Kept value that changed is
journalled, and the conditions of a flash copy are counted; in step 1 of an entry to Dormant the change is saved before the Steward agrees. The length of an entry depends on record layouts that the spec does
not give: a free value of at least 24 bytes (log entry 12). -/
def ingotCommit (n : Nat) (s : State) : State :=
  if s.boot.stage ≠ 8 then s
  else if ingotView s.kept = s.boot.journal then
    { s with stw.quietBeats := s.stw.quietBeats + n,
             stw.pendingBeats := if s.stw.changePending then s.stw.pendingBeats + n else 0,
             stw.newerBeats := s.stw.newerBeats.map (· + n) }
  else
    let (r, s1) := draw s
    let bytes := s1.boot.journalBytes + 24 + 4 * (r % 131072)
    { s1 with boot.journal := ingotView s1.kept, boot.journalBytes := bytes,
              boot.sramValid := s1.boot.sramValid && decide (bytes ≤ 49152),
              stw.saveNow := s1.stw.saveNow || decide (bytes > 32768) || preparing s1,
              power.entry := if preparing s1 then s1.power.entry.map (fun e => { e with agreed := e.agreed.erase 45 }) else s1.power.entry,
              stw.changePending := true, stw.quietBeats := 0,
              stw.pendingBeats := if s1.stw.changePending then s1.stw.pendingBeats + n else 0,
              stw.newerBeats := if copying s1 then some ((s1.stw.newerBeats.map (· + n)).getD 0) else none }

/-- Is one of the conditions of R119 met? -/
def copyDue (s : State) : Bool :=
  s.stw.changePending && (decide (s.stw.quietBeats ≥ 1000) || decide (s.stw.pendingBeats ≥ 60000) || s.stw.saveNow)

/-- A SYS_INGOT_SAVE that waits for its copy. -/
def Job.saves (j : Job) : Bool := decide (j.opcode = 0x0105) && j.reply.isNone

/-- A SYS_RESET_CMD of kind 0 or 1 that waits for its copy (R129). -/
def Job.resets (j : Job) : Bool := decide (j.opcode = 0x0104) && decide (j.cmd.u 16 1 ≤ 1) && j.reply.isNone

/-- A flash copy is taken now: it serves whoever waits for one, DURABLE commands whose changes are in force, SYS_INGOT_SAVE, a warm reset, an
IMG_COMMIT (R119); whoever asks from here on waits for the next, where this one lacks a change. -/
def takeCopy (s : State) : State :=
  { s with stw.saveNow := false, stw.newerBeats := none,
           stw.warmReq := s.stw.warmReq.map (fun w => { w with inCopy := w.waitCopy }),
           boot.commitInCopy := s.boot.commitWaits.isSome,
           stw.jobs := s.stw.jobs.map (fun j =>
             if j.saves || j.durableFrom.any (fun b => decide (b < s.time.nextCommit)) then { j with inCopy := true } else j) }

/-- How a flash copy ends: the region and the copy that stands in it, or the DETAIL of its failure (Table 2-8). -/
abbrev CopyEnd := Except Nat (Nat × IngotCopy)

/-- Does the copy's end serve a party: one that waited when it was taken, or any where the copy holds everything there is to save? -/
def CopyEnd.serves (x : CopyEnd) (waited : Bool) (s : State) : Bool :=
  waited || (match x with
    | .ok e => decide (e.2.kept = ingotView s.kept)
    | .error _ => false)

/-- What a copy's end answers (R119, R129): the failure, or `good`. -/
def CopyEnd.reply (x : CopyEnd) (good : Nat × IngotCopy → Reply) : Reply :=
  match x with
  | .ok e => good e
  | .error d => { status := stNoResource, detail := d }

/-- SEQ and COPY as SYS_INGOT_SAVE returns them (R129). -/
def saveReply (e : Nat × IngotCopy) : Reply := ok (le 4 e.2.seq ++ le 1 e.1 ++ [0, 0, 0])

/-- The commands that the copy answers: SYS_INGOT_SAVE, and DURABLE commands whose changes it holds (R119). -/
def answerCopyJobs (x : CopyEnd) (s : State) : State :=
  let due := s.stw.jobs.filter (fun j => (j.inCopy || j.saves) && x.serves j.inCopy s)
  due.foldl (fun s j => followUp 16 j.id (respond j (x.reply (fun e => if j.saves then saveReply e else j.reply.getD (ok))) (dropJob j.id s))) s

/-- A warm reset that waited for the copy (R129): its commands are answered, and it begins 10 beats after their response, or at once; while the
Steward restarts, a commanded one once its response is written. -/
def releaseWarm (x : CopyEnd) (s : State) : State :=
  match s.stw.warmReq with
  | some w =>
    if w.waitCopy && x.serves w.inCopy s then
      let s1 := (s.stw.jobs.filter Job.resets).foldl (fun s j => completeJob j.id (x.reply (fun _ => ok)) s) s
      { s1 with stw.warmReq := some { w with waitCopy := false, due := if s.stw.state = .restarting ∧ 0 < w.delay then none else some (s.beat + w.delay) } }
    else s
  | none => s

/-- The commit record of an IMG_COMMIT of slot `slot` (R532, Table 12-9). -/
def trialRecord (c : Cmd) (slot : Nat) (s : State) : CommitRecord :=
  let v := imgNat (imageOf s slot) 16 4
  { seq := ((recordNow s).seq + 1) % 2 ^ 32, active := slot, trial := true, trialsLeft := 3, autoConfirm := c.flag 16 1 1, confirmBeats := c.u 20 4,
    versionA := if slot = 0 then v else slotVersion s 0, versionB := if slot = 1 then v else slotVersion s 1 }

/-- The commit record of IMG_COMMIT starts to be written: its point of commitment (R532). -/
def startCommitRecord (id : Nat) (s : State) : State :=
  match s.boot.update, s.job id with
  | some u, some j =>
    commitJob id { s with boot.flashJobs := s.boot.flashJobs ++ [.commit id (trialRecord j.cmd u.slot s) (j.cmd.flag 16 1 0)] }
  | _, _ => s

/-- IMG_COMMIT's wait for the copy ends (R532): its record is written, or the failed copy is its answer. -/
def releaseCommit (x : CopyEnd) (s : State) : State :=
  match s.boot.commitWaits with
  | some id =>
    if !x.serves s.boot.commitInCopy s then s
    else
      let s1 := { s with boot.commitWaits := none }
      match x with
      | .ok _ => startCommitRecord id s1
      | .error d => { completeJob id { status := stNoResource, detail := d } s1 with boot.update := none }
  | none => s

/-- Whoever waits for the copy has its end (R119, R129, R532). -/
def copyServed (x : CopyEnd) (s : State) : State := releaseCommit x (releaseWarm x (answerCopyJobs x s))

/-- A flash copy failed (R119, R526): counted and reported; the changes stay pending. -/
def copyFailed (region detail : Nat) (s : State) : State :=
  copyServed (.error detail)
    (raise 45 0x0105 (le 1 region ++ le 1 detail) { s with stw.ingotFailCnt := satInc 32 s.stw.ingotFailCnt, stw.newerBeats := none })

/-- A flash copy of the working image starts (R527): its region is erased first. -/
def startCopy (s : State) : State :=
  let region := freeRegion s.boot.flash
  let c : IngotCopy := { seq := nextSeq s.boot.flash, kept := ingotView s.kept, writeBeat := s.beat, fwVersion := s.stw.fwVersion,
                         epoch := s.kept.time.epoch, energy := s.pole.energy }
  let s1 := takeCopy (putCopy region none true s)
  { s1 with boot.flashJobs := s1.boot.flashJobs ++ [.copy region c] }

/-- INGOT_COPY_START (R119, R529): never before RESTORING has ended, one copy at a time. A copy whose records would exceed its region is not
written (R526). -/
def copyStart (s : State) : State :=
  if copyDue s ∧ s.boot.stage = 8 ∧ s.stw.state = .ready ∧ coresRun s ∧ !copying s then
    if copyFits (ingotView s.kept) then startCopy s else copyFailed (freeRegion s.boot.flash) 0x10 (takeCopy s)
  else s

/-- INGOT_COPY_DONE (R119, R527): the copy stands, and what changed since it was taken stays pending; or the region fails its CRCs and the previous
copy stands. -/
def copyDone (good : Bool) (s : State) : State :=
  match s.boot.flashJobs with
  | .copy region c :: rest =>
    let s1 := { s with boot.flashJobs := rest }
    if good then
      let more : Bool := decide (ingotView s1.kept ≠ c.kept)
      let s2 := putCopy region (some c) false { s1 with
        stw.ingotWriteCnt := satInc 32 s1.stw.ingotWriteCnt, stw.changePending := more, stw.saveNow := s1.stw.saveNow && more,
        stw.pendingBeats := s1.stw.newerBeats.getD 0, stw.newerBeats := none,
        boot.journalBase := c.seq, boot.journalBytes := 0, boot.sramValid := true,
        field.fcCopied := c.kept.wide.fieldKeys.map (fun e => (e.1, e.2.txPn)) }
      copyServed (.ok (region, c)) (raise 45 0x0104 (le 4 c.seq ++ le 1 region) s2)
    else copyFailed region 0x11 s1
  | _ => s

/-- DURABLE commands whose changes are in force and with nothing left to copy are answered (R119). -/
def durableCommit (b : Nat) (s : State) : State :=
  if s.stw.changePending then s
  else
    let due := s.stw.jobs.filter (fun j => match j.durableFrom with | some d => decide (d ≤ b) | none => false)
    due.foldl (fun s j => followUp 16 j.id (respond j (j.reply.getD (ok)) (dropJob j.id s))) s

/-! ### Resets -/

/-- A cold start or brown-out (R512, Table 12-1): everything at its Cold value but flash, fuses and the cause. -/
def coldStart (cause : Nat) (straps : Straps) (s : State) : State :=
  { State.reset with
    boot := { ({} : Boot) with flash := s.boot.flash, fuses := s.boot.fuses, straps := straps, stage := 0,
                               factoryWatch := !straps.factoryN, perstHigh := s.boot.perstHigh },
    stw.lastReset := cause, draws := s.draws, pending := s.pending, outbox := s.outbox }

/-- A flash write that a reset interrupts: a torn record or image write is lost, the rest of the flash stands (R527, R535). -/
def flashAfterReset (s : State) : Flash := s.boot.flash

/-- A warm reset begins and, at its end, the boot starts (R512, Table 12-1): the TIME domain runs on, the retained SRAM, SYS_SCRATCH,
fuses and flash stay, Kept values await their restore, everything else is at its Cold value. -/
def warmStart (cause : Nat) (recovery : Bool) (s : State) : State :=
  let t := s.time
  { State.reset with
    time := { ({} : Timebase) with
      acc := t.acc, mono := t.mono, fadj := t.fadj, fadjNext := t.fadjNext, servo := t.servo, cause := t.cause, lastTheta := t.lastTheta,
      lockRun := t.lockRun, stepRun := t.stepRun, goodRun := t.goodRun, srcBeats := t.srcBeats, stepFirst := t.stepFirst,
      stepSteady := t.stepSteady, afterDormant := t.afterDormant, nextCommit := s.beat + 1 },
    stw := { ({} : Steward) with
      scratch := s.stw.scratch, lastReset := cause, restartCnt := s.stw.restartCnt, ingotWriteCnt := s.stw.ingotWriteCnt,
      ingotFailCnt := s.stw.ingotFailCnt, batchBeat := s.beat },
    boot := { ({} : Boot) with
      flash := flashAfterReset s, fuses := s.boot.fuses, straps := s.boot.straps, stage := 0, warm := true,
      toRecovery := recovery || s.boot.toRecovery, sramValid := s.boot.sramValid, journal := s.boot.journal,
      journalBase := s.boot.journalBase, journalBytes := s.boot.journalBytes, factoryBy := s.boot.factoryBy,
      atReady := s.boot.atReady, perstHigh := s.boot.perstHigh },
    assay := { ({} : Assay) with latch := s.assay.latch, warmResets := s.assay.warmResets },
    pole.nextCapture := s.pole.nextCapture,
    kept := { ({} : Kept) with
      time := { ({} : TimeKept) with epoch := s.kept.time.epoch, integral := s.kept.time.integral } },
    next := { ({} : Kept) with
      time := { ({} : TimeKept) with epoch := s.kept.time.epoch, integral := s.kept.time.integral } },
    draws := s.draws, pending := s.pending, outbox := s.outbox }

/-- The straps sampled at the end of a warm reset (R514); the reset that ends a factory restore does not judge FACTORY_N (R530). -/
def sampleStraps (bootSrc : Nat) (factoryN : Bool) (s : State) : State :=
  { s with boot.straps := { s.boot.straps with bootSrc := bootSrc % 4, factoryN := factoryN },
           boot.factoryWatch := !factoryN && s.boot.factoryBy.isNone }

/-- WARM_RESET (R512): the warm reset that is due begins. -/
def warmReset (bootSrc : Nat) (factoryN : Bool) (s : State) : State :=
  match s.stw.warmReq with
  | some w =>
    match w.due with
    | some b => sampleStraps bootSrc factoryN (warmStart w.cause w.intoRecovery (passTo (b * 1000000) s))
    | none => s
  | none => s

/-- SYS_RESET_N_LOW (R513): 1 µs or more resets, under 100 ns is ignored, and between the two the outcome is a free choice. -/
def resetPin (lowNs : Nat) (s : State) : State :=
  if lowNs < 100 ∨ s.boot.porHeld then s
  else if lowNs ≥ 1000 then { warmStart 2 false s with boot.pinHeld := true }
  else
    let (b, s1) := drawBit s
    if b then { warmStart 2 false s1 with boot.pinHeld := true } else s1

/-- SYS_RESET_N_RISE (R513, R514): the boot starts. -/
def resetPinRise (bootSrc : Nat) (factoryN : Bool) (s : State) : State :=
  if s.boot.pinHeld then sampleStraps bootSrc factoryN { s with boot.pinHeld := false } else s

/-- BROWN_OUT (R454, R512): a cold start but for its cause, with the straps as they were sampled. -/
def brownOut (s : State) : State := if s.boot.porHeld then s else coldStart 1 s.boot.straps s

/-- SUPPLY_MONITOR_TRIP (R570): a monitored supply is out of range for its filter time: the power-on reset holds the device. -/
def supplyTrip (s : State) : State := { coldStart 0 s.boot.straps s with boot.porHeld := true }

/-- POR_RELEASE (R514, R570): the straps are sampled and the boot starts. -/
def porRelease (straps : Straps) (s : State) : State :=
  if s.boot.porHeld then { coldStart 0 straps s with boot.porHeld := false } else s

/-! ### Boot stages -/

/-- Recovery is entered (Table 12-8): no restore, lanes at their Cold settings with lane 3 open; PWR_MODE changes. -/
def enterRecovery (s : State) : State :=
  { modeChanges s with
    stw.state := .recovery, power.mode := .recovery, boot.stage := 9, boot.toRecovery := false, stw.restoreSrc := 0,
    power.modeSince := s.beat, assay.chipWdog := 0 }

/-- FAULT_ENTRY (R523): entry counts as the start of a Steward restart for the chip watchdog. -/
def enterFault (code : Nat) (s : State) : State := { s with stw.state := .fault, stw.faultCode := code, assay.chipWdog := 0 }

/-- A failed Hallmark is recorded for the Steward (R521). -/
def hallmarkFailed (slot reason : Nat) (s : State) : State :=
  bootCount cHallmarkFail (atReady 40 0x0A01 (le 1 slot ++ le 1 reason) { s with boot.hallmarkFailStk := true })

/-- The slot that runs is chosen and trials are spent (R531, R533). -/
def chooseSlot (s : State) : State :=
  let r := recordNow s
  if r.trial then
    if r.trialsLeft > 0 then
      let s1 := putRecord { r with seq := (r.seq + 1) % 2 ^ 32, trialsLeft := r.trialsLeft - 1 } s
      bootCount cTrialBoot (atReady 40 0x0A02 (le 1 r.active ++ le 1 (r.trialsLeft - 1))
        { s1 with stw.imageSlot := r.active, stw.trialBoot := true })
    else
      let other := 1 - r.active
      let s1 := putRecord (permanentRecord s other) s
      bootCount cRevert (atReady 40 0x0A04 (le 1 other ++ le 4 (imgNat (imageOf s r.active) 16 4))
        { s1 with stw.imageSlot := other, stw.trialBoot := false, boot.revertStk := true })
  else { s with stw.imageSlot := r.active % 2, stw.trialBoot := false }

/-- The running image's identity (Table 2-13, R519). -/
def runImage (slot : Nat) (s : State) : State :=
  let m := imageOf s slot
  { s with stw.fwVersion := imgNat m 16 4, stw.fwBuild := imgNat m 22 2, boot.runningSecVer := imgNat m (imgNat m 12 4 + 8) 4 }

/-- HALLMARK_CHECK of stage 1 (R521): the active slot, else the other with a permanent record naming it, else Recovery. -/
def bootSlot (s : State) : State :=
  let a := s.stw.imageSlot
  match firstFault (imageOf s a) s.boot.fuses with
  | none => runImage a { s with stw.state := .booting, boot.stage := 4, assay.chipWdog := 0 }
  | some r =>
    let s1 := hallmarkFailed a r s
    match firstFault (imageOf s1 (1 - a)) s1.boot.fuses with
    | none =>
      let s2 := putRecord (permanentRecord s1 (1 - a)) s1
      runImage (1 - a) { s2 with stw.imageSlot := 1 - a, stw.trialBoot := false, stw.state := .booting, boot.stage := 4,
                                 assay.chipWdog := 0 }
    | some r2 => enterRecovery (hallmarkFailed (1 - a) r2 s1)

/-- The full Hallmark, found bad by stage 1, leads to the same outcomes through a warm reset (R521); its recorded cause is COMMAND,
the firmware's own request (log entry 13). -/
def fullImage (s : State) : State :=
  let slot := if s.boot.hostRun then 2 else s.stw.imageSlot
  match imageFault (imageOf s slot) s.boot.fuses with
  | none => { s with stw.state := .restoring, boot.stage := 6 }
  | some r =>
    let s1 := hallmarkFailed slot r s
    let other := 1 - s.stw.imageSlot
    if imageFault (imageOf s1 other) s1.boot.fuses = none ∧ !s.boot.hostRun then
      let s2 := putRecord (permanentRecord s1 other) s1
      { s2 with stw.warmReq := some { due := some s.beat, cause := 3 } }
    else { s1 with stw.warmReq := some { intoRecovery := true, due := some s.beat, cause := 3 } }

/-- BOOT_STAGE up to the restore (R515, Table 12-3); the last stage stands in Perform.lean. -/
def bootStage (f : BootFacts) (s : State) : State :=
  if s.stw.state = .fault ∨ s.stw.state = .recovery ∨ s.stw.warmReq.isSome then s
  else if s.boot.stage = 0 then { s with boot.stage := 1, stw.state := .rom }
  else if s.boot.stage = 1 then
    if !f.keyStoreOk then enterFault 1 s
    else if !f.fuseStable then enterFault 2 s
    else { s with boot.stage := 2, power.op := 1, power.confirmedOp := 1 }
  else if s.boot.stage = 2 then
    if s.boot.toRecovery ∨ s.boot.straps.bootSrc = 1 then enterRecovery s
    else if s.boot.straps.bootSrc ≥ 2 then { s with boot.stage := 3 }
    else { chooseSlot s with boot.stage := 3 }
  else if s.boot.stage = 3 then
    if hostLoading s then
      -- the ROM waits for the host's image (R532); a verified one runs
      if s.boot.hostRun then runImage 2 { s with stw.state := .booting, boot.stage := 4, assay.chipWdog := 0 } else s
    else if !f.sramOk then enterFault 4 s
    else bootSlot s
  else if s.boot.stage = 4 then
    -- the Ingot copies are checked beside the DRAM tests
    if !f.dramOk then enterFault 3 (checkCopies s) else { checkCopies s with boot.stage := 5 }
  else if s.boot.stage = 5 then fullImage s
  else if s.boot.stage = 6 then { restore s with boot.stage := 7 }
  else s

/-! ### Factory restore and confirmation -/

/-- A factory restore is carried out (R530): a DEVICE_ONLY copy with the device records, counted and reported as every flash copy is (R131, R132), both
other copies, one in flight too, and the retained SRAM invalid, and a warm reset 10 beats later. -/
def factoryRestore (by' : Nat) (s : State) : State :=
  let s1 := setKept (fun k => { k with boot.factoryRestoreCnt := satInc 32 k.boot.factoryRestoreCnt }) s
  let region := freeRegion s1.boot.flash
  let c : IngotCopy := { seq := nextSeq s1.boot.flash, deviceOnly := true, kept := deviceRecords s1.kept {}, writeBeat := s1.beat,
                         fwVersion := s1.stw.fwVersion, epoch := s1.kept.time.epoch }
  let s2 := raise 45 0x0104 (le 4 c.seq ++ le 1 region) (putCopy region (some c) false (putCopy (1 - region) none false
    { s1 with stw.ingotWriteCnt := satInc 32 s1.stw.ingotWriteCnt,
              boot.flashJobs := s1.boot.flashJobs.filter (fun j => match j with | .copy _ _ => false | _ => true) }))
  { s2 with boot.sramValid := false, boot.factoryBy := some by', boot.factoryWatch := false,
            stw.changePending := false, stw.saveNow := false,
            stw.warmReq := some { due := some (s.beat + 10), cause := 3 } }

/-- FACTORY_STRAP_TIMEOUT (R530): the strap low 5 s after its sample; watched from BOOTING on, in READY and in Recovery. -/
def factoryStrap (s : State) : State :=
  if s.boot.factoryWatch ∧ (s.stw.state = .booting ∨ s.stw.state = .restoring ∨ s.stw.state = .ready ∨ s.stw.state = .recovery) then
    factoryRestore 0 s
  else s

/-- A confirmation's writes start (R534). -/
def startConfirm (asker : Option Nat) (s : State) : State :=
  { s with boot.flashJobs := s.boot.flashJobs ++ [.confirm asker (permanentRecord s s.stw.imageSlot)] }

/-- Is a confirmation already being written? -/
def confirming (s : State) : Bool := s.boot.flashJobs.any (fun j => match j with | .confirm _ _ => true | _ => false)

/-- AUTO_CONFIRM (R534): CONFIRM_BEATS of READY operation without a Steward restart. -/
def autoConfirm (s : State) : State :=
  let r := recordNow s
  if s.stw.trialBoot ∧ r.trial ∧ r.autoConfirm ∧ s.boot.trialBeats ≥ r.confirmBeats ∧ s.stw.state = .ready ∧ !confirming s then
    startConfirm none s
  else s

/-- FLASH_PROGRAMME_DONE (R532, R534): the write in progress ends; a read-back that differs fails it. -/
def programmeDone (good : Bool) (s : State) : State :=
  match s.boot.flashJobs with
  | [] => s
  | .copy _ _ :: _ => s
  | .image id target off bytes :: rest =>
    let s1 := { s with boot.flashJobs := rest }
    if !good then completeJob id { status := stNoResource, detail := 0x11 } s1
    else
      let s2 := if target = 0 then { s1 with boot.flash.imageA := Memory.writeList s1.boot.flash.imageA off bytes }
        else { s1 with boot.flash.imageB := Memory.writeList s1.boot.flash.imageB off bytes }
      completeJob id (ok) s2
  | .seed id off bytes :: rest =>
    let s1 := { s with boot.flashJobs := rest }
    if !good then completeJob id { status := stNoResource, detail := 0x11 } s1
    else completeJob id (ok) { s1 with boot.flash.seed := Memory.writeList s1.boot.flash.seed off bytes }
  | .commit id r activate :: rest =>
    let s1 := { s with boot.flashJobs := rest, boot.update := none }
    if !good then completeJob id { status := stNoResource, detail := 0x11 } s1
    else
      let s2 := completeJob id (ok) (putRecord r s1)
      if activate ∧ s2.stw.warmReq = none then { s2 with stw.warmReq := some { due := some (s.beat + 10), cause := 3 } } else s2
  | .confirm asker r :: rest =>
    let s1 := { s with boot.flashJobs := rest }
    if !good then completeAsker asker { status := stNoResource, detail := 0x11 } s1
    else
      let f := max s.boot.fuses.rollback s.boot.runningSecVer
      let s2 := { putRecord r s1 with boot.fuses.rollback := f, stw.trialBoot := false }
      completeAsker asker (ok) (raise 40 0x0A03 (le 1 s.stw.imageSlot ++ le 4 s.stw.fwVersion ++ le 1 f) s2)

/-! ### Commands -/

/-- R540: lanes 0, 1 and 2, and lane 3 in Recovery. -/
def secLane (c : Cmd) (s : State) : Bool := decide (c.lane ≤ 2) || decide (s.stw.state = .recovery)

/-- A security command's work, behind the lane rule of R540. -/
def secWork (f : Cmd → Nat → State → State × Verdict) (c : Cmd) (id : Nat) (s : State) : State × Verdict :=
  if secLane c s then f c id s else (s, .reply (denied))

/-- SYS_INGOT_SAVE (R129): with nothing pending it returns the present copy's values; SEQ 0 and COPY 0 where there is no copy (DESIGN CHOICE, log
entry 80). -/
def sysIngotSave : Handler where
  fields := []
  run _ _ s :=
    if s.stw.changePending then ({ s with stw.saveNow := true }, .wait true 0 0)
    else match newestCopy s.boot.flash with
      | some e => (s, .reply (saveReply e))
      | none => (s, .reply (ok (le 4 0 ++ le 1 0 ++ [0, 0, 0])))

/-- SEC_INFO (Table 12-12). -/
def secInfo : Handler where
  fields := []
  run := secWork fun _ _ s =>
    let r := recordNow s
    let (copy, seq) := match newestCopy s.boot.flash with | some (k, c) => (k, c.seq) | none => (0, 0)
    (s, .reply (ok (le 1 r.active ++ le 1 (bit r.trial) ++ le 1 r.trialsLeft ++ le 1 s.boot.fuses.rollback ++
      le 4 r.versionA ++ le 4 r.versionB ++ le 4 seq ++ le 1 copy ++ le 1 s.stw.restoreSrc ++
      le 1 (bit s.boot.fuses.ownerHash.isSome + 2 * bit (seedValid s)) ++ [0])))

/-- SEC_ATTEST (R524, Table 12-6): the signature's bits are a computation over a key that never leaves the store: free bytes. -/
def secAttest : Handler where
  fields := [fAny 16 32]
  run := secWork fun c _ s =>
    let m := imageOf s (if s.boot.hostRun then 2 else s.stw.imageSlot)
    let seq := match newestCopy s.boot.flash with | some (_, x) => x.seq | none => 0
    let body := c.bytesAt 16 32 ++ le 8 Config.serial ++ le 4 s.stw.fwVersion ++ le 1 s.boot.runningSecVer ++
      le 1 s.boot.fuses.rollback ++
      le 1 (fieldsWord [(0, s.stw.imageSlot), (1, bit s.stw.trialBoot), (2, s.stw.restoreSrc),
        (4, bit s.boot.fuses.ownerHash.isSome)]) ++ [0] ++
      imgBytes m (imgNat m 12 4 + 208) 48 ++ le 4 seq ++ s.stamp.bytes
    let sig := (List.range 96).map (Config.digestByte s.draws)
    (bootCount cAttest { s with draws := s.draws + 1 }, .reply (ok (body ++ sig)))

/-- Bytes a command writes into its bulk region (R101). -/
def writeBulk (c : Cmd) (bytes : List Byte) (s : State) : State :=
  updLane c.lane (fun l => { l with bulk := Memory.writeList l.bulk c.bulkOff bytes }) s

/-- SEC_CERT_READ (Table 12-12): from OFFSET, as much of the chain as the bulk region takes. -/
def secCertRead : Handler where
  fields := [fAny 16 4]
  run := secWork fun c _ s =>
    if !hasBit c.flags 0 then (s, .reply (badArg 0))
    else
      let off := c.u 16 4
      let n := min c.bulkLen (Config.certLength - off)
      (writeBulk c ((List.range n).map (fun i => Config.certByte (off + i))) s,
        .reply { body := le 4 n ++ le 4 Config.certLength, bulkOut := n })

/-- SEC_KEY_SET (R540): the lane 2 key, Kept, or the owner key hash, fused once. -/
def secKeySet : Handler where
  fields := [fRange 16 1 0 1, fZero 17 3, fAny 20 48]
  run := secWork fun c _ s =>
    let own : Bool := decide (c.lane ≤ 1) || (decide (c.lane = 2) && decide (c.u 16 1 = 0))
    if !own then (s, .reply (denied))
    else if c.u 16 1 = 0 then (stageKept (fun k => { k with boot.lane2Key := some (c.bytesAt 20 16) }) s, .reply (ok))
    else if s.boot.fuses.ownerHash.isSome then (s, .reply (denied))
    else ({ s with boot.fuses.ownerHash := some (c.bytesAt 20 48) }, .reply (ok))

/-- IMG_BEGIN (R532). -/
def imgBegin : Handler where
  fields := [fRange 16 1 0 2, fZero 17 3, fRange 20 4 0 (slotBytes - 512), fRange 24 1 0 63, fZero 25 3]
  run := secWork fun c _ s =>
    let slot := c.u 16 1
    let host := hostLoading s
    let other : Option Nat := match s.boot.update with
      | some u => if u.lane ≠ c.lane then some u.lane else none
      | none => none
    match other with
    | some n => (s, .reply (denied (laneOwner n)))
    | none =>
      if slot = (recordNow s).active ∨ (slot = 2 ∧ !host) ∨ (slot ≠ 2 ∧ host) ∨ (recordNow s).trial ∨
          c.u 24 1 < s.boot.fuses.rollback then (s, .reply (denied))
      else ({ s with boot.update := some { lane := c.lane, slot := slot, imageLen := c.u 20 4, secVer := c.u 24 1 } }, .reply (ok))

/-- The open update of the command's lane, or its refusal (R532). -/
def ownUpdate (c : Cmd) (s : State) : Except Reply ImageUpdate :=
  match s.boot.update with
  | some u => if u.lane = c.lane then .ok u else .error (denied (laneOwner u.lane))
  | none => .error (denied)

/-- The bytes of a command's bulk region (R101); bytes that nothing wrote are free. -/
def readBulk (c : Cmd) (s : State) : List Byte := Memory.readList s.draws (s.lane c.lane).bulk c.bulkOff c.bulkLen

/-- IMG_WRITE (R532): erased, programmed and read back; the RAM target of a host load is written at once. -/
def imgWrite : Handler where
  fields := [fAny 16 4, fZero 20 4]
  run := secWork fun c id s =>
    if !hasBit c.flags 0 then (s, .reply (badArg 0))
    else match ownUpdate c s with
      | .error r => (s, .reply r)
      | .ok u =>
        let off := c.u 16 4
        let bytes := readBulk c s
        if off + c.bulkLen > u.imageLen + 512 then (s, .reply (badArg 16))
        else if u.slot = 2 then
          ({ s with boot.ram := Memory.writeList s.boot.ram off bytes, draws := s.draws + 65536 }, .reply (ok))
        else ({ s with boot.flashJobs := s.boot.flashJobs ++ [.image id u.slot off bytes], draws := s.draws + 65536 }, .wait true 0 0)

/-- IMG_COMMIT (R532): verified; then the flash copy where a change is pending; then the commit record, which is its point of
commitment. A RAM image is verified and run. -/
def imgCommit : Handler where
  fields := [fMask 16 1 3, fZero 17 3, fRange 20 4 1000 4000000]
  run := secWork fun c id s =>
    match ownUpdate c s with
    | .error r => (s, .reply r)
    | .ok u =>
      if (imageFault (imageOf s u.slot) s.boot.fuses).isSome then
        ({ s with boot.update := none }, .reply { status := stDenied, detail := 0x10 })
      else if u.slot = 2 then ({ s with boot.update := none, boot.hostRun := true }, .reply (ok))
      else if s.stw.changePending ∧ s.stw.state ≠ .recovery then
        ({ s with boot.commitWaits := some id, boot.commitInCopy := false, stw.saveNow := true }, .wait false 0 0)
      else ({ s with boot.flashJobs := s.boot.flashJobs ++ [.commit id (trialRecord c u.slot s) (c.flag 16 1 0)] }, .wait true 0 0)

/-- IMG_CONFIRM (R534): outside a trial it is answered OK with nothing changed. -/
def imgConfirm : Handler where
  fields := []
  run := secWork fun _ id s =>
    if s.stw.trialBoot ∧ (recordNow s).trial ∧ !confirming s then (startConfirm (some id) s, .wait true 0 0)
    else (s, .reply (ok))

/-- SEC_FACTORY_RESTORE (R530, R540). -/
def secFactoryRestore : Handler where
  fields := [fOneOf 16 4 [0x5A5A0F0F]]
  run := secWork fun c _ s => if c.lane ≤ 1 then (factoryRestore 1 s, .reply (ok)) else (s, .reply (denied))

/-- SEED_WRITE (R540): into the 512 KB seed region. -/
def seedWrite : Handler where
  fields := [fAny 16 4, fZero 20 4]
  run := secWork fun c id s =>
    if !hasBit c.flags 0 then (s, .reply (badArg 0))
    else if c.u 16 4 + c.bulkLen > 512 * 1024 then (s, .reply (badArg 16))
    else ({ s with boot.flashJobs := s.boot.flashJobs ++ [.seed id (c.u 16 4) (readBulk c s)], draws := s.draws + 65536 },
      .wait true 0 0)

/-- SEC_PCIE_IDS (R536): Kept; the endpoint presents them from the next warm reset. -/
def secPcieIds : Handler where
  fields := [fAny 16 2, fAny 18 2]
  run := secWork fun c _ s =>
    (stageKept (fun k => { k with boot.subsysVendor := c.u 16 2, boot.subsysId := c.u 18 2 }) s, .reply (ok))

/-- SEC_COUNTERS (Table 12-13); FACTORY_RESTORE_CNT is Kept. -/
def secCounters : Handler where
  fields := [fMask 16 1 3, fMask 17 1 7, fZero 18 2]
  run := secWork fun c _ s =>
    let body := le 1 (bit s.boot.hallmarkFailStk + 2 * bit s.boot.revertStk + 4 * bit s.boot.ingotForeignStk) ++ [0, 0, 0] ++
      tallyBytes s.boot.counts 20 4 ++ le 4 s.kept.boot.factoryRestoreCnt ++ le 4 (tallyOf s.boot.counts cAttest)
    let s1 := if c.flag 16 1 0 then
        setKept (fun k => { k with boot.factoryRestoreCnt := 0 }) { s with boot.counts := [] } else s
    let clr := fun i => c.flag 16 1 1 && c.flag 17 1 i
    ({ s1 with boot.hallmarkFailStk := s.boot.hallmarkFailStk && !clr 0, boot.revertStk := s.boot.revertStk && !clr 1,
               boot.ingotForeignStk := s.boot.ingotForeignStk && !clr 2 }, .reply (ok body))

/-! ### Meanings -/

/-- INGOT_COPY_START. -/
def execIngotCopyStart (s : State) : Out := act copyStart s
/-- INGOT_COPY_DONE. -/
def execIngotCopyDone (ok : Bool) (s : State) : Out := act (copyDone ok) s
/-- SYS_INGOT_SAVE. -/
def execSysIngotSave (c : Cmd) (s : State) : Out := act (submit 0x0105 sysIngotSave c) s
/-- WARM_RESET. -/
def execWarmReset (bootSrc : Nat) (factoryN : Bool) (s : State) : Out := act (warmReset bootSrc factoryN) s
/-- SYS_RESET_N_LOW. -/
def execSysResetNLow (lowNs : Nat) (s : State) : Out := actAlways (resetPin lowNs) s
/-- SYS_RESET_N_RISE. -/
def execSysResetNRise (bootSrc : Nat) (factoryN : Bool) (s : State) : Out := actAlways (resetPinRise bootSrc factoryN) s
/-- BROWN_OUT. -/
def execBrownOut (s : State) : Out := actAlways brownOut s
/-- SUPPLY_MONITOR_TRIP. -/
def execSupplyMonitorTrip (supply : Nat) (s : State) : Out := actAlways (fun s => if supply < 4 then supplyTrip s else s) s
/-- POR_RELEASE: with TEST_MODE at 1 the manual does not apply (Table 12-2), and the model stops by name. -/
def execPorRelease (bootSrc sbAddr : Nat) (factoryN testMode : Bool) (s : State) : Out :=
  if testMode ∧ s.boot.porHeld then .refused .testMode
  else actAlways (porRelease { bootSrc := bootSrc % 4, sbAddr := sbAddr % 8, factoryN := factoryN }) s
/-- FACTORY_STRAP_TIMEOUT. -/
def execFactoryStrapTimeout (s : State) : Out := act factoryStrap s
/-- AUTO_CONFIRM. -/
def execAutoConfirm (s : State) : Out := act autoConfirm s
/-- FLASH_PROGRAMME_DONE. -/
def execFlashProgrammeDone (ok : Bool) (s : State) : Out := act (programmeDone ok) s
/-- PERST_N_RISE (R536): the endpoint trains; the link's own coming up is PCIE_LINK_UP. -/
def execPerstNRise (s : State) : Out := act (fun s => { s with boot.perstHigh := true }) s
/-- SEC_INFO. -/
def execSecInfo (c : Cmd) (s : State) : Out := act (submit 0x0A01 secInfo c) s
/-- SEC_ATTEST. -/
def execSecAttest (c : Cmd) (s : State) : Out := act (submit 0x0A02 secAttest c) s
/-- SEC_CERT_READ. -/
def execSecCertRead (c : Cmd) (s : State) : Out := act (submit 0x0A03 secCertRead c) s
/-- SEC_KEY_SET. -/
def execSecKeySet (c : Cmd) (s : State) : Out := act (submit 0x0A04 secKeySet c) s
/-- IMG_BEGIN. -/
def execImgBegin (c : Cmd) (s : State) : Out := act (submit 0x0A05 imgBegin c) s
/-- IMG_WRITE. -/
def execImgWrite (c : Cmd) (s : State) : Out := act (submit 0x0A06 imgWrite c) s
/-- IMG_COMMIT. -/
def execImgCommit (c : Cmd) (s : State) : Out := act (submit 0x0A07 imgCommit c) s
/-- IMG_CONFIRM. -/
def execImgConfirm (c : Cmd) (s : State) : Out := act (submit 0x0A08 imgConfirm c) s
/-- SEC_FACTORY_RESTORE. -/
def execSecFactoryRestore (c : Cmd) (s : State) : Out := act (submit 0x0A09 secFactoryRestore c) s
/-- SEED_WRITE. -/
def execSeedWrite (c : Cmd) (s : State) : Out := act (submit 0x0A0A seedWrite c) s
/-- SEC_PCIE_IDS. -/
def execSecPcieIds (c : Cmd) (s : State) : Out := act (submit 0x0A0B secPcieIds c) s
/-- SEC_COUNTERS. -/
def execSecCounters (c : Cmd) (s : State) : Out := act (submit 0x0A0C secCounters c) s

end Sys2Proof.Machine
end

