-- ==== Sys2Proof/Machine/Frontend.lean ====
section
/-! DEFINITION. The front-end controller (chapter 6): losses of lock, waiting transmissions, PA time-outs, bypass pins, the coexistence ports,
and its commands. -/

namespace Sys2Proof.Machine

/-! ### Losses of lock (R278) -/

/-- The transmission of a field chain is cut: an acknowledgement ends, a frame in access is unacknowledged (R278), one
that waited behind the transmission tries again. `slots` is the back-off drawn. -/
def cutField (chain slots : Nat) (s : State) : State :=
  let src := fieldSource chain
  match Map.get? s.front.tx src with
  | none => s
  | some t =>
    let s1 := endRadio src true s
    if t.kind = 3 then s1
    else match (s1.fchain chain).sendingAck, (s1.fchain chain).other with
      | some (_, k), _ => resumeAccess chain (ackOutcome k 2 (updFchain chain (fun c => { c with sendingAck := none }) s1))
      | none, some (ch, id) => resumeAccess chain (fieldDone ch 1 none { id := id } (updFchain chain (fun c => { c with other := none }) s1))
      | none, none => (match (s1.fchain chain).access with
        | some a => if a.stage = 2 then noAck chain slots s1 else s1
        | none => s1)

/-- Receptions on the channels of a field chain end SYNC_LOST; acquisitions are dropped. -/
def dropField (chain : Nat) (s : State) : State :=
  s.field.rx.foldl (fun s x =>
    if chainOf x.1 ≠ chain then s
    else match x.2 with
      | .idle => s
      | .acquiring _ _ _ => setRx x.1 .idle s
      | .receiving r => endReception x.1 3 fSyncLost (setRx x.1 (.receiving { r with next := none }) s)) s

/-- Receptions of a wide radio end CARRIER_LOST; acquisitions are dropped. -/
def dropWide (r : Nat) (s : State) : State :=
  let s1 := updWr r (fun x => { x with rxNext := .idle }) s
  match (s1.wr r).rx with
  | .receiving _ _ _ _ _ _ => endPpdu r 6 pCarrierLost s1
  | .acquiring _ _ _ _ l _ =>
    if pastLsig l s1.time.mono then endPpdu r 6 pCarrierLost s1 else updWr r (fun x => { x with rx := .idle }) s1
  | .idle => s1

/-- SYNTH_UNLOCK (R278): transmissions cut, receptions lost, the relock from OFF; counted, with the losses of the last 1,000 beats. -/
def synthUnlock (i slots : Nat) (s : State) : State :=
  if i ≥ 5 ∨ !synthReady s i then s
  else
    let src := synthRadio i
    let s1 := if i < 2 then dropWide i (cutWide i s)
      else if i = 2 then dropField 0 s
      else if i = 3 then cutField 0 slots s
      else dropField 1 (cutField 1 slots s)
    let s2 := updSynth i (fun y => { y with
      state := .settling, lockAt := s1.time.mono + offLockNs i, losses := (s1.beat :: y.losses).filter (fun b => b + 1000 > s1.beat) }) s1
    let s3 := frontCount src cRelock (frontCount src cUnlock { s2 with front.unlockStk := true })
    raise 36 0x0C03 (le 1 i ++ le 1 (s3.synth i).losses.length) s3

/-! ### Waiting transmissions (R279 to R282) -/

/-- The last local instant at which the waiting transmission of radio `src` can still start within its window (R281). -/
def lastStart (s : State) (src : Nat) : Nat :=
  let at' (ns : Nat) : Nat := s.time.mono + ns - s.phase
  if src ≥ 34 then at' 950000
  else match (s.wr (src - 32)).waiting with
    | none => at' 950000
    | some x =>
      let p := Map.getD s.plan.inForce (src - 32) {}
      let own := p.entries.filter (fun e => decide (e.kind = x.air.kind) && decide (e.start * 1000 ≤ s.phase) && decide (s.phase ≤ (e.start + e.dur) * 1000))
      let fin := match own with
        | [] => 1000000
        | l => l.foldl (fun m e => max m ((e.start + e.dur) * 1000)) 0
      min (at' 950000) (at' fin - x.air.total)

/-- The waiting transmission is returned to the Planisher with no completion (R280, R281). -/
def requeueWaiting (src : Nat) (s : State) : State :=
  let s1 := frontCount src cRequeue { s with front.waiting := Map.erase s.front.waiting src }
  if src ≥ 34 then returnAccess (src - 34) s1 else updWr (src - 32) (fun w => { w with waiting := none }) s1

/-- The waiting transmission is dropped for this beat: beacon, trigger frame, frame with a send instant (R280); it completes LATE (Table 5-4; DEDUCED, log
entry 115). -/
def dropWaiting (src : Nat) (s : State) : State :=
  let s1 := frontCount src cLateDrop { s with front.waiting := Map.erase s.front.waiting src }
  if src ≥ 34 then endAccess (src - 34) 3 s1
  else match (s1.wr (src - 32)).waiting with
    | some x =>
      let s2 := emit (.frame src 20 [0, 3]) (accCount (src - 32) none aTxLate s1)
      if x.air.kind = 3 then dropBeacon (src - 32) s2 else updWr (src - 32) (fun w => { w with waiting := none }) s2
    | none => s1

/-- May a transmission of radio `src` that waits start now? -/
def waitOk (s : State) (src chains : Nat) : Bool :=
  !obstructed s src chains && !priorityPending s src && !transmitting s src &&
    (if src ≥ 34 then
      chipWindow s src && (match (s.fchain (src - 34)).access with
       | some a =>
         let m := accessItem s a
         !wideClash s src (fieldNs (chanKey m.band m.channel) m.len) (a.since.getD s.time.mono)
       | none => false)
    else (match (s.wr (src - 32)).waiting with
       | some x => (fieldClash s (src - 32) (s.time.mono - leadNs s src chains) (s.time.mono + x.air.dur) (committedAt s x.air)).isNone
       | none => false))

/-- The waiting transmission starts. -/
def startWaiting (src : Nat) (s : State) : State :=
  let s1 := { s with front.waiting := Map.erase s.front.waiting src }
  if src ≥ 34 then sendAccess (src - 34) s1
  else match (s1.wr (src - 32)).waiting with
    | some x =>
      let s2 := updWr (src - 32) (fun w => { w with waiting := none }) s1
      if mayStart s2 (src - 32) x.air then goExchange (src - 32) x.air s2 else s2
    | none => s1

/-- Time moved on to the instant at which what obstructs radio `src` ends by itself: a relock, the end of a revoked hold; and on to
where planned work may start again (R32, R34). -/
def obstructionOver (src : Nat) (s : State) : State :=
  let i := txSynth src
  let s1 := if !synthReady s i ∧ (s.synth i).state = .settling then synthLocked i s else s
  let s2 := [0, 1].foldl (fun s n =>
    if coexServes s n src ∧ (s.coexPort n).granted.isNone ∧ (s.coexPort n).holdUntil > s.time.mono then advanceMono (s.coexPort n).holdUntil s else s) s1
  advancePhase 20000 (afterOverrun src s2)

/-- What becomes of a waiting transmission at the end of its allowance (R280). -/
def lapse (src : Nat) (w : RadioTx) (s : State) : State := if w.kind = 2 then dropWaiting src s else requeueWaiting src s

/-- A W2 exchange waits for F24 (R215). -/
def shareHeld (s : State) (src : Nat) : Bool := decide (src = 33) && (s.wr 1).shareWait

/-- The F24 span that a held W2 exchange waits for ends: the exchange starts, waits on for what else obstructs its chains, or is returned to the
Planisher where its PPDU could no longer end by 950 µs (R215, R279). -/
def shareEnd (s : State) : State :=
  match (s.wr 1).waiting with
  | none => s
  | some x =>
    let chains := exchangeChains s 1
    let clash (s : State) : Option Nat := fieldClash s 1 (s.time.mono - leadNs s 33 chains) (s.time.mono + x.air.dur) (committedAt s x.air)
    let s1 := match clash s with | some t => advanceMono (t + leadNs s 33 chains) s | none => s
    let free := updWr 1 (fun w => { w with waiting := none, shareWait := false }) { s1 with front.waiting := Map.erase s1.front.waiting 33 }
    if (clash s1).isSome then s
    else if !shareFits s1 x.air s1.time.mono then free
    else if obstructed s1 33 chains ∨ priorityPending s1 33 then waitExchange 1 x.air free
    else if mayStart free 1 x.air then goExchange 1 x.air free else free

/-- An F24 span that a waiting W2 exchange would meet as it starts (R215). -/
def shareMeets (s : State) (src chains : Nat) : Bool :=
  decide (src = 33) && !obstructed s src chains && !priorityPending s src && !transmitting s src &&
    (s.wr 1).waiting.any (fun x => (fieldClash s 1 (s.time.mono - leadNs s 33 chains) (s.time.mono + x.air.dur) (committedAt s x.air)).isSome)

/-- A waiting W2 exchange meets an F24 span (R215): it is held until the span ends, or returned where its PPDU could then no longer end by 950 µs. -/
def holdForShare (s : State) : State :=
  match (s.wr 1).waiting with
  | none => s
  | some x =>
    let free := phyCount 1 pShareHold (updWr 1 (fun w => { w with waiting := none }) { s with front.waiting := Map.erase s.front.waiting 33 })
    match fieldClash s 1 (s.time.mono - leadNs s 33 (exchangeChains s 1)) (s.time.mono + x.air.dur) (committedAt s x.air) with
    | some t => if shareFits s x.air t then waitShare 1 x.air free else free
    | none => s

/-- OBSTRUCTION_END (R281, R282): the waiting transmission of radio `src` starts, on the tick of its expiry too; one that is too late is dropped or
goes back. -/
def obstructionEnd (src : Nat) (s : State) : State :=
  match Map.get? s.front.waiting src with
  | none => s
  | some w =>
    if shareHeld s src then shareEnd s else
    let s1 := obstructionOver src s
    if shareMeets s1 src w.chains then holdForShare s1
    else if !waitOk s1 src w.chains then s
    else if s1.time.mono > w.t0 + allowance s1 w.kind then lapse src w s1
    else if s1.time.mono > lastStart s1 src then requeueWaiting src s1
    else startWaiting src s1

/-- LATE_ALLOWANCE_EXPIRY (R280 to R282). -/
def lateExpiry (src : Nat) (s : State) : State :=
  match Map.get? s.front.waiting src with
  | none => s
  | some w =>
    if shareHeld s src then s else
    let fin := w.t0 + allowance s w.kind
    let last := lastStart s src
    let early : Bool := decide (w.kind ≠ 2) && decide (last < fin)
    let s1 := advanceMono (if early then last else fin) s
    if waitOk s1 src w.chains ∧ s1.time.mono ≤ fin ∧ s1.time.mono ≤ last then startWaiting src s1
    else if early then requeueWaiting src s1
    else lapse src w s1

/-! ### PA time-out (R289) -/

/-- PA_TIMEOUT: PA_EN has been high for 6 ms on a wide chain, 14 ms on a field chain. -/
def paTimeout (src chain slots : Nat) (s : State) : State :=
  match Map.get? s.front.tx src with
  | none => s
  | some t =>
    let g := pinCfg s src chain
    let rise := t.t0 - 25 * g.paLead
    let lim := rise + (if src ≥ 34 then 14000000 else 6000000)
    if t.kind = 3 ∨ !hasBit t.chains chain ∨ !g.paFitted ∨ t.t1 + 25 * g.paLag ≤ lim then s
    else
      let s1 := advanceMono lim s
      let s2 := if src ≥ 34 then cutField (src - 34) slots s1 else cutWide (src - 32) s1
      raise 36 0x0C05 (le 1 src ++ le 1 chain) (frontCount src cPaTimeout { s2 with front.paTimeoutStk := true })

/-! ### Bypass pins (R288) -/

/-- Is a chain powered? -/
def chainPowered (s : State) (src chain : Nat) : Bool :=
  if src = 32 ∨ src = 33 then hasBit (s.wr (src - 32)).chains chain else decide (chain = 0) && (src = 34 || src = 35) && bandOn s (src - 34) && fieldUp s

/-- Does a chain hold an acquisition or a reception? On F24 all sixteen channels count (R137). -/
def chainBusy (s : State) (src : Nat) : Bool :=
  if src = 32 ∨ src = 33 then decide ((s.wr (src - 32)).rx ≠ .idle)
  else s.field.rx.any (fun x => decide (chainOf x.1 = src - 34) && decide (x.2 ≠ .idle))

/-- BYP_RISE: the input of `level` dBm exceeds BYP_ON_DBM. -/
def bypRise (src chain : Nat) (level : Int) (s : State) : State :=
  let g := pinCfg s src chain
  let i := 4 * src + chain
  if g.bypMode ≠ 1 ∨ !chainPowered s src chain ∨ level ≤ g.bypOn ∨ s.front.byp.contains i then s
  else emit (.pinAt "BYP" i true s.time.mono) { s with front.byp := i :: s.front.byp }

/-- BYP_FALL: 6 dB below, with no acquisition or reception. -/
def bypFall (src chain : Nat) (level : Int) (s : State) : State :=
  let g := pinCfg s src chain
  let i := 4 * src + chain
  if g.bypMode ≠ 1 ∨ !s.front.byp.contains i ∨ level > g.bypOn - 6 ∨ chainBusy s src then s
  else emit (.pinAt "BYP" i false s.time.mono) { s with front.byp := s.front.byp.filter (· ≠ i) }

/-! ### Coexistence (R290 to R297) -/

/-- The radios that a port serves. -/
def served (s : State) (n : Nat) : List Nat := [32, 33, 34, 35].filter (fun src => coexServes s n src)

/-- The receivers of radio `src` are blanked from now on: receptions past the SFD or L-SIG end BLANKED. -/
def blankRadio (src : Nat) (s : State) : State :=
  if src < 34 then settleChains (src - 32) (blankWide (src - 32) s.time.mono s) else blankChain (src - 34) s.time.mono s

/-- A transmission of radio `src` is in progress, or committed (R215, R291). -/
def committedTx (s : State) (src : Nat) : Bool :=
  transmitting s src ||
    (if src < 34 then (s.wr (src - 32)).responseAt.isSome else !(s.fchain (src - 34)).acks.isEmpty || !(s.fchain (src - 34)).answers.isEmpty)

/-- The plan in force of radio `src`. -/
def planOf (s : State) (src : Nat) : AirPlan := Map.getD s.plan.inForce (if src < 34 then src - 32 else 2) {}

/-- A device-initiated exchange of radio `src` is planned to start within LP_GUARD_US. -/
def startsSoon (s : State) (src guard : Nat) : Bool :=
  (planOf s src).entries.any (fun e => !([1, 8, 0x0B, 0x0C, 0x0D].contains e.kind) &&
    decide (s.phase < e.start * 1000) && decide (e.start * 1000 ≤ s.phase + guard * 1000))

/-- The instant lies in a coexistence window of radio `src`'s plan. -/
def inCoexWindow (s : State) (src : Nat) : Bool :=
  (planOf s src).entries.any (fun e => decide (e.kind = 0x0C) && decide (e.start * 1000 ≤ s.phase) && decide (s.phase < (e.start + e.dur) * 1000))

/-- Is the port free for its pending request (R291)? -/
def coexFree (s : State) (n : Nat) : Bool :=
  let g := coexCfg s n
  let mine := served s n
  mine.all (fun src => !committedTx s src) &&
    ((s.coexPort n).pri ||
      (!(s.unit 36).safe && mine.all (fun src => !startsSoon s src g.lpGuard) && (g.lpAnytime || mine.all (fun src => inCoexWindow s src))))

/-- COEX_REQ_RISE. -/
def coexReqRise (n : Nat) (pri : Bool) (s : State) : State :=
  if n ≥ 2 ∨ (coexCfg s n).mode ≠ 1 ∨ (s.coexPort n).req then s
  else updCoex n (fun p => { p with req := true, pri := pri, pending := some s.time.mono }) s

/-- COEX_GRANT (R291, R292, R296): GNT rises. -/
def coexGrant (n : Nat) (s : State) : State :=
  let p := s.coexPort n
  if n ≥ 2 ∨ (coexCfg s n).mode ≠ 1 ∨ p.pending.isNone ∨ p.granted.isSome ∨ p.cooling ∨ !unitUp s 36 ∨ s.power.mode = .dormant ∨
      s.power.mode = .recovery ∨ !coexFree s n then s
  else
    let s1 := frontCount 36 cCoexGrant (emit (.pinAt "COEX_GNT" n true s.time.mono) (updCoex n (fun p => { p with pending := none, granted := some s.time.mono }) s))
    if (coexCfg s n).shared then (served s n).foldl (fun s src => blankRadio src s) s1 else s1

/-- COEX_REQ_FALL (R292, R295): GNT falls and the hold ends. -/
def coexReqFall (n : Nat) (s : State) : State :=
  let p := s.coexPort n
  if n ≥ 2 ∨ (coexCfg s n).mode ≠ 1 ∨ !p.req then s
  else
    let s1 := updCoex n (fun p => { p with req := false, pri := false, pending := none, granted := none, lowSince := s.time.mono }) s
    if p.granted.isSome then emit (.pinAt "COEX_GNT" n false s.time.mono) s1 else s1

/-- COEX_REVOKE (R293). -/
def coexRevoke (n : Nat) (s : State) : State :=
  match (s.coexPort n).granted with
  | none => s
  | some t =>
    let s1 := advanceMono (t + 1000 * (coexCfg s n).maxHold) s
    let s2 := updCoex n (fun p => { p with granted := none, cooling := true, holdUntil := s1.time.mono + 2000 }) s1
    raise 36 0x0C04 (le 1 n ++ le 4 ((s2.time.mono - t) / 1000))
      (frontCount 36 cCoexRevoke (emit (.pinAt "COEX_GNT" n false s2.time.mono) { s2 with front.revokeStk := true }))

/-- COEX_COOL_END (R293). -/
def coexCoolEnd (n : Nat) (s : State) : State :=
  let p := s.coexPort n
  if n ≥ 2 ∨ !p.cooling ∨ p.req then s
  else updCoex n (fun p => { p with cooling := false }) (advanceMono (p.lowSince + 1000 * (coexCfg s n).cool) s)

/-- COEX_BLANK_RISE (R297). -/
def coexBlankRise (n : Nat) (s : State) : State :=
  if n ≥ 2 ∨ (coexCfg s n).mode ≠ 2 ∨ (s.coexPort n).req then s
  else (served s n).foldl (fun s src => blankRadio src s) (frontCount 36 cCoexBlank (updCoex n (fun p => { p with req := true }) s))

/-- COEX_BLANK_FALL: the blank ends 1 µs later. -/
def coexBlankFall (n : Nat) (s : State) : State :=
  if n ≥ 2 ∨ (coexCfg s n).mode ≠ 2 ∨ !(s.coexPort n).req then s
  else (served s n).foldl (fun s src => blankTo src (s.time.mono + 1000) s) (updCoex n (fun p => { p with req := false }) s)

/-- COEX_HOLD_RISE and COEX_HOLD_FALL. -/
def coexHoldRise (n : Nat) (s : State) : State :=
  if n ≥ 2 ∨ (coexCfg s n).mode ≠ 2 ∨ (s.coexPort n).pri then s
  else frontCount 36 cCoexHold (updCoex n (fun p => { p with pri := true }) s)
def coexHoldFall (n : Nat) (s : State) : State :=
  if n ≥ 2 ∨ (coexCfg s n).mode ≠ 2 then s else updCoex n (fun p => { p with pri := false }) s

/-- Every grant is revoked by the ownership sweep (R293, R557). -/
def sweepCoex (s : State) : State :=
  [0, 1].foldl (fun s n => if (s.coexPort n).granted.isSome then
    emit (.pinAt "COEX_GNT" n false s.time.mono) (updCoex n (fun p => { p with granted := none, pending := none, holdUntil := s.time.mono + 2000 }) s) else s) s

/-! ### The commit window -/

/-- The pins of wide chains that are powered up or down (R285, R288). -/
def chainPins (r old new' : Nat) (s : State) : State :=
  (List.range 4).foldl (fun s c =>
    let g := pinCfg s (32 + r) c
    let i := 4 * (32 + r) + c
    if hasBit old c = hasBit new' c then s
    else
      let up := hasBit new' c
      let s1 := if g.lnaFitted then emit (.pinAt "LNA_EN" i up s.time.mono) s else s
      if g.bypMode = 2 then emit (.pinAt "BYP" i up s1.time.mono) s1
      else if !up ∧ s1.front.byp.contains i then emit (.pinAt "BYP" i false s1.time.mono) { s1 with front.byp := s1.front.byp.filter (· ≠ i) }
      else s1) s

/-- New settings of the coexistence ports: a port whose mode or radios change starts afresh. -/
def frontSettings (old : Kept) (s : State) : State :=
  [0, 1].foldl (fun s n =>
    let o := Map.getD old.front.coex n {}
    let g := coexCfg s n
    if o.mode = g.mode ∧ o.radios = g.radios then s
    else
      let s1 := if (s.coexPort n).granted.isSome then emit (.pinAt "COEX_GNT" n false s.time.mono) s else s
      updCoex n (fun _ => { lowSince := s.time.mono }) s1) s

/-! ### Commands -/

/-- The limit of a setting of Table 6-3 on a target. -/
def pinLimit (target lead : Nat) : Nat := if target ≥ 34 then 255 else lead

/-- FE_PIN_CONFIG (R286, Table 6-11). -/
def fePinConfig : Handler where
  fields := [fRange 16 1 32 35, fMask 17 1 0xF, fAny 18 1, fAny 19 1, fAny 20 1, fAny 21 1, fAny 22 1, fAny 23 1, fRange 24 1 0 2,
    fSigned 25 1 (-40) (-10), fMask 26 1 3, fZero 27 1]
  run c _ s :=
    let t := c.u 16 1
    let ovr := [(18, 160), (19, 160), (20, 160), (21, 80), (22, 80), (23, 80)].find? (fun x => decide (c.u x.1 1 > pinLimit t x.2))
    if t ≥ 34 ∧ c.u 17 1 > 1 then (s, .reply (badArg 17))
    else match ovr with
      | some x => (s, .reply (badArg x.1))
      | none =>
        if c.u 18 1 < c.u 19 1 then (s, .reply (badArg 19))
        else if c.u 19 1 < c.u 20 1 then (s, .reply (badArg 20))
        else if c.u 21 1 > c.u 22 1 then (s, .reply (badArg 22))
        else if c.u 22 1 > c.u 23 1 then (s, .reply (badArg 23))
        else
          let g : PinCfg := { lnaOff := c.u 18 1, trswLead := c.u 19 1, paLead := c.u 20 1, paLag := c.u 21 1, trswLag := c.u 22 1,
                              lnaOn := c.u 23 1, bypMode := c.u 24 1, bypOn := c.i 25 1, paFitted := c.flag 26 1 0, lnaFitted := c.flag 26 1 1 }
          (stageKept (fun k => { k with front.pins := (bitsSet 4 (c.u 17 1)).foldl (fun m i => Map.set m (4 * t + i) g) k.front.pins }) s, .reply (ok))

/-- FE_COEX_CONFIG (R290, Table 6-12). -/
def feCoexConfig : Handler where
  fields := [fRange 16 1 0 1, fRange 17 1 0 2, fMask 18 1 0xF, fMask 19 1 7, fRange 20 4 100 20000, fRange 24 2 20 10000, fRange 26 2 0 2000]
  run c _ s :=
    let n := c.u 16 1
    let other := Map.getD s.next.front.coex (1 - n) {}
    if c.u 17 1 ≠ 0 ∧ other.mode ≠ 0 ∧ (c.u 18 1 &&& other.radios) ≠ 0 then (s, .reply (badArg 18))
    else
      let g : CoexCfg := { mode := c.u 17 1, radios := c.u 18 1, shared := c.flag 19 1 0, lpAnytime := c.flag 19 1 1, txactOut := c.flag 19 1 2,
                           maxHold := c.u 20 4, cool := c.u 24 2, lpGuard := c.u 26 2 }
      (stageKept (fun k => { k with front.coex := Map.set k.front.coex n g }) s, .reply (ok))

/-- CAL_CONFIG (Table 6-13). -/
def calConfig : Handler where
  fields := [fRange 16 1 2 20, fRange 17 1 2 30, fRange 18 1 2 30, fMask 19 1 7, fSigned 20 1 (-90) (-50), fSigned 21 1 (-100) (-60),
    fRange 22 2 1000 65535, fRange 24 2 0 10000, fZero 26 2]
  run c _ s :=
    let g : CalCfg := { tempRadio := c.u 16 1, tempDram := c.u 17 1, tempMeter := c.u 18 1, triggers := c.u 19 1, quietWide := c.i 20 1,
                        quietField := c.i 21 1, staleRetry := c.u 22 2, lateAllow := c.u 24 2 }
    (stageKept (fun k => { k with front.cal := g }) s, .reply (ok))

/-- Does the scope of FE_COUNTERS hold counter `k` (Table 6-16)? -/
def frontScope (sel k : Nat) : Bool :=
  if sel = 36 then decide (44 ≤ k) && decide (k ≤ 56)
  else if sel = 3 then decide (60 ≤ k)
  else decide (k ≤ 40) || decide (60 ≤ k)

/-- FE_COUNTERS (R311, Table 6-16). -/
def feCounters : Handler where
  fields := [fOneOf 16 1 [3, 32, 33, 34, 35, 36], fMask 17 1 3, fMask 18 1 0xF, fZero 19 1]
  run c _ s :=
    let sel := c.u 16 1
    let body := le 1 (fieldsWord [(0, bit s.front.calStaleStk), (1, bit s.front.unlockStk), (2, bit s.front.revokeStk), (3, bit s.front.paTimeoutStk)]) ++
      [0, 0, 0] ++ ((List.range 17).map (fun j => le 4 (if frontScope sel (20 + 4 * j) then tallyOf s.front.counts (128 * sel + (20 + 4 * j)) else 0))).flatten
    let s1 := if c.flag 17 1 0 then { s with front.counts := s.front.counts.filter (fun e => e.1 / 128 ≠ sel) } else s
    let clr (i : Nat) : Bool := c.flag 17 1 1 && c.flag 18 1 i
    ({ s1 with front.calStaleStk := s.front.calStaleStk && !clr 0, front.unlockStk := s.front.unlockStk && !clr 1,
               front.revokeStk := s.front.revokeStk && !clr 2, front.paTimeoutStk := s.front.paTimeoutStk && !clr 3 }, .reply (ok body))

/-! ### Meanings -/

/-- SYNTH_LOCKED. -/
def execSynthLocked (synth : Nat) (s : State) : Out := act (synthLocked synth) s
/-- OBSTRUCTION_END. -/
def execObstructionEnd (source : Nat) (s : State) : Out := act (obstructionEnd source) s
/-- LATE_ALLOWANCE_EXPIRY. -/
def execLateAllowanceExpiry (source : Nat) (s : State) : Out := act (lateExpiry source) s
/-- PA_TIMEOUT. -/
def execPaTimeout (source chain slots : Nat) (s : State) : Out := act (paTimeout source chain slots) s
/-- BYP_RISE. -/
def execBypRise (source chain : Nat) (level : Int) (s : State) : Out := act (bypRise source chain level) s
/-- BYP_FALL. -/
def execBypFall (source chain : Nat) (level : Int) (s : State) : Out := act (bypFall source chain level) s
/-- COEX_REQ_RISE. -/
def execCoexReqRise (port : Nat) (pri : Bool) (s : State) : Out := act (coexReqRise port pri) s
/-- COEX_GRANT. -/
def execCoexGrant (port : Nat) (s : State) : Out := act (coexGrant port) s
/-- COEX_REQ_FALL. -/
def execCoexReqFall (port : Nat) (s : State) : Out := act (coexReqFall port) s
/-- COEX_REVOKE. -/
def execCoexRevoke (port : Nat) (s : State) : Out := act (coexRevoke port) s
/-- COEX_COOL_END. -/
def execCoexCoolEnd (port : Nat) (s : State) : Out := act (coexCoolEnd port) s
/-- COEX_BLANK_RISE. -/
def execCoexBlankRise (port : Nat) (s : State) : Out := act (coexBlankRise port) s
/-- COEX_BLANK_FALL. -/
def execCoexBlankFall (port : Nat) (s : State) : Out := act (coexBlankFall port) s
/-- COEX_HOLD_RISE. -/
def execCoexHoldRise (port : Nat) (s : State) : Out := act (coexHoldRise port) s
/-- COEX_HOLD_FALL. -/
def execCoexHoldFall (port : Nat) (s : State) : Out := act (coexHoldFall port) s
/-- FE_PIN_CONFIG. -/
def execFePinConfig (c : Cmd) (s : State) : Out := act (submit 0x0C01 fePinConfig c) s
/-- FE_COEX_CONFIG. -/
def execFeCoexConfig (c : Cmd) (s : State) : Out := act (submit 0x0C02 feCoexConfig c) s
/-- CAL_CONFIG. -/
def execCalConfig (c : Cmd) (s : State) : Out := act (submit 0x0C03 calConfig c) s
/-- FE_COUNTERS. -/
def execFeCounters (c : Cmd) (s : State) : Out := act (submit 0x0C06 feCounters c) s

end Sys2Proof.Machine
end

