-- ==== Sys2Proof/Machine/Pole.lean ====
section
/-! DEFINITION. Pole I/O (chapter 11): the metering converter, waveform capture, the DALI interfaces, timers and PWM, GPIO. -/

namespace Sys2Proof.Machine

/-! ### Counters of Table 11-10: key 128 · selection + response offset -/

abbrev cSampleLost : Nat := 20
abbrev cClip : Nat := 24
abbrev cMeterGap : Nat := 28
abbrev cCapture : Nat := 32
abbrev cCaptureMerged : Nat := 36
abbrev cCaptureDrop : Nat := 40
abbrev cDaliTx : Nat := 20
abbrev cDaliAnswer : Nat := 24
abbrev cDaliNoAnswer : Nat := 28
abbrev cDaliCorrupt : Nat := 32
abbrev cDaliCollision : Nat := 36
abbrev cDaliRx : Nat := 40
abbrev cDaliRxErr : Nat := 44
abbrev cDaliLate : Nat := 48
abbrev cDaliTrigMiss : Nat := 52
abbrev cDaliBusFault : Nat := 56
abbrev cBehind : Nat := 20
abbrev cCapOvf : Nat := 24
abbrev cTrigPinMiss : Nat := 28

/-- A pole counter of selection `sel` incremented. -/
def poleCount (sel k : Nat) (s : State) : State := { s with pole.counts := tally s.pole.counts (128 * sel + k) }

/-- A pole counter advanced by `n`. -/
def poleCountBy (sel k n : Nat) (s : State) : State := { s with pole.counts := tallyBy s.pole.counts (128 * sel + k) n }

/-! ### Open values -/

/-- `n / d`, which the spec does not round: either neighbour of an inexact quotient, by a free choice. -/
def openQuot (n d : Nat) (s : State) : Nat × State :=
  if d = 0 then draw s
  else if n % d = 0 then (n / d, s)
  else
    let (b, t) := drawBit s
    (if b then n / d + 1 else n / d, t)

/-- The square root of `n`, rounded down, in `fuel` binary digits. -/
def rootDown (n fuel acc : Nat) : Nat :=
  match fuel with
  | 0 => acc
  | k + 1 => rootDown n k (if (acc + 2 ^ k) * (acc + 2 ^ k) ≤ n then acc + 2 ^ k else acc)

/-- √n, which the spec does not round. -/
def openRoot (n : Nat) (s : State) : Nat × State :=
  let r := rootDown n 64 0
  if r * r = n then (r, s)
  else
    let (b, t) := drawBit s
    (if b then r + 1 else r, t)

/-! ### The converter (R483 to R488) -/

/-- METER_CONFIG in force. -/
def meterCfg (s : State) : MeterCfg := s.kept.pole.meter

/-- Samples per channel and beat at a rate code. -/
def perBeat (rate : Nat) : Nat := 4 * 2 ^ rate

/-- PERIOD_NS of the sampling trigger (R484). -/
def samplePeriod (rate : Nat) : Nat := 1000000 / perBeat rate

/-- Bytes of one beat block (Table 11-3). -/
def blockBytes (g : MeterCfg) : Nat := 16 + 2 * perBeat g.rate * (bitsSet 4 g.mask).length

/-- A code held to full scale: ±32,767. -/
def holdCode (c : Int) : Int := clampInt (-32767) 32767 c

/-- The code of a lost sample. -/
abbrev lostCode : Int := -32768

/-- The codes of channel `c`, of `n` samples (R486): held to full scale, lost ones marked. -/
def channelCodes (f : MeterFrame) (n c : Nat) : List Int :=
  (List.range n).map (fun k => if f.lost.contains (c, k) then lostCode else holdCode ((f.codes.getD c []).getD k 0))

/-- Is a sample at or beyond full scale? -/
def clipped (c : Int) : Bool := decide (c = 32767) || decide (c = -32767)

/-- The nearest good sample before index `k`: value and index, counted from the frame's first (a sample of an earlier frame has a negative one). -/
def goodBefore (xs : List Int) (prev : Option (Int × Nat)) (k : Nat) : Option (Int × Int) :=
  match ((List.range k).reverse).find? (fun i => xs.getD i lostCode ≠ lostCode) with
  | some i => some (xs.getD i 0, (i : Int))
  | none => prev.map (fun p => (p.1, -(p.2 : Int)))

/-- The nearest good sample after index `k` in its frame. -/
def goodAfter (xs : List Int) (k : Nat) : Option (Int × Int) :=
  match (List.range xs.length).find? (fun i => decide (k < i) && decide (xs.getD i lostCode ≠ lostCode)) with
  | some i => some (xs.getD i 0, (i : Int))
  | none => none

/-- The value of sample `k` in the sums (R486): a lost one is interpolated between its neighbours; without one on both sides, or between two
codes, the spec states no value. -/
def sumValue (xs : List Int) (prev : Option (Int × Nat)) (k : Nat) (s : State) : Int × State :=
  let x := xs.getD k 0
  if x ≠ lostCode then (x, s)
  else match goodBefore xs prev k, goodAfter xs k with
    | some a, some b =>
      let num := a.1 * (b.2 - (k : Int)) + b.1 * ((k : Int) - a.2)
      let den := b.2 - a.2
      if num % den = 0 then (num / den, s)
      else
        let (up, t) := drawBit s
        (if up then num / den + 1 else num / den, t)
    | _, _ =>
      let (r, t) := draw s
      (((r % 65535 : Nat) : Int) - 32767, t)

/-- The values of a channel's samples in the sums. -/
def sumValues (xs : List Int) (prev : Option (Int × Nat)) (s : State) : List Int × State :=
  (List.range xs.length).foldl (fun a k =>
    let r := sumValue xs prev k a.2
    (a.1 ++ [r.1], r.2)) ([], s)

/-- The last good sample after a frame, and its distance to the next frame's first sample. -/
def lastGoodOf (xs : List Int) (prev : Option (Int × Nat)) : Option (Int × Nat) :=
  match goodBefore xs prev xs.length with
  | some (v, i) => some (v, ((xs.length : Int) - i).toNat)
  | none => none

/-- Σ of squares. -/
def squares (l : List Int) : Nat := l.foldl (fun a x => a + x.natAbs * x.natAbs) 0

/-- Σ of products. -/
def products (a b : List Int) : Int := (List.zip a b).foldl (fun t p => t + p.1 * p.2) 0

/-- CAL_STALE of the channels (R487). -/
def meterStale (s : State) : Nat :=
  maskOf ((List.range 4).filter (fun c => match Map.get? s.front.notes (calKey 10 37 c 0) with | some n => n.stale.isSome | none => false))

/-! ### Energy (R489, R490) -/

/-- A pair's accumulators. -/
def energyOf (s : State) (p : Nat) : Energy := Map.getD s.pole.energy p {}

/-- The sums of one beat added to a pair's accumulators: `v` and `i` are the samples of the even and the odd channel. -/
def addEnergy (p : Nat) (v i : List Int) (s : State) : State :=
  if v = [] ∧ i = [] then s
  else
    let prod := products v i
    let e := energyOf s p
    let e1 : Energy := { e with
      samples := satAdd 64 e.samples (max v.length i.length),
      imp := if prod > 0 then satAdd 96 e.imp prod.toNat else e.imp,
      exp := if prod > 0 then e.exp else satAdd 96 e.exp prod.natAbs,
      vv := satAdd 96 e.vv (squares v), ii := satAdd 96 e.ii (squares i) }
    { s with pole.energy := Map.set s.pole.energy p e1 }

/-! ### Capture rules (R491) -/

/-- Sum of squares and number of samples of channel `c` over `w` beats, `skip` beats back; none where they are not all there. -/
def rmsWindow (s : State) (c w skip : Nat) : Option (Nat × Nat) :=
  let l := ((Map.getD s.pole.sums c []).drop skip).take w
  if l.length < w then none else some (l.foldl (fun a x => (a.1 + x.1, a.2 + x.2)) (0, 0))

/-- Is the RMS of a window above `t`? -/
def rmsAbove (x : Nat × Nat) (t : Nat) : Bool := decide (x.1 > t * t * x.2)

/-- Is the RMS of a window below `t`? -/
def rmsBelow (x : Nat × Nat) (t : Nat) : Bool := decide (x.1 < t * t * x.2)

/-- Does the RMS of `x` differ from that of `y` by more than `pct` %? -/
def rmsStep (x y : Nat × Nat) (pct : Nat) : Bool :=
  decide (x.1 * y.2 * 10000 > y.1 * x.2 * (100 + pct) * (100 + pct)) ||
    (decide (pct < 100) && decide (x.1 * y.2 * 10000 < y.1 * x.2 * (100 - pct) * (100 - pct)))

/-- Is a rule met in the beat of block `b`? The triggering sample's index, none within for a rule on the RMS. -/
def ruleMet (s : State) (r : CaptureRule) (b : MeterBlock) : Option (Option Nat) :=
  let xs := b.samples.getD r.chan []
  if !r.enable ∨ xs = [] then none
  else if r.kind = 0 then
    match (List.range xs.length).find? (fun k => decide (xs.getD k 0 ≠ lostCode) && decide ((xs.getD k 0).natAbs ≥ r.threshold)) with
    | some k => some (some k)
    | none => none
  else
    match rmsWindow s r.chan r.window 0 with
    | none => none
    | some now =>
      let met : Bool := match rmsWindow s r.chan r.window (if r.kind = 3 then r.window else 1) with
        | none => false
        | some was =>
          if r.kind = 1 then rmsAbove now r.threshold && !rmsAbove was r.threshold
          else if r.kind = 2 then rmsBelow now r.threshold && !rmsBelow was r.threshold
          else rmsStep now was r.stepPct
      if met then some none else none

/-- A trigger of a beat (R492): rule 0 to 3, or 4 for the command; channel; sample; PRE_BEATS and POST_BEATS. -/
structure CaptureTrigger where
  rule : Nat
  chan : Nat
  sample : Nat
  pre : Nat
  post : Nat
deriving DecidableEq, Repr

/-- The rules met in a beat, in order; the sample of a trigger on the RMS is not stated: a free one. -/
def rulesMet (b : MeterBlock) (s : State) : List CaptureTrigger × State :=
  (List.range 4).foldl (fun a i =>
    let r := Map.getD a.2.kept.pole.rules i {}
    if Map.getD a.2.pole.holdoff i 0 > 0 then a
    else match ruleMet a.2 r b with
      | none => a
      | some (some k) => (a.1 ++ [{ rule := i, chan := r.chan, sample := k, pre := r.pre, post := r.post }], a.2)
      | some none =>
        let (k, t) := draw a.2
        (a.1 ++ [{ rule := i, chan := r.chan, sample := k % b.n, pre := r.pre, post := r.post }], t)) ([], s)

/-- The jobs of METER_CAPTURE_FIRE for beat `t`. -/
def firesOf (s : State) (t : Nat) : List Job := s.stw.jobs.filter (fun j => decide (j.opcode = 0x0903) && decide (j.due = t) && decide (j.reply = none))

/-- The earliest sample, and on equal samples the lower rule number (R492). -/
def firstTrigger : List CaptureTrigger → Option CaptureTrigger
  | [] => none
  | x :: l =>
    match firstTrigger l with
    | none => some x
    | some y => if x.sample ≤ y.sample then some x else some y

/-! ### Records (R492 to R494) -/

/-- The oldest records freed until `n` bytes fit in the CAPTURE pool. -/
def freeOldest (n fuel : Nat) (s : State) : State :=
  match fuel with
  | 0 => s
  | k + 1 =>
    if poolFits s 5 n then s
    else match s.pole.records with
      | [] => s
      | r :: l => freeOldest n k (uncharge 5 r.charged { s with pole.records := l })

/-- A capture starts on trigger `x` in the beat of block `b` (R491, R493): whether it was made. -/
def startCapture (x : CaptureTrigger) (b : MeterBlock) (present : Bool) (s : State) : State × Bool :=
  let g := meterCfg s
  let old := s.pole.history.filter (fun h => decide (h.job < b.job) && decide (h.job + x.pre ≥ b.job))
  let pre := match s.pole.history.head? with
    | some h => min x.pre (b.job - h.job)
    | none => 0
  let blocks := if present then old ++ [b] else old
  let bytes := 64 + (blocks.length + x.post) * blockBytes g
  let s1 := if g.overwrite then freeOldest bytes s.pole.records.length s else s
  if !poolFits s1 5 bytes then (poleCount 0 cCaptureDrop s1, false)
  else
    let c : Capture := {
      id := s1.pole.nextCapture, trigger := x.rule, chan := x.chan, rate := g.rate, mask := g.mask, beat := b.beat, sample := x.sample,
      epoch := b.epoch, pre := pre, postLeft := x.post, gap := !present || decide (blocks.length < pre + 1),
      doze := decide (s1.power.mode = .doze), scale := g.scale, nodeId := s1.kept.stw.nodeId, blocks := blocks, charged := bytes }
    (chargePool 5 bytes { s1 with pole.gather := some c, pole.nextCapture := (s1.pole.nextCapture + 1) % 2 ^ 32 }, true)

/-- The bytes of a beat block (Table 11-3). -/
def MeterBlock.bytes (b : MeterBlock) : List Byte :=
  let chans := b.samples.filter (· ≠ [])
  le 8 b.beat ++ le 1 b.epoch ++ le 1 b.n ++ le 2 (fieldsWord [(0, b.lost), (4, b.stale), (8, bit b.holdover), (9, bit b.clip)]) ++ [0, 0, 0, 0] ++
    ((List.range b.n).map (fun k => (chans.map (fun xs => leInt 2 (xs.getD k 0))).flatten)).flatten

/-- The bytes of a record (Table 11-2). -/
def Capture.bytes (c : Capture) : List Byte :=
  let flags := fieldsWord [(0, bit (c.blocks.any (fun b => decide (b.stale ≠ 0)))), (1, bit (c.blocks.any (fun b => decide (b.lost ≠ 0)))),
    (2, bit (c.blocks.any (·.holdover))), (3, bit c.gap), (4, bit c.doze)]
  le 4 c.id ++ le 1 c.trigger ++ le 1 c.chan ++ le 1 c.rate ++ le 1 c.mask ++ le 8 c.beat ++ le 1 c.sample ++ le 1 c.epoch ++ le 2 c.pre ++
    le 2 c.blocks.length ++ le 2 flags ++ le 8 (match c.blocks with | b :: _ => b.beat | [] => c.beat) ++ le 3 c.nodeId ++ le 1 c.merged ++
    (c.scale.map (le 4)).flatten ++ List.replicate 12 0 ++ (c.blocks.map MeterBlock.bytes).flatten

/-- Bytes of a block. -/
def MeterBlock.size (b : MeterBlock) : Nat := 16 + 2 * b.n * (b.samples.filter (· ≠ [])).length

/-- METER_CAPTURE_DONE: the last frame has been processed and the record is made; each rule is ignored for its HOLDOFF_BEATS. -/
def captureDone (c : Capture) (s : State) : State :=
  let n := 64 + (c.blocks.map MeterBlock.size).sum
  let s1 := uncharge 5 (c.charged - n) s
  raise 37 0x0901 (le 4 c.id ++ le 1 c.trigger ++ le 4 (c.beat % 2 ^ 32) ++ le 4 n)
    (poleCount 0 cCapture { s1 with
      pole.gather := none, pole.records := s1.pole.records ++ [{ c with charged := n }],
      pole.holdoff := (List.range 4).map (fun i => (i, (Map.getD s1.kept.pole.rules i {}).holdoff + 1)) })

/-- The record being gathered takes the frame of this job, or its absence. -/
def gatherBlock (b : MeterBlock) (present : Bool) (s : State) : State :=
  match s.pole.gather with
  | none => s
  | some c =>
    { s with pole.gather := some { c with blocks := if present then c.blocks ++ [b] else c.blocks, gap := c.gap || !present,
                                          postLeft := c.postLeft - 1 } }

/-- The triggers of the beat (R491 to R493): merged into the record being gathered, or the first of them starts one. -/
def applyTriggers (b : MeterBlock) (present : Bool) (s : State) : State :=
  if (s.unit 37).safe then s
  else
    let (met, s1) := if present then rulesMet b s else ([], s)
    let fires := firesOf s1 b.beat
    let (k, s2) := if fires = [] then (0, s1) else draw s1
    let cmds := fires.map (fun j => ({ rule := 4, chan := 0xFF, sample := k % b.n, pre := j.cmd.u 24 2, post := j.cmd.u 26 2 } : CaptureTrigger))
    let all := met ++ cmds
    let wake : Bool := met.any (fun x => (Map.getD s2.kept.pole.rules x.rule {}).wake)
    let s3 := if wake ∧ s2.power.mode = .doze then fireWake 11 (wakeTarget s2) s2 else s2
    match s3.pole.gather with
    | some c =>
      let s4 := poleCountBy 0 cCaptureMerged all.length
        { s3 with pole.gather := some { c with merged := min 255 (c.merged + all.length) } }
      fires.foldl (fun s j => completeJob j.id (ok (le 4 c.id)) s) s4
    | none =>
      match firstTrigger all with
      | none => s3
      | some x =>
        let (s4, made) := startCapture x b present s3
        fires.foldl (fun s j =>
          if made then completeJob j.id (ok (le 4 (s4.pole.nextCapture + 2 ^ 32 - 1))) s
          else completeJob j.id { status := stNoResource, detail := poolCode 5 } s) s4

/-- METER_CAPTURE_FIRE whose beat has passed is answered LATE (Table 11-8). -/
def lateFires (b : Nat) (s : State) : State :=
  (s.stw.jobs.filter (fun j => decide (j.opcode = 0x0903) && decide (j.due < b) && decide (j.reply = none))).foldl
    (fun s j => completeJob j.id { status := stLate } s) s

/-- The record is complete when the frame of T + POST_BEATS has been processed. -/
def finishGather (s : State) : State :=
  match s.pole.gather with
  | some c => if c.postLeft = 0 then captureDone c s else s
  | none => s

/-- Lost samples and samples at full scale are counted and reported (R486, R511). -/
def countSamples (b : MeterBlock) (s : State) : State :=
  let lost := (b.samples.map (fun xs => (xs.filter (· = lostCode)).length)).sum
  let clip := (b.samples.map (fun xs => (xs.filter clipped).length)).sum
  let s1 := poleCountBy 0 cClip clip s
  if lost = 0 then s1
  else
    let s2 := poleCountBy 0 cSampleLost lost { s1 with pole.lostStk := true }
    let recent : Bool := match s2.pole.lostEvent with | some x => decide (s2.beat < x + 1000) | none => false
    if recent then s2 else raise 37 0x0902 (le 8 b.beat ++ le 1 b.lost) { s2 with pole.lostEvent := some s2.beat }

/-- Channel `c` of a beat taken into the sums: the values of its samples appended, its RMS windows and its last good sample updated. -/
def sumChannel (b : MeterBlock) (a : List (List Int) × State) (c : Nat) : List (List Int) × State :=
  let xs := b.samples.getD c []
  let v := sumValues xs (Map.get? a.2.pole.lastGood c) a.2
  let t := v.2
  let t1 := if xs = [] then { t with pole.lastGood := Map.erase t.pole.lastGood c, pole.sums := Map.erase t.pole.sums c }
    else { t with
      pole.lastGood := (match lastGoodOf xs (Map.get? t.pole.lastGood c) with
        | some g => Map.set t.pole.lastGood c g
        | none => t.pole.lastGood),
      pole.sums := Map.set t.pole.sums c (((squares v.1, xs.length) :: Map.getD t.pole.sums c []).take 200) }
  (a.1 ++ [v.1], t1)

/-- The sums of the beat for every channel: energy, RMS windows, last good samples. -/
def sumBeat (b : MeterBlock) (s : State) : State :=
  let r := (List.range 4).foldl (sumChannel b) ([], s)
  addEnergy 1 (r.1.getD 2 []) (r.1.getD 3 []) (addEnergy 0 (r.1.getD 0 []) (r.1.getD 1 []) r.2)

/-- The sampling trigger's instants that have passed are counted (R484). -/
def catchUp (s : State) : State :=
  match s.pole.trigCh with
  | none => s
  | some ch =>
    let t := s.trig ch
    if !t.armed ∨ t.held ∨ t.period = 0 ∨ t.nextNs > s.ns then s
    else
      let k := (s.ns - t.nextNs) / t.period + 1
      { updTrig ch (fun t => { t with nextNs := t.nextNs + k * t.period, fired := satAdd 32 t.fired k }) s with
        time.counts := tallyBy s.time.counts cTrigFire k }

/-- Did beat `b` carry samples? -/
def sampled (s : State) (b : Nat) : Bool :=
  match s.pole.trigCh with
  | some ch => (s.trig ch).armed && !(s.trig ch).held && decide (s.pole.liveFrom ≤ b)
  | none => false

/-- The block of beat `beat` from the metering frame `f` (Table 11-3). -/
def meterBlock (f : MeterFrame) (beat epoch : Nat) (s : State) : MeterBlock :=
  let g := meterCfg s
  let n := perBeat g.rate
  let samples := (List.range 4).map (fun c => if hasBit g.mask c then channelCodes f n c else [])
  { job := s.pole.jobNo + 1, beat := beat, epoch := epoch, n := n,
    lost := maskOf ((List.range 4).filter (fun c => (samples.getD c []).contains lostCode)),
    stale := meterStale s, holdover := decide (s.time.servo = .holdover),
    clip := samples.any (fun xs => xs.any clipped), samples := samples }

/-- The work of a metering job on block `b` (R485 to R493): its sums, the record being gathered, the triggers, the history. -/
def processBlock (b : MeterBlock) (present : Bool) (s : State) : State :=
  let s2 := if present then sumBeat b (countSamples b s) else poleCount 0 cMeterGap { s with pole.lastGood := [] }
  let s3 := applyTriggers b present (gatherBlock b present s2)
  let s4 := if present then { s3 with pole.history := (s3.pole.history ++ [b]).reverse.take (meterCfg s3).history |>.reverse } else s3
  lateFires b.beat (finishGather s4)

/-- METER_JOB: the metering frame of the last beat, once a beat. Across a rebase it is the frame of the rebase beat (R488). -/
def meterJob (f : MeterFrame) (s : State) : State :=
  if !(meterCfg s).enable ∨ !unitUp s 37 ∨ s.boot.stage ≠ 8 ∨ s.power.mode = .dormant ∨ s.time.settling ∨ s.pole.jobBeat = some s.beat ∨
      s.beat = 0 ∨ s.overrunning 37 then s
  else
    let ovr : Bool := decide (s.pole.jobEpoch ≠ s.kept.time.epoch)
    let beat := if ovr then s.time.loadBeat else s.beat - 1
    let epoch := if ovr then s.pole.jobEpoch else s.kept.time.epoch
    let present : Bool := if ovr then s.pole.jobLive else sampled s beat
    processBlock (meterBlock f beat epoch s) present (catchUp { s with
      pole.jobNo := s.pole.jobNo + 1, pole.jobBeat := some s.beat, pole.jobEpoch := s.kept.time.epoch, pole.jobLive := present,
      pole.holdoff := s.pole.holdoff.map (fun e => (e.1, e.2 - 1)) })

/-! ### The sampling trigger (R484, R488) -/

/-- The highest trigger channel that is free (R72). -/
def freeTrigger (s : State) : Option Nat :=
  ((List.range 16).reverse).find? (fun ch => !(s.trig ch).armed && !(decide (ch = 15) && (s.next.time.pps.outEnable || s.kept.time.pps.outEnable)))

/-- The metering service claims and arms its channel: FIRST_NS is the first beat boundary at least 50 µs from now (R71, R484). -/
def claimTrigger (ch : Nat) (g : MeterCfg) (s : State) : State :=
  let b := (s.ns + 50000 + 999999) / 1000000
  let t : Trigger := { armed := true, party := 45, target := 2, arg := g.mask, nextNs := b * 1000000, firstNs := b * 1000000,
                       period := samplePeriod g.rate }
  updTrig ch (fun x => { t with pulses := x.pulses }) { s with pole.trigCh := some ch, pole.liveFrom := b, pole.jobEpoch := s.kept.time.epoch }

/-- Sampling ends: the channel is given up, history and the record being gathered go. -/
def stopMeter (s : State) : State :=
  let s1 := match s.pole.trigCh with
    | some ch => if (s.trig ch).armed then abandonTrig ch 0 s else s
    | none => s
  let s2 := match s1.pole.gather with
    | some c => uncharge 5 c.charged s1
    | none => s1
  { s2 with pole.trigCh := none, pole.gather := none }

/-- Bytes of the history ring in the CAPTURE pool. -/
def historyBytes (g : MeterCfg) : Nat := if g.enable then g.history * blockBytes g else 0

/-- New METER_CONFIG settings come into force at the commit window of beat `b`. -/
def meterSettings (old : MeterCfg) (b : Nat) (s : State) : State :=
  let g := meterCfg s
  if old = g then s
  else
    let s1 := chargePool 5 (historyBytes g) (uncharge 5 (historyBytes old) s)
    if !g.enable then { stopMeter s1 with pole.history := [], pole.lastGood := [], pole.sums := [] }
    else if old.enable ∧ (old.rate ≠ g.rate ∨ old.mask ≠ g.mask) then
      let s2 := { s1 with pole.lastGood := [], pole.liveFrom := b }
      match s2.pole.trigCh with
      | some ch => updTrig ch (fun t => { t with arg := g.mask, period := samplePeriod g.rate, firstNs := b * 1000000, nextNs := b * 1000000 }) s2
      | none => s2
    else s1

/-- The metering service takes up the settings in force: at READY, and after a reset of its unit. -/
def meterStart (s : State) : State :=
  let g := meterCfg s
  if !g.enable ∨ s.pole.trigCh.isSome then s
  else
    let s1 := if poolUsed s 5 = 0 then chargePool 5 (historyBytes g) s else s
    match freeTrigger s1 with
    | some ch => claimTrigger ch g s1
    | none => s1

/-! ### DALI (R495 to R500) -/

/-- Bus `i`. -/
def State.bus (s : State) (i : Nat) : DaliBus := s.pole.dali.getD i {}

/-- Bus `i` changed. -/
def updBus (i : Nat) (f : DaliBus → DaliBus) (s : State) : State := { s with pole.dali := Bank.modify s.pole.dali i f }

/-- DALI_CONFIG in force. -/
def daliCfg (s : State) (i : Nat) : DaliCfg := Map.getD s.kept.pole.dali i {}

/-- The frame in slot `k` of bus `i`. -/
def daliFrame (s : State) (i k : Nat) : Option DaliFrame := Map.get? (s.bus i).slots k

/-- The frame in slot `k` of bus `i` changed. -/
def updDaliFrame (i k : Nat) (f : DaliFrame → DaliFrame) (s : State) : State :=
  match daliFrame s i k with
  | some x => updBus i (fun b => { b with slots := Map.set b.slots k (f x) }) s
  | none => s

/-- A frame completes with a status of Table 11-5; its slot is freed. -/
def daliDone (i k status answer : Nat) (s : State) : State :=
  match daliFrame s i k with
  | none => s
  | some x =>
    let s1 := updBus i (fun b => { b with slots := Map.erase b.slots k }) s
    completeJob x.job (ok (le 1 status ++ le 1 answer ++ le 1 (bit x.late) ++ [0] ++ (x.start.getD {}).bytes)) s1

/-- Settling before a forward frame of priority `p`, in ns, without its random part (Table 11-4). -/
def settlingNs (p : Nat) : Nat :=
  if p ≤ 1 then 13500000 else if p = 2 then 14900000 else if p = 3 then 16300000 else if p = 4 then 17900000 else 19500000

/-- Length of a frame of `bits` bits behind its start bit, at the nominal half bit of 416.7 µs. -/
def daliNs (bits : Nat) : Nat := (bits + 1) * 833400

/-- Does interface `i` send? -/
def daliUp (s : State) (i : Nat) : Bool :=
  decide (i < 2) && (daliCfg s i).enable && unitUp s 39 && decide (s.boot.stage = 8) && decide (s.power.mode ≠ .dormant) && !(s.bus i).fault

/-- The next frame of an interface: the second of a pair, else the lowest slot that need not wait for its trigger (R497). -/
def nextDali (s : State) (i : Nat) : Option (Nat × DaliFrame) :=
  match (s.bus i).slots.find? (fun e => e.2.firstEnd.isSome) with
  | some e => some e
  | none => (s.bus i).slots.find? (fun e => !e.2.hold || e.2.triggered)

/-- The local instant at which the bus has been idle for a frame's settling time. -/
def daliReady (s : State) (i : Nat) (x : DaliFrame) (extra : Nat) : Nat :=
  (s.bus i).idleSince + settlingNs (if x.firstEnd.isSome then 1 else x.prio) + min extra 1200000

/-- Frame in slot `k` goes on the bus now: its start bit is the point of commitment. -/
def startDali (i k : Nat) (x : DaliFrame) (s : State) : State :=
  let s1 := updDaliFrame i k (fun y => { y with start := if x.firstEnd.isSome then y.start else some s.stamp, triggered := true }) s
  let s2 := if x.late ∧ x.firstEnd.isNone ∧ x.tries = 0 then poleCount (i + 1) cDaliLate s1 else s1
  emit (.frame 39 i [x.bits, x.data]) (commitJob x.job (updBus i (fun b => { b with sending := some (k, s.time.mono) }) s2))

/-- DALI_FRAME_START (R496, R497): the next frame starts once settling allows. -/
def daliStart (i extra : Nat) (s : State) : State :=
  if !daliUp s i ∨ (s.bus i).sending.isSome ∨ (s.bus i).answer.isSome then s
  else match nextDali s i with
    | none => s
    | some (k, x) =>
      let t := daliReady s i x extra
      match x.firstEnd with
      | some e => if max t s.time.mono > e + 94000000 then s else startDali i k x (advanceMono t s)
      | none => startDali i k x (advanceMono t s)

/-- Target 0x05 of a time trigger (R498): the frame starts now where settling allows, else as soon as it does. -/
def daliTrigger (arg : Nat) (s : State) : State :=
  let i := arg % 2
  let k := arg / 256 % 256
  match daliFrame s i k with
  | none => poleCount (i + 1) cDaliTrigMiss s
  | some x =>
    if !x.hold ∨ x.triggered then poleCount (i + 1) cDaliTrigMiss s
    else
      let (r, s1) := draw s
      let free : Bool := daliUp s1 i && (s1.bus i).sending.isNone && (s1.bus i).answer.isNone &&
        decide (daliReady s1 i x (r % 1200001) ≤ s1.time.mono) &&
        (match (s1.bus i).slots.find? (fun e => e.2.firstEnd.isSome) with | some _ => false | none => true)
      if free then startDali i k x s1
      else updDaliFrame i k (fun y => { y with triggered := true, late := true }) s1

/-- DALI_FRAME_END (R496): a pair's first frame waits for its second; a query opens the window; any other frame is SENT. -/
def daliEnd (i : Nat) (s : State) : State :=
  match (s.bus i).sending with
  | none => s
  | some (k, t) =>
    match daliFrame s i k with
    | none => updBus i (fun b => { b with sending := none }) s
    | some x =>
      let s1 := advanceMono (t + daliNs x.bits) s
      let s2 := poleCount (i + 1) cDaliTx (updBus i (fun b => { b with sending := none, idleSince := s1.time.mono }) s1)
      if x.twice ∧ x.firstEnd.isNone then updDaliFrame i k (fun y => { y with firstEnd := some s2.time.mono }) s2
      else if x.expect then updBus i (fun b => { b with answer := some (k, s2.time.mono) }) (updDaliFrame i k (fun y => { y with firstEnd := none }) s2)
      else daliDone i k 0 0 s2

/-- DALI_BACKWARD_RX (R496): accepted when its start bit begins 5.3 to 12.0 ms after the forward frame's end. -/
def daliBackward (i gap data : Nat) (corrupt : Bool) (s : State) : State :=
  match (s.bus i).answer with
  | none => updBus i (fun b => { b with idleSince := s.time.mono }) s
  | some (k, t) =>
    if gap > 12000000 then s
    else
      let s1 := advanceMono (t + gap + daliNs 8) s
      let s2 := updBus i (fun b => { b with idleSince := s1.time.mono }) s1
      if gap < 5300000 then s2
      else
        let s3 := updBus i (fun b => { b with answer := none }) s2
        if corrupt then daliDone i k 3 0 (poleCount (i + 1) cDaliCorrupt s3)
        else daliDone i k 1 (data % 256) (poleCount (i + 1) cDaliAnswer s3)

/-- DALI_ANSWER_WINDOW_END (R496). -/
def daliWindowEnd (i : Nat) (s : State) : State :=
  match (s.bus i).answer with
  | none => s
  | some (k, t) =>
    daliDone i k 2 0 (poleCount (i + 1) cDaliNoAnswer (updBus i (fun b => { b with answer := none }) (advanceMono (t + 12000000) s)))

/-- DALI_FORWARD_RX (R495, R499): a frame of another master. -/
def daliForward (i bits data : Nat) (good : Bool) (s : State) : State :=
  if !daliUp s i ∨ (s.bus i).sending.isSome then s
  else
    let s1 := updBus i (fun b => { b with idleSince := s.time.mono }) s
    if !good ∨ (bits ≠ 16 ∧ bits ≠ 24) then poleCount (i + 1) cDaliRxErr s1
    else
      let s2 := poleCount (i + 1) cDaliRx (emit (.frame 39 (2 + i) [bits, data % 2 ^ bits]) s1)
      if (daliCfg s2 i).rxEvents then raise 39 0x0903 (le 1 i ++ le 1 bits ++ le 4 (data % 2 ^ bits)) s2 else s2

/-- DALI_COLLISION (R497): the interface stops; the frame is sent again, up to RETRIES times. -/
def daliCollision (i : Nat) (s : State) : State :=
  match (s.bus i).sending with
  | none => s
  | some (k, _) =>
    if !(daliCfg s i).collision then s
    else
      let s1 := poleCount (i + 1) cDaliCollision (updBus i (fun b => { b with sending := none, idleSince := s.time.mono }) s)
      match daliFrame s1 i k with
      | none => s1
      | some x =>
        if x.tries ≥ (daliCfg s1 i).retries then daliDone i k 4 0 s1
        else updDaliFrame i k (fun y => { y with tries := y.tries + 1 }) s1

/-- DALI_BUS_FAULT (R499): every frame in the slots completes BUS_FAULT. -/
def daliFault (i : Nat) (s : State) : State :=
  if i ≥ 2 ∨ !(daliCfg s i).enable ∨ (s.bus i).fault then s
  else
    let s1 := (s.bus i).slots.foldl (fun s e => daliDone i e.1 5 0 s) (updBus i (fun b => { b with sending := none, answer := none, fault := true }) s)
    raise 39 0x0904 (le 1 i ++ le 1 1) (poleCount (i + 1) cDaliBusFault { s1 with pole.faultStk := true })

/-- DALI_BUS_RECOVER (R499): the bus has been idle for 2.4 ms. -/
def daliRecover (i : Nat) (s : State) : State :=
  if i ≥ 2 ∨ !(s.bus i).fault then s
  else raise 39 0x0904 (le 1 i ++ le 1 0) (updBus i (fun b => { b with fault := false, idleSince := s.time.mono - 2400000 }) s)

/-- DALI_TWICE_TIMEOUT (R496): the second frame of a pair has not started within 94 ms of the first's end. -/
def daliTwiceTimeout (i : Nat) (s : State) : State :=
  match (s.bus i).slots.find? (fun e => e.2.firstEnd.isSome) with
  | none => s
  | some (k, x) =>
    if (s.bus i).sending.isSome then s else daliDone i k 6 0 (advanceMono (x.firstEnd.getD 0 + 94000000) s)

/-- Every frame that is not on the bus completes FLUSHED (R500, Table 11-5). -/
def daliFlush (s : State) : State :=
  [0, 1].foldl (fun s i => (s.bus i).slots.foldl (fun s e => daliDone i e.1 7 0 s)
    (updBus i (fun b => { b with sending := none, answer := none }) s)) s

/-! ### Timers and PWM (R501 to R507) -/

/-- TMR_CHAN_SET in force. -/
def tmrCfg (s : State) (c : Nat) : TmrCfg := Map.getD s.kept.pole.timers c {}

/-- Channel `c`. -/
def State.tmr (s : State) (c : Nat) : TmrRun := s.pole.timers.getD c {}

/-- Channel `c` changed. -/
def updTmr (c : Nat) (f : TmrRun → TmrRun) (s : State) : State := { s with pole.timers := Bank.modify s.pole.timers c f }

/-- Local ns of one tick. -/
def tmrTick (g : TmrCfg) : Nat := 10 * (g.prescale + 1)

/-- Ticks since the counter was `base`; a linked channel and a channel that does not run count none. -/
def tmrTicks (g : TmrCfg) (x : TmrRun) (mono : Nat) : Nat :=
  if x.running ∧ (g.mode = 1 ∨ g.mode = 2) then (mono - x.baseNs) / tmrTick g else 0

/-- The count of a channel (R501). -/
def tmrCountAt (g : TmrCfg) (x : TmrRun) (mono : Nat) : Nat :=
  if g.mode = 2 then min (max (g.period - 1) x.base) (x.base + tmrTicks g x mono)
  else if tmrTicks g x mono = 0 then x.base
  else (x.base + tmrTicks g x mono) % g.period

/-- The count of channel `c` now. -/
def tmrCount (s : State) (c : Nat) : Nat := tmrCountAt (tmrCfg s c) (s.tmr c) s.time.mono

/-- The level of PWM output `c` for a logical level, with OUT_INV. -/
def setPwm (c : Nat) (high : Bool) (s : State) : State :=
  if c ≥ 8 then s
  else
    let lvl := high != (tmrCfg s c).outInv
    if s.pole.pwm.getD c false = lvl then s
    else emit (.pinAt "PWM" c lvl s.time.mono) { s with pole.pwm := s.pole.pwm.setIfInBounds c lvl }

/-- Compare values written with SHADOW take effect at the wrap. -/
def loadShadows (c : Nat) (s : State) : State :=
  updTmr c (fun x => { x with cmpA := x.shadowA.getD x.cmpA, cmpB := x.shadowB.getD x.cmpB, shadowA := none, shadowB := none }) s

/-- A match (R503, R505): CMP_A ends the high time of its output, CMP_B raises TIMER_MATCH. -/
def fireMatch (c which : Nat) (s : State) : State :=
  if which = 0 then setPwm c false s
  else if (tmrCfg s c).matchEvent then raise 38 0x0905 (le 1 c ++ le 4 (s.tmr c).cmpB) s
  else s

/-- What the counter's arrival at 0 by a wrap does: shadows, the output, a compare value of 0. -/
def wrapEffect (c : Nat) (s : State) : State :=
  let s1 := loadShadows c s
  let s2 := setPwm c (decide ((s1.tmr c).cmpA ≠ 0)) s1
  if (s2.tmr c).cmpB = 0 then fireMatch c 1 s2 else s2

/-- Does channel `c` advance by the wraps of channel c − 1? -/
def linkedTo (s : State) (c : Nat) : Bool := decide (c < 16) && decide (c % 4 ≠ 0) && decide ((tmrCfg s c).mode = 3) && (s.tmr c).running

/-- A linked channel advances by one, and those behind it by its wraps. -/
def linkStep (fuel c : Nat) (s : State) : State :=
  match fuel with
  | 0 => s
  | k + 1 =>
    if !linkedTo s c then s
    else
      let n := (s.tmr c).base + 1
      if n ≥ (tmrCfg s c).period then linkStep k (c + 1) (wrapEffect c (updTmr c (fun x => { x with base := 0 }) s))
      else
        let s1 := updTmr c (fun x => { x with base := n }) s
        let s2 := if (s1.tmr c).cmpA = n then fireMatch c 0 s1 else s1
        if (s2.tmr c).cmpB = n then fireMatch c 1 s2 else s2

/-- Linked channels from `c` on take `w` wraps of channel c − 1 that passed unobserved. -/
def linkBy (fuel c w : Nat) (s : State) : State :=
  match fuel with
  | 0 => s
  | k + 1 =>
    if w = 0 ∨ !linkedTo s c then s
    else
      let p := max 1 (tmrCfg s c).period
      let n := (s.tmr c).base + w
      let s1 := updTmr c (fun x => { x with base := n % p }) s
      if n < p then s1
      else
        let s2 := loadShadows c s1
        linkBy k (c + 1) (n / p) (setPwm c (decide (n % p < (s2.tmr c).cmpA)) s2)

/-- Periods that have passed since the counter was last looked at are taken up: shadows loaded, the output as the count says. -/
def tmrSync (c : Nat) (s : State) : State :=
  let g := tmrCfg s c
  let x := s.tmr c
  let n := tmrTicks g x s.time.mono
  if g.mode ≠ 1 ∨ x.base + n < g.period then s
  else
    let p := max 1 g.period
    let m := (x.base + n) % p
    let s1 := loadShadows c (updTmr c (fun x => { x with base := m, baseNs := x.baseNs + n * tmrTick g }) s)
    linkBy 4 (c + 1) ((x.base + n) / p) (setPwm c (decide (m < (s1.tmr c).cmpA)) s1)

/-- Time moves on to the tick at which the counter of `c`, which does not wrap before, is `v`. -/
def tmrReach (c v : Nat) (s : State) : State :=
  let g := tmrCfg s c
  let x := s.tmr c
  let t := x.baseNs + (v - x.base) * tmrTick g
  updTmr c (fun x => { x with base := v, baseNs := t }) (advanceMono t s)

/-- TIMER_WRAP (R501): a periodic counter wraps to 0 on the tick behind PERIOD − 1; a one-shot stops there. -/
def timerWrap (c : Nat) (s : State) : State :=
  let g := tmrCfg s c
  if c ≥ 16 ∨ !unitUp s 38 ∨ s.power.mode = .dormant ∨ !(s.tmr c).running then s
  else if g.mode = 1 then
    let s1 := tmrReach c g.period (tmrSync c s)
    linkStep 4 (c + 1) (wrapEffect c (updTmr c (fun x => { x with base := 0 }) s1))
  else if g.mode = 2 then
    let s1 := tmrReach c (max (g.period - 1) (s.tmr c).base) s
    raise 38 0x0907 (le 1 c) (updTmr c (fun x => { x with running := false }) s1)
  else s

/-- TIMER_MATCH (R503): time moves on to the tick at which the counter becomes equal to the compare value. -/
def timerMatch (c which : Nat) (s : State) : State :=
  let g := tmrCfg s c
  if c ≥ 16 ∨ which > 1 ∨ !unitUp s 38 ∨ s.power.mode = .dormant ∨ !(s.tmr c).running ∨ (g.mode ≠ 1 ∧ g.mode ≠ 2) then s
  else
    let cmp (t : State) : Nat := if which = 0 then (t.tmr c).cmpA else (t.tmr c).cmpB
    let s1 := tmrSync c s
    if cmp s1 ≥ g.period then s
    else if tmrCount s1 c < cmp s1 then fireMatch c which (tmrReach c (cmp s1) s1)
    else if g.mode = 2 then s
    else
      let s2 := timerWrap c s1
      let v := cmp s2
      if v = 0 ∨ v ≥ g.period then s2 else fireMatch c which (tmrReach c v s2)

/-- The counter of `c` is loaded with PHASE; a match occurs on that tick only if PHASE equals the compare value (R502, R504). -/
def loadPhase (c : Nat) (s : State) : State :=
  let p := (tmrCfg s c).phase
  let s1 := updTmr c (fun x => { x with base := p }) s
  let s2 := if (s1.tmr c).cmpA = p then fireMatch c 0 s1 else s1
  if (s2.tmr c).cmpB = p then fireMatch c 1 s2 else s2

/-- Is channel `c` one that its group starts, resets and stops? -/
def inGroup (s : State) (c : Nat) : Bool := (tmrCfg s c).runOnGroup && decide ((tmrCfg s c).mode ≠ 0)

/-- Group start (R502): PHASE loaded, the prescalers restarted, the channels run. -/
def groupStart (g : Nat) (s : State) : State :=
  (List.range 4).foldl (fun s i =>
    let c := 4 * g + i
    if inGroup s c then loadPhase c (updTmr c (fun x => { x with running := true, baseNs := s.time.mono }) (tmrSync c s)) else s) s

/-- Group reset (R502): PHASE loaded, without changing whether the channels run. -/
def groupReset (g : Nat) (s : State) : State :=
  (List.range 4).foldl (fun s i =>
    let c := 4 * g + i
    if inGroup s c then
      let s1 := tmrSync c s
      let n := tmrTicks (tmrCfg s1 c) (s1.tmr c) s1.time.mono
      loadPhase c (updTmr c (fun x => { x with baseNs := x.baseNs + n * tmrTick (tmrCfg s1 c) }) s1)
    else s) s

/-- Group stop: the counters stand. -/
def groupStop (g : Nat) (s : State) : State :=
  (List.range 4).foldl (fun s i =>
    let c := 4 * g + i
    if inGroup s c then
      let s1 := tmrSync c s
      let n := tmrCount s1 c
      updTmr c (fun x => { x with running := false, base := n }) s1
    else s) s

/-- New TMR_CHAN_SET settings of channel `c`: its counter goes on from its count. -/
def tmrSettings (old : TmrCfg) (c : Nat) (s : State) : State :=
  let g := tmrCfg s c
  if { old with cmpA := 0, cmpB := 0 } = { g with cmpA := 0, cmpB := 0 } then s
  else
    let n := tmrCountAt old (s.tmr c) s.time.mono
    let s1 := updTmr c (fun x => { x with base := n, baseNs := s.time.mono,
                                          running := decide (g.mode ≠ 0) && (x.running || !g.runOnGroup) }) s
    if old.outInv ≠ g.outInv ∧ c < 8 then
      let lvl := !(s1.pole.pwm.getD c false)
      emit (.pinAt "PWM" c lvl s1.time.mono) { s1 with pole.pwm := s1.pole.pwm.setIfInBounds c lvl }
    else s1

/-- Any capture queue overflowed. -/
def capOvfStk (s : State) : Bool := s.pole.timers.toList.any (·.ovf)

/-! ### GPIO (R508, R509) -/

/-- GPIO_CONFIG in force of a pin. -/
def gpioCfg (s : State) (p : Nat) : GpioCfg := Map.getD s.kept.pole.gpio p {}

/-- The level at the ball of a pin: what the device drives, else what the board drives, else the pull; none of them: a free level. -/
def gpioLevel (p : Nat) (s : State) : Bool × State :=
  let g := gpioCfg s p
  let out := match Map.get? s.pole.pulses p with
    | some l => l
    | none => hasBit s.kept.pole.levels p
  if g.mode = 1 ∨ (g.mode = 2 ∧ !out) then (out, s)
  else match Map.get? s.pole.ext p with
    | some l => (l, s)
    | none => if g.pull = 1 then (true, s) else if g.pull = 2 then (false, s) else drawBit s

/-- The level that the device drives on a pin; none for an input or an open-drain output that is released. -/
def gpioDrive (s : State) (p : Nat) : Option Bool :=
  let g := gpioCfg s p
  let out := match Map.get? s.pole.pulses p with
    | some l => l
    | none => hasBit s.kept.pole.levels p
  if g.mode = 1 ∨ (g.mode = 2 ∧ !out) then some out else none

/-- Pins whose driven level has changed are reported. -/
def gpioPins (old : State) (s : State) : State :=
  (List.range 32).foldl (fun s p =>
    match gpioDrive s p with
    | some l => if gpioDrive old p = some l then s else emit (.pinAt "GPIO" p l s.time.mono) s
    | none => s) s

/-- The edge part of GPIO_EDGE (R508, R511): the debounced level, and an event at most once per pin and beat. -/
def gpioEdgeEvent (p : Nat) (rising : Bool) (s : State) : State :=
  let g := gpioCfg s p
  let s1 := { s with pole.ext := Map.set s.pole.ext p rising }
  if g.mode ≠ 0 ∨ !unitUp s 38 ∨ s.boot.stage ≠ 8 ∨ s.power.mode = .dormant ∨ !(if rising then g.onRise else g.onFall) ∨
      Map.get? s.pole.edgeBeat p = some s.beat then s1
  else raise 38 0x0908 (le 1 p ++ le 1 (bit (!rising)) ++ le 1 (bit rising)) { s1 with pole.edgeBeat := Map.set s1.pole.edgeBeat p s1.beat }

/-- GPIO_EDGE (R508): an edge event, and the wake of Table 10-7. -/
def gpioEdge (p : Nat) (rising : Bool) (s : State) : State := if p ≥ 32 then s else gpioWake p rising (gpioEdgeEvent p rising s)

/-- Target 0x07 of a time trigger (R509): a pulse begins on a pin with ALT 2; whether it does. -/
def pulseStart (p : Nat) (activeLow : Bool) (s : State) : State × Bool :=
  if p < 32 ∧ (gpioCfg s p).alt = 2 ∧ (gpioCfg s p).mode ≠ 0 then
    (gpioPins s { s with pole.pulses := Map.set s.pole.pulses p (!activeLow) }, true)
  else (poleCount 3 cTrigPinMiss s, false)

/-- The pulse on a pin ends. -/
def pulseStop (p : Nat) (s : State) : State := gpioPins s { s with pole.pulses := Map.erase s.pole.pulses p }

/-- TIMER_CAPTURE (R506, R507): an unfiltered edge on a pin with ALT 1 takes the count and the stamp of its channel. -/
def timerCapture (p : Nat) (rising : Bool) (s : State) : State :=
  let g := gpioCfg s p
  let c := g.arg
  let s0 := if p < 32 then { s with pole.ext := Map.set s.pole.ext p rising } else s
  if p ≥ 32 ∨ g.alt ≠ 1 ∨ c ≥ 16 ∨ !unitUp s 38 ∨ s.boot.stage ≠ 8 ∨ s.power.mode = .dormant ∨
      !hasBit (tmrCfg s c).capEdge (if rising then 0 else 1) then s0
  else
    let x := s0.tmr c
    if x.queue.length ≥ 4 ∨ x.fullAt = some s0.time.mono then
      let s1 := poleCount 3 cCapOvf (updTmr c (fun x => { x with ovf := true }) s0)
      if x.ovf then s1 else raise 38 0x0906 (le 1 c) s1
    else updTmr c (fun x => { x with queue := x.queue ++ [{ count := tmrCount s0 c, stamp := s0.stamp, falling := !rising }] }) s0

/-! ### The commit window, READY, resets -/

/-- New settings of the chapter come into force at the commit window of beat `b`. -/
def poleSettings (old : State) (b : Nat) (s : State) : State :=
  let k := old.kept.pole
  let s1 := meterSettings k.meter b s
  let s2 := (List.range 16).foldl (fun s c => tmrSettings (Map.getD k.timers c {}) c s) s1
  gpioPins old s2

/-- The metering service makes a copy pending every ENERGY_SAVE_BEATS (R490); commands whose beat has passed. `n` beats after the last. -/
def poleCommit (b n : Nat) (s : State) : State :=
  let g := meterCfg s
  let s1 := if !g.enable then s
    else if s.pole.saveCount + n ≥ g.saveBeats then { s with pole.saveCount := 0, stw.changePending := true }
    else { s with pole.saveCount := s.pole.saveCount + n }
  lateFires (b - 1) s1

/-- The Kept compare values are in effect, channels outside group control run, outputs take their levels (R509): at READY, and after a reset
of the TIMERS unit. -/
def timersReady (s : State) : State :=
  let s1 := { s with pole.timers := Vector.ofFn (fun c =>
    let g := tmrCfg s c.val
    ({ cmpA := g.cmpA, cmpB := g.cmpB, running := decide (g.mode ≠ 0) && !g.runOnGroup, baseNs := s.time.mono } : TmrRun)) }
  (List.range 32).foldl (fun s p => match gpioDrive s p with | some l => emit (.pinAt "GPIO" p l s.time.mono) s | none => s) s1

/-- At READY: timers, outputs and metering start. -/
def poleReady (s : State) : State := meterStart (timersReady s)

/-- What the ownership sweep does with a pole unit (R510, R557): its trigger channels stop, captures being gathered are freed, frames are
flushed. -/
def sweepPole (src : Nat) (s : State) : State :=
  if src = 37 then stopMeter s
  else if src = 38 then
    let s1 := (List.range 16).foldl (fun s ch => if (s.trig ch).armed ∧ [3, 4, 7].contains (s.trig ch).target then abandonTrig ch 0 s else s) s
    { s1 with pole.pulses := [], pole.timers := s1.pole.timers.map (fun x => { cmpA := x.cmpA, cmpB := x.cmpB }) }
  else if src = 39 then daliFlush s
  else s

/-- The reason with which METER or DALI refuses at step 3 (R493, R500): 0 for none; only a Dormant entry is refused. -/
def poleBusy (s : State) (b : Nat) : Nat :=
  match s.power.entry with
  | none => 0
  | some e =>
    if e.target ≠ .dormant then 0
    else if b = 37 then (if s.pole.gather.isSome then 7 else 0)
    else if b = 39 then (if [0, 1].any (fun i => (s.bus i).sending.isSome || (s.bus i).answer.isSome) then 1 else 0)
    else 0

/-! ### Commands -/

/-- METER_CONFIG (R484, R490). -/
def meterConfig : Handler where
  fields := [fMask 16 1 3, fRange 17 1 0 2, fMask 18 1 0xF, fZero 19 1, fRange 20 2 16 256, fZero 22 2, fAny 24 4, fAny 28 4, fAny 32 4, fAny 36 4,
    fRange 40 4 60000 86400000]
  run c _ s :=
    let g : MeterCfg := { enable := c.flag 16 1 0, overwrite := c.flag 16 1 1, rate := c.u 17 1, mask := c.u 18 1, history := c.u 20 2,
                          scale := [c.u 24 4, c.u 28 4, c.u 32 4, c.u 36 4], saveBeats := c.u 40 4 }
    let put (s : State) : State := stageKept (fun k => { k with pole.meter := g }) s
    if !g.enable then
      let (r, s1) := draw s
      (put s1, .reply (ok (le 1 r)))
    else match s.pole.trigCh with
      | some ch => (put s, .reply (ok (le 1 ch)))
      | none =>
        match freeTrigger s with
        | none => (s, .reply { status := stNoResource })
        | some ch => (put (claimTrigger ch g s), .reply (ok (le 1 ch)))

/-- METER_TRIG_SET (R491). -/
def meterTrigSet : Handler where
  fields := [fRange 16 1 0 3, fMask 17 1 3, fRange 18 1 0 3, fRange 19 1 0 3, fAny 20 4, fRange 24 2 1 100, fRange 26 1 1 100, fZero 27 1,
    fAny 28 2, fRange 30 2 1 4096, fAny 32 2]
  run c _ s :=
    if c.u 28 2 > s.next.pole.meter.history then (s, .reply (badArg 28))
    else
      let r : CaptureRule := { enable := c.flag 17 1 0, wake := c.flag 17 1 1, kind := c.u 18 1, chan := c.u 19 1, threshold := c.u 20 4,
                               window := c.u 24 2, stepPct := c.u 26 1, pre := c.u 28 2, post := c.u 30 2, holdoff := c.u 32 2 }
      (stageKept (fun k => { k with pole.rules := Map.set k.pole.rules (c.u 16 1) r }) s, .reply (ok))

/-- METER_CAPTURE_FIRE (R491, R492): answered when gathering starts. Its chapter names no point of commitment, so that is acceptance (R108). -/
def meterCaptureFire : Handler where
  fields := [fAny 16 8, fAny 24 2, fRange 26 2 1 4096]
  run c _ s :=
    let t := if c.u 16 8 = 0 then s.beat + 1 else c.u 16 8
    if c.u 24 2 > s.next.pole.meter.history then (s, .reply (badArg 24))
    else if t < s.beat then (s, .reply { status := stLate })
    else (s, .wait true t 0)

/-- METER_CAPTURE_READ (R493). -/
def meterCaptureRead : Handler where
  fields := [fAny 16 4, fAny 20 4, fMask 24 1 1, fZero 25 3]
  run c _ s :=
    if !hasBit c.flags 0 then (s, .reply (badArg 0))
    else match s.pole.records.find? (fun r => r.id = c.u 16 4) with
      | none => (s, .reply (badArg 16))
      | some r =>
        let all := r.bytes
        let part := (all.drop (c.u 20 4)).take c.bulkLen
        let s1 := updLane c.lane (fun l => { l with bulk := Memory.writeList l.bulk c.bulkOff part }) s
        let s2 := if c.flag 24 1 0 then
            uncharge 5 r.charged { s1 with pole.records := s1.pole.records.filter (fun x => x.id ≠ r.id) } else s1
        (s2, .reply { ok (le 4 part.length ++ le 4 all.length) with bulkOut := part.length })

/-- The RMS of a window in thousandths of a line unit; a window that is not full leaves it open. -/
def windowRms (w : Option (Nat × Nat)) (scale : Nat) (s : State) : Nat × State :=
  match w with
  | some (q, n) =>
    if n = 0 then draw s
    else
      let (v, t) := openQuot (q * scale * scale) (n * 10 ^ 6) s
      openRoot v t
  | none => draw s

/-- The RMS of channel `ch` over the last window in thousandths of its line unit; which rule's window is not stated. -/
def lineRms (ch scale : Nat) (s : State) : Nat × State :=
  windowRms (rmsWindow s ch (Map.getD s.kept.pole.rules ((draw s).1 % 4) {}).window 0) scale (draw s).2

/-- METER_ENERGY_READ (R489, R490). -/
def meterEnergyRead : Handler where
  fields := [fRange 16 1 0 1, fMask 17 1 1, fZero 18 2]
  run c _ s :=
    let p := c.u 16 1
    let g := meterCfg s
    let e := energyOf s p
    let sv := g.scale.getD (2 * p) 0
    let si := g.scale.getD (2 * p + 1) 0
    let den := 10 ^ 9 * (1000 * perBeat g.rate)
    let (a, s1) := openQuot (e.imp * sv * si) den s
    let (b, s2) := openQuot (e.exp * sv * si) den s1
    let (v, s3) := lineRms (2 * p) sv s2
    let (i, s4) := lineRms (2 * p + 1) si s3
    let s5 := if c.flag 17 1 0 then { s4 with pole.energy := Map.set s4.pole.energy p { sinceBeat := s4.beat } } else s4
    (s5, .reply (ok (le 8 e.samples ++ le 12 e.imp ++ le 12 e.exp ++ le 12 e.vv ++ le 12 e.ii ++ le 8 a ++ le 8 b ++ le 4 v ++ le 4 i ++
      le 8 e.sinceBeat ++ le 8 s.pole.restoredBeat)))

/-- DALI_CONFIG (R495). -/
def daliConfig : Handler where
  fields := [fRange 16 1 0 1, fMask 17 1 0x1F, fRange 18 1 0 7, fZero 19 1]
  run c _ s :=
    let g : DaliCfg := { enable := c.flag 17 1 0, txInv := c.flag 17 1 1, rxInv := c.flag 17 1 2, rxEvents := c.flag 17 1 3,
                         collision := c.flag 17 1 4, retries := c.u 18 1 }
    (stageKept (fun k => { k with pole.dali := Map.set k.pole.dali (c.u 16 1) g }) s, .reply (ok))

/-- DALI_SEND (R497): a frame takes a slot. -/
def daliSend : Handler where
  fields := [fRange 16 1 0 1, fOneOf 17 1 (List.range 16 ++ [0xFF]), fMask 18 1 7, fOneOf 19 1 [16, 24], fRange 20 1 1 5, fZero 21 3, fAny 24 4]
  run c id s :=
    let i := c.u 16 1
    let free := (List.range 16).filter (fun k => (daliFrame s i k).isNone)
    let slot := if c.u 17 1 = 0xFF then free.head? else if free.contains (c.u 17 1) then some (c.u 17 1) else none
    if (s.bus i).fault then (s, .reply { status := stBusy })
    else match slot with
      | none => (s, .reply { status := stBusy })
      | some k =>
        let x : DaliFrame := { job := id, bits := c.u 19 1, data := c.u 24 4 % 2 ^ c.u 19 1, prio := c.u 20 1, hold := c.flag 18 1 0,
                               twice := c.flag 18 1 1, expect := c.flag 18 1 2 }
        (updBus i (fun b => { b with slots := Map.set b.slots k x }) s, .wait false 0 0)

/-- TMR_CHAN_SET (R501, Table 11-9). -/
def tmrChanSet : Handler where
  fields := [fRange 16 1 0 15, fRange 17 1 0 3, fMask 18 1 0xF, fMask 19 1 3, fAny 20 2, fZero 22 2, fRange 24 4 2 0xFFFFFFFF, fAny 28 4, fAny 32 4,
    fAny 36 4]
  run c _ s :=
    let ch := c.u 16 1
    if c.u 17 1 = 3 ∧ ch % 4 = 0 then (s, .reply (badArg 17))
    else if c.u 28 4 ≥ c.u 24 4 then (s, .reply (badArg 28))
    else
      let g : TmrCfg := { mode := c.u 17 1, runOnGroup := c.flag 18 1 0, lateFire := c.flag 18 1 1, outInv := c.flag 18 1 2,
                          matchEvent := c.flag 18 1 3, capEdge := c.u 19 1, prescale := c.u 20 2, period := c.u 24 4, phase := c.u 28 4,
                          cmpA := c.u 32 4, cmpB := c.u 36 4 }
      (updTmr ch (fun x => { x with shadowA := some g.cmpA, shadowB := some g.cmpB })
        (stageKept (fun k => { k with pole.timers := Map.set k.pole.timers ch g }) (tmrSync ch s)), .reply (ok))

/-- TMR_GROUP (R502). -/
def tmrGroup : Handler where
  fields := [fRange 16 1 0 3, fRange 17 1 0 2, fZero 18 2]
  run c _ s :=
    let g := c.u 16 1
    (if c.u 17 1 = 0 then groupStop g s else if c.u 17 1 = 1 then groupStart g s else groupReset g s, .reply (ok))

/-- TMR_COMPARE (R503). -/
def tmrCompare : Handler where
  fields := [fRange 16 1 0 15, fRange 17 1 0 1, fMask 18 1 1, fZero 19 1, fAny 20 4]
  run c _ s :=
    let ch := c.u 16 1
    let which := c.u 17 1
    let v := c.u 20 4
    let upd (k : Kept) : Kept :=
      let g := Map.getD k.pole.timers ch {}
      { k with pole.timers := Map.set k.pole.timers ch (if which = 0 then { g with cmpA := v } else { g with cmpB := v }) }
    let s1 := setKept upd (tmrSync ch s)
    let n := tmrCount s1 ch
    if c.flag 18 1 0 then
      (updTmr ch (fun x => if which = 0 then { x with shadowA := some v } else { x with shadowB := some v }) s1, .reply (ok (le 4 n ++ le 1 0)))
    else
      let s2 := updTmr ch (fun x => if which = 0 then { x with cmpA := v, shadowA := none } else { x with cmpB := v, shadowB := none }) s1
      if v ≤ n then
        let s3 := poleCount 3 cBehind { s2 with pole.behindStk := true }
        (if (tmrCfg s3 ch).lateFire then fireMatch ch which s3 else s3, .reply (ok (le 4 n ++ le 1 1)))
      else (s2, .reply (ok (le 4 n ++ le 1 0)))

/-- A capture queue entry's 16 bytes (Table 11-6). -/
def TmrCapture.bytes (e : TmrCapture) : List Byte :=
  le 4 e.count ++ le 2 e.stamp.frac ++ le 8 e.stamp.ns ++ le 1 e.stamp.epoch ++ le 1 (bit e.falling)

/-- TMR_CAPTURE_READ (R506, R507). -/
def tmrCaptureRead : Handler where
  fields := [fRange 16 1 0 15, fRange 17 1 1 4, fMask 18 1 1, fZero 19 1]
  run c _ s :=
    let ch := c.u 16 1
    let x := s.tmr ch
    let out := x.queue.take (c.u 17 1)
    (updTmr ch (fun x => { x with queue := x.queue.drop (c.u 17 1), ovf := x.ovf && !c.flag 18 1 0,
                                  fullAt := if x.queue.length ≥ 4 then some s.time.mono else x.fullAt }) s,
      .reply (ok (le 1 out.length ++ le 1 (bit x.ovf) ++ [0, 0] ++ (out.map TmrCapture.bytes).flatten)))

/-- GPIO_CONFIG (R508, R509). -/
def gpioConfig : Handler where
  fields := [fRange 16 1 0 31, fRange 17 1 0 31, fRange 18 1 0 2, fRange 19 1 0 2, fRange 20 1 0 2, fAny 21 1, fAny 22 1, fMask 23 1 3]
  run c _ s :=
    if c.u 17 1 < c.u 16 1 then (s, .reply (badArg 17))
    else if c.u 20 1 = 2 ∧ c.u 18 1 = 0 then (s, .reply (badArg 20))
    else if c.u 20 1 = 1 ∧ c.u 21 1 > 15 then (s, .reply (badArg 21))
    else
      let g : GpioCfg := { mode := c.u 18 1, pull := c.u 19 1, alt := c.u 20 1, arg := c.u 21 1, debounceUs := c.u 22 1, onRise := c.flag 23 1 0,
                           onFall := c.flag 23 1 1 }
      let pins := (List.range 32).filter (fun p => decide (c.u 16 1 ≤ p) && decide (p ≤ c.u 17 1))
      (stageKept (fun k => { k with pole.gpio := pins.foldl (fun m p => Map.set m p g) k.pole.gpio }) s, .reply (ok))

/-- GPIO_WRITE (R509): the levels written are Kept; the levels at the balls are read back. -/
def gpioWrite : Handler where
  fields := [fAny 16 4, fAny 20 4]
  run c _ s :=
    let new' (v : Nat) : Nat := maskOf ((List.range 32).filter (fun p => if hasBit (c.u 16 4) p then hasBit (c.u 20 4) p else hasBit v p))
    let s1 := gpioPins s (setKept (fun k => { k with pole.levels := new' k.pole.levels }) s)
    let r := (List.range 32).foldl (fun a p =>
      let l := gpioLevel p a.2
      (if l.1 then p :: a.1 else a.1, l.2)) (([] : List Nat), s1)
    (r.2, .reply (ok (le 4 (maskOf r.1))))

/-- POLE_COUNTERS (R510, Table 11-10). -/
def poleCounters : Handler where
  fields := [fRange 16 1 0 3, fMask 17 1 3, fMask 18 1 0xF, fZero 19 1]
  run c _ s :=
    let sel := c.u 16 1
    let n := if sel = 0 then 6 else if sel = 3 then 3 else 10
    let body := le 1 (fieldsWord [(0, bit s.pole.lostStk), (1, bit s.pole.faultStk), (2, bit s.pole.behindStk), (3, bit (capOvfStk s))]) ++
      [0, 0, 0] ++ tallyBytes s.pole.counts (128 * sel + 20) n
    let s1 := if c.flag 17 1 0 then { s with pole.counts := s.pole.counts.filter (fun e => e.1 / 128 ≠ sel) } else s
    let clr (i : Nat) : Bool := c.flag 17 1 1 && c.flag 18 1 i
    ({ s1 with pole.lostStk := s.pole.lostStk && !clr 0, pole.faultStk := s.pole.faultStk && !clr 1,
               pole.behindStk := s.pole.behindStk && !clr 2,
               pole.timers := if clr 3 then s1.pole.timers.map (fun x => { x with ovf := false }) else s1.pole.timers }, .reply (ok body))

/-! ### Meanings -/

/-- METER_JOB. -/
def execMeterJob (f : MeterFrame) (s : State) : Out := act (meterJob f) s
/-- DALI_FRAME_START. -/
def execDaliFrameStart (port extra : Nat) (s : State) : Out := act (daliStart port extra) s
/-- DALI_FRAME_END. -/
def execDaliFrameEnd (port : Nat) (s : State) : Out := act (daliEnd port) s
/-- DALI_BACKWARD_RX. -/
def execDaliBackwardRx (port gap data : Nat) (corrupt : Bool) (s : State) : Out := act (daliBackward port gap data corrupt) s
/-- DALI_ANSWER_WINDOW_END. -/
def execDaliAnswerWindowEnd (port : Nat) (s : State) : Out := act (daliWindowEnd port) s
/-- DALI_FORWARD_RX. -/
def execDaliForwardRx (port bits data : Nat) (good : Bool) (s : State) : Out := act (daliForward port bits data good) s
/-- DALI_COLLISION. -/
def execDaliCollision (port : Nat) (s : State) : Out := act (daliCollision port) s
/-- DALI_BUS_FAULT. -/
def execDaliBusFault (port : Nat) (s : State) : Out := act (daliFault port) s
/-- DALI_BUS_RECOVER. -/
def execDaliBusRecover (port : Nat) (s : State) : Out := act (daliRecover port) s
/-- DALI_TWICE_TIMEOUT. -/
def execDaliTwiceTimeout (port : Nat) (s : State) : Out := act (daliTwiceTimeout port) s
/-- TIMER_WRAP. -/
def execTimerWrap (chan : Nat) (s : State) : Out := act (timerWrap chan) s
/-- TIMER_MATCH. -/
def execTimerMatch (chan which : Nat) (s : State) : Out := act (timerMatch chan which) s
/-- TIMER_CAPTURE. -/
def execTimerCapture (pin : Nat) (rising : Bool) (s : State) : Out := act (timerCapture pin rising) s
/-- GPIO_EDGE. -/
def execGpioEdge (pin : Nat) (rising : Bool) (s : State) : Out := act (gpioEdge pin rising) s
/-- METER_CONFIG. -/
def execMeterConfig (c : Cmd) (s : State) : Out := act (submit 0x0901 meterConfig c) s
/-- METER_TRIG_SET. -/
def execMeterTrigSet (c : Cmd) (s : State) : Out := act (submit 0x0902 meterTrigSet c) s
/-- METER_CAPTURE_FIRE. -/
def execMeterCaptureFire (c : Cmd) (s : State) : Out := act (submit 0x0903 meterCaptureFire c) s
/-- METER_CAPTURE_READ. -/
def execMeterCaptureRead (c : Cmd) (s : State) : Out := act (submit 0x0904 meterCaptureRead c) s
/-- METER_ENERGY_READ. -/
def execMeterEnergyRead (c : Cmd) (s : State) : Out := act (submit 0x0905 meterEnergyRead c) s
/-- DALI_CONFIG. -/
def execDaliConfig (c : Cmd) (s : State) : Out := act (submit 0x0906 daliConfig c) s
/-- DALI_SEND. -/
def execDaliSend (c : Cmd) (s : State) : Out := act (submit 0x0907 daliSend c) s
/-- TMR_CHAN_SET. -/
def execTmrChanSet (c : Cmd) (s : State) : Out := act (submit 0x0908 tmrChanSet c) s
/-- TMR_GROUP. -/
def execTmrGroup (c : Cmd) (s : State) : Out := act (submit 0x0909 tmrGroup c) s
/-- TMR_COMPARE. -/
def execTmrCompare (c : Cmd) (s : State) : Out := act (submit 0x090A tmrCompare c) s
/-- TMR_CAPTURE_READ. -/
def execTmrCaptureRead (c : Cmd) (s : State) : Out := act (submit 0x090B tmrCaptureRead c) s
/-- GPIO_CONFIG. -/
def execGpioConfig (c : Cmd) (s : State) : Out := act (submit 0x090C gpioConfig c) s
/-- GPIO_WRITE. -/
def execGpioWrite (c : Cmd) (s : State) : Out := act (submit 0x090D gpioWrite c) s
/-- POLE_COUNTERS. -/
def execPoleCounters (c : Cmd) (s : State) : Out := act (submit 0x090E poleCounters c) s

end Sys2Proof.Machine
end

