-- ==== Sys2Proof/Machine/Burnisher.lean ====
section
/-! DEFINITION. The Burnisher (chapter 6): runs, steps, quiet checks, plausibility, stale marks, results; DRAM retraining (R416). -/

namespace Sys2Proof.Machine

/-! ### Targets (R586, Table 6-18) -/

/-- The chains of a radio. -/
def radioChains (t : Nat) : List Nat := if t = 32 ∨ t = 33 then [0, 1, 2, 3] else if t = 34 ∨ t = 35 then [0] else []

/-- SUBs of a target of calibration `id`; empty where Table 6-18 gives none. -/
def calSubs (s : State) (id t : Nat) : List Nat :=
  if id = 1 ∨ id = 2 ∨ id = 5 ∨ id = 6 then radioChains t
  else if id = 3 then (if 32 ≤ t ∧ t ≤ 35 then [0] else [])
  else if id = 4 then (if t = 3 then [0] else [])
  else if id = 7 then (if (t = 32 ∨ t = 33) ∧ (powerCfg s (t - 32)).closedLoop then [0, 1, 2, 3] else [])
  else if id = 8 then (if 8 ≤ t ∧ t ≤ 31 then [0] else radioChains t)
  else if id = 9 then (if t = 6 then List.range 10 else [])
  else if id = 10 then (if t = 37 then [0, 1, 2, 3] else [])
  else []

/-- The units that have targets. -/
def calUnits : List Nat := [3, 6] ++ (List.range 28).map (· + 8) ++ [37]

/-- Every target: calibration, unit, SUB. -/
def calTargets (s : State) : List (Nat × Nat × Nat) :=
  ((List.range 10).map (fun i => (calUnits.map (fun t => (calSubs s (i + 1) t).map (fun u => (i + 1, t, u)))).flatten)).flatten

/-- The Assay sensor of a unit (Table 13-4). -/
def calSensor (t : Nat) : Nat :=
  if t = 32 then 1 else if t = 33 then 2 else if t = 34 ∨ t = 35 then 3 else if 8 ≤ t ∧ t ≤ 31 then 4 else if t = 6 then 5 else 6

/-- The temperature of a target now, in 0.1 °C. -/
def calTemp (s : State) (t : Nat) : Int := s.assay.temps.getD (calSensor t) 0

/-- Channel group of a primary in its band: eights of the band's 20 MHz channel numbers in ascending order. -/
def vcoGroup (band n : Nat) : Nat :=
  if band = 0 then (n - 1) / 8
  else if band = 1 then (if n < 100 then (n - 36) / 4 else if n < 149 then 8 + (n - 100) / 4 else 20 + (n - 149) / 4) / 8
  else (n - 1) / 4 / 8

/-- The variant of the most recent result of a target; 0 where there is none. -/
def lastVariant (s : State) (id t u : Nat) : Nat :=
  let base := calKey id t u 0
  let mine := s.kept.front.results.filter (fun e => decide (base ≤ e.1) && decide (e.1 < base + 64))
  (mine.foldl (fun a e => if a.2 ≤ e.2.beat then (e.1 - base, e.2.beat) else a) (0, 0)).1

/-- The band, width or channel group in use for a target; the one last used while the radio has no channel (R586). -/
def calVariant (s : State) (id t u : Nat) : Nat :=
  if (t = 32 ∨ t = 33) ∧ (id = 1 ∨ id = 3 ∨ id = 8) then
    let c := chanCfg s (t - 32)
    if c.band = 0xFF then lastVariant s id t u
    else if id = 1 then c.band
    else if id = 3 then 16 * c.band + vcoGroup c.band c.primary
    else delayVariant s (t - 32) (operWidth s (t - 32) c.width)
  else 0

/-- The key of a target's result in use. -/
def calUse (s : State) (id t u : Nat) : Nat := calKey id t u (calVariant s id t u)

/-- The result in force. -/
def calResult (s : State) (key : Nat) : Option CalResult := Map.get? s.kept.front.results key

/-- What CAL_STATUS notes of a target. -/
def calNote (s : State) (key : Nat) : CalNote := Map.getD s.front.notes key {}

/-- A note changed. -/
def updNote (key : Nat) (f : CalNote → CalNote) (s : State) : State := { s with front.notes := Map.modify s.front.notes key {} f }

/-- Steps of a run (Table 6-7); a DRAM run has as many as its search takes. -/
def calSteps (id : Nat) : Nat := if id = 1 ∨ id = 6 then 4 else if id = 2 ∨ id = 5 ∨ id = 7 ∨ id = 10 then 2 else 1

/-- Does a step assume a quiet input (Table 6-7)? -/
def assumesQuiet (id t : Nat) : Bool := [1, 5, 6, 7].contains id || (decide (id = 8) && decide (t ≥ 32))

/-- A counter of the Burnisher, and of the radio whose target it is. -/
def calCount (t k : Nat) (s : State) : State :=
  let s1 := frontCount 3 k s
  if 32 ≤ t ∧ t ≤ 35 then frontCount t k s1 else s1

/-! ### Runs (R298) -/

/-- A target's name, whatever its band, width or group. -/
def CalRun.name (x : CalRun) : Nat := calKey x.id x.target x.sub 0

/-- The run of a target that is pending or in progress. -/
def calRunOf (s : State) (name : Nat) : Option CalRun := s.front.runs.find? (fun x => x.name = name)

/-- The run of a target changed. -/
def updCalRun (name : Nat) (f : CalRun → CalRun) (s : State) : State :=
  { s with front.runs := s.front.runs.map (fun x => if x.name = name then f x else x) }

/-- Has a step of the run started? -/
def CalRun.begun (x : CalRun) : Bool := x.running || decide (x.stepsDone > 0) || decide (x.fails > 0) || decide (x.dir > 0) || x.found ≠ []

/-- The Burnisher starts runs: READY, Full, Lean or Watch, not on its safe plan (R308, R310). -/
def calUp (s : State) : Bool :=
  decide (s.boot.stage = 8) && unitUp s 3 && s.power.mode.serves && !(s.unit 3).safe &&
    (match s.power.entry with
     | some e => decide (e.step < 3) || (decide (e.step = 3) && !e.agreed.contains 3)
     | none => true)

/-- A run of a target starts: a pending one goes on. -/
def startRun (id t u : Nat) (force auto : Bool) (jobs : List Nat) (s : State) : State :=
  let key := calKey id t u 0
  match calRunOf s key with
  | some _ => updCalRun key (fun x => { x with force := x.force || force, auto := x.auto || auto, jobs := x.jobs ++ jobs }) s
  | none =>
    calCount t cCalRun { s with front.runs := s.front.runs ++
      [{ id := id, target := t, sub := u, variant := calVariant s id t u, force := force, steps := calSteps id, auto := auto, jobs := jobs }] }

/-! ### Steps (R299 to R301) -/

/-- The CAL window of the plan in force that a target's step may use: start and end in µs (R299, R346). -/
def calWindow (s : State) (id t u : Nat) : Option (Nat × Nat) :=
  match (planOf s t).entries.find? (fun e => decide (e.kind = 0x0B) && decide (e.arg = id) && decide (e.flags = u)) with
  | some e => some (e.start, e.start + e.dur)
  | none => none

/-- A transmission committed on the radio would begin before a step that starts now could end (R283). -/
def stepBlocked (s : State) (t : Nat) : Bool :=
  committedTx s t ||
    (planOf s t).entries.any (fun e => !([1, 8, 0x0B, 0x0C, 0x0D].contains e.kind) &&
      decide (s.phase < e.start * 1000) && decide (e.start * 1000 < s.phase + 40000))

/-- A grant with SHARED_AERIAL or a BLANK input applies to the radio (R301). -/
def quietDeferred (s : State) (t : Nat) : Bool :=
  [0, 1].any (fun n => coexServes s n t &&
    (if (coexCfg s n).mode = 1 then (s.coexPort n).granted.isSome && (coexCfg s n).shared else (s.coexPort n).req))

/-- The commands that wait for a run pass their point of commitment at its first step (R310). -/
def commitCalJobs (x : CalRun) (s : State) : State := x.jobs.foldl (fun s j => commitJob j s) s

/-- A step of run `x` starts now. -/
def beginStep (x : CalRun) (s : State) : State :=
  let s1 := commitCalJobs x (updCalRun x.name (fun y => { y with running := true, since := s.time.mono }) s)
  let s2 := if x.target = 34 ∧ (x.id = 1 ∨ x.id = 2 ∨ x.id = 5 ∨ x.id = 8) then
      blankTo 34 (s1.time.mono + 40000) (blankChain 0 s1.time.mono s1) else s1
  if x.id = 7 then
    let r := x.target - 32
    let p := min (-10000000) (regulatory (powerCfg s2 r) x.sub 1 (operWidth s2 r (chanCfg s2 r).width) false)
    emit (.frame x.target 55 [x.sub, unsignedOf 32 p]) s2
  else s2

/-- CAL_STEP_START (R283, R299 to R301, R487): in a CAL window of the radio's plan; on a metering channel within the 40 µs after a sample
instant of a beat that no capture covers; on a port and on the crystal at any time from 20 µs on (R32). A step that can no longer end in its window is deferred. -/
def calStepStart (id t u : Nat) (s : State) : State :=
  match calRunOf s (calKey id t u 0) with
  | none => s
  | some x =>
    if s.time.settling ∨ s.overrunning 3 ∨ !calUp s ∨ x.running ∨ x.ready.isSome ∨ x.staleAt.isSome ∨ id = 9 ∨ x.stepsDone ≥ x.steps then s
    else if 32 ≤ t ∧ t ≤ 35 then
      match calWindow s id t u with
      | none => s
      | some (a, b) =>
        if s.phase ≥ b * 1000 then s
        else
          let s1 := advancePhase (a * 1000) s
          let blocked : Bool := stepBlocked s1 t || (assumesQuiet id t && quietDeferred s1 t)
          if s1.phase + 40000 > b * 1000 then (if blocked then calCount t cCalDefer s1 else s)
          else if blocked then s
          else beginStep x s1
    else if id = 10 then
      let covered : Bool := s.pole.gather.isSome || decide (firesOf s s.beat ≠ [])
      if 20000 ≤ s.phase ∧ sampled s s.beat ∧ s.phase % samplePeriod (meterCfg s).rate < 40000 ∧ !covered then beginStep x s else s
    else beginStep x (advancePhase 20000 s)

/-! ### Judgement (R301 to R303) -/

/-- Limits in codes (Table 6-8; a delay in 2^-16 ns). -/
def codeLimit (id t : Nat) : Option Nat :=
  if id = 2 then some 3 else if id = 3 then some 2 else if id = 4 then some 4 else if id = 5 then some 16 else if id = 6 then some 6
  else if id = 9 then some 8
  else if id = 8 then some (if t = 34 ∨ t = 35 then 20 * 65536 else if t ≥ 32 then 65536 else 32768)
  else none

/-- Limits of the parts that no code gives, in tenths. -/
def partLimits (id : Nat) : List Nat := if id = 1 then [5, 30] else if id = 7 then [10, 50] else if id = 10 then [640, 2] else []

/-- Does a result differ from the one in force by more than the plausibility limit (R302)? -/
def implausible (x : CalRun) (old : Option CalResult) (codes : List Int) (diffs : List Nat) : Bool :=
  match old with
  | none => false
  | some r =>
    if x.force then false
    else match codeLimit x.id x.target with
      | some l => (List.zip codes r.codes).any (fun p => decide ((p.1 - p.2).natAbs > l))
      | none => (List.zip diffs (partLimits x.id)).any (fun p => decide (p.1 > p.2))

/-- An attempt fails with a cause (R302, R303): after the fourth retry the target is marked stale. -/
def calFail (x : CalRun) (cause : Nat) (trial : List Int) (s : State) : State :=
  let k := x.key
  let s1 := calCount x.target (if cause = 1 then cCalQuiet else if cause = 2 then cCalPlaus else cCalRange)
    (updNote k (fun n => { n with fails := x.fails + 1, cause := cause, trial := if trial = [] then n.trial else trial }) s)
  let s2 := updCalRun x.name (fun y => { y with running := false, stepsDone := 0, fails := x.fails + 1, cause := cause, dir := 0, found := [] }) s1
  if x.fails + 1 < 5 then s2
  else raise 3 0x0C01 (le 1 x.id ++ le 1 x.target ++ le 1 x.sub ++ le 1 cause)
    (calCount x.target cCalStale (updCalRun x.name (fun y => { y with staleAt := some (s2.beat + 1) }) { s2 with front.calStaleStk := true }))

/-- A run succeeds: its result is applied at the commit window of the next beat, or of the one behind it (R304, R305). -/
def calSucceed (x : CalRun) (codes : List Int) (s : State) : State :=
  let at' := if s.phase ≤ 900000 then s.beat + 1 else s.beat + 2
  updNote x.key (fun n => { n with trial := codes })
    (updCalRun x.name (fun y => { y with running := false, ready := some ({ codes := codes, temp := calTemp s x.target, beat := s.beat }, at') }) s)

/-- The measurement of a run is judged. -/
def calJudge (x : CalRun) (f : CalFacts) (s : State) : State :=
  if f.atEnd then calFail x 3 f.codes s
  else if implausible x (calResult s x.key) f.codes f.diffs then calFail x 2 f.codes s
  else calSucceed x f.codes s

/-- The quiet threshold of a radio in dBm. -/
def quietLimit (s : State) (t : Nat) : Int := if t ≥ 34 then s.kept.front.cal.quietField else s.kept.front.cal.quietWide

/-- CAL_STEP_END (R301 to R305); a step that ran past the end of its beat has overrun (R33). -/
def calStepEnd (id t u : Nat) (f : CalFacts) (s : State) : State :=
  match s.front.runs.find? (fun x => decide (x.id = id) && decide (x.target = t) && decide (x.sub = u) && x.running) with
  | none => s
  | some x =>
    let s1 := jobEnded 3 (min f.dur 40000) (advanceMono (x.since + min f.dur 40000) s)
    let s2 := if t = 34 ∧ (id = 1 ∨ id = 2 ∨ id = 5 ∨ id = 8) then
        { s1 with front.blankUntil := Map.set s1.front.blankUntil 34 (min s1.time.mono (Map.getD s1.front.blankUntil 34 0)) } else s1
    let s3 := if id = 3 ∧ f.lowMargin then
        { s2 with front.retune := txSynth t :: s2.front.retune.filter (· ≠ txSynth t) } else s2
    if assumesQuiet id t ∧ f.energy ≥ quietLimit s3 t then calFail x 1 [] s3
    else if x.stepsDone + 1 < x.steps then updCalRun x.name (fun y => { y with running := false, stepsDone := x.stepsDone + 1 }) s3
    else calJudge { x with stepsDone := x.steps } f (updCalRun x.name (fun y => { y with running := false, stepsDone := x.steps }) s3)

/-! ### DRAM retraining (R416) -/

/-- Lines of a DRAM target: read capture and write data, or the command-address line. -/
def dramLines (u : Nat) : Nat := if u < 8 then 2 else 1

/-- The channel of a DRAM target. -/
def dramChannelOf (u : Nat) : Nat := if u < 8 then u / 4 else u - 8

/-- The next state of a search whose test at its tap gave `pass`: the search, none where the attempt fails at a range end. -/
def trainNext (x : CalRun) (tap : Nat) (pass : Bool) : Option CalRun :=
  if x.dir = 0 then
    if !pass then none
    else if tap = 0 ∨ tap ≥ 255 then none
    else some { x with dir := 1, tap := tap - 1, lo := tap, hi := tap }
  else if x.dir = 1 then
    if !pass then some { x with dir := 2, tap := x.hi + 1 }
    else if tap = 0 then none
    else some { x with tap := tap - 1, lo := tap }
  else if !pass then some { x with dir := 0, found := x.found ++ [(((x.lo + x.hi) / 2 : Nat) : Int)] }
  else if tap ≥ 255 then none
  else some { x with tap := tap + 1, hi := tap }

/-- TRAIN_STEP (R416): directly after a refresh burst on channel `k` one step tests one tap; panic holds it back. -/
def trainStep (k : Nat) (pass : Bool) (s : State) : State :=
  match s.front.runs.find? (fun x => decide (x.id = 9) && decide (dramChannelOf x.sub = k) && x.ready.isNone && x.staleAt.isNone) with
  | none => s
  | some x =>
    if !calUp s ∨ (s.unit 6).safe ∨ !unitUp s 6 then s
    else if anyPanic s then calCount 6 cCalDefer s
    else
      let line := x.found.length
      let centre := (((calResult s x.key).getD {}).codes.getD line 128).toNat
      let tap := if x.dir = 0 then centre else x.tap
      let s1 := memCount cTrainStep (commitCalJobs x s)
      match trainNext x tap pass with
      | none => calFail x 3 [] s1
      | some y =>
        if y.found.length ≥ dramLines x.sub then calJudge { y with dir := 0 } { codes := y.found } (updCalRun x.name (fun _ => { y with dir := 0 }) s1)
        else updCalRun x.name (fun _ => y) s1

/-- REFRESH_BURST with the training step behind it. -/
def burstAndTrain (k delayNs : Nat) (pass : Bool) (s : State) : State :=
  let s1 := refreshBurst k delayNs s
  if (s1.channel k).burst = (s.channel k).burst ∧ (s1.channel k).burstBeat = (s.channel k).burstBeat then s1 else trainStep k pass s1

/-! ### The commit window (R303 to R308) -/

/-- The outcome of a run reaches the commands that wait for it; the last one answers (R310). -/
def tellJobs (key : Nat) (good : Bool) (s : State) : State :=
  s.front.calJobs.foldl (fun s j =>
    if !j.left.contains key then s
    else
      let y : CalJob := { j with left := j.left.filter (· ≠ key), applied := if good then j.applied + 1 else j.applied,
                                 stale := if good then j.stale else j.stale + 1 }
      if y.left = [] then
        completeJob j.job { status := if y.stale = 0 then stOk else stStale, body := le 2 y.applied ++ le 2 y.stale }
          { s with front.calJobs := s.front.calJobs.filter (fun z => z.job ≠ j.job) }
      else { s with front.calJobs := s.front.calJobs.map (fun z => if z.job = j.job then y else z) }) s

/-- A result is applied (R303, R304, R306). -/
def applyRun (b : Nat) (x : CalRun) (r : CalResult) (s : State) : State :=
  let k := x.key
  let s1 := setKept (fun m => { m with front.results := Map.set m.front.results k r }) s
  let s2 := match (calNote s1 k).stale with
    | some w => raise 3 0x0C02 (le 1 x.id ++ le 1 x.target ++ le 1 x.sub ++ le 4 (b - w)) s1
    | none => s1
  tellJobs x.name true (calCount x.target cCalApply
    (updNote k (fun n => { n with fails := 0, cause := 0, stale := none, hot := false }) { s2 with front.runs := s2.front.runs.filter (fun y => y.name ≠ x.name) }))

/-- A stale mark takes effect (R303). -/
def markStale (w : Nat) (x : CalRun) (s : State) : State :=
  let k := x.key
  tellJobs x.name false (updNote k (fun n => { n with stale := some (w - 1), retryBeat := w - 1 + s.kept.front.cal.staleRetry })
    { s with front.runs := s.front.runs.filter (fun y => y.name ≠ x.name) })

/-- The threshold of a calibration's class in 0.1 °C; none where its trigger is off. -/
def tempLimit (s : State) (id : Nat) : Option Nat :=
  let g := s.kept.front.cal
  if id = 9 then (if hasBit g.triggers 1 then some (10 * g.tempDram) else none)
  else if id = 10 then (if hasBit g.triggers 2 then some (10 * g.tempMeter) else none)
  else if hasBit g.triggers 0 then some (10 * g.tempRadio) else none

/-- Can a target run in the present settings: its radio has a channel or its band is enabled, its port is enabled, the converter is on? -/
def calActive (s : State) (id t : Nat) : Bool :=
  if t = 32 ∨ t = 33 then unitUp s t && decide ((chanCfg s (t - 32)).band ≠ 0xFF)
  else if t = 34 ∨ t = 35 then bandOn s (t - 34)
  else if 8 ≤ t ∧ t ≤ 31 then unitUp s t && decide ((portCfg s (t - 8)).mode ≠ 0)
  else if id = 10 then (meterCfg s).enable
  else true

/-- The triggers of one target (R298): its temperature, or a band, width or group that it has no result for. -/
def calTrigger (x : Nat × Nat × Nat) (s : State) : State :=
  let (id, t, u) := x
  let k := calUse s id t u
  if !calActive s id t then s
  else match calResult s k with
    | none =>
      if (calRunOf s (calKey id t u 0)).isSome ∨ (calNote s k).stale.isSome then s else startRun id t u false true [] s
    | some r =>
      let hot : Bool := match tempLimit s id with
        | some l => decide ((calTemp s t - r.temp).natAbs ≥ l)
        | none => false
      if hot = (calNote s k).hot then s
      else
        let s1 := updNote k (fun n => { n with hot := hot }) s
        if hot ∧ (calRunOf s1 (calKey id t u 0)).isNone then startRun id t u false true [] s1 else s1

/-- What the Burnisher does at the commit window of beat `b`. -/
def calCommit (b : Nat) (s : State) : State :=
  if s.boot.stage ≠ 8 then s
  else
    let s0 := { s with front.runs := s.front.runs.map (fun x : CalRun =>
      let v := calVariant s x.id x.target x.sub
      if x.variant = v ∨ x.running ∨ x.ready.isSome ∨ x.staleAt.isSome then x else { x with variant := v, stepsDone := 0, fails := 0 }) }
    let s1 := if (s.unit 3).safe then
        { s0 with front.runs := s0.front.runs.map (fun x => if x.ready.isSome then { x with ready := none, stepsDone := 0, dir := 0, found := [] } else x) }
      else s0.front.runs.foldl (fun s x =>
        match x.ready with
        | some (r, at') => if at' ≤ b then applyRun b x r s else s
        | none => s) s0
    let s2 := s1.front.runs.foldl (fun s x =>
      match x.staleAt with
      | some w => if w ≤ b then markStale w x s else s
      | none => s) s1
    let s3 := s2.front.retune.foldl (fun s i => startRetune i (if i < 2 then retuneStop i s else s)) s2
    let s4 := { s3 with front.retune := [] }
    if calUp s4 then (calTargets s4).foldl (fun s x => calTrigger x s) s4 else s4

/-- STALE_RETRY_EXPIRY (R303). -/
def staleRetry (id t u : Nat) (s : State) : State :=
  let k := calUse s id t u
  let n := calNote s k
  match n.stale with
  | none => s
  | some _ =>
    if (calRunOf s (calKey id t u 0)).isSome ∨ !calUp s ∨ n.retryBeat = 0 then s
    else startRun id t u false true [] (updNote k (fun n => { n with retryBeat := 0 }) (advanceTo (n.retryBeat * 1000000) s))

/-- At READY: start-up runs (R298); the taps that a full training found, which no rule gives, are results in force (R415). -/
def calReady (s : State) : State :=
  let s1 := (List.range 10).foldl (fun s u =>
    let k := calKey 9 6 u 0
    if (calResult s k).isSome ∧ !s.mem.trained.contains (dramChannelOf u) then s
    else
      let (a, t1) := draw s
      let (c, t2) := draw t1
      let codes : List Int := ([a, c].take (dramLines u)).map (fun v => ((v % 256 : Nat) : Int))
      setKept (fun m => { m with front.results := Map.set m.front.results k { codes := codes, temp := calTemp s 6, beat := s.beat } }) t2) s
  (calTargets s1).foldl (fun s x => if calActive s x.1 x.2.1 then startRun x.1 x.2.1 x.2.2 false true [] s else s) s1

/-- The runs end with a reset of the Burnisher; the commands that wait for them are answered ABANDONED (R556). -/
def sweepRuns (s : State) : State :=
  s.front.calJobs.foldl (fun s j => abandonJob j.job 6 s) { s with front.runs := [], front.calJobs := [], front.retune := [] }

/-! ### Commands -/

/-- CAL_RUN (R310, Table 6-14). -/
def calRun : Handler where
  fields := [fMask 16 2 0x3FF, fOneOf 18 1 ([3, 4, 5, 6] ++ (List.range 28).map (· + 8) ++ [37, 0xFF]), fAny 19 1, fMask 20 1 1, fZero 21 3]
  run c id s :=
    let picked := (calTargets s).filter (fun x => hasBit (c.u 16 2) (x.1 - 1) && (decide (c.u 18 1 = 0xFF) || decide (c.u 18 1 = x.2.1)) &&
      (decide (c.u 19 1 = 0xFF) || decide (c.u 19 1 = x.2.2)))
    if s.power.mode = .doze ∨ s.power.mode = .dormant then (s, .reply { status := stWrongMode, detail := s.power.mode.code })
    else if c.u 16 2 = 0 then (s, .reply (badArg 16))
    else if picked = [] then (s, .reply (badArg 18))
    else if s.stw.jobs.any (fun j => decide (j.opcode = 0x0C04) && decide (j.lane = c.lane)) then (s, .reply { status := stBusy })
    else
      let keys := picked.map (fun x => calKey x.1 x.2.1 x.2.2 0)
      let begun : Bool := s.front.runs.any (fun x => keys.contains x.name && x.begun)
      let s1 := picked.foldl (fun s x => startRun x.1 x.2.1 x.2.2 (c.flag 20 1 0) false [id] s) s
      ({ s1 with front.calJobs := s1.front.calJobs ++ [{ job := id, left := keys }] }, .wait begun 0 0)

/-- Eight bytes of codes; a code that no run has given is free. -/
def codeBytes (id : Nat) (codes : List Int) (n : Nat) : List Byte :=
  if id = 8 then (match codes with
    | c :: _ => leInt 8 c
    | [] => (List.range 8).map (fun i => Config.freeByte (n + i)))
  else
    let given := (codes.take 8).map (fun c => (leInt 1 c).headD 0)
    if codes = [] then (List.range 8).map (fun i => Config.freeByte (n + i)) else (given ++ List.replicate 8 0).take 8

/-- CAL_STATUS (R586, Table 6-15). -/
def calStatus : Handler where
  fields := [fRange 16 1 1 10, fOneOf 17 1 ([3, 4, 5, 6] ++ (List.range 28).map (· + 8) ++ [37]), fAny 18 1, fZero 19 1]
  run c _ s :=
    let id := c.u 16 1
    let t := c.u 17 1
    let u := if id = 5 then c.u 18 1 / 16 else c.u 18 1
    if calSubs s id t = [] then (s, .reply (badArg 17))
    else if !(calSubs s id t).contains u then (s, .reply (badArg 18))
    else
      let k := calUse s id t u
      let n := calNote s k
      let part (l : List Int) : List Int := if id = 5 then (l.drop (2 * (c.u 18 1 % 16))).take 2 else l
      let s1 := { s with draws := s.draws + 64 }
      let st := match calRunOf s (calKey id t u 0) with
        | some x => if x.fails > 0 then 2 else 1
        | none => if n.stale.isSome then 3 else if (calResult s k).isSome then 0 else 4
      let fails := match calRunOf s (calKey id t u 0) with | some x => x.fails | none => n.fails
      let res : List Byte :=
        if id = 3 ∧ t < 34 then
          (List.range 8).map (fun g => match calResult s (calKey 3 t 0 (16 * (calVariant s 3 t 0 / 16) + g)) with
            | some r => (leInt 1 (r.codes.headD 0)).headD 0
            | none => Config.freeByte (s.draws + g))
        else codeBytes id (part (((calResult s k).getD {}).codes)) s.draws
      let okPart : List Byte := match calResult s k with
        | some r => le 8 r.beat ++ leInt 2 r.temp
        | none => (List.range 10).map (fun i => Config.freeByte (s.draws + 16 + i))
      (s1, .reply (ok (le 1 st ++ le 1 fails ++ le 1 n.cause ++ le 1 (calSensor t) ++ okPart ++ leInt 2 (calTemp s t) ++ res ++
        codeBytes id (part n.trial) (s.draws + 32))))

/-! ### Meanings -/

/-- CAL_STEP_START. -/
def execCalStepStart (cal target sub : Nat) (s : State) : Out := act (calStepStart cal target sub) s
/-- CAL_STEP_END. -/
def execCalStepEnd (cal target sub : Nat) (facts : CalFacts) (s : State) : Out := act (calStepEnd cal target sub facts) s
/-- STALE_RETRY_EXPIRY. -/
def execStaleRetryExpiry (cal target sub : Nat) (s : State) : Out := act (staleRetry cal target sub) s
/-- REFRESH_BURST. -/
def execRefreshBurst (channel delayNs : Nat) (pass : Bool) (s : State) : Out := act (burstAndTrain channel delayNs pass) s
/-- CAL_RUN. -/
def execCalRun (c : Cmd) (s : State) : Out := act (submit 0x0C04 calRun c) s
/-- CAL_STATUS. -/
def execCalStatus (c : Cmd) (s : State) : Out := act (submit 0x0C05 calStatus c) s

end Sys2Proof.Machine
end

