-- ==== Sys2Proof/Machine/Trigger.lean ====
section
/-! DEFINITION. Time-trigger channels (R69 to R74), PPS_OUT (R78), the transmit timestamp queues as they are read (R65, R66). -/

namespace Sys2Proof.Machine

/-! ### Firing -/

/-- A pulse put among those of its channel, the earliest end first. -/
def insertPulse (p : Nat × Nat × Nat × Bool) : List (Nat × Nat × Nat × Bool) → List (Nat × Nat × Nat × Bool)
  | [] => [p]
  | x :: r => if x.1 ≤ p.1 then x :: insertPulse p r else p :: x :: r

/-- A pulse of target 0x01 or 0x07 begins: its output goes active, and its end is due WIDTH_NS later, whatever becomes of its channel and of
the TBC meanwhile. -/
def beginPulse (ch : Nat) (t : Trigger) (s : State) : State :=
  updTrig ch (fun x => { x with pulses := insertPulse (s.time.mono + t.width, t.target, t.arg, t.activeLow) x.pulses }) s

/-- What a firing does at its target (Table 1-14). While the servo is in FREE_RUN, PPS_OUT stays low (R78). -/
def targetAction (ch : Nat) (t : Trigger) (s : State) : State :=
  if t.target = 1 then
    if s.time.servo = .freeRun then s
    else emit (.pinAt "PPS_OUT" 0 (!t.activeLow) s.time.mono) (beginPulse ch t s)
  else if t.target = 2 then emit (.trigger 2 t.arg 0) s
  else if t.target = 3 then groupStart (t.arg % 4) s
  else if t.target = 4 then groupReset (t.arg % 4) s
  else if t.target = 5 then daliTrigger t.arg s
  else if t.target = 6 then fireEvent (t.arg % 256) s
  else if t.target = 7 then
    let (s1, driven) := pulseStart t.arg t.activeLow s
    if driven then beginPulse ch t s1 else s1
  else s

/-- TRIGn_STK of INT_STATUS: channel `ch` fired while armed from lane 0 or lane 1 (Table 2-11). -/
def firedStk (ch party : Nat) (s : State) : State := if party = 42 ∨ party = 43 then setInt (16 + ch) s else s

/-- One firing of channel `ch` now (R69, R70): counted, reported where FLAGS [0] asks for it; a one-shot, or the last of COUNT, ends it. Target
0x00, "Event only", raises its event under the same FLAGS [0], and does nothing else (DESIGN CHOICE, log entry 72). -/
def fireNow (ch : Nat) (s : State) : State :=
  let t := s.trig ch
  let ovr : Bool := decide (t.period = 0) || (decide (t.count ≠ 0) && decide (t.fired + 1 ≥ t.count))
  let s1 := timeCount cTrigFire (updTrig ch (fun x => { x with fired := satInc 32 x.fired, nextNs := x.nextNs + x.period, armed := !ovr }) s)
  let s2 := if t.eventEach then raise 0 0x0207 (le 1 ch ++ le 8 t.nextNs) s1 else s1
  targetAction ch t (firedStk ch t.party s2)

/-- TRIGGER_FIRE (R69): on the first TIME tick at which the TBC nanoseconds reach the instant; never in Dormant (R83). -/
def triggerFire (ch : Nat) (s : State) : State :=
  let t := s.trig ch
  if ch ≥ 16 ∨ !t.armed ∨ t.held ∨ s.power.mode = .dormant then s else fireNow ch (advanceTo t.nextNs s)

/-- TRIGGER_PULSE_END (R70): the channel's pulse that ends first ends, WIDTH_NS after its firing. Its output then goes inactive, though another
pulse that began meanwhile on the same output still runs: no rule says what two such pulses make of it (DESIGN CHOICE, log entry 93). -/
def triggerPulseEnd (ch : Nat) (s : State) : State :=
  match (s.trig ch).pulses with
  | [] => s
  | (fin, target, arg, low) :: r =>
    if s.power.mode = .dormant then s
    else
      let s1 := updTrig ch (fun x => { x with pulses := r }) (advanceMono fin s)
      if target = 1 then emit (.pinAt "PPS_OUT" 0 low s1.time.mono) s1 else pulseStop arg s1

/-- At the first beat boundary B′ of the new time, each held trigger is re-armed at its first instant at or after the start of B′ + 1
(Table 1-9). -/
def rearmHeld (b : Nat) (s : State) : State :=
  (List.range 16).foldl (fun s ch =>
    let t := s.trig ch
    if !t.armed ∨ !t.held then s
    else
      let lim := (b + 1) * 1000000
      -- PPS_OUT goes on at every whole second of the new time (R78)
      let first := if t.party = 45 ∧ t.target = 1 then t.firstNs % t.period else t.firstNs
      let k := if first ≥ lim then 0 else (lim - first + (t.period - 1)) / t.period
      let s1 := updTrig ch (fun x => { x with held := false, nextNs := first + k * x.period }) s
      if s1.pole.trigCh = some ch then { s1 with pole.liveFrom := b + 1 } else s1) s

/-! ### PPS_OUT (R78) -/

/-- Channel 15 armed for PPS_OUT: every whole second of TBC time plus PPS_OUT_OFFSET. -/
def armPps (s : State) : State :=
  let g := s.kept.time.pps
  let lim : Int := (s.ns : Int) + 50000 - g.outOffset
  let k := (lim + 999999999) / 1000000000
  let first := (k * 1000000000 + g.outOffset).toNat
  let t : Trigger := { armed := true, party := 45, target := 1, nextNs := first, firstNs := first, period := 1000000000, width := g.outWidth }
  updTrig 15 (fun x => { t with pulses := x.pulses }) s

/-- New PPS_OUT settings come into force. -/
def ppsSettings (old : Kept) (s : State) : State :=
  let o := old.time.pps
  let g := s.kept.time.pps
  if g.outEnable then
    if o.outEnable ∧ o.outWidth = g.outWidth ∧ o.outOffset = g.outOffset then s else armPps s
  else if o.outEnable ∧ (s.trig 15).armed then abandonTrig 15 0 s
  else s

/-! ### Commands -/

/-- Does the Steward hold the transmit timestamp queue of `src` (R65)? -/
def tsqHeld (s : State) (src : Nat) : Bool :=
  (decide (s.kept.time.servo.src = 1) && decide (src = 8 + s.kept.time.servo.port)) ||
    (decide (src = 32 ∨ src = 33) && ((ftmCfg s (src - 32)).responder || (ftmCfg s (src - 32)).timing))

/-- A transmit timestamp queue after `n` of its entries are read: the stamps of the same tick come behind the read, those that found the queue
full included (R66). What is answered, and the queue after it. -/
def readTsq (n : Nat) (clear : Bool) (q : Tsq) : List TsqEntry × Tsq :=
  let out := q.entries.take (min n (q.entries.length - q.fresh))
  let rest := q.entries.drop out.length
  let saved := q.spilt.take (16 - rest.length)
  let undone : Bool := !q.spilt.isEmpty && decide (saved.length = q.spilt.length)
  (out, { q with entries := rest ++ saved, fresh := q.fresh + saved.length, spilt := q.spilt.drop saved.length,
                 dropCnt := if q.spilt.isEmpty then q.dropCnt else satAdd 32 q.dropBefore (q.spilt.length - saved.length),
                 ovf := (if undone then q.ovfBefore else q.ovf) && !clear })

/-- Has a queue other than that of `src` discarded a stamp on the present tick? -/
def otherSpilt (src : Nat) (s : State) : Bool :=
  s.time.tsq.any (fun e => decide (e.1 ≠ src) && decide (e.2.tick = some s.time.acc) && !e.2.spilt.isEmpty)

/-- The discards of this tick that a read takes back leave neither the event that told of them nor, where no other queue discarded a stamp on the
tick, the device's flag. -/
def untellDrops (src : Nat) (q : Tsq) (s : State) : State :=
  { s with time.tsqOvfStk := s.time.tsqOvfStk && (s.time.tsqOvfBefore || otherSpilt src s),
           stw.events := if q.ovfBefore then s.stw.events else
             s.stw.events.filter (fun e => !(decide (e.code = 0x0204) && decide (e.data = le 1 src) && decide (e.stamp = s.stamp))) }

/-- Up to `n` entries of the queue of `src` taken off it, oldest first (R65, R66): the queue as it stood, what is taken, whether every discard of the
tick is taken back. -/
def takeTsq (src n : Nat) (clear : Bool) (s : State) : State × Tsq × List TsqEntry × Bool :=
  let q := tsqNow src s
  let r := readTsq n clear q
  let back : Bool := !q.spilt.isEmpty && r.2.spilt.isEmpty
  let s1 := { s with time.tsq := Map.set s.time.tsq src r.2 }
  (if back then untellDrops src q s1 else s1, q, r.1, back)

/-- TIME_TSQ_READ (R65, R66, Table 1-21). -/
def timeTsqRead : Handler where
  fields := [fRange 16 1 8 35, fRange 17 1 1 14, fMask 18 1 1, fZero 19 1]
  run c _ s :=
    let src := c.u 16 1
    if tsqHeld s src then (s, .reply (denied 45))
    else
      let x := takeTsq src (c.u 17 1) (c.flag 18 1 0) s
      (x.1, .reply (ok (le 1 x.2.2.1.length ++ le 1 (bit (if x.2.2.2 then x.2.1.ovfBefore else x.2.1.ovf)) ++ [0, 0] ++
        le 4 (Map.getD x.1.time.tsq src {}).dropCnt ++ (x.2.2.1.map TsqEntry.bytes).flatten)))

/-- The Steward's own services read the queues that they hold (R65, R66); in this model they do so at every commit window while it is READY (log
entry 73). -/
def stewardTsq (s : State) : State :=
  if s.stw.state = .ready ∧ coresRun s then
    s.time.tsq.foldl (fun s e => if tsqHeld s e.1 then (takeTsq e.1 16 false s).1 else s) s
  else s

/-- Is TARGET_ARG one that the target takes (Table 1-14)? -/
def trigArgOk (target arg : Nat) : Bool :=
  if target = 2 then decide (arg ≤ 15)
  else if target = 3 ∨ target = 4 then decide (arg ≤ 3)
  else if target = 5 then decide (arg % 256 ≤ 1) && decide (arg / 256 ≤ 15)
  else if target = 6 then decide (arg ≤ 255)
  else if target = 7 then decide (arg ≤ 31)
  else true

/-- TIME_TRIG_ARM (R71, R72, Table 1-22). The 50 µs run from the acceptance in whole TBC nanoseconds, its fraction dropped (DESIGN CHOICE, log
entry 72). -/
def timeTrigArm : Handler where
  fields := [fRange 16 1 0 15, fRange 17 1 0 7, fAny 18 2, fMask 20 2 3, fZero 22 2, fAny 24 8, fRange 32 4 0 4000000000, fAny 36 4, fAny 40 4]
  run c _ s :=
    let ch := c.u 16 1
    let target := c.u 17 1
    let period := c.u 32 4
    let width := c.u 40 4
    let t := s.trig ch
    let me := laneOwner c.lane
    let pulse : Bool := decide (target = 1) || decide (target = 7)
    if !trigArgOk target (c.u 18 2) then (s, .reply (badArg 18))
    else if period ≠ 0 ∧ (period < 10000 ∨ period % 2 = 1) then (s, .reply (badArg 32))
    else if pulse ∧ (width < 20 ∨ (period ≠ 0 ∧ width + 20 > period)) then (s, .reply (badArg 40))
    else if ch = 15 ∧ s.next.time.pps.outEnable then (s, .reply (denied 45))
    else if t.armed ∧ t.party ≠ me then (s, .reply (denied t.party))
    else if t.armed then (s, .reply { status := stBusy })
    else
      let lim := s.ns + 50000
      let first := c.u 24 8
      if period = 0 ∧ first < lim then (timeCount cTrigLate s, .reply { status := stLate })
      else
        let k := if period = 0 ∨ first ≥ lim then 0 else (lim - first + (period - 1)) / period
        let at' := first + k * period
        let n : Trigger := { armed := true, party := me, target := target, arg := c.u 18 2, eventEach := c.flag 20 2 0, activeLow := c.flag 20 2 1,
                             nextNs := at', firstNs := first, period := period, count := c.u 36 4, width := width, pulses := t.pulses }
        (updTrig ch (fun _ => n) s, .reply (ok (le 8 at')))

/-- TIME_TRIG_CANCEL (R72, R73): a firing whose instant has come is completed first. None fires in Dormant, whose cores serve before the wake has
ended: there a one-shot whose instant has passed is abandoned with cause LATE (R83). -/
def timeTrigCancel : Handler where
  fields := [fRange 16 1 0 15, fZero 17 3]
  run c _ s :=
    let ch := c.u 16 1
    let t := s.trig ch
    let me := laneOwner c.lane
    if t.armed ∧ (t.party ≠ me ∨ (ch = 15 ∧ s.kept.time.pps.outEnable)) then (s, .reply (denied t.party))
    else
      let s1 := if s.power.mode = .dormant then missedTrigger ch s
        else if t.armed ∧ !t.held ∧ t.nextNs ≤ s.ns then fireNow ch s else s
      let body := le 4 (s1.trig ch).fired
      if (s1.trig ch).armed then (abandonTrig ch 0 s1, .reply (ok body))
      else (s1, .reply { status := stTooLate, body := body })

/-! ### Meanings -/

/-- TRIGGER_FIRE. -/
def execTriggerFire (chan : Nat) (s : State) : Out := act (triggerFire chan) s
/-- TRIGGER_PULSE_END. -/
def execTriggerPulseEnd (chan : Nat) (s : State) : Out := act (triggerPulseEnd chan) s
/-- TIME_TSQ_READ. -/
def execTimeTsqRead (c : Cmd) (s : State) : Out := act (submit 0x0206 timeTsqRead c) s
/-- TIME_TRIG_ARM. -/
def execTimeTrigArm (c : Cmd) (s : State) : Out := act (submit 0x0207 timeTrigArm c) s
/-- TIME_TRIG_CANCEL. -/
def execTimeTrigCancel (c : Cmd) (s : State) : Out := act (submit 0x0208 timeTrigCancel c) s

end Sys2Proof.Machine
end

