-- ==== Sys2Proof/Machine/Assay.lean ====
section
/-! DEFINITION. The Assay unit's measurements (chapter 13): ageing pairs, guards and re-plans, temperature, LIFE_EQ, its commands. Faults and
unit resets stand in Faults.lean. -/

namespace Sys2Proof.Machine

/-! ### Counters of Table 13-11, by response offset -/

abbrev cPairMeas : Nat := 20
abbrev cReplan : Nat := 24
abbrev cGuardChange : Nat := 28
abbrev cOpRemoved : Nat := 32
abbrev cGovRise : Nat := 36
abbrev cGovBeat : Nat := 40
abbrev cAmbientBar : Nat := 44
abbrev cStwWdog : Nat := 48
abbrev cUnitReset : Nat := 60
abbrev cSweep : Nat := 64
abbrev cUnitDisable : Nat := 68
abbrev cOosBeats : Nat := 72

/-- An Assay counter advanced. -/
def assayCountBy (k n : Nat) (s : State) : State := { s with assay.counts := tallyBy s.assay.counts k n }
/-- An Assay counter incremented. -/
def assayCount (k : Nat) (s : State) : State := assayCountBy k 1 s

/-! ### Ageing pairs (R542) -/

/-- The domain of a pair (Table 13-1): 0 CORE, 1 W1, 2 W2, 3 FIELD, 4 SERDES, 5 DRAMPHY, 6 AON. -/
def pairDomain (p : Nat) : Nat :=
  if p ≤ 13 then 0 else if p ≤ 17 then 1 else if p ≤ 21 then 2 else if p ≤ 23 then 3 else if p ≤ 27 then 4 else if p ≤ 29 then 5 else 6

/-- Is the pair a guard pair (Table 13-1)? -/
def guardPair (p : Nat) : Bool := decide (pairDomain p ≠ 4) && decide (pairDomain p ≠ 6)

/-- Is a domain powered in the mode in force (Table 10-1)? A disabled radio's domain is held in reset, unpowered. -/
def domainPowered (s : State) (d : Nat) : Bool :=
  match s.power.mode with
  | .dormant => decide (d = 6)
  | .doze => decide (d ≠ 1) && decide (d ≠ 2)
  | .recovery => decide (d = 0) || decide (d ≥ 4)
  | _ => if d = 1 then !s.assay.disabled.contains 32 else if d = 2 then !s.assay.disabled.contains 33 else true

/-- The measured values of a pair, newest first. -/
def pairHist (s : State) (p : Nat) : List Int := Map.getD s.kept.assay.hist p []

/-- Twice the median of a list: the sum of the two values in its middle. -/
def median2 (l : List Int) : Int :=
  let x := sortBy (fun a b => decide (a ≤ b)) l
  x.getD ((x.length - 1) / 2) 0 + x.getD (x.length / 2) 0

/-- Twice D_p in ppm; 0 before the first measurement. -/
def degradation2 (s : State) (p : Nat) : Int := median2 (pairHist s p)

/-- The guard pair that gives D, the lowest of equal ones, and twice D. -/
def worstPair (s : State) : Nat × Int :=
  (List.range 32).foldl (fun b p => if guardPair p ∧ degradation2 s p > b.2 then (p, degradation2 s p) else b) (0, degradation2 s 0)

/-- D in whole ppm, as events and responses carry it. -/
def degradationPpm (s : State) : Nat := (roundAway (worstPair s).2 2).toNat

/-- ASSAY_PAIR_MEASURE (R542): the pair whose turn it is, once its turn has come and while its domain is powered. The quotient is rounded to
the nearest ppm; a count N_U of 0 gives no d. -/
def pairMeasure (nU nS : Nat) (s : State) : State :=
  let p := s.assay.nextPair
  if s.assay.pairBeats < 1000 ∨ !domainPowered s (pairDomain p) then s
  else
    let s1 := assayCount cPairMeas { s with assay.pairBeats := s.assay.pairBeats - 1000, assay.nextPair := (p + 1) % 32 }
    let (d, s2) : Int × State := if nU = 0 then
        (let (a, t) := draw s1
         (((a % 2 ^ 21 : Nat) : Int) - 2 ^ 20, t))
      else (roundAway (((nU : Int) - nS) * 10 ^ 6) nU, s1)
    setKept (fun k => { k with assay.hist := Map.set k.assay.hist p ((d :: Map.getD k.assay.hist p []).take 8) }) s2

/-! ### FULL_ALLOWED (R551) -/

/-- The hottest sensor, the lowest of equal ones, and its reading in 0.1 °C. -/
def hottest (s : State) : Nat × Int :=
  (List.range 8).foldl (fun b i => if s.assay.temps.getD i 0 > b.2 then (i, s.assay.temps.getD i 0) else b) (0, s.assay.temps.getD 0 0)

/-- Ta_est in units of 10^-4 °C: T_hot less P_est times THETA_JA. -/
def ambientEst (s : State) : Int := (hottest s).2 * 1000 - ((s.assay.pEst * s.kept.assay.config.thetaJa : Nat) : Int)

/-- The ambient rule judged: undeclared bars, at most 1.20 °C/W never does, above it 70 °C bars and 67 °C lifts. -/
def judgeAmbient (s : State) : State :=
  let th := s.kept.assay.config.thetaJa
  { s with assay.ambientBar :=
      if th = 0 then true
      else if th ≤ 120 then false
      else if ambientEst s > 700000 then true
      else if ambientEst s ≤ 670000 then false
      else s.assay.ambientBar }

/-- FULL_ALLOWED as the three conditions of R551 give it. -/
def fullNow (s : State) : Bool :=
  !s.kept.assay.removed.contains 3 && !s.kept.assay.removed.contains 4 && decide (s.assay.govLevel = 0) && !s.assay.ambientBar

/-- FULL_ALLOWED brought up to date. -/
def judgeFull (s : State) : State := setFullAllowed (fullNow s) s

/-! ### Re-plans (R543 to R546) -/

/-- GUARD0 of a point: fused, within the range of Table 13-2. -/
def guard0 (op : Nat) : Nat := (if op ≤ 2 then 10 else 15) + Config.guard0 op % 26

/-- SENS of a point in mV per 1 %. -/
def guardSens (op : Nat) : Nat := if op = 1 then 10 else if op = 2 then 9 else 8

/-- GUARD_MV that R543 gives for twice D: rounded up to a multiple of 5 mV. -/
def guardFormula (op : Nat) (d2 : Int) : Nat :=
  ((((guard0 op : Int) * 20000 + d2 * guardSens op).toNat + 99999) / 100000) * 5

/-- OP_MASK: bit n − 1 set while OPn remains. -/
def opMask (s : State) : Nat := maskOf ((List.range 4).filter (fun i => !s.kept.assay.removed.contains (i + 1)))

/-- The guard of a point; 0 for a removed one. -/
def guardOf (s : State) (op : Nat) : Nat := if s.kept.assay.removed.contains op then 0 else s.kept.assay.guards.getD (op - 1) 0

/-- GUARD_MV of OP1 to OP4 as bytes. -/
def guardBytes (s : State) : List Byte := ((List.range 4).map (fun i => le 2 (guardOf s (i + 1)))).flatten

/-- The guard of one point changed. -/
def setGuard (op g : Nat) (s : State) : State := setKept (fun k => { k with assay.guards := k.assay.guards.set (op - 1) g }) s

/-- One point re-planned (R543 to R546): `own` says that the re-plan runs by itself. -/
def replanPoint (own : Bool) (d2 : Int) (d : Nat) (s : State) (op : Nat) : State :=
  if s.kept.assay.removed.contains op then s
  else
    let g := guardFormula op d2
    let now := s.kept.assay.guards.getD (op - 1) 0
    let run := s.assay.lowerRun.getD (op - 1) 0
    let setRun (n : Nat) (s : State) : State := if own then { s with assay.lowerRun := s.assay.lowerRun.set (op - 1) n } else s
    if op ≥ 3 ∧ opNominal op + g > opCeiling op then
      raise 2 0x0B02 (le 1 op ++ le 4 d) (assayCount cOpRemoved
        (setKept (fun k => { k with assay.removed := k.assay.removed ++ [op] }) s))
    else
      let s1 := if g > now then setRun 0 (setGuard op g s)
        else if g = now then setRun 0 s
        else if !own then s
        else if run + 1 ≥ 7 then setRun 0 (setGuard op (now - 5) s)
        else setRun (run + 1) s
      if op ≤ 2 ∧ opNominal op + s1.kept.assay.guards.getD (op - 1) 0 > opCeiling op then
        let s2 := { s1 with assay.eolStk := true }
        if s2.assay.eolRaised then s2 else raise 2 0x0B07 (le 1 op ++ le 4 d) { s2 with assay.eolRaised := true }
      else s1

/-- The target of the point in force, or of the one that a raise awaits, written where a re-plan has changed it (R449). -/
def applyTarget (old : State) (s : State) : State :=
  let op := match s.power.avs with | some t => t.op | none => s.power.op
  let was := opTargetMv old op
  let now := opTargetMv s op
  if was = now ∨ s.power.op = 0 then s
  else writeAvs now (decide (now > was) || (match s.power.avs with | some t => t.raise | none => false)) op s

/-- The end of a re-plan of `s` whose points are re-planned in `s1` (R544): counted, its changes in force and reported, FULL_ALLOWED judged. -/
def replanEnd (own : Bool) (s s1 : State) : State :=
  let changed : Bool := decide (guardBytes s1 ≠ guardBytes s) || decide (opMask s1 ≠ opMask s)
  let s2 := assayCount cReplan { s1 with assay.lastReplan := s.beat, assay.replanBeats := if own then 0 else s1.assay.replanBeats }
  let s3 := if changed then
      raise 2 0x0B01 (le 1 (opMask s2) ++ guardBytes s2 ++ le 4 (degradationPpm s)) (assayCount cGuardChange s2)
    else s2
  judgeFull (applyTarget s s3)

/-- A re-plan (R543, R544). -/
def replan (own : Bool) (s : State) : State :=
  replanEnd own s ([1, 2, 3, 4].foldl (replanPoint own (worstPair s).2 (degradationPpm s)) s)

/-- ASSAY_REPLAN_PERIODIC (R544): every 86,400,000 beats. -/
def replanPeriodic (s : State) : State := if s.assay.replanBeats ≥ 86400000 then replan true s else s

/-- The commit window that applies a commanded re-plan (Table 13-9). -/
def replanCommit (s : State) : State :=
  match s.assay.replanning with
  | none => s
  | some id =>
    let s1 := replan false { s with assay.replanning := none }
    completeJob id (ok (le 1 (opMask s1) ++ List.replicate 7 0 ++ guardBytes s1)) s1

/-! ### Sensors (R549 to R552, R559) -/

/-- The observable conditions outside the specification (R559), judged now: temperature, and VDD_CORE off its target for 100 beats.
VDD_CORE has no sensor: the event's sensor byte is 0 for it (DESIGN CHOICE, log entry 95). -/
def outOfSpec (s : State) : State :=
  let bad := (List.range 8).filter (fun i => decide (s.assay.temps.getD i 0 < -400) || decide (s.assay.temps.getD i 0 > 1100))
  let off : Bool := match s.assay.vcoreOff with | some b => decide (s.beat ≥ b + 100) | none => false
  let now : Bool := !bad.isEmpty || off
  let tell (q sensor : Nat) (reading : List Byte) (s : State) : State :=
    if (match Map.get? s.assay.oosLast q with | some b => decide (s.beat < b + 1000) | none => false) then s
    else raise 2 0x0B06 (le 1 q ++ le 1 sensor ++ reading) { s with assay.oosLast := Map.set s.assay.oosLast q s.beat }
  let s1 := { s with assay.oosNow := now, assay.oosStk := s.assay.oosStk || now }
  let s2 := if now ∧ s1.assay.oosBeat ≠ some s1.beat then assayCount cOosBeats { s1 with assay.oosBeat := some s1.beat } else s1
  let s3 := match bad.head? with | some i => tell 0 i (leInt 2 (s2.assay.temps.getD i 0)) s2 | none => s2
  if off then tell 1 0 (le 2 s3.power.vcoreRead) s3 else s3

/-- A reading of the eight sensors and of the activity model taken into the record: the beats at 118 °C or above counted, R559 judged. -/
def sensorSeen (temps : List Int) (pEst : Nat) (s : State) : State :=
  let s1 := { s with assay.temps := (List.range 8).map (fun i => temps.getD i 0), assay.pEst := pEst, assay.sensorBeat := some s.beat }
  let before : Bool := decide (s.assay.sensorBeat = some (s.beat - 1))
  let run := if (hottest s1).2 ≥ 1180 then (if before then s.assay.hotBeats + 1 else 1) else 0
  outOfSpec { s1 with assay.hotBeats := run }

/-- SENSOR_READ (R549, R552, R559): once a beat, at 500 µs. -/
def sensorRead (temps : List Int) (pEst : Nat) (s0 : State) : State :=
  let s := if s0.power.mode = .dormant then s0 else advancePhase 500000 s0
  if s.power.mode = .dormant ∨ s.assay.sensorBeat = some s.beat then s else sensorSeen temps pEst s

/-- AVS_READ with what R559 observes of it. -/
def avsReadSeen (acked : Bool) (mv : Nat) (s : State) : State :=
  let t := match s.power.avs with | some a => a.mv | none => s.power.vcoreTarget
  let s1 := avsRead acked mv s
  if !acked then s1
  else if mv > t + 25 ∨ t > mv + 25 then
    outOfSpec { s1 with assay.vcoreOff := if s1.assay.vcoreOff = none then some s1.beat else s1.assay.vcoreOff }
  else { s1 with assay.vcoreOff := none }

/-- The threshold of a governor level in 0.1 °C. -/
def govThreshold (s : State) (level : Nat) : Int :=
  let g := s.kept.assay.config
  10 * (((if level ≤ 1 then g.govT1 else if level = 2 then g.govT2 else g.govT3 : Nat)) : Int)

/-- GOVERNOR_LEVEL (R550), at a plan commit: a rise takes effect here, a fall of one step after 1,000 cool beats; FULL_ALLOWED follows. -/
def governor (s : State) : State :=
  let h := hottest s
  let old := s.assay.govLevel
  let lvl := if h.2 ≥ govThreshold s 3 then 3 else if h.2 ≥ govThreshold s 2 then 2 else if h.2 ≥ govThreshold s 1 then 1 else 0
  let cool := if old > 0 ∧ h.2 + 50 ≤ govThreshold s old then s.assay.coolBeats + 1 else 0
  let new' := if lvl > old then lvl else if cool ≥ 1000 then old - 1 else old
  let s1 := { s with assay.coolBeats := if new' = old then cool else 0, assay.govLevel := new' }
  let s2 := if lvl > old then assayCount cGovRise s1 else s1
  let s3 := if new' = old then s2
    else raise 2 0x0B03 (le 1 new' ++ le 1 old ++ le 1 h.1 ++ leInt 2 h.2) { s2 with assay.govStk := true }
  let s4 := judgeAmbient (if new' > 0 then assayCount cGovBeat s3 else s3)
  judgeFull (if s4.assay.ambientBar then assayCount cAmbientBar s4 else s4)

/-! ### LIFE_EQ (R547) -/

/-- e^x for x = n / 2^40, with 40 fraction bits: the sixth-order series of e^(x/64), squared six times. -/
def expFixed (n : Int) : Nat :=
  let q : Int := 2 ^ 40
  let y := n / 64
  let t1 := q + y / 6
  let t2 := q + (y * t1 / q) / 5
  let t3 := q + (y * t2 / q) / 4
  let t4 := q + (y * t3 / q) / 3
  let t5 := q + (y * t4 / q) / 2
  let e := q + y * t5 / q
  let sq (v : Int) : Int := v * v / q
  (sq (sq (sq (sq (sq (sq e)))))).toNat

/-- AF at a reading in 0.1 °C, with 40 fraction bits. -/
def ageFactor (temp : Int) : Nat :=
  let t := 2 * temp + 5463
  if t ≤ 0 then 0 else expFixed (162470 * (t - 7363) * 2 ^ 40 / (7363 * t))

/-- One second at a reading: AF / 3,600 hours in units of 2^-32 hour. -/
def lifeSecond (temp : Int) : Nat := ageFactor temp / (3600 * 2 ^ 8)

/-- LIFE_EQ_TICK (R547): a second of TBC time; in Dormant a second of the sleep clock, whose sum is added at the wake. -/
def lifeTick (aon : Int) (s : State) : State :=
  if s.power.mode = .dormant then
    { s with power.sleepTicks := s.power.sleepTicks + 32768, assay.temps := s.assay.temps.set 7 aon,
             assay.lifeDormant := s.assay.lifeDormant + lifeSecond (aon / 10 * 10) }
  else if s.assay.lifeBeats < 1000 then s
  else setKept (fun k => { k with assay.lifeEq := k.assay.lifeEq + lifeSecond (hottest s).2 })
    { s with assay.lifeBeats := s.assay.lifeBeats - 1000 }

/-- What a commit window brings to the Assay unit, `n` beats after the last: its counts of beats, the sum of Dormant, a commanded re-plan,
and FULL_ALLOWED under new settings. The chip watchdog counts in the states of R555. -/
def assayCommit (n : Nat) (s : State) : State :=
  let counting : Bool := decide (s.stw.state ≠ .rom) && decide (s.power.mode ≠ .doze) && decide (s.power.mode ≠ .dormant)
  let s1 := { s with assay.pairBeats := s.assay.pairBeats + n, assay.replanBeats := s.assay.replanBeats + n,
                     assay.lifeBeats := s.assay.lifeBeats + n,
                     assay.chipWdog := if counting then s.assay.chipWdog + n else s.assay.chipWdog }
  let s2 := if s1.assay.lifeDormant = 0 ∨ s1.power.mode = .dormant then s1
    else setKept (fun k => { k with assay.lifeEq := k.assay.lifeEq + s1.assay.lifeDormant }) { s1 with assay.lifeDormant := 0 }
  replanCommit s2

/-! ### Commands (Table 13-9) -/

/-- ASSAY_STATUS (Table 13-10). -/
def assayStatus : Handler := readHandler [] (fun _ s =>
  le 1 (opMask s) ++ le 1 s.assay.govLevel ++
    le 1 (fieldsWord [(0, bit (fullNow s)), (1, bit s.assay.ambientBar), (2, bit s.assay.eolStk), (3, bit s.assay.oosNow)]) ++
    le 1 (worstPair s).1 ++ le 4 (degradationPpm s) ++ guardBytes s ++
    ((List.range 4).map (fun i => le 2 (if s.kept.assay.removed.contains (i + 1) then 0 else opTargetMv s (i + 1)))).flatten ++
    ((List.range 8).map (fun i => leInt 2 (s.assay.temps.getD i 0))).flatten ++ le 2 s.assay.pEst ++
    (if s.kept.assay.config.thetaJa = 0 then le 2 0x8000 else leInt 2 (roundAway (ambientEst s) 1000)) ++
    le 4 (s.kept.assay.lifeEq / 2 ^ 32) ++ le 8 s.assay.lastReplan ++ le 8 (maskOf s.assay.disabled))

/-- The offset of the first field of ASSAY_CONFIG found out of its range. -/
def badAssayConfig (c : Cmd) : Option Nat :=
  if c.u 16 2 ≠ 0 ∧ (c.u 16 2 < 50 ∨ c.u 16 2 > 1000) then some 16
  else if c.u 18 1 < 80 ∨ c.u 18 1 > 100 then some 18
  else if c.u 19 1 < c.u 18 1 + 2 ∨ c.u 19 1 > 106 then some 19
  else if c.u 20 1 < c.u 19 1 + 2 ∨ c.u 20 1 > 109 then some 20
  else if c.u 21 1 ≠ 0 then some 21
  else if c.u 22 2 < 50 ∨ c.u 22 2 > 1000 then some 22
  else none

/-- ASSAY_CONFIG (R560): Kept, in force at the next commit window. -/
def assayConfig : Handler where
  fields := [fAny 16 2, fAny 18 1, fAny 19 1, fAny 20 1, fAny 21 1, fAny 22 2]
  run c _ s :=
    match badAssayConfig c with
    | some o => (s, .reply (badArg o))
    | none =>
      (stageKept (fun k => { k with assay.config := { thetaJa := c.u 16 2, govT1 := c.u 18 1, govT2 := c.u 19 1, govT3 := c.u 20 1,
                                                      stwWdogBeats := c.u 22 2 } }) s, .reply (ok))

/-- ASSAY_REPLAN (R544): answered at the commit window that applies the result. -/
def assayReplan : Handler where
  fields := []
  run _ id s :=
    if s.assay.replanning.isSome then (s, .reply { status := stBusy })
    else ({ s with assay.replanning := some id }, .wait true 0 0)

/-- Does a command carry a bulk region of at least `n` bytes (R101)? -/
def bulkOf (c : Cmd) (n : Nat) : Bool := hasBit c.flags 0 && decide (c.bulkLen ≥ n)

/-- ASSAY_PAIR_READ. -/
def assayPairRead : Handler where
  fields := [fRange 16 1 0 31, fRange 17 1 1 32, fZero 18 2]
  run c _ s :=
    let first := c.u 16 1
    let n := c.u 17 1
    if first + n > 32 then (s, .reply (badArg 17))
    else if !bulkOf c (8 * n) then (s, .reply (badArg 0))
    else
      let bytes := ((List.range n).map (fun i =>
        let p := first + i
        le 4 (roundAway (degradation2 s p) 2).toNat ++ le 2 (min 65535 ((pairHist s p).headD 0).toNat) ++ le 1 (bit (guardPair p)) ++ [0])).flatten
      (writeBulk c bytes s, .reply { bulkOut := bytes.length })

/-- The 32 bytes of a fault-log entry (Table 13-9). -/
def FaultEntry.bytes (e : FaultEntry) : List Byte :=
  e.stamp.bytes ++ le 1 e.source ++ le 1 e.cls ++ le 1 e.action ++ [0] ++ (e.data ++ List.replicate 16 0).take 16

/-- ASSAY_FAULT_LOG (R553): newest first. -/
def assayFaultLog : Handler where
  fields := [fMask 16 1 1, fZero 17 3]
  run c _ s :=
    if !bulkOf c 1024 then (s, .reply (badArg 0))
    else
      let log := s.kept.assay.faultLog
      let bytes := (log.map FaultEntry.bytes).flatten
      let s1 := if c.flag 16 1 0 then setKept (fun k => { k with assay.faultLog := [] }) s else s
      (writeBulk c bytes s1, .reply { body := le 1 log.length, bulkOut := bytes.length })

/-- ASSAY_COUNTERS (Table 13-11). -/
def assayCounters : Handler where
  fields := [fMask 16 1 3, fMask 17 1 0xF, fZero 18 2]
  run c _ s :=
    let a := s.assay
    let body := le 1 (fieldsWord [(0, bit a.eolStk), (1, bit a.govStk), (2, bit a.unitDisabledStk), (3, bit a.oosStk)]) ++ [0, 0, 0] ++
      tallyBytes a.counts 20 8 ++ le 4 s.kept.assay.chipWdogCnt ++ le 4 s.kept.assay.thermalTripCnt ++ tallyBytes a.counts 60 4
    let s1 := if c.flag 16 1 0 then
        setKept (fun k => { k with assay.chipWdogCnt := 0, assay.thermalTripCnt := 0 }) { s with assay.counts := [] } else s
    let clr (i : Nat) : Bool := c.flag 16 1 1 && c.flag 17 1 i
    ({ s1 with assay.eolStk := a.eolStk && !clr 0, assay.govStk := a.govStk && !clr 1,
               assay.unitDisabledStk := a.unitDisabledStk && !clr 2, assay.oosStk := a.oosStk && !clr 3 }, .reply (ok body))

/-! ### Meanings -/

/-- AVS_READ. -/
def execAvsRead (acked : Bool) (mv : Nat) (s : State) : Out := act (avsReadSeen acked mv) s
/-- ASSAY_PAIR_MEASURE. -/
def execAssayPairMeasure (nU nS : Nat) (s : State) : Out := act (pairMeasure nU nS) s
/-- ASSAY_REPLAN_PERIODIC. -/
def execAssayReplanPeriodic (s : State) : Out := act replanPeriodic s
/-- SENSOR_READ. -/
def execSensorRead (temps : List Int) (pEst : Nat) (s : State) : Out := act (sensorRead temps pEst) s
/-- LIFE_EQ_TICK. -/
def execLifeEqTick (aon : Int) (s : State) : Out := act (lifeTick aon) s
/-- ASSAY_STATUS. -/
def execAssayStatus (c : Cmd) (s : State) : Out := act (submit 0x0B01 assayStatus c) s
/-- ASSAY_CONFIG. -/
def execAssayConfig (c : Cmd) (s : State) : Out := act (submit 0x0B02 assayConfig c) s
/-- ASSAY_REPLAN. -/
def execAssayReplan (c : Cmd) (s : State) : Out := act (submit 0x0B03 assayReplan c) s
/-- ASSAY_PAIR_READ. -/
def execAssayPairRead (c : Cmd) (s : State) : Out := act (submit 0x0B04 assayPairRead c) s
/-- ASSAY_FAULT_LOG. -/
def execAssayFaultLog (c : Cmd) (s : State) : Out := act (submit 0x0B05 assayFaultLog c) s
/-- ASSAY_COUNTERS. -/
def execAssayCounters (c : Cmd) (s : State) : Out := act (submit 0x0B07 assayCounters c) s

end Sys2Proof.Machine
end

