-- ==== Sys2Proof/Machine/Faults.lean ====
section
/-! DEFINITION. Faults and what follows (R553 to R555), unit resets and the ownership sweep (R556 to R558), Steward restarts as they begin
(R122, R125), SYS_RESET_CMD (R129). What accepts held doorbells again stands in Perform.lean. -/

namespace Sys2Proof.Machine

/-! ### Warm resets that faults cause (R553, R554) -/

/-- A fault that a warm reset follows: its entry, and the increments of CHIP_WDOG_CNT and THERMAL_TRIP_CNT, go into the AON latch. -/
def latchFault (src cls action : Nat) (data : List Byte) (chip thermal : Nat) (s : State) : State :=
  let l := s.assay.latch
  { s with assay.latch := ({ stamp := s.stamp, source := src, cls := cls, action := action, data := data } :: l.1,
                           l.2.1 + chip, l.2.2 + thermal) }

/-- A warm reset asked for by a fault: due at once, ahead of one that still waits. WARM_RESET carries it out. -/
def askWarm (cause : Nat) (s : State) : State :=
  match s.stw.warmReq with
  | some w =>
    if (match w.due with | some b => decide (b ≤ s.beat) | none => false) then s
    else { s with stw.warmReq := some { intoRecovery := w.intoRecovery, due := some s.beat, cause := cause } }
  | none => { s with stw.warmReq := some { due := some s.beat, cause := cause } }

/-- A warm reset that counts toward fault class 5: the third within 3,600,000 beats sends the next boot into Recovery. -/
def countWarm (s : State) : State :=
  let l := s.beat :: s.assay.warmResets.filter (fun b => b + 3600000 > s.beat)
  if l.length ≥ 3 then latchFault 2 5 4 [] 0 0 { s with boot.toRecovery := true, assay.warmResets := [] }
  else { s with assay.warmResets := l }

/-- A fault whose consequence is a warm reset with cause CHIP_WATCHDOG that counts toward class 5. -/
def chipReset (src cls : Nat) (data : List Byte) (s : State) : State := askWarm 4 (countWarm (latchFault src cls 3 data 1 0 s))

/-! ### Isolation and re-initialisation of a unit (Table 13-7) -/

/-- The unit that carries out a waiting command (R556). -/
def jobUnit (j : Job) : Option Nat :=
  if j.opcode = 0x0704 ∨ j.opcode = 0x0705 then some 4
  else if j.opcode = 0x0C04 then some 3
  else if j.opcode = 0x0501 then some (32 + j.cmd.u 16 1)
  else if j.opcode = 0x0903 then some 37
  else if j.opcode = 0x0907 then some 39
  else if [0x0A06, 0x0A07, 0x0A08, 0x0A0A, 0x0105].contains j.opcode then some 41
  else none

/-- Each command in progress that unit `src` carries out is answered ABANDONED with DETAIL RESET. -/
def abandonUnit (src : Nat) (s : State) : State :=
  (s.stw.jobs.filter (fun j => decide (jobUnit j = some src) && j.reply.isNone)).foldl (fun s j => followUp 16 j.id (abandonJob j.id 6 (undoPending j s))) s

/-- Bytes of a memory whose contents are undefined from now on. -/
def Memory.forget (m : Memory) (a len : Nat) : Memory := m.filter (fun c => decide (c.1 < a) || decide (a + len ≤ c.1))

/-- What an erase or programme that a reset of FLASH cuts short leaves: its bytes are undefined, its commit record is not valid (R106, R531). -/
def tornWrite (j : FlashJob) (s : State) : State :=
  let dropRecord (s : State) : State := match newestRecord s.boot.flash with
    | some (0, _) => { s with boot.flash.rec1 := none }
    | _ => { s with boot.flash.rec0 := none }
  match j with
  | .image _ t off bytes =>
    if t = 0 then { s with boot.flash.imageA := Memory.forget s.boot.flash.imageA off bytes.length }
    else { s with boot.flash.imageB := Memory.forget s.boot.flash.imageB off bytes.length }
  | .seed _ off bytes => { s with boot.flash.seed := Memory.forget s.boot.flash.seed off bytes.length }
  | .commit _ _ _ => dropRecord s
  | .confirm _ _ => dropRecord s
  | .copy _ _ => s

/-- FLASH drops what it does: a copy in progress has failed. -/
def stopFlash (s : State) : State :=
  let isCopy (j : FlashJob) : Bool := match j with | .copy _ _ => true | _ => false
  let s1 := match s.boot.flashJobs with | j :: _ => tornWrite j s | [] => s
  match s1.boot.flashJobs.find? isCopy with
  | some c => copyDone false { s1 with boot.flashJobs := [c] }
  | none => { s1 with boot.flashJobs := [] }

/-- A wide radio in reset keeps its counters and sticky flags, and what its access service holds: the upstream link, a channel move that no
command waits for, a bar on transmission. -/
def resetWide (r : Nat) (s : State) : State :=
  updWr r (fun w => { ({} : Radio) with
    upLink := w.upLink, upPm := w.upPm, upPmAcked := w.upPmAcked, changeCount := w.changeCount, move := w.move, radarStop := w.radarStop,
    tbtts := w.tbtts, tpcStk := w.tpcStk, grantStk := w.grantStk, radarStk := w.radarStk, pnLowStk := w.pnLowStk, micStk := w.micStk,
    noshowStk := w.noshowStk, phyCounts := w.phyCounts, counts := w.counts }) (stopWide r s)

/-- A field chain in reset. -/
def resetField (chain : Nat) (s : State) : State :=
  let s1 := updFchain chain (fun _ => {}) (dropField chain (stopChain chain s))
  if chain = 0 then dropLock 3 .off (dropLock 2 .off s1) else dropLock 4 .off s1

/-- The front-end controller in reset: transmissions are cut, synthesisers off, grants revoked, bypass pins low. -/
def resetFront (s : State) : State :=
  let s1 := cutField 1 0 (cutField 0 0 (cutWide 1 (cutWide 0 s)))
  let s2 := [0, 1, 2, 3, 4].foldl (fun s i => dropLock i .off s) (sweepCoex s1)
  { s2 with front.byp := [], front.blankUntil := [], front.coex := .replicate 2 { lowSince := s.time.mono } }

/-- The DRAM controller in reset: ports lose their FIFO levels, channels start afresh; counters stay. -/
def resetMemory (s : State) : State :=
  { s with mem.ports := s.mem.ports.map (fun d : DramPort => { d with level := 0, panic := false, outstanding := 0 }),
           mem.channels := s.mem.channels.map (fun c : DramChannel => { ({} : DramChannel) with stale := c.stale }) }

/-- The lane of transport `src` is released with cause 3, where it is claimed (R98). -/
def releaseTransport (src : Nat) (s : State) : State :=
  let n := if src = 42 then 0 else if src = 43 then 1 else if src = 46 then 2 else 3
  if (s.lane n).claimed then releaseLane n 3 s else s

/-- Unit `src` is isolated and loses its Cold state. -/
def stopUnit (src : Nat) (s : State) : State :=
  if src = 3 then sweepRuns s
  else if src = 4 then resetPlanisher s
  else if src = 5 then dropLost { s with mem.cells := [] }
  else if src = 6 then resetMemory s
  else if 8 ≤ src ∧ src ≤ 31 then linkLost (src - 8) 0 s
  else if src = 32 ∨ src = 33 then resetWide (src - 32) s
  else if src = 34 ∨ src = 35 then resetField (src - 34) s
  else if src = 36 then resetFront s
  else if 37 ≤ src ∧ src ≤ 39 then sweepPole src s
  else if src = 41 then stopFlash s
  else if src = 42 then { releaseTransport 42 s with power.pcieUp := false, power.aspmL1 := false }
  else if src = 43 then releaseTransport 43 s
  else s

/-- A unit reset up to its re-initialisation (Table 13-7): commands abandoned, the unit isolated, its DRAM transactions discarded, the sweep; it
leaves its safe plan (R585, read for every unit). -/
def clearUnit (src : Nat) (s : State) : State :=
  let s1 := sweepResources src (stopUnit src (abandonUnit src (assayCount cUnitReset s)))
  updUnit src (fun u => { u with safe := false, toSafe := false, clearing := false, complete := false })
    (assayCount cSweep { s1 with assay.safeOverruns := Map.erase s1.assay.safeOverruns src })

/-- A unit reset begins (R556): the unit resumes at UNIT_RESUME. -/
def startReset (src cls : Nat) (s : State) : State :=
  clearUnit src { s with assay.resets := Map.set s.assay.resets src { cls := cls, startBeat := s.beat } }

/-- The unit is disabled and held in reset (R558). -/
def disableUnit (src : Nat) (s : State) : State :=
  let s1 := clearUnit src { s with assay.disabled := s.assay.disabled ++ [src], assay.unitDisabledStk := true }
  logFault src 9 5 (le 1 src) (raise 2 0x0B05 (le 1 src) (assayCount cUnitDisable s1))

/-! ### A fault of a unit -/

/-- A Steward restart asked for (R122); one that waits stays. -/
def askRestart (cause due : Nat) (s : State) : State := if s.stw.restartReq.isNone then { s with stw.restartReq := some (cause, due) } else s

/-- A fault for which Table 13-6 calls for a unit reset of `src`, with what R554 and R558 put in its place. -/
def faultReset (src cls : Nat) (data : List Byte) (s : State) : State :=
  let recent := (Map.getD s.assay.faultBeats src []).filter (fun b => b + 60000 > s.beat)
  let counted (s : State) : State := { s with assay.faultBeats := Map.set s.assay.faultBeats src (s.beat :: recent) }
  if src = 7 ∨ src > 47 then s
  else if src ≤ 2 ∨ src = 40 then chipReset src cls data s
  else if src = 45 then askRestart 2 s.beat (logFault src cls 2 data s)
  else if src ≥ 46 then releaseTransport src (logFault src cls 1 data s)
  else if s.assay.disabled.contains src then s
  else if 4 ≤ src ∧ src ≤ 6 ∧ recent.length ≥ 3 then askWarm 4 (latchFault src 9 3 [] 0 0 (latchFault src cls 3 data 1 0 s))
  else if Map.has s.assay.resets src then logFault src cls 1 data s
  else
    let s1 := counted (logFault src cls 1 data s)
    if recent.length ≥ 2 ∧ ¬(4 ≤ src ∧ src ≤ 6) then disableUnit src s1 else startReset src cls s1

/-- BEAT_OVERRUN (R34, R35; fault class 7): a unit on its safe plan that overruns in 16 consecutive beats is reset. -/
def beatOverrun (src ovr : Nat) (s : State) : State :=
  let s1 := overrun src ovr s
  if ovr = 0 ∨ src > 47 ∨ !(s.unit src).safe then s1
  else
    let run := match Map.get? s.assay.safeOverruns src with
      | some (n, b) => if b = s.beat then n else if b + 1 = s.beat then n + 1 else 1
      | none => 1
    let s2 := { s1 with assay.safeOverruns := Map.set s1.assay.safeOverruns src (run, s.beat) }
    if run ≥ 16 then faultReset src 7 (le 8 s.beat ++ le 4 ovr) { s2 with assay.safeOverruns := Map.erase s2.assay.safeOverruns src } else s2

/-- SYNTH_UNLOCK (R278; fault class 6): the third loss of lock within 1,000 beats resets the radio. -/
def synthFault (i slots : Nat) (s : State) : State :=
  if i ≥ 5 ∨ !synthReady s i then s
  else
    let s1 := synthUnlock i slots s
    let n := (s1.synth i).losses.length
    if n ≥ 3 then faultReset (synthRadio i) 6 (le 1 i ++ le 1 n) (updSynth i (fun y => { y with losses := [] }) s1) else s1

/-! ### The Steward (R122 to R125, R555) -/

/-- The firmware runs. -/
def firmwareUp (s : State) : Bool :=
  (decide (s.stw.state = .booting) || decide (s.stw.state = .restoring) || decide (s.stw.state = .ready) || decide (s.stw.state = .recovery)) &&
    coresRun s

/-- STEWARD_WDOG_EXPIRY (fault class 1). The log entry's DATA is 0: SYS_STEWARD_RESTARTED, raised at READY, is not taken as the event of the fault
itself (DESIGN CHOICE, log entry 96). -/
def stewardWdog (s : State) : State :=
  if firmwareUp s then askRestart 0 s.beat (logFault 45 1 2 [] (assayCount cStwWdog s)) else s

/-- An exception of the Steward (fault class 2), with the DATA of the event that it raised, if any (R584). -/
def stewardFault (data : List Byte) (s : State) : State := if firmwareUp s then askRestart 2 s.beat (logFault 45 2 2 data s) else s

/-- STEWARD_RESTART (R122, R125): the restart that is due begins. Commands before their point of commitment are answered ABANDONED; the third
restart within 60,000 beats is fault class 3. -/
def stewardRestart (s0 : State) : State :=
  match s0.stw.restartReq with
  | none => s0
  | some (cause, due) =>
    if !(firmwareUp s0 || (decide (s0.stw.state = .restarting) && coresRun s0)) then s0
    else
      let s := passTo (due * 1000000) s0
      let s1 := (s.stw.jobs.filter (undecided s)).foldl (fun s j => abandonJob j.id 2 (undoPending j s)) s
      let runs := s.beat :: s.assay.restarts.filter (fun b => b + 60000 > s.beat)
      let s2 := setInt 7 { s1 with
        stw.state := .restarting, stw.restartReq := none, stw.restartCause := cause, stw.restartBeats := 0,
        stw.restartCnt := satInc 32 s1.stw.restartCnt, assay.chipWdog := 0, boot.trialBeats := 0, assay.restarts := runs }
      if runs.length ≥ 3 then chipReset 45 3 [] { s2 with assay.restarts := [] } else s2

/-- The Steward is back: in READY with SYS_STEWARD_RESTARTED, or in the stage of a start, or of Recovery, that the restart interrupted; commands
that ended meanwhile are answered, and a warm reset that awaits such a response has its instant (R125, R129). -/
def restartDone (s : State) : State :=
  let st : StwState := if s.boot.stage = 8 then .ready else if s.boot.stage = 9 then .recovery else if s.boot.stage ≥ 6 then .restoring else .booting
  let s1 := { s with stw.state := st }
  let due := s1.stw.jobs.filter (fun j => j.reply.isSome && j.durableFrom.isNone)
  let s2 := (due.foldl (fun s j => followUp 16 j.id (deliver j (j.reply.getD (ok)) (dropJob j.id s))) { s1 with
    stw.warmReq := s1.stw.warmReq.map (fun w => if w.waitCopy then w else { w with due := some (w.due.getD (s1.beat + w.delay)) }) })
  if st = .ready then raise 45 0x0101 (le 1 s.stw.restartCause ++ le 4 s.stw.restartCnt) s2 else s2

/-- CHIP_WDOG_EXPIRY (R555; fault class 4): 2,000 beats without a heartbeat. -/
def chipWdog (s : State) : State :=
  if s.assay.chipWdog ≥ 2000 ∧ s.stw.state ≠ .rom ∧ s.power.mode ≠ .doze ∧ s.power.mode ≠ .dormant then
    chipReset 2 4 [] { s with assay.chipWdog := 0 }
  else s

/-- THERMAL_TRIP (R552; fault class 11): the warm reset begins, and the device stays in it. -/
def thermalTrip (s : State) : State :=
  if s.assay.hotBeats ≥ 10 then { warmStart 5 false (latchFault 2 11 3 [] 0 1 s) with boot.thermalHeld := true } else s

/-- THERMAL_RELEASE (R552): sensor 7 below 95 °C. -/
def thermalRelease (temp : Int) (bootSrc : Nat) (factoryN : Bool) (s : State) : State :=
  if s.boot.thermalHeld ∧ temp < 950 then sampleStraps bootSrc factoryN { s with boot.thermalHeld := false } else s

/-- DRAM_READ_DONE (R407): a poisoned frame is discarded at the egress that reads it; a poisoned read by the Steward is fault class 2. -/
def dramReadDone (p a ecc : Nat) (tx : Bool) (queue : Option Nat) (s : State) : State :=
  if p ≥ 9 ∨ !s.power.dramAwake then s
  else
    let s1 := dramRead p a ecc tx s
    if ecc ≠ 2 then s1
    else if p = 7 then stewardFault (eccData (addrChannel s a) a 1) s1
    else match queue with
      | none => s1
      | some q => match (s1.queue q).frames with
        | [] => s1
        | f :: _ => leave (queueHome s1 q) f (popHead q s1)

/-- PERST_N_FALL (R536): a unit reset of PCIE, which releases lane 0. -/
def perstFall (s : State) : State :=
  let s1 := { s with boot.perstHigh := false, power.pcieUp := false }
  if s.boot.stage = 0 ∨ !s.boot.perstHigh ∨ s.power.mode = .dormant ∨ s.assay.disabled.contains 42 then s1
  else if Map.has s.assay.resets 42 then releaseTransport 42 s1
  else startReset 42 0 s1

/-! ### Resumption -/

/-- What a unit takes up again when it resumes. -/
def reopenUnit (src : Nat) (s : State) : State :=
  if s.boot.stage ≠ 8 then s
  else if src = 32 ∨ src = 33 then openRadio (src - 32) s
  else if 34 ≤ src ∧ src ≤ 36 then fieldSynths s
  else if src = 37 then meterStart s
  else if src = 38 then timersReady s
  else s

/-- Does a waiting command wait for unit `src` to resume (R129, R558)? -/
def waitsForUnit (src : Nat) (j : Job) : Bool :=
  (decide (j.opcode = 0x0104) && decide (j.cmd.u 16 1 = 3) && decide (j.cmd.u 17 1 = src)) ||
    (decide (j.opcode = 0x0B06) && decide (j.cmd.u 16 1 = src))

/-- UNIT_RESUME (Table 13-7): at the first commit window after the re-initialisation. -/
def unitResume (src : Nat) (s0 : State) : State :=
  match Map.get? s0.assay.resets src with
  | none => s0
  | some u =>
    if s0.power.mode = .dormant then s0
    else
      let s := if s0.beat > u.startBeat ∧ s0.phase < 20000 then s0 else advanceTo ((s0.beat + 1) * 1000000) s0
      let s1 := reopenUnit src { s with assay.resets := Map.erase s.assay.resets src }
      let s2 := raise 2 0x0B04 (le 1 src ++ le 1 u.cls ++ le 4 (s.beat - u.startBeat)) s1
      (s2.stw.jobs.filter (waitsForUnit src)).foldl (fun s j => completeJob j.id (ok) s) s2

/-! ### Commands -/

/-- SYS_RESET_CMD (R129, Table 2-21). -/
def sysResetCmd : Handler where
  fields := [fRange 16 1 0 3, fAny 17 1, fZero 18 2]
  run c _ s :=
    let kind := c.u 16 1
    let src := c.u 17 1
    if kind ≤ 2 ∧ src ≠ 0 then (s, .reply (badArg 17))
    else if kind ≤ 1 then
      let t := requestWarm (decide (kind = 1)) 10 3 s
      (t, if t.stw.warmReq.any (fun w => w.waitCopy) then .wait true 0 0 else .reply (ok))
    else if kind = 2 then (askRestart 1 (s.beat + 1) s, .reply (ok))
    else if src = 7 ∨ src ≥ 45 then (s, .reply (badArg 17))
    else if src ≤ 2 ∨ src = 40 ∨ (c.lane < 2 ∧ src = laneOwner c.lane) ∨ s.assay.disabled.contains src then (s, .reply (denied))
    else if Map.has s.assay.resets src then (s, .wait true 0 0)
    else (startReset src 0 s, .wait true 0 0)

/-- ASSAY_UNIT_ENABLE (R558). -/
def assayUnitEnable : Handler where
  fields := [fRange 16 1 0 47, fZero 17 3]
  run c _ s :=
    let src := c.u 16 1
    if !s.assay.disabled.contains src then (s, .reply (ok))
    else
      ({ s with assay.disabled := s.assay.disabled.filter (· ≠ src),
                assay.resets := Map.set s.assay.resets src { cls := 0, startBeat := s.beat } }, .wait true 0 0)

/-! ### Meanings -/

/-- BEAT_OVERRUN. -/
def execBeatOverrun (source overrunNs : Nat) (s : State) : Out := act (beatOverrun source overrunNs) s
/-- SYNTH_UNLOCK. -/
def execSynthUnlock (synth slots : Nat) (s : State) : Out := act (synthFault synth slots) s
/-- DRAM_READ_DONE. -/
def execDramReadDone (port addr ecc : Nat) (tx : Bool) (queue : Option Nat) (s : State) : Out := act (dramReadDone port addr ecc tx queue) s
/-- PERST_N_FALL. -/
def execPerstNFall (s : State) : Out := act perstFall s
/-- THERMAL_TRIP. -/
def execThermalTrip (s : State) : Out := act thermalTrip s
/-- THERMAL_RELEASE. -/
def execThermalRelease (temp : Int) (bootSrc : Nat) (factoryN : Bool) (s : State) : Out := actAlways (thermalRelease temp bootSrc factoryN) s
/-- STEWARD_WDOG_EXPIRY. -/
def execStewardWdogExpiry (s : State) : Out := act stewardWdog s
/-- STEWARD_EXCEPTION. -/
def execStewardException (s : State) : Out := act (stewardFault []) s
/-- STEWARD_RESTART. -/
def execStewardRestart (s : State) : Out := act stewardRestart s
/-- CHIP_WDOG_EXPIRY. -/
def execChipWdogExpiry (s : State) : Out := act chipWdog s
/-- PARITY_ERROR (fault class 8). -/
def execParityError (source : Nat) (s : State) : Out := act (faultReset source 8 []) s
/-- UNIT_RESUME. -/
def execUnitResume (source : Nat) (s : State) : Out := act (unitResume source) s
/-- SYS_RESET_CMD. -/
def execSysResetCmd (c : Cmd) (s : State) : Out := act (submit 0x0104 sysResetCmd c) s
/-- ASSAY_UNIT_ENABLE. -/
def execAssayUnitEnable (c : Cmd) (s : State) : Out := act (submit 0x0B06 assayUnitEnable c) s

end Sys2Proof.Machine
end

