-- ==== Sys2Proof/Machine/Beat.lean ====
section
/-! DEFINITION. What the beat brings (R32): the commit window, the plan commit, the listen beats of Doze; READY as the commit window that opens
the radios (R516); what the blocks do at the steps of an entry to Doze or Dormant (Table 10-5). -/

namespace Sys2Proof.Machine

/-! ### READY (R515, R516) -/

/-- The synthesisers of enabled radios are locked before the radios open (Table 12-3). -/
def lockEnabled (s : State) : State :=
  let on := (if (chanCfg s 0).band ≠ 0xFF then [0] else []) ++ (if (chanCfg s 1).band ≠ 0xFF then [1] else []) ++
    (if (fcfg s).f24 then [2, 3] else []) ++ (if (fcfg s).fsg then [4] else [])
  on.foldl (fun s i => updSynth i (fun y => { y with state := .locked }) (startLock i s)) s

/-- What a restore does to single records: outgoing field counters are advanced (R172), joining children and the queue settings of children that
are gone are absent (R181), neighbours have no client (R272); a counter then 2^19 past the flash copy calls for a new one; then the re-plan that ends each restore (R544). -/
def afterRestore (s : State) : State :=
  let fromIngot : Bool := decide (s.stw.restoreSrc = 1) || decide (s.stw.restoreSrc = 2)
  let up (e : KeyEntry) : KeyEntry := if fromIngot then { e with txPn := min 0xFFFFFFFF (e.txPn + 2 ^ 20) } else e
  let free (n : Neighbour) : Neighbour := if n.role = 1 then { n with client := 0xFFFF } else n
  let copied := match newestCopy s.boot.flash with | some (_, c) => c.kept.wide.fieldKeys.map (fun e => (e.1, e.2.txPn)) | none => []
  let s1 := setKept (fun k => { k with
    wide.fieldKeys := Map.mapVals k.wide.fieldKeys (fun _ e => up e),
    wide.neighbours := Map.mapVals k.wide.neighbours (fun _ n => free n),
    field.children := k.field.children.filter (fun e => !e.2.joining),
    plan.queues := k.plan.queues.filter (fun e => decide (e.1 < 0x1000) || decide (e.1 ≥ 0x2000)) }) s
  let far : Bool := s1.kept.wide.fieldKeys.any (fun e => decide (e.2.txPn - Map.getD copied e.1 0 ≥ 2 ^ 19))
  lockEnabled (replan true { s1 with field.fcCopied := copied, stw.changePending := s1.stw.changePending || far, stw.saveNow := s1.stw.saveNow || far })

/-- The commit window of the first beat after the restore: the radios open and STW_READY rises (R516). No plan has been made for this beat. -/
def openReady (b : Nat) (s : State) : State :=
  let idle : AirPlan := { beat := b, active := false }
  let s1 := { s with boot.stage := 8, stw.state := .ready, power.modeSince := b, boot.atReady := [], boot.warm := false,
                     plan.latched := [(0, idle), (1, idle), (2, idle)] }
  let s2 := s.boot.atReady.foldl (fun s e => raiseAt e.1 e.2.1 e.2.2.1 e.2.2.2 s) s1
  let s3 := if s2.kept.time.pps.outEnable then armPps s2 else s2
  let s4 := if s3.kept.time.pps.inEnable then { s3 with time.ppsIn := { spanStart := (s3.ns : Int) } } else s3
  let s5 := s4.kept.field.children.foldl (fun s x => updRun x.1 (fun r => { r with lastPoll := b, pollAt := elapsed s }) s) s4
  openRadio 1 (openRadio 0 (poleReady (calReady s5)))

/-! ### Doze (R439) -/

/-- A commit window in Doze: the Steward's cores and DRAM are awake for listen beats and rendezvous, and sleep again after the last; DRAM in
panic or training stays out for one more beat. -/
def dozeCommit (b : Nat) (s : State) : State :=
  if s.power.mode ≠ .doze ∨ s.power.waking.isSome ∨ s.power.entry.any (fun e => decide (e.step ≥ 4)) then s
  else
    let awake := dozeBeat s b
    let s1 := { s with power.listenBeat := awake }
    if awake then (if s1.power.dramAwake then s1 else selfRefreshExit s1)
    else if !s1.power.dramAwake then s1
    else if anyPanic s1 || training s1 then powerCount cDozeSrRetry s1
    else selfRefreshEnter s1

/-- DOZE_DRAM_EXIT: at 850 µs of the beat before. -/
def dozeDramExit (s : State) : State :=
  if s.power.mode ≠ .doze ∨ s.power.dramAwake ∨ s.power.waking.isSome ∨ s.power.entry.any (fun e => decide (e.step ≥ 4)) ∨
      !dozeBeat s (s.beat + 1) then s
  else selfRefreshExit (advancePhase 850000 s)

/-! ### The commit window -/

/-- Accepted settings in force. -/
def takeSettings (s : State) : State := lateSettings { s with kept := s.next }

/-- The parts of the device that run from READY on take up the new settings and the plans of beat `b`. -/
def planeCommit (old : State) (b n : Nat) (s : State) : State :=
  let k := old.kept
  let s1 := maskCommit b (gateCommit b (planSettings k s))
  let s2 := wideSettings k b (poleSettings old b (frontSettings k (fieldSettings k (wiredSettings k (refreshCommit s1)))))
  let was (r : Nat) : Nat := (s2.wr r).chains
  let s3 := wideCommit b (enforcePlans b s2)
  let s4 := [0, 1].foldl (fun s r => chainPins r (was r) (s3.wr r).chains s) s3
  let s5 := poleCommit b n (calCommit b s4)
  sweepTags (fieldSynths s5)

/-- The wide radios open again after Doze, Dormant, or an abandoned entry (R464): a channel that needs it is listened to first (R197). -/
def reopenWide (old : State) (b : Nat) (s : State) : State :=
  let back : Bool := !old.power.mode.serves && s.power.mode.serves
  let undone : Bool := decide (0 < s.power.radiosFrom) && decide (old.time.nextCommit ≤ s.power.radiosFrom) && decide (s.power.radiosFrom ≤ b)
  if s.boot.stage = 8 ∧ old.boot.stage = 8 ∧ (back || undone) = true then openRadio 1 (openRadio 0 s) else s

/-- COMMIT_WINDOW (R32): the window of the next beat whose window has not opened, or of the present beat where later windows have passed. A
rebase load at the end of the beat comes first (Table 1-9), and no window opens in Dormant. -/
def commitWindow (s0 : State) : State :=
  let b := max s0.time.nextCommit s0.beat
  if !clockRuns s0 ∨ s0.time.rebase.any (fun r => decide (r.beat < b)) then s0
  else
    let n := b + 1 - s0.time.nextCommit
    let s := advanceTo (b * 1000000) s0
    let s1 := takeSettings { s with time.nextCommit := b + 1 }
    let s2 := timeSettings s.kept (if s.time.settling then rearmHeld b s1 else s1)
    let s3 := laneCommit n (powerCommit b n (ppsSettings s.kept (stewardTsq (timeCommit b n s2))))
    let s4 := if s3.boot.stage = 7 ∧ s3.stw.state = .restoring then openReady b s3 else s3
    let s5 := if s4.boot.stage = 8 then planeCommit s b n (reopenWide s b s4) else s4
    let s6 := assayCommit n (durableCommit b (ingotCommit n s5))
    let s7 := if s6.kept.assay.config ≠ s.kept.assay.config then judgeFull (judgeAmbient s6) else s6
    let s8 := if s7.stw.state = .ready ∧ s7.stw.trialBoot then { s7 with boot.trialBeats := s7.boot.trialBeats + n } else s7
    notePast s.kept (dozeCommit b s8)

/-- PLAN_COMMIT (R32, R36, R38): at 900 µs, once a beat. -/
def planCommit (s0 : State) : State :=
  if !clockRuns s0 ∨ s0.time.planCommitBeat = some s0.beat then s0
  else
    let s := advancePhase 900000 s0
    let s1 := planCommitGates s.beat (governor { s with time.planCommitBeat := some s.beat, time.planCommitTick := some s.time.acc })
    let s2 := if s1.time.rebase.any (fun r => decide (r.beat ≤ s1.beat)) then rebaseCommit s1 else s1
    clearComplete (latchPlans s2)

/-! ### Entry steps (Table 10-5) -/

/-- The entry in which block `b` agrees now, where it does (as blockReply judges). -/
def willAgree (b refuse : Nat) (s : State) : Option Entry :=
  match s.power.entry with
  | none => none
  | some e =>
    if e.undo.isSome ∨ !(entryBlocks e.left e.step).contains b ∨ e.agreed.contains b then none
    else if b = 45 ∧ e.step = 1 ∧ e.target = .dormant ∧ (s.stw.saveNow ∨ copying s) then none
    else if e.step ≠ 1 ∧ effectiveRefusal b refuse (poleBusy s b) s ≠ 0 then none
    else some e

/-- What block `b` stops at its step of an entry. -/
def stopBlock (e : Entry) (b : Nat) (s : State) : State :=
  if e.step = 1 then
    if b = 45 ∧ e.left ≠ .doze then [0, 1].foldl (fun s r => if e.agreed.contains (32 + r) then stopWide r s else s) (wideFarewell s)
    else if (b = 32 ∨ b = 33) ∧ (e.agreed.contains 45 ∨ e.left = .doze) then stopWide (b - 32) s
    else s
  else if e.step = 2 then
    if 8 ≤ b ∧ b ≤ 31 then (if e.target = .doze ∧ (b = 8 ∨ b = 9 ∨ b = 24) then s else linkLost (b - 8) 0 s)
    else if (b = 34 ∨ b = 35) ∧ e.target = .dormant then stopChain (b - 34) s
    else s
  else if e.step = 3 then (if b = 39 ∧ e.target = .dormant then daliFlush s else s)
  else if e.step = 4 then (if b = 6 ∧ s.power.dramAwake then selfRefreshEnter s else s)
  else s

/-- ENTRY_BLOCK_REPLY (R456, R458, R459): the block agrees and stops, or refuses; the entry goes on, or is abandoned. -/
def entryReply (b refuse : Nat) (s : State) : State :=
  let pb := poleBusy s b
  match willAgree b refuse s with
  | some e => blockReply b 0 0 (stopBlock e b s)
  | none => blockReply b refuse pb s

/-! ### Meanings -/

/-- PLAN_COMMIT. -/
def execPlanCommit (s : State) : Out := act planCommit s
/-- ENTRY_BLOCK_REPLY. -/
def execEntryBlockReply (block refuse : Nat) (s : State) : Out := act (entryReply block refuse) s
/-- DOZE_DRAM_EXIT. -/
def execDozeDramExit (s : State) : Out := act dozeDramExit s

end Sys2Proof.Machine
end

