-- ==== Sys2Proof/Machine/Perform.lean ====
section
/-! DEFINITION. What needs every command of the Steward: acceptance of held doorbells (R103, R104, R125, R517), commands in in-band frames (R93),
the start-up stages up to READY (R515), and what the block does while no command waits. -/

namespace Sys2Proof.Machine

/-! ### Every command by its opcode (Table 2-18) -/

/-- Area 0x01. -/
def sysHandlers : List (Nat × Handler) := [
  (0x0101, sysGetInfo), (0x0102, sysNop), (0x0103, sysCancel), (0x0104, sysResetCmd), (0x0105, sysIngotSave),
  (0x0106, sysLaneConfig), (0x0107, sysCounters)]

/-- Area 0x02. -/
def timeHandlers : List (Nat × Handler) := [
  (0x0201, timeGet), (0x0202, timeServoConfig), (0x0203, timeOffsetFeed), (0x0204, timeRebase), (0x0205, timePortComp),
  (0x0206, timeTsqRead), (0x0207, timeTrigArm), (0x0208, timeTrigCancel), (0x0209, timePpsConfig), (0x020A, timeCounters),
  (0x020B, timeSafeClear)]

/-- Area 0x03. -/
def powerHandlers : List (Nat × Handler) := [
  (0x0301, pwrSetMode), (0x0302, pwrConfig), (0x0303, pwrAlarm), (0x0304, pwrStatus), (0x0305, pwrCounters)]

/-- Area 0x04. -/
def wiredHandlers : List (Nat × Handler) := [
  (0x0401, wiredPortSet), (0x0402, wiredPortStatus), (0x0403, wiredT1sSet), (0x0404, wiredSwitchConfig), (0x0405, wiredVlanSet),
  (0x0406, wiredGroupSet), (0x0407, wiredL2Set), (0x0408, wiredL2Read), (0x0409, wiredL3IfSet), (0x040A, wiredNexthopSet),
  (0x040B, wiredPrefixSet), (0x040C, wiredFlowSet), (0x040D, wiredClassMap), (0x040E, wiredMdio), (0x040F, wiredCounters)]

/-- Area 0x05. -/
def wideHandlers : List (Nat × Handler) := [
  (0x0501, wideChanSet), (0x0502, wideTxpwrConfig), (0x0503, wideRxConfig), (0x0504, wideMldPair), (0x0505, wideFtmConfig),
  (0x0506, wideTest), (0x0507, widePhyCounters), (0x0510, wideBssSet), (0x0511, wideUpstreamSet), (0x0512, wideAccessConfig),
  (0x0513, wideClientGet), (0x0514, wideClientDel), (0x0515, wideKeyInstall), (0x0516, wideKeyDel), (0x0517, wideKeyInfo),
  (0x0518, wideTwtSet), (0x0519, wideNeighbourSet), (0x051A, wideAccessCounters)]

/-- Area 0x06. -/
def fieldHandlers : List (Nat × Handler) := [
  (0x0601, fieldConfigCmd), (0x0602, fieldChildSet), (0x0603, fieldChildDel), (0x0604, fieldChildGet), (0x0605, fieldRdvSet),
  (0x0606, fieldOrphanPlan), (0x0607, fieldTest), (0x0608, fieldCounters)]

/-- Area 0x07. -/
def planHandlers : List (Nat × Handler) := [
  (0x0701, planQueueSet), (0x0702, planClassSet), (0x0703, planPolicerSet), (0x0704, planGateSet), (0x0705, planMaskSet),
  (0x0706, planAirConfig), (0x0707, planAirRead), (0x0708, planQueueGet), (0x0709, planCounters)]

/-- Area 0x08. -/
def memHandlers : List (Nat × Handler) := [
  (0x0801, memConfig), (0x0802, memPoolSet), (0x0803, memCellSet), (0x0804, memPortSet), (0x0805, memRingSet),
  (0x0806, memRingRead), (0x0807, memStatus), (0x0808, memCounters)]

/-- Area 0x09. -/
def poleHandlers : List (Nat × Handler) := [
  (0x0901, meterConfig), (0x0902, meterTrigSet), (0x0903, meterCaptureFire), (0x0904, meterCaptureRead),
  (0x0905, meterEnergyRead), (0x0906, daliConfig), (0x0907, daliSend), (0x0908, tmrChanSet), (0x0909, tmrGroup),
  (0x090A, tmrCompare), (0x090B, tmrCaptureRead), (0x090C, gpioConfig), (0x090D, gpioWrite), (0x090E, poleCounters)]

/-- Area 0x0A. -/
def secHandlers : List (Nat × Handler) := [
  (0x0A01, secInfo), (0x0A02, secAttest), (0x0A03, secCertRead), (0x0A04, secKeySet), (0x0A05, imgBegin), (0x0A06, imgWrite),
  (0x0A07, imgCommit), (0x0A08, imgConfirm), (0x0A09, secFactoryRestore), (0x0A0A, seedWrite), (0x0A0B, secPcieIds),
  (0x0A0C, secCounters)]

/-- Area 0x0B. -/
def assayHandlers : List (Nat × Handler) := [
  (0x0B01, assayStatus), (0x0B02, assayConfig), (0x0B03, assayReplan), (0x0B04, assayPairRead), (0x0B05, assayFaultLog),
  (0x0B06, assayUnitEnable), (0x0B07, assayCounters)]

/-- Area 0x0C. -/
def frontHandlers : List (Nat × Handler) := [
  (0x0C01, fePinConfig), (0x0C02, feCoexConfig), (0x0C03, calConfig), (0x0C04, calRun), (0x0C05, calStatus), (0x0C06, feCounters)]

/-- An opcode that the running Steward does not know (Table 2-8). -/
def unknownCommand : Handler where
  fields := [fAny 16 240]
  run _ _ s := (s, .reply { status := stUnsupported, detail := 2 })

/-- The commands of every area, by opcode. -/
def handlers : List (Nat × Handler) :=
  sysHandlers ++ timeHandlers ++ powerHandlers ++ wiredHandlers ++ wideHandlers ++ fieldHandlers ++ planHandlers ++ memHandlers ++ poleHandlers ++ secHandlers ++ assayHandlers ++ frontHandlers

/-- The command of an opcode. -/
def handlerOf (op : Nat) : Handler := (Map.get? handlers op).getD unknownCommand

/-! ### Held doorbells -/

/-- The oldest held doorbell of lane `n` is accepted, where the Steward serves (R104). -/
def serveLane (s : State) (n : Nat) : State :=
  match (s.lane n).order with
  | k :: _ => if acceptable n k s then accept (s.slot n k).opcode (handlerOf (s.slot n k).opcode) n k s else s
  | [] => s

/-- Every held doorbell is accepted: in the order of each lane, the lanes in turn from 0. -/
def serveHeld (s : State) : State :=
  if (List.range 4).all (fun n => (s.lane n).order.isEmpty) then s
  else (List.range 16).foldl (fun s _ => (List.range 4).foldl serveLane s) s

/-- STEWARD_READY (R125). -/
def stewardReady (s : State) : State := if s.stw.state = .restarting then serveHeld (restartDone s) else s

/-! ### In-band commands (Table 2-3) -/

/-- The command that a KIND 1 frame's BODY spells (Table 2-5). -/
def inbandCmd (f : InbandFrame) : Cmd :=
  { lane := f.lane, slot := f.slot, length := InbandBody.u f.body 2 2, tag := InbandBody.u f.body 4 2, flags := InbandBody.u f.body 6 1,
    ifver := InbandBody.u f.body 7 1, bulkOff := InbandBody.u f.body 8 4, bulkLen := InbandBody.u f.body 12 4, body := f.body.drop 16 }

/-- INBAND_COMMAND: an accepted frame of KIND 1 is a doorbell for its slot. -/
def inbandCommand (f : InbandFrame) (s : State) : State :=
  let op := InbandBody.u f.body 0 2
  inbandFrame f (submit op (handlerOf op) (inbandCmd f)) s

/-! ### Start-up (R515) -/

/-- Stage 1 runs with the Ingot copies checked: DRAM is detected, and trained or verified, under the settings that the restore will apply
(R401, R415). -/
def dramStage (f : BootFacts) (s : State) : State :=
  let k := (restoreSource s).1
  let full := !k.front.results.any (fun e => decide (e.1 / (64 * 256 * 64) = 9))
  { memoryStart f full { s with kept := { s.kept with mem := k.mem } } with kept := s.kept }

/-- BOOT_STAGE (R515, Table 12-3): the next stage of the start completes. -/
def startStage (f : BootFacts) (s : State) : State :=
  if s.stw.state ≠ .rom ∧ s.stw.state ≠ .booting ∧ s.stw.state ≠ .restoring then s
  else if s.boot.stage = 7 then (if s.stw.warmReq.isSome then s else serveHeld (commitWindow s))
  else
    let t := bootStage f s
    if s.boot.stage = 4 ∧ t.boot.stage = 5 then dramStage f t
    else if s.boot.stage = 6 ∧ t.boot.stage = 7 then afterRestore t
    else if t.stw.state = .recovery then serveHeld t
    else t

/-! ### No command waits -/

/-- What the block does when its queue of commands is empty: one TIME tick passes, in Dormant one tick of the sleep clock, and the Steward
accepts doorbells that were held (log entry 1). -/
def idle (s : State) : State :=
  let s1 := { s with outbox := [] }
  if s1.boot.porHeld then s1
  else
    let s2 := if clockRuns s1 then tickTime s1 else { s1 with power.sleepTicks := s1.power.sleepTicks + 1 }
    settle (if alive s2 then serveHeld s2 else s2)

/-! ### Meanings -/

/-- DOORBELL. -/
def execDoorbell (lane : Nat) (ring : BitVec 16) (s : State) : Out := act (fun s => serveHeld (doorbell lane ring s)) s
/-- COMMIT_WINDOW. -/
def execCommitWindow (s : State) : Out := act (fun s => serveHeld (commitWindow s)) s
/-- STEWARD_READY. -/
def execStewardReady (s : State) : Out := act stewardReady s
/-- INBAND_COMMAND. -/
def execInbandCommand (f : InbandFrame) (s : State) : Out := act (inbandCommand f) s
/-- BOOT_STAGE. -/
def execBootStage (f : BootFacts) (s : State) : Out := act (startStage f) s
/-- WAKE_BRINGUP_STAGE. -/
def execWakeBringupStage (s : State) : Out := act (fun s => serveHeld (bringupStage s)) s
/-- ENTRY_UNDO_DONE. -/
def execEntryUndoDone (s : State) : Out := act (fun s => serveHeld (undoDone s)) s

end Sys2Proof.Machine
end

