-- ==== Sys2Proof/Machine/Dispatch.lean ====
section
/-! DEFINITION. exec: one arm per command, each a direct call of that command's meaning. -/

namespace Sys2Proof.Machine

def exec (i : Instr) (s : State) : Host.Outcome State Fault Refusal :=
  match i with
  | .commitWindow => Sys2Proof.Machine.execCommitWindow s
  | .planComputation policy => Sys2Proof.Machine.execPlanComputation policy s
  | .planCommit => Sys2Proof.Machine.execPlanCommit s
  | .beatOverrun source overrunNs => Sys2Proof.Machine.execBeatOverrun source overrunNs s
  | .servoMeasurement m => Sys2Proof.Machine.execServoMeasurement m s
  | .sourceTimeout => Sys2Proof.Machine.execSourceTimeout s
  | .rebaseLoad => Sys2Proof.Machine.execRebaseLoad s
  | .autoRebase intervals => Sys2Proof.Machine.execAutoRebase intervals s
  | .initialRebase ns frac => Sys2Proof.Machine.execInitialRebase ns frac s
  | .triggerFire chan => Sys2Proof.Machine.execTriggerFire chan s
  | .ppsInEdge falling => Sys2Proof.Machine.execPpsInEdge falling s
  | .todSentence utc => Sys2Proof.Machine.execTodSentence utc s
  | .ppsMissedSecond => Sys2Proof.Machine.execPpsMissedSecond s
  | .tbNowLoRead => Sys2Proof.Machine.execTbNowLoRead s
  | .timeGet c => Sys2Proof.Machine.execTimeGet c s
  | .timeServoConfig c => Sys2Proof.Machine.execTimeServoConfig c s
  | .timeOffsetFeed c => Sys2Proof.Machine.execTimeOffsetFeed c s
  | .timeRebase c => Sys2Proof.Machine.execTimeRebase c s
  | .timePortComp c => Sys2Proof.Machine.execTimePortComp c s
  | .timeTsqRead c => Sys2Proof.Machine.execTimeTsqRead c s
  | .timeTrigArm c => Sys2Proof.Machine.execTimeTrigArm c s
  | .timeTrigCancel c => Sys2Proof.Machine.execTimeTrigCancel c s
  | .timePpsConfig c => Sys2Proof.Machine.execTimePpsConfig c s
  | .timeCounters c => Sys2Proof.Machine.execTimeCounters c s
  | .timeSafeClear c => Sys2Proof.Machine.execTimeSafeClear c s
  | .doorbell lane ring => Sys2Proof.Machine.execDoorbell lane ring s
  | .mbxDoneWrite lane done => Sys2Proof.Machine.execMbxDoneWrite lane done s
  | .laneClaim lane nonce => Sys2Proof.Machine.execLaneClaim lane nonce s
  | .hardClaim lane nonce => Sys2Proof.Machine.execHardClaim lane nonce s
  | .laneReleaseWrite lane nonce => Sys2Proof.Machine.execLaneReleaseWrite lane nonce s
  | .leaseRenew lane => Sys2Proof.Machine.execLeaseRenew lane s
  | .evrRdWrite lane rdIdx => Sys2Proof.Machine.execEvrRdWrite lane rdIdx s
  | .mbxErrRead lane => Sys2Proof.Machine.execMbxErrRead lane s
  | .evrLostRead lane => Sys2Proof.Machine.execEvrLostRead lane s
  | .sysResetWarm => Sys2Proof.Machine.execSysResetWarm s
  | .sysResetRecovery => Sys2Proof.Machine.execSysResetRecovery s
  | .sysResetRestart => Sys2Proof.Machine.execSysResetRestart s
  | .pwrReqWrite target reqTag => Sys2Proof.Machine.execPwrReqWrite target reqTag s
  | .registerWrite via offset value => Sys2Proof.Machine.execRegisterWrite via offset value s
  | .inbandCommand f => Sys2Proof.Machine.execInbandCommand f s
  | .inbandDone f => Sys2Proof.Machine.execInbandDone f s
  | .inbandClaim f => Sys2Proof.Machine.execInbandClaim f s
  | .inbandRenewal f => Sys2Proof.Machine.execInbandRenewal f s
  | .inbandBulkWrite f => Sys2Proof.Machine.execInbandBulkWrite f s
  | .inbandBulkRead f => Sys2Proof.Machine.execInbandBulkRead f s
  | .inbandRelease f => Sys2Proof.Machine.execInbandRelease f s
  | .leaseExpiry lane => Sys2Proof.Machine.execLeaseExpiry lane s
  | .laneWdogExpiry lane => Sys2Proof.Machine.execLaneWdogExpiry lane s
  | .eventBatchWrite => Sys2Proof.Machine.execEventBatchWrite s
  | .stewardRestart => Sys2Proof.Machine.execStewardRestart s
  | .stewardReady => Sys2Proof.Machine.execStewardReady s
  | .ingotCopyStart => Sys2Proof.Machine.execIngotCopyStart s
  | .ingotCopyDone ok => Sys2Proof.Machine.execIngotCopyDone ok s
  | .heartbeat => Sys2Proof.Machine.execHeartbeat s
  | .sysGetInfo c => Sys2Proof.Machine.execSysGetInfo c s
  | .sysNop c => Sys2Proof.Machine.execSysNop c s
  | .sysCancel c => Sys2Proof.Machine.execSysCancel c s
  | .sysResetCmd c => Sys2Proof.Machine.execSysResetCmd c s
  | .sysIngotSave c => Sys2Proof.Machine.execSysIngotSave c s
  | .sysLaneConfig c => Sys2Proof.Machine.execSysLaneConfig c s
  | .sysCounters c => Sys2Proof.Machine.execSysCounters c s
  | .warmReset bootSrc factoryN => Sys2Proof.Machine.execWarmReset bootSrc factoryN s
  | .sysResetNLow lowNs => Sys2Proof.Machine.execSysResetNLow lowNs s
  | .fieldDetect channel timing seen => Sys2Proof.Machine.execFieldDetect channel timing seen s
  | .fieldAcqAbandon channel => Sys2Proof.Machine.execFieldAcqAbandon channel s
  | .fieldSfdEnd channel rssi sfd => Sys2Proof.Machine.execFieldSfdEnd channel rssi sfd s
  | .fieldSyncLost span => Sys2Proof.Machine.execFieldSyncLost span s
  | .fieldGainReduce db => Sys2Proof.Machine.execFieldGainReduce db s
  | .fieldRxEnd channel x => Sys2Proof.Machine.execFieldRxEnd channel x s
  | .fieldAckSend chain => Sys2Proof.Machine.execFieldAckSend chain s
  | .fieldTxRelease chain slots => Sys2Proof.Machine.execFieldTxRelease chain slots s
  | .fieldBackoffEnd chain => Sys2Proof.Machine.execFieldBackoffEnd chain s
  | .fieldCcaEnd chain energy slots => Sys2Proof.Machine.execFieldCcaEnd chain energy slots s
  | .fieldTxEnd chain => Sys2Proof.Machine.execFieldTxEnd chain s
  | .fieldAckWaitEnd chain slots => Sys2Proof.Machine.execFieldAckWaitEnd chain slots s
  | .pollAnswerSend chain energy slots => Sys2Proof.Machine.execPollAnswerSend chain energy slots s
  | .childFrameExpired child => Sys2Proof.Machine.execChildFrameExpired child s
  | .fieldChildSilent child => Sys2Proof.Machine.execFieldChildSilent child s
  | .fieldRdvSend record len => Sys2Proof.Machine.execFieldRdvSend record len s
  | .fieldRdvMissed record => Sys2Proof.Machine.execFieldRdvMissed record s
  | .fieldRdvLost record => Sys2Proof.Machine.execFieldRdvLost record s
  | .fieldConfig c => Sys2Proof.Machine.execFieldConfig c s
  | .fieldChildSet c => Sys2Proof.Machine.execFieldChildSet c s
  | .fieldChildDel c => Sys2Proof.Machine.execFieldChildDel c s
  | .fieldChildGet c => Sys2Proof.Machine.execFieldChildGet c s
  | .fieldRdvSet c => Sys2Proof.Machine.execFieldRdvSet c s
  | .fieldOrphanPlan c => Sys2Proof.Machine.execFieldOrphanPlan c s
  | .fieldTest c => Sys2Proof.Machine.execFieldTest c s
  | .fieldCounters c => Sys2Proof.Machine.execFieldCounters c s
  | .wideDetect radio strength ago preamble => Sys2Proof.Machine.execWideDetect radio strength ago preamble s
  | .wideAcqAbandon radio => Sys2Proof.Machine.execWideAcqAbandon radio s
  | .wideSigEnd radio x => Sys2Proof.Machine.execWideSigEnd radio x s
  | .wideCarrierLost radio => Sys2Proof.Machine.execWideCarrierLost radio s
  | .widePpduEnd radio x => Sys2Proof.Machine.execWidePpduEnd radio x s
  | .wideExchangeStart radio a => Sys2Proof.Machine.execWideExchangeStart radio a s
  | .wideResponseSend radio => Sys2Proof.Machine.execWideResponseSend radio s
  | .wideTxEnd radio deviation => Sys2Proof.Machine.execWideTxEnd radio deviation s
  | .wideAckTimeout radio => Sys2Proof.Machine.execWideAckTimeout radio s
  | .msduLifetimeExpiry queue => Sys2Proof.Machine.execMsduLifetimeExpiry queue s
  | .psLifetimeExpiry queue => Sys2Proof.Machine.execPsLifetimeExpiry queue s
  | .reorderTimeout client tid => Sys2Proof.Machine.execReorderTimeout client tid s
  | .beaconTbtt radio airNs upstream => Sys2Proof.Machine.execBeaconTbtt radio airNs upstream s
  | .beaconSkip radio => Sys2Proof.Machine.execBeaconSkip radio s
  | .twtSpStart key members => Sys2Proof.Machine.execTwtSpStart key members s
  | .twtNoshow radio key => Sys2Proof.Machine.execTwtNoshow radio key s
  | .twtSpEnd radio key => Sys2Proof.Machine.execTwtSpEnd radio key s
  | .upstreamWindowStart radio airNs total => Sys2Proof.Machine.execUpstreamWindowStart radio airNs total s
  | .upstreamWindowEnd radio airNs total => Sys2Proof.Machine.execUpstreamWindowEnd radio airNs total s
  | .grantExpiry => Sys2Proof.Machine.execGrantExpiry s
  | .radarPulse radio => Sys2Proof.Machine.execRadarPulse radio s
  | .radarConfirmed radio hit band primary width puncture csa => Sys2Proof.Machine.execRadarConfirmed radio hit band primary width puncture csa s
  | .cacEnd radio => Sys2Proof.Machine.execCacEnd radio s
  | .nonOccupancyEnd channel => Sys2Proof.Machine.execNonOccupancyEnd channel s
  | .wideChanSet c => Sys2Proof.Machine.execWideChanSet c s
  | .wideTxpwrConfig c => Sys2Proof.Machine.execWideTxpwrConfig c s
  | .wideRxConfig c => Sys2Proof.Machine.execWideRxConfig c s
  | .wideMldPair c => Sys2Proof.Machine.execWideMldPair c s
  | .wideFtmConfig c => Sys2Proof.Machine.execWideFtmConfig c s
  | .wideTest c => Sys2Proof.Machine.execWideTest c s
  | .widePhyCounters c => Sys2Proof.Machine.execWidePhyCounters c s
  | .wideBssSet c => Sys2Proof.Machine.execWideBssSet c s
  | .wideUpstreamSet c => Sys2Proof.Machine.execWideUpstreamSet c s
  | .wideAccessConfig c => Sys2Proof.Machine.execWideAccessConfig c s
  | .wideClientGet c => Sys2Proof.Machine.execWideClientGet c s
  | .wideClientDel c => Sys2Proof.Machine.execWideClientDel c s
  | .wideKeyInstall c => Sys2Proof.Machine.execWideKeyInstall c s
  | .wideKeyDel c => Sys2Proof.Machine.execWideKeyDel c s
  | .wideKeyInfo c => Sys2Proof.Machine.execWideKeyInfo c s
  | .wideTwtSet c => Sys2Proof.Machine.execWideTwtSet c s
  | .wideNeighbourSet c => Sys2Proof.Machine.execWideNeighbourSet c s
  | .wideAccessCounters c => Sys2Proof.Machine.execWideAccessCounters c s
  | .synthLocked synth => Sys2Proof.Machine.execSynthLocked synth s
  | .synthUnlock synth slots => Sys2Proof.Machine.execSynthUnlock synth slots s
  | .obstructionEnd source => Sys2Proof.Machine.execObstructionEnd source s
  | .lateAllowanceExpiry source => Sys2Proof.Machine.execLateAllowanceExpiry source s
  | .paTimeout source chain slots => Sys2Proof.Machine.execPaTimeout source chain slots s
  | .coexReqRise port pri => Sys2Proof.Machine.execCoexReqRise port pri s
  | .coexGrant port => Sys2Proof.Machine.execCoexGrant port s
  | .coexReqFall port => Sys2Proof.Machine.execCoexReqFall port s
  | .coexRevoke port => Sys2Proof.Machine.execCoexRevoke port s
  | .coexCoolEnd port => Sys2Proof.Machine.execCoexCoolEnd port s
  | .coexBlankRise port => Sys2Proof.Machine.execCoexBlankRise port s
  | .coexBlankFall port => Sys2Proof.Machine.execCoexBlankFall port s
  | .coexHoldRise port => Sys2Proof.Machine.execCoexHoldRise port s
  | .coexHoldFall port => Sys2Proof.Machine.execCoexHoldFall port s
  | .calStepStart cal target sub => Sys2Proof.Machine.execCalStepStart cal target sub s
  | .calStepEnd cal target sub facts => Sys2Proof.Machine.execCalStepEnd cal target sub facts s
  | .staleRetryExpiry cal target sub => Sys2Proof.Machine.execStaleRetryExpiry cal target sub s
  | .fePinConfig c => Sys2Proof.Machine.execFePinConfig c s
  | .feCoexConfig c => Sys2Proof.Machine.execFeCoexConfig c s
  | .calConfig c => Sys2Proof.Machine.execCalConfig c s
  | .calRun c => Sys2Proof.Machine.execCalRun c s
  | .calStatus c => Sys2Proof.Machine.execCalStatus c s
  | .feCounters c => Sys2Proof.Machine.execFeCounters c s
  | .enqueue queue payload vid => Sys2Proof.Machine.execEnqueue queue payload vid s
  | .egressSelect egress descs => Sys2Proof.Machine.execEgressSelect egress descs s
  | .gateEntryChange egress => Sys2Proof.Machine.execGateEntryChange egress s
  | .planQueueSet c => Sys2Proof.Machine.execPlanQueueSet c s
  | .planClassSet c => Sys2Proof.Machine.execPlanClassSet c s
  | .planPolicerSet c => Sys2Proof.Machine.execPlanPolicerSet c s
  | .planGateSet c => Sys2Proof.Machine.execPlanGateSet c s
  | .planMaskSet c => Sys2Proof.Machine.execPlanMaskSet c s
  | .planAirConfig c => Sys2Proof.Machine.execPlanAirConfig c s
  | .planAirRead c => Sys2Proof.Machine.execPlanAirRead c s
  | .planQueueGet c => Sys2Proof.Machine.execPlanQueueGet c s
  | .planCounters c => Sys2Proof.Machine.execPlanCounters c s
  | .linkUp port word half => Sys2Proof.Machine.execLinkUp port word half s
  | .linkDown port => Sys2Proof.Machine.execLinkDown port s
  | .mdioPoll => Sys2Proof.Machine.execMdioPoll s
  | .plcaBeaconRx port => Sys2Proof.Machine.execPlcaBeaconRx port s
  | .plcaFallback port => Sys2Proof.Machine.execPlcaFallback port s
  | .transmitOpportunity port => Sys2Proof.Machine.execTransmitOpportunity port s
  | .collision port bits slots => Sys2Proof.Machine.execCollision port bits slots s
  | .csmaBackoffEnd port => Sys2Proof.Machine.execCsmaBackoffEnd port s
  | .rxCellClaim port => Sys2Proof.Machine.execRxCellClaim port s
  | .wiredFrameRx port w => Sys2Proof.Machine.execWiredFrameRx port w s
  | .pauseEnd port => Sys2Proof.Machine.execPauseEnd port s
  | .pauseRepeat port => Sys2Proof.Machine.execPauseRepeat port s
  | .lpiEntry port => Sys2Proof.Machine.execLpiEntry port s
  | .lpiWakeEnd port => Sys2Proof.Machine.execLpiWakeEnd port s
  | .wiredTxEnd port => Sys2Proof.Machine.execWiredTxEnd port s
  | .l2AgeSweep => Sys2Proof.Machine.execL2AgeSweep s
  | .flowAgeSweep => Sys2Proof.Machine.execFlowAgeSweep s
  | .wiredPortSet c => Sys2Proof.Machine.execWiredPortSet c s
  | .wiredPortStatus c => Sys2Proof.Machine.execWiredPortStatus c s
  | .wiredT1sSet c => Sys2Proof.Machine.execWiredT1sSet c s
  | .wiredSwitchConfig c => Sys2Proof.Machine.execWiredSwitchConfig c s
  | .wiredVlanSet c => Sys2Proof.Machine.execWiredVlanSet c s
  | .wiredGroupSet c => Sys2Proof.Machine.execWiredGroupSet c s
  | .wiredL2Set c => Sys2Proof.Machine.execWiredL2Set c s
  | .wiredL2Read c => Sys2Proof.Machine.execWiredL2Read c s
  | .wiredL3IfSet c => Sys2Proof.Machine.execWiredL3IfSet c s
  | .wiredNexthopSet c => Sys2Proof.Machine.execWiredNexthopSet c s
  | .wiredPrefixSet c => Sys2Proof.Machine.execWiredPrefixSet c s
  | .wiredFlowSet c => Sys2Proof.Machine.execWiredFlowSet c s
  | .wiredClassMap c => Sys2Proof.Machine.execWiredClassMap c s
  | .wiredMdio c => Sys2Proof.Machine.execWiredMdio c s
  | .wiredCounters c => Sys2Proof.Machine.execWiredCounters c s
  | .refreshBurst channel delayNs pass => Sys2Proof.Machine.execRefreshBurst channel delayNs pass s
  | .mr4Read channel m temp => Sys2Proof.Machine.execMr4Read channel m temp s
  | .dramReadDone port addr ecc tx queue => Sys2Proof.Machine.execDramReadDone port addr ecc tx queue s
  | .portLeaseExpiry port => Sys2Proof.Machine.execPortLeaseExpiry port s
  | .txRingPoll ring descs => Sys2Proof.Machine.execTxRingPoll ring descs s
  | .ringStatusWrite ring => Sys2Proof.Machine.execRingStatusWrite ring s
  | .memConfig c => Sys2Proof.Machine.execMemConfig c s
  | .memPoolSet c => Sys2Proof.Machine.execMemPoolSet c s
  | .memCellSet c => Sys2Proof.Machine.execMemCellSet c s
  | .memPortSet c => Sys2Proof.Machine.execMemPortSet c s
  | .memRingSet c => Sys2Proof.Machine.execMemRingSet c s
  | .memRingRead c => Sys2Proof.Machine.execMemRingRead c s
  | .memStatus c => Sys2Proof.Machine.execMemStatus c s
  | .memCounters c => Sys2Proof.Machine.execMemCounters c s
  | .fullReturn => Sys2Proof.Machine.execFullReturn s
  | .avsRead acked mv => Sys2Proof.Machine.execAvsRead acked mv s
  | .avsTimeout => Sys2Proof.Machine.execAvsTimeout s
  | .entryBlockReply block refuse => Sys2Proof.Machine.execEntryBlockReply block refuse s
  | .entryUndoDone => Sys2Proof.Machine.execEntryUndoDone s
  | .spiCsFall => Sys2Proof.Machine.execSpiCsFall s
  | .sidebandAddressMatch offset recoveryWrite => Sys2Proof.Machine.execSidebandAddressMatch offset recoveryWrite s
  | .sidebandHoldEnd => Sys2Proof.Machine.execSidebandHoldEnd s
  | .wakeFrameRx port f => Sys2Proof.Machine.execWakeFrameRx port f s
  | .linkEnergy port => Sys2Proof.Machine.execLinkEnergy port s
  | .gpioEdge pin rising => Sys2Proof.Machine.execGpioEdge pin rising s
  | .pwrAlarmFire => Sys2Proof.Machine.execPwrAlarmFire s
  | .rdvLeadAlarm record => Sys2Proof.Machine.execRdvLeadAlarm record s
  | .thermalWake temp => Sys2Proof.Machine.execThermalWake temp s
  | .debugStartBit => Sys2Proof.Machine.execDebugStartBit s
  | .wakeBringupStage => Sys2Proof.Machine.execWakeBringupStage s
  | .dormantReturn => Sys2Proof.Machine.execDormantReturn s
  | .brownOut => Sys2Proof.Machine.execBrownOut s
  | .supplyMonitorTrip supply => Sys2Proof.Machine.execSupplyMonitorTrip supply s
  | .porRelease bootSrc sbAddr factoryN testMode => Sys2Proof.Machine.execPorRelease bootSrc sbAddr factoryN testMode s
  | .pwrSetMode c => Sys2Proof.Machine.execPwrSetMode c s
  | .pwrConfig c => Sys2Proof.Machine.execPwrConfig c s
  | .pwrAlarm c => Sys2Proof.Machine.execPwrAlarm c s
  | .pwrStatus c => Sys2Proof.Machine.execPwrStatus c s
  | .pwrCounters c => Sys2Proof.Machine.execPwrCounters c s
  | .meterJob f => Sys2Proof.Machine.execMeterJob f s
  | .daliFrameStart port extra => Sys2Proof.Machine.execDaliFrameStart port extra s
  | .daliFrameEnd port => Sys2Proof.Machine.execDaliFrameEnd port s
  | .daliBackwardRx port gap data corrupt => Sys2Proof.Machine.execDaliBackwardRx port gap data corrupt s
  | .daliAnswerWindowEnd port => Sys2Proof.Machine.execDaliAnswerWindowEnd port s
  | .daliForwardRx port bits data good => Sys2Proof.Machine.execDaliForwardRx port bits data good s
  | .daliCollision port => Sys2Proof.Machine.execDaliCollision port s
  | .daliBusFault port => Sys2Proof.Machine.execDaliBusFault port s
  | .daliBusRecover port => Sys2Proof.Machine.execDaliBusRecover port s
  | .timerWrap chan => Sys2Proof.Machine.execTimerWrap chan s
  | .timerMatch chan which => Sys2Proof.Machine.execTimerMatch chan which s
  | .timerCapture pin rising => Sys2Proof.Machine.execTimerCapture pin rising s
  | .meterConfig c => Sys2Proof.Machine.execMeterConfig c s
  | .meterTrigSet c => Sys2Proof.Machine.execMeterTrigSet c s
  | .meterCaptureFire c => Sys2Proof.Machine.execMeterCaptureFire c s
  | .meterCaptureRead c => Sys2Proof.Machine.execMeterCaptureRead c s
  | .meterEnergyRead c => Sys2Proof.Machine.execMeterEnergyRead c s
  | .daliConfig c => Sys2Proof.Machine.execDaliConfig c s
  | .daliSend c => Sys2Proof.Machine.execDaliSend c s
  | .tmrChanSet c => Sys2Proof.Machine.execTmrChanSet c s
  | .tmrGroup c => Sys2Proof.Machine.execTmrGroup c s
  | .tmrCompare c => Sys2Proof.Machine.execTmrCompare c s
  | .tmrCaptureRead c => Sys2Proof.Machine.execTmrCaptureRead c s
  | .gpioConfig c => Sys2Proof.Machine.execGpioConfig c s
  | .gpioWrite c => Sys2Proof.Machine.execGpioWrite c s
  | .poleCounters c => Sys2Proof.Machine.execPoleCounters c s
  | .bootStage f => Sys2Proof.Machine.execBootStage f s
  | .factoryStrapTimeout => Sys2Proof.Machine.execFactoryStrapTimeout s
  | .autoConfirm => Sys2Proof.Machine.execAutoConfirm s
  | .perstNFall => Sys2Proof.Machine.execPerstNFall s
  | .secInfo c => Sys2Proof.Machine.execSecInfo c s
  | .secAttest c => Sys2Proof.Machine.execSecAttest c s
  | .secCertRead c => Sys2Proof.Machine.execSecCertRead c s
  | .secKeySet c => Sys2Proof.Machine.execSecKeySet c s
  | .imgBegin c => Sys2Proof.Machine.execImgBegin c s
  | .imgWrite c => Sys2Proof.Machine.execImgWrite c s
  | .imgCommit c => Sys2Proof.Machine.execImgCommit c s
  | .imgConfirm c => Sys2Proof.Machine.execImgConfirm c s
  | .secFactoryRestore c => Sys2Proof.Machine.execSecFactoryRestore c s
  | .seedWrite c => Sys2Proof.Machine.execSeedWrite c s
  | .secPcieIds c => Sys2Proof.Machine.execSecPcieIds c s
  | .secCounters c => Sys2Proof.Machine.execSecCounters c s
  | .assayPairMeasure nU nS => Sys2Proof.Machine.execAssayPairMeasure nU nS s
  | .assayReplanPeriodic => Sys2Proof.Machine.execAssayReplanPeriodic s
  | .sensorRead temps pEst => Sys2Proof.Machine.execSensorRead temps pEst s
  | .thermalTrip => Sys2Proof.Machine.execThermalTrip s
  | .thermalRelease temp bootSrc factoryN => Sys2Proof.Machine.execThermalRelease temp bootSrc factoryN s
  | .lifeEqTick aon => Sys2Proof.Machine.execLifeEqTick aon s
  | .stewardWdogExpiry => Sys2Proof.Machine.execStewardWdogExpiry s
  | .stewardException => Sys2Proof.Machine.execStewardException s
  | .chipWdogExpiry => Sys2Proof.Machine.execChipWdogExpiry s
  | .parityError source => Sys2Proof.Machine.execParityError source s
  | .unitResume source => Sys2Proof.Machine.execUnitResume source s
  | .assayStatus c => Sys2Proof.Machine.execAssayStatus c s
  | .assayConfig c => Sys2Proof.Machine.execAssayConfig c s
  | .assayReplan c => Sys2Proof.Machine.execAssayReplan c s
  | .assayPairRead c => Sys2Proof.Machine.execAssayPairRead c s
  | .assayFaultLog c => Sys2Proof.Machine.execAssayFaultLog c s
  | .assayUnitEnable c => Sys2Proof.Machine.execAssayUnitEnable c s
  | .assayCounters c => Sys2Proof.Machine.execAssayCounters c s
  | .planCompletion source => Sys2Proof.Machine.execPlanCompletion source s
  | .triggerPulseEnd chan => Sys2Proof.Machine.execTriggerPulseEnd chan s
  | .fieldGainRaise db => Sys2Proof.Machine.execFieldGainRaise db s
  | .bypRise source chain level => Sys2Proof.Machine.execBypRise source chain level s
  | .bypFall source chain level => Sys2Proof.Machine.execBypFall source chain level s
  | .rendezvousWindowStart record => Sys2Proof.Machine.execRendezvousWindowStart record s
  | .shaperCreditZero egress cls => Sys2Proof.Machine.execShaperCreditZero egress cls s
  | .panicRise port level tx => Sys2Proof.Machine.execPanicRise port level tx s
  | .dozeDramExit => Sys2Proof.Machine.execDozeDramExit s
  | .stewardModeSchedule target => Sys2Proof.Machine.execStewardModeSchedule target s
  | .operatingPointChange op => Sys2Proof.Machine.execOperatingPointChange op s
  | .daliTwiceTimeout port => Sys2Proof.Machine.execDaliTwiceTimeout port s
  | .fieldTestEnd chain => Sys2Proof.Machine.execFieldTestEnd chain s
  | .wideTestEnd radio => Sys2Proof.Machine.execWideTestEnd radio s
  | .wideClientDelTimeout client => Sys2Proof.Machine.execWideClientDelTimeout client s
  | .flashProgrammeDone ok => Sys2Proof.Machine.execFlashProgrammeDone ok s
  | .perstNRise => Sys2Proof.Machine.execPerstNRise s
  | .sysResetNRise bootSrc factoryN => Sys2Proof.Machine.execSysResetNRise bootSrc factoryN s
  | .pcieLinkUp => Sys2Proof.Machine.execPcieLinkUp s

end Sys2Proof.Machine
end

