-- ==== Sys2Proof/Machine/Step.lean ====
section
/-! DEFINITION. One step of the block: the command at the front of the queue, or idling. -/

namespace Sys2Proof.Machine

/-- The command at the front of the queue takes its effect on everything but the queue, which holds the rest; on an empty queue the block idles
for one TIME tick. -/
def step (s : State) : Host.Outcome State Fault Refusal :=
  match s.pending with
  | [] => .next (idle s)
  | c :: rest => exec c { s with pending := rest }

/-- The state with the command that a word spells in front of its queue. The opcode table gives no row any bits: no word spells a command. -/
def State.withFetchWord (s : State) (_ _ : Nat) : State := s

end Sys2Proof.Machine
end

