-- ==== Sys2Proof/Machine/Window.lean ====
section
/-! DEFINITION. What a read of the address map returns (R91, R117, Tables 2-2 and 2-12): the direct register window by offset and transport, and the
slot, ring and bulk bytes of a transport's own lane. Reads that change nothing are no rows of the table; the three that do, MBX_ERR, EVR_LOST and
TB_NOW_LO, have rows of their own, and their values here are the ones those rows return. -/

namespace Sys2Proof.Machine

/-! ### Registers by their own names -/

/-- SYS_IFVER (Table 2-13): 4.2, and FW_BUILD of the running image. -/
def sysIfver (s : State) : Nat := fieldsWord [(0, 2), (4, 4), (16, s.stw.fwBuild)]

/-- SYS_CAUSE (Table 2-13). -/
def sysCause (s : State) : Nat := fieldsWord [(0, s.stw.lastReset), (8, bit s.stw.causeNewStk)]

/-- MBX_CFG of a lane (Table 2-14). -/
def mbxCfg (g : LaneConfig) : Nat := fieldsWord [(0, g.leaseBeats), (16, g.wdogBeats)]

/-- EVR_WR of a lane (Table 2-15). -/
def evrWr (l : Lane) : Nat := fieldsWord [(0, l.wrIdx), (10, bit l.phase)]

/-- EVR_COAL of a lane (Table 2-15). -/
def evrCoal (g : LaneConfig) : Nat := fieldsWord [(0, g.thresh), (16, g.age)]

/-- PWR_MODE (Table 2-17). -/
def pwrMode (s : State) : Nat :=
  fieldsWord [(0, s.power.mode.code), (4, s.power.op), (7, bit s.power.fullAllowed), (8, bit (inTransition s))]

/-- PWR_RESULT (Table 2-17). -/
def pwrResult (s : State) : Nat :=
  fieldsWord [(0, s.power.resultTag), (8, s.power.resultStatus), (16, s.power.resultSource), (24, s.power.resultCause)]

/-! ### The window -/

/-- The SYS_ registers, which every transport reads; SYS_RESET is WO (Table 0-8). -/
def readSys (off : Nat) (s : State) : Nat :=
  if off = 0x000 then sysId
  else if off = 0x004 then sysIfver s
  else if off = 0x008 then sysState s
  else if off = 0x00C then sysCause s
  else if off = 0x014 then s.stw.heartbeat
  else if off = 0x018 then s.stw.scratch
  else 0

/-- The MBX_ registers of lane `n`, at `off` from the lane's first; MBX_DB is WO. -/
def readMbx (n off : Nat) (s : State) : Nat :=
  let l := s.lane n
  if off = 0x04 then l.busy
  else if off = 0x08 then l.doneMask
  else if off = 0x0C then mbxClaim l
  else if off = 0x10 then l.leaseLeft
  else if off = 0x14 then mbxCfg (s.laneCfg n)
  else if off = 0x18 then l.dbErrCnt + l.hardClaimCnt * 65536
  else 0

/-- The EVR_ registers of lane `n`, at `off` from the lane's first. -/
def readEvr (n off : Nat) (s : State) : Nat :=
  let l := s.lane n
  if off = 0x00 then evrWr l
  else if off = 0x04 then l.rdIdx
  else if off = 0x08 then (s.laneCfg n).areaEn
  else if off = 0x0C then evrCoal (s.laneCfg n)
  else if off = 0x10 then l.evrLostCnt
  else 0

/-- The INT_ registers. -/
def readInt (off : Nat) (s : State) : Nat :=
  if off = 0x300 then (intStatus s).toNat
  else if off = 0x304 then s.stw.enMsix.toNat
  else if off = 0x308 then s.stw.enPin.toNat
  else if off = 0x30C then bit s.stw.pushPull
  else 0

/-- The TB_ registers: all but TB_NOW_LO and TB_STATUS as latched (R30). -/
def readTb (off : Nat) (s : State) : Nat :=
  if off = 0x400 then s.ns % 2 ^ 32
  else if off = 0x404 then s.time.latch.nsHi
  else if off = 0x408 then fieldsWord [(0, s.time.latch.frac), (16, s.time.latch.epoch)]
  else if off = 0x40C then s.time.latch.beat
  else if off = 0x410 then s.time.latch.phase
  else if off = 0x414 then tbStatus s
  else 0

/-- The PWR_ registers; PWR_REQ is WO. -/
def readPwr (off : Nat) (s : State) : Nat :=
  if off = 0x500 then pwrMode s
  else if off = 0x508 then pwrResult s
  else if off = 0x50C then s.power.wakeStk.toNat
  else 0

/-- What a read of the direct register window returns (R91, R117): `via` 0 PCIe, 1 SPI, 2 the sideband, which reaches the SYS_, TB_ and PWR_ blocks.
An offset that is not listed reads 0; so does every one while the window does not answer, but for the AON shadow that the sideband then shows
(R472). -/
def windowRead (via off : Nat) (s : State) : Nat :=
  if off ≥ 0x1000 ∨ off % 4 ≠ 0 then 0
  else if !windowUp s then
    (if via = 2 ∧ [0x000, 0x00C, 0x500, 0x508, 0x50C].contains off then (if off < 0x100 then readSys off s else readPwr off s) else 0)
  else if off < 0x100 then readSys off s
  else if 0x400 ≤ off ∧ off < 0x500 then readTb off s
  else if 0x500 ≤ off then readPwr off s
  else if via ≥ 2 then 0
  else if off < 0x200 then readMbx ((off - 0x100) / 0x40) (off % 0x40) s
  else if off < 0x280 then readEvr ((off - 0x200) / 0x20) (off % 0x20) s
  else readInt off s

/-! ### The region of a transport's own lane -/

/-- The 256 bytes of a command slot as its sender wrote them (Table 2-5). -/
def commandBytes (x : Slot) : List Byte :=
  le 2 x.opcode ++ le 2 x.cmd.length ++ le 2 x.cmd.tag ++ le 1 x.cmd.flags ++ le 1 x.cmd.ifver ++ le 4 x.cmd.bulkOff ++ le 4 x.cmd.bulkLen ++ x.cmd.body

/-- A byte of the address map above the register window, as the transport of lane `n` reads it (Table 2-2): command slots, response slots, event ring,
bulk window; a byte of the bulk window that nothing has written is free (R98, log entry 3), and a reserved offset reads 0. The MSI-X structures are
the PCIe endpoint's (log entry 32). -/
def regionByte (n off : Nat) (s : State) : Byte :=
  let l := s.lane n
  if 0x20000 ≤ off ∧ off < 0x21000 then (commandBytes (s.slot n ((off - 0x20000) / 0x100))).getD (off % 0x100) 0
  else if 0x21000 ≤ off ∧ off < 0x22000 then (s.slot n ((off - 0x21000) / 0x100)).response.getD (off % 0x100) 0
  else if 0x22000 ≤ off ∧ off < 0x2A000 then
    (match Map.get? l.ring ((off - 0x22000) / 0x20) with | some x => x.bytes.getD (off % 0x20) 0 | none => 0)
  else if 0x30000 ≤ off ∧ off < 0x40000 then (Map.get? l.bulk (off - 0x30000)).getD (Config.freeByte (s.draws + (off - 0x30000)))
  else 0

end Sys2Proof.Machine
end

