-- ==== Sys2Proof/WellFormed.lean ====
section
/-! DEFINITION. Which commands the block can be sent at all: operands within the widths and numbers that the spec gives their fields. A
well-formed command may still be refused or ignored by the rules; an ill-formed one is no message that the spec knows. -/

namespace Sys2Proof

/-- A command's header fields fit their widths (Table 2-5), its lane and slot exist (R90), its fields fit the 256-byte slot. -/
def Cmd.wf (c : Cmd) : Bool :=
  decide (c.lane < 4) && decide (c.slot < 16) && decide (c.tag < 2 ^ 16) && decide (c.length < 2 ^ 16) && decide (c.flags < 256) &&
    decide (c.ifver < 256) && decide (c.bulkOff < 2 ^ 32) && decide (c.bulkLen < 2 ^ 32) && decide (c.body.length ≤ 240) &&
    decide (c.bulk.length ≤ c.bulkLen)

/-- An in-band frame: lane 2 or 3, SLOT one byte, SEQ four (Table 2-4). -/
def InbandFrame.wf (f : InbandFrame) : Bool :=
  (decide (f.lane = 2) || decide (f.lane = 3)) && decide (f.slot < 256) && decide (f.seq < 2 ^ 32)

/-- A VLAN tag's fields fit (R381). -/
def VTag.wf (t : VTag) : Bool := decide (t.tpid < 2 ^ 16) && decide (t.pcp < 8) && decide (t.vid < 4096)

/-- An Ethernet frame: addresses of 48 bits, EtherType of 16, a tag that fits. -/
def Frame.wf (f : Frame) : Bool :=
  decide (f.da < 2 ^ 48) && decide (f.sa < 2 ^ 48) && decide (f.etherType < 2 ^ 16) && (match f.tag with | some t => t.wf | none => true)

/-- What a queue may hold. -/
def Payload.wf : Payload → Bool
  | .eth f => f.wf
  | .field m => m.wf

/-- A descriptor of a transmit ring: 64-bit address (Table 9-8). -/
def TxDesc.wf (d : TxDesc) : Bool := decide (d.addr < 2 ^ 64) && decide (d.cls < 8) && d.frame.wf

/-- A received field frame: types of 3 bits, versions of 2 (R148). -/
def FieldRx.wf (x : FieldRx) : Bool := decide (x.len < 128) && decide (x.ftype < 8) && decide (x.version < 4) && decide (x.dsn < 256)

/-- The strap or pin operand BOOT_SRC has two bits (Table 12-2). -/
def bootSrcWf (b : Nat) : Bool := decide (b < 4)

/-- The Steward command that a row of the Steward's command sets carries; none for every other row. -/
def Instr.cmd? : Instr → Option Cmd
  | .timeGet c => some c
  | .timeServoConfig c => some c
  | .timeOffsetFeed c => some c
  | .timeRebase c => some c
  | .timePortComp c => some c
  | .timeTsqRead c => some c
  | .timeTrigArm c => some c
  | .timeTrigCancel c => some c
  | .timePpsConfig c => some c
  | .timeCounters c => some c
  | .timeSafeClear c => some c
  | .sysGetInfo c => some c
  | .sysNop c => some c
  | .sysCancel c => some c
  | .sysResetCmd c => some c
  | .sysIngotSave c => some c
  | .sysLaneConfig c => some c
  | .sysCounters c => some c
  | .fieldConfig c => some c
  | .fieldChildSet c => some c
  | .fieldChildDel c => some c
  | .fieldChildGet c => some c
  | .fieldRdvSet c => some c
  | .fieldOrphanPlan c => some c
  | .fieldTest c => some c
  | .fieldCounters c => some c
  | .wideChanSet c => some c
  | .wideTxpwrConfig c => some c
  | .wideRxConfig c => some c
  | .wideMldPair c => some c
  | .wideFtmConfig c => some c
  | .wideTest c => some c
  | .widePhyCounters c => some c
  | .wideBssSet c => some c
  | .wideUpstreamSet c => some c
  | .wideAccessConfig c => some c
  | .wideClientGet c => some c
  | .wideClientDel c => some c
  | .wideKeyInstall c => some c
  | .wideKeyDel c => some c
  | .wideKeyInfo c => some c
  | .wideTwtSet c => some c
  | .wideNeighbourSet c => some c
  | .wideAccessCounters c => some c
  | .fePinConfig c => some c
  | .feCoexConfig c => some c
  | .calConfig c => some c
  | .calRun c => some c
  | .calStatus c => some c
  | .feCounters c => some c
  | .planQueueSet c => some c
  | .planClassSet c => some c
  | .planPolicerSet c => some c
  | .planGateSet c => some c
  | .planMaskSet c => some c
  | .planAirConfig c => some c
  | .planAirRead c => some c
  | .planQueueGet c => some c
  | .planCounters c => some c
  | .wiredPortSet c => some c
  | .wiredPortStatus c => some c
  | .wiredT1sSet c => some c
  | .wiredSwitchConfig c => some c
  | .wiredVlanSet c => some c
  | .wiredGroupSet c => some c
  | .wiredL2Set c => some c
  | .wiredL2Read c => some c
  | .wiredL3IfSet c => some c
  | .wiredNexthopSet c => some c
  | .wiredPrefixSet c => some c
  | .wiredFlowSet c => some c
  | .wiredClassMap c => some c
  | .wiredMdio c => some c
  | .wiredCounters c => some c
  | .memConfig c => some c
  | .memPoolSet c => some c
  | .memCellSet c => some c
  | .memPortSet c => some c
  | .memRingSet c => some c
  | .memRingRead c => some c
  | .memStatus c => some c
  | .memCounters c => some c
  | .pwrSetMode c => some c
  | .pwrConfig c => some c
  | .pwrAlarm c => some c
  | .pwrStatus c => some c
  | .pwrCounters c => some c
  | .meterConfig c => some c
  | .meterTrigSet c => some c
  | .meterCaptureFire c => some c
  | .meterCaptureRead c => some c
  | .meterEnergyRead c => some c
  | .daliConfig c => some c
  | .daliSend c => some c
  | .tmrChanSet c => some c
  | .tmrGroup c => some c
  | .tmrCompare c => some c
  | .tmrCaptureRead c => some c
  | .gpioConfig c => some c
  | .gpioWrite c => some c
  | .poleCounters c => some c
  | .secInfo c => some c
  | .secAttest c => some c
  | .secCertRead c => some c
  | .secKeySet c => some c
  | .imgBegin c => some c
  | .imgWrite c => some c
  | .imgCommit c => some c
  | .imgConfirm c => some c
  | .secFactoryRestore c => some c
  | .seedWrite c => some c
  | .secPcieIds c => some c
  | .secCounters c => some c
  | .assayStatus c => some c
  | .assayConfig c => some c
  | .assayReplan c => some c
  | .assayPairRead c => some c
  | .assayFaultLog c => some c
  | .assayUnitEnable c => some c
  | .assayCounters c => some c
  | _ => none

/-- The opcode under which a row of the Steward's command sets is sent, as the opcode tables of the chapters give it; 0 for every other
row. -/
def Instr.opcode : Instr → Nat
  | .timeGet _ => 0x0201
  | .timeServoConfig _ => 0x0202
  | .timeOffsetFeed _ => 0x0203
  | .timeRebase _ => 0x0204
  | .timePortComp _ => 0x0205
  | .timeTsqRead _ => 0x0206
  | .timeTrigArm _ => 0x0207
  | .timeTrigCancel _ => 0x0208
  | .timePpsConfig _ => 0x0209
  | .timeCounters _ => 0x020A
  | .timeSafeClear _ => 0x020B
  | .sysGetInfo _ => 0x0101
  | .sysNop _ => 0x0102
  | .sysCancel _ => 0x0103
  | .sysResetCmd _ => 0x0104
  | .sysIngotSave _ => 0x0105
  | .sysLaneConfig _ => 0x0106
  | .sysCounters _ => 0x0107
  | .fieldConfig _ => 0x0601
  | .fieldChildSet _ => 0x0602
  | .fieldChildDel _ => 0x0603
  | .fieldChildGet _ => 0x0604
  | .fieldRdvSet _ => 0x0605
  | .fieldOrphanPlan _ => 0x0606
  | .fieldTest _ => 0x0607
  | .fieldCounters _ => 0x0608
  | .wideChanSet _ => 0x0501
  | .wideTxpwrConfig _ => 0x0502
  | .wideRxConfig _ => 0x0503
  | .wideMldPair _ => 0x0504
  | .wideFtmConfig _ => 0x0505
  | .wideTest _ => 0x0506
  | .widePhyCounters _ => 0x0507
  | .wideBssSet _ => 0x0510
  | .wideUpstreamSet _ => 0x0511
  | .wideAccessConfig _ => 0x0512
  | .wideClientGet _ => 0x0513
  | .wideClientDel _ => 0x0514
  | .wideKeyInstall _ => 0x0515
  | .wideKeyDel _ => 0x0516
  | .wideKeyInfo _ => 0x0517
  | .wideTwtSet _ => 0x0518
  | .wideNeighbourSet _ => 0x0519
  | .wideAccessCounters _ => 0x051A
  | .fePinConfig _ => 0x0C01
  | .feCoexConfig _ => 0x0C02
  | .calConfig _ => 0x0C03
  | .calRun _ => 0x0C04
  | .calStatus _ => 0x0C05
  | .feCounters _ => 0x0C06
  | .planQueueSet _ => 0x0701
  | .planClassSet _ => 0x0702
  | .planPolicerSet _ => 0x0703
  | .planGateSet _ => 0x0704
  | .planMaskSet _ => 0x0705
  | .planAirConfig _ => 0x0706
  | .planAirRead _ => 0x0707
  | .planQueueGet _ => 0x0708
  | .planCounters _ => 0x0709
  | .wiredPortSet _ => 0x0401
  | .wiredPortStatus _ => 0x0402
  | .wiredT1sSet _ => 0x0403
  | .wiredSwitchConfig _ => 0x0404
  | .wiredVlanSet _ => 0x0405
  | .wiredGroupSet _ => 0x0406
  | .wiredL2Set _ => 0x0407
  | .wiredL2Read _ => 0x0408
  | .wiredL3IfSet _ => 0x0409
  | .wiredNexthopSet _ => 0x040A
  | .wiredPrefixSet _ => 0x040B
  | .wiredFlowSet _ => 0x040C
  | .wiredClassMap _ => 0x040D
  | .wiredMdio _ => 0x040E
  | .wiredCounters _ => 0x040F
  | .memConfig _ => 0x0801
  | .memPoolSet _ => 0x0802
  | .memCellSet _ => 0x0803
  | .memPortSet _ => 0x0804
  | .memRingSet _ => 0x0805
  | .memRingRead _ => 0x0806
  | .memStatus _ => 0x0807
  | .memCounters _ => 0x0808
  | .pwrSetMode _ => 0x0301
  | .pwrConfig _ => 0x0302
  | .pwrAlarm _ => 0x0303
  | .pwrStatus _ => 0x0304
  | .pwrCounters _ => 0x0305
  | .meterConfig _ => 0x0901
  | .meterTrigSet _ => 0x0902
  | .meterCaptureFire _ => 0x0903
  | .meterCaptureRead _ => 0x0904
  | .meterEnergyRead _ => 0x0905
  | .daliConfig _ => 0x0906
  | .daliSend _ => 0x0907
  | .tmrChanSet _ => 0x0908
  | .tmrGroup _ => 0x0909
  | .tmrCompare _ => 0x090A
  | .tmrCaptureRead _ => 0x090B
  | .gpioConfig _ => 0x090C
  | .gpioWrite _ => 0x090D
  | .poleCounters _ => 0x090E
  | .secInfo _ => 0x0A01
  | .secAttest _ => 0x0A02
  | .secCertRead _ => 0x0A03
  | .secKeySet _ => 0x0A04
  | .imgBegin _ => 0x0A05
  | .imgWrite _ => 0x0A06
  | .imgCommit _ => 0x0A07
  | .imgConfirm _ => 0x0A08
  | .secFactoryRestore _ => 0x0A09
  | .seedWrite _ => 0x0A0A
  | .secPcieIds _ => 0x0A0B
  | .secCounters _ => 0x0A0C
  | .assayStatus _ => 0x0B01
  | .assayConfig _ => 0x0B02
  | .assayReplan _ => 0x0B03
  | .assayPairRead _ => 0x0B04
  | .assayFaultLog _ => 0x0B05
  | .assayUnitEnable _ => 0x0B06
  | .assayCounters _ => 0x0B07
  | _ => 0


/-- Is the command one that can be sent? -/
def Instr.wf : Instr → Bool
  | .doorbell l _ => decide (l < 4)
  | .mbxDoneWrite l _ => decide (l < 4)
  | .laneClaim l n => decide (l < 4) && decide (n < 2 ^ 16)
  | .hardClaim l n => decide (l < 4) && decide (n < 2 ^ 16)
  | .laneReleaseWrite l n => decide (l < 4) && decide (n < 2 ^ 16)
  | .leaseRenew l => decide (l < 4)
  | .evrRdWrite l i => decide (l < 4) && decide (i < 1024)
  | .mbxErrRead l => decide (l < 4)
  | .evrLostRead l => decide (l < 4)
  | .leaseExpiry l => decide (l < 4)
  | .laneWdogExpiry l => decide (l < 4)
  | .pwrReqWrite t q => decide (t < 8) && decide (q < 256)
  | .registerWrite v o _ => decide (v < 3) && decide (o < 4096) && decide (o % 4 = 0)
  | .inbandCommand f => f.wf
  | .inbandDone f => f.wf
  | .inbandClaim f => f.wf
  | .inbandRenewal f => f.wf
  | .inbandBulkWrite f => f.wf
  | .inbandBulkRead f => f.wf
  | .inbandRelease f => f.wf
  | .warmReset b _ => bootSrcWf b
  | .sysResetNRise b _ => bootSrcWf b
  | .porRelease b a _ _ => bootSrcWf b && decide (a < 8)
  | .thermalRelease _ b _ => bootSrcWf b
  | .beatOverrun u _ => decide (u < 48)
  | .planCompletion u => decide (u < 48)
  | .parityError u => decide (u < 48)
  | .unitResume u => decide (u < 48)
  | .entryBlockReply b r => decide (b < 48) && decide (r ≤ 8)
  | .triggerFire c => decide (c < 16)
  | .triggerPulseEnd c => decide (c < 16)
  | .timerWrap c => decide (c < 16)
  | .timerMatch c w => decide (c < 16) && decide (w < 2)
  | .timerCapture p _ => decide (p < 32)
  | .gpioEdge p _ => decide (p < 32)
  | .enqueue _ p v => p.wf && decide (v < 4096)
  | .wiredFrameRx p w => decide (p < 24) && w.frame.wf
  | .txRingPoll _ d => d.all TxDesc.wf
  | .fieldRxEnd _ x => x.wf
  | .linkUp p _ _ => decide (p < 24)
  | .linkDown p => decide (p < 24)
  | .supplyMonitorTrip n => decide (n < 4)
  | i => i.cmd?.all Cmd.wf

end Sys2Proof
end

