-- ==== Sys2Proof/Safety.lean ====
section
/-! DEFINITION. The terms in which claims are stated: when a command is accepted at once, the state in which its work starts, what its sender
reads as its answer, which interrupts are reported. -/

namespace Sys2Proof.Machine

/-- A command sent now is accepted at once: no reset is held, its window answers, its lane is claimed, its slot is FREE, no earlier doorbell of
the lane waits, and the Steward serves (R99, R102 to R104, R517). -/
def acceptedNow (c : Cmd) (s : State) : Bool :=
  alive s && windowUp s && decide (c.lane < 4) && decide (c.slot < 16) && (s.lane c.lane).claimed &&
    decide ((s.slot c.lane c.slot).phase = .free) && (s.lane c.lane).order.isEmpty && serving s

/-- The header is good: IFVER major 4 (R120), LENGTH, FLAGS and the bulk region within their limits (Table 2-5). -/
def goodHeader (c : Cmd) : Bool := decide (c.ifver / 16 = 4) && (badHeader c).isNone

/-- DURABLE is not asked for (Table 2-5). -/
def plain (c : Cmd) : Bool := !hasBit c.flags 1

/-- A lane at a command's acceptance: the slot holds the command and is BUSY, the bulk region what came with it, the lease and the lane watchdog
restart (R96), the acceptance is counted. -/
def takenLane (op : Nat) (c : Cmd) (g : LaneConfig) (l : Lane) : Lane :=
  { l with slots := Bank.modify l.slots c.slot (fun x => { x with opcode := op, cmd := c, phase := .held, accepted := true }),
           bulk := Memory.writeList l.bulk c.bulkOff c.region,
           order := [], cmdCnt := satInc 32 l.cmdCnt, leaseLeft := g.leaseBeats, wdogLeft := g.wdogBeats, wdogExpired := false }

/-- The state in which the work of a command that is accepted at once starts. -/
def taken (op : Nat) (c : Cmd) (s : State) : State :=
  { s with stw.nextJob := s.stw.nextJob + 1, stw.lanes := Bank.modify s.stw.lanes c.lane (takenLane op c (s.laneCfg c.lane)),
           outbox := [], pending := [] }

/-- The slot pair of `c` is in DONE, and its response slot holds the answer `r` to opcode `op`, accepted in beat `b` (Table 2-6). -/
def answered (op b : Nat) (c : Cmd) (r : Reply) (t : State) : Prop :=
  (t.slot c.lane c.slot).phase = .done ∧
  (t.slot c.lane c.slot).response =
    le 2 op ++ le 2 (16 + r.body.length) ++ le 2 c.tag ++ le 1 r.status ++ le 1 r.detail ++ le 4 (b % 2 ^ 32) ++ le 4 r.bulkOut ++ r.body

/-- In `t` every slot pair but that of `c`, and every part of the Steward interface but its lanes, the count of commands accepted and the
interrupts told of, and every part of the block outside the Steward interface but the outbox, is as in `u`. -/
def elsewhere (c : Cmd) (u t : State) : Prop :=
  (∀ n k, ¬ (n = c.lane ∧ k = c.slot) → t.slot n k = u.slot n k) ∧
  t = { u with
    stw := { u.stw with lanes := t.stw.lanes, nextJob := t.stw.nextJob, msixPrev := t.stw.msixPrev }
    outbox := t.outbox }

/-- The command of `c`, sent to `s`, has ended at once with the answer `r`, and all else in the block is as in `u`. -/
def ended (op : Nat) (c : Cmd) (s : State) (r : Reply) (u t : State) : Prop := answered op s.beat c r t ∧ elsewhere c u t

/-- The command of `c`, sent to `s`, has been accepted and is not yet answered: its slot pair is BUSY, it is the newest of the open commands,
its point of commitment passed or not as `cm` says; and all else in the block is as in `u`. -/
def opened (op : Nat) (c : Cmd) (s : State) (cm : Bool) (u t : State) : Prop :=
  (t.slot c.lane c.slot).phase = .held ∧
  (∃ j : Job, t.stw.jobs = s.stw.jobs ++ [j] ∧ j.id = s.stw.nextJob ∧ j.opcode = op ∧ j.cmd = c ∧ j.lane = c.lane ∧ j.slot = c.slot ∧
    j.committed = cm ∧ j.reply = none ∧ j.acceptBeat = s.beat % 2 ^ 32) ∧
  elsewhere c { u with stw.jobs := t.stw.jobs } t

/-- A command that READY serves at once: accepted now, its header good, DURABLE not asked for. -/
def readyFor (c : Cmd) (s : State) : Bool := acceptedNow c s && goodHeader c && plain c && decide (s.stw.state = .ready)

/-- Every field of the command holds a value that the table `fs` allows, and no reserved byte is nonzero (R17, R120). -/
def goodTable (fs : List FieldSpec) (c : Cmd) : Bool := (badField fs c).isNone

/-- `t` is `u` but for what it has sent out and which interrupts it has told of. -/
def became (u t : State) : Prop := t = { u with stw := { u.stw with msixPrev := t.stw.msixPrev }, outbox := t.outbox }

/-- The offsets of the direct register window that Tables 2-13 to 2-18 list and that a read answers with a register: SYS_, MBX_ and EVR_ of each
lane, INT_, TB_ and PWR_ (R117). The write-only DOORBELL, SYS_RESET and PWR_REQ are not among them. -/
def readableOffsets : List Nat :=
  [0x000, 0x004, 0x008, 0x00C, 0x014, 0x018] ++
  [0x104, 0x108, 0x10C, 0x110, 0x114, 0x118, 0x144, 0x148, 0x14C, 0x150, 0x154, 0x158] ++
  [0x184, 0x188, 0x18C, 0x190, 0x194, 0x198, 0x1C4, 0x1C8, 0x1CC, 0x1D0, 0x1D4, 0x1D8] ++
  [0x200, 0x204, 0x208, 0x20C, 0x210, 0x220, 0x224, 0x228, 0x22C, 0x230] ++
  [0x240, 0x244, 0x248, 0x24C, 0x250, 0x260, 0x264, 0x268, 0x26C, 0x270] ++
  [0x300, 0x304, 0x308, 0x30C, 0x400, 0x404, 0x408, 0x40C, 0x410, 0x414, 0x500, 0x508, 0x50C]

/-- Every enabled interrupt condition that stands has been told of by its MSI-X message, and none that does not stand is taken as told
(R116). -/
abbrev reported (s : State) : Prop := s.stw.msixPrev = intStatus s &&& s.stw.enMsix

end Sys2Proof.Machine

namespace Sys2Proof
open Machine

/-- The rows that act on a reset itself: they act while a reset is held. -/
def Instr.onReset : Instr → Bool
  | .sysResetNLow _ => true
  | .sysResetNRise _ _ => true
  | .brownOut => true
  | .supplyMonitorTrip _ => true
  | .porRelease _ _ _ _ => true
  | .thermalRelease _ _ _ => true
  | _ => false

/-- The command names a value that its table reserves: a reserved field that is not 0, a reserved bit that is 1, a byte that is not 0 between
the last field and LENGTH (R17, R120). -/
def reservedSet (fs : List FieldSpec) (c : Cmd) : Bool :=
  fs.any (fun f => match f.kind with
    | .zero => decide (c.u f.off f.len ≠ 0)
    | .mask m => decide (c.u f.off f.len &&& m ≠ c.u f.off f.len)
    | _ => false) ||
  (List.range c.length).any (fun o => decide (tableEnd fs ≤ o) && decide (c.byteAt o ≠ 0))

/-- `n` steps. -/
def steps : Nat → State → Host.Outcome State Fault Refusal
  | 0, s => .next s
  | n + 1, s => match step s with
    | .next t => steps n t
    | o => o

/-- The rows of a list, one after the other. -/
def execAll : List Instr → State → Host.Outcome State Fault Refusal
  | [], s => .next s
  | i :: r, s => match exec i s with
    | .next t => execAll r t
    | o => o

end Sys2Proof
end

