-- ==== Sys2Proof/Certificates/Slice0/Obligations.lean ====
section
/-! DEFINITION. The statements about the model. -/

open Sys2Proof Sys2Proof.Machine

/-- A step runs the command at the front of the queue. For every command and every state, a step with that command at
the front of the queue is the command's meaning on that state with the rest of the queue. -/
def Obligations.StepRunsTheFrontCommand : Prop :=
  ∀ (i : Instr) (rest : List Instr) (s : State), 
      step { s with pending := i :: rest } = exec i { s with pending := rest }

/-- With no command waiting, one TIME tick passes. On an empty queue, with the clock running and no doorbell held, a
step moves the TBC's accumulator on by one increment (R24) and local time by one tick, and changes nothing else; while
the power-on reset is held it changes nothing. That a step on an empty queue is a tick is the model's choice (log
entry 1). -/
def Obligations.EmptyQueueIdlesOneTick : Prop :=
  -- the clock runs
  (∀ (s : State), s.pending = [] → alive s = true → clockRuns s = true → (List.range 4).all (fun k => (s.lane k).order.isEmpty) = true → 
      ∃ t, step s = .next t ∧ became { s with time.acc := (s.time.acc + s.inc) % 2 ^ 96, time.mono := s.time.mono + s.tickNs } t) ∧
  -- the power-on reset is held
  (∀ (s : State), s.pending = [] → s.boot.porHeld = true → 
      step s = .next { s with outbox := [] })

/-- No command sees or changes the queue behind it. Whatever waits behind a command, the command's outcome is the
same, and what waits is as it was. -/
def Obligations.QueueIsNeverSeen : Prop :=
  ∀ (i : Instr) (s : State) (q : List Instr), 
      exec i { s with pending := q } = (match exec i s with | .next u => .next { u with pending := q } | o => o)

/-- The queue runs first in, first out. From every state, as many steps as there are commands at the front of the
queue do what those commands do one after the other, in their order, up to the first that stops; behind them the rest
of the queue is as it was. -/
def Obligations.QueueRunsInOrder : Prop :=
  ∀ (l rest : List Instr) (s : State), 
      steps l.length { s with pending := l ++ rest } = (match execAll l s with | .next u => .next { u with pending := rest } | o => o)

/-- Every command of the table completes, but for the release of the power-on reset into the test state. In every
state every command answers a next state and leaves the queue as it was; the one exception is POR_RELEASE with
TEST_MODE at 1 while the power-on reset is held, of which the manual says that it does not apply to that state. -/
def Obligations.NoCommandStops : Prop :=
  ∀ (i : Instr) (s : State), 
      (∃ u, exec i s = .next u ∧ u.pending = s.pending) ∨ (∃ b a f, i = .porRelease b a f true ∧ s.boot.porHeld = true ∧ exec i s = .refused .testMode)

/-- After every step, every enabled interrupt that stands has been told of. For every state in which the conditions
told of by MSI-X are exactly the enabled ones that stand, the state after any step is such a state again (R116). -/
def Obligations.InterruptsStayTold : Prop :=
  ∀ (s t' : State), reported s → step s = .next t' → 
      reported t'

/-- The state after reset is one in which every enabled interrupt that stands has been told of. The invariant of
InterruptsStayTold holds at reset. -/
def Obligations.ResetIsTold : Prop :=
  
      reported State.reset

/-- While a reset is held, only the resets act. While the power-on reset, SYS_RESET_N or a thermal reset is held,
every command but those on the resets themselves changes nothing. -/
def Obligations.NothingHappensInReset : Prop :=
  ∀ (i : Instr) (s : State), i.onReset = false → alive s = false → 
      ∃ u, exec i s = .next u ∧ became s u

/-- A command whose header is wrong, or whose area is not served, is answered and does nothing. Every command of the
Steward's command sets that is accepted at once and names another major interface version is answered UNSUPPORTED with
DETAIL 0x01 (R120); with a wrong header field it is answered BAD_ARG with that field's offset (R100, R107); in
Recovery, outside the system and the security-and-images areas, it is answered WRONG_MODE (R128). Beside its answer,
which for PWR_SET_MODE stands in PWR_RESULT too (R118), nothing changes. -/
def Obligations.CommandsAreRefusedEarly : Prop :=
  -- another major version
  (∀ (i : Instr) (c : Cmd) (s : State), i.cmd? = some c → acceptedNow c s = true → c.ifver / 16 ≠ 4 → 
      ∃ t, exec i s = .next t ∧ ended i.opcode c s { status := 2, detail := 1 } (notePower i.opcode c { status := 2, detail := 1 } s) t) ∧
  -- a wrong field of the header
  (∀ (i : Instr) (c : Cmd) (d : Nat) (s : State), i.cmd? = some c → acceptedNow c s = true → c.ifver / 16 = 4 → badHeader c = some d → 
      ∃ t, exec i s = .next t ∧ ended i.opcode c s { status := 3, detail := d } (notePower i.opcode c { status := 3, detail := d } s) t) ∧
  -- in Recovery, an area that is not served
  (∀ (i : Instr) (c : Cmd) (s : State), i.cmd? = some c → acceptedNow c s = true → goodHeader c = true → s.stw.state = .recovery → i.opcode / 256 ≠ 1 ∧ i.opcode / 256 ≠ 10 → 
      ∃ t, exec i s = .next t ∧ ended i.opcode c s { status := 7, detail := s.power.mode.code } (notePower i.opcode c { status := 7, detail := s.power.mode.code } s) t)

/-- A field out of its range, and a reserved byte or bit that is not 0, are answered BAD_ARG and nothing is done.
Every command of the Steward's command sets that is accepted at once with a good header, of an area that is served, is
answered BAD_ARG when its table does not allow the value of a field, or when it sets what its table reserves; DETAIL
is the offset of a field no later than the first that the table finds wrong. Beside the answer, which for PWR_SET_MODE
stands in PWR_RESULT too (R118), nothing changes. -/
def Obligations.ReservedFieldsAreRefused : Prop :=
  -- a value that the table does not allow
  (∀ (i : Instr) (c : Cmd) (d : Nat) (s : State), i.cmd? = some c → acceptedNow c s = true → goodHeader c = true → areaServed i.opcode s = true → badField (handlerOf i.opcode).fields c = some d → 
      ∃ t e, exec i s = .next t ∧ e ≤ d ∧ ended i.opcode c s { status := 3, detail := e } (notePower i.opcode c { status := 3, detail := e } s) t) ∧
  -- a reserved byte or bit
  (∀ (i : Instr) (c : Cmd) (s : State), i.cmd? = some c → acceptedNow c s = true → goodHeader c = true → areaServed i.opcode s = true → reservedSet (handlerOf i.opcode).fields c = true → 
      ∃ t e, exec i s = .next t ∧ ended i.opcode c s { status := 3, detail := e } (notePower i.opcode c { status := 3, detail := e } s) t)

/-- A command sent while the Steward does not serve waits in its slot. Every command of the command sets that is sent
to a FREE slot of a claimed lane before READY, or during a Steward restart, sets the slot BUSY behind the doorbells of
the lane that wait, what its sender wrote standing in the slot and in the bulk region, and renews the lane's lease;
nothing else changes. -/
def Obligations.DoorbellsWaitForTheSteward : Prop :=
  ∀ (i : Instr) (c : Cmd) (s : State), i.cmd? = some c → alive s = true → windowUp s = true → c.lane < 4 ∧ c.slot < 16 → (s.lane c.lane).claimed = true → (s.slot c.lane c.slot).phase = .free → s.power.entry = none → s.stw.state ≠ .fault → serving s = false → hostLoading s = false → 
      ∃ t, exec i s = .next t ∧ became { s with stw.lanes := Bank.modify s.stw.lanes c.lane (fun l => { l with slots := Bank.modify l.slots c.slot (fun x => { x with opcode := i.opcode, cmd := c, phase := .held, accepted := false }), bulk := Memory.writeList l.bulk c.bulkOff c.region, order := l.order ++ [c.slot], leaseLeft := (s.laneCfg c.lane).leaseBeats, wdogLeft := (s.laneCfg c.lane).wdogBeats, wdogExpired := false }) } t

/-- A doorbell of a slot that is not FREE is counted and reported. Every command of the command sets that is sent to a
slot of a claimed lane that is BUSY or DONE leaves that slot as it was; MBX_DB_ERR_CNT counts it, SYS_DB_ERROR is
raised, and the lane's lease is renewed; nothing else changes. -/
def Obligations.TakenSlotsAreLeftAlone : Prop :=
  ∀ (i : Instr) (c : Cmd) (s : State), i.cmd? = some c → alive s = true → windowUp s = true → c.lane < 4 ∧ c.slot < 16 → (s.lane c.lane).claimed = true → (s.slot c.lane c.slot).phase ≠ .free → s.stw.state ≠ .fault → 
      ∃ t, exec i s = .next t ∧ became (raise 45 0x0103 (le 1 c.lane ++ le 1 c.slot) { s with stw.lanes := Bank.modify s.stw.lanes c.lane (fun l => { l with dbErrCnt := satInc 16 l.dbErrCnt, leaseLeft := (s.laneCfg c.lane).leaseBeats, wdogLeft := (s.laneCfg c.lane).wdogBeats, wdogExpired := false }) }) t

/-- A doorbell on an unclaimed lane is ignored and counted. A write of DOORBELL that names any slots of an unclaimed
lane, every command of the command sets sent to an unclaimed lane, and an accepted in-band command on an unclaimed
lane 3 add 1 to that lane's MBX_DB_ERR_CNT, which saturates, and change nothing else. -/
def Obligations.UnclaimedLanesCountDoorbells : Prop :=
  -- DOORBELL
  (∀ (n : Nat) (ring : BitVec 16) (s : State), alive s = true → windowUp s = true → n < 2 → ring ≠ 0 → (s.lane n).claimed = false → ((List.range 4).all (fun k => (s.lane k).order.isEmpty) = true ∨ serving s = false ∧ hostLoading s = false) → 
      ∃ t, exec (.doorbell n ring) s = .next t ∧ became { s with stw.lanes := Bank.modify s.stw.lanes n (fun l => { l with dbErrCnt := satInc 16 l.dbErrCnt }) } t) ∧
  -- a row of the command sets
  (∀ (i : Instr) (c : Cmd) (s : State), i.cmd? = some c → alive s = true → windowUp s = true → c.lane < 4 ∧ c.slot < 16 → (s.lane c.lane).claimed = false → 
      ∃ t, exec i s = .next t ∧ became { s with stw.lanes := Bank.modify s.stw.lanes c.lane (fun l => { l with dbErrCnt := satInc 16 l.dbErrCnt }) } t) ∧
  -- INBAND_COMMAND on lane 3, open, its tag good
  (∀ (f : InbandFrame) (s : State), alive s = true → windowUp s = true → f.lane = 3 ∧ f.slot < 16 ∧ f.tagOk = true → s.kept.stw.lane3Open = true → (s.lane 3).claimed = false → 
      ∃ t, exec (.inbandCommand f) s = .next t ∧ became { s with stw.lanes := Bank.modify s.stw.lanes 3 (fun l => { l with dbErrCnt := satInc 16 l.dbErrCnt }) } t)

/-- A measurement on a load's tick, or of an earlier epoch, is discarded and counted. A measurement of the selected
source taken on the tick of a load, or stamped in an earlier epoch than the current one, outside Doze and Dormant,
changes the counts of measurements and of stale ones and the count of beats without a measurement, and nothing else;
so for each source, whose measurements all go through one judgement. -/
def Obligations.StaleMeasurementsAreDiscarded : Prop :=
  -- SERVO_MEASUREMENT of the selected port or of the Steward's own source
  (∀ (m : Measurement) (s : State), alive s = true → s.power.mode ≠ .doze ∧ s.power.mode ≠ .dormant → (m.src = 1 ∧ m.port = s.kept.time.servo.port ∨ m.src = 2) → s.kept.time.servo.src = m.src → (s.time.loadTick = some s.time.acc ∨ laterEpoch s.kept.time.epoch m.epoch = true) → 
      ∃ t, exec (.servoMeasurement m) s = .next t ∧ became { s with time.srcBeats := 0, time.counts := tally (tally s.time.counts 24) 60 } t) ∧
  -- the judgement of a measurement of any source
  (∀ (theta : Int) (epoch : Nat) (s : State), s.power.mode ≠ .doze ∧ s.power.mode ≠ .dormant → (s.time.loadTick = some s.time.acc ∨ laterEpoch s.kept.time.epoch epoch = true) → 
      Machine.measure theta epoch s = { s with time.srcBeats := 0, time.counts := tally (tally s.time.counts 24) 60 })

/-- TIME_OFFSET_FEED is accepted only while SRC is 2, and a stale measurement is not applied. While SRC is not 2 the
command is answered DENIED; while it is 2, a measurement stamped more than 2,000 beats before, or in an earlier epoch,
is answered STALE, and only the counts of measurements and of stale ones and the count of beats without a measurement
change. -/
def Obligations.OffsetFeedsAreJudged : Prop :=
  -- another source
  (∀ (c : Cmd) (s : State), readyFor c s = true → goodTable [fAny 16 8, fAny 24 2, fAny 26 8, fAny 34 1, fZero 35 1, fZero 36 4] c = true → s.kept.time.servo.src ≠ 2 → 
      ∃ t, exec (.timeOffsetFeed c) s = .next t ∧ ended 0x0203 c s { status := 6, detail := 0xFF } s t) ∧
  -- an earlier epoch, or more than 2,000 beats before
  (∀ (c : Cmd) (s : State), readyFor c s = true → goodTable [fAny 16 8, fAny 24 2, fAny 26 8, fAny 34 1, fZero 35 1, fZero 36 4] c = true → s.kept.time.servo.src = 2 → (laterEpoch s.kept.time.epoch (c.u 34 1) = true ∨ c.u 34 1 = s.kept.time.epoch ∧ c.u 26 8 + 2000 * 1000000 < s.ns) → 
      ∃ t, exec (.timeOffsetFeed c) s = .next t ∧ ended 0x0203 c s { status := 10 } { s with time.srcBeats := 0, time.counts := tally (tally s.time.counts 24) 60 } t)

/-- A request for mode 5, 6 or 7 is answered BAD_ARG, and nothing changes. PWR_REQ with such a target is answered
BAD_ARG in PWR_RESULT, or BUSY where a transition is under way (R118); PWR_SET_MODE with such a target is answered
BAD_ARG with the offset of TARGET, and the same answer stands in PWR_RESULT; beside PWR_RESULT and its interrupt,
nothing changes. -/
def Obligations.NoSuchModeIsRefused : Prop :=
  -- PWR_REQ, no transition under way
  (∀ (k q : Nat) (s : State), alive s = true → windowUp s = true → inTransition s = false → (k = 5 ∨ k = 6 ∨ k = 7) → 
      ∃ t, exec (.pwrReqWrite k q) s = .next t ∧ became { s with power.resultTag := q % 256, power.resultStatus := 3, power.resultCause := 0, power.resultSource := 0, stw.sticky := setBit32 s.stw.sticky 9 } t) ∧
  -- PWR_REQ of any target in a transition: BUSY
  (∀ (k q : Nat) (s : State), alive s = true → windowUp s = true → inTransition s = true → 
      ∃ t, exec (.pwrReqWrite k q) s = .next t ∧ became { s with power.resultTag := q % 256, power.resultStatus := 1, power.resultCause := 0, power.resultSource := 0, stw.sticky := setBit32 s.stw.sticky 9 } t) ∧
  -- PWR_SET_MODE
  (∀ (c : Cmd) (s : State), readyFor c s = true → inTransition s = false → goodTable [fAny 16 1, fMask 17 1 3, fZero 18 2] c = true → c.lane ≤ 2 → (c.u 16 1 = 5 ∨ c.u 16 1 = 6 ∨ c.u 16 1 = 7) → 
      ∃ t, exec (.pwrSetMode c) s = .next t ∧ ended 0x0301 c s { status := 3, detail := 16 } { s with power.resultTag := c.tag % 256, power.resultStatus := 3, power.resultCause := 16, power.resultSource := 0, stw.sticky := setBit32 s.stw.sticky 9 } t)

/-- A hard claim succeeds on an unclaimed lane or after its watchdog's expiry, and is counted otherwise. Where the
lane is unclaimed or its watchdog has expired, the lane is claimed under the new nonce; otherwise the claim is ignored
and counted in HARD_CLAIM_CNT. So for the register of lanes 0 and 1, and for the judgement of every lane, through
which a claim frame with HARD goes too. -/
def Obligations.HardClaimsAreJudged : Prop :=
  -- HARD_CLAIM that succeeds
  (∀ (n nonce : Nat) (s : State), alive s = true → n < 2 → windowUp s = true → 0 < nonce → nonce < 65536 → ((s.lane n).claimed = false ∨ (s.lane n).wdogExpired = true) → 
      ∃ t, exec (.hardClaim n nonce) s = .next t ∧ ((t.lane n).claimed = true ∧ (t.lane n).nonce = nonce ∧ (t.lane n).wdogExpired = false ∧ (t.lane n).leaseLeft = (t.laneCfg n).leaseBeats)) ∧
  -- HARD_CLAIM that is ignored
  (∀ (n nonce : Nat) (s : State), alive s = true → n < 2 → windowUp s = true → 0 < nonce → nonce < 65536 → (s.lane n).claimed = true → (s.lane n).wdogExpired = false → 
      ∃ t, exec (.hardClaim n nonce) s = .next t ∧ became { s with stw.lanes := Bank.modify s.stw.lanes n (fun l => { l with hardClaimCnt := satInc 16 l.hardClaimCnt }) } t) ∧
  -- the judgement of any lane: success
  (∀ (n nonce : Nat) (s : State), n < 4 → 0 < nonce → nonce < 65536 → ((s.lane n).claimed = false ∨ (s.lane n).wdogExpired = true) → 
      ((judgeHardClaim n nonce s).lane n).claimed = true ∧ ((judgeHardClaim n nonce s).lane n).nonce = nonce) ∧
  -- the judgement of any lane: ignored and counted
  (∀ (n nonce : Nat) (s : State), 0 < nonce → nonce < 65536 → (s.lane n).claimed = true → (s.lane n).wdogExpired = false → 
      judgeHardClaim n nonce s = updLane n (fun l => { l with hardClaimCnt := satInc 16 l.hardClaimCnt }) s) ∧
  -- a claim frame with HARD goes through that judgement
  (∀ (f : InbandFrame) (s : State), hasBit (InbandBody.u f.body 2 1) 0 = true → 
      inbandJudge f s = judgeHardClaim f.lane (InbandBody.u f.body 0 2) s)

/-- A DURABLE command that succeeds is answered only when flash holds its change. A command with DURABLE whose work
ends OK at its acceptance is not answered: it stays open with that answer decided, from the beat whose commit window
brings its change into force on (R119). Everything else is as its work left it. -/
def Obligations.DurableCommandsWait : Prop :=
  ∀ (i : Instr) (c : Cmd) (r : Reply) (s : State), i.cmd? = some c → acceptedNow c s = true → goodHeader c = true → areaServed i.opcode s = true → goodTable (handlerOf i.opcode).fields c = true → hasBit c.flags 1 = true → ((handlerOf i.opcode).run c s.stw.nextJob (taken i.opcode c s)).2 = .reply r → r.status = 0 → 
      ∃ t j, exec i s = .next t ∧ j.id = s.stw.nextJob ∧ j.reply = some r ∧ j.durableFrom = some (s.beat + 1) ∧ j.lane = c.lane ∧ j.slot = c.slot ∧ t.stw.jobs = ((handlerOf i.opcode).run c s.stw.nextJob (taken i.opcode c s)).1.stw.jobs ++ [j] ∧ t.stw.lanes = ((handlerOf i.opcode).run c s.stw.nextJob (taken i.opcode c s)).1.stw.lanes ∧ t.next = ((handlerOf i.opcode).run c s.stw.nextJob (taken i.opcode c s)).1.next ∧ t.kept = ((handlerOf i.opcode).run c s.stw.nextJob (taken i.opcode c s)).1.kept

/-- The state after reset holds the Cold values. At State.reset the TBC is 0 and the servo FREE_RUN (R29), its gains
and limits have the Cold values of Table 1-17 and the UTC offset is 37 s (R28); the Steward is in ROM, no lane is
claimed, and every lane has the Cold lease, watchdog and mask; no command waits or is open, no event is held,
SYS_SCRATCH is 0, and CAUSE_NEW stands. -/
def Obligations.ResetLeavesTheColdValues : Prop :=
  
      State.reset.time.acc = 0 ∧ State.reset.time.servo = .freeRun ∧ State.reset.time.fadj = 0 ∧ State.reset.kept.time.servo = { src := 0, port := 0, kp := 700, ki := 300, slewPpm := 100, lockNs := 100, stepNs := 1000000, srcTimeout := 4000, rebaseWait := 16 } ∧ State.reset.kept.time.pps.utcOffset = 37 ∧ State.reset.stw.state = .rom ∧ State.reset.stw.restoreSrc = 0 ∧ State.reset.stw.causeNewStk = true ∧ State.reset.stw.scratch = 0 ∧ State.reset.stw.jobs = [] ∧ State.reset.stw.events = [] ∧ State.reset.pending = [] ∧ (∀ n < 4, (State.reset.lane n).claimed = false ∧ State.reset.laneCfg n = { leaseBeats := 4000, wdogBeats := 500, areaEn := 0x1FFE, thresh := 1, age := 0 }) ∧ State.reset.next = State.reset.kept

/-- Plan computation, plan commit and commit window. The plan computation at 500 µs makes the plans of the next beat
from the settings accepted for it; the plan commit at 900 µs latches a field plan that its unit has finished; the
commit window opens the next beat with the accepted settings in force; each changes the state as given, and where a
clause gives the whole state nothing else. -/
def Obligations.BeatEventsTakeEffect : Prop :=
  -- PLAN_COMPUTATION with no wide radio on a channel and no job of the Planisher overrunning: the frames that stand in the queues are seen, and the field plan of the next beat is made from the settings accepted for it
  (∀ (pols : List AirPolicy) (u : State) (s : State), alive s = true → s.time.computeBeat ≠ some s.beat → s.phase ≤ 500000 → s.time.settling = false → (s.unit 4).busyUntil ≤ s.time.mono → dataPlane s = true → s.plan.computed = [] → unitUp s 4 = true → s.power.entry = none → s.power.change = none → s.power.waking = none → s.power.mode ≠ .doze → s.kept.wide.chan = [] → u = { advanceTo (s.beat * 1000000 + 500000) s with time.computeBeat := some s.beat, plan.queues := Map.mapVals s.plan.queues (fun _ p => { p with frames := p.frames.map (fun f => { f with seen := some (f.seen.getD (advanceTo (s.beat * 1000000 + 500000) s).beat) }), ulSeen := if p.ulBytes > 0 then some (p.ulSeen.getD (advanceTo (s.beat * 1000000 + 500000) s).beat) else none }) } → 
      ∃ t, exec (.planComputation pols) s = .next t ∧ became { u with plan.computed := [(2, buildField { u with kept := planView u })] } t) ∧
  -- PLAN_COMPUTATION of any beat, behind a job of the Planisher that overruns: the computation is that of its beat, and the next beat has a field plan
  (∀ (pols : List AirPolicy) (s y : State), alive s = true → s.time.computeBeat ≠ some s.beat → (s.phase ≤ 500000 ∨ s.time.planCommitBeat ≠ some s.beat) → s.time.settling = false → dataPlane s = true → unitUp s 4 = true → s.power.entry = none → y = afterOverrun 4 (advancePhase 500000 s) → modeAt y (y.beat + 1) ≠ .doze → 
      ∃ t, exec (.planComputation pols) s = .next t ∧ t.time.computeBeat = some s.beat ∧ (Map.get? t.plan.computed 2).map (·.beat) = some (y.beat + 1)) ∧
  -- PLAN_COMMIT at READY with no wide radio on a channel and a field plan that its chain has finished: the plan is latched for the next beat, the governor stays at level 0
  (∀ (p : AirPlan) (y : State) (s : State), alive s = true → s.time.planCommitBeat ≠ some s.beat → s.boot.stage = 8 ∧ s.power.mode.serves = true → s.plan.gatePending = [] ∧ s.plan.maskPending = [] → s.time.rebase = none → s.power.change = none ∧ s.power.waking = none → s.kept.wide.chan = [] → s.assay.govLevel = 0 ∧ (∀ k ∈ [1, 2, 3], (hottest s).2 < govThreshold s k) → s.kept.assay.config.thetaJa ≠ 0 ∧ s.kept.assay.config.thetaJa ≤ 120 → s.power.fullAllowed = (!s.kept.assay.removed.contains 3 && !s.kept.assay.removed.contains 4) → s.plan.computed = [(2, p)] → ((s.unit 34).complete || (s.unit 35).complete) = true → y = advanceTo (s.beat * 1000000 + 900000) s → p.beat = y.beat + 1 → 
      ∃ t, exec (.planCommit) s = .next t ∧ became { y with time.planCommitBeat := some y.beat, time.planCommitTick := some y.time.acc, time.units := Map.mapVals s.time.units (fun _ u => { u with complete := false }), assay.coolBeats := 0, assay.ambientBar := false, plan.missed := [], plan.computed := [], plan.latched := Map.set (Map.set (Map.set s.plan.latched 0 { beat := y.beat + 1, active := false }) 1 { beat := y.beat + 1, active := false }) 2 p } t) ∧
  -- PLAN_COMMIT of any beat whose commit has not come: it is noted, no unit is complete for the beat after; at READY the next beat has its three plans
  (∀ (s y : State), alive s = true → clockRuns s = true → s.time.planCommitBeat ≠ some s.beat → y = advancePhase 900000 s → 
      ∃ t, exec .planCommit s = .next t ∧ t.time.planCommitBeat = some y.beat ∧ t.time.units.all (fun u => !u.2.complete) = true ∧ (dataPlane s = true → [0, 1, 2].all (fun i => (Map.get? t.plan.latched i).isSome) = true)) ∧
  -- COMMIT_WINDOW in Recovery with no open command: the accepted settings are in force, and every count of beats advances by the beats since the last window
  (∀ (b n : Nat) (y : State) (s : State), alive s = true → s.boot.stage = 9 ∧ s.stw.state = .recovery ∧ s.power.mode = .recovery → b = max s.time.nextCommit s.beat ∧ n = b + 1 - s.time.nextCommit → s.time.rebase = none ∧ s.time.settling = false ∧ s.time.fadjNext = none ∧ s.time.clearIntegral = false ∧ s.time.units = [] → s.plan.late = none ∧ s.stw.jobs = [] ∧ s.power.opNext = none ∧ s.power.change = none ∧ s.power.waking = none → s.assay.lifeDormant = 0 ∧ s.assay.replanning = none → s.next.time.servo.src = 0 ∧ s.kept.time.servo.src = 0 → s.next.time.pps = s.kept.time.pps ∧ s.kept.time.pps.outEnable = false → s.next.assay.config = s.kept.assay.config → (List.range 4).all (fun k => (s.lane k).order.isEmpty) = true → y = advanceTo (b * 1000000) s → 
      ∃ t, exec (.commitWindow) s = .next t ∧ became { y with kept := s.next, time.nextCommit := b + 1, power.opBeats := s.power.opBeats + n, power.fullBeats := if s.power.fullAllowed then s.power.fullBeats + n else 0, stw.lanes := s.stw.lanes.map (fun l => if l.claimed then { l with leaseLeft := l.leaseLeft - n, wdogLeft := l.wdogLeft - n } else l), stw.uptime := s.stw.uptime + n, stw.heartBeats := s.stw.heartBeats + n, assay.pairBeats := s.assay.pairBeats + n, assay.replanBeats := s.assay.replanBeats + n, assay.lifeBeats := s.assay.lifeBeats + n, assay.chipWdog := s.assay.chipWdog + n } t) ∧
  -- COMMIT_WINDOW in READY, one configuration: a PAN identifier accepted for the next beat is in force, nothing else of the settings changes, and the beat whose window comes next is named
  (∀ (s : State), s = { State.reset with boot.stage := 8, stw.state := .ready, next.field.config.panId := 77 } → 
      ∃ t, exec (.commitWindow) s = .next t ∧ t.kept.field.config.panId = 77 ∧ t.kept = { State.reset.kept with field.config.panId := 77 } ∧ t.time.nextCommit = 1) ∧
  -- COMMIT_WINDOW wherever the TBC runs, no rebase load standing before it and no doorbell held: the window of its beat has opened once, the settings accepted for it are in force
  (∀ (b : Nat) (s : State), alive s = true → clockRuns s = true → b = max s.time.nextCommit s.beat → s.time.rebase.all (fun r => decide (b ≤ r.beat)) = true → (List.range 4).all (fun n => (s.lane n).order.isEmpty) = true → 
      ∃ t, exec .commitWindow s = .next t ∧ t.time.nextCommit = b + 1 ∧ t.kept.field.config = s.next.field.config)

/-- What the timebase does of itself. An overrun, an offset measurement, a source time-out, a rebase load, a rebase of
the time service's own, a trigger's firing and its pulse's end, an edge and a sentence of the pulse-per-second input,
a missed second, the latching read of the time and a plan's completion each change the state as given; where the
clause gives the whole state, nothing else changes. -/
def Obligations.TimeEventsTakeEffect : Prop :=
  -- BEAT_OVERRUN of a unit that did not overrun in the beat before
  (∀ (src ovr : Nat) (s : State), alive s = true → 0 < ovr → src ≤ 47 → ((s.unit src).lastOverrun ≠ s.beat ∨ s.beat = 0) → (s.unit src).safe = false → 
      ∃ t, exec (.beatOverrun src ovr) s = .next t ∧ became (raise src 0x0205 (le 8 s.beat ++ le 4 ovr) { s with time.units := Map.set s.time.units src { s.unit src with overrunCnt := satInc 16 (s.unit src).overrunCnt, lastOverrun := s.beat + 1, busyUntil := max (s.unit src).busyUntil (s.time.mono + ovr) } }) t) ∧
  -- BEAT_OVERRUN in the beat after one in which the unit overran: the safe plan follows, whether or not the unit is on it
  (∀ (src ovr : Nat) (s : State), alive s = true → 0 < ovr → src ≤ 47 → s.beat ≠ 0 → (s.unit src).lastOverrun = s.beat → (s.unit src).safe = false → 
      ∃ t, exec (.beatOverrun src ovr) s = .next t ∧ became (raise src 0x0205 (le 8 s.beat ++ le 4 ovr) { s with time.units := Map.set s.time.units src { s.unit src with overrunCnt := satInc 16 (s.unit src).overrunCnt, lastOverrun := s.beat + 1, toSafe := true, busyUntil := max (s.unit src).busyUntil (s.time.mono + ovr) } }) t) ∧
  -- SERVO_MEASUREMENT from the selected port while ACQUIRING, below the lock threshold, the control law not at its limit, fewer than seven such before
  (∀ (m : Measurement) (i theta : Int) (s : State), alive s = true → m.src = 1 → s.kept.time.servo.src = 1 → m.port = s.kept.time.servo.port → m.epoch = s.kept.time.epoch → s.power.mode.serves = true → s.time.loadTick = none → s.time.servo = .acquiring → s.time.lockRun < 7 → theta = m.t2 - m.t1 - m.correction - m.meanPathDelay → theta.natAbs ≤ s.kept.time.servo.stepNs * 2 ^ 16 → theta.natAbs < s.kept.time.servo.lockNs * 2 ^ 16 → i = s.kept.time.integral + s.kept.time.servo.ki * theta * 2 ^ 16 → (i + s.kept.time.servo.kp * theta * 2 ^ 16).natAbs ≤ s.kept.time.servo.slewPpm * 1000000 * 2 ^ 32 → 
      ∃ t, exec (.servoMeasurement m) s = .next t ∧ became { s with time := { s.time with srcBeats := 0, lastTheta := theta, stepRun := 0, lockRun := s.time.lockRun + 1, lastMeas := s.time.mono, lastMeasDorm := s.power.dormantNs, fadjNext := some (fadjOf (-(i + s.kept.time.servo.kp * theta * 2 ^ 16)), s.beat + 1), counts := tally s.time.counts 24 }, kept.time.integral := i, next.time.integral := i } t) ∧
  -- SOURCE_TIMEOUT in LOCKED
  (∀ (s : State), alive s = true → s.time.servo = .locked → s.kept.time.servo.src ≠ 0 → s.power.mode.serves = true → s.kept.time.servo.srcTimeout ≤ s.time.srcBeats → 
      ∃ t, exec (.sourceTimeout) s = .next t ∧ became (raise 0 0x0202 (le 1 1) (raise 0 0x0201 (le 1 3 ++ le 1 2) { s with time := { s.time with servo := .holdover, cause := .sourceLost, unlockedAt := if s.time.dozed then s.time.unlockedAt else s.time.mono, dozed := false, srcBeats := 0, goodRun := 0, stepRun := 0, stepFirst := none, stepSteady := true, holdoverStk := true, fadjNext := some (fadjOf (-s.kept.time.integral), s.beat + 1), counts := tally s.time.counts 32 } })) t) ∧
  -- REBASE_LOAD of the device's own rebase at the plan commit's end of its beat
  (∀ (r : Rebase) (s : State), alive s = true → s.time.rebase = some r → r.committed = true → r.asker = none → clockRuns s = true → 
      ∃ t, exec (.rebaseLoad) s = .next t ∧ (t.time.rebase = none ∧ t.kept.time.epoch = (s.kept.time.epoch + 1) % 256 ∧ t.next.time.epoch = (s.next.time.epoch + 1) % 256 ∧ t.time.acc = (rebaseResult r.beat r.relative r.value).toNat * 2 ^ 16 % 2 ^ 96 ∧ t.time.servo = .acquiring ∧ t.time.settling = true ∧ t.time.counts = tally s.time.counts 36)) ∧
  -- REBASE_LOAD in Dormant, where the TBC stands: nothing
  (∀ (s : State), alive s = true → clockRuns s = false → 
      ∃ t, exec (.rebaseLoad) s = .next t ∧ became s t) ∧
  -- AUTO_REBASE: the step steady, the wait over
  (∀ (n : Nat) (s : State), alive s = true → serving s = true → s.time.servo = .holdover → s.time.cause = .step → s.time.stepSteady = true → s.time.afterDormant = false → s.kept.time.servo.rebaseWait ≤ n → s.kept.time.servo.noAutoRebase = false → s.time.rebase = none → fitsTbc (rebaseResult (rebaseBeat s) true (-s.time.lastTheta)) = true → 
      ∃ t, exec (.autoRebase n) s = .next t ∧ became { s with time.rebase := some { beat := rebaseBeat s, relative := true, value := -s.time.lastTheta, asker := none } } t) ∧
  -- INITIAL_REBASE
  (∀ (ns frac : Nat) (s : State), alive s = true → serving s = true → s.boot.stage = 8 → s.time.servo = .freeRun → s.time.rebase = none → frac < 2 ^ 16 → ns < 2 ^ 64 → 
      ∃ t, exec (.initialRebase ns frac) s = .next t ∧ became { s with time.rebase := some { beat := rebaseBeat s, relative := false, value := (ns * 2 ^ 16 + frac : Nat), asker := none } } t) ∧
  -- TRIGGER_FIRE of a one-shot that starts the metering converter; TRIGn_STK where a lane 0 or 1 armed it
  (∀ (k : Nat) (s : State), alive s = true → k < 16 → (s.trig k).armed = true → (s.trig k).held = false → (s.trig k).period = 0 → (s.trig k).target = 2 → (s.trig k).eventEach = false → s.power.mode ≠ .dormant → 
      ∃ t, exec (.triggerFire k) s = .next t ∧ became { advanceTo (s.trig k).nextNs s with time.triggers := Bank.modify s.time.triggers k (fun x => { x with fired := satInc 32 x.fired, armed := false }), time.counts := tally s.time.counts 48, stw.sticky := if (s.trig k).party = 42 ∨ (s.trig k).party = 43 then setBit32 s.stw.sticky (16 + k) else s.stw.sticky } t ∧ [.trigger 2 (s.trig k).arg 0] <+: t.outbox) ∧
  -- PPS_IN_EDGE on the active edge
  (∀ (f : Bool) (s : State), alive s = true → s.kept.time.pps.inEnable = true → s.kept.time.pps.inFalling = f → 
      ∃ t, exec (.ppsInEdge f) s = .next t ∧ became { s with time.ppsIn := { unlabelled := some s.stamp, spanStart := (s.ns : Int), missRun := 0, goodRun := s.time.ppsIn.goodRun + 1 } } t) ∧
  -- TOD_SENTENCE within 900 ms of its edge, SRC 3 not selected: the edge is labelled
  (∀ (utc : Nat) (e : Stamp) (s : State), alive s = true → s.kept.time.pps.todEnable = true → s.time.ppsIn.unlabelled = some e → e.epoch = s.kept.time.epoch → s.ns ≤ e.ns + 900000000 → s.kept.time.servo.src ≠ 3 → 
      ∃ t, exec (.todSentence utc) s = .next t ∧ became { s with time.ppsIn.unlabelled := none } t) ∧
  -- TOD_SENTENCE with SRC 3 selected: the labelled edge is a measurement; in HOLDOVER, below the step threshold, one more good one
  (∀ (utc : Nat) (e : Stamp) (theta : Int) (s : State), alive s = true → s.kept.time.pps.todEnable = true → s.time.ppsIn.unlabelled = some e → e.epoch = s.kept.time.epoch → s.ns ≤ e.ns + 900000000 → s.kept.time.servo.src = 3 → theta = ((e.ns * 2 ^ 16 + e.frac : Nat) : Int) - s.kept.time.pps.inDelay - ((utc : Int) + s.kept.time.pps.utcOffset) * (10 ^ 9 * 2 ^ 16) → s.power.mode.serves = true → s.time.servo = .holdover → s.time.goodRun < 7 → s.time.loadTick = none → theta.natAbs ≤ s.kept.time.servo.stepNs * 2 ^ 16 → 
      ∃ t, exec (.todSentence utc) s = .next t ∧ became { s with time := { s.time with ppsIn := { s.time.ppsIn with unlabelled := none }, srcBeats := 0, lastTheta := theta, stepRun := 0, stepSteady := steadyAfter theta s, goodRun := s.time.goodRun + 1, counts := tally s.time.counts 24 } } t) ∧
  -- PPS_MISSED_SECOND, the first in a row
  (∀ (u : State) (s : State), alive s = true → s.kept.time.pps.inEnable = true → clockRuns s = true → s.time.ppsIn.missRun = 0 → u = advanceTo (s.time.ppsIn.spanStart + 1001000000).toNat s → 
      ∃ t, exec (.ppsMissedSecond) s = .next t ∧ became (raise 0 0x0209 (le 4 (((u.ns : Int) - s.time.ppsIn.spanStart) / 1000000000).toNat) { u with time.ppsIn := { s.time.ppsIn with missRun := 1, goodRun := 0 }, time.counts := tally s.time.counts 56 }) t) ∧
  -- TB_NOW_LO_READ
  (∀ (s : State), alive s = true → windowUp s = true → 
      ∃ t, exec (.tbNowLoRead) s = .next t ∧ became { s with time.latch := { nsLo := s.ns % 2 ^ 32, nsHi := s.ns / 2 ^ 32 % 2 ^ 32, frac := s.frac, epoch := s.kept.time.epoch, beat := s.beat % 2 ^ 32, phase := s.phase } } t ∧ [.regRead (s.ns % 2 ^ 32)] <+: t.outbox) ∧
  -- PLAN_COMPLETION before the plan commit of the beat whose plans are computed
  (∀ (src : Nat) (s : State), alive s = true → s.time.computeBeat = some s.beat → s.time.planCommitBeat ≠ some s.beat → s.phase < 900000 → 
      ∃ t, exec (.planCompletion src) s = .next t ∧ became { s with time.units := Map.set s.time.units src { s.unit src with complete := true } } t) ∧
  -- PLAN_COMPLETION after the plan commit of a beat whose plans have been computed, its deadline past: the Planisher's overrun, to its end
  (∀ (src : Nat) (s : State), alive s = true → s.time.planCommitBeat = some s.beat → s.time.planCommitTick ≠ some s.time.acc → s.time.computeBeat = some s.beat → (s.beat * 1000000 + 900000) * 2 ^ 32 + s.inc ≤ s.time.acc → s.ns - (s.beat * 1000000 + 900000) ≠ 0 → ((s.unit 4).lastOverrun ≠ s.beat ∨ s.beat = 0) → 
      ∃ t, exec (.planCompletion src) s = .next t ∧ became (raise 4 0x0205 (le 8 s.beat ++ le 4 (s.ns - (s.beat * 1000000 + 900000))) { s with time.units := Map.set s.time.units 4 { s.unit 4 with overrunCnt := satInc 16 (s.unit 4).overrunCnt, lastOverrun := s.beat + 1, busyUntil := max (s.unit 4).busyUntil s.time.mono } }) t) ∧
  -- TRIGGER_PULSE_END of PPS_OUT: the pulse that ends first, at its local instant
  (∀ (k fin arg : Nat) (low : Bool) (l : List (Nat × Nat × Nat × Bool)) (s : State), alive s = true → (s.trig k).pulses = (fin, 1, arg, low) :: l → s.power.mode ≠ .dormant → 
      ∃ t, exec (.triggerPulseEnd k) s = .next t ∧ became { advanceMono fin s with time.triggers := Bank.modify s.time.triggers k (fun x => { x with pulses := l }) } t ∧ [.pinAt "PPS_OUT" 0 low (advanceMono fin s).time.mono] <+: t.outbox)

/-- The time commands complete. Each command of area 0x02, sent READY with good fields and accepted at once, is
answered, and its effect on the timebase and on the settings as accepted is exactly the one given: settings wait for
the next commit window, reads change nothing, a rebase is pending and its command stays open until the load, a channel
armed or cancelled is so at once. -/
def Obligations.TimeCommandsComplete : Prop :=
  -- TIME_GET
  (∀ (c : Cmd) (s : State), readyFor c s = true → goodTable [] c = true → 
      ∃ t, exec (.timeGet c) s = .next t ∧ ended 0x0201 c s { body := s.stamp.bytes ++ le 8 s.beat ++ le 1 s.time.servo.code ++ le 1 s.kept.time.servo.src ++ [0, 0] ++ leInt 8 s.time.lastTheta ++ leInt 4 s.time.fadj ++ leInt 4 (roundAway s.kept.time.integral (2 ^ 32)) } s t) ∧
  -- TIME_SERVO_CONFIG
  (∀ (c : Cmd) (s : State), readyFor c s = true → goodTable [fRange 16 1 0 3, fRange 17 1 0 23, fMask 18 2 3, fAny 20 2, fAny 22 2, fRange 24 2 1 500, fRange 26 2 1 65535, fRange 28 4 1000 100000000, fRange 32 2 10 65535, fRange 34 1 1 255, fZero 35 1] c = true → (c.u 16 1 = 1 ∨ c.u 17 1 = 0) → 
      ∃ t, exec (.timeServoConfig c) s = .next t ∧ ended 0x0202 c s {} { s with next.time.servo := { src := c.u 16 1, port := c.u 17 1, noAutoRebase := c.flag 18 2 0, kp := c.u 20 2, ki := c.u 22 2, slewPpm := c.u 24 2, lockNs := c.u 26 2, stepNs := c.u 28 4, srcTimeout := c.u 32 2, rebaseWait := c.u 34 1 }, time.clearIntegral := s.time.clearIntegral || c.flag 18 2 1 } t) ∧
  -- TIME_OFFSET_FEED, the Steward's source selected, in HOLDOVER with fewer than seven good measurements in a row: one more
  (∀ (c : Cmd) (s : State), readyFor c s = true → goodTable [fAny 16 8, fAny 24 2, fAny 26 8, fAny 34 1, fZero 35 1, fZero 36 4] c = true → s.kept.time.servo.src = 2 → c.u 34 1 = s.kept.time.epoch → s.ns ≤ c.u 26 8 + 2000 * 1000000 → s.power.mode.serves = true → s.time.servo = .holdover → s.time.goodRun < 7 → s.time.loadTick = none → (c.i 16 8).natAbs ≤ s.kept.time.servo.stepNs * 2 ^ 16 → 
      ∃ t, exec (.timeOffsetFeed c) s = .next t ∧ ended 0x0203 c s {} { s with time := { s.time with srcBeats := 0, lastTheta := c.i 16 8, stepRun := 0, stepSteady := steadyAfter (c.i 16 8) s, goodRun := s.time.goodRun + 1, counts := tally s.time.counts 24 } } t) ∧
  -- TIME_REBASE
  (∀ (c : Cmd) (s : State), readyFor c s = true → goodTable [fRange 16 1 0 1, fZero 17 3, fAny 20 2, fZero 22 2, fAny 24 8] c = true → s.time.rebase = none → s.kept.time.servo.src ≠ 1 → fitsTbc (rebaseResult (rebaseBeat s) (c.u 16 1 = 1) ((if c.u 16 1 = 1 then c.i 24 8 else (c.u 24 8 : Int)) * 2 ^ 16 + (c.u 20 2 : Int))) = true → 
      ∃ t, exec (.timeRebase c) s = .next t ∧ opened 0x0204 c s false { s with time.rebase := some { beat := rebaseBeat s, relative := c.u 16 1 = 1, value := (if c.u 16 1 = 1 then c.i 24 8 else (c.u 24 8 : Int)) * 2 ^ 16 + (c.u 20 2 : Int), asker := some s.stw.nextJob } } t) ∧
  -- TIME_PORT_COMP
  (∀ (c : Cmd) (s : State), readyFor c s = true → goodTable [fRange 16 1 8 35, fZero 17 3, fAny 20 4, fAny 24 4] c = true → 
      ∃ t, exec (.timePortComp c) s = .next t ∧ ended 0x0205 c s {} { s with next.time.portComp := Map.set s.next.time.portComp (c.u 16 1) (c.i 20 4, c.i 24 4) } t) ∧
  -- TIME_TSQ_READ of a queue that no stamp reached on the present tick
  (∀ (c : Cmd) (q : Tsq) (s : State), readyFor c s = true → goodTable [fRange 16 1 8 35, fRange 17 1 1 14, fMask 18 1 1, fZero 19 1] c = true → tsqHeld s (c.u 16 1) = false → q = Map.getD s.time.tsq (c.u 16 1) {} → q.tick ≠ some s.time.acc → 
      ∃ t, exec (.timeTsqRead c) s = .next t ∧ ended 0x0206 c s { body := le 1 (q.entries.take (c.u 17 1)).length ++ le 1 (bit q.ovf) ++ [0, 0] ++ le 4 q.dropCnt ++ ((q.entries.take (c.u 17 1)).map TsqEntry.bytes).flatten } { s with time.tsq := Map.set s.time.tsq (c.u 16 1) { q with entries := q.entries.drop (c.u 17 1), ovf := q.ovf && !c.flag 18 1 0, tick := some s.time.acc, fresh := 0, spilt := [], ovfBefore := q.ovf, dropBefore := q.dropCnt } } t) ∧
  -- TIME_TSQ_READ on the tick of the newest stamp: the entries as they stood before it, and the stamp stays behind them
  (∀ (c : Cmd) (q : Tsq) (s : State), readyFor c s = true → goodTable [fRange 16 1 8 35, fRange 17 1 1 14, fMask 18 1 1, fZero 19 1] c = true → tsqHeld s (c.u 16 1) = false → q = Map.getD s.time.tsq (c.u 16 1) {} → q.tick = some s.time.acc → q.spilt = [] → q.entries.length ≤ c.u 17 1 → q.fresh = 1 → 
      ∃ t, exec (.timeTsqRead c) s = .next t ∧ ended 0x0206 c s { body := le 1 (q.entries.length - 1) ++ le 1 (bit q.ovf) ++ [0, 0] ++ le 4 q.dropCnt ++ ((q.entries.take (q.entries.length - 1)).map TsqEntry.bytes).flatten } { s with time.tsq := Map.set s.time.tsq (c.u 16 1) { q with entries := q.entries.drop (q.entries.length - 1), ovf := q.ovf && !c.flag 18 1 0 } } t) ∧
  -- TIME_TRIG_ARM, one-shot
  (∀ (c : Cmd) (s : State), readyFor c s = true → goodTable [fRange 16 1 0 15, fRange 17 1 0 7, fAny 18 2, fMask 20 2 3, fZero 22 2, fAny 24 8, fRange 32 4 0 4000000000, fAny 36 4, fAny 40 4] c = true → trigArgOk (c.u 17 1) (c.u 18 2) = true → (c.u 32 4 = 0 ∨ (10000 ≤ c.u 32 4 ∧ c.u 32 4 % 2 = 0)) → ((c.u 17 1 = 1 ∨ c.u 17 1 = 7) → 20 ≤ c.u 40 4 ∧ (c.u 32 4 = 0 ∨ c.u 40 4 + 20 ≤ c.u 32 4)) → ¬ (c.u 16 1 = 15 ∧ s.next.time.pps.outEnable = true) → (s.trig (c.u 16 1)).armed = false → s.ns + 50000 ≤ c.u 24 8 → 
      ∃ t, exec (.timeTrigArm c) s = .next t ∧ ended 0x0207 c s { body := le 8 (c.u 24 8) } { s with time.triggers := Bank.modify s.time.triggers (c.u 16 1) (fun x => { armed := true, party := laneOwner c.lane, target := c.u 17 1, arg := c.u 18 2, eventEach := c.flag 20 2 0, activeLow := c.flag 20 2 1, nextNs := c.u 24 8, firstNs := c.u 24 8, period := c.u 32 4, count := c.u 36 4, width := c.u 40 4, pulses := x.pulses }) } t) ∧
  -- TIME_TRIG_CANCEL of a channel of the sender whose instant has not come
  (∀ (c : Cmd) (s : State), readyFor c s = true → goodTable [fRange 16 1 0 15, fZero 17 3] c = true → (s.trig (c.u 16 1)).armed = true → (s.trig (c.u 16 1)).party = laneOwner c.lane → ¬ (c.u 16 1 = 15 ∧ s.kept.time.pps.outEnable = true) → s.ns < (s.trig (c.u 16 1)).nextNs → 
      ∃ t, exec (.timeTrigCancel c) s = .next t ∧ ended 0x0208 c s { body := le 4 (s.trig (c.u 16 1)).fired } (raise 0 0x0208 (le 1 (c.u 16 1) ++ le 1 0) { s with time.triggers := Bank.modify s.time.triggers (c.u 16 1) (fun x => { x with armed := false, held := false }) }) t) ∧
  -- TIME_PPS_CONFIG, channel 15 free, PPS_OUT's already, or not asked for
  (∀ (c : Cmd) (s : State), readyFor c s = true → goodTable [fMask 16 1 0xF, fRange 17 1 0 2, fZero 18 2, fAny 20 4, fRange 24 4 1000 900000000, fSigned 28 4 (-500000) 500000, fAny 32 4] c = true → (c.flag 16 1 2 = false ∨ (s.trig 15).armed = false ∨ (s.trig 15).party = 45 ∨ s.next.time.pps.outEnable = true) → 
      ∃ t, exec (.timePpsConfig c) s = .next t ∧ ended 0x0209 c s {} { s with next.time.pps := { inEnable := c.flag 16 1 0, inFalling := c.flag 16 1 1, outEnable := c.flag 16 1 2, todEnable := c.flag 16 1 3, todBaud := c.u 17 1, inDelay := c.i 20 4, outWidth := c.u 24 4, outOffset := c.i 28 4, utcOffset := c.i 32 4 } } t) ∧
  -- TIME_COUNTERS, SELECT 0
  (∀ (c : Cmd) (s : State), readyFor c s = true → goodTable [fRange 16 1 0 1, fMask 17 1 1, fZero 18 2] c = true → c.u 16 1 = 0 → 
      ∃ t, exec (.timeCounters c) s = .next t ∧ ended 0x020A c s { body := le 8 0 ++ tallyBytes s.time.counts 24 10 } { s with time.counts := if c.flag 17 1 0 then [] else s.time.counts } t) ∧
  -- TIME_SAFE_CLEAR
  (∀ (c : Cmd) (s : State), readyFor c s = true → goodTable [fRange 16 1 0 47, fZero 17 3] c = true → 
      ∃ t, exec (.timeSafeClear c) s = .next t ∧ ended 0x020B c s {} (if (s.unit (c.u 16 1)).safe then { s with time.units := Map.set s.time.units (c.u 16 1) { s.unit (c.u 16 1) with clearing := true } } else s) t)

/-- What a lane's registers do. A doorbell, a completion's release, a claim, a hard claim, a release, a renewal, a
move of the ring's read index, the two reads that clear a counter, the three requests of SYS_RESET and the write of a
register change the state as given, and where a clause gives the whole state nothing else; a read of the register
window returns the register that stands at its offset, 0 where none does and where the transport does not reach it. -/
def Obligations.LaneRegistersTakeEffect : Prop :=
  -- DOORBELL of one FREE slot of a claimed lane while the Steward is restarting: BUSY, held, the lease renewed
  (∀ (n k : Nat) (ring : BitVec 16) (s : State), alive s = true → n < 2 → windowUp s = true → s.stw.state = .restarting → s.power.entry = none → bitsSet 16 ring.toNat = [k] → (s.lane n).claimed = true → (s.slot n k).phase = .free → 
      ∃ t, exec (.doorbell n ring) s = .next t ∧ became { s with stw.lanes := Bank.modify s.stw.lanes n (fun l => { l with slots := Bank.modify l.slots k (fun x => { x with phase := .held, accepted := false }), order := l.order ++ [k], leaseLeft := (s.laneCfg n).leaseBeats, wdogLeft := (s.laneCfg n).wdogBeats, wdogExpired := false }) } t) ∧
  -- MBX_DONE_WRITE of one slot in DONE
  (∀ (n k : Nat) (done : BitVec 16) (s : State), alive s = true → n < 2 → windowUp s = true → bitsSet 16 done.toNat = [k] → (s.lane n).claimed = true → (s.slot n k).phase = .done → 
      ∃ t, exec (.mbxDoneWrite n done) s = .next t ∧ became { s with stw.lanes := Bank.modify s.stw.lanes n (fun l => { l with slots := Bank.modify l.slots k (fun x => { x with phase := .free }), leaseLeft := (s.laneCfg n).leaseBeats, wdogLeft := (s.laneCfg n).wdogBeats, wdogExpired := false }) } t) ∧
  -- LANE_CLAIM of an unclaimed lane
  (∀ (n nonce : Nat) (s : State), alive s = true → n < 2 → windowUp s = true → 0 < nonce → nonce < 65536 → (s.lane n).claimed = false → 
      ∃ t, exec (.laneClaim n nonce) s = .next t ∧ became { s with stw.lanes := Bank.modify s.stw.lanes n (fun l => { l with claimed := true, nonce := nonce, wdogExpired := false, leaseLeft := (s.laneCfg n).leaseBeats, wdogLeft := (s.laneCfg n).wdogBeats, seqIn := 0, seqOut := 0 }) } t) ∧
  -- HARD_CLAIM of a claimed lane whose watchdog has not expired: counted
  (∀ (n nonce : Nat) (s : State), alive s = true → n < 2 → windowUp s = true → 0 < nonce → nonce < 65536 → (s.lane n).claimed = true → (s.lane n).wdogExpired = false → 
      ∃ t, exec (.hardClaim n nonce) s = .next t ∧ became { s with stw.lanes := Bank.modify s.stw.lanes n (fun l => { l with hardClaimCnt := satInc 16 l.hardClaimCnt }) } t) ∧
  -- HARD_CLAIM of an unclaimed lane: claimed
  (∀ (n nonce : Nat) (s : State), alive s = true → n < 2 → windowUp s = true → 0 < nonce → nonce < 65536 → (s.lane n).claimed = false → 
      ∃ t, exec (.hardClaim n nonce) s = .next t ∧ became { s with stw.lanes := Bank.modify s.stw.lanes n (fun l => { l with claimed := true, nonce := nonce, wdogExpired := false, leaseLeft := (s.laneCfg n).leaseBeats, wdogLeft := (s.laneCfg n).wdogBeats, seqIn := 0, seqOut := 0 }) } t) ∧
  -- LANE_RELEASE_WRITE by the holder of a lane without open commands and waiting doorbells: that lane alone is as new, and SYS_LANE_RELEASED is raised
  (∀ (n nonce : Nat) (s : State), alive s = true → n < 2 → windowUp s = true → nonce < 65536 → (s.lane n).claimed = true → (s.lane n).nonce = nonce → s.stw.jobs.filter (fun j => j.lane = n) = [] → (s.lane n).order = [] → 
      ∃ t, exec (.laneReleaseWrite n nonce) s = .next t ∧ (t.stw.lanes = Bank.modify s.stw.lanes n (fun l => { l with claimed := false, nonce := 0, wdogExpired := false, leaseLeft := 0, wdogLeft := 0, slots := l.slots.map (fun x => { x with phase := .free, accepted := false }), order := [], wrIdx := 0, rdIdx := 0, phase := true, entrySeq := 0, lostMark := false, ring := [], writtenAt := [], bulk := [] }) ∧ ∃ e ∈ t.stw.events, e.source = 45 ∧ e.code = 0x0102 ∧ e.data = le 1 n ++ le 1 0)) ∧
  -- LEASE_RENEW
  (∀ (n : Nat) (s : State), alive s = true → n < 2 → windowUp s = true → (s.lane n).claimed = true → 
      ∃ t, exec (.leaseRenew n) s = .next t ∧ became { s with stw.lanes := Bank.modify s.stw.lanes n (fun l => { l with leaseLeft := (s.laneCfg n).leaseBeats, wdogLeft := (s.laneCfg n).wdogBeats, wdogExpired := false }) } t) ∧
  -- EVR_RD_WRITE within what is unread
  (∀ (n i : Nat) (s : State), alive s = true → n < 2 → windowUp s = true → (s.lane n).claimed = true → (i % 1024 + 1024 - (s.lane n).rdIdx) % 1024 ≤ ((s.lane n).wrIdx + 1024 - (s.lane n).rdIdx) % 1024 → 
      ∃ t, exec (.evrRdWrite n i) s = .next t ∧ became { s with stw.lanes := Bank.modify s.stw.lanes n (fun l => { l with rdIdx := i % 1024, leaseLeft := (s.laneCfg n).leaseBeats, wdogLeft := (s.laneCfg n).wdogBeats, wdogExpired := false }) } t) ∧
  -- MBX_ERR_READ
  (∀ (n : Nat) (s : State), alive s = true → n < 4 → windowUp s = true → 
      ∃ t, exec (.mbxErrRead n) s = .next t ∧ became { s with stw.lanes := Bank.modify s.stw.lanes n (fun l => { l with dbErrCnt := 0, hardClaimCnt := 0 }) } t ∧ [.regRead ((s.lane n).dbErrCnt + (s.lane n).hardClaimCnt * 65536)] <+: t.outbox) ∧
  -- EVR_LOST_READ
  (∀ (n : Nat) (s : State), alive s = true → n < 4 → windowUp s = true → 
      ∃ t, exec (.evrLostRead n) s = .next t ∧ became { s with stw.lanes := Bank.modify s.stw.lanes n (fun l => { l with evrLostCnt := 0 }) } t ∧ [.regRead (s.lane n).evrLostCnt] <+: t.outbox) ∧
  -- SYS_RESET_WARM with no change to save
  (∀ (s : State), alive s = true → windowUp s = true → s.stw.warmReq = none → s.stw.changePending = false → 
      ∃ t, exec (.sysResetWarm) s = .next t ∧ became { s with stw.warmReq := some { intoRecovery := false, due := some s.beat, cause := 3 } } t) ∧
  -- SYS_RESET_RECOVERY with no change to save
  (∀ (s : State), alive s = true → windowUp s = true → s.stw.warmReq = none → s.stw.changePending = false → 
      ∃ t, exec (.sysResetRecovery) s = .next t ∧ became { s with stw.warmReq := some { intoRecovery := true, due := some s.beat, cause := 3 } } t) ∧
  -- SYS_RESET_RESTART
  (∀ (s : State), alive s = true → windowUp s = true → s.stw.restartReq = none → 
      ∃ t, exec (.sysResetRestart) s = .next t ∧ became { s with stw.restartReq := some (1, s.beat) } t) ∧
  -- REGISTER_WRITE of SYS_SCRATCH, by any transport
  (∀ (via : Nat) (value : BitVec 32) (s : State), alive s = true → windowUp s = true → 
      ∃ t, exec (.registerWrite via 0x018 value) s = .next t ∧ became { s with stw.scratch := value.toNat } t) ∧
  -- REGISTER_WRITE of INT_STATUS by PCIe or SPI: W1C of the sticky bits that software clears
  (∀ (via : Nat) (value : BitVec 32) (s : State), alive s = true → windowUp s = true → via < 2 → 
      ∃ t, exec (.registerWrite via 0x300 value) s = .next t ∧ became { s with stw.sticky := s.stw.sticky &&& ~~~(value &&& 0xFFFF06B0) } t) ∧
  -- REGISTER_WRITE by the sideband outside the SYS_, TB_ and PWR_ blocks: nothing
  (∀ (off : Nat) (value : BitVec 32) (s : State), alive s = true → windowUp s = true → 0x100 ≤ off → off < 0x400 → 
      ∃ t, exec (.registerWrite 2 off value) s = .next t ∧ became s t) ∧
  -- a read of an offset that no register stands at returns 0
  (∀ (via off : Nat) (s : State), readableOffsets.contains off = false → 
      windowRead via off s = 0) ∧
  -- a read by the sideband outside the SYS_, TB_ and PWR_ blocks returns 0
  (∀ (off : Nat) (s : State), 0x100 ≤ off → off < 0x400 → 
      windowRead 2 off s = 0) ∧
  -- reads of a lane's registers by PCIe or SPI
  (∀ (via n : Nat) (s : State), windowUp s = true → via < 2 → n < 4 → 
      windowRead via (0x104 + 0x40 * n) s = (s.lane n).busy ∧ windowRead via (0x108 + 0x40 * n) s = (s.lane n).doneMask ∧ windowRead via (0x10C + 0x40 * n) s = mbxClaim (s.lane n) ∧ windowRead via (0x110 + 0x40 * n) s = (s.lane n).leaseLeft ∧ windowRead via (0x114 + 0x40 * n) s = fieldsWord [(0, (s.laneCfg n).leaseBeats), (16, (s.laneCfg n).wdogBeats)] ∧ windowRead via (0x118 + 0x40 * n) s = (s.lane n).dbErrCnt + (s.lane n).hardClaimCnt * 65536 ∧ windowRead via (0x200 + 0x20 * n) s = fieldsWord [(0, (s.lane n).wrIdx), (10, bit (s.lane n).phase)] ∧ windowRead via (0x204 + 0x20 * n) s = (s.lane n).rdIdx ∧ windowRead via (0x208 + 0x20 * n) s = (s.laneCfg n).areaEn ∧ windowRead via (0x20C + 0x20 * n) s = fieldsWord [(0, (s.laneCfg n).thresh), (16, (s.laneCfg n).age)] ∧ windowRead via (0x210 + 0x20 * n) s = (s.lane n).evrLostCnt) ∧
  -- reads of the SYS_, TB_ and PWR_ blocks by any transport
  (∀ (via : Nat) (s : State), windowUp s = true → 
      windowRead via 0x000 s = sysId ∧ windowRead via 0x008 s = sysState s ∧ windowRead via 0x014 s = s.stw.heartbeat ∧ windowRead via 0x018 s = s.stw.scratch ∧ windowRead via 0x404 s = s.time.latch.nsHi ∧ windowRead via 0x40C s = s.time.latch.beat ∧ windowRead via 0x414 s = tbStatus s ∧ windowRead via 0x500 s = fieldsWord [(0, s.power.mode.code), (4, s.power.op), (7, bit s.power.fullAllowed), (8, bit (inTransition s))] ∧ windowRead via 0x508 s = fieldsWord [(0, s.power.resultTag), (8, s.power.resultStatus), (16, s.power.resultSource), (24, s.power.resultCause)] ∧ windowRead via 0x50C s = s.power.wakeStk.toNat)

/-- What frames on lanes 2 and 3 do. A frame that is accepted renews its lane's lease and has the effect of its kind;
a lane 2 frame that fails its conditions is only counted. -/
def Obligations.InBandFramesTakeEffect : Prop :=
  -- INBAND_RENEWAL on lane 3, open and claimed
  (∀ (f : InbandFrame) (s : State), alive s = true → f.lane = 3 → f.tagOk = true → s.kept.stw.lane3Open = true → (s.lane 3).claimed = true → 
      ∃ t, exec (.inbandRenewal f) s = .next t ∧ became { s with stw.lanes := Bank.modify s.stw.lanes 3 (fun l => { l with leaseLeft := (s.laneCfg 3).leaseBeats, wdogLeft := (s.laneCfg 3).wdogBeats, wdogExpired := false }) } t) ∧
  -- INBAND_RENEWAL on lane 2 whose conditions fail: counted
  (∀ (f : InbandFrame) (s : State), alive s = true → f.lane = 2 → f.tagOk = false → 
      ∃ t, exec (.inbandRenewal f) s = .next t ∧ became { s with stw.inbandAuthFailCnt := satInc 32 s.stw.inbandAuthFailCnt } t) ∧
  -- INBAND_DONE on lane 3: the slot is FREE
  (∀ (f : InbandFrame) (s : State), alive s = true → f.lane = 3 → f.slot < 16 → f.tagOk = true → s.kept.stw.lane3Open = true → (s.lane 3).claimed = true → (s.slot 3 f.slot).phase = .done → 
      ∃ t, exec (.inbandDone f) s = .next t ∧ became { s with stw.lanes := Bank.modify s.stw.lanes 3 (fun l => { l with leaseLeft := (s.laneCfg 3).leaseBeats, wdogLeft := (s.laneCfg 3).wdogBeats, wdogExpired := false, slots := Bank.modify l.slots f.slot (fun x => { x with phase := .free }) }) } t) ∧
  -- INBAND_CLAIM on lane 2 with a sequence number ahead of the last: judged and answered
  (∀ (f : InbandFrame) (nonce : Nat) (s : State), alive s = true → f.lane = 2 → f.tagOk = true → f.toMgmtMac = true → f.vlan = some s.kept.stw.mgmtVlan → s.kept.boot.lane2Key.isSome = true → f.body = le 2 nonce ++ [0] → 0 < nonce → nonce < 65536 → (s.lane 2).claimed = false → s.kept.stw.claimSeq < f.seq → f.seq < 2 ^ 31 → 
      ∃ t, exec (.inbandClaim f) s = .next t ∧ became { s with kept.stw.claimSeq := f.seq, next.stw.claimSeq := f.seq, stw.lanes := Bank.modify s.stw.lanes 2 (fun l => { l with claimed := true, nonce := nonce, wdogExpired := false, leaseLeft := (s.laneCfg 2).leaseBeats, wdogLeft := (s.laneCfg 2).wdogBeats, seqIn := 0, seqOut := 0 }) } t ∧ [.inband 2 6 f.slot f.seq (le 4 (nonce + 2 ^ 17) ++ le 4 f.seq)] <+: t.outbox) ∧
  -- INBAND_BULK_WRITE on lane 3 of one byte
  (∀ (f : InbandFrame) (b : Byte) (s : State), alive s = true → f.lane = 3 → f.tagOk = true → s.kept.stw.lane3Open = true → (s.lane 3).claimed = true → f.body = [4, 0, 0, 0, b] → 
      ∃ t, exec (.inbandBulkWrite f) s = .next t ∧ became { s with stw.lanes := Bank.modify s.stw.lanes 3 (fun l => { l with leaseLeft := (s.laneCfg 3).leaseBeats, wdogLeft := (s.laneCfg 3).wdogBeats, wdogExpired := false, bulk := Memory.write l.bulk 4 b }) } t) ∧
  -- INBAND_BULK_READ on lane 3: the bytes of the window that have been written, free bytes elsewhere
  (∀ (f : InbandFrame) (off len : Nat) (s : State), alive s = true → f.lane = 3 → f.tagOk = true → s.kept.stw.lane3Open = true → (s.lane 3).claimed = true → f.body = le 4 off ++ le 4 len → off + len ≤ 65536 → 
      ∃ t, exec (.inbandBulkRead f) s = .next t ∧ (t.stw.lanes.getD 3 {}).bulk = (s.lane 3).bulk ∧ Output.inband 3 9 f.slot ((s.lane 3).seqOut + 1) ((List.range len).map (fun i => (Map.get? (s.lane 3).bulk (off + i)).getD (Config.freeByte (s.draws + (off + i))))) ∈ t.outbox) ∧
  -- INBAND_RELEASE on lane 3 of a lane without open commands and waiting doorbells
  (∀ (f : InbandFrame) (s : State), alive s = true → f.lane = 3 → f.tagOk = true → s.kept.stw.lane3Open = true → (s.lane 3).claimed = true → s.stw.jobs.filter (fun j => j.lane = 3) = [] → (s.lane 3).order = [] → 
      ∃ t, exec (.inbandRelease f) s = .next t ∧ ((t.lane 3).claimed = false ∧ (t.lane 3).order = [] ∧ (t.lane 3).ring = [] ∧ (t.lane 3).bulk = [] ∧ (∀ k, ((t.lane 3).slots.getD k {}).phase = .free) ∧ (∀ n, n ≠ 3 → t.lane n = s.lane n) ∧ ∃ e ∈ t.stw.events, e.source = 45 ∧ e.code = 0x0102 ∧ e.data = le 1 3 ++ le 1 0)) ∧
  -- INBAND_RELEASE on lane 3 with one doorbell that waits: its command is answered ABANDONED with DETAIL LANE_RELEASED
  (∀ (f : InbandFrame) (k : Nat) (s : State), alive s = true → f.lane = 3 → f.tagOk = true → s.kept.stw.lane3Open = true → (s.lane 3).claimed = true → s.stw.jobs = [] → (s.lane 3).order = [k] → 
      ∃ t, exec (.inbandRelease f) s = .next t ∧ (t.lane 3).claimed = false ∧ (t.lane 3).abandonCnt = satInc 32 (s.lane 3).abandonCnt ∧ Output.inband 3 2 k ((s.lane 3).seqOut + 1) (responseBytes (rungJob 3 k s) { status := 8, detail := 3 }) ∈ t.outbox) ∧
  -- INBAND_COMMAND on lane 3 while the Steward is restarting: the slot holds the command and is BUSY
  (∀ (f : InbandFrame) (s : State), alive s = true → f.lane = 3 → f.slot < 16 → f.tagOk = true → windowUp s = true → s.kept.stw.lane3Open = true → s.stw.state = .restarting → s.power.entry = none → (s.lane 3).claimed = true → (s.slot 3 f.slot).phase = .free → 
      ∃ t, exec (.inbandCommand f) s = .next t ∧ ((t.slot 3 f.slot).phase = .held ∧ (t.slot 3 f.slot).cmd = inbandCmd f ∧ (t.lane 3).order = (s.lane 3).order ++ [f.slot] ∧ t.stw.jobs = s.stw.jobs))

/-- What leases, watchdogs, event batches and the heartbeat do. A lease and a watchdog that have run out act on their
own lane; a batch takes the due events; the heartbeat advances every 100 beats and restarts the chip watchdog. -/
def Obligations.LaneTimersAndEventBatches : Prop :=
  -- LEASE_EXPIRY of a lane without open commands and waiting doorbells: released with cause 1
  (∀ (n : Nat) (s : State), alive s = true → n < 4 → (s.lane n).claimed = true → (s.lane n).leaseLeft = 0 → s.stw.jobs.filter (fun j => j.lane = n) = [] → (s.lane n).order = [] → 
      ∃ t, exec (.leaseExpiry n) s = .next t ∧ (t.stw.lanes = Bank.modify s.stw.lanes n (fun l => { l with claimed := false, nonce := 0, wdogExpired := false, leaseLeft := 0, wdogLeft := 0, slots := l.slots.map (fun x => { x with phase := .free, accepted := false }), order := [], wrIdx := 0, rdIdx := 0, phase := true, entrySeq := 0, lostMark := false, ring := [], writtenAt := [], bulk := [], leaseExpireCnt := satInc 32 l.leaseExpireCnt }) ∧ ∃ e ∈ t.stw.events, e.source = 45 ∧ e.code = 0x0102 ∧ e.data = le 1 n ++ le 1 1)) ∧
  -- LANE_WDOG_EXPIRY
  (∀ (n : Nat) (s : State), alive s = true → n < 4 → (s.lane n).claimed = true → (s.lane n).wdogLeft = 0 → 
      ∃ t, exec (.laneWdogExpiry n) s = .next t ∧ became { s with stw.lanes := Bank.modify s.stw.lanes n (fun l => { l with wdogExpired := true }) } t) ∧
  -- EVENT_BATCH_WRITE of one event of an earlier beat, lane 0 alone claimed, its ring not full and its area enabled
  (∀ (e : Event) (s : State), alive s = true → s.stw.events = [e] → e.stamp.epoch = s.kept.time.epoch → s.stw.batchBeat ≤ e.stamp.ns / 1000000 → e.stamp.ns / 1000000 < s.beat → hasBit (s.laneCfg 0).areaEn (e.code / 256) = true → e.skip ≠ 0 → (s.lane 0).claimed = true → (s.lane 1).claimed = false → (s.lane 2).claimed = false → (s.lane 3).claimed = false → (s.lane 2).wrIdx = (s.lane 2).rdIdx → (s.lane 3).wrIdx = (s.lane 3).rdIdx → (s.lane 2).wrIdx < 1024 → (s.lane 3).wrIdx < 1024 → (s.lane 0).unread < 1023 → 
      ∃ t, exec (.eventBatchWrite) s = .next t ∧ became { s with stw.events := [], stw.batchBeat := s.beat, stw.lanes := Bank.modify s.stw.lanes 0 (fun l => { l with ring := Map.set l.ring l.wrIdx { code := e.code, source := e.source, phase := l.phase, lost := l.lostMark, outOfOrder := false, stamp := e.stamp, seq := l.entrySeq, data := e.data }, writtenAt := Map.set l.writtenAt l.wrIdx s.beat, wrIdx := (l.wrIdx + 1) % 1024, phase := if (l.wrIdx + 1) % 1024 = 0 then !l.phase else l.phase, entrySeq := (l.entrySeq + 1) % 65536, lostMark := false }) } t) ∧
  -- HEARTBEAT
  (∀ (s : State), alive s = true → (s.stw.state = .ready ∨ s.stw.state = .recovery) → 100 ≤ s.stw.heartBeats → 
      ∃ t, exec (.heartbeat) s = .next t ∧ became { s with stw.heartbeat := (s.stw.heartbeat + 1) % 2 ^ 32, stw.heartBeats := s.stw.heartBeats - 100, assay.chipWdog := 0 } t)

/-- The system commands complete. Each command of area 0x01, sent READY with good fields and accepted at once, is
answered with the bytes its table gives, or stays open where it waits for a flash copy, a unit's resumption or an
entry's end; its effect is exactly the one given, in every form that R108 to R110 and R129 to R131 give it. -/
def Obligations.SystemCommandsComplete : Prop :=
  -- SYS_GET_INFO
  (∀ (c : Cmd) (s : State), readyFor c s = true → goodTable [] c = true → 
      ∃ t, exec (.sysGetInfo c) s = .next t ∧ ended 0x0101 c s { body := le 4 0x54019224 ++ le 1 0x42 ++ le 1 3 ++ le 1 s.power.mode.code ++ le 1 (fieldsWord [(0, s.stw.imageSlot), (1, bit s.stw.trialBoot), (2, s.stw.restoreSrc)]) ++ le 4 s.stw.fwVersion ++ le 8 Config.serial ++ le 3 s.kept.stw.nodeId ++ [0] ++ le 4 s.stw.restartCnt ++ le 8 s.stw.uptime } s t) ∧
  -- SYS_NOP: the 16 bytes come back
  (∀ (c : Cmd) (s : State), readyFor c s = true → goodTable [fAny 16 16] c = true → 
      ∃ t, exec (.sysNop c) s = .next t ∧ ended 0x0102 c s { body := c.bytesAt 16 16 } s t) ∧
  -- SYS_CANCEL of its own slot or of a FREE one: BAD_ARG
  (∀ (c : Cmd) (s : State), readyFor c s = true → goodTable [fRange 16 1 0 15, fZero 17 3] c = true → (c.u 16 1 = c.slot ∨ (s.slot c.lane (c.u 16 1)).phase = .free) → 
      ∃ t, exec (.sysCancel c) s = .next t ∧ ended 0x0103 c s { status := 3, detail := 16 } s t) ∧
  -- SYS_CANCEL of a slot that is DONE: TOO_LATE, nothing else
  (∀ (c : Cmd) (s : State), readyFor c s = true → goodTable [fRange 16 1 0 15, fZero 17 3] c = true → c.u 16 1 ≠ c.slot → (s.slot c.lane (c.u 16 1)).phase = .done → 
      ∃ t, exec (.sysCancel c) s = .next t ∧ ended 0x0103 c s { status := 5 } s t) ∧
  -- SYS_CANCEL of an open command that has passed its point of commitment: that command goes on, and the cancel waits for its response
  (∀ (c : Cmd) (j : Job) (s : State), readyFor c s = true → goodTable [fRange 16 1 0 15, fZero 17 3] c = true → c.u 16 1 ≠ c.slot → (s.slot c.lane (c.u 16 1)).phase = .held → s.stw.jobs.find? (fun j => j.lane = c.lane ∧ j.slot = c.u 16 1) = some j → undecided s j = false → 
      ∃ t, exec (.sysCancel c) s = .next t ∧ opened 0x0103 c s true s t) ∧
  -- SYS_CANCEL of an open command before its point of commitment: what it has pending is undone, it is answered ABANDONED with DETAIL CANCELLED, the cancel OK
  (∀ (c : Cmd) (j : Job) (s : State), readyFor c s = true → goodTable [fRange 16 1 0 15, fZero 17 3] c = true → c.u 16 1 ≠ c.slot → (s.slot c.lane (c.u 16 1)).phase = .held → s.stw.jobs.find? (fun j => j.lane = c.lane ∧ j.slot = c.u 16 1) = some j → undecided s j = true → s.power.entry.all (fun e => decide (e.asker ≠ j.asker)) = true → 
      ∃ t, exec (.sysCancel c) s = .next t ∧ ended 0x0103 c s {} (abandonJob j.id 1 (undoPending j s)) t) ∧
  -- SYS_CANCEL of the command whose entry to Doze or Dormant runs: the entry is undone, both answers follow its end
  (∀ (c : Cmd) (j : Job) (e : Entry) (s : State), readyFor c s = true → goodTable [fRange 16 1 0 15, fZero 17 3] c = true → c.u 16 1 ≠ c.slot → (s.slot c.lane (c.u 16 1)).phase = .held → s.stw.jobs.find? (fun j => j.lane = c.lane ∧ j.slot = c.u 16 1) = some j → undecided s j = true → s.power.entry = some e → e.asker = j.asker → 
      ∃ t, exec (.sysCancel c) s = .next t ∧ opened 0x0103 c s true { undoPending j s with power.entry := some { e with asker := j.asker, wake := if e.undo = none ∧ e.wake = none then some (0, e.left, s.stamp) else e.wake, cancelled := e.cancelled || decide (e.undo = none), cancelJob := some s.stw.nextJob } } t) ∧
  -- SYS_RESET_CMD of KIND 0 or 1 with no change to save: the warm reset is due 10 beats on
  (∀ (c : Cmd) (s : State), readyFor c s = true → goodTable [fRange 16 1 0 3, fAny 17 1, fZero 18 2] c = true → c.u 16 1 ≤ 1 → c.u 17 1 = 0 → s.stw.warmReq = none → s.stw.changePending = false → 
      ∃ t, exec (.sysResetCmd c) s = .next t ∧ ended 0x0104 c s {} { s with stw.warmReq := some { intoRecovery := decide (c.u 16 1 = 1), due := some (s.beat + 10), delay := 10, cause := 3 } } t) ∧
  -- SYS_RESET_CMD of KIND 0 or 1 with a change to save: a flash copy first, its command open
  (∀ (c : Cmd) (s : State), readyFor c s = true → goodTable [fRange 16 1 0 3, fAny 17 1, fZero 18 2] c = true → c.u 16 1 ≤ 1 → c.u 17 1 = 0 → s.stw.warmReq = none → s.stw.changePending = true → 
      ∃ t, exec (.sysResetCmd c) s = .next t ∧ opened 0x0104 c s true { s with stw.saveNow := true, stw.warmReq := some { intoRecovery := decide (c.u 16 1 = 1), waitCopy := true, delay := 10, cause := 3 } } t) ∧
  -- SYS_RESET_CMD of KIND 0 or 1 while a warm reset is requested that waits for no copy: it joins that request (the model's choice, log entry 81)
  (∀ (c : Cmd) (w : WarmPlan) (s : State), readyFor c s = true → goodTable [fRange 16 1 0 3, fAny 17 1, fZero 18 2] c = true → c.u 16 1 ≤ 1 → c.u 17 1 = 0 → s.stw.warmReq = some w → w.waitCopy = false → 
      ∃ t, exec (.sysResetCmd c) s = .next t ∧ ended 0x0104 c s {} { s with stw.warmReq := some { w with intoRecovery := w.intoRecovery || decide (c.u 16 1 = 1), delay := max w.delay 10 } } t) ∧
  -- SYS_RESET_CMD of KIND 0 or 1 while a warm reset is requested that waits for its copy: open until the copy ends (log entry 81)
  (∀ (c : Cmd) (w : WarmPlan) (s : State), readyFor c s = true → goodTable [fRange 16 1 0 3, fAny 17 1, fZero 18 2] c = true → c.u 16 1 ≤ 1 → c.u 17 1 = 0 → s.stw.warmReq = some w → w.waitCopy = true → 
      ∃ t, exec (.sysResetCmd c) s = .next t ∧ opened 0x0104 c s true { s with stw.warmReq := some { w with intoRecovery := w.intoRecovery || decide (c.u 16 1 = 1), delay := max w.delay 10 } } t) ∧
  -- SYS_RESET_CMD of KIND 2: the restart begins 1 beat after the answer
  (∀ (c : Cmd) (s : State), readyFor c s = true → goodTable [fRange 16 1 0 3, fAny 17 1, fZero 18 2] c = true → c.u 16 1 = 2 → c.u 17 1 = 0 → 
      ∃ t, exec (.sysResetCmd c) s = .next t ∧ ended 0x0104 c s {} { s with stw.restartReq := some (s.stw.restartReq.getD (1, s.beat + 1)) } t) ∧
  -- SYS_RESET_CMD of KIND 3 of a unit that may be reset so: the reset begins, and the command stays open until the unit resumes
  (∀ (c : Cmd) (s : State), readyFor c s = true → goodTable [fRange 16 1 0 3, fAny 17 1, fZero 18 2] c = true → c.u 16 1 = 3 → (3 ≤ c.u 17 1 ∧ c.u 17 1 ≤ 6 ∨ 8 ≤ c.u 17 1 ∧ c.u 17 1 ≤ 39 ∨ 41 ≤ c.u 17 1 ∧ c.u 17 1 ≤ 44) → ¬ (c.lane < 2 ∧ c.u 17 1 = laneOwner c.lane) → s.assay.disabled.contains (c.u 17 1) = false → Map.has s.assay.resets (c.u 17 1) = false → s.stw.jobs.all (fun j => !(decide (j.lane = c.lane) && decide (j.slot = c.slot))) = true → 
      ∃ t, exec (.sysResetCmd c) s = .next t ∧ elsewhere c { startReset (c.u 17 1) 0 s with stw.jobs := t.stw.jobs } t ∧ (t.slot c.lane c.slot).phase = .held ∧ t.stw.jobs.map (fun j => (j.id, j.opcode, j.lane, j.slot, j.committed)) = (startReset (c.u 17 1) 0 s).stw.jobs.map (fun j => (j.id, j.opcode, j.lane, j.slot, j.committed)) ++ [(s.stw.nextJob, 0x0104, c.lane, c.slot, true)]) ∧
  -- SYS_RESET_CMD of KIND 3 of a unit whose reset is under way: it too is answered when the unit resumes
  (∀ (c : Cmd) (s : State), readyFor c s = true → goodTable [fRange 16 1 0 3, fAny 17 1, fZero 18 2] c = true → c.u 16 1 = 3 → (3 ≤ c.u 17 1 ∧ c.u 17 1 ≤ 6 ∨ 8 ≤ c.u 17 1 ∧ c.u 17 1 ≤ 39 ∨ 41 ≤ c.u 17 1 ∧ c.u 17 1 ≤ 44) → ¬ (c.lane < 2 ∧ c.u 17 1 = laneOwner c.lane) → s.assay.disabled.contains (c.u 17 1) = false → Map.has s.assay.resets (c.u 17 1) = true → 
      ∃ t, exec (.sysResetCmd c) s = .next t ∧ opened 0x0104 c s true s t) ∧
  -- SYS_RESET_CMD of KIND 3 of a unit that may not be reset so: DENIED, or BAD_ARG where no such reset exists
  (∀ (c : Cmd) (s : State), readyFor c s = true → goodTable [fRange 16 1 0 3, fAny 17 1, fZero 18 2] c = true → c.u 16 1 = 3 → (c.u 17 1 ≤ 2 ∨ c.u 17 1 = 40 ∨ c.lane < 2 ∧ c.u 17 1 = laneOwner c.lane ∨ c.u 17 1 = 7 ∨ 45 ≤ c.u 17 1) → 
      ∃ t, exec (.sysResetCmd c) s = .next t ∧ ended 0x0104 c s (if c.u 17 1 = 7 ∨ 45 ≤ c.u 17 1 then { status := 3, detail := 17 } else { status := 6, detail := 0xFF }) s t) ∧
  -- SYS_RESET_CMD of KIND 3 of a unit that is disabled: DENIED
  (∀ (c : Cmd) (s : State), readyFor c s = true → goodTable [fRange 16 1 0 3, fAny 17 1, fZero 18 2] c = true → c.u 16 1 = 3 → (3 ≤ c.u 17 1 ∧ c.u 17 1 ≤ 6 ∨ 8 ≤ c.u 17 1 ∧ c.u 17 1 ≤ 39 ∨ 41 ≤ c.u 17 1 ∧ c.u 17 1 ≤ 44) → ¬ (c.lane < 2 ∧ c.u 17 1 = laneOwner c.lane) → s.assay.disabled.contains (c.u 17 1) = true → 
      ∃ t, exec (.sysResetCmd c) s = .next t ∧ ended 0x0104 c s { status := 6, detail := 0xFF } s t) ∧
  -- SYS_RESET_CMD of KIND 0, 1 or 2 that names a source: BAD_ARG
  (∀ (c : Cmd) (s : State), readyFor c s = true → goodTable [fRange 16 1 0 3, fAny 17 1, fZero 18 2] c = true → c.u 16 1 ≤ 2 → c.u 17 1 ≠ 0 → 
      ∃ t, exec (.sysResetCmd c) s = .next t ∧ ended 0x0104 c s { status := 3, detail := 17 } s t) ∧
  -- SYS_INGOT_SAVE with nothing to save: the present copy's values; with no copy in existence zeros (the model's choice, log entry 80)
  (∀ (c : Cmd) (s : State), readyFor c s = true → goodTable [] c = true → s.stw.changePending = false → 
      ∃ t, exec (.sysIngotSave c) s = .next t ∧ ended 0x0105 c s (match newestCopy s.boot.flash with | some (region, x) => { body := le 4 x.seq ++ le 1 region ++ [0, 0, 0] } | none => { body := le 4 0 ++ le 1 0 ++ [0, 0, 0] }) s t) ∧
  -- SYS_INGOT_SAVE with a change to save: open until the copy ends
  (∀ (c : Cmd) (s : State), readyFor c s = true → goodTable [] c = true → s.stw.changePending = true → 
      ∃ t, exec (.sysIngotSave c) s = .next t ∧ opened 0x0105 c s true { s with stw.saveNow := true } t) ∧
  -- SYS_LANE_CONFIG of the sender's own lane, or of lane 2 or 3 by lane 0 or 1; a lease or watchdog of 0 stays as it is
  (∀ (c : Cmd) (old : LaneConfig) (lease wdog : Nat) (s : State), readyFor c s = true → goodTable [fRange 16 1 0 3, fMask 17 1 3, fAny 18 2, fAny 20 2, fMask 22 2 0x1FFE, fRange 24 2 1 1023, fAny 26 1, fZero 27 1, fAny 28 2, fZero 30 2] c = true → (c.u 16 1 = c.lane ∨ c.lane < 2 ∧ 2 ≤ c.u 16 1) → old = s.next.stw.lanes.getD (c.u 16 1) {} → lease = (if c.u 18 2 = 0 then old.leaseBeats else c.u 18 2) → wdog = (if c.u 20 2 = 0 then old.wdogBeats else c.u 20 2) → 100 ≤ lease → 20 ≤ wdog → wdog < lease → (c.flag 17 1 1 = true → 1 ≤ c.u 28 2 ∧ c.u 28 2 ≤ 4094) → 
      ∃ t, exec (.sysLaneConfig c) s = .next t ∧ ended 0x0106 c s {} { s with next.stw.lanes := s.next.stw.lanes.setIfInBounds (c.u 16 1) { leaseBeats := lease, wdogBeats := wdog, areaEn := c.u 22 2, thresh := c.u 24 2, age := c.u 26 1 }, next.stw.lane3Open := s.next.stw.lane3Open || c.flag 17 1 0, next.stw.mgmtVlan := if c.flag 17 1 1 then c.u 28 2 else s.next.stw.mgmtVlan } t) ∧
  -- SYS_LANE_CONFIG of such a lane with a lease, a watchdog or a VLAN outside its range: BAD_ARG with the field's offset
  (∀ (c : Cmd) (old : LaneConfig) (lease wdog : Nat) (s : State), readyFor c s = true → goodTable [fRange 16 1 0 3, fMask 17 1 3, fAny 18 2, fAny 20 2, fMask 22 2 0x1FFE, fRange 24 2 1 1023, fAny 26 1, fZero 27 1, fAny 28 2, fZero 30 2] c = true → (c.u 16 1 = c.lane ∨ c.lane < 2 ∧ 2 ≤ c.u 16 1) → old = s.next.stw.lanes.getD (c.u 16 1) {} → lease = (if c.u 18 2 = 0 then old.leaseBeats else c.u 18 2) → wdog = (if c.u 20 2 = 0 then old.wdogBeats else c.u 20 2) → (lease < 100 ∨ wdog < 20 ∨ lease ≤ wdog ∨ c.flag 17 1 1 = true ∧ ¬ (1 ≤ c.u 28 2 ∧ c.u 28 2 ≤ 4094)) → 
      ∃ t, exec (.sysLaneConfig c) s = .next t ∧ ended 0x0106 c s { status := 3, detail := if lease < 100 then 18 else if wdog < 20 ∨ lease ≤ wdog then (if c.u 20 2 = 0 then 18 else 20) else 28 } s t) ∧
  -- SYS_LANE_CONFIG of any other lane: DENIED
  (∀ (c : Cmd) (s : State), readyFor c s = true → goodTable [fRange 16 1 0 3, fMask 17 1 3, fAny 18 2, fAny 20 2, fMask 22 2 0x1FFE, fRange 24 2 1 1023, fAny 26 1, fZero 27 1, fAny 28 2, fZero 30 2] c = true → c.u 16 1 ≠ c.lane → (2 ≤ c.lane ∨ c.u 16 1 < 2) → 
      ∃ t, exec (.sysLaneConfig c) s = .next t ∧ ended 0x0106 c s { status := 6, detail := if (s.lane (c.u 16 1)).claimed then laneOwner (c.u 16 1) else 0xFF } s t) ∧
  -- SYS_COUNTERS without clearing: the counters of the lane named, this command among those accepted, and the device's; nothing changes
  (∀ (c : Cmd) (l : Lane) (s : State), readyFor c s = true → goodTable [fRange 16 1 0 3, fMask 17 1 1, fZero 18 2] c = true → l = (taken 0x0107 c s).lane (c.u 16 1) → c.flag 17 1 0 = false → 
      ∃ t, exec (.sysCounters c) s = .next t ∧ ended 0x0107 c s { body := le 8 0 ++ le 4 l.cmdCnt ++ le 4 l.abandonCnt ++ le 4 l.dbErrCnt ++ le 4 l.hardClaimCnt ++ le 4 l.leaseExpireCnt ++ le 4 l.evrLostCnt ++ le 4 (if c.u 16 1 = 2 then s.stw.inbandAuthFailCnt else 0) ++ le 4 (if c.u 16 1 = 3 then s.stw.debugCrcErrCnt else 0) ++ le 4 s.stw.restartCnt ++ le 4 s.stw.ingotWriteCnt ++ le 4 s.stw.ingotFailCnt } s t) ∧
  -- SYS_COUNTERS with clearing: answered as without, and the counters of the lane named are 0, the device's as they were
  (∀ (c : Cmd) (l : Lane) (s : State), readyFor c s = true → goodTable [fRange 16 1 0 3, fMask 17 1 1, fZero 18 2] c = true → l = (taken 0x0107 c s).lane (c.u 16 1) → c.flag 17 1 0 = true → 
      ∃ t, exec (.sysCounters c) s = .next t ∧ ended 0x0107 c s { body := le 8 0 ++ le 4 l.cmdCnt ++ le 4 l.abandonCnt ++ le 4 l.dbErrCnt ++ le 4 l.hardClaimCnt ++ le 4 l.leaseExpireCnt ++ le 4 l.evrLostCnt ++ le 4 (if c.u 16 1 = 2 then s.stw.inbandAuthFailCnt else 0) ++ le 4 (if c.u 16 1 = 3 then s.stw.debugCrcErrCnt else 0) ++ le 4 s.stw.restartCnt ++ le 4 s.stw.ingotWriteCnt ++ le 4 s.stw.ingotFailCnt } { s with stw.inbandAuthFailCnt := if c.u 16 1 = 2 then 0 else s.stw.inbandAuthFailCnt, stw.debugCrcErrCnt := if c.u 16 1 = 3 then 0 else s.stw.debugCrcErrCnt } t ∧ (t.lane (c.u 16 1)).cmdCnt = 0 ∧ (t.lane (c.u 16 1)).abandonCnt = 0 ∧ (t.lane (c.u 16 1)).dbErrCnt = 0 ∧ (t.lane (c.u 16 1)).hardClaimCnt = 0 ∧ (t.lane (c.u 16 1)).leaseExpireCnt = 0 ∧ (t.lane (c.u 16 1)).evrLostCnt = 0)

/-- What the field radio does at the events of a reception. A detection, its end without a delimiter, the delimiter, a
lost synchronisation, the front gain and the end of a frame act as given; where a clause gives the whole state,
nothing else changes. -/
def Obligations.FieldReceptionEvents : Prop :=
  -- FIELD_DETECT on an idle channel, its symbol periods within DET_COUNT, DET_THRESH and DET_FLOOR: an acquisition
  (∀ (ch : Nat) (tm p : Int) (ps : List (Nat × Int × Int)) (s : State), alive s = true → channelOpen s ch = true → qualifies (fcfg s) tm ps = true → FieldPeriods.strength { periods := ps } = p → s.rxOf ch = .idle → 
      ∃ t, exec (.fieldDetect ch tm { periods := ps }) s = .next t ∧ became { s with field.rx := Map.set s.field.rx ch (.acquiring { at' := s.time.mono, timing := tm, strength := p } none none) } t) ∧
  -- FIELD_DETECT whose symbol periods are too few, too weak or too far apart: no detection
  (∀ (ch : Nat) (tm : Int) (ps : List (Nat × Int × Int)) (s : State), alive s = true → qualifies (fcfg s) tm ps = false → 
      ∃ t, exec (.fieldDetect ch tm { periods := ps }) s = .next t ∧ became s t) ∧
  -- FIELD_DETECT of a second preamble, 3 dB stronger and more than a chip away: the acquisition starts afresh
  (∀ (ch : Nat) (tm p : Int) (ps : List (Nat × Int × Int)) (o : Preamble) (b m : Option Preamble) (s : State), alive s = true → channelOpen s ch = true → qualifies (fcfg s) tm ps = true → FieldPeriods.strength { periods := ps } = p → s.rxOf ch = .acquiring o b m → 1 < (tm - o.timing).natAbs → o.strength + 3 ≤ p → ch < 100 → 
      ∃ t, exec (.fieldDetect ch tm { periods := ps }) s = .next t ∧ became { s with field.rx := Map.set s.field.rx ch (.acquiring { at' := s.time.mono, timing := tm, strength := p } (some o) none), field.counts := tally (tally s.field.counts 32) (256 * ch + 32) } t) ∧
  -- FIELD_DETECT of a second preamble that is not 3 dB stronger: the acquisition goes on
  (∀ (ch : Nat) (tm p : Int) (ps : List (Nat × Int × Int)) (o : Preamble) (b m : Option Preamble) (s : State), alive s = true → channelOpen s ch = true → qualifies (fcfg s) tm ps = true → FieldPeriods.strength { periods := ps } = p → s.rxOf ch = .acquiring o b m → p < o.strength + 3 → 
      ∃ t, exec (.fieldDetect ch tm { periods := ps }) s = .next t ∧ became { s with field.rx := Map.set s.field.rx ch (.acquiring o b (some { at' := s.time.mono, timing := tm, strength := p })) } t) ∧
  -- FIELD_DETECT, CAPTURE_MARGIN stronger than the frame being received, before the symbol period of its last chip: the stronger one is acquired
  (∀ (ch : Nat) (tm p : Int) (ps : List (Nat × Int × Int)) (r : Reception) (s : State), alive s = true → channelOpen s ch = true → qualifies (fcfg s) tm ps = true → FieldPeriods.strength { periods := ps } = p → s.rxOf ch = .receiving r → r.rssi + (fcfg s).captureMargin ≤ p → s.time.mono + symNs ch ≤ r.fin → monitored s ch = false → (s.fchain (chainOf ch)).access = none → ch < 100 → 
      ∃ t, exec (.fieldDetect ch tm { periods := ps }) s = .next t ∧ (t.rxOf ch = .acquiring { at' := s.time.mono, timing := tm, strength := p } none none ∧ t.field.counts = tally (tally s.field.counts 36) (256 * ch + 36) ∧ t.kept = s.kept)) ∧
  -- FIELD_DETECT of such a preamble in the symbol period of the last chip: the frame ends normally, acquisition starts on it then
  (∀ (ch : Nat) (tm p : Int) (ps : List (Nat × Int × Int)) (r : Reception) (s : State), alive s = true → channelOpen s ch = true → qualifies (fcfg s) tm ps = true → FieldPeriods.strength { periods := ps } = p → s.rxOf ch = .receiving r → r.rssi + (fcfg s).captureMargin ≤ p → r.fin < s.time.mono + symNs ch → 
      ∃ t, exec (.fieldDetect ch tm { periods := ps }) s = .next t ∧ became { s with field.rx := Map.set s.field.rx ch (.receiving { r with next := some { at' := s.time.mono, timing := tm, strength := p } }) } t) ∧
  -- FIELD_ACQ_ABANDON, 12 symbol periods after the detection
  (∀ (ch : Nat) (p : Preamble) (b m : Option Preamble) (s : State), alive s = true → s.rxOf ch = .acquiring p b m → ch < 100 → 
      ∃ t, exec (.fieldAcqAbandon ch) s = .next t ∧ became { advanceMono (p.at' + 12 * symNs ch) s with field.rx := Map.set s.field.rx ch .idle, field.counts := tally (tally s.field.counts 28) (256 * ch + 28) } t) ∧
  -- FIELD_SFD_END in time: RSSI, CORR_Q, the stamp and its CAL_STALE are latched, the last chip is the one that the PHR gives
  (∀ (ch cq phr : Nat) (p : Preamble) (r : Int) (s : State), alive s = true → s.rxOf ch = .acquiring p none none → s.time.mono ≤ p.at' + 12 * symNs ch → ch < 100 → 4 < phr ∧ phr < 128 → 
      ∃ t, exec (.fieldSfdEnd ch r { corrQ := cq, phr := phr }) s = .next t ∧ became { s with field.rx := Map.set s.field.rx ch (.receiving { rssi := r, corrQ := cq, stamp := ingressStamp 34 0 0 (10 * symNs ch + 2400) s, stale := chainStale s 34 0 0, at' := s.time.mono, fin := s.time.mono + 2 * (1 + phr) * symNs ch }) } t) ∧
  -- FIELD_SFD_END in the symbol period of a restart that is too weak to capture: the SFD of the first preamble stands, the restart is not counted
  (∀ (ch cq phr : Nat) (p o : Preamble) (m : Option Preamble) (r : Int) (s : State), alive s = true → s.rxOf ch = .acquiring p (some o) m → s.time.mono < p.at' + symNs ch → s.time.mono ≤ o.at' + 12 * symNs ch → p.strength < r + (fcfg s).captureMargin → ch < 100 → 4 < phr ∧ phr < 128 → 
      ∃ t, exec (.fieldSfdEnd ch r { corrQ := cq, phr := phr }) s = .next t ∧ became { s with field.counts := (uncountRestart ch s).field.counts, field.rx := Map.set s.field.rx ch (.receiving { rssi := r, corrQ := cq, stamp := ingressStamp 34 0 0 (10 * symNs ch + 2400) s, stale := chainStale s 34 0 0, at' := s.time.mono, fin := s.time.mono + 2 * (1 + phr) * symNs ch }) } t) ∧
  -- FIELD_SYNC_LOST, the mean CORR of 8 symbols below SYNC_FLOOR: the frame ends; nothing is delivered
  (∀ (ch : Nat) (cs : List Nat) (r : Reception) (s : State), alive s = true → s.rxOf ch = .receiving r → cs.length = 8 → cs.sum < 8 * (fcfg s).syncFloor → monitored s ch = false → (s.fchain 0).access = none → ch < 100 → 
      ∃ t, exec (.fieldSyncLost { channel := ch, corr := cs }) s = .next t ∧ became { s with field.rx := Map.set s.field.rx ch (afterRx r), field.counts := tally (tally s.field.counts 44) (256 * ch + 44) } t) ∧
  -- FIELD_SYNC_LOST, their mean at SYNC_FLOOR or above: the frame goes on
  (∀ (ch : Nat) (cs : List Nat) (s : State), alive s = true → 8 * (fcfg s).syncFloor ≤ cs.sum → 
      ∃ t, exec (.fieldSyncLost { channel := ch, corr := cs }) s = .next t ∧ became s t) ∧
  -- FIELD_GAIN_REDUCE
  (∀ (db : Nat) (s : State), alive s = true → bandOn s 0 = true → fieldUp s = true → 
      ∃ t, exec (.fieldGainReduce db) s = .next t ∧ became { s with field.gainDb := s.field.gainDb + db } t) ∧
  -- FIELD_GAIN_RAISE, by 6 dB at most, 16 µs after the last
  (∀ (db : Nat) (s : State), alive s = true → bandOn s 0 = true → fieldUp s = true → s.field.rx.any (fun x => decide (x.1 < 100) && decide (x.2 ≠ .idle)) = false → 
      ∃ t, exec (.fieldGainRaise db) s = .next t ∧ became { advanceMono (s.field.gainAt + 16000) s with field.gainDb := s.field.gainDb - min db 6, field.gainAt := (advanceMono (s.field.gainAt + 16000) s).time.mono } t) ∧
  -- FIELD_RX_END of a frame whose check sequence fails
  (∀ (ch : Nat) (x : FieldRx) (r : Reception) (s : State), alive s = true → s.rxOf ch = .receiving r → overtaken s 0 = false → testOpen s ch = false → 4 < x.len → x.phrReserved = false → x.fcsOk = false → x.ftype = 1 → senderChild s x = none → monitored s ch = false → (s.fchain 0).access = none → ch < 100 → 
      ∃ t, exec (.fieldRxEnd ch x) s = .next t ∧ became { s with field.rx := Map.set s.field.rx ch (afterRx r), field.counts := tally (tally s.field.counts 52) (256 * ch + 52) } t) ∧
  -- FIELD_RX_END of a frame that passes every check, from a sender with no child record, with no acknowledgement asked for: the field ring counts it and gets its descriptor, its payload is counted, the sender's duplicate entry is the newest
  (∀ (ch : Nat) (x : FieldRx) (r : Reception) (s : State), alive s = true → s.rxOf ch = .receiving r → overtaken s 0 = false → testOpen s ch = false → rxStatus s ch x = 0 → x.ftype = 1 → x.secLevel = 0 → x.seqSuppressed = false → x.ar = false → x.rdvFrom = none → senderChild s x = none → (s.fchain 0).access = none → ch < 100 → 
      ∃ t, exec (.fieldRxEnd ch x) s = .next t ∧ (t.field.rx = Map.set s.field.rx ch (afterRx r) ∧ t.field.counts = tally (tally s.field.counts 24) (256 * ch + 24) ∧ t.field.inBytes = satAdd 64 s.field.inBytes x.payload ∧ (t.field.unknown.head?.map (fun e => (e.1, e.2.dsn, e.2.beat))) = some (senderKey x, some x.dsn, s.beat) ∧ (t.ring 34).frames = satInc 32 (s.ring 34).frames ∧ .frame 34 9 (x.id :: (fieldMeta s ch 0 r x).map (·.toNat) ++ [0] ++ stampNats r.stamp r.stale) ∈ t.outbox ∧ t.kept = s.kept)) ∧
  -- FIELD_RX_END of any frame whose reception is not overtaken, an acknowledgement apart: its status is counted, once
  (∀ (ch st : Nat) (x : FieldRx) (r : Reception) (s : State), alive s = true → ch ≠ 0 → s.rxOf ch = .receiving r → overtaken s (chainOf ch) = false → rxStatus s ch x = st → st ≠ 0x0D → (x.ftype = 2 → st ≠ 0) → 
      ∃ t, exec (.fieldRxEnd ch x) s = .next t ∧ tallyOf t.field.counts (256 * chainOf ch + rxCounter st) = satInc 32 (tallyOf s.field.counts (256 * chainOf ch + rxCounter st)))

/-- What the field radio does on the way to the air. An acknowledgement, a release, a back-off and a clear-channel
assessment act as given. -/
def Obligations.FieldTransmissionEvents : Prop :=
  -- FIELD_ACK_SEND of an unsecured acknowledgement that answers no poll, the radio free
  (∀ (chain : Nat) (k : AckDue) (s : State), alive s = true → chain < 2 → (s.fchain chain).acks = [k] → k.key = none → k.poll = none → k.at' ≤ s.time.mono → s.time.acc < 2 ^ 96 → fieldUp s = true → s.front.tx = [] → obstructed s (34 + chain) 1 = false → shares24 s = false → s.field.rx = [] → 
      ∃ t, exec (.fieldAckSend chain) s = .next t ∧ ((t.fchain chain).acks = [] ∧ (t.fchain chain).sendingAck = some (s.time.mono + k.dur, k) ∧ Map.get? t.front.tx (34 + chain) = some { t0 := s.time.mono, t1 := s.time.mono + k.dur, kind := 1, chains := 1 } ∧ t.field.counts = (fieldCount k.channel 84 none s).field.counts ∧ t.kept = s.kept)) ∧
  -- FIELD_ACK_SEND of any acknowledgement that nothing obstructs, its key, if it has one, present and not exhausted
  (∀ (chain : Nat) (k : AckDue) (rest : List AckDue) (s y : State), alive s = true → chain < 2 → (s.fchain chain).acks = k :: rest → y = updFchain chain (fun c => { c with acks := rest }) (advanceMono k.at' s) → fieldUp y = true → transmitting y (34 + chain) = false → obstructed y (34 + chain) 1 = false → wideClash y (34 + chain) k.dur k.since = false → k.key.all (fun e => (fieldKey y e).any (fun x => decide (x.txPn + 1 < 0xFFFFFFFF))) = true → 
      ∃ t, exec (.fieldAckSend chain) s = .next t ∧ (t.fchain chain).acks = rest ∧ (t.fchain chain).sendingAck = some (y.time.mono + k.dur, k) ∧ Map.get? t.front.tx (34 + chain) = some { t0 := y.time.mono, t1 := y.time.mono + k.dur, kind := 1, chains := 1 }) ∧
  -- FIELD_TX_RELEASE on FSG: the frame of its management queue begins channel access with a back-off
  (∀ (slots : Nat) (m : FieldTx) (f : Queued) (s : State), alive s = true → fieldUp s = true → bandOn s 1 = true → unitUp s 4 = true → (s.fchain 1).access = none → (s.fchain 1).test = none → fieldSafe s 1 = false → s.power.mode.serves = true → s.power.entry = none → 20000 ≤ s.phase ∧ s.phase < 950000 → fieldWindowed s = false → s.time.settling = false → s.overrunning 35 = false → s.plan.queues = [(0x3F05, { frames := [f] })] → f.held = false → f.payload = .field m → (classSet s (classKey 26 8)).shaped = false → 
      ∃ t, exec (.fieldTxRelease 1 slots) s = .next t ∧ ((t.fchain 1).access = some { item := { m with band := 1, channel := (fcfg s).fsgChannel }, queued := some f, queue := 0x3F05, be := (fcfg s).minBe, retries := m.sends, due := s.time.mono + slots % 2 ^ (fcfg s).minBe * (20 * symNs (100 + (fcfg s).fsgChannel)) } ∧ (t.queue 0x3F05).frames = [] ∧ t.kept = s.kept ∧ t.front = s.front)) ∧
  -- FIELD_TX_RELEASE on the safe plan, or in Doze outside a listen beat: nothing is released
  (∀ (k slots : Nat) (s : State), alive s = true → k < 2 → (fieldSafe s k = true ∨ s.power.mode = .doze ∧ listenNow s = false) → 
      ∃ t, exec (.fieldTxRelease k slots) s = .next t ∧ became s t) ∧
  -- FIELD_BACKOFF_END: a clear-channel assessment of 8 symbol periods begins
  (∀ (chain : Nat) (a : FieldAccess) (s : State), alive s = true → (s.fchain chain).access = some a → a.stage = 0 → mayAccess s chain a = true → s.time.settling = false → s.overrunning (34 + chain) = false → chain < 2 → a.due ≤ s.time.mono → s.time.acc < 2 ^ 96 → 20000 ≤ s.phase → s.phase + 8 * symNs (chanKey a.item.band a.item.channel) ≤ 950000 → 
      ∃ t, exec (.fieldBackoffEnd chain) s = .next t ∧ became { s with field.chains := Bank.modify s.field.chains chain (fun c => { c with access := some { a with stage := 1, due := s.time.mono + 8 * symNs (chanKey a.item.band a.item.channel) } }) } t) ∧
  -- FIELD_BACKOFF_END on the safe plan, or in Doze outside a listen beat: the frame goes back to the head of its queue without a completion
  (∀ (chain : Nat) (a : FieldAccess) (f : Queued) (s : State), alive s = true → chain < 2 → (s.fchain chain).access = some a → (s.fchain chain).parked = none → a.stage = 0 → a.limit = none → a.queued = some f → s.time.settling = false → (fieldSafe s chain = true ∨ s.power.mode = .doze ∧ listenNow s = false) → 
      ∃ t, exec (.fieldBackoffEnd chain) s = .next t ∧ ((t.fchain chain).access = none ∧ ((t.queue a.queue).frames.map (·.payload)) = .field { a.item with sends := a.retries } :: (s.queue a.queue).frames.map (·.payload) ∧ t.field.counts = s.field.counts ∧ t.kept = s.kept)) ∧
  -- FIELD_CCA_END, the channel busy and a back-off left: the next back-off
  (∀ (chain slots : Nat) (e : Int) (a : FieldAccess) (s : State), alive s = true → (s.fchain chain).access = some a → a.stage = 1 → a.limit = none → mayAccess s chain a = true → a.due ≤ s.time.mono → s.time.acc < 2 ^ 96 → ccaBusy s (chanKey a.item.band a.item.channel) e = true → a.nb + 1 ≤ (fcfg s).maxBackoffs → 
      ∃ t, exec (.fieldCcaEnd chain e slots) s = .next t ∧ became { s with field.chains := Bank.modify s.field.chains chain (fun c => { c with access := some { a with nb := a.nb + 1, be := min (a.be + 1) (fcfg s).maxBe, stage := 0, due := s.time.mono + slots % 2 ^ (min (a.be + 1) (fcfg s).maxBe) * (20 * symNs (chanKey a.item.band a.item.channel)) } }) } t) ∧
  -- FIELD_CCA_END, the channel clear and the radio free: an unsecured frame starts
  (∀ (chain slots dur : Nat) (e : Int) (a : FieldAccess) (s : State), alive s = true → chain < 2 → (s.fchain chain).access = some a → a.stage = 1 → a.limit = none → mayAccess s chain a = true → a.due ≤ s.time.mono → s.time.acc < 2 ^ 96 → ccaBusy s (chanKey a.item.band a.item.channel) e = false → a.item.instant = none → chipWindow s (34 + chain) = true → s.front.tx = [] → obstructed s (34 + chain) 1 = false → priorityPending s (34 + chain) = false → shares24 s = false → s.field.rx = [] → a.item.secLevel = 0 → a.queue < 0x1000 → dur = fieldNs (chanKey a.item.band a.item.channel) a.item.len → 
      ∃ t, exec (.fieldCcaEnd chain e slots) s = .next t ∧ ((t.fchain chain).access = some { a with stage := 2, due := s.time.mono + dur, lastChip := s.time.mono + dur, stamp := a.item.stamp.map (fun _ => (egressStamp (34 + chain) 0 0 0 s, stampFlags (34 + chain) 0 0 s)) } ∧ Map.get? t.front.tx (34 + chain) = some { t0 := s.time.mono, t1 := s.time.mono + dur, kind := 0, chains := 1 } ∧ t.kept = s.kept ∧ t.plan = s.plan))

/-- What the field radio does at the end of a frame and for its children. A frame's end, an acknowledgement wait, an
answer to a poll, an expired frame and a silent child act as given. -/
def Obligations.FieldTransmissionEnds : Prop :=
  -- FIELD_TX_END of a frame that asks for an acknowledgement: the wait of 54 symbol periods begins
  (∀ (chain : Nat) (x : RadioTx) (a : FieldAccess) (s : State), alive s = true → chain < 2 → Map.get? s.front.tx (34 + chain) = some x → x.kind = 0 → x.t1 ≤ s.time.mono → s.time.acc < 2 ^ 96 → (s.fchain chain).sendingAck = none → (s.fchain chain).other = none → (s.fchain chain).access = some a → a.stage = 2 → a.item.stamp = none → a.item.ar = true → 
      ∃ t, exec (.fieldTxEnd chain) s = .next t ∧ became { s with front.tx := Map.erase s.front.tx (34 + chain), field.chains := Bank.modify s.field.chains chain (fun c => { c with access := some { a with stage := 3, lastChip := s.time.mono, due := s.time.mono + 54 * symNs (chanKey a.item.band a.item.channel) } }) } t) ∧
  -- FIELD_TX_END of any frame that asks for an acknowledgement, with or without a stamp: the chain is free, the wait begins
  (∀ (chain : Nat) (x : RadioTx) (a : FieldAccess) (s y : State), alive s = true → chain < 2 → Map.get? s.front.tx (34 + chain) = some x → x.kind ≠ 3 → (s.fchain chain).sendingAck = none → (s.fchain chain).other = none → (s.fchain chain).access = some a → a.stage = 2 → a.item.ar = true → y = advanceMono x.t1 s → 
      ∃ t, exec (.fieldTxEnd chain) s = .next t ∧ Map.get? t.front.tx (34 + chain) = none ∧ (t.fchain chain).access = some { a with stage := 3, lastChip := y.time.mono, due := y.time.mono + 54 * symNs (chanKey a.item.band a.item.channel) }) ∧
  -- FIELD_ACK_WAIT_END with a retry left and no reception going on: F24's synthesiser retunes and the next back-off begins
  (∀ (chain slots : Nat) (a : FieldAccess) (s : State), alive s = true → (s.fchain chain).access = some a → a.stage = 3 → a.limit = none → mayAccess s chain a = true → a.due ≤ s.time.mono → s.time.acc < 2 ^ 96 → s.field.rx = [] → a.retries < (fcfg s).maxRetries → 
      ∃ t, exec (.fieldAckWaitEnd chain slots) s = .next t ∧ became (updFchain chain (fun c => { c with access := some { a with retries := a.retries + 1, nb := 0, be := (fcfg s).minBe, stage := 0, due := s.time.mono + slots % 2 ^ (fcfg s).minBe * (20 * symNs (chanKey a.item.band a.item.channel)) } }) (if chain = 0 then startRetune 3 s else s)) t) ∧
  -- FIELD_ACK_WAIT_END while a retry is left, whatever other channels receive: the next back-off begins
  (∀ (chain slots : Nat) (a : FieldAccess) (s y : State), alive s = true → (s.fchain chain).access = some a → a.stage = 3 → a.taken = true → y = advanceMono a.due s → (match y.rxOf (chanKey a.item.band a.item.channel) with | .receiving r => decide (a.due < r.at') || decide (r.at' ≤ a.lastChip) | _ => true) = true → mayAccess y chain a = true → a.retries < (fcfg s).maxRetries → 
      ∃ t, exec (.fieldAckWaitEnd chain slots) s = .next t ∧ (t.fchain chain).access = some { a with retries := a.retries + 1, nb := 0, be := (fcfg s).minBe, stage := 0, due := y.time.mono + slots % 2 ^ (fcfg s).minBe * (20 * symNs (chanKey a.item.band a.item.channel)) }) ∧
  -- POLL_ANSWER_SEND of a child whose queue is empty, on a clear channel: an empty frame
  (∀ (e : Int) (slots : Nat) (p : PollAnswer) (s : State), alive s = true → (s.fchain 1).answers = [p] → 100 ≤ p.channel → s.time.settling = false → s.overrunning 35 = false → (s.fchain 1).access = none → fieldUp s = true → p.at' - 8 * symNs p.channel ≤ s.time.mono → s.time.acc < 2 ^ 96 → 20000 ≤ s.phase ∧ s.phase + 8 * symNs p.channel ≤ 950000 → s.plan.queues = [] → s.front.tx = [] → s.front.runs = [] → s.kept.front.coex = [] → (s.synth 4).state = .locked → (fcfg s).ccaMode = 1 ∧ e < (fcfg s).ccaEd → shares24 s = false → s.field.rx = [] → s.time.mono + 8 * symNs p.channel + 2 ≤ p.limit → s.power.mode.serves = true → 
      ∃ t, exec (.pollAnswerSend 1 e slots) s = .next t ∧ ((t.fchain 1).answers = [] ∧ (Map.get? t.front.tx 35).map (fun x => x.t1 - x.t0) = some (fieldNs p.channel 11) ∧ t.kept = s.kept ∧ t.plan = s.plan)) ∧
  -- POLL_ANSWER_SEND while the chain is taken up by a frame on the air, before the limit of the answer: it stays due
  (∀ (k slots : Nat) (e : Int) (p : PollAnswer) (l : List PollAnswer) (a : FieldAccess) (s : State), alive s = true → (s.fchain k).answers = p :: l → (s.fchain k).access = some a → a.stage = 2 → fieldUp s = true → s.time.mono ≤ p.limit → 
      ∃ t, exec (.pollAnswerSend k e slots) s = .next t ∧ became s t) ∧
  -- CHILD_FRAME_EXPIRED: the one frame of a child queue, past PERSIST_BEATS, is completed EXPIRED
  (∀ (i : Nat) (m : FieldTx) (f : Queued) (s : State), alive s = true → i < 3072 → s.plan.queues = [(0x2000 + i, { frames := [f] })] → f.payload = .field m → f.pool = 0 ∧ f.cells = none → f.enqBeat + (fcfg s).persist ≤ s.beat → (s.fchain 0).access = none → (s.fchain 1).access = none → childRec s i = none → 
      ∃ t, exec (.childFrameExpired i) s = .next t ∧ ((t.queue (0x2000 + i)).frames = [] ∧ t.field.counts = tally s.field.counts 120 ∧ (childRun t i).counts = tally (childRun s i).counts 120 ∧ t.kept = s.kept)) ∧
  -- CHILD_FRAME_EXPIRED of any child queue with no frame on the air: the frames that have waited PERSIST_BEATS leave it, the others stay
  (∀ (i : Nat) (s : State), alive s = true → s.field.chains.any (fun c => c.access.any (fun a => decide (a.queue = 0x2000 + i))) = false → 
      ∃ t, exec (.childFrameExpired i) s = .next t ∧ (t.queue (0x2000 + i)).frames.map (·.payload) = ((s.queue (0x2000 + i)).frames.filter (fun f => !decide (s.beat ≥ f.enqBeat + (fcfg s).persist))).map (·.payload)) ∧
  -- FIELD_CHILD_SILENT: a child that has not polled for four of its intervals, by the time gone by
  (∀ (i : Nat) (r : Child) (s : State), alive s = true → childRec s i = some r → r.pollExpect ≠ 0 → r.joining = false → (childRun s i).silentArmed = true → 4 * r.pollExpect * 1000 ≤ pollAge s (childRun s i) → 
      ∃ t, exec (.fieldChildSilent i) s = .next t ∧ became (raise (34 + r.bandChan / 128) 0x0601 (le 2 i ++ le 4 (pollAge s (childRun s i))) (updRun i (fun x => { x with silentArmed := false }) s)) t)

/-- Rendezvous of the field radio and the end of its test mode. A rendezvous frame leaves at its instant, the window
of a listener opens by its guard before it, a missed window begins continuous listening and its end suspends the
rendezvous; a test mode with a duration ends. -/
def Obligations.FieldRendezvousEvents : Prop :=
  -- FIELD_RDV_SEND by a sender on FSG whose instant has come, the radio free
  (∀ (r len : Nat) (g : Rdv) (s : State), alive s = true → Map.get? s.kept.field.rdv r = some g → g.enable = true → g.listen = false → g.band = 1 → (rdvRun s r).suspended = false → fieldUp s = true → bandOn s 1 = true → s.time.acc = rdvInstant g s.ns * 2 ^ 32 → s.time.acc < 2 ^ 96 → s.front.tx = [] → obstructed s 35 1 = false → shares24 s = false → chipWindow s 35 = true → 5 ≤ len ∧ len ≤ 127 → s.field.rx = [] → 
      ∃ t, exec (.fieldRdvSend r len) s = .next t ∧ (Map.get? t.front.tx 35 = some { t0 := s.time.mono, t1 := s.time.mono + fieldNs (100 + g.channel) len, kind := 2, chains := 1 } ∧ t.field = { s.field with chains := Bank.modify s.field.chains 1 (fun c => { c with other := some (100 + g.channel, 1000 + r) }) } ∧ .frame 35 4 ([r, 100 + g.channel, s.beat, fieldPower s 1] ++ stampNats (egressStamp 35 0 0 0 s) (chainStale s 35 0 0)) ∈ t.outbox ∧ t.kept = s.kept ∧ t.time = s.time)) ∧
  -- FIELD_RDV_SEND by any sender at its instant, nothing obstructing the chain
  (∀ (r len : Nat) (g : Rdv) (s y : State) (ch : Nat), alive s = true → Map.get? s.kept.field.rdv r = some g → g.enable = true → g.listen = false → g.band < 2 → (rdvRun s r).suspended = false → fieldUp s = true → bandOn s g.band = true → 5 ≤ len ∧ len ≤ 127 → y = advanceTo (rdvInstant g s.ns) s → ch = chanKey g.band g.channel → chipWindow y (34 + g.band) = true → transmitting y (34 + g.band) = false → obstructed y (34 + g.band) 1 = false → wideClash y (34 + g.band) (fieldNs ch len) 0 = false → 
      ∃ t, exec (.fieldRdvSend r len) s = .next t ∧ Map.get? t.front.tx (34 + g.band) = some { t0 := y.time.mono, t1 := y.time.mono + fieldNs ch len, kind := 2, chains := 1 } ∧ (t.fchain g.band).other = some (ch, 1000 + r)) ∧
  -- RENDEZVOUS_WINDOW_START of a listener on F24, its guard within 40 % of the period: the window lasts until 10 symbols after the guard
  (∀ (r : Nat) (g : Rdv) (s : State), alive s = true → Map.get? s.kept.field.rdv r = some g → g.enable = true → g.listen = true → g.band = 0 → (rdvRun s r).suspended = false → (rdvRun s r).window = none → (rdvRun s r).continuous = none → fieldUp s = true → bandOn s 0 = true → (s.synth 2).state = .locked → rdvGuard s g (rdvRun s r) * 10 ≤ 4 * g.period * 1000000 → 
      ∃ t, exec (.rendezvousWindowStart r) s = .next t ∧ ((rdvRun t r).window.isSome = true ∧ (rdvRun t r).guard = rdvGuard s g (rdvRun s r) ∧ (rdvRun t r).opened = t.time.mono ∧ (rdvRun t r).heard = false ∧ t.kept = s.kept ∧ t.front = s.front)) ∧
  -- RENDEZVOUS_WINDOW_START of any listener, on either band, whatever its guard: the window opens
  (∀ (r : Nat) (g : Rdv) (s : State), alive s = true → Map.get? s.kept.field.rdv r = some g → g.enable = true → g.listen = true → (rdvRun s r).suspended = false → (rdvRun s r).window = none → (rdvRun s r).continuous = none → fieldUp s = true → bandOn s g.band = true → 
      ∃ t, exec (.rendezvousWindowStart r) s = .next t ∧ (rdvRun t r).window.isSome = true ∧ (rdvRun t r).guard = rdvGuard s g (rdvRun s r) ∧ (rdvRun t r).opened = t.time.mono ∧ (rdvRun t r).heard = false) ∧
  -- FIELD_RDV_MISSED: the window has ended without the partner; continuous listening for twice the guard and a period, in whole beats
  (∀ (r w : Nat) (g : Rdv) (s : State), alive s = true → Map.get? s.kept.field.rdv r = some g → (rdvRun s r).window = some w → (rdvRun s r).heard = false → s.field.rx = [] → w ≤ s.time.mono → s.time.acc < 2 ^ 96 → 
      ∃ t, exec (.fieldRdvMissed r) s = .next t ∧ became (raise (34 + g.band) 0x0604 (le 1 r ++ le 4 ((rdvRun s r).guard / 1000)) { s with field.counts := (fieldCount (chanKey g.band g.channel) 136 none s).field.counts, field.rdv := Map.set s.field.rdv r { rdvRun s r with window := none, continuous := some (w + (2 * (rdvRun s r).guard + g.period * 1000000 + 999999) / 1000000 * 1000000) } }) t) ∧
  -- FIELD_RDV_LOST: continuous listening has ended without the partner; the rendezvous is suspended while the servo is not LOCKED
  (∀ (r b : Nat) (g : Rdv) (s : State), alive s = true → Map.get? s.kept.field.rdv r = some g → (rdvRun s r).continuous = some b → s.time.servo ≠ .locked → b ≤ s.time.mono → s.time.acc < 2 ^ 96 → 
      ∃ t, exec (.fieldRdvLost r) s = .next t ∧ became (raise (34 + g.band) 0x0605 (le 1 r) { s with field.counts := (fieldCount (chanKey g.band g.channel) 140 none s).field.counts, field.rdvLostStk := true, field.rdv := Map.set s.field.rdv r { rdvRun s r with continuous := none, suspended := true } }) t) ∧
  -- FIELD_TEST_END of a receive test
  (∀ (chain k p b : Nat) (s : State), alive s = true → (s.fchain chain).test = some (3, k, p, b) → b ≠ 0 → b * 1000000 * 2 ^ 32 ≤ s.time.acc → s.time.acc < 2 ^ 96 → s.front.tx = [] → 
      ∃ t, exec (.fieldTestEnd chain) s = .next t ∧ became { s with field.chains := Bank.modify s.field.chains chain (fun c => { c with test := none }), front.blankUntil := Map.erase s.front.blankUntil (34 + chain) } t)

/-- The field radio's commands complete. Each command of area 0x06, sent READY with good fields and accepted at once,
is answered with the fields of its table and has exactly the effect given, at the next commit window where its
settings are Kept. -/
def Obligations.FieldCommandsComplete : Prop :=
  -- FIELD_CONFIG, its fields within the limits of Table 3-17
  (∀ (c : Cmd) (s : State), readyFor c s = true → goodTable [fMask 16 1 3, fRange 17 1 0 10, fAny 18 2, fAny 20 2, fAny 22 2, fAny 24 2, fSigned 26 1 (-40) 20, fSigned 27 1 (-40) 20, fMask 28 1 7, fSigned 29 1 (-100) (-50), fRange 30 1 64 240, fRange 31 1 1 4, fSigned 32 1 (-110) (-70), fRange 33 1 3 15, fRange 34 1 16 200, fAny 35 1, fRange 36 1 0 5, fRange 37 1 0 7, fRange 38 1 0 7, fMask 39 1 3, fRange 40 2 100 65535, fRange 42 2 192 2000, fRange 44 4 1000 1000000, fRange 48 2 16 4096, fAny 50 2, fZero 52 4] c = true → bitsOf (c.u 28 1) 1 0 ≠ 0 → bitsOf (c.u 35 1) 3 0 ≤ 7 → 3 ≤ bitsOf (c.u 35 1) 7 4 ∧ bitsOf (c.u 35 1) 7 4 ≤ 8 → c.u 50 2 ≠ 0 ∧ c.u 50 2 ≤ c.u 48 2 → 
      ∃ t, exec (.fieldConfig c) s = .next t ∧ ended 0x0601 c s { body := le 8 Config.extAddress } { s with next.field.config := { f24 := c.flag 16 1 0, fsg := c.flag 16 1 1, fsgChannel := c.u 17 1, panId := c.u 18 2, short := c.u 20 2, chanMask := c.u 22 2, monitorMask := c.u 24 2, txpwr24 := c.i 26 1, txpwrSg := c.i 27 1, ccaMode := bitsOf (c.u 28 1) 1 0, ccaAnd := c.flag 28 1 2, ccaEd := c.i 29 1, detThresh := c.u 30 1, detCount := c.u 31 1, detFloor := c.i 32 1, captureMargin := c.u 33 1, syncFloor := c.u 34 1, minBe := bitsOf (c.u 35 1) 3 0, maxBe := bitsOf (c.u 35 1) 7 4, maxBackoffs := c.u 36 1, maxRetries := c.u 37 1, minSecUnknown := c.u 38 1, fsgMonitor := c.flag 39 1 0, beaconAny := c.flag 39 1 1, dupWindow := c.u 40 2, pendDelay := c.u 42 2, persist := c.u 44 4, dozePeriod := c.u 48 2, dozeListen := c.u 50 2 } } t) ∧
  -- FIELD_CHILD_SET of a record whose addresses no other record has, its counters not loaded
  (∀ (c : Cmd) (s : State), readyFor c s = true → goodTable [fRange 16 2 0 3071, fRange 18 2 0 4095, fAny 20 8, fAny 28 2, fMask 30 1 0x9F, fMask 31 1 0x1F, fAny 32 2, fRange 34 1 0 7, fRange 35 1 1 32, fAny 36 2, fZero 38 2, fAny 40 4, fAny 44 4, fAny 48 4] c = true → s.next.field.children = [] → bandChanOk (c.u 30 1) = true → c.u 32 2 = 0xFFFF → c.flag 31 1 4 = false → Map.get? s.next.wide.fieldKeys 0xFFFF = none → 
      ∃ t, exec (.fieldChildSet c) s = .next t ∧ ended 0x0602 c s {} { s with next.field.children := [(c.u 16 2, { client := c.u 18 2, ext := c.u 20 8, short := c.u 28 2, bandChan := c.u 30 1, rxOnIdle := c.flag 31 1 0, standby := c.flag 31 1 1, joining := c.flag 31 1 2, forcePend := c.flag 31 1 3, keyIdx := c.u 32 2, minSec := c.u 34 1, qdepth := c.u 35 1, pollExpect := c.u 36 2 })] } t) ∧
  -- FIELD_CHILD_SET of any record whose addresses no other record has, its counters loaded or left
  (∀ (c : Cmd) (s : State), readyFor c s = true → goodTable [fRange 16 2 0 3071, fRange 18 2 0 4095, fAny 20 8, fAny 28 2, fMask 30 1 0x9F, fMask 31 1 0x1F, fAny 32 2, fRange 34 1 0 7, fRange 35 1 1 32, fAny 36 2, fZero 38 2, fAny 40 4, fAny 44 4, fAny 48 4] c = true → s.next.field.children.all (fun e => decide (e.1 = c.u 16 2) || (decide (e.2.ext ≠ c.u 20 8) && (decide (c.u 28 2 = 0xFFFE) || decide (e.2.short ≠ c.u 28 2)))) = true → bandChanOk (c.u 30 1) = true → (c.u 32 2 ≤ 4095 ∨ c.u 32 2 = 0xFFFF) → 
      ∃ t, exec (.fieldChildSet c) s = .next t ∧ ended 0x0602 c s {} { s with next := t.next } t ∧ Map.get? t.next.field.children (c.u 16 2) = some { client := c.u 18 2, ext := c.u 20 8, short := c.u 28 2, bandChan := c.u 30 1, rxOnIdle := c.flag 31 1 0, standby := c.flag 31 1 1, joining := c.flag 31 1 2, forcePend := c.flag 31 1 3, keyIdx := c.u 32 2, minSec := c.u 34 1, qdepth := c.u 35 1, pollExpect := c.u 36 2, inFcPair := if c.flag 31 1 4 then some (c.u 40 4) else (Map.get? s.next.field.children (c.u 16 2)).bind (·.inFcPair), inFcGroup := if c.flag 31 1 4 then some (c.u 44 4) else (Map.get? s.next.field.children (c.u 16 2)).bind (·.inFcGroup) } ∧ (Map.get? t.next.wide.fieldKeys (c.u 32 2)).map (·.txPn) = (Map.get? s.next.wide.fieldKeys (c.u 32 2)).map (fun e => if c.flag 31 1 4 then c.u 48 4 else e.txPn)) ∧
  -- FIELD_CHILD_DEL
  (∀ (c : Cmd) (s : State), readyFor c s = true → goodTable [fRange 16 2 0 3071, fZero 18 2] c = true → Map.has s.next.field.children (c.u 16 2) = true → 
      ∃ t, exec (.fieldChildDel c) s = .next t ∧ ended 0x0603 c s {} { s with field.deleted := c.u 16 2 :: s.field.deleted, next.field.children := Map.erase s.next.field.children (c.u 16 2) } t) ∧
  -- FIELD_CHILD_GET of a record without a key
  (∀ (c : Cmd) (r : Child) (s : State), readyFor c s = true → goodTable [fRange 16 2 0 3071, fZero 18 2] c = true → childRec s (c.u 16 2) = some r → fieldKey s r.keyIdx = none → 
      ∃ t, exec (.fieldChildGet c) s = .next t ∧ ended 0x0604 c s { body := le 2 (c.u 16 2) ++ le 2 r.client ++ le 8 r.ext ++ le 2 r.short ++ le 1 r.bandChan ++ le 1 (fieldsWord [(0, bit r.rxOnIdle), (1, bit r.standby), (2, bit r.joining), (3, bit r.forcePend)]) ++ le 2 r.keyIdx ++ le 1 r.minSec ++ le 1 r.qdepth ++ le 2 r.pollExpect ++ le 2 0 ++ le 4 (r.inFcPair.getD 0) ++ le 4 (r.inFcGroup.getD 0) ++ le 4 0 ++ le 2 (s.queue (0x2000 + c.u 16 2)).frames.length ++ le 2 (min 0xFFFF (pollAge s (childRun s (c.u 16 2)))) ++ leInt 1 (childRun s (c.u 16 2)).rssi ++ le 1 (childRun s (c.u 16 2)).corrQ ++ le 1 (childRun s (c.u 16 2)).channel ++ [0] } s t) ∧
  -- FIELD_RDV_SET on F24
  (∀ (c : Cmd) (s : State), readyFor c s = true → goodTable [fRange 16 1 0 7, fMask 17 1 7, fRange 18 2 0 255, fAny 20 1, fZero 21 1, fRange 22 2 100 65535, fAny 24 2, fRange 26 2 20 900, fRange 28 2 50 5000, fZero 30 2] c = true → c.flag 17 1 2 = false → 11 ≤ c.u 20 1 ∧ c.u 20 1 ≤ 26 → c.u 24 2 < c.u 22 2 → 
      ∃ t, exec (.fieldRdvSet c) s = .next t ∧ ended 0x0605 c s {} { s with next.field.rdv := Map.set s.next.field.rdv (c.u 16 1) { enable := c.flag 17 1 0, listen := c.flag 17 1 1, band := 0, neighbour := c.u 18 2, channel := c.u 20 1, period := c.u 22 2, offset := c.u 24 2, phaseUs := c.u 26 2, guardMin := c.u 28 2 } } t) ∧
  -- FIELD_ORPHAN_PLAN that is only stored
  (∀ (c : Cmd) (s : State), readyFor c s = true → goodTable [fMask 16 1 3, fZero 17 1, fAny 18 2, fAny 20 76] c = true → badPlan c = none → c.flag 16 1 0 = false → c.flag 16 1 1 = false → 
      ∃ t, exec (.fieldOrphanPlan c) s = .next t ∧ ended 0x0606 c s {} { s with field.pushed := [], next.field.orphan := some (c.bytesAt 20 (12 + 16 * c.u 27 1)) } t) ∧
  -- FIELD_ORPHAN_PLAN that is not a good plan
  (∀ (c : Cmd) (s : State), readyFor c s = true → goodTable [fMask 16 1 3, fZero 17 1, fAny 18 2, fAny 20 76] c = true → badPlan c = some 28 → c.flag 16 1 1 = false → 
      ∃ t, exec (.fieldOrphanPlan c) s = .next t ∧ ended 0x0606 c s { status := 3, detail := 28 } s t) ∧
  -- FIELD_TEST on a disabled F24, MODE 3: the receiver listens, its synthesisers relock
  (∀ (c : Cmd) (s : State), readyFor c s = true → goodTable [fRange 16 1 0 3, fRange 17 1 0 1, fAny 18 1, fSigned 19 1 (-40) 20, fAny 20 4] c = true → c.u 16 1 = 3 → c.u 17 1 = 0 → 11 ≤ c.u 18 1 ∧ c.u 18 1 ≤ 26 → bandOn s 0 = false → s.next.field.config.f24 = false → (s.fchain 0).test = none → c.u 20 4 = 0 → 
      ∃ t, exec (.fieldTest c) s = .next t ∧ ended 0x0607 c s {} { s with front := (startLock 2 (startLock 3 s)).front, field.chains := Bank.modify s.field.chains 0 (fun x => { x with test := some (3, c.u 18 1, c.u 19 1, 0) }) } t) ∧
  -- FIELD_TEST on an enabled band: DENIED
  (∀ (c : Cmd) (s : State), readyFor c s = true → goodTable [fRange 16 1 0 3, fRange 17 1 0 1, fAny 18 1, fSigned 19 1 (-40) 20, fAny 20 4] c = true → c.u 17 1 = 0 → 11 ≤ c.u 18 1 ∧ c.u 18 1 ≤ 26 → bandOn s 0 = true → 
      ∃ t, exec (.fieldTest c) s = .next t ∧ ended 0x0607 c s { status := 6, detail := 0xFF } s t) ∧
  -- FIELD_COUNTERS of a band or channel, clearing nothing
  (∀ (c : Cmd) (s : State), readyFor c s = true → goodTable [fRange 16 1 0 18, fMask 17 1 3, fAny 18 2, fMask 20 1 7, fZero 21 3] c = true → c.u 16 1 ≤ 1 → c.u 17 1 = 0 → 
      ∃ t, exec (.fieldCounters c) s = .next t ∧ ended 0x0608 c s { body := le 4 0 ++ le 1 (fieldsWord [(0, bit s.field.fcLowStk), (1, bit s.field.rdvLostStk), (2, bit s.field.replayStk)]) ++ le 3 0 ++ ((List.range 30).map (fun i => le 4 (tallyOf s.field.counts (256 * c.u 16 1 + (24 + 4 * i))))).flatten } s t) ∧
  -- FIELD_COUNTERS of a channel, clearing its counters and all sticky bits
  (∀ (c : Cmd) (s : State), readyFor c s = true → goodTable [fRange 16 1 0 18, fMask 17 1 3, fAny 18 2, fMask 20 1 7, fZero 21 3] c = true → c.u 16 1 = 6 → c.u 17 1 = 3 → c.u 20 1 = 7 → 
      ∃ t, exec (.fieldCounters c) s = .next t ∧ ended 0x0608 c s { body := le 4 0 ++ le 1 (fieldsWord [(0, bit s.field.fcLowStk), (1, bit s.field.rdvLostStk), (2, bit s.field.replayStk)]) ++ le 3 0 ++ ((List.range 30).map (fun i => le 4 (tallyOf s.field.counts (256 * 15 + (24 + 4 * i))))).flatten } { s with field.counts := s.field.counts.filter (fun e => e.1 / 256 ≠ 15), field.fcLowStk := false, field.rdvLostStk := false, field.replayStk := false } t)

/-- The PHY commands of the wide radios complete. Each command of 0x0501 to 0x0507, sent READY with good fields and
accepted at once, is answered with the fields of its table or waits for its channel change; settings are staged for
the next commit window, a test starts at once. -/
def Obligations.WidePhyCommandsComplete : Prop :=
  -- WIDE_CHAN_SET: the change is pending, due at the next commit window, or, announced by an AP, when its count of beacons has run; committed at once unless a CAC stands before it
  (∀ (c : Cmd) (g : WideChan) (s : State), readyFor c s = true → goodTable [fRange 16 1 0 1, fAny 17 1, fAny 18 1, fRange 19 1 0 5, fAny 20 2, fMask 22 1 0xF, fRange 23 1 0 3, fMask 24 1 1, fAny 25 1, fZero 26 2] c = true → g = { band := c.u 17 1, primary := c.u 18 1, width := c.u 19 1, puncture := c.u 20 2, chainMax := c.u 22 1, listenChain := c.u 23 1 } → badChan (c.u 16 1) g (c.flag 24 1 0) (c.u 25 1) = none → (radarChan g = false ∨ (powerCfg s (c.u 16 1)).regDomain ≠ 0) → chanBarred s g = false → (pairRule s = false ∨ (chanTargets s (1 - c.u 16 1)).all (pairOk g) = true) → (s.wr (c.u 16 1)).move = none → 
      ∃ t, exec (.wideChanSet c) s = .next t ∧ opened 0x0501 c s (cacBeats s (c.u 16 1) g).isNone { s with wide.radios := Bank.modify s.wide.radios (c.u 16 1) (fun w => { w with move := some { chan := g, job := some s.stw.nextJob, csa := if (c.flag 24 1 0 && apOn s (c.u 16 1)) = true then some (c.u 25 1) else none, eff := if (c.flag 24 1 0 && apOn s (c.u 16 1)) = true then none else some (s.beat + 1), back := chanCfg s (c.u 16 1) } }) } t) ∧
  -- WIDE_CHAN_SET in place of a change that no command asked for (a move away from a radar, the check of a radio that opens): it gives way, its last beat and its check stay
  (∀ (c : Cmd) (g : WideChan) (m : ChanMove) (s : State), readyFor c s = true → goodTable [fRange 16 1 0 1, fAny 17 1, fAny 18 1, fRange 19 1 0 5, fAny 20 2, fMask 22 1 0xF, fRange 23 1 0 3, fMask 24 1 1, fAny 25 1, fZero 26 2] c = true → g = { band := c.u 17 1, primary := c.u 18 1, width := c.u 19 1, puncture := c.u 20 2, chainMax := c.u 22 1, listenChain := c.u 23 1 } → badChan (c.u 16 1) g (c.flag 24 1 0) (c.u 25 1) = none → (radarChan g = false ∨ (powerCfg s (c.u 16 1)).regDomain ≠ 0) → chanBarred s g = false → (pairRule s = false ∨ (chanTargets s (1 - c.u 16 1)).all (pairOk g) = true) → (s.wr (c.u 16 1)).move = some m → m.job = none → (c.flag 24 1 0 && apOn s (c.u 16 1)) = false → 
      ∃ t, exec (.wideChanSet c) s = .next t ∧ opened 0x0501 c s (cacBeats s (c.u 16 1) g).isNone { s with wide.radios := Bank.modify s.wide.radios (c.u 16 1) (fun w => { w with move := some { chan := g, job := some s.stw.nextJob, eff := some (s.beat + 1), back := chanCfg s (c.u 16 1), latest := m.latest, cacEnd := m.cacEnd } }) } t) ∧
  -- WIDE_CHAN_SET that breaks the rule of a pair of links: UNSUPPORTED
  (∀ (c : Cmd) (g : WideChan) (s : State), readyFor c s = true → goodTable [fRange 16 1 0 1, fAny 17 1, fAny 18 1, fRange 19 1 0 5, fAny 20 2, fMask 22 1 0xF, fRange 23 1 0 3, fMask 24 1 1, fAny 25 1, fZero 26 2] c = true → g = { band := c.u 17 1, primary := c.u 18 1, width := c.u 19 1, puncture := c.u 20 2, chainMax := c.u 22 1, listenChain := c.u 23 1 } → badChan (c.u 16 1) g (c.flag 24 1 0) (c.u 25 1) = none → (radarChan g = false ∨ (powerCfg s (c.u 16 1)).regDomain ≠ 0) → chanBarred s g = false → pairRule s = true → (chanTargets s (1 - c.u 16 1)).all (pairOk g) = false → 
      ∃ t, exec (.wideChanSet c) s = .next t ∧ ended 0x0501 c s { status := 2, detail := 0x10 } s t) ∧
  -- WIDE_CHAN_SET while another WIDE_CHAN_SET of that radio is open: BUSY
  (∀ (c : Cmd) (g : WideChan) (s : State), readyFor c s = true → goodTable [fRange 16 1 0 1, fAny 17 1, fAny 18 1, fRange 19 1 0 5, fAny 20 2, fMask 22 1 0xF, fRange 23 1 0 3, fMask 24 1 1, fAny 25 1, fZero 26 2] c = true → g = { band := c.u 17 1, primary := c.u 18 1, width := c.u 19 1, puncture := c.u 20 2, chainMax := c.u 22 1, listenChain := c.u 23 1 } → badChan (c.u 16 1) g (c.flag 24 1 0) (c.u 25 1) = none → (radarChan g = false ∨ (powerCfg s (c.u 16 1)).regDomain ≠ 0) → chanBarred s g = false → (pairRule s = false ∨ (chanTargets s (1 - c.u 16 1)).all (pairOk g) = true) → (s.wr (c.u 16 1)).move.any (fun m => m.job.isSome) = true → 
      ∃ t, exec (.wideChanSet c) s = .next t ∧ ended 0x0501 c s { status := 1 } s t) ∧
  -- WIDE_CHAN_SET of a barred channel: DENIED
  (∀ (c : Cmd) (g : WideChan) (s : State), readyFor c s = true → goodTable [fRange 16 1 0 1, fAny 17 1, fAny 18 1, fRange 19 1 0 5, fAny 20 2, fMask 22 1 0xF, fRange 23 1 0 3, fMask 24 1 1, fAny 25 1, fZero 26 2] c = true → g = { band := c.u 17 1, primary := c.u 18 1, width := c.u 19 1, puncture := c.u 20 2, chainMax := c.u 22 1, listenChain := c.u 23 1 } → badChan (c.u 16 1) g (c.flag 24 1 0) (c.u 25 1) = none → (radarChan g = false ∨ (powerCfg s (c.u 16 1)).regDomain ≠ 0) → chanBarred s g = true → 
      ∃ t, exec (.wideChanSet c) s = .next t ∧ ended 0x0501 c s { status := 6, detail := 0xFF } s t) ∧
  -- WIDE_CHAN_SET of a channel in the radar bands without a regulatory domain: DENIED
  (∀ (c : Cmd) (g : WideChan) (s : State), readyFor c s = true → goodTable [fRange 16 1 0 1, fAny 17 1, fAny 18 1, fRange 19 1 0 5, fAny 20 2, fMask 22 1 0xF, fRange 23 1 0 3, fMask 24 1 1, fAny 25 1, fZero 26 2] c = true → g = { band := c.u 17 1, primary := c.u 18 1, width := c.u 19 1, puncture := c.u 20 2, chainMax := c.u 22 1, listenChain := c.u 23 1 } → badChan (c.u 16 1) g (c.flag 24 1 0) (c.u 25 1) = none → radarChan g = true → (powerCfg s (c.u 16 1)).regDomain = 0 → 
      ∃ t, exec (.wideChanSet c) s = .next t ∧ ended 0x0501 c s { status := 6, detail := 0xFF } s t) ∧
  -- WIDE_TXPWR_CONFIG that leaves every chain at or above −30 dBm
  (∀ (c : Cmd) (g : WidePower) (s : State), readyFor c s = true → goodTable [fRange 16 1 0 1, fMask 17 1 3, fRange 18 1 0 2, fZero 19 1, fAny 20 2, fAny 22 2, fAny 24 2, fZero 26 2, fAny 28 8, fAny 36 8, fZero 44 4] c = true → g = { closedLoop := c.flag 17 1 0, grant := c.flag 17 1 1, regDomain := c.u 18 1, maxEirp := c.i 20 2, maxPsd := c.i 22 2, antGain := c.i 24 2, femGain := [c.i 28 2, c.i 30 2, c.i 32 2, c.i 34 2], expiry := c.u 36 8 } → powerTooLow g (chanCfg s (c.u 16 1)).chainMax = false → 
      ∃ t, exec (.wideTxpwrConfig c) s = .next t ∧ ended 0x0502 c s {} { s with next.wide.power := Map.set s.next.wide.power (c.u 16 1) g } t) ∧
  -- WIDE_RX_CONFIG
  (∀ (c : Cmd) (s : State), readyFor c s = true → goodTable [fRange 16 1 0 1, fRange 17 1 3 10, fRange 18 1 6 20, fMask 19 1 7, fSigned 20 1 (-92) (-72), fSigned 21 1 (-72) (-52), fSigned 22 1 (-82) (-62), fZero 23 1] c = true → 
      ∃ t, exec (.wideRxConfig c) s = .next t ∧ ended 0x0503 c s {} { s with next.wide.rx := Map.set s.next.wide.rx (c.u 16 1) { restart := c.u 17 1, capture := c.u 18 1, captureEn := c.flag 19 1 0, obssEn := c.flag 19 1 1, monitor := c.flag 19 1 2, pd := c.i 20 1, ed := c.i 21 1, obssPd := c.i 22 1 } } t) ∧
  -- WIDE_MLD_PAIR of two channels 200 MHz or more apart
  (∀ (c : Cmd) (n : Nat) (s : State), readyFor c s = true → goodTable [fMask 16 1 1, fZero 17 3] c = true → chanGap (chanCfg s 0) (chanCfg s 1) = some n → 200 ≤ n → 
      ∃ t, exec (.wideMldPair c) s = .next t ∧ ended 0x0504 c s { body := le 2 n ++ [0, 0] } { s with next.wide.pair := c.flag 16 1 0 } t) ∧
  -- WIDE_MLD_PAIR of channels nearer than 200 MHz: UNSUPPORTED
  (∀ (c : Cmd) (s : State), readyFor c s = true → goodTable [fMask 16 1 1, fZero 17 3] c = true → c.flag 16 1 0 = true → pairOk (chanCfg s 0) (chanCfg s 1) = false → 
      ∃ t, exec (.wideMldPair c) s = .next t ∧ ended 0x0504 c s { status := 2, detail := 0x10 } s t) ∧
  -- WIDE_FTM_CONFIG
  (∀ (c : Cmd) (s : State), readyFor c s = true → goodTable [fRange 16 1 0 1, fMask 17 1 3, fRange 18 1 1 32, fRange 19 1 2 16, fRange 20 2 300 10000, fZero 22 2] c = true → 
      ∃ t, exec (.wideFtmConfig c) s = .next t ∧ ended 0x0505 c s {} { s with next.wide.ftm := Map.set s.next.wide.ftm (c.u 16 1) { responder := c.flag 17 1 0, timing := c.flag 17 1 1, maxSessions := c.u 18 1, maxPerBurst := c.u 19 1, minDelta := c.u 20 2 } } t) ∧
  -- WIDE_TEST in mode 3 on a radio that carries no role: the receiver runs on the chains named until the beat named
  (∀ (c : Cmd) (s : State), readyFor c s = true → goodTable [fRange 16 1 0 1, fRange 17 1 0 3, fMask 18 1 0xF, fRange 19 1 0 5, fAny 20 1, fAny 21 1, fRange 22 1 0 5, fZero 23 1, fSigned 24 2 (-120) 24, fZero 26 2, fRange 28 4 100 65535, fAny 32 4] c = true → c.u 16 1 = 0 → c.u 17 1 = 3 → badTest 0 (chanCfg s 0) { format := c.u 19 1, mcs := c.u 20 1, nss := c.u 21 1, width := c.u 22 1 } (c.u 18 1) (c.i 24 2) = none → s.kept.wide.bss = [] ∧ s.next.wide.bss = [] → s.kept.wide.upstream = [] ∧ s.next.wide.upstream = [] → (chanCfg s 0).band = 1 → Map.get? s.front.tx 32 = none → c.u 32 4 ≠ 0 → 
      ∃ t, exec (.wideTest c) s = .next t ∧ answered 0x0506 s.beat c {} t ∧ (t.wr 0).test = some (3, c.u 18 1) ∧ (t.wr 0).testEnd = s.beat + c.u 32 4 ∧ (t.wr 0).chains = c.u 18 1 ∧ t.kept = s.kept ∧ t.plan = s.plan ∧ t.mem = s.mem) ∧
  -- WIDE_TEST of a radio that carries a BSS: DENIED
  (∀ (c : Cmd) (g : Bss) (s : State), readyFor c s = true → goodTable [fRange 16 1 0 1, fRange 17 1 0 3, fMask 18 1 0xF, fRange 19 1 0 5, fAny 20 1, fAny 21 1, fRange 22 1 0 5, fZero 23 1, fSigned 24 2 (-120) 24, fZero 26 2, fRange 28 4 100 65535, fAny 32 4] c = true → c.u 16 1 = 0 → badTest 0 (chanCfg s 0) { format := c.u 19 1, mcs := c.u 20 1, nss := c.u 21 1, width := c.u 22 1 } (c.u 18 1) (c.i 24 2) = none → s.kept.wide.bss = [(0, g)] → g.enable = true → 
      ∃ t, exec (.wideTest c) s = .next t ∧ ended 0x0506 c s { status := 6, detail := 0xFF } s t) ∧
  -- WIDE_PHY_COUNTERS, clearing them and two sticky bits
  (∀ (c : Cmd) (s : State), readyFor c s = true → goodTable [fRange 16 1 0 1, fMask 17 1 3, fMask 18 1 7, fZero 19 1] c = true → c.u 17 1 = 3 → c.u 18 1 = 6 → 
      ∃ t, exec (.widePhyCounters c) s = .next t ∧ ended 0x0507 c s { body := le 1 (fieldsWord [(0, bit (s.wr (c.u 16 1)).tpcStk), (1, bit (s.wr (c.u 16 1)).grantStk), (2, bit (s.wr (c.u 16 1)).radarStk)]) ++ [0, 0, 0] ++ tallyBytes (s.wr (c.u 16 1)).phyCounts 20 20 } { s with wide.radios := Bank.modify s.wide.radios (c.u 16 1) (fun w => { w with phyCounts := [], grantStk := false, radarStk := false }) } t)

/-- The access commands of the wide radios complete. Each command of 0x0510 to 0x051A, sent READY with good fields and
accepted at once, is answered with the fields of its table or waits for its frame; settings are staged for the next
commit window, key entries for the next one. -/
def Obligations.WideAccessCommandsComplete : Prop :=
  -- WIDE_BSS_SET of BSS 0
  (∀ (c : Cmd) (s : State), readyFor c s = true → goodTable [fRange 16 1 0 1, fRange 17 1 0 7, fMask 18 2 0x1F, fAny 20 6, fRange 26 1 1 255, fRange 27 1 1 63, fRange 28 2 1 512, fRange 30 1 0 3, fZero 31 1, fAny 32 2, fRange 34 2 20 400, fRange 36 2 0 400, fZero 38 2] c = true → c.u 17 1 = 0 → c.u 32 2 = 0 → 
      ∃ t, exec (.wideBssSet c) s = .next t ∧ ended 0x0510 c s {} { s with next.wide.bss := Map.set s.next.wide.bss (8 * c.u 16 1) { enable := c.flag 18 2 0, ulTrigOnly := c.flag 18 2 1, mfp := c.flag 18 2 2, fourAddr := c.flag 18 2 3, hidden := c.flag 18 2 4, bssid := macAt c 20, dtim := c.u 26 1, colour := c.u 27 1, maxSta := c.u 28 2 }, next.wide.beacon := Map.set s.next.wide.beacon (c.u 16 1) { interval := c.u 30 1, phase := 0, offset := c.u 34 2, maxDelay := c.u 36 2 } } t) ∧
  -- WIDE_BSS_SET that enables another BSS while BSS 0 is disabled: BAD_ARG
  (∀ (c : Cmd) (s : State), readyFor c s = true → goodTable [fRange 16 1 0 1, fRange 17 1 0 7, fMask 18 2 0x1F, fAny 20 6, fRange 26 1 1 255, fRange 27 1 1 63, fRange 28 2 1 512, fRange 30 1 0 3, fZero 31 1, fAny 32 2, fRange 34 2 20 400, fRange 36 2 0 400, fZero 38 2] c = true → c.u 17 1 = 3 → c.flag 18 2 0 = true → s.next.wide.bss = [] → 
      ∃ t, exec (.wideBssSet c) s = .next t ∧ ended 0x0510 c s { status := 3, detail := 18 } s t) ∧
  -- WIDE_UPSTREAM_SET of an access point that the radio has not heard
  (∀ (c : Cmd) (s : State), readyFor c s = true → goodTable [fRange 16 1 0 1, fMask 17 1 3, fAny 18 6, fAny 24 6, fRange 30 1 0 1, fAny 31 1, fRange 32 2 1 48, fZero 34 2] c = true → Map.get? s.wide.heard (macAt c 24) = none → 
      ∃ t, exec (.wideUpstreamSet c) s = .next t ∧ ended 0x0511 c s {} { s with next.wide.upstream := Map.set s.next.wide.upstream (c.u 16 1) { enable := c.flag 17 1 0, mld := c.flag 17 1 1, sta := macAt c 18, ap := macAt c 24, pmMode := c.u 30 1, neighbour := c.u 31 1, share := c.u 32 2 } } t) ∧
  -- WIDE_UPSTREAM_SET of an access point heard on another primary channel: BAD_ARG
  (∀ (c : Cmd) (n : Nat) (s : State), readyFor c s = true → goodTable [fRange 16 1 0 1, fMask 17 1 3, fAny 18 6, fAny 24 6, fRange 30 1 0 1, fAny 31 1, fRange 32 2 1 48, fZero 34 2] c = true → Map.get? s.wide.heard (macAt c 24) = some n → n ≠ 256 * (chanCfg s (c.u 16 1)).band + (chanCfg s (c.u 16 1)).primary → 
      ∃ t, exec (.wideUpstreamSet c) s = .next t ∧ ended 0x0511 c s { status := 3, detail := 24 } s t) ∧
  -- WIDE_ACCESS_CONFIG
  (∀ (c : Cmd) (s : State), readyFor c s = true → goodTable [fRange 16 1 0 1, fRange 17 1 1 31, fRange 18 1 1 15, fAny 19 1, fRange 20 2 1 65535, fRange 22 2 1 65535, fRange 24 2 1 65535, fRange 26 2 1 65535, fRange 28 2 16 4096, fRange 30 2 100 65535, fRange 32 2 1 1000, fRange 34 2 50 900] c = true → 
      ∃ t, exec (.wideAccessConfig c) s = .next t ∧ ended 0x0512 c s {} { s with next.wide.access := Map.set s.next.wide.access (c.u 16 1) { retryLimit := c.u 17 1, tbMissLimit := c.u 18 1, noshowLimit := c.u 19 1, lifetime := [c.u 20 2, c.u 22 2, c.u 24 2, c.u 26 2], psMaxFrames := c.u 28 2, psLifetime := c.u 30 2, reorder := c.u 32 2, noshowUs := c.u 34 2 } } t) ∧
  -- WIDE_CLIENT_GET of an entry
  (∀ (c : Cmd) (x : Client) (s : State), readyFor c s = true → goodTable [fAny 16 2, fZero 18 2] c = true → Map.get? s.wide.clients (c.u 16 2) = some x → 
      ∃ t, exec (.wideClientGet c) s = .next t ∧ ended 0x0513 c s { body := clientBytes s (c.u 16 2) x } s t) ∧
  -- WIDE_CLIENT_GET of an entry that does not exist: BAD_ARG
  (∀ (c : Cmd) (s : State), readyFor c s = true → goodTable [fAny 16 2, fZero 18 2] c = true → Map.get? s.wide.clients (c.u 16 2) = none → 
      ∃ t, exec (.wideClientGet c) s = .next t ∧ ended 0x0513 c s { status := 3, detail := 16 } s t) ∧
  -- WIDE_CLIENT_DEL of a client with nothing waiting: its entry, links and agreements go at once, the deauthentication frame waits and the answer with it
  (∀ (c : Cmd) (x : Client) (s : State), readyFor c s = true → goodTable [fAny 16 2, fAny 18 2] c = true → Map.get? s.wide.clients (c.u 16 2) = some x → x.kind ≠ 2 ∧ x.link1 = 0xFFFF → s.plan.queues = [] → s.kept.plan.queues = [] → poolFits s 1 (chargeOf s 0x3F02 (.eth { da := x.addr, etherType := 0, len := deauthLen }) 0).charge = true → 
      ∃ u, (u.wide.clients = Map.erase s.wide.clients (c.u 16 2) ∧ u.wide.links = s.wide.links.filter (fun e => e.2.client ≠ c.u 16 2) ∧ u.wide.twt = s.wide.twt.filter (fun e => e.2.client ≠ c.u 16 2) ∧ u.wide.dels = s.wide.dels ++ [{ job := s.stw.nextJob, client := c.u 16 2, due := s.beat + 100 }] ∧ (u.queue 0x3F02).frames.map (·.job) = [some s.stw.nextJob] ∧ u.field = s.field ∧ u.pole = s.pole ∧ u.wired = s.wired ∧ u.time = s.time) ∧ ∃ t, exec (.wideClientDel c) s = .next t ∧ opened 0x0514 c s true u t) ∧
  -- WIDE_CLIENT_DEL of any station, whatever waits for it: its entry is gone, the answer waits
  (∀ (c : Cmd) (x : Client) (s : State), readyFor c s = true → goodTable [fAny 16 2, fAny 18 2] c = true → Map.get? s.wide.clients (c.u 16 2) = some x → x.kind ≠ 2 → 
      ∃ t, exec (.wideClientDel c) s = .next t ∧ (t.slot c.lane c.slot).phase = .held ∧ Map.get? t.wide.clients (c.u 16 2) = none ∧ t.wide.dels.getLast? = some { job := s.stw.nextJob, client := c.u 16 2, due := s.beat + 100 }) ∧
  -- WIDE_CLIENT_DEL of an entry that does not exist: BAD_ARG
  (∀ (c : Cmd) (s : State), readyFor c s = true → goodTable [fAny 16 2, fAny 18 2] c = true → Map.get? s.wide.clients (c.u 16 2) = none → 
      ∃ t, exec (.wideClientDel c) s = .next t ∧ ended 0x0514 c s { status := 3, detail := 16 } s t) ∧
  -- WIDE_KEY_INSTALL of a WLAN key into an entry that nobody holds: it waits for the next commit window
  (∀ (c : Cmd) (s : State), readyFor c s = true → goodTable [fRange 16 2 0 4351, fRange 18 1 1 9, fAny 19 1, fMask 20 1 7, fRange 21 1 0 2, fAny 22 2, fAny 24 8, fAny 32 8, fAny 40 32] c = true → c.lane < 2 → badKey c = none → c.u 18 1 < 9 → keyEntry s (c.u 16 2) = none → 
      ∃ t, exec (.wideKeyInstall c) s = .next t ∧ ended 0x0515 c s {} { s with next.wide.fieldKeys := Map.erase s.next.wide.fieldKeys (c.u 16 2), wide.keysNext := Map.set s.wide.keysNext (c.u 16 2) { owner := laneOwner c.lane, cipher := c.u 18 1, keyId := c.u 19 1, txActive := c.flag 20 1 0, rxEnable := c.flag 20 1 1, setPn := c.flag 20 1 2, radio := c.u 21 1, client := c.u 22 2, txPn := if c.flag 20 1 2 then c.u 24 8 else 0, keySource := c.u 32 8, key := (c.bytesAt 40 32).take (keyBytes (c.u 18 1)) } } t) ∧
  -- WIDE_KEY_INSTALL of any key into an entry that is empty or the sender's own: a field key is accepted for the next commit window, a WLAN key waits for it
  (∀ (c : Cmd) (e : KeyEntry) (s : State), readyFor c s = true → goodTable [fRange 16 2 0 4351, fRange 18 1 1 9, fAny 19 1, fMask 20 1 7, fRange 21 1 0 2, fAny 22 2, fAny 24 8, fAny 32 8, fAny 40 32] c = true → c.lane < 2 → badKey c = none → (keyEntry s (c.u 16 2)).all (fun x => decide (x.owner = laneOwner c.lane)) = true → e = { owner := laneOwner c.lane, cipher := c.u 18 1, keyId := c.u 19 1, txActive := c.flag 20 1 0, rxEnable := c.flag 20 1 1, setPn := c.flag 20 1 2, radio := c.u 21 1, client := c.u 22 2, txPn := if c.flag 20 1 2 then c.u 24 8 else 0, keySource := c.u 32 8, key := (c.bytesAt 40 32).take (keyBytes (c.u 18 1)) } → 
      ∃ t, exec (.wideKeyInstall c) s = .next t ∧ answered 0x0515 s.beat c {} t ∧ (if c.u 18 1 = 9 then Map.get? t.next.wide.fieldKeys (c.u 16 2) else Map.get? t.wide.keysNext (c.u 16 2)) = some e) ∧
  -- WIDE_KEY_INSTALL into an entry that another lane holds: DENIED, the holder's number in DETAIL
  (∀ (c : Cmd) (e : KeyEntry) (s : State), readyFor c s = true → goodTable [fRange 16 2 0 4351, fRange 18 1 1 9, fAny 19 1, fMask 20 1 7, fRange 21 1 0 2, fAny 22 2, fAny 24 8, fAny 32 8, fAny 40 32] c = true → c.lane < 2 → badKey c = none → keyEntry s (c.u 16 2) = some e → e.owner ≠ laneOwner c.lane → 
      ∃ t, exec (.wideKeyInstall c) s = .next t ∧ ended 0x0515 c s { status := 6, detail := e.owner } s t) ∧
  -- WIDE_KEY_DEL of an entry that is empty
  (∀ (c : Cmd) (s : State), readyFor c s = true → goodTable [fRange 16 2 0 4351, fZero 18 2] c = true → keyEntry s (c.u 16 2) = none → 
      ∃ t, exec (.wideKeyDel c) s = .next t ∧ ended 0x0516 c s {} s t) ∧
  -- WIDE_KEY_DEL of the sender's own WLAN entry under which nothing waits: the entry is empty, no client names it
  (∀ (c : Cmd) (e : KeyEntry) (s : State), readyFor c s = true → goodTable [fRange 16 2 0 4351, fZero 18 2] c = true → Map.get? s.wide.keysNext (c.u 16 2) = none → Map.get? s.wide.keys (c.u 16 2) = some e → e.owner = laneOwner c.lane → e.cipher < 9 → s.plan.queues = [] → 
      ∃ t, exec (.wideKeyDel c) s = .next t ∧ ended 0x0516 c s {} { s with next.wide.fieldKeys := Map.erase s.next.wide.fieldKeys (c.u 16 2), wide.keys := Map.erase s.wide.keys (c.u 16 2), wide.keysNext := Map.erase s.wide.keysNext (c.u 16 2), wide.clients := s.wide.clients.map (fun x => (x.1, { x.2 with key0 := if x.2.key0 = c.u 16 2 then 0xFFFF else x.2.key0, key1 := if x.2.key1 = c.u 16 2 then 0xFFFF else x.2.key1 })) } t) ∧
  -- WIDE_KEY_DEL of any entry of the sender's own, whatever waits under it: the entry is empty
  (∀ (c : Cmd) (e : KeyEntry) (s : State), readyFor c s = true → goodTable [fRange 16 2 0 4351, fZero 18 2] c = true → keyEntry s (c.u 16 2) = some e → e.owner = laneOwner c.lane → 
      ∃ t, exec (.wideKeyDel c) s = .next t ∧ (t.slot c.lane c.slot).phase = .done ∧ Map.get? t.wide.keys (c.u 16 2) = none ∧ Map.get? t.wide.keysNext (c.u 16 2) = none ∧ Map.get? t.next.wide.fieldKeys (c.u 16 2) = none) ∧
  -- WIDE_KEY_INFO of a WLAN entry: never the key
  (∀ (c : Cmd) (e : KeyEntry) (s : State), readyFor c s = true → goodTable [fRange 16 2 0 4351] c = true → keyEntry s (c.u 16 2) = some e → e.cipher < 9 → 
      ∃ t, exec (.wideKeyInfo c) s = .next t ∧ ended 0x0517 c s { body := le 1 e.cipher ++ le 1 e.keyId ++ le 1 (bit e.txActive + 2 * bit e.rxEnable + 4 * bit e.setPn) ++ le 1 e.radio ++ le 1 e.owner ++ [0, 0, 0] ++ le 8 e.txPn ++ le 8 (Map.getD e.rxPn 16 0) } s t) ∧
  -- WIDE_TWT_SET of a broadcast schedule that is enabled
  (∀ (c : Cmd) (s : State), readyFor c s = true → goodTable [fRange 16 1 0 1, fRange 17 1 0 7, fRange 18 1 0 1, fRange 19 1 1 8, fMask 20 1 7, fAny 21 1, fRange 22 2 20 900, fRange 24 2 1 65535, fAny 26 2, fRange 28 4 256 254976] c = true → c.u 18 1 = 0 → twtInterval (c.u 24 2) ≤ 65535 → c.u 26 2 < c.u 24 2 → c.u 28 4 ≤ 65280 ∧ c.u 28 4 % 256 = 0 → c.flag 20 1 0 = true → 
      ∃ t, exec (.wideTwtSet c) s = .next t ∧ ended 0x0518 c s {} { s with next.wide.twt := Map.set s.next.wide.twt (((c.u 16 1 * 8 + c.u 17 1) * 2) * 16 + c.u 19 1) { announced := c.flag 20 1 1, trigger := c.flag 20 1 2, tids := c.u 21 1, phase := c.u 22 2, interval := twtInterval (c.u 24 2), offset := c.u 26 2, duration := c.u 28 4 } } t) ∧
  -- WIDE_NEIGHBOUR_SET of role 0
  (∀ (c : Cmd) (s : State), readyFor c s = true → goodTable [fAny 16 1, fMask 17 1 3, fRange 18 1 0 2, fRange 19 1 0 1, fAny 20 6, fAny 26 2] c = true → c.u 18 1 = 0 → c.u 26 2 ≤ 1023 → 
      ∃ t, exec (.wideNeighbourSet c) s = .next t ∧ ended 0x0519 c s {} { s with next.wide.neighbours := Map.set s.next.wide.neighbours (c.u 16 1) { enable := c.flag 17 1 0, learn := c.flag 17 1 1, role := 0, radio := c.u 19 1, addr := macAt c 20, client := c.u 26 2 } } t) ∧
  -- WIDE_ACCESS_COUNTERS of a radio, without a clear
  (∀ (c : Cmd) (s : State), readyFor c s = true → goodTable [fRange 16 1 0 1, fOneOf 17 1 ([0, 1, 2, 3, 4, 5, 6, 7, 0xFF]), fMask 18 1 3, fMask 19 1 7] c = true → c.u 17 1 = 0xFF → c.u 18 1 = 0 → 
      ∃ t, exec (.wideAccessCounters c) s = .next t ∧ ended 0x051A c s { body := le 1 (fieldsWord [(0, bit (s.wr (c.u 16 1)).pnLowStk), (1, bit (s.wr (c.u 16 1)).micStk), (2, bit (s.wr (c.u 16 1)).noshowStk)]) ++ [0, 0, 0] ++ le 8 (tallyOf (s.wr (c.u 16 1)).counts 65300) ++ le 8 (tallyOf (s.wr (c.u 16 1)).counts 65308) ++ ((List.range 26).map (fun i => le 4 (tallyOf (s.wr (c.u 16 1)).counts (65280 + (36 + 4 * i))))).flatten } s t)

/-- What the wide receivers do of themselves. A detection, a capture, an abandoned acquisition, the end of the SIG
fields, a lost carrier and a received PPDU each take the receiver on and count as Table 4-19 says; where a clause
gives the whole state, nothing else changes. -/
def Obligations.WidePhyEventsTakeEffect : Prop :=
  -- WIDE_DETECT of a preamble at the threshold or above, the receiver idle: it acquires
  (∀ (r ago : Nat) (strength : Int) (lsig : Option (Nat × Nat)) (s : State), alive s = true → wideHears s r = true → preambleThreshold s r false ≤ strength → (s.wr r).rx = .idle → 
      ∃ t, exec (.wideDetect r strength ago { lsig := lsig }) s = .next t ∧ became { s with wide.radios := Bank.modify s.wide.radios r (fun x => { x with rx := .acquiring s.time.mono strength (s.time.mono - ago) false ((lsig.map (fun x => (s.time.mono - ago + x.1, s.time.mono - ago + x.1 + x.2))).filter (fun x => decide (x.1 ≤ s.time.mono + 24000))) (rxStamps s r (s.time.mono - ago)) }) } t) ∧
  -- WIDE_DETECT of a preamble stronger by RESTART dB, its start more than 100 ns from the one that is being acquired, before L-SIG: the acquisition starts afresh
  (∀ (r ago t0 st : Nat) (p strength : Int) (d : Bool) (ss : List (Stamp × Bool)) (lsig : Option (Nat × Nat)) (s : State), alive s = true → wideHears s r = true → preambleThreshold s r false ≤ strength → (s.wr r).rx = .acquiring t0 p st d none ss → p + (wrxCfg s r).restart ≤ strength → st + 100 < s.time.mono - ago → 
      ∃ t, exec (.wideDetect r strength ago { lsig := lsig }) s = .next t ∧ became { s with wide.radios := Bank.modify s.wide.radios r (fun x => { x with busy := x.busy ++ [(t0, s.time.mono)], busyUntil := max x.busyUntil s.time.mono, phyCounts := tally x.phyCounts 28, rx := .acquiring s.time.mono strength (s.time.mono - ago) false ((lsig.map (fun x => (s.time.mono - ago + x.1, s.time.mono - ago + x.1 + x.2))).filter (fun x => decide (x.1 ≤ s.time.mono + 24000))) (rxStamps s r (s.time.mono - ago)) }) } t) ∧
  -- WIDE_DETECT of a preamble stronger by CAPTURE dB after L-SIG and before the end of the SIG fields: the reception ends CAPTURED, the receiver acquires the new one
  (∀ (r ago t0 st le' fin : Nat) (p strength : Int) (d : Bool) (ss : List (Stamp × Bool)) (lsig : Option (Nat × Nat)) (s : State), alive s = true → wideHears s r = true → preambleThreshold s r false ≤ strength → (s.wr r).rx = .acquiring t0 p st d (some (le', fin)) ss → le' ≤ s.time.mono → (wrxCfg s r).captureEn = true → (wrxCfg s r).monitor = false → p + (wrxCfg s r).capture ≤ strength → 
      ∃ t, exec (.wideDetect r strength ago { lsig := lsig }) s = .next t ∧ became { s with wide.radios := Bank.modify s.wide.radios r (fun x => { x with busy := x.busy ++ [(t0, s.time.mono)], busyUntil := max x.busyUntil s.time.mono, phyCounts := tally x.phyCounts 32, rxNext := .idle, rx := .acquiring s.time.mono strength (s.time.mono - ago) false ((lsig.map (fun x => (s.time.mono - ago + x.1, s.time.mono - ago + x.1 + x.2))).filter (fun x => decide (x.1 ≤ s.time.mono + 24000))) (rxStamps s r (s.time.mono - ago)) }) } t) ∧
  -- WIDE_DETECT of a preamble stronger by CAPTURE dB before the last symbol: the reception ends CAPTURED, the receiver acquires the new one
  (∀ (r ago e l : Nat) (p strength : Int) (st : Stamp) (stale : Bool) (lsig : Option (Nat × Nat)) (s : State), alive s = true → wideHears s r = true → preambleThreshold s r false ≤ strength → (s.wr r).rx = .receiving p st stale false e l → (wrxCfg s r).captureEn = true → (wrxCfg s r).monitor = false → p + (wrxCfg s r).capture ≤ strength → s.time.mono < l → 
      ∃ t, exec (.wideDetect r strength ago { lsig := lsig }) s = .next t ∧ became { s with wide.radios := Bank.modify s.wide.radios r (fun x => { x with phyCounts := tally x.phyCounts 32, rxNext := .idle, busyUntil := if x.busyUntil = e then s.time.mono else x.busyUntil, rx := .acquiring s.time.mono strength (s.time.mono - ago) false ((lsig.map (fun x => (s.time.mono - ago + x.1, s.time.mono - ago + x.1 + x.2))).filter (fun x => decide (x.1 ≤ s.time.mono + 24000))) (rxStamps s r (s.time.mono - ago)) }) } t) ∧
  -- WIDE_ACQ_ABANDON of an acquisition without an L-SIG: 24 µs after the detection it counts as a false detection
  (∀ (r t0 st : Nat) (p : Int) (ss : List (Stamp × Bool)) (s : State), alive s = true → (s.wr r).rx = .acquiring t0 p st false none ss → (s.wr r).chains = (s.wr r).mask → 
      ∃ t, exec (.wideAcqAbandon r) s = .next t ∧ became { advanceMono (t0 + 24000) s with wide.radios := Bank.modify s.wide.radios r (fun x => { x with busy := x.busy ++ [(t0, t0 + 24000)], busyUntil := max x.busyUntil (t0 + 24000), phyCounts := tally x.phyCounts 24, rx := x.rxNext, rxNext := .idle }) } t) ∧
  -- WIDE_SIG_END of a PPDU that the radio receives, in a format, with options and of a width that it supports: busy for the L-SIG duration, stamped as at its detection, received to its end
  (∀ (r t0 st le' fin : Nat) (p : Int) (d : Bool) (ss : List (Stamp × Bool)) (x : SigFacts) (s : State), alive s = true → (s.wr r).rx = .acquiring t0 p st d (some (le', fin)) ss → le' ≤ s.time.mono → x.sigOk = true → phyOk s r (chanCfg s r).band false x.phy = true → widthMhz x.phy.width ≤ widthMhz (operWidth s r (chanCfg s r).width) → x.phy.nss ≤ chainCount (s.wr r).chains → x.phy.triggered = false → (wrxCfg s r).obssEn = false → 
      ∃ t, exec (.wideSigEnd r x) s = .next t ∧ became { s with wide.radios := Bank.modify s.wide.radios r (fun y => { y with busy := y.busy ++ [(t0, s.time.mono), (s.time.mono, fin)], busyUntil := max (max y.busyUntil s.time.mono) fin, rxDsss := decide (x.phy.format = 5), rx := .receiving p (ss.getD x.phy.width ({}, false)).1 (ss.getD x.phy.width ({}, false)).2 false fin (fin - x.symbol) }) } t) ∧
  -- WIDE_SIG_END of a trigger-based PPDU that the radio's own trigger, MU-BAR or BFRP frame solicits: it cannot be captured
  (∀ (e : Exchange) (r t0 st le' fin : Nat) (p : Int) (d : Bool) (ss : List (Stamp × Bool)) (x : SigFacts) (s : State), alive s = true → (s.wr r).rx = .acquiring t0 p st d (some (le', fin)) ss → le' ≤ s.time.mono → x.sigOk = true → phyOk s r (chanCfg s r).band false x.phy = true → widthMhz x.phy.width ≤ widthMhz (operWidth s r (chanCfg s r).width) → x.phy.nss ≤ chainCount (s.wr r).chains → x.phy.triggered = true → (s.wr r).exchange = some e → e.phase = 1 → (e.air.kind = 5 ∨ e.air.kind = 6 ∨ e.air.kind = 7) → (wrxCfg s r).obssEn = false → 
      ∃ t, exec (.wideSigEnd r x) s = .next t ∧ became { s with wide.radios := Bank.modify s.wide.radios r (fun y => { y with busy := y.busy ++ [(t0, s.time.mono), (s.time.mono, fin)], busyUntil := max (max y.busyUntil s.time.mono) fin, rxDsss := decide (x.phy.format = 5), rx := .receiving p (ss.getD x.phy.width ({}, false)).1 (ss.getD x.phy.width ({}, false)).2 true fin (fin - x.symbol) }) } t) ∧
  -- WIDE_SIG_END, the SIG fields failing their check: SIG_ERROR is counted, the primary stays busy
  (∀ (r t0 st le' fin : Nat) (p : Int) (d : Bool) (ss : List (Stamp × Bool)) (x : SigFacts) (s : State), alive s = true → (s.wr r).rx = .acquiring t0 p st d (some (le', fin)) ss → le' ≤ s.time.mono → x.sigOk = false → (wrxCfg s r).monitor = false → (s.wr r).chains = (s.wr r).mask → 
      ∃ t, exec (.wideSigEnd r x) s = .next t ∧ became { s with wide.radios := Bank.modify s.wide.radios r (fun y => { y with busy := y.busy ++ [(t0, s.time.mono), (s.time.mono, fin)], busyUntil := max (max y.busyUntil s.time.mono) fin, phyCounts := tally y.phyCounts 36, rx := y.rxNext, rxNext := .idle }) } t) ∧
  -- WIDE_SIG_END of a PPDU in a format or with an option that is not supported: FORMAT_UNSUPPORTED is counted, the primary stays busy
  (∀ (r t0 st le' fin : Nat) (p : Int) (d : Bool) (ss : List (Stamp × Bool)) (x : SigFacts) (s : State), alive s = true → (s.wr r).rx = .acquiring t0 p st d (some (le', fin)) ss → le' ≤ s.time.mono → x.sigOk = true → phyOk s r (chanCfg s r).band false x.phy = false → (wrxCfg s r).monitor = false → (s.wr r).chains = (s.wr r).mask → 
      ∃ t, exec (.wideSigEnd r x) s = .next t ∧ became { s with wide.radios := Bank.modify s.wide.radios r (fun y => { y with busy := y.busy ++ [(t0, s.time.mono), (s.time.mono, fin)], busyUntil := max (max y.busyUntil s.time.mono) fin, phyCounts := tally y.phyCounts 40, rx := y.rxNext, rxNext := .idle }) } t) ∧
  -- WIDE_SIG_END of a PPDU with more streams than chains in use: STREAMS is counted, the primary stays busy
  (∀ (r t0 st le' fin : Nat) (p : Int) (d : Bool) (ss : List (Stamp × Bool)) (x : SigFacts) (s : State), alive s = true → (s.wr r).rx = .acquiring t0 p st d (some (le', fin)) ss → le' ≤ s.time.mono → x.sigOk = true → phyOk s r (chanCfg s r).band false x.phy = true → widthMhz x.phy.width ≤ widthMhz (operWidth s r (chanCfg s r).width) → chainCount (s.wr r).chains < x.phy.nss → (wrxCfg s r).monitor = false → (s.wr r).chains = (s.wr r).mask → 
      ∃ t, exec (.wideSigEnd r x) s = .next t ∧ became { s with wide.radios := Bank.modify s.wide.radios r (fun y => { y with busy := y.busy ++ [(t0, s.time.mono), (s.time.mono, fin)], busyUntil := max (max y.busyUntil s.time.mono) fin, phyCounts := tally y.phyCounts 44, rx := y.rxNext, rxNext := .idle }) } t) ∧
  -- WIDE_CARRIER_LOST: the reception ends, counted; the primary stays busy for the L-SIG duration
  (∀ (r e l : Nat) (p : Int) (st : Stamp) (stale sol : Bool) (s : State), alive s = true → (s.wr r).rx = .receiving p st stale sol e l → (wrxCfg s r).monitor = false → (s.wr r).chains = (s.wr r).mask → 
      ∃ t, exec (.wideCarrierLost r) s = .next t ∧ became { s with wide.radios := Bank.modify s.wide.radios r (fun y => { y with phyCounts := tally y.phyCounts 52, rx := y.rxNext, rxNext := .idle }) } t) ∧
  -- WIDE_PPDU_END of a PPDU whose one MPDU fails its check sequence: PHY_OK and RX_FCS are counted at the end of its duration, no response
  (∀ (r e l : Nat) (p : Int) (st : Stamp) (stale sol : Bool) (x : PpduRx) (m : Mpdu) (s : State), alive s = true → (s.wr r).rx = .receiving p st stale sol e l → (s.wr r).test = none ∧ (s.wr r).exchange = none → x.mpdus = [m] → m.fcsOk = false → (wrxCfg s r).monitor = false → (s.wr r).responseAt = none → (s.wr r).chains = (s.wr r).mask → 
      ∃ t, exec (.widePpduEnd r x) s = .next t ∧ became { advanceMono e s with wide.radios := Bank.modify s.wide.radios r (fun y => { y with phyCounts := tally y.phyCounts 20, rx := y.rxNext, rxNext := .idle, counts := tally y.counts (65280 + 40) }) } t) ∧
  -- WIDE_PPDU_END of any PPDU that no transmission overtakes: PHY_OK is counted once, the receiver is free again
  (∀ (r e l : Nat) (p : Int) (st : Stamp) (stale sol : Bool) (x : PpduRx) (s : State), alive s = true → (s.wr r).rx = .receiving p st stale sol e l → blankedBy s r e = false → 
      ∃ t, exec (.widePpduEnd r x) s = .next t ∧ tallyOf (t.wr r).phyCounts 20 = satInc 32 (tallyOf (s.wr r).phyCounts 20) ∧ (t.wr r).rx = (s.wr r).rxNext)

/-- What the wide radios' channels and tests do of themselves. The end of a grant, a radar pulse, a confirmed radar,
the end of an availability check, of a non-occupancy time and of a test each change the state as given; where a
clause gives the whole state, nothing else changes. -/
def Obligations.WideChannelEventsTakeEffect : Prop :=
  -- GRANT_EXPIRY while W1 is not in the 6 GHz band: the grant is over, the event names the beat
  (∀ (s : State), alive s = true → clockRuns s = true → (powerCfg s 0).grant = true → (s.wr 0).grantStopped = false → (chanCfg s 0).band ≠ 2 → 
      ∃ t, exec (.grantExpiry) s = .next t ∧ became (raise 32 0x0503 (le 8 (powerCfg s 0).expiry) { advanceTo ((powerCfg s 0).expiry * 1000000) s with wide.radios := Bank.modify s.wide.radios 0 (fun w => { w with grantStopped := true, grantStk := true }) }) t) ∧
  -- RADAR_PULSE in a radar range: counted and told to the Steward's radar service
  (∀ (r l k : Nat) (s : State), alive s = true → (operating s r).map (fun x => (x.1, x.2.1)) = some (l, k) → wideHears s r = true → radarRange l (l + 20 * k) = true → 
      ∃ t, exec (.radarPulse r) s = .next t ∧ became { s with wide.radios := Bank.modify s.wide.radios r (fun y => { y with phyCounts := tally y.phyCounts 76 }) } t ∧ [.toSteward 33 (24 + r) 0] <+: t.outbox) ∧
  -- RADAR_CONFIRMED with no channel to move to: the channels that it hit are barred for 1,800,000 beats, data stops with the next beat, and the radio has left its channel 10,000 beats on (log entry 77)
  (∀ (r hit csa : Nat) (s : State), alive s = true → wideOn s r = true → radarChan (chanCfg s r) = true → (s.wr r).move = none → 
      ∃ t, exec (.radarConfirmed r hit 0xFF 0 0 0 csa) s = .next t ∧ became (raise (32 + r) 0x0502 (le 1 (chanCfg s r).primary ++ le 2 hit ++ le 8 (s.beat + 1800000)) { s with wide.radios := Bank.modify s.wide.radios r (fun w => { w with radarStk := true, radarStop := some (s.beat + 1), move := some { chan := { chanCfg s r with band := 0xFF }, job := none, reason := 2, back := { chanCfg s r with band := 0xFF }, latest := some (s.beat + 10000) } }), kept.wide.barred := (((List.range (chanKeys (chanCfg s r)).length).filter (hasBit hit)).map (fun i => (chanKeys (chanCfg s r)).getD i 0)).foldl (fun m x => Map.set m x (s.beat + 1800000)) s.kept.wide.barred, next.wide.barred := (((List.range (chanKeys (chanCfg s r)).length).filter (hasBit hit)).map (fun i => (chanKeys (chanCfg s r)).getD i 0)).foldl (fun m x => Map.set m x (s.beat + 1800000)) s.next.wide.barred }) t) ∧
  -- RADAR_CONFIRMED on a radio in a radar channel, whatever it moves to and whatever change is under way: the flag is set, a change of its channel stands
  (∀ (r hit band primary width puncture csa : Nat) (s : State), alive s = true → r < 2 → wideOn s r = true → radarChan (chanCfg s r) = true → 
      ∃ t, exec (.radarConfirmed r hit band primary width puncture csa) s = .next t ∧ (t.wr r).radarStk = true ∧ (t.wr r).move.isSome = true) ∧
  -- CAC_END of the device's own check: the channel is in force, the event names it
  (∀ (r b : Nat) (m : ChanMove) (s : State), alive s = true → clockRuns s = true → (s.wr r).move = some m → m.cacEnd = some b → m.eff = none → m.job = none → m.chan = chanCfg s r → s.kept.wide.bss = [] → operWidth s r (chanCfg s r).width = (chanCfg s r).width → r < 2 → 
      ∃ t, exec (.cacEnd r) s = .next t ∧ became (raise (32 + r) 0x0501 (le 1 (chanCfg s r).band ++ le 1 (chanCfg s r).primary ++ le 1 (chanCfg s r).width ++ le 1 m.reason) { advanceTo (b * 1000000) s with wide.radios := Bank.modify s.wide.radios r (fun w => { w with move := none, radarStop := none }) }) t) ∧
  -- CAC_END of any availability check that has begun: the channel is in force
  (∀ (r b : Nat) (m : ChanMove) (s : State), alive s = true → clockRuns s = true → (s.wr r).move = some m → m.cacEnd = some b → m.eff = none → 
      ∃ t, exec (.cacEnd r) s = .next t ∧ (t.wr r).move = none ∧ (t.wr r).radarStop = none) ∧
  -- NON_OCCUPANCY_END: the channel is free again at the beat that its time ends
  (∀ (k b : Nat) (s : State), alive s = true → clockRuns s = true → Map.get? s.kept.wide.barred k = some b → 
      ∃ t, exec (.nonOccupancyEnd k) s = .next t ∧ became { advanceTo (b * 1000000) s with kept.wide.barred := Map.erase s.kept.wide.barred k, next.wide.barred := Map.erase s.next.wide.barred k } t) ∧
  -- WIDE_TEST_END: the test is over at the beat named
  (∀ (r : Nat) (s : State), alive s = true → clockRuns s = true → (s.wr r).test.isSome = true → (s.wr r).testEnd ≠ 0 → Map.get? s.front.tx (32 + r) = none → 
      ∃ t, exec (.wideTestEnd r) s = .next t ∧ became { advanceTo ((s.wr r).testEnd * 1000000) s with wide.radios := Bank.modify s.wide.radios r (fun w => { w with test := none, testEnd := 0 }) } t)

/-- What the wide radios' transmissions do of themselves. An exchange, a response, their ends and a missing
acknowledgement each change the state as given; where a clause gives the whole state, nothing else changes. -/
def Obligations.WideAccessEventsTakeEffect : Prop :=
  -- WIDE_EXCHANGE_START of a beacon that may start: it is on the air on the granted chains, the TBTT is served, DTIM counts that have run down release group frames
  (∀ (r : Nat) (a : WideAir) (s y : State), alive s = true → y = senseMedium r a.cca s → mayStart y r a = true → (y.wr r).rx = .idle → y.overrunning (32 + r) = false → (y.wr r).waiting = none → obstructed y (32 + r) (exchangeChains y r) = false → priorityPending y (32 + r) = false → shares24 y = false → a.kind = 3 → 
      ∃ t, exec (.wideExchangeStart r a) s = .next t ∧ became { y with front.tx := Map.set y.front.tx (32 + r) { t0 := y.time.mono, t1 := y.time.mono + a.dur, kind := 2, chains := exchangeChains y r }, front.waiting := Map.erase y.front.waiting (32 + r), front.blankUntil := Map.set y.front.blankUntil (32 + r) (max (y.time.mono + a.dur + 2000) (Map.getD y.front.blankUntil (32 + r) 0)), wide.radios := Bank.modify y.wide.radios r (fun w => { w with rxNext := .idle, waiting := none, beaconDue := none, groupRelease := (List.range 8).foldl (fun m b => if w.tbtts % max 1 (bssCfg y r b).dtim = 0 then Map.set m b y.beat else m) w.groupRelease, shareWait := false, phyCounts := tally (if ceilingBinds y r a.phy a.power (exchangeChains y r) then tally w.phyCounts 64 else w.phyCounts) 60, exchange := some { air := a, startMono := y.time.mono, stamp := egressStamp (32 + r) (refChain (exchangeChains y r)) (delayVariant y r a.phy.width) 0 y, flags := stampFlags (32 + r) (refChain (exchangeChains y r)) (delayVariant y r a.phy.width) y } }) } t) ∧
  -- WIDE_EXCHANGE_START while the radio is obstructed: the exchange waits
  (∀ (r : Nat) (a : WideAir) (s : State), alive s = true → mayStart s r a = true → s.overrunning (32 + r) = false → (s.wr r).waiting = none → obstructed s (32 + r) (exchangeChains s r) = true → a.kind = 4 → 
      ∃ t, exec (.wideExchangeStart r a) s = .next t ∧ became { s with front.waiting := Map.set s.front.waiting (32 + r) { t0 := s.time.mono, t1 := s.time.mono, kind := 0, chains := exchangeChains s r }, front.counts := (frontCount (32 + r) cTxWait s).front.counts, wide.radios := Bank.modify s.wide.radios r (fun w => { w with cca := busySubs s r a.cca, shareWait := false, waiting := some { air := a, startMono := s.time.mono } }) } t) ∧
  -- WIDE_RESPONSE_SEND at its instant: it is on the air, counted, the receivers blanked to 2 µs after it
  (∀ (r : Nat) (x : Response) (s : State), alive s = true → (s.wr r).responseAt = some x → x.at' ≤ s.time.mono → s.time.acc < 2 ^ 96 → (s.wr r).rx = .idle → wideOn s r = true ∧ responseChains s r ≠ 0 ∧ grantHolds s r = false ∧ inCac s r = false ∧ sendable s r x.phy (responseChains s r) = true → transmitting s (32 + r) = false → obstructed s (32 + r) (responseChains s r) = false → shares24 s = false → radarStopped s r = false → (x.phy.triggered = false ∨ (s.wr r).upLink = none) → 
      ∃ t, exec (.wideResponseSend r) s = .next t ∧ became { s with front.tx := Map.set s.front.tx (32 + r) { t0 := s.time.mono, t1 := s.time.mono + x.dur, kind := 1, chains := responseChains s r }, front.waiting := Map.erase s.front.waiting (32 + r), front.blankUntil := Map.set s.front.blankUntil (32 + r) (max (s.time.mono + x.dur + 2000) (Map.getD s.front.blankUntil (32 + r) 0)), wide.radios := Bank.modify s.wide.radios r (fun w => { w with responseAt := none, rxNext := .idle, responding := true, phyCounts := tally (if ceilingBinds s r x.phy none (responseChains s r) then tally w.phyCounts 64 else w.phyCounts) 60 }) } t) ∧
  -- WIDE_RESPONSE_SEND at its instant, in 2.4 GHz beside F24, against a span that F24 committed earlier: it is not sent, but counted
  (∀ (x : Response) (s : State), alive s = true → (s.wr 1).responseAt = some x → x.at' ≤ s.time.mono → s.time.acc < 2 ^ 96 → wideOn s 1 = true ∧ responseChains s 1 ≠ 0 ∧ grantHolds s 1 = false ∧ inCac s 1 = false ∧ sendable s 1 x.phy (responseChains s 1) = true → radarStopped s 1 = false → transmitting s 33 = false → obstructed s 33 (responseChains s 1) = false → (fieldClash s 1 (s.time.mono - leadNs s 33 (responseChains s 1)) (s.time.mono + x.dur) x.since).isSome = true → (s.wr 1).chains = (s.wr 1).mask → 
      ∃ t, exec (.wideResponseSend 1) s = .next t ∧ became { s with wide.radios := Bank.modify s.wide.radios 1 (fun w => { w with responseAt := none, phyCounts := tally w.phyCounts 84 }) } t) ∧
  -- WIDE_TX_END of a beacon: the exchange is over
  (∀ (r : Nat) (x : RadioTx) (e : Exchange) (s : State), alive s = true → Map.get? s.front.tx (32 + r) = some x → r < 2 → x.kind ≠ 3 → (s.wr r).responding = false → (s.wr r).exchange = some e → e.air.kind = 3 ∧ e.sent = [] ∧ e.users = [] → (powerCfg s r).closedLoop = false → (s.wr r).chains = (s.wr r).mask → 
      ∃ t, exec (.wideTxEnd r []) s = .next t ∧ became { advanceMono x.t1 s with front.tx := Map.erase s.front.tx (32 + r), wide.radios := Bank.modify s.wide.radios r (fun w => { w with idleFrom := max w.idleFrom x.t1, exchange := none }) } t) ∧
  -- WIDE_TX_END of a response: the radio is free again
  (∀ (r : Nat) (x : RadioTx) (s : State), alive s = true → Map.get? s.front.tx (32 + r) = some x → r < 2 → x.kind ≠ 3 → (s.wr r).responding = true → (powerCfg s r).closedLoop = false → (s.wr r).chains = (s.wr r).mask → 
      ∃ t, exec (.wideTxEnd r []) s = .next t ∧ became { advanceMono x.t1 s with front.tx := Map.erase s.front.tx (32 + r), wide.radios := Bank.modify s.wide.radios r (fun w => { w with idleFrom := max w.idleFrom x.t1, responding := false, exchange := w.exchange.map (fun y => { y with phase := 1 }) }) } t) ∧
  -- WIDE_ACK_TIMEOUT of a management frame with retries left: it goes back to the head of its queue
  (∀ (r : Nat) (e : Exchange) (m : SentMpdu) (a : AirTx) (s : State), alive s = true → (s.wr r).exchange = some e → e.phase = 1 ∧ e.air.kind = 4 ∧ e.users = [] ∧ e.sent = [m] → (s.wr r).rx = .idle → queueRange m.queue = 4 → m.item.air = some a → a.tries ≤ (accessCfg s r).retryLimit → 
      ∃ t, exec (.wideAckTimeout r) s = .next t ∧ became { s with plan.queues := Map.set s.plan.queues m.queue { s.queue m.queue with frames := { m.item with charged := true } :: (s.queue m.queue).frames }, wide.radios := Bank.modify s.wide.radios r (fun w => { w with exchange := none }) } t) ∧
  -- WIDE_ACK_TIMEOUT of any exchange that waits for an answer: it is over
  (∀ (r : Nat) (e : Exchange) (s : State), alive s = true → (s.wr r).exchange = some e → e.phase = 1 → (s.wr r).rx = .idle → 
      ∃ t, exec (.wideAckTimeout r) s = .next t ∧ (t.wr r).exchange = none)

/-- What the wide radios' lifetimes, beacons, service periods and windows do of themselves. The lifetimes of frames, a
reorder time-out, the target time of a beacon and a beacon not sent, service periods, upstream windows and the limit
of a client's removal each change the state as given; where the clause gives the whole state, nothing else changes. -/
def Obligations.WideSchedulesTakeEffect : Prop :=
  -- MSDU_LIFETIME_EXPIRY of a station's only frame: it completes LIFETIME, counted for the radio and the BSS, and leaves the queue
  (∀ (q : Nat) (x : Client) (f : Queued) (m : Frame) (s : State), alive s = true → queueRange q = 1 → Map.get? s.wide.clients ((q - 0x1000) / 4) = some x → x.kind = 1 ∧ x.ps = false ∧ x.link1 ≠ 0xFFFF → (s.queue q).frames = [f] → f.cells = none ∧ f.job = none ∧ f.payload = .eth m → f.enqBeat + (accessCfg s 0).lifetime.getD (q % 4) 1000 ≤ s.beat → s.time.acc < 2 ^ 96 → 
      ∃ t, exec (.msduLifetimeExpiry q) s = .next t ∧ (t.queue q).frames = [] ∧ (t.wr 0).counts = tally (tally (s.wr 0).counts (65280 + 84)) (256 * x.bss + 84) ∧ [.frame 32 20 [m.id, 2]] <+: t.outbox ∧ t.time = s.time ∧ t.kept = s.kept ∧ t.field = s.field ∧ t.stw.events = s.stw.events) ∧
  -- MSDU_LIFETIME_EXPIRY of any queue of a radio that serves no power-save station: time is at the oldest frame's expiry, and no frame of the queue is older than its lifetime
  (∀ (q life : Nat) (s : State), alive s = true → (queueRange q = 1 ∨ queueRange q = 3) → psClient s q = none → life = lifetimeOf s (queueHome s q - 24) q → 
      ∃ t, exec (.msduLifetimeExpiry q) s = .next t ∧ (t.queue q).frames.all (fun f => decide (t.beat < f.enqBeat + life)) = true) ∧
  -- PS_LIFETIME_EXPIRY of a power-save station's only frame: it completes PS_EXPIRED, counted, and leaves the queue
  (∀ (q : Nat) (x : Client) (f : Queued) (m : Frame) (s : State), alive s = true → queueRange q = 1 → Map.get? s.wide.clients ((q - 0x1000) / 4) = some x → x.kind = 1 ∧ x.ps = true ∧ x.link1 ≠ 0xFFFF → (s.queue q).frames = [f] → f.cells = none ∧ f.job = none ∧ f.payload = .eth m → f.enqBeat + (accessCfg s 0).psLifetime ≤ s.beat → s.time.acc < 2 ^ 96 → 
      ∃ t, exec (.psLifetimeExpiry q) s = .next t ∧ (t.queue q).frames = [] ∧ (t.wr 0).counts = tally (tally (s.wr 0).counts (65280 + 92)) (256 * x.bss + 92) ∧ [.frame 32 20 [m.id, 4]] <+: t.outbox ∧ t.time = s.time ∧ t.kept = s.kept ∧ t.field = s.field ∧ t.stw.events = s.stw.events) ∧
  -- PS_LIFETIME_EXPIRY of any queue of a power-save station
  (∀ (q life c : Nat) (s : State), alive s = true → psClient s q = some c → life = (accessCfg s (queueHome s q - 24)).psLifetime → 
      ∃ t, exec (.psLifetimeExpiry q) s = .next t ∧ (t.queue q).frames.all (fun f => decide (t.beat < f.enqBeat + life)) = true) ∧
  -- REORDER_TIMEOUT with one MPDU held behind one gap, a replay: the window moves past both, the MPDU is discarded and counted
  (∀ (c tid k b n : Nat) (x : Client) (a : BaRx) (m : HeldMpdu) (e : KeyEntry) (s : State), alive s = true → s.wide.clients = [(c, x)] → x.baRx = [(tid, a)] → x.link1 ≠ 0xFFFF → x.kind = 1 → a.gap = some b → a.held = [((a.start + 1) % 4096, m)] → a.start < 4096 → m.radio = 0 → m.m.client = some c → m.m.prot = true ∧ m.m.groupKey = none ∧ m.m.mgmt = none ∧ m.m.tid = some tid ∧ m.m.keyId = 0 → x.key0 = k → Map.get? s.wide.keys k = some e → e.rxEnable = true → Map.get? e.rxPn tid = some n → m.m.pn ≤ n → b + (accessCfg s 0).reorder ≤ s.beat → s.time.acc < 2 ^ 96 → 
      ∃ t, exec (.reorderTimeout c tid) s = .next t ∧ (∃ a', Map.get? (t.client c).baRx tid = some a' ∧ a'.start = (a.start + 2) % 4096 ∧ a'.held = [] ∧ a'.gap = none ∧ a'.size = a.size) ∧ (t.wr 0).counts = tally (tally (s.wr 0).counts (65280 + 68)) (256 * x.bss + 68) ∧ t.time = s.time ∧ t.plan = s.plan ∧ t.mem = s.mem ∧ t.kept = s.kept ∧ t.stw.events = s.stw.events) ∧
  -- REORDER_TIMEOUT of any agreement with a gap that holds delivery: what the gap held is released
  (∀ (c tid b i : Nat) (a : BaRx) (s : State), alive s = true → Map.get? (s.client c).baRx tid = some a → a.gap = some b → (List.range 4096).find? (fun i => Map.has a.held ((a.start + i) % 4096)) = some i → 
      ∃ t, exec (.reorderTimeout c tid) s = .next t ∧ (Map.get? (t.client c).baRx tid).any (fun y => Map.has y.held ((a.start + i) % 4096)) = false) ∧
  -- BEACON_TBTT without an upstream clash: the beacon is due until its TBTT span ends, a countdown of a channel switch takes its step
  (∀ (r air : Nat) (s : State), alive s = true → apOn s r = true → inCac s r = false → 
      ∃ t, exec (.beaconTbtt r air none) s = .next t ∧ became { advanceTo (nextTbtt s r * 1000000 + (beaconCfg s r).offset * 1000) s with wide.radios := Bank.modify s.wide.radios r (fun w => { w with tbtts := w.tbtts + 1, lastTbtt := some (nextTbtt s r), beaconDue := some ((advanceTo (nextTbtt s r * 1000000 + (beaconCfg s r).offset * 1000) s).time.mono + tbttSpan s r air), idleFrom := max w.idleFrom (advanceTo (nextTbtt s r * 1000000 + (beaconCfg s r).offset * 1000) s).time.mono, move := w.move.map (csaStep (nextTbtt s r)) }) } t) ∧
  -- BEACON_SKIP: the TBTT span ends without the beacon started, BCN_SKIP is counted
  (∀ (r n : Nat) (s : State), alive s = true → (s.wr r).beaconDue = some n → (s.wr r).waiting = none → 
      ∃ t, exec (.beaconSkip r) s = .next t ∧ became { advanceMono n s with wide.radios := Bank.modify s.wide.radios r (fun w => { w with beaconDue := none, counts := tally w.counts (65280 + 104) }) } t) ∧
  -- TWT_SP_START of an individual agreement: its service period runs from its start to its nominal end
  (∀ (key : Nat) (f : TwtFlow) (s : State), alive s = true → key < 1000000 → Map.get? s.wide.twt key = some f → wideOn s f.radio = true → 
      ∃ t, exec (.twtSpStart key []) s = .next t ∧ became { advanceTo (nextPeriod s f.interval f.offset f.phase) s with wide.radios := Bank.modify s.wide.radios f.radio (fun w => { w with periods := w.periods.filter (fun x => x.key ≠ key) ++ [{ key := key, kind := 0, startNs := nextPeriod s f.interval f.offset f.phase, endNs := nextPeriod s f.interval f.offset f.phase + f.dur * 1000, announced := f.announced, members := [f.client] }] }) } t) ∧
  -- TWT_NOSHOW of a member that has not shown up: the no-show is counted, for it and for its BSS
  (∀ (r key c : Nat) (p : ServicePeriod) (f : TwtFlow) (x : Client) (s : State), alive s = true → (s.wr r).periods = [p] → p.key = key ∧ p.members = [c] ∧ p.present = [] ∧ p.judged = [] → p.startNs + 1000 * (accessCfg s r).noshowUs < p.endNs → Map.get? s.wide.clients c = some x → x.kind = 1 → Map.get? s.wide.twt key = some f → f.noshows + 1 ≠ (accessCfg s r).noshowLimit → 
      ∃ t, exec (.twtNoshow r key) s = .next t ∧ became { advanceTo (p.startNs + 1000 * (accessCfg s r).noshowUs) s with wide.twt := Map.set s.wide.twt key { f with noshows := f.noshows + 1 }, wide.radios := Bank.modify s.wide.radios r (fun w => { w with periods := [{ p with judged := [c] }], counts := tally (tally w.counts (65280 + 124)) (256 * x.bss + 124) }) } t) ∧
  -- TWT_SP_END: the service period is over at its nominal end
  (∀ (r key : Nat) (p : ServicePeriod) (s : State), alive s = true → (s.wr r).periods.find? (fun p => decide (p.key = key)) = some p → 
      ∃ t, exec (.twtSpEnd r key) s = .next t ∧ became { advanceTo p.endNs s with wide.radios := Bank.modify s.wide.radios r (fun w => { w with periods := w.periods.filter (fun x => x.key ≠ key) }) } t) ∧
  -- UPSTREAM_WINDOW_START in power-management mode 1: the window is open
  (∀ (r air total : Nat) (e : PlanEntry) (s : State), alive s = true → (Map.getD s.plan.inForce r {}).entries = [e] → e.kind = 2 → s.phase ≤ e.start * 1000 → wideOn s r = true → (upCfg s r).pmMode = 1 → 
      ∃ t, exec (.upstreamWindowStart r air total) s = .next t ∧ became { advancePhase (e.start * 1000) s with wide.radios := Bank.modify s.wide.radios r (fun w => { w with upWindow := true }) } t) ∧
  -- UPSTREAM_WINDOW_END in power-management mode 1: the window is closed
  (∀ (r air total : Nat) (e : PlanEntry) (s : State), alive s = true → (Map.getD s.plan.inForce r {}).entries = [e] → e.kind = 2 → s.phase ≤ (e.start + e.dur) * 1000 → wideOn s r = true → (s.wr r).upWindow = true → (upCfg s r).pmMode = 1 → 
      ∃ t, exec (.upstreamWindowEnd r air total) s = .next t ∧ became { advancePhase ((e.start + e.dur) * 1000) s with wide.radios := Bank.modify s.wide.radios r (fun w => { w with upWindow := false, nullDue := none }) } t) ∧
  -- WIDE_CLIENT_DEL_TIMEOUT: 100 beats after the command it is answered without its frame
  (∀ (c : Nat) (d : ClientDel) (s : State), alive s = true → clockRuns s = true → s.wide.dels = [d] → d.client = c → 
      ∃ t, exec (.wideClientDelTimeout c) s = .next t ∧ became (completeJob d.job {} { advanceTo (d.due * 1000000) s with wide.dels := [] }) t)

/-- The front-end and calibration commands complete. Each command of area 0x0C, sent READY with good fields and
accepted at once, is answered with the fields of its table, or stays open until its runs end; its effect is the one
given. A code that no run has given is free. -/
def Obligations.FrontEndCommandsComplete : Prop :=
  -- FE_PIN_CONFIG of the chains of a wide radio, in order and within the limits
  (∀ (c : Cmd) (s : State), readyFor c s = true → goodTable [fRange 16 1 32 35, fMask 17 1 0xF, fAny 18 1, fAny 19 1, fAny 20 1, fAny 21 1, fAny 22 1, fAny 23 1, fRange 24 1 0 2, fSigned 25 1 (-40) (-10), fMask 26 1 3, fZero 27 1] c = true → c.u 16 1 < 34 → c.u 18 1 ≤ 160 → c.u 19 1 ≤ c.u 18 1 → c.u 20 1 ≤ c.u 19 1 → c.u 21 1 ≤ c.u 22 1 → c.u 22 1 ≤ c.u 23 1 → c.u 23 1 ≤ 80 → 
      ∃ t, exec (.fePinConfig c) s = .next t ∧ ended 0x0C01 c s {} { s with next.front.pins := (bitsSet 4 (c.u 17 1)).foldl (fun m i => Map.set m (4 * c.u 16 1 + i) { lnaOff := c.u 18 1, trswLead := c.u 19 1, paLead := c.u 20 1, paLag := c.u 21 1, trswLag := c.u 22 1, lnaOn := c.u 23 1, bypMode := c.u 24 1, bypOn := c.i 25 1, paFitted := c.flag 26 1 0, lnaFitted := c.flag 26 1 1 }) s.next.front.pins } t) ∧
  -- FE_PIN_CONFIG with the bypass switch before the low-noise amplifier is off: BAD_ARG
  (∀ (c : Cmd) (s : State), readyFor c s = true → goodTable [fRange 16 1 32 35, fMask 17 1 0xF, fAny 18 1, fAny 19 1, fAny 20 1, fAny 21 1, fAny 22 1, fAny 23 1, fRange 24 1 0 2, fSigned 25 1 (-40) (-10), fMask 26 1 3, fZero 27 1] c = true → c.u 16 1 = 34 → c.u 17 1 = 1 → c.u 18 1 < c.u 19 1 → c.u 18 1 ≤ 255 ∧ c.u 19 1 ≤ 255 ∧ c.u 20 1 ≤ 255 ∧ c.u 21 1 ≤ 255 ∧ c.u 22 1 ≤ 255 ∧ c.u 23 1 ≤ 255 → 
      ∃ t, exec (.fePinConfig c) s = .next t ∧ ended 0x0C01 c s { status := 3, detail := 19 } s t) ∧
  -- FE_COEX_CONFIG while the other port is off
  (∀ (c : Cmd) (s : State), readyFor c s = true → goodTable [fRange 16 1 0 1, fRange 17 1 0 2, fMask 18 1 0xF, fMask 19 1 7, fRange 20 4 100 20000, fRange 24 2 20 10000, fRange 26 2 0 2000] c = true → (Map.getD s.next.front.coex (1 - c.u 16 1) {}).mode = 0 → 
      ∃ t, exec (.feCoexConfig c) s = .next t ∧ ended 0x0C02 c s {} { s with next.front.coex := Map.set s.next.front.coex (c.u 16 1) { mode := c.u 17 1, radios := c.u 18 1, shared := c.flag 19 1 0, lpAnytime := c.flag 19 1 1, txactOut := c.flag 19 1 2, maxHold := c.u 20 4, cool := c.u 24 2, lpGuard := c.u 26 2 } } t) ∧
  -- CAL_CONFIG
  (∀ (c : Cmd) (s : State), readyFor c s = true → goodTable [fRange 16 1 2 20, fRange 17 1 2 30, fRange 18 1 2 30, fMask 19 1 7, fSigned 20 1 (-90) (-50), fSigned 21 1 (-100) (-60), fRange 22 2 1000 65535, fRange 24 2 0 10000, fZero 26 2] c = true → 
      ∃ t, exec (.calConfig c) s = .next t ∧ ended 0x0C03 c s {} { s with next.front.cal := { tempRadio := c.u 16 1, tempDram := c.u 17 1, tempMeter := c.u 18 1, triggers := c.u 19 1, quietWide := c.i 20 1, quietField := c.i 21 1, staleRetry := c.u 22 2, lateAllow := c.u 24 2 } } t) ∧
  -- CAL_RUN of the crystal: one run is created, and the command waits for it
  (∀ (c : Cmd) (s : State), readyFor c s = true → goodTable [fMask 16 2 0x3FF, fOneOf 18 1 ([3, 4, 5, 6] ++ (List.range 28).map (· + 8) ++ [37, 0xFF]), fAny 19 1, fMask 20 1 1, fZero 21 3] c = true → c.u 16 2 = 8 → c.u 18 1 = 3 → c.u 19 1 = 0 → s.power.mode.serves = true → s.front.runs = [] → s.stw.jobs = [] → 
      ∃ t, exec (.calRun c) s = .next t ∧ opened 0x0C04 c s false { s with front.counts := tally s.front.counts 444, front.runs := [{ id := 4, target := 3, sub := 0, force := c.flag 20 1 0, auto := false, jobs := [s.stw.nextJob] }], front.calJobs := s.front.calJobs ++ [{ job := s.stw.nextJob, left := [calKey 4 3 0 0] }] } t) ∧
  -- CAL_RUN of any calibrations and targets: a run of each stands, and the command waits for them
  (∀ (c : Cmd) (l : List (Nat × Nat × Nat)) (s : State), readyFor c s = true → goodTable [fMask 16 2 0x3FF, fOneOf 18 1 ([3, 4, 5, 6] ++ (List.range 28).map (· + 8) ++ [37, 0xFF]), fAny 19 1, fMask 20 1 1, fZero 21 3] c = true → c.u 16 2 ≠ 0 → l = (calTargets s).filter (fun x => hasBit (c.u 16 2) (x.1 - 1) && (decide (c.u 18 1 = 0xFF) || decide (c.u 18 1 = x.2.1)) && (decide (c.u 19 1 = 0xFF) || decide (c.u 19 1 = x.2.2))) → l ≠ [] → s.power.mode ≠ .doze → s.power.mode ≠ .dormant → s.stw.jobs.any (fun j => decide (j.opcode = 0x0C04) && decide (j.lane = c.lane)) = false → 
      ∃ t, exec (.calRun c) s = .next t ∧ (t.slot c.lane c.slot).phase = .held ∧ t.front.calJobs = s.front.calJobs ++ [{ job := s.stw.nextJob, left := l.map (fun x => calKey x.1 x.2.1 x.2.2 0) }] ∧ l.all (fun x => (calRunOf t (calKey x.1 x.2.1 x.2.2 0)).isSome) = true) ∧
  -- CAL_STATUS of the crystal with a result in force and no run
  (∀ (c : Cmd) (r : CalResult) (s : State), readyFor c s = true → goodTable [fRange 16 1 1 10, fOneOf 17 1 ([3, 4, 5, 6] ++ (List.range 28).map (· + 8) ++ [37]), fAny 18 1, fZero 19 1] c = true → c.u 16 1 = 4 → c.u 17 1 = 3 → c.u 18 1 = 0 → s.front.runs = [] → s.front.notes = [] → Map.get? s.kept.front.results (calKey 4 3 0 0) = some r → 
      ∃ t, exec (.calStatus c) s = .next t ∧ ended 0x0C05 c s { body := le 1 0 ++ le 1 0 ++ le 1 0 ++ le 1 6 ++ (le 8 r.beat ++ leInt 2 r.temp) ++ leInt 2 (s.assay.temps.getD 6 0) ++ codeBytes 4 r.codes s.draws ++ codeBytes 4 [] (s.draws + 32) } { s with draws := s.draws + 64 } t) ∧
  -- CAL_STATUS of any calibration and target: its state, its failed attempts, its cause and its sensor
  (∀ (c : Cmd) (u : Nat) (n : CalNote) (s : State), readyFor c s = true → goodTable [fRange 16 1 1 10, fOneOf 17 1 ([3, 4, 5, 6] ++ (List.range 28).map (· + 8) ++ [37]), fAny 18 1, fZero 19 1] c = true → u = (if c.u 16 1 = 5 then c.u 18 1 / 16 else c.u 18 1) → (calSubs s (c.u 16 1) (c.u 17 1)).contains u = true → n = calNote s (calUse s (c.u 16 1) (c.u 17 1) u) → 
      ∃ t, exec (.calStatus c) s = .next t ∧ (t.slot c.lane c.slot).phase = .done ∧ ((t.slot c.lane c.slot).response.drop 6).take 2 = [0, 0] ∧ ((t.slot c.lane c.slot).response.drop 16).take 4 = le 1 (match calRunOf s (calKey (c.u 16 1) (c.u 17 1) u 0) with | some x => if x.fails > 0 then 2 else 1 | none => if n.stale.isSome then 3 else if (calResult s (calUse s (c.u 16 1) (c.u 17 1) u)).isSome then 0 else 4) ++ le 1 (match calRunOf s (calKey (c.u 16 1) (c.u 17 1) u 0) with | some x => x.fails | none => n.fails) ++ le 1 n.cause ++ le 1 (calSensor (c.u 17 1))) ∧
  -- FE_COUNTERS that clears nothing
  (∀ (c : Cmd) (s : State), readyFor c s = true → goodTable [fOneOf 16 1 [3, 32, 33, 34, 35, 36], fMask 17 1 3, fMask 18 1 0xF, fZero 19 1] c = true → c.u 17 1 = 0 → 
      ∃ t, exec (.feCounters c) s = .next t ∧ ended 0x0C06 c s { body := le 1 (fieldsWord [(0, bit s.front.calStaleStk), (1, bit s.front.unlockStk), (2, bit s.front.revokeStk), (3, bit s.front.paTimeoutStk)]) ++ [0, 0, 0] ++ ((List.range 17).map (fun j => le 4 (if frontScope (c.u 16 1) (20 + 4 * j) then tallyOf s.front.counts (128 * c.u 16 1 + (20 + 4 * j)) else 0))).flatten } s t) ∧
  -- FE_COUNTERS that clears its scope and all sticky bits
  (∀ (c : Cmd) (s : State), readyFor c s = true → goodTable [fOneOf 16 1 [3, 32, 33, 34, 35, 36], fMask 17 1 3, fMask 18 1 0xF, fZero 19 1] c = true → c.u 17 1 = 3 → c.u 18 1 = 15 → 
      ∃ t, exec (.feCounters c) s = .next t ∧ ended 0x0C06 c s { body := le 1 (fieldsWord [(0, bit s.front.calStaleStk), (1, bit s.front.unlockStk), (2, bit s.front.revokeStk), (3, bit s.front.paTimeoutStk)]) ++ [0, 0, 0] ++ ((List.range 17).map (fun j => le 4 (if frontScope (c.u 16 1) (20 + 4 * j) then tallyOf s.front.counts (128 * c.u 16 1 + (20 + 4 * j)) else 0))).flatten } { s with front.counts := s.front.counts.filter (fun e => e.1 / 128 ≠ c.u 16 1), front.calStaleStk := false, front.unlockStk := false, front.revokeStk := false, front.paTimeoutStk := false } t)

/-- What the synthesisers, the obstructions and the bypass pins do. A lock and its loss, the end of an obstruction and
of an allowance, a power amplifier that stays on and the bypass pins act as given; where a clause gives the whole
state, nothing else changes. -/
def Obligations.FrontEndEventsTakeEffect : Prop :=
  -- SYNTH_LOCKED
  (∀ (i : Nat) (s : State), alive s = true → i < 5 → (s.synth i).state = .settling → 
      ∃ t, exec (.synthLocked i) s = .next t ∧ became { advanceMono (s.synth i).lockAt s with front.synths := Bank.modify s.front.synths i (fun y => { y with state := .locked }) } t) ∧
  -- SYNTH_UNLOCK of the receive synthesiser of F24, its second loss at most
  (∀ (slots : Nat) (s : State), alive s = true → synthReady s 2 = true → s.field.rx = [] → ((s.synth 2).losses.filter (fun b => b + 1000 > s.beat)).length = 0 → 
      ∃ t, exec (.synthUnlock 2 slots) s = .next t ∧ ((t.synth 2).state = .settling ∧ (t.synth 2).lockAt = s.time.mono + 100000 ∧ (t.synth 2).losses = [s.beat] ∧ t.front.unlockStk = true ∧ t.kept = s.kept ∧ t.assay = s.assay)) ∧
  -- SYNTH_UNLOCK of any synthesiser that is locked: it relocks from OFF
  (∀ (i slots : Nat) (s : State), alive s = true → i < 5 → synthReady s i = true → 
      ∃ t, exec (.synthUnlock i slots) s = .next t ∧ (t.synth i).state = .settling ∧ (t.synth i).lockAt = s.time.mono + offLockNs i ∧ t.front.unlockStk = true) ∧
  -- OBSTRUCTION_END: a field frame that waits, without security, starts
  (∀ (w : RadioTx) (a : FieldAccess) (dur : Nat) (s : State), alive s = true → s.front.waiting = [(34, w)] → s.kept.front.coex = [] → s.front.runs = [] → s.front.tx = [] → synthReady s 3 = true → shares24 s = false → (s.unit 34).safe = false → s.field.rx = [] → (s.fchain 0).access = some a → a.item.secLevel = 0 → a.item.instant = none → a.queue < 0x1000 → w.kind = 0 → s.time.mono ≤ w.t0 + s.kept.front.cal.lateAllow * 1000 → chipWindow s 34 = true → (s.unit 34).busyUntil ≤ s.time.mono → dur = fieldNs (chanKey a.item.band a.item.channel) a.item.len → 
      ∃ t, exec (.obstructionEnd 34) s = .next t ∧ (t.front.waiting = [] ∧ Map.get? t.front.tx 34 = some { t0 := s.time.mono, t1 := s.time.mono + dur, kind := 0, chains := 1 } ∧ (t.fchain 0).access = some { a with stage := 2, due := s.time.mono + dur, lastChip := s.time.mono + dur } ∧ t.kept = s.kept)) ∧
  -- OBSTRUCTION_END of any field frame that waits and may go on, its key present and its counter not exhausted: it starts
  (∀ (chain : Nat) (w : RadioTx) (a : FieldAccess) (s y z : State) (m : FieldTx) (ch : Nat), alive s = true → chain < 2 → Map.get? s.front.waiting (34 + chain) = some w → y = obstructionOver (34 + chain) s → waitOk y (34 + chain) w.chains = true → y.time.mono ≤ w.t0 + allowance y w.kind → y.time.mono ≤ lastStart y (34 + chain) → z = { y with front.waiting := Map.erase y.front.waiting (34 + chain) } → (z.fchain chain).access = some a → mayAccess z chain a = true → a.limit.all (fun l => decide (z.time.mono ≤ l)) = true → m = (claimFrame a z).1.item → ch = chanKey m.band m.channel → (m.secLevel = 0 ∨ (m.key.bind (fieldKey z)).any (fun e => m.fc.isSome || decide (e.txPn + 1 < 0xFFFFFFFF)) = true) → 
      ∃ t, exec (.obstructionEnd (34 + chain)) s = .next t ∧ Map.get? t.front.tx (34 + chain) = some { t0 := y.time.mono, t1 := y.time.mono + fieldNs ch m.len, kind := if m.instant.isSome then 2 else 0, chains := 1 }) ∧
  -- LATE_ALLOWANCE_EXPIRY of a wide exchange that is still obstructed: it goes back, with no completion
  (∀ (w : RadioTx) (s : State), alive s = true → s.front.waiting = [(32, w)] → (s.wr 0).waiting = none → w.kind = 0 → synthReady s 0 = false → (s.synth 0).state = .off → s.time.mono + 950000 - s.phase < w.t0 + s.kept.front.cal.lateAllow * 1000 → 
      ∃ t, exec (.lateAllowanceExpiry 32) s = .next t ∧ (t.front.waiting = [] ∧ t.front.counts = tally s.front.counts 4132 ∧ t.front.tx = s.front.tx ∧ t.kept = s.kept)) ∧
  -- PA_TIMEOUT: a wide transmission that no exchange holds is cut
  (∀ (x : RadioTx) (ch slots : Nat) (s : State), alive s = true → Map.get? s.front.tx 32 = some x → x.kind ≠ 3 → hasBit x.chains ch = true → (pinCfg s 32 ch).paFitted = true → x.t0 - 25 * (pinCfg s 32 ch).paLead + 6000000 < x.t1 + 25 * (pinCfg s 32 ch).paLag → (s.wr 0).responding = false → (s.wr 0).exchange = none → 
      ∃ t, exec (.paTimeout 32 ch slots) s = .next t ∧ (t.front.tx = Map.erase s.front.tx 32 ∧ t.front.paTimeoutStk = true ∧ t.kept = s.kept)) ∧
  -- PA_TIMEOUT of any radio's transmission but a test: it is cut, and the flag is set
  (∀ (src ch slots lim : Nat) (x : RadioTx) (s : State), alive s = true → 32 ≤ src ∧ src ≤ 35 → Map.get? s.front.tx src = some x → x.kind ≠ 3 → x.t0 < s.time.mono → hasBit x.chains ch = true → (pinCfg s src ch).paFitted = true → lim = x.t0 - 25 * (pinCfg s src ch).paLead + (if 34 ≤ src then 14000000 else 6000000) → lim < x.t1 + 25 * (pinCfg s src ch).paLag → 
      ∃ t, exec (.paTimeout src ch slots) s = .next t ∧ Map.get? t.front.tx src ≠ some x ∧ t.front.paTimeoutStk = true) ∧
  -- BYP_RISE
  (∀ (src ch : Nat) (lv : Int) (s : State), alive s = true → (pinCfg s src ch).bypMode = 1 → chainPowered s src ch = true → (pinCfg s src ch).bypOn < lv → (4 * src + ch) ∉ s.front.byp → 
      ∃ t, exec (.bypRise src ch lv) s = .next t ∧ became { s with front.byp := (4 * src + ch) :: s.front.byp } t ∧ [.pinAt "BYP" (4 * src + ch) true s.time.mono] <+: t.outbox) ∧
  -- BYP_FALL
  (∀ (src ch : Nat) (lv : Int) (s : State), alive s = true → (pinCfg s src ch).bypMode = 1 → (4 * src + ch) ∈ s.front.byp → lv ≤ (pinCfg s src ch).bypOn - 6 → chainBusy s src = false → 
      ∃ t, exec (.bypFall src ch lv) s = .next t ∧ became { s with front.byp := s.front.byp.filter (· ≠ 4 * src + ch) } t ∧ [.pinAt "BYP" (4 * src + ch) false s.time.mono] <+: t.outbox)

/-- What the coexistence ports and the Burnisher do. Each edge, grant, revocation and cool-down of a coexistence port, in
either mode and for whatever radios it serves, and each calibration step's start and end, of a port, a radio, the
crystal and a metering channel, act as given; where a clause gives the whole state, nothing else changes. The steps of
DRAM retraining go with the refresh bursts. -/
def Obligations.CoexistenceAndCalibrationEvents : Prop :=
  -- COEX_REQ_RISE of a port in PTA mode
  (∀ (n : Nat) (p : Bool) (s : State), alive s = true → n < 2 → (coexCfg s n).mode = 1 → (s.coexPort n).req = false → 
      ∃ t, exec (.coexReqRise n p) s = .next t ∧ became { s with front.coex := Bank.modify s.front.coex n (fun x => { x with req := true, pri := p, pending := some s.time.mono }) } t) ∧
  -- COEX_REQ_RISE of a port in another mode, or already high: nothing
  (∀ (n : Nat) (p : Bool) (s : State), alive s = true → n < 2 → ((coexCfg s n).mode ≠ 1 ∨ (s.coexPort n).req = true) → 
      ∃ t, exec (.coexReqRise n p) s = .next t ∧ became s t) ∧
  -- COEX_GRANT of a request that R291 lets through: GNT rises; under a shared aerial the radios that the port serves are blanked
  (∀ (n : Nat) (v s : State), alive s = true → n < 2 → (coexCfg s n).mode = 1 → (s.coexPort n).pending.isSome = true → (s.coexPort n).granted = none → (s.coexPort n).cooling = false → unitUp s 36 = true → s.power.mode ≠ .dormant → s.power.mode ≠ .recovery → coexFree s n = true → v = { s with outbox := [.pinAt "COEX_GNT" n true s.time.mono], front.counts := tally s.front.counts 4652, front.coex := Bank.modify s.front.coex n (fun x => { x with pending := none, granted := some s.time.mono }) } → 
      ∃ t, exec (.coexGrant n) s = .next t ∧ became (if (coexCfg s n).shared then (served s n).foldl (fun a src => blankRadio src a) v else v) t ∧ [.pinAt "COEX_GNT" n true s.time.mono] <+: t.outbox) ∧
  -- COEX_REQ_FALL of a granted port: GNT falls
  (∀ (n : Nat) (s : State), alive s = true → n < 2 → (coexCfg s n).mode = 1 → (s.coexPort n).req = true → (s.coexPort n).granted.isSome = true → 
      ∃ t, exec (.coexReqFall n) s = .next t ∧ became { s with front.coex := Bank.modify s.front.coex n (fun x => { x with req := false, pri := false, pending := none, granted := none, lowSince := s.time.mono }) } t ∧ [.pinAt "COEX_GNT" n false s.time.mono] <+: t.outbox) ∧
  -- COEX_REQ_FALL of a port without a grant: its request is withdrawn
  (∀ (n : Nat) (s : State), alive s = true → n < 2 → (coexCfg s n).mode = 1 → (s.coexPort n).req = true → (s.coexPort n).granted = none → 
      ∃ t, exec (.coexReqFall n) s = .next t ∧ became { s with front.coex := Bank.modify s.front.coex n (fun x => { x with req := false, pri := false, pending := none, granted := none, lowSince := s.time.mono }) } t) ∧
  -- COEX_REVOKE at MAX_HOLD: GNT falls, the port must cool down, counted and reported
  (∀ (n g : Nat) (v s : State), alive s = true → n < 2 → (s.coexPort n).granted = some g → v = advanceMono (g + 1000 * (coexCfg s n).maxHold) s → 
      ∃ t, exec (.coexRevoke n) s = .next t ∧ became (raise 36 0x0C04 (le 1 n ++ le 4 ((v.time.mono - g) / 1000)) { v with front.counts := tally s.front.counts 4656, front.revokeStk := true, front.coex := Bank.modify s.front.coex n (fun x => { x with granted := none, cooling := true, holdUntil := v.time.mono + 2000 }) }) t ∧ [.pinAt "COEX_GNT" n false v.time.mono] <+: t.outbox) ∧
  -- COEX_COOL_END, REQ low: the port may be granted again
  (∀ (n : Nat) (s : State), alive s = true → n < 2 → (s.coexPort n).cooling = true → (s.coexPort n).req = false → 
      ∃ t, exec (.coexCoolEnd n) s = .next t ∧ became { advanceMono ((s.coexPort n).lowSince + 1000 * (coexCfg s n).cool) s with front.coex := Bank.modify s.front.coex n (fun x => { x with cooling := false }) } t) ∧
  -- COEX_BLANK_RISE of a port in BLANK mode: every radio it serves is blanked, a reception past its SFD or L-SIG ending so
  (∀ (n : Nat) (s : State), alive s = true → n < 2 → (coexCfg s n).mode = 2 → (s.coexPort n).req = false → 
      ∃ t, exec (.coexBlankRise n) s = .next t ∧ became ((served s n).foldl (fun a src => blankRadio src a) { s with front.counts := tally s.front.counts 4660, front.coex := Bank.modify s.front.coex n (fun x => { x with req := true }) }) t) ∧
  -- COEX_BLANK_RISE of a port that serves FSG, nothing received there: only the port changes
  (∀ (n : Nat) (s : State), alive s = true → n < 2 → (coexCfg s n).mode = 2 → (coexCfg s n).radios = 8 → (s.coexPort n).req = false → s.field.rx = [] → 
      ∃ t, exec (.coexBlankRise n) s = .next t ∧ became { s with front.counts := tally s.front.counts 4660, front.coex := Bank.modify s.front.coex n (fun x => { x with req := true }) } t) ∧
  -- COEX_BLANK_FALL: the blank of every radio it serves ends 1 µs later
  (∀ (n : Nat) (s : State), alive s = true → n < 2 → (coexCfg s n).mode = 2 → (s.coexPort n).req = true → 
      ∃ t, exec (.coexBlankFall n) s = .next t ∧ became ((served s n).foldl (fun a src => blankTo src (s.time.mono + 1000) a) { s with front.coex := Bank.modify s.front.coex n (fun x => { x with req := false }) }) t) ∧
  -- COEX_HOLD_RISE
  (∀ (n : Nat) (s : State), alive s = true → n < 2 → (coexCfg s n).mode = 2 → (s.coexPort n).pri = false → 
      ∃ t, exec (.coexHoldRise n) s = .next t ∧ became { s with front.counts := tally s.front.counts 4664, front.coex := Bank.modify s.front.coex n (fun x => { x with pri := true }) } t) ∧
  -- COEX_HOLD_FALL
  (∀ (n : Nat) (s : State), alive s = true → n < 2 → (coexCfg s n).mode = 2 → 
      ∃ t, exec (.coexHoldFall n) s = .next t ∧ became { s with front.coex := Bank.modify s.front.coex n (fun x => { x with pri := false }) } t) ∧
  -- CAL_STEP_START on a port, the crystal or the converter of no radio: at any time from 20 µs on; its commands pass their point of commitment
  (∀ (id k u : Nat) (x : CalRun) (s : State), alive s = true → calRunOf s (calKey id k u 0) = some x → x.id = id → x.target = k → s.time.settling = false → s.overrunning 3 = false → calUp s = true → x.running = false → x.ready = none → x.staleAt = none → id ≠ 9 → x.stepsDone < x.steps → id ≠ 7 ∧ id ≠ 10 → (k < 32 ∨ 35 < k) → 20000 ≤ s.phase → 
      ∃ t, exec (.calStepStart id k u) s = .next t ∧ became { s with front.runs := s.front.runs.map (fun y => if y.name = x.name then { y with running := true, since := s.time.mono } else y), stw.jobs := (commitCalJobs x s).stw.jobs } t) ∧
  -- CAL_STEP_START on a radio, in its window and with nothing in its way
  (∀ (id k u a b : Nat) (x : CalRun) (v s : State), alive s = true → calRunOf s (calKey id k u 0) = some x → x.id = id → x.target = k → s.time.settling = false → s.overrunning 3 = false → calUp s = true → x.running = false → x.ready = none → x.staleAt = none → id ≠ 9 → x.stepsDone < x.steps → 32 ≤ k ∧ k ≤ 35 → calWindow s id k u = some (a, b) → s.phase < b * 1000 → v = advancePhase (a * 1000) s → stepBlocked v k = false → (assumesQuiet id k = false ∨ quietDeferred v k = false) → v.phase + 40000 ≤ b * 1000 → 
      ∃ t, exec (.calStepStart id k u) s = .next t ∧ became (beginStep x v) t) ∧
  -- CAL_STEP_START on a metering channel, just after a sample that no capture covers
  (∀ (u k : Nat) (x : CalRun) (s : State), alive s = true → calRunOf s (calKey 10 k u 0) = some x → x.id = 10 → x.target = k → s.time.settling = false → s.overrunning 3 = false → calUp s = true → x.running = false → x.ready = none → x.staleAt = none → x.stepsDone < x.steps → (k < 32 ∨ 35 < k) → 20000 ≤ s.phase → sampled s s.beat = true → s.phase % samplePeriod (meterCfg s).rate < 40000 → s.pole.gather = none → firesOf s s.beat = [] → 
      ∃ t, exec (.calStepStart 10 k u) s = .next t ∧ became (beginStep x s) t) ∧
  -- CAL_STEP_END of a step that is not the last
  (∀ (id k u : Nat) (x : CalRun) (f : CalFacts) (v s : State), alive s = true → s.front.runs.find? (fun x => decide (x.id = id) && decide (x.target = k) && decide (x.sub = u) && x.running) = some x → v = jobEnded 3 (min f.dur 40000) (advanceMono (x.since + min f.dur 40000) s) → (id ≠ 3 ∨ f.lowMargin = false) → k ≠ 34 → (assumesQuiet id k = false ∨ f.energy < quietLimit v k) → x.stepsDone + 1 < x.steps → 
      ∃ t, exec (.calStepEnd id k u f) s = .next t ∧ became { v with front.runs := v.front.runs.map (fun y => if y.name = x.name then { y with running := false, stepsDone := x.stepsDone + 1 } else y) } t) ∧
  -- CAL_STEP_END of the last step, its result plausible: it waits for its commit window
  (∀ (id k u : Nat) (x : CalRun) (f : CalFacts) (v s : State), alive s = true → s.front.runs.find? (fun x => decide (x.id = id) && decide (x.target = k) && decide (x.sub = u) && x.running) = some x → v = jobEnded 3 (min f.dur 40000) (advanceMono (x.since + min f.dur 40000) s) → (id ≠ 3 ∨ f.lowMargin = false) → k ≠ 34 → (assumesQuiet id k = false ∨ f.energy < quietLimit v k) → x.stepsDone + 1 = x.steps → f.atEnd = false → implausible x (calResult v x.key) f.codes f.diffs = false → 
      ∃ t, exec (.calStepEnd id k u f) s = .next t ∧ became (updNote x.key (fun y => { y with trial := f.codes }) { v with front.runs := v.front.runs.map (fun y => if y.name = x.name then { y with running := false, stepsDone := x.steps, ready := some ({ codes := f.codes, temp := calTemp v k, beat := v.beat }, if v.phase ≤ 900000 then v.beat + 1 else v.beat + 2) } else y) }) t) ∧
  -- CAL_STEP_END of a step that assumes a quiet input, the input not quiet: the attempt fails
  (∀ (id k u : Nat) (x : CalRun) (f : CalFacts) (v s : State), alive s = true → s.front.runs.find? (fun x => decide (x.id = id) && decide (x.target = k) && decide (x.sub = u) && x.running) = some x → v = jobEnded 3 (min f.dur 40000) (advanceMono (x.since + min f.dur 40000) s) → (id ≠ 3 ∨ f.lowMargin = false) → k ≠ 34 → assumesQuiet id k = true → quietLimit v k ≤ f.energy → 
      ∃ t, exec (.calStepEnd id k u f) s = .next t ∧ became (calFail x 1 [] v) t) ∧
  -- STALE_RETRY_EXPIRY: a new run at the retry's beat
  (∀ (id k u : Nat) (s : State), alive s = true → calUp s = true → calRunOf s (calKey id k u 0) = none → (calNote s (calUse s id k u)).stale.isSome = true → (calNote s (calUse s id k u)).retryBeat ≠ 0 → 
      ∃ t, exec (.staleRetryExpiry id k u) s = .next t ∧ became (startRun id k u false true [] (updNote (calUse s id k u) (fun y => { y with retryBeat := 0 }) (advanceTo ((calNote s (calUse s id k u)).retryBeat * 1000000) s))) t) ∧
  -- STALE_RETRY_EXPIRY on the crystal, nothing else under way: one run, counted
  (∀ (s : State), alive s = true → calUp s = true → s.front.runs = [] → (calNote s (calKey 4 3 0 0)).stale.isSome = true → (calNote s (calKey 4 3 0 0)).retryBeat ≠ 0 → 
      ∃ t, exec (.staleRetryExpiry 4 3 0) s = .next t ∧ (t.front.runs = [{ id := 4, target := 3, sub := 0 }] ∧ t.front.counts = tally s.front.counts 444 ∧ t.time = (advanceTo ((calNote s (calKey 4 3 0 0)).retryBeat * 1000000) s).time))

/-- The Planisher's commands complete. Each command of area 0x07, sent READY with good fields and accepted at once, is
answered with the fields of its table or waits for its effective beat; a setting accepted before 500 µs of a beat is
in force at the next commit window, a later one at the one after. -/
def Obligations.PlannerCommandsComplete : Prop :=
  -- PLAN_QUEUE_SET of one queue that is no child queue, before 500 µs
  (∀ (c : Cmd) (s : State), readyFor c s = true → goodTable [fAny 16 2, fAny 18 2, fAny 20 1, fMask 21 1 1, fRange 22 2 1 65535, fAny 24 2, fRange 26 1 0 100, fAny 27 1] c = true → queueValid (c.u 16 2) = true → c.u 18 2 = c.u 16 2 → childQueue (c.u 16 2) = false → c.u 20 1 = 0xFF → c.u 24 2 ≠ 0 → s.phase < 500000 → s.plan.late = none → 
      ∃ t, exec (.planQueueSet c) s = .next t ∧ ended 0x0701 c s {} { s with next.plan.queues := Map.set s.next.plan.queues (c.u 16 2) { cls := 0xFF, eventHold := c.flag 21 1 0, weight := c.u 22 2, limitKb := c.u 24 2, yellowPct := c.u 26 1, event := c.u 27 1 } } t) ∧
  -- PLAN_QUEUE_SET of any range of queues of one kind, child queues included, before 500 µs
  (∀ (c : Cmd) (g : QueueSet) (s : State), readyFor c s = true → goodTable [fAny 16 2, fAny 18 2, fAny 20 1, fMask 21 1 1, fRange 22 2 1 65535, fAny 24 2, fRange 26 1 0 100, fAny 27 1] c = true → queueValid (c.u 16 2) = true → queueValid (c.u 18 2) = true → queueRange (c.u 16 2) = queueRange (c.u 18 2) → c.u 16 2 ≤ c.u 18 2 → (if childQueue (c.u 16 2) then decide (c.u 20 1 ≤ 7) else decide (c.u 20 1 = 0xFF) && decide (c.u 24 2 ≠ 0)) = true → g = { cls := c.u 20 1, eventHold := c.flag 21 1 0, weight := c.u 22 2, limitKb := c.u 24 2, yellowPct := c.u 26 1, event := c.u 27 1 } → s.phase < 500000 → s.plan.late = none → 
      ∃ t, exec (.planQueueSet c) s = .next t ∧ ended 0x0701 c s {} { s with next.plan.queues := (List.range (c.u 18 2 + 1 - c.u 16 2)).foldl (fun m i => Map.set m (c.u 16 2 + i) g) s.next.plan.queues } t) ∧
  -- PLAN_QUEUE_SET of the same queue after 500 µs: one window later
  (∀ (c : Cmd) (s : State), readyFor c s = true → goodTable [fAny 16 2, fAny 18 2, fAny 20 1, fMask 21 1 1, fRange 22 2 1 65535, fAny 24 2, fRange 26 1 0 100, fAny 27 1] c = true → queueValid (c.u 16 2) = true → c.u 18 2 = c.u 16 2 → childQueue (c.u 16 2) = false → c.u 20 1 = 0xFF → c.u 24 2 ≠ 0 → 500000 ≤ s.phase → s.plan.late = none → 
      ∃ t, exec (.planQueueSet c) s = .next t ∧ ended 0x0701 c s {} { s with plan.late := some { s.next.plan with queues := Map.set s.next.plan.queues (c.u 16 2) { cls := 0xFF, eventHold := c.flag 21 1 0, weight := c.u 22 2, limitKb := c.u 24 2, yellowPct := c.u 26 1, event := c.u 27 1 } } } t) ∧
  -- PLAN_CLASS_SET of a class of a radio
  (∀ (c : Cmd) (s : State), readyFor c s = true → goodTable [fRange 16 1 0 27, fRange 17 1 0 8, fMask 18 1 1, fRange 19 1 0 16, fRange 20 4 64 100000000, fRange 24 4 1600 16777215] c = true → c.u 16 1 = 24 → c.u 17 1 ≤ 7 → s.phase < 500000 → s.plan.late = none → 
      ∃ t, exec (.planClassSet c) s = .next t ∧ ended 0x0702 c s {} { s with next.plan.classes := Map.set s.next.plan.classes (16 * 24 + c.u 17 1) { shaped := c.flag 18 1 0, hold := c.u 19 1, rateKbps := c.u 20 4, burst := c.u 24 4 } } t) ∧
  -- PLAN_CLASS_SET of class 8 of a wired egress: BAD_ARG
  (∀ (c : Cmd) (s : State), readyFor c s = true → goodTable [fRange 16 1 0 27, fRange 17 1 0 8, fMask 18 1 1, fRange 19 1 0 16, fRange 20 4 64 100000000, fRange 24 4 1600 16777215] c = true → c.u 16 1 < 24 → c.u 17 1 = 8 → 
      ∃ t, exec (.planClassSet c) s = .next t ∧ ended 0x0702 c s { status := 3, detail := 17 } s t) ∧
  -- PLAN_POLICER_SET of a policer that is bound to nothing
  (∀ (c : Cmd) (s : State), readyFor c s = true → goodTable [fRange 16 2 0 1023, fMask 18 1 3, fMask 19 1 0x3F, fRange 20 1 0 2, fRange 21 1 0 7, fAny 22 2, fRange 24 4 0 100000000, fRange 28 4 0 100000000, fRange 32 4 1536 16777215, fRange 36 4 1536 16777215] c = true → c.u 19 1 % 4 ≠ 3 ∧ c.u 19 1 / 4 % 4 ≠ 3 ∧ c.u 19 1 / 16 % 4 ≠ 3 → c.u 20 1 = 0 → c.u 24 4 ≤ c.u 28 4 → s.next.plan.policers = [] → s.phase < 500000 → s.plan.late = none → 
      ∃ t, exec (.planPolicerSet c) s = .next t ∧ ended 0x0703 c s {} { s with next.plan.policers := [(c.u 16 2, { enable := c.flag 18 1 0, aware := c.flag 18 1 1, actions := c.u 19 1, bindKind := 0, reclass := c.u 21 1, bind := c.u 22 2, cir := c.u 24 4, pir := c.u 28 4, cbs := c.u 32 4, pbs := c.u 36 4 })] } t) ∧
  -- PLAN_POLICER_SET of any policer, bound or not: an older binding to the same port or client ends
  (∀ (c : Cmd) (g : PolicerSet) (s : State), readyFor c s = true → goodTable [fRange 16 2 0 1023, fMask 18 1 3, fMask 19 1 0x3F, fRange 20 1 0 2, fRange 21 1 0 7, fAny 22 2, fRange 24 4 0 100000000, fRange 28 4 0 100000000, fRange 32 4 1536 16777215, fRange 36 4 1536 16777215] c = true → c.u 19 1 % 4 ≠ 3 ∧ c.u 19 1 / 4 % 4 ≠ 3 ∧ c.u 19 1 / 16 % 4 ≠ 3 → (c.u 20 1 = 1 → c.u 22 2 ≤ 23) ∧ (c.u 20 1 = 2 → c.u 22 2 ≤ 4095) → c.u 24 4 ≤ c.u 28 4 → g = { enable := c.flag 18 1 0, aware := c.flag 18 1 1, actions := c.u 19 1, bindKind := c.u 20 1, reclass := c.u 21 1, bind := c.u 22 2, cir := c.u 24 4, pir := c.u 28 4, cbs := c.u 32 4, pbs := c.u 36 4 } → s.phase < 500000 → s.plan.late = none → 
      ∃ t, exec (.planPolicerSet c) s = .next t ∧ ended 0x0703 c s {} { s with next.plan.policers := Map.set (Map.mapVals s.next.plan.policers (fun _ p => if g.bindKind ≠ 0 ∧ p.bindKind = g.bindKind ∧ p.bind = g.bind then { p with bindKind := 0, bind := 0 } else p)) (c.u 16 2) g } t) ∧
  -- PLAN_GATE_SET that removes a list, at the first allowed beat: it waits for that beat
  (∀ (c : Cmd) (s : State), readyFor c s = true → goodTable [fRange 16 1 0 23, fMask 17 1 1, fAny 18 2, fAny 20 4, fAny 24 8] c = true → c.flag 17 1 0 = false → c.u 24 8 = 0 → gateList s (c.u 16 1) = none → s.stw.jobs = [] → 
      ∃ t, exec (.planGateSet c) s = .next t ∧ opened 0x0704 c s false { s with plan.gatePending := s.plan.gatePending ++ [(c.u 16 1, { list := none, beat := s.beat + 2, job := s.stw.nextJob })] } t) ∧
  -- PLAN_GATE_SET of a list from the bulk region
  (∀ (c : Cmd) (g : GateList) (s : State), readyFor c s = true → goodTable [fRange 16 1 0 23, fMask 17 1 1, fAny 18 2, fAny 20 4, fAny 24 8] c = true → c.flag 17 1 0 = true → c.u 24 8 = 0 → (gateOf c (taken 0x0704 c s)).toOption = some g → 
      ∃ t, exec (.planGateSet c) s = .next t ∧ opened 0x0704 c s false { s with plan.gatePending := s.plan.gatePending ++ [(c.u 16 1, { list := some g, beat := firstAllowed s (gateBeats g.cycle), job := s.stw.nextJob })] } t) ∧
  -- PLAN_MASK_SET of both masks of a radio that no city service holds
  (∀ (c : Cmd) (s : State), readyFor c s = true → goodTable [fRange 16 1 0 1, fMask 17 1 3, fZero 18 6, fAny 24 8, fAny 32 32, fAny 64 32] c = true → s.plan.cityMasks = [] → c.flag 17 1 0 = true → c.flag 17 1 1 = true → c.u 24 8 = 0 → 
      ∃ t, exec (.planMaskSet c) s = .next t ∧ opened 0x0705 c s false { s with plan.maskPending := s.plan.maskPending ++ [(c.u 16 1, { ap := some (c.u 32 32), up := some (c.u 64 32), beat := firstAllowed s 256, job := s.stw.nextJob })] } t) ∧
  -- PLAN_MASK_SET of a radio whose masks the city service holds: DENIED to the Steward
  (∀ (c : Cmd) (s : State), readyFor c s = true → goodTable [fRange 16 1 0 1, fMask 17 1 3, fZero 18 6, fAny 24 8, fAny 32 32, fAny 64 32] c = true → s.plan.cityMasks = [1] → c.u 16 1 = 1 → 
      ∃ t, exec (.planMaskSet c) s = .next t ∧ ended 0x0705 c s { status := 6, detail := 45 } s t) ∧
  -- PLAN_AIR_CONFIG of a radio, before 500 µs
  (∀ (c : Cmd) (s : State), readyFor c s = true → goodTable [fRange 16 1 0 2, fAny 17 1, fRange 18 1 1 255, fAny 19 1, fAny 20 4, fRange 24 2 1 256, fRange 26 2 20 900, fRange 28 2 0 500, fAny 30 2] c = true → c.u 16 1 = 0 → c.u 17 1 ≤ 3 → 1 ≤ c.u 19 1 ∧ c.u 19 1 ≤ 64 → 16384 ≤ c.u 20 4 ∧ c.u 20 4 ≤ 16777215 → c.u 26 2 + c.u 28 2 ≤ 950 → c.u 30 2 ≤ 930 → s.phase < 500000 → s.plan.late = none → 
      ∃ t, exec (.planAirConfig c) s = .next t ∧ ended 0x0706 c s {} { s with next.plan.air := Map.set s.next.plan.air 0 { consol := c.flag 17 1 0, idleOff := c.flag 17 1 1, calSpacing := c.u 18 1, upEvery := c.u 19 1, fillBytes := c.u 20 4, coexPeriod := c.u 24 2, coexPhase := c.u 26 2, coexUs := c.u 28 2, suMin := c.u 30 2 } } t) ∧
  -- PLAN_AIR_CONFIG of the field radios: only the four window fields apply
  (∀ (c : Cmd) (s : State), readyFor c s = true → goodTable [fRange 16 1 0 2, fAny 17 1, fRange 18 1 1 255, fAny 19 1, fAny 20 4, fRange 24 2 1 256, fRange 26 2 20 900, fRange 28 2 0 500, fAny 30 2] c = true → c.u 16 1 = 2 → c.u 26 2 + c.u 28 2 ≤ 950 → s.phase < 500000 → s.plan.late = none → 
      ∃ t, exec (.planAirConfig c) s = .next t ∧ ended 0x0706 c s {} { s with next.plan.air := Map.set s.next.plan.air 2 { Map.getD s.next.plan.air 2 {} with calSpacing := c.u 18 1, coexPeriod := c.u 24 2, coexPhase := c.u 26 2, coexUs := c.u 28 2 } } t) ∧
  -- PLAN_AIR_READ of the plan in force
  (∀ (c : Cmd) (p : AirPlan) (b : List Byte) (s : State), readyFor c s = true → goodTable [fRange 16 1 0 2, fRange 17 1 0 1, fZero 18 2] c = true → hasBit c.flags 0 = true → 512 ≤ c.bulkLen → c.u 17 1 = 0 → p = Map.getD s.plan.inForce (c.u 16 1) {} → b = (p.entries.map PlanEntry.bytes).flatten → 
      ∃ t, exec (.planAirRead c) s = .next t ∧ answered 0x0707 s.beat c { body := le 8 p.beat ++ le 1 p.entries.length ++ le 1 (fieldsWord [(0, bit p.repeated), (1, bit p.safe), (2, bit p.clipped)]) ++ [0, 0], bulkOut := b.length } t ∧ t = { s with stw := t.stw, outbox := t.outbox } ∧ (t.lane c.lane).bulk = Memory.writeList ((taken 0x0707 c s).lane c.lane).bulk c.bulkOff b) ∧
  -- PLAN_QUEUE_GET of an empty queue
  (∀ (c : Cmd) (s : State), readyFor c s = true → goodTable [fAny 16 2, fZero 18 2] c = true → queueValid (c.u 16 2) = true → (s.queue (c.u 16 2)).frames = [] → 
      ∃ t, exec (.planQueueGet c) s = .next t ∧ ended 0x0708 c s { body := le 1 (queueClass s (c.u 16 2)) ++ le 1 (fieldsWord [(0, 0), (1, 0), (2, 0)]) ++ le 2 (queueSet s (c.u 16 2)).weight ++ le 2 (queueSet s (c.u 16 2)).limitKb ++ [0, 0] ++ le 4 0 ++ le 4 0 ++ le 6 0 ++ le 6 (s.queue (c.u 16 2)).fPrev ++ le 4 (s.queue (c.u 16 2)).drops ++ le 4 0 } s t) ∧
  -- PLAN_QUEUE_GET of any queue: its settings, its bytes and frames, its tags, its drops, the beat in which its head was first seen
  (∀ (c : Cmd) (g : QueueSet) (p : PQueue) (s : State), readyFor c s = true → goodTable [fAny 16 2, fZero 18 2] c = true → queueValid (c.u 16 2) = true → g = queueSet s (c.u 16 2) → p = s.queue (c.u 16 2) → 
      ∃ t, exec (.planQueueGet c) s = .next t ∧ ended 0x0708 c s { body := le 1 (queueClass s (c.u 16 2)) ++ le 1 (fieldsWord [(0, bit (decide (p.frames ≠ []))), (1, bit (p.frames.any (·.held))), (2, bit (urgentHead s (c.u 16 2)))]) ++ le 2 g.weight ++ le 2 g.limitKb ++ [0, 0] ++ le 4 p.bytes ++ le 4 p.frames.length ++ le 6 ((p.frames.head?.bind (·.tag)).getD 0) ++ le 6 p.fPrev ++ le 4 p.drops ++ le 4 ((p.frames.head?.bind (·.seen)).getD 0) } s t) ∧
  -- PLAN_COUNTERS of an egress, clearing it and both sticky bits
  (∀ (c : Cmd) (s : State), readyFor c s = true → goodTable [fOneOf 16 1 (List.range 28 ++ [0xFE, 0xFF]), fMask 17 1 3, fAny 18 2, fMask 20 1 3, fZero 21 3] c = true → c.u 16 1 = 5 → c.u 17 1 = 3 → c.u 20 1 = 3 → 
      ∃ t, exec (.planCounters c) s = .next t ∧ ended 0x0709 c s { body := le 1 (fieldsWord [(0, bit s.plan.neverFitStk), (1, bit s.plan.clipStk)]) ++ [0, 0, 0] ++ ((List.range 18).map (fun j => le 4 (tallyOf s.plan.counts (128 * 5 + (20 + 4 * j))))).flatten } { s with plan.counts := s.plan.counts.filter (fun e => e.1 / 128 ≠ 5), plan.neverFitStk := false, plan.clipStk := false } t)

/-- What the Planisher does when a frame arrives, an egress falls free, a gate changes and a shaper's credit returns.
A frame that its queue and its pool admit becomes the tagged head of an empty queue; an egress that is free starts the
frame selected; time moves to the change of a gate and to the tick at which a credit reaches 0. -/
def Obligations.PlannerEventsTakeEffect : Prop :=
  -- ENQUEUE of a field frame for the empty management queue of FSG
  (∀ (m : FieldTx) (vid tag : Nat) (s : State), alive s = true → dataPlane s = true → s.plan.queues = [] → s.kept.plan.gates = [] → (queueSet s 0x3F05).eventHold = false → m.len ≤ (queueSet s 0x3F05).limitKb * 1024 → poolUsed s 1 + m.len ≤ poolBytes s 1 → poolBytes s 1 ≤ (poolBytes s 1 - (poolUsed s 1 + m.len)) * 10 → tag = finishTag (s.classRun (classKey 26 8)).v 0 m.len (queueSet s 0x3F05).weight → 
      ∃ t, exec (.enqueue 0x3F05 (.field m) vid) s = .next t ∧ became { s with plan.queues := [(0x3F05, { frames := [{ payload := .field m, charge := m.len, pool := 1, enqBeat := s.beat, tag := some tag }], fPrev := tag })], mem.used := Map.set s.mem.used 1 (poolUsed s 1 + m.len) } t) ∧
  -- ENQUEUE of a field frame for any child's queue or a management queue of the field radios, within its limit and its pool: it stands at the queue's end
  (∀ (q : Nat) (m : FieldTx) (vid : Nat) (s : State), alive s = true → dataPlane s = true → ((0x2000 ≤ q ∧ q ≤ 0x2BFF) ∨ q = 0x3F04 ∨ q = 0x3F05) → m.wf = true → (if childQueue q then decide ((s.queue q).frames.length < (Map.getD s.kept.field.children (q - 0x2000) {}).qdepth) else decide ((s.queue q).bytes + m.len ≤ (queueSet s q).limitKb * 1024)) = true → poolUsed s 1 + m.len ≤ poolBytes s 1 → 
      ∃ t, exec (.enqueue q (.field m) vid) s = .next t ∧ (t.queue q).frames.map (·.payload) = (s.queue q).frames.map (·.payload) ++ [.field m]) ∧
  -- EGRESS_SELECT of a wired port that is free: the one frame that waits starts
  (∀ (e q : Nat) (ds : List RxDesc) (x : Queued) (f : Frame) (p : PQueue) (s : State), alive s = true → e < 16 → portFree s e = true → (s.wport e).plca = 0 → (s.wport e).retry = none → (s.wport e).lpiTx = false → (s.wport e).gapEnd ≤ s.time.mono → s.time.acc < 2 ^ 96 → unitUp s 4 = true → s.plan.queues = [(q, p)] → p.frames = [x] → q ≤ 0xDF ∧ q / 8 = e → x.held = false → x.payload = .eth f → x.tagged = false → (classSet s (classKey e (q % 8))).shaped = false → gateList s e = none → 
      ∃ t, exec (.egressSelect e ds) s = .next t ∧ ((t.wport e).tx = some { item := { x with waited := false }, startNs := s.time.mono, endNs := s.time.mono + frameNs s e (sentBytes x), stamp := egressStamp (portSource e) 0 0 (bitsNs s e 64) s, flags := (chainStale s (portSource e) 0 0, decide (s.time.servo = .holdover)), issue := s.time.mono + bitsNs s e 64 } ∧ (t.queue q).frames = [] ∧ t.mem = s.mem ∧ t.kept = s.kept)) ∧
  -- EGRESS_SELECT of any wired port that is free, not in low-power idle and with no frame that waits for its back-off: the frame that the selection of R316 gives starts
  (∀ (e c q : Nat) (ds : List RxDesc) (x : Queued) (f : Frame) (s y : State), alive s = true → e < 24 → portFree s e = true → (tsPort e = false ∨ ((s.wport e).plca ≠ 1 ∧ (s.wport e).plca ≠ 2)) → (s.wport e).retry = none → (s.wport e).lpiTx = false → y = purgeEgress e (advanceMono (s.wport e).gapEnd s) → (judge e (gateFits y e 0) y).2 = some (c, q, x) → x.payload = .eth f → 
      ∃ t, exec (.egressSelect e ds) s = .next t ∧ (t.wport e).tx.map (fun w => (w.item.payload, w.startNs)) = some (x.payload, y.time.mono)) ∧
  -- GATE_ENTRY_CHANGE of a port whose link is down: time moves to the change, and nothing starts
  (∀ (e d : Nat) (s : State), alive s = true → s.time.settling = false → gateNext s e = some d → (s.wport e).link ≠ 1 → 
      ∃ t, exec (.gateEntryChange e) s = .next t ∧ became (advanceTo (s.ns + d) s) t) ∧
  -- GATE_ENTRY_CHANGE in the settling interval of a rebase, or of an egress without a gate list: nothing
  (∀ (e : Nat) (s : State), alive s = true → (s.time.settling = true ∨ gateNext s e = none) → 
      ∃ t, exec (.gateEntryChange e) s = .next t ∧ became s t) ∧
  -- SHAPER_CREDIT_ZERO of a class of a radio: time moves to the tick at which the credit is 0
  (∀ (c : Nat) (s : State), alive s = true → (classSet s (classKey 24 c)).shaped = true → (creditNow s (classKey 24 c)).1 < 0 → (classSet s (classKey 24 c)).rateKbps ≠ 0 → 
      ∃ t, exec (.shaperCreditZero 24 c) s = .next t ∧ became (advanceMono ((creditNow s (classKey 24 c)).2 + ((-(creditNow s (classKey 24 c)).1).toNat * 10 ^ 6 + ((classSet s (classKey 24 c)).rateKbps * 32 - 1)) / ((classSet s (classKey 24 c)).rateKbps * 32)) s) t)

/-- What a wired port does at the events of its link and of its shared medium. Links, management polls, 10BASE-T1S
beacons, opportunities, collisions and back-offs act as given; where a clause gives the whole state, nothing else
changes. -/
def Obligations.WiredPortEvents : Prop :=
  -- LINK_UP of a port whose mode is set
  (∀ (e w : Nat) (half : Bool) (g : WPortCfg) (s : State), alive s = true → e < 24 → wiredOn s = true → unitUp s (8 + e) = true → portCfg s e = g → g.mode ≠ 0 ∧ g.mode ≠ 4 → (s.wport e).link = 0 → 
      ∃ t, exec (.linkUp e w half) s = .next t ∧ became (raise (8 + e) 0x0401 (le 1 1 ++ le 1 (modeSpeed g.mode w) ++ le 1 0) { s with draws := (laneDraw e g.mode s).2.draws, wired.ports := Map.set s.wired.ports e { s.wport e with transparent := Config.ptpPair e, lanePos := (laneDraw e g.mode s).1, link := 1, speed := modeSpeed g.mode w, linkChanges := satInc 32 (s.wport e).linkChanges, plca := plcaOf s e, beaconAt := s.time.mono, idleFrom := s.time.mono, gapEnd := s.time.mono, attempts := 0 } }) t) ∧
  -- LINK_DOWN of a port that holds no frame, nothing queued: the link is down, the learned entries that point to the port go, WIRED_LINK is raised
  (∀ (e : Nat) (s : State), alive s = true → e < 24 → (s.wport e).link = 1 → (s.wport e).tx = none → (s.wport e).retry = none → (s.wport e).rx = none → s.plan.queues = [] → 
      ∃ t, exec (.linkDown e) s = .next t ∧ ((t.wport e).link = 0 ∧ (t.wport e).linkChanges = satInc 32 (s.wport e).linkChanges ∧ t.wired.linkDownStk = true ∧ t.wired.learned = s.wired.learned.filter (fun x => ¬ (x.2.destKind = 0 ∧ x.2.dest = e)) ∧ t.kept = s.kept ∧ t.plan = s.plan)) ∧
  -- LINK_DOWN of any port whose link is up: what it sent, received and queued is dropped
  (∀ (e : Nat) (s : State), alive s = true → e < 24 → (s.wport e).link = 1 → 
      ∃ t, exec (.linkDown e) s = .next t ∧ (t.wport e).link = 0 ∧ (t.wport e).tx = none ∧ (t.wport e).rx = none ∧ t.wired.linkDownStk = true ∧ t.wired.learned = s.wired.learned.filter (fun x => ¬ (x.2.destKind = 0 ∧ x.2.dest = e)) ∧ (List.range 8).all (fun c => decide ((t.queue (8 * e + c)).frames = [])) = true) ∧
  -- MDIO_POLL, 100 beats after the last
  (∀ (s : State), alive s = true → wiredOn s = true → coresRun s = true → s.wired.mdioPollBeat + 100 ≤ s.beat → 
      ∃ t, exec (.mdioPoll) s = .next t ∧ became { s with wired.mdioPollBeat := s.beat } t ∧ [.frame 5 2 (((List.range 12).map (fun k => (portCfg s (4 + k)).phyad)).filter (· ≤ 31))] <+: t.outbox) ∧
  -- PLCA_BEACON_RX of a follower that had fallen back: it follows again
  (∀ (e : Nat) (s : State), alive s = true → (s.wport e).link = 1 → (s.wport e).plca = 3 → 
      ∃ t, exec (.plcaBeaconRx e) s = .next t ∧ became (raise (portSource e) 0x0402 (le 1 2) { s with wired.ports := Map.set (Map.set s.wired.ports e { s.wport e with beaconAt := s.time.mono }) e { s.wport e with beaconAt := s.time.mono, plca := 2 } }) t) ∧
  -- PLCA_FALLBACK, 4,000 bit times after the last BEACON
  (∀ (e : Nat) (s : State), alive s = true → (s.wport e).link = 1 → (s.wport e).plca = 2 → (s.wport e).beaconAt + bitsNs s e 4000 ≤ s.time.mono → s.time.acc < 2 ^ 96 → 
      ∃ t, exec (.plcaFallback e) s = .next t ∧ became (raise (portSource e) 0x0402 (le 1 3) { s with wired.plcaStk := true, wired.ports := Map.set s.wired.ports e { s.wport e with plca := 3 } }) t) ∧
  -- TRANSMIT_OPPORTUNITY of a node with one frame: it starts
  (∀ (e q : Nat) (x : Queued) (f : Frame) (p : PQueue) (s : State), alive s = true → tsPort e = true → portFree s e = true → (s.wport e).plca = 2 → (s.wport e).retry = none → (s.wport e).lpiTx = false → unitUp s 4 = true → s.plan.queues = [(q, p)] → p.frames = [x] → q ≤ 0xDF ∧ q / 8 = e → x.held = false → x.payload = .eth f → x.tagged = false → (classSet s (classKey e (q % 8))).shaped = false → gateList s e = none → 
      ∃ t, exec (.transmitOpportunity e) s = .next t ∧ ((t.wport e).tx.map (fun y => (y.item, y.startNs, y.endNs)) = some ({ x with waited := false }, s.time.mono, s.time.mono + frameNs s e (sentBytes x)) ∧ (t.wport e).extraSent = 0 ∧ (t.queue q).frames = [] ∧ t.mem = s.mem ∧ t.kept = s.kept)) ∧
  -- TRANSMIT_OPPORTUNITY of any node that is free: the frame that the selection of R316 gives starts
  (∀ (e c q : Nat) (x : Queued) (f : Frame) (s y : State), alive s = true → tsPort e = true → portFree s e = true → ((s.wport e).plca = 1 ∨ (s.wport e).plca = 2) → (s.wport e).retry = none → (s.wport e).lpiTx = false → y = purgeEgress e (updPort e (fun p => { p with extraSent := 0, burstUntil := none }) s) → (judge e (gateFits y e 0) y).2 = some (c, q, x) → x.payload = .eth f → 
      ∃ t, exec (.transmitOpportunity e) s = .next t ∧ (t.wport e).tx.map (fun w => (w.item.payload, w.startNs)) = some (x.payload, s.time.mono)) ∧
  -- COLLISION without PLCA, within the first 512 bit times and before the sixteenth attempt: a back-off
  (∀ (e bits slots : Nat) (x : WiredTx) (s : State), alive s = true → tsPort e = true → (s.wport e).tx = some x → (s.wport e).plca = 0 → (s.wport e).attempts < 15 → bits ≤ 512 → x.startNs + bitsNs s e bits ≤ s.time.mono → s.time.acc < 2 ^ 96 → s.kept.wired.ports.all (fun y => !y.2.pauseTx) = true → 
      ∃ t, exec (.collision e bits slots) s = .next t ∧ became { s with wired.ports := Map.set s.wired.ports e { s.wport e with tx := none, attempts := (s.wport e).attempts + 1, retry := some x, gapEnd := s.time.mono + bitsNs s e (128 + slots % 2 ^ (min ((s.wport e).attempts + 1) 10) * 512) } } t) ∧
  -- COLLISION, the sixteenth: the frame is discarded and counted
  (∀ (e bits slots : Nat) (x : WiredTx) (s : State), alive s = true → tsPort e = true → (s.wport e).tx = some x → (s.wport e).plca = 0 → (s.wport e).attempts = 15 → bits ≤ 512 → x.startNs + bitsNs s e bits ≤ s.time.mono → s.time.acc < 2 ^ 96 → s.kept.wired.ports.all (fun y => !y.2.pauseTx) = true → x.item.pool = 0 → x.item.cells = none → 
      ∃ t, exec (.collision e bits slots) s = .next t ∧ ((t.wport e).tx = none ∧ (t.wport e).retry = (s.wport e).retry ∧ (t.wport e).attempts = 0 ∧ (t.wport e).counts = tally (s.wport e).counts 96 ∧ (t.wport e).gapEnd = s.time.mono + bitsNs s e 128 ∧ t.plan = s.plan)) ∧
  -- COLLISION of any frame on a TS port, with PLCA or without: it is off the wire
  (∀ (e bits slots : Nat) (x : WiredTx) (s : State), alive s = true → tsPort e = true → (s.wport e).tx = some x → 
      ∃ t, exec (.collision e bits slots) s = .next t ∧ (t.wport e).tx = none ∧ (t.wport e).attempts = if ((s.wport e).attempts < 15 ∧ (bits ≤ 512 ∨ (s.wport e).plca = 1 ∨ (s.wport e).plca = 2)) then (s.wport e).attempts + 1 else 0) ∧
  -- CSMA_BACKOFF_END: the frame starts again
  (∀ (e : Nat) (x : WiredTx) (f : Frame) (s : State), alive s = true → portFree s e = true → (s.wport e).retry = some x → (s.wport e).plca = 0 → (s.wport e).gapEnd ≤ s.time.mono → s.time.acc < 2 ^ 96 → x.item.payload = .eth f → x.item.tagged = false → 
      ∃ t, exec (.csmaBackoffEnd e) s = .next t ∧ ((t.wport e).tx.map (fun y => (y.item, y.startNs, y.endNs)) = some (x.item, s.time.mono, s.time.mono + frameNs s e (sentBytes x.item)) ∧ (t.wport e).retry = none ∧ t.plan = s.plan ∧ t.mem = s.mem ∧ t.kept = s.kept))

/-- What a wired port does with frames, pauses and low-power idle, and the ageing sweeps. Cells claimed, frames
received and sent, PAUSE, Energy-Efficient Ethernet and the ageing sweeps act as given; where a clause gives the whole
state, nothing else changes. -/
def Obligations.WiredFrameEvents : Prop :=
  -- RX_CELL_CLAIM while the port's reserve has a cell
  (∀ (e : Nat) (s : State), alive s = true → e < 24 → wiredOn s = true → (s.wport e).link = 1 → (s.wport e).rx = none → claimSplit s e 1 = some (1, 0) → s.kept.wired.ports.all (fun y => !y.2.pauseTx) = true → 
      ∃ t, exec (.rxCellClaim e) s = .next t ∧ became { s with mem.cells := Map.set s.mem.cells s.mem.nextCells { owner := 8 + e, account := e, reserved := 1, shared := 0, refs := [] }, mem.nextCells := s.mem.nextCells + 1, wired.ports := Map.set s.wired.ports e { s.wport e with rx := some { cells := some s.mem.nextCells, stamp := ingressStamp (8 + e) 0 0 (bitsNs s e 512) s, calStale := chainStale s (8 + e) 0 0 } } } t) ∧
  -- RX_CELL_CLAIM of any port on which a frame begins, while its reserve or the shared pool has a cell: the frame has it
  (∀ (e r k : Nat) (s : State), alive s = true → e < 24 → wiredOn s = true → (s.wport e).link = 1 → (s.wport e).rx = none → claimSplit s e 1 = some (r, k) → 
      ∃ t, exec (.rxCellClaim e) s = .next t ∧ (t.wport e).rx.map (·.cells) = some (some s.mem.nextCells) ∧ Map.get? t.mem.cells s.mem.nextCells = some { owner := 8 + e, account := e, reserved := r, shared := k, refs := [] }) ∧
  -- WIRED_FRAME_RX of a runt
  (∀ (e : Nat) (w : WiredRx) (s : State), alive s = true → e < 24 → wiredOn s = true → (s.wport e).link = 1 → w.frame.len < 64 → 
      ∃ t, exec (.wiredFrameRx e w) s = .next t ∧ became { s with wired.ports := Map.set s.wired.ports e { s.wport e with counts := tally (s.wport e).counts 40 } } t) ∧
  -- WIRED_FRAME_RX of a PAUSE frame, one cell claimed and nothing being sent: transmission pauses
  (∀ (e id : Nat) (r : RxRun) (c : CellSet) (w : WiredRx) (s : State), alive s = true → e < 16 → wiredOn s = true → (s.wport e).link = 1 → (s.wport e).rx = some r → r.cells = some id → Map.get? s.mem.cells id = some c → w.codeError = false → w.fcsOk = true → w.frame.len = 64 → w.frame.etherType = 0x8808 → w.opcode = 1 → w.frame.da = 0x0180C2000001 → (portCfg s e).pauseRx = true → 64 ≤ (portCfg s e).maxFrame → w.quanta ≠ 0 → (s.wport e).tx = none → s.kept.wired.ports.all (fun y => !y.2.pauseTx) = true → 
      ∃ t, exec (.wiredFrameRx e w) s = .next t ∧ ((t.wport e).rx = none ∧ (t.wport e).pauseEnd = some (s.time.mono + bitsNs s e (w.quanta * 512)) ∧ (t.wport e).counts = tally (s.wport e).counts 60 ∧ t.plan = s.plan ∧ t.kept = s.kept)) ∧
  -- PAUSE_END: the pause is over; a port whose link is down starts nothing
  (∀ (e d : Nat) (s : State), alive s = true → (s.wport e).pauseEnd = some d → (s.wport e).link ≠ 1 → d ≤ s.time.mono → s.time.acc < 2 ^ 96 → 
      ∃ t, exec (.pauseEnd e) s = .next t ∧ became { s with wired.ports := Map.set s.wired.ports e { s.wport e with pauseEnd := none } } t) ∧
  -- PAUSE_REPEAT: the bytes held stay above the threshold, and nothing is being sent
  (∀ (e : Nat) (s : State), alive s = true → (s.wport e).xoff = true → (portCfg s e).pauseTx = true → (s.wport e).link = 1 → (s.wport e).tx = none → (portCfg s e).xonKb * 1024 < portBytes s e → (s.wport e).xoffAt + bitsNs s e ((portCfg s e).quanta * 512) / 2 ≤ s.time.mono → s.time.acc < 2 ^ 96 → 
      ∃ t, exec (.pauseRepeat e) s = .next t ∧ ((t.wport e).pauseDue = none ∧ (t.wport e).xoffAt = s.time.mono ∧ (t.wport e).counts = tally (s.wport e).counts 72 ∧ t.mem = s.mem ∧ t.plan = s.plan ∧ t.kept = s.kept)) ∧
  -- LPI_ENTRY of an idle port with an agreed time: it enters low-power idle
  (∀ (e : Nat) (s : State), alive s = true → e < 24 → wiredOn s = true → (portCfg s e).eee = true → (s.wport e).eeeAgreed = true → eeeMode e (portCfg s e).mode (s.wport e).speed = true → (s.wport e).link = 1 → (s.wport e).tx = none → (s.wport e).lpiTx = false → (s.wport e).wakeEnd = none → (s.wport e).pauseEnd.isSome = true → (s.wport e).idleFrom + (portCfg s e).lpiIdle * 1000 ≤ s.time.mono → s.time.acc < 2 ^ 96 → 
      ∃ t, exec (.lpiEntry e) s = .next t ∧ became { s with wired.ports := Map.set (Map.set s.wired.ports e { s.wport e with lpiTx := true }) e { s.wport e with lpiTx := true, counts := tally (s.wport e).counts 84 } } t) ∧
  -- LPI_ENTRY of any such port for which no frame is eligible as its idle time ends
  (∀ (e : Nat) (s y : State), alive s = true → e < 24 → wiredOn s = true → (portCfg s e).eee = true → (s.wport e).eeeAgreed = true → eeeMode e (portCfg s e).mode (s.wport e).speed = true → (s.wport e).link = 1 → (s.wport e).tx = none → (s.wport e).lpiTx = false → (s.wport e).wakeEnd = none → y = advanceMono ((s.wport e).idleFrom + (portCfg s e).lpiIdle * 1000) s → anyEligible y e = false → 
      ∃ t, exec (.lpiEntry e) s = .next t ∧ (t.wport e).lpiTx = true ∧ tallyOf (t.wport e).counts 84 = satInc 32 (tallyOf (s.wport e).counts 84)) ∧
  -- LPI_WAKE_END, the link lost meanwhile: nothing starts
  (∀ (e d : Nat) (s : State), alive s = true → (s.wport e).wakeEnd = some d → (s.wport e).link ≠ 1 → d ≤ s.time.mono → s.time.acc < 2 ^ 96 → 
      ∃ t, exec (.lpiWakeEnd e) s = .next t ∧ became { s with wired.ports := Map.set s.wired.ports e { s.wport e with wakeEnd := none } } t) ∧
  -- LPI_WAKE_END: the frame that waited starts
  (∀ (e d q : Nat) (x : Queued) (f : Frame) (p : PQueue) (s : State), alive s = true → e < 16 → wiredOn s = true → (s.wport e).link = 1 → (s.wport e).tx = none → (s.wport e).pauseEnd = none → (s.wport e).wakeEnd = some d → d ≤ s.time.mono → (s.wport e).plca = 0 → (s.wport e).retry = none → (s.wport e).lpiTx = false → (s.wport e).gapEnd ≤ s.time.mono → s.time.acc < 2 ^ 96 → unitUp s 4 = true → s.plan.queues = [(q, p)] → p.frames = [x] → q ≤ 0xDF ∧ q / 8 = e → x.held = false → x.payload = .eth f → x.tagged = false → (classSet s (classKey e (q % 8))).shaped = false → gateList s e = none → 
      ∃ t, exec (.lpiWakeEnd e) s = .next t ∧ ((t.wport e).tx.map (fun y => (y.item, y.startNs, y.endNs)) = some ({ x with waited := false }, s.time.mono, s.time.mono + frameNs s e (sentBytes x)) ∧ (t.wport e).wakeEnd = none ∧ (t.queue q).frames = [] ∧ t.mem = s.mem ∧ t.kept = s.kept)) ∧
  -- WIRED_TX_END of a frame without a stamp, no pause waiting: it is counted, its cells are given back, the gap follows
  (∀ (e : Nat) (x : WiredTx) (f : Frame) (s : State), alive s = true → (s.wport e).tx = some x → x.endNs ≤ s.time.mono → s.time.acc < 2 ^ 96 → x.item.payload = .eth f → f.stamp = none → x.item.pool = 0 → x.item.cells = none → (s.wport e).pauseDue = none → (s.wport e).pauseAfter = none → (s.wport e).plca = 0 → s.kept.wired.ports.all (fun y => !y.2.pauseTx) = true → 
      ∃ t, exec (.wiredTxEnd e) s = .next t ∧ ((t.wport e).tx = none ∧ (t.wport e).attempts = 0 ∧ (t.wport e).counts = tally (s.wport e).counts 68 ∧ (t.wport e).gapEnd = s.time.mono + bitsNs s e 96 ∧ (t.wport e).idleFrom = s.time.mono ∧ t.mem = s.mem ∧ t.plan = s.plan ∧ t.kept = s.kept)) ∧
  -- WIRED_TX_END of any frame: it is off the wire, the port may send again after the gap
  (∀ (e : Nat) (x : WiredTx) (s : State), alive s = true → (s.wport e).tx = some x → 
      ∃ t, exec (.wiredTxEnd e) s = .next t ∧ (t.wport e).tx = none ∧ (t.wport e).attempts = 0 ∧ (t.wport e).pauseAfter = none ∧ (t.wport e).idleFrom = (advanceMono x.endNs s).time.mono) ∧
  -- L2_AGE_SWEEP: learned entries without HIT go, the others lose it
  (∀ (s : State), alive s = true → s.kept.wired.switch.l2Age ≠ 0 → s.wired.l2Sweep + s.kept.wired.switch.l2Age / 2 ≤ s.beat → 
      ∃ t, exec (.l2AgeSweep) s = .next t ∧ became { s with wired.l2Sweep := s.beat, wired.learned := (s.wired.learned.filter (fun e => e.2.hit)).map (fun e => (e.1, { e.2 with hit := false })) } t) ∧
  -- FLOW_AGE_SWEEP: flows without HIT go, the others lose it
  (∀ (s : State), alive s = true → s.wired.flowSweep + s.kept.wired.switch.flowAge / 2 ≤ s.beat → 
      ∃ t, exec (.flowAgeSweep) s = .next t ∧ became { s with wired.flowSweep := s.beat, wired.flows := (s.wired.flows.filter (fun e => e.2.hit)).map (fun e => (e.1, { e.2 with hit := false })) } t)

/-- The commands of the wired ports and of bridging complete. Each command of area 0x04 for ports, VLANs, groups and
learned entries, sent READY with good fields and accepted at once, is answered with the fields of its table; settings
are staged for the next commit window, while WIRED_L2_SET acts at once. -/
def Obligations.WiredCommandsComplete : Prop :=
  -- WIRED_PORT_SET of an RMII port, no rapid spanning tree: the whole of Table 8-11 is staged
  (∀ (c : Cmd) (s : State), readyFor c s = true → goodTable [fRange 16 1 0 27, fRange 17 1 0 6, fRange 18 1 0 2, fAny 19 1, fRange 20 2 64 9216, fRange 22 2 1 4094, fRange 24 1 0 2, fMask 25 1 1, fRange 26 1 0 2, fRange 27 1 0 7, fRange 28 2 4 4096, fAny 30 2, fRange 32 2 1 65535, fRange 34 2 10 10000, fRange 36 2 0 1000, fAny 38 1, fZero 39 1, fAny 40 16] c = true → c.u 16 1 < 4 → c.u 17 1 = 2 → c.u 18 1 ≤ 1 → c.u 30 2 + 4 ≤ c.u 28 2 → c.u 40 16 = 0 → s.next.wired.switch.rstp = 0 → 
      ∃ t, exec (.wiredPortSet c) s = .next t ∧ ended 0x0401 c s {} { s with next.wired.ports := Map.set s.next.wired.ports (c.u 16 1) { mode := 2, fec := c.u 18 1, an := hasBit (c.u 19 1) 0, eee := hasBit (c.u 19 1) 1, pauseRx := hasBit (c.u 19 1) 2, pauseTx := hasBit (c.u 19 1) 3, learn := hasBit (c.u 19 1) 4, sTag := hasBit (c.u 19 1) 5, dscpTrust := hasBit (c.u 19 1) 6, deiIn := hasBit (c.u 19 1) 7, maxFrame := c.u 20 2, pvid := c.u 22 2, accept := c.u 24 1, ingressFilter := c.flag 25 1 0, state := c.u 26 1, defaultClass := c.u 27 1, xoffKb := c.u 28 2, xonKb := c.u 30 2, quanta := c.u 32 2, lpiIdle := c.u 34 2, twMin := c.u 36 2, phyad := c.u 38 1 } } t) ∧
  -- WIRED_PORT_SET with RSTP set for the port and another STATE: DENIED, nothing changed
  (∀ (c : Cmd) (s : State), readyFor c s = true → goodTable [fRange 16 1 0 27, fRange 17 1 0 6, fRange 18 1 0 2, fAny 19 1, fRange 20 2 64 9216, fRange 22 2 1 4094, fRange 24 1 0 2, fMask 25 1 1, fRange 26 1 0 2, fRange 27 1 0 7, fRange 28 2 4 4096, fAny 30 2, fRange 32 2 1 65535, fRange 34 2 10 10000, fRange 36 2 0 1000, fAny 38 1, fZero 39 1, fAny 40 16] c = true → c.u 16 1 = 1 → c.u 17 1 = 2 → c.u 18 1 ≤ 1 → c.u 30 2 + 4 ≤ c.u 28 2 → c.u 40 16 = 0 → hasBit s.next.wired.switch.rstp 1 = true → c.u 26 1 ≠ (Map.getD s.next.wired.ports 1 {}).state → 
      ∃ t, exec (.wiredPortSet c) s = .next t ∧ ended 0x0401 c s { status := 6, detail := 45 } s t) ∧
  -- WIRED_PORT_STATUS of a port that is up, not paused
  (∀ (c : Cmd) (s : State), readyFor c s = true → goodTable [fRange 16 1 0 23, fZero 17 3] c = true → (s.wport (c.u 16 1)).link = 1 → (s.wport (c.u 16 1)).pauseEnd = none → 
      ∃ t, exec (.wiredPortStatus c) s = .next t ∧ ended 0x0402 c s { body := le 1 1 ++ le 1 (s.wport (c.u 16 1)).speed ++ le 1 (fieldsWord [(0, 0), (1, bit (s.wport (c.u 16 1)).xoff)]) ++ le 1 (fieldsWord [(0, bit (s.wport (c.u 16 1)).lpiTx), (1, bit (s.wport (c.u 16 1)).lpiRx), (2, bit (s.wport (c.u 16 1)).eeeAgreed)]) ++ le 2 (twTx s (c.u 16 1)) ++ le 2 (defaultTw (portCfg s (c.u 16 1)).mode (s.wport (c.u 16 1)).speed) ++ le 1 (s.wport (c.u 16 1)).plca ++ le 3 0 ++ le 4 0 ++ le 4 (s.wport (c.u 16 1)).linkChanges } s t) ∧
  -- WIRED_PORT_STATUS of any port, up, down or paused
  (∀ (c : Cmd) (p : WPort) (w : Nat) (s : State), readyFor c s = true → goodTable [fRange 16 1 0 23, fZero 17 3] c = true → p = s.wport (c.u 16 1) → w = (match p.pauseEnd with | some t => t - s.time.mono | none => 0) → 
      ∃ t, exec (.wiredPortStatus c) s = .next t ∧ ended 0x0402 c s { body := le 1 p.link ++ le 1 (if p.link = 0 then modeSpeed (portCfg s (c.u 16 1)).mode 0 else p.speed) ++ le 1 (fieldsWord [(0, bit (decide (w ≠ 0))), (1, bit p.xoff)]) ++ le 1 (fieldsWord [(0, bit p.lpiTx), (1, bit p.lpiRx), (2, bit p.eeeAgreed)]) ++ le 2 (twTx s (c.u 16 1)) ++ le 2 (defaultTw (portCfg s (c.u 16 1)).mode p.speed) ++ le 1 p.plca ++ le 3 0 ++ le 4 (min w 0xFFFFFFFF) ++ le 4 p.linkChanges } s t) ∧
  -- WIRED_T1S_SET
  (∀ (c : Cmd) (s : State), readyFor c s = true → goodTable [fRange 16 1 16 23, fMask 17 1 1, fRange 18 1 0 254, fRange 19 1 2 32, fRange 20 1 16 255, fRange 21 1 0 15, fRange 22 1 32 255, fZero 23 1] c = true → 
      ∃ t, exec (.wiredT1sSet c) s = .next t ∧ ended 0x0403 c s {} { s with next.wired.t1s := Map.set s.next.wired.t1s (c.u 16 1) { plca := c.flag 17 1 0, nodeId := c.u 18 1, nodeCount := c.u 19 1, toTimer := c.u 20 1, maxBurst := c.u 21 1, burstTimer := c.u 22 1 } } t) ∧
  -- WIRED_SWITCH_CONFIG
  (∀ (c : Cmd) (s : State), readyFor c s = true → goodTable [fAny 16 4, fRange 20 4 1000 4000000, fRange 24 4 0 0xFFFFFF, fMask 28 1 1, fZero 29 3] c = true → (c.u 16 4 = 0 ∨ 10000 ≤ c.u 16 4 ∧ c.u 16 4 ≤ 4000000) → 
      ∃ t, exec (.wiredSwitchConfig c) s = .next t ∧ ended 0x0404 c s {} { s with next.wired.switch := { l2Age := c.u 16 4, flowAge := c.u 20 4, rstp := c.u 24 4, route := c.flag 28 1 0 } } t) ∧
  -- WIRED_SWITCH_CONFIG with an age that is neither 0 nor in range: BAD_ARG
  (∀ (c : Cmd) (s : State), readyFor c s = true → goodTable [fAny 16 4, fRange 20 4 1000 4000000, fRange 24 4 0 0xFFFFFF, fMask 28 1 1, fZero 29 3] c = true → c.u 16 4 ≠ 0 → (c.u 16 4 < 10000 ∨ 4000000 < c.u 16 4) → 
      ∃ t, exec (.wiredSwitchConfig c) s = .next t ∧ ended 0x0404 c s { status := 3, detail := 16 } s t) ∧
  -- WIRED_VLAN_SET
  (∀ (c : Cmd) (s : State), readyFor c s = true → goodTable [fRange 16 2 1 4094, fMask 18 1 7, fZero 19 1, fRange 20 4 0 0x0FFFFFFF, fRange 24 4 0 0x00FFFFFF] c = true → 
      ∃ t, exec (.wiredVlanSet c) s = .next t ∧ ended 0x0405 c s {} { s with next.wired.vlans := Map.set s.next.wired.vlans (c.u 16 2) { valid := c.flag 18 1 0, learn := c.flag 18 1 1, dhcp := c.flag 18 1 2, member := c.u 20 4, untag := c.u 24 4 } } t) ∧
  -- WIRED_GROUP_SET
  (∀ (c : Cmd) (s : State), readyFor c s = true → goodTable [fRange 16 1 0 255, fZero 17 3, fRange 20 4 0 0x0FFFFFFF] c = true → 
      ∃ t, exec (.wiredGroupSet c) s = .next t ∧ ended 0x0406 c s {} { s with next.wired.groups := Map.set s.next.wired.groups (c.u 16 1) (c.u 20 4) } t) ∧
  -- WIRED_L2_SET of a new static entry: it is in force at once, in the first free place of its bucket
  (∀ (c : Cmd) (i : Nat) (s : State), readyFor c s = true → goodTable [fAny 16 6, fRange 22 2 1 4094, fRange 24 1 0 5, fMask 25 1 15, fAny 26 2, fAny 28 2, fRange 30 1 0 7, fZero 31 1] c = true → destOk (c.u 24 1) (c.u 26 2) = true → c.u 28 2 ≤ 1023 → c.flag 25 1 0 = true → l2Find s (macAt c 16) (c.u 22 2) = none → l2Free s (l2Bucket (macAt c 16) (c.u 22 2)) = some i → 
      ∃ t, exec (.wiredL2Set c) s = .next t ∧ ended 0x0407 c s { body := le 2 (l2Bucket (macAt c 16) (c.u 22 2)) ++ le 1 (i % 4) ++ [0] } (setKept (fun k => { k with wired.statics := Map.set (Map.erase k.wired.statics i) i { mac := macAt c 16, vid := c.u 22 2, destKind := c.u 24 1, static := true, hit := c.flag 25 1 2, classOvr := c.flag 25 1 3, dest := c.u 26 2, policer := c.u 28 2, cls := c.u 30 1 } }) { s with wired.learned := Map.erase s.wired.learned i }) t) ∧
  -- WIRED_L2_SET without VALID: the entry found goes
  (∀ (c : Cmd) (i : Nat) (s : State), readyFor c s = true → goodTable [fAny 16 6, fRange 22 2 1 4094, fRange 24 1 0 5, fMask 25 1 15, fAny 26 2, fAny 28 2, fRange 30 1 0 7, fZero 31 1] c = true → destOk (c.u 24 1) (c.u 26 2) = true → c.u 28 2 ≤ 1023 → c.flag 25 1 0 = false → l2Find s (macAt c 16) (c.u 22 2) = some i → 
      ∃ t, exec (.wiredL2Set c) s = .next t ∧ ended 0x0407 c s { body := le 2 (l2Bucket (macAt c 16) (c.u 22 2)) ++ le 1 (i % 4) ++ [0] } (setKept (fun k => { k with wired.statics := Map.erase k.wired.statics i }) { s with wired.learned := Map.erase s.wired.learned i }) t)

/-- The commands of routing, classes and management of the wired ports complete. Each command of area 0x04 for
routing, flows, classes, the external PHYs and the counters, sent READY with good fields and accepted at once, is
answered with the fields of its table; settings are staged for the next commit window, while WIRED_FLOW_SET and
WIRED_MDIO act at once. -/
def Obligations.WiredRoutingCommandsComplete : Prop :=
  -- WIRED_L3_IF_SET of a VID that no other interface has
  (∀ (c : Cmd) (s : State), readyFor c s = true → goodTable [fAny 16 1, fMask 17 1 7, fRange 18 2 1 4094, fAny 20 6, fRange 26 2 576 9198] c = true → s.next.wired.ifs = [] → 
      ∃ t, exec (.wiredL3IfSet c) s = .next t ∧ ended 0x0409 c s {} { s with next.wired.ifs := [(c.u 16 1, { enable := c.flag 17 1 0, v4 := c.flag 17 1 1, v6 := c.flag 17 1 2, vid := c.u 18 2, mac := macAt c 20, mtu := c.u 26 2 })] } t) ∧
  -- WIRED_L3_IF_SET of any interface whose VID no other enabled interface has
  (∀ (c : Cmd) (s : State), readyFor c s = true → goodTable [fAny 16 1, fMask 17 1 7, fRange 18 2 1 4094, fAny 20 6, fRange 26 2 576 9198] c = true → (c.flag 17 1 0 = true → s.next.wired.ifs.any (fun e => decide (e.1 ≠ c.u 16 1) && e.2.enable && decide (e.2.vid = c.u 18 2)) = false) → 
      ∃ t, exec (.wiredL3IfSet c) s = .next t ∧ ended 0x0409 c s {} { s with next.wired.ifs := Map.set s.next.wired.ifs (c.u 16 1) { enable := c.flag 17 1 0, v4 := c.flag 17 1 1, v6 := c.flag 17 1 2, vid := c.u 18 2, mac := macAt c 20, mtu := c.u 26 2 } } t) ∧
  -- WIRED_NEXTHOP_SET to a port
  (∀ (c : Cmd) (s : State), readyFor c s = true → goodTable [fRange 16 2 0 1023, fRange 18 1 0 4, fMask 19 1 1, fAny 20 2, fAny 22 1, fZero 23 1, fAny 24 6] c = true → c.u 18 1 = 0 → c.u 20 2 ≤ 27 → 
      ∃ t, exec (.wiredNexthopSet c) s = .next t ∧ ended 0x040A c s {} { s with next.wired.nexthops := Map.set s.next.wired.nexthops (c.u 16 2) { kind := 0, valid := c.flag 19 1 0, dest := c.u 20 2, ifc := c.u 22 1, mac := macAt c 24 } } t) ∧
  -- WIRED_PREFIX_SET of the first IPv4 prefix
  (∀ (c : Cmd) (s : State), readyFor c s = true → goodTable [fMask 16 1 3, fAny 17 1, fRange 18 1 0 2, fZero 19 1, fRange 20 2 0 1023, fZero 22 2, fAny 24 16] c = true → c.flag 16 1 0 = true → c.flag 16 1 1 = false → c.u 17 1 ≤ 32 → leNat (c.bytesAt 24 4).reverse % 2 ^ (32 - c.u 17 1) = 0 → c.u 28 12 = 0 → s.next.wired.prefixes = [] → 
      ∃ t, exec (.wiredPrefixSet c) s = .next t ∧ ended 0x040B c s { body := le 2 1 ++ [0, 0] } { s with next.wired.prefixes := [{ v6 := false, len := c.u 17 1, addr := leNat (c.bytesAt 24 4).reverse, action := c.u 18 1, nh := c.u 20 2 }] } t) ∧
  -- WIRED_PREFIX_SET of any prefix, IPv4 or IPv6, added or taken out
  (∀ (c : Cmd) (v6 : Bool) (a : Nat) (ps : List Prefix) (s : State), readyFor c s = true → goodTable [fMask 16 1 3, fAny 17 1, fRange 18 1 0 2, fZero 19 1, fRange 20 2 0 1023, fZero 22 2, fAny 24 16] c = true → v6 = c.flag 16 1 1 → c.u 17 1 ≤ (if v6 then 128 else 32) → a = (if v6 then leNat (c.bytesAt 24 16).reverse else leNat (c.bytesAt 24 4).reverse) → a % 2 ^ ((if v6 then 128 else 32) - c.u 17 1) = 0 → (v6 = true ∨ c.u 28 12 = 0) → ps = s.next.wired.prefixes.filter (fun p => ¬ (p.v6 = v6 ∧ p.len = c.u 17 1 ∧ p.addr = a)) ++ (if c.flag 16 1 0 then [{ v6 := v6, len := c.u 17 1, addr := a, action := c.u 18 1, nh := c.u 20 2 }] else []) → ps.length ≤ 2048 → 
      ∃ t, exec (.wiredPrefixSet c) s = .next t ∧ ended 0x040B c s { body := le 2 ps.length ++ [0, 0] } { s with next.wired.prefixes := ps } t) ∧
  -- WIRED_FLOW_SET of a new IPv4 flow: in force at once, in the first place of its bucket
  (∀ (c : Cmd) (f : Flow) (s : State), readyFor c s = true → goodTable [fMask 16 1 7, fAny 17 1, fRange 18 2 1 4094, fAny 20 2, fAny 22 2, fAny 24 16, fAny 40 16, fRange 56 2 0 1023, fAny 58 2, fRange 60 1 0 7, fZero 61 3] c = true → c.flag 16 1 0 = true → c.flag 16 1 1 = false → c.u 28 12 = 0 → c.u 44 12 = 0 → c.u 58 2 = 0xFFFF → s.wired.flows = [] → f = { v6 := false, proto := c.u 17 1, vid := c.u 18 2, sport := c.u 20 2, dport := c.u 22 2, src := leNat (c.bytesAt 24 4).reverse, dst := leNat (c.bytesAt 40 4).reverse, nh := c.u 56 2, policer := 0xFFFF, classOvr := c.flag 16 1 2, cls := c.u 60 1 } → 
      ∃ t, exec (.wiredFlowSet c) s = .next t ∧ ended 0x040C c s { body := le 2 (4 * flowBucket f) ++ [0, 0] } { s with wired.flows := [(4 * flowBucket f, f)] } t) ∧
  -- WIRED_CLASS_MAP of the PCP map
  (∀ (c : Cmd) (s : State), readyFor c s = true → goodTable [fRange 16 1 0 27, fMask 17 1 3, fZero 18 2, fAny 20 8, fAny 28 64] c = true → c.flag 17 1 0 = true → c.flag 17 1 1 = false → (∀ k, k < 8 → c.u (20 + k) 1 ≤ 7) → 
      ∃ t, exec (.wiredClassMap c) s = .next t ∧ ended 0x040D c s {} { s with next.wired.pcpMaps := Map.set s.next.wired.pcpMaps (c.u 16 1) ((List.range 8).map (fun k => c.u (20 + k) 1)) } t) ∧
  -- WIRED_MDIO, a write: the transaction goes out and the word written is answered
  (∀ (c : Cmd) (s : State), readyFor c s = true → goodTable [fRange 16 1 0 4, fRange 17 1 0 31, fRange 18 1 0 31, fZero 19 1, fAny 20 2, fAny 22 2] c = true → c.u 16 1 = 1 → c.u 20 2 ≤ 31 → s.stw.jobs = [] → 
      ∃ t, exec (.wiredMdio c) s = .next t ∧ answered 0x040E s.beat c { body := le 2 (c.u 22 2) } t ∧ t = { s with stw := t.stw, outbox := t.outbox } ∧ [.frame 5 3 [1, c.u 17 1, c.u 18 1, c.u 20 2, c.u 22 2]] <+: t.outbox) ∧
  -- WIRED_MDIO, a read of either clause: the transaction goes out, what the PHY answers is open
  (∀ (c : Cmd) (s : State), readyFor c s = true → goodTable [fRange 16 1 0 4, fRange 17 1 0 31, fRange 18 1 0 31, fZero 19 1, fAny 20 2, fAny 22 2] c = true → ((c.u 16 1 = 0 ∧ c.u 20 2 ≤ 31) ∨ c.u 16 1 = 2) → s.stw.jobs.any (fun j => decide (j.opcode = 0x040E) && decide (j.lane ≠ c.lane)) = false → 
      ∃ t, exec (.wiredMdio c) s = .next t ∧ answered 0x040E s.beat c { body := le 2 (Config.freeNat s.draws) } t ∧ [.frame 5 3 [c.u 16 1, c.u 17 1, c.u 18 1, c.u 20 2, c.u 22 2]] <+: t.outbox) ∧
  -- WIRED_L2_READ of the table from an index: the entries at and after it go to the bulk region
  (∀ (c : Cmd) (l : List (Nat × L2Entry)) (b : List Byte) (s : State), readyFor c s = true → goodTable [fRange 16 2 0 16383, fRange 18 2 1 4096] c = true → hasBit c.flags 0 = true → 16 * c.u 18 2 ≤ c.bulkLen → l = (l2All s).filter (fun e => e.1 ≥ c.u 16 2) → l.length < c.u 18 2 → b = (l.map (fun e => e.2.bytes)).flatten → 
      ∃ t, exec (.wiredL2Read c) s = .next t ∧ answered 0x0408 s.beat c { body := le 2 l.length ++ le 2 0xFFFF, bulkOut := b.length } t ∧ t = { s with stw := t.stw, outbox := t.outbox } ∧ (t.lane c.lane).bulk = Memory.writeList ((taken 0x0408 c s).lane c.lane).bulk c.bulkOff b) ∧
  -- WIRED_COUNTERS of a port, without a clear
  (∀ (c : Cmd) (s : State), readyFor c s = true → goodTable [fOneOf 16 1 ((List.range 28) ++ [0xFF]), fMask 17 1 3, fMask 18 1 15, fZero 19 1] c = true → c.u 16 1 ≤ 27 → c.u 17 1 = 0 → 
      ∃ t, exec (.wiredCounters c) s = .next t ∧ ended 0x040F c s { body := le 1 (wiredSticky s) ++ le 3 0 ++ (le 8 (s.wport (c.u 16 1)).rxClientBytes ++ le 8 (s.wport (c.u 16 1)).txDelivBytes ++ tallyBytes (s.wport (c.u 16 1)).counts 36 20 ++ List.replicate 32 0) } s t) ∧
  -- WIRED_COUNTERS of the switch, clearing it and every sticky bit
  (∀ (c : Cmd) (s : State), readyFor c s = true → goodTable [fOneOf 16 1 ((List.range 28) ++ [0xFF]), fMask 17 1 3, fMask 18 1 15, fZero 19 1] c = true → c.u 16 1 = 0xFF → c.u 17 1 = 3 → c.u 18 1 = 15 → 
      ∃ t, exec (.wiredCounters c) s = .next t ∧ ended 0x040F c s { body := le 1 (wiredSticky s) ++ le 3 0 ++ (List.replicate 96 0 ++ tallyBytes s.wired.counts 116 8) } { s with wired.counts := [], wired.linkDownStk := false, wired.plcaStk := false, wired.l2FullStk := false, wired.flowFullStk := false } t)

/-- The memory commands complete. Each command of area 0x08, sent READY with good fields and accepted at once, is
answered with the fields of its table; a ring is enabled, disabled and read at once, every other setting is staged. -/
def Obligations.MemoryCommandsComplete : Prop :=
  -- MEM_CONFIG of the devices detected
  (∀ (c : Cmd) (s : State), readyFor c s = true → goodTable [fRange 16 1 0 1, fRange 17 1 1 2, fAny 18 2, fOneOf 20 1 [2, 4, 8], fRange 21 1 8 16, fMask 22 1 1, fZero 23 1] c = true → s.mem.detected = some {} → c.u 16 1 = 1 → c.u 17 1 = 1 → rateOk 1 (c.u 18 2) = true → c.u 20 1 = 2 → 
      ∃ t, exec (.memConfig c) s = .next t ∧ ended 0x0801 c s { body := [1, 1, 2, 0] } { s with next.mem.config := some { type := 1, ranks := 1, rate := c.u 18 2, gb := 2, grain := c.u 21 1, ecc := c.flag 22 1 0 } } t) ∧
  -- MEM_CONFIG of a TYPE that is not the one detected: BAD_ARG
  (∀ (c : Cmd) (s : State), readyFor c s = true → goodTable [fRange 16 1 0 1, fRange 17 1 1 2, fAny 18 2, fOneOf 20 1 [2, 4, 8], fRange 21 1 8 16, fMask 22 1 1, fZero 23 1] c = true → s.mem.detected = some {} → c.u 16 1 = 0 → 
      ∃ t, exec (.memConfig c) s = .next t ∧ ended 0x0801 c s { status := 3, detail := 16 } s t) ∧
  -- MEM_POOL_SET that leaves STEWARD 512 MB or more
  (∀ (c : Cmd) (m : Nat) (s : State), readyFor c s = true → goodTable [fAny 16 4, fAny 20 4, fAny 24 4, fAny 28 4, fRange 32 1 0 100, fZero 33 3] c = true → c.u 16 4 % 64 = 0 → c.u 20 4 % 64 = 0 → c.u 24 4 % 64 = 0 → c.u 28 4 % 64 = 0 → stewardMb (s.next.mem.config.getD (s.mem.detected.getD {})) { queueMb := c.u 16 4, psMb := c.u 20 4, ringMb := c.u 24 4, captureMb := c.u 28 4, psW1Pct := c.u 32 1 } = some m → 512 ≤ m → 
      ∃ t, exec (.memPoolSet c) s = .next t ∧ ended 0x0802 c s { body := le 4 m } { s with next.mem.pools := { queueMb := c.u 16 4, psMb := c.u 20 4, ringMb := c.u 24 4, captureMb := c.u 28 4, psW1Pct := c.u 32 1 } } t) ∧
  -- MEM_CELL_SET of one account
  (∀ (c : Cmd) (s : State), readyFor c s = true → goodTable [fOneOf 16 1 (List.range 29 ++ [0xFF]), fZero 17 1, fRange 18 2 0 4096, fRange 20 4 0 65536] c = true → c.u 16 1 ≤ 28 → reserveSum (Map.set s.next.mem.cells (c.u 16 1) (c.u 18 2, c.u 20 4)) ≤ 32768 → 
      ∃ t, exec (.memCellSet c) s = .next t ∧ ended 0x0803 c s {} { s with next.mem.cells := Map.set s.next.mem.cells (c.u 16 1) (c.u 18 2, c.u 20 4) } t) ∧
  -- MEM_CELL_SET that takes the reserves above 32,768 cells: BAD_ARG
  (∀ (c : Cmd) (s : State), readyFor c s = true → goodTable [fOneOf 16 1 (List.range 29 ++ [0xFF]), fZero 17 1, fRange 18 2 0 4096, fRange 20 4 0 65536] c = true → c.u 16 1 ≤ 28 → 32768 < reserveSum (Map.set s.next.mem.cells (c.u 16 1) (c.u 18 2, c.u 20 4)) → reserveSum s.next.mem.cells ≤ 32768 → 
      ∃ t, exec (.memCellSet c) s = .next t ∧ ended 0x0803 c s { status := 3, detail := 18 } s t) ∧
  -- MEM_PORT_SET of a real-time port: only the panic threshold changes
  (∀ (c : Cmd) (s : State), readyFor c s = true → goodTable [fRange 16 1 0 8, fAny 17 1, fAny 18 1, fZero 19 1, fAny 20 2] c = true → c.u 16 1 ≤ 5 → 20 ≤ c.u 17 1 ∧ c.u 17 1 ≤ 70 → 
      ∃ t, exec (.memPortSet c) s = .next t ∧ ended 0x0804 c s {} { s with next.mem.ports := Map.set s.next.mem.ports (c.u 16 1) { Map.getD s.next.mem.ports (c.u 16 1) { weight := 2 } with panicPct := c.u 17 1 } } t) ∧
  -- MEM_PORT_SET of another port: its weight and its lease change
  (∀ (c : Cmd) (s : State), readyFor c s = true → goodTable [fRange 16 1 0 8, fAny 17 1, fAny 18 1, fZero 19 1, fAny 20 2] c = true → c.u 16 1 = 6 → 1 ≤ c.u 18 1 ∧ c.u 18 1 ≤ 16 → 20 ≤ c.u 20 2 ∧ c.u 20 2 ≤ 5000 → 
      ∃ t, exec (.memPortSet c) s = .next t ∧ ended 0x0804 c s {} { s with next.mem.ports := Map.set s.next.mem.ports 6 { Map.getD s.next.mem.ports 6 { weight := 4 } with weight := c.u 18 1, leaseUs := c.u 20 2 } } t) ∧
  -- MEM_RING_SET that enables a host ring, from lane 0
  (∀ (c : Cmd) (s : State), readyFor c s = true → goodTable [fAny 16 1, fMask 17 1 3, fAny 18 2, fAny 20 2, fAny 22 2, fAny 24 8, fAny 32 8] c = true → c.lane = 0 → hostRing (c.u 16 1) = true → c.flag 17 1 0 = true → c.u 18 2 = 256 → 5 ≤ c.u 20 2 ∧ c.u 20 2 ≤ 1000 → 1 ≤ c.u 22 2 ∧ c.u 22 2 ≤ 1000 → c.u 24 8 % 64 = 0 → (s.ring (c.u 16 1)).on = false → 
      ∃ t, exec (.memRingSet c) s = .next t ∧ ended 0x0805 c s {} (updRing (c.u 16 1) (fun g => { g with on := true, notify := c.flag 17 1 1, entries := 256, pollUs := c.u 20 2, statusUs := c.u 22 2, base := c.u 24 8, statusAddr := c.u 32 8, nextIdx := 0, deviceHeld := 0, open' := none, statusDue := false, statusAt := none }) s) t) ∧
  -- MEM_RING_SET that disables a ring that is on
  (∀ (c : Cmd) (s : State), readyFor c s = true → goodTable [fAny 16 1, fMask 17 1 3, fAny 18 2, fAny 20 2, fAny 22 2, fAny 24 8, fAny 32 8] c = true → c.lane = 0 → hostRing (c.u 16 1) = true → c.flag 17 1 0 = false → (s.ring (c.u 16 1)).on = true → 
      ∃ t, exec (.memRingSet c) s = .next t ∧ ended 0x0805 c s {} (disableRing (c.u 16 1) s) t) ∧
  -- MEM_RING_SET from another lane: DENIED
  (∀ (c : Cmd) (s : State), readyFor c s = true → goodTable [fAny 16 1, fMask 17 1 3, fAny 18 2, fAny 20 2, fAny 22 2, fAny 24 8, fAny 32 8] c = true → c.lane ≠ 0 → 
      ∃ t, exec (.memRingSet c) s = .next t ∧ ended 0x0805 c s { status := 6, detail := 0xFF } s t) ∧
  -- MEM_RING_READ
  (∀ (c : Cmd) (s : State), readyFor c s = true → goodTable [fAny 16 1, fZero 17 3] c = true → ringExists (c.u 16 1) = true → 
      ∃ t, exec (.memRingRead c) s = .next t ∧ ended 0x0806 c s { body := le 2 (s.ring (c.u 16 1)).nextIdx ++ le 1 (bit (s.ring (c.u 16 1)).on) ++ [0] ++ le 2 (s.ring (c.u 16 1)).deviceHeld ++ le 4 (s.ring (c.u 16 1)).dry ++ le 4 (s.ring (c.u 16 1)).offDrop } s t) ∧
  -- MEM_STATUS: the free megabytes of STEWARD and RING are open and within their pools
  (∀ (c : Cmd) (s : State), readyFor c s = true → goodTable [] c = true → 
      ∃ a b, a ≤ (stewardMb s.mem.config s.mem.pools).getD 0 ∧ b ≤ s.mem.pools.ringMb ∧ ∃ t, exec (.memStatus c) s = .next t ∧ ended 0x0807 c s { body := (le 2 s.mem.config.rate ++ le 1 (s.channel 0).m ++ le 1 (s.channel 0).stale ++ leInt 2 (s.channel 0).temp ++ le 10 0) ++ (le 2 s.mem.config.rate ++ le 1 (s.channel 1).m ++ le 1 (s.channel 1).stale ++ leInt 2 (s.channel 1).temp ++ le 10 0) ++ le 4 a ++ le 4 ((poolBytes s 1 - poolUsed s 1) / 2 ^ 20) ++ le 4 ((poolBytes s 2 - poolUsed s 2) / 2 ^ 20 + (poolBytes s 3 - poolUsed s 3) / 2 ^ 20) ++ le 4 b ++ le 4 ((poolBytes s 5 - poolUsed s 5) / 2 ^ 20) ++ le 4 (65536 - cellsUsed s) } { s with draws := s.draws + 2 } t) ∧
  -- MEM_COUNTERS of a DRAM port, clearing it and two sticky bits
  (∀ (c : Cmd) (s : State), readyFor c s = true → goodTable [fAny 16 1, fMask 17 1 3, fMask 18 1 7, fZero 19 1] c = true → c.u 16 1 = 4 → c.u 17 1 = 3 → c.u 18 1 = 5 → 
      ∃ t, exec (.memCounters c) s = .next t ∧ ended 0x0808 c s { body := le 1 (memSticky s) ++ [0, 0, 0] ++ List.replicate 20 0 ++ le 4 (s.dport 2).panicCnt ++ le 4 (s.dport 2).underrun ++ le 4 (s.dport 2).overflow ++ le 4 (s.dport 2).expire ++ List.replicate 28 0 } { s with mem.ports := Bank.modify s.mem.ports 2 (fun d => { d with panicCnt := 0, underrun := 0, overflow := 0, expire := 0 }), mem.eccUeStk := false, mem.rtFaultStk := false } t)

/-- What the memory does at its events. Refresh bursts, MR4 reads, reads of DRAM, lease expiry, panic, the polls of
transmit rings and the status blocks act as given; where a clause gives the whole state, nothing else changes. -/
def Obligations.MemoryEventsTakeEffect : Prop :=
  -- MR4_READ at a beat that is a multiple of 16: the multiplier waits for the commit window
  (∀ (k m : Nat) (temp : Int) (s : State), alive s = true → k < 2 → (m = 1 ∨ m = 2 ∨ m = 4) → s.beat % 16 = 0 → s.power.dramAwake = true → 
      ∃ t, exec (.mr4Read k m temp) s = .next t ∧ became { s with mem.channels := Bank.modify s.mem.channels k (fun c => { c with mNext := m, temp := temp }) } t) ∧
  -- PORT_LEASE_EXPIRY: what was outstanding is gone, MEM_PORT_LEASE_EXPIRE is raised
  (∀ (p : Nat) (s : State), alive s = true → 6 ≤ p ∧ p ≤ 8 → 
      ∃ t, exec (.portLeaseExpiry p) s = .next t ∧ became (raise 6 0x0806 (le 1 p ++ le 1 (dportOwner p)) { s with mem.ports := Bank.modify s.mem.ports p (fun d => { d with outstanding := 0, expire := satInc 32 d.expire }) }) t) ∧
  -- PANIC_RISE of a port that feeds a transmitter, below its threshold and not empty
  (∀ (p level : Nat) (tx : Bool) (s : State), alive s = true → p < 6 → dataPlane s = true → txPort p tx = true → 0 < level ∧ level ≤ fifoBytes p → level * 100 < (portSet s p).panicPct * fifoBytes p → 
      ∃ t, exec (.panicRise p level tx) s = .next t ∧ became { s with mem.ports := Bank.modify s.mem.ports p (fun d => { d with level := level, panic := if d.panic then !decide (((portSet s p).panicPct + 20) * fifoBytes p ≤ level * 100) else true, panicCnt := if d.panic then d.panicCnt else satInc 32 d.panicCnt }) } t) ∧
  -- PANIC_RISE of a transmit port's FIFO that is empty: an underrun
  (∀ (p : Nat) (tx : Bool) (s : State), alive s = true → p < 6 → dataPlane s = true → txPort p tx = true → 
      ∃ t, exec (.panicRise p 0 tx) s = .next t ∧ (t.mem.rtFaultStk = true ∧ (t.dport p).underrun = satInc 32 (s.dport p).underrun ∧ (t.dport p).level = 0 ∧ t.mem.cells = s.mem.cells ∧ t.kept = s.kept)) ∧
  -- DRAM_READ_DONE, a clean read by a real-time receive port
  (∀ (p a : Nat) (tx : Bool) (q : Option Nat) (s : State), alive s = true → p = 6 → s.power.dramAwake = true → 
      ∃ t, exec (.dramReadDone p a 0 tx q) s = .next t ∧ became { s with mem.ports := Bank.modify s.mem.ports 6 (fun d => { d with outstanding := d.outstanding - 1 }) } t) ∧
  -- DRAM_READ_DONE, uncorrectable, of a block that no frame waits in: the block is poisoned, counted and told of
  (∀ (a : Nat) (tx : Bool) (s : State), alive s = true → s.power.dramAwake = true → s.mem.poisoned.contains (a / 64) = false → 
      ∃ t, exec (.dramReadDone 6 a 2 tx none) s = .next t ∧ became (raise 6 0x0805 (le 1 (addrChannel s a) ++ le 4 (a / 64) ++ le 1 1) { s with mem.ports := Bank.modify s.mem.ports 6 (fun d => { d with outstanding := d.outstanding - 1 }), mem.counts := tally s.mem.counts 24, mem.eccUeStk := true, mem.poisoned := a / 64 :: s.mem.poisoned }) t) ∧
  -- RING_STATUS_WRITE of a host ring, the first since it was enabled, without notification: the block goes to the host
  (∀ (r : Nat) (s : State), alive s = true → (s.ring r).on = true → (s.ring r).statusDue = true → hostRing r = true → s.power.pcieUp = true → (s.ring r).statusAt = none → (s.ring r).notify = false → 
      ∃ t, exec (.ringStatusWrite r) s = .next t ∧ became (updRing r (fun g => { g with statusDue := false, statusAt := some s.time.mono }) s) t ∧ [.hostMem (s.ring r).statusAddr (le 2 (s.ring r).nextIdx ++ le 2 0 ++ le 4 s.beat ++ le 4 (s.ring r).dry ++ le 4 0)] <+: t.outbox) ∧
  -- TX_RING_POLL that finds a descriptor that no FIRST began: written back with status 2, counted
  (∀ (r : Nat) (d : TxDesc) (s : State), alive s = true → 16 ≤ r ∧ r ≤ 23 → (s.ring r).on = true → dataPlane s = true → s.power.pcieUp = true → s.power.mode ≠ .doze → d.own = true → d.first = false → (s.ring r).open' = none → s.kept.plan.gates = [] → s.kept.wired.ports.all (fun y => !y.2.pauseTx) = true → 
      ∃ t, exec (.txRingPoll r [d]) s = .next t ∧ became (updRing r (fun g => { g with nextIdx := (g.nextIdx + 1) % max 1 g.entries, statusDue := true }) (updRing r (fun g => { g with descErr := satInc 32 g.descErr, open' := none }) s)) t ∧ [.hostMem ((s.ring r).base + 32 * (s.ring r).nextIdx) (txWriteBack d 2)] <+: t.outbox) ∧
  -- TX_RING_POLL of a ring that serves: every descriptor up to the first that is not owned is taken, in order
  (∀ (r n : Nat) (ds : List TxDesc) (s : State), alive s = true → 16 ≤ r ∧ r ≤ 23 → (s.ring r).on = true → dataPlane s = true → s.power.pcieUp = true → s.power.mode ≠ .doze → n = (ds.takeWhile (·.own)).length → n ≠ 0 → 
      ∃ t, exec (.txRingPoll r ds) s = .next t ∧ (t.ring r).nextIdx = ((s.ring r).nextIdx + n) % max 1 (s.ring r).entries ∧ (t.ring r).statusDue = true) ∧
  -- REFRESH_BURST of a channel whose plan has bursts left, time already past its slot: counted in the beat, no training step due
  (∀ (k : Nat) (s : State), alive s = true → k < 2 → s.power.dramAwake = true → s.time.settling = false → (s.unit 6).busyUntil ≤ s.time.mono → s.boot.stage = 8 → (s.channel k).burstBeat = s.beat → (s.channel k).burst + 1 < (refreshPlan (s.channel k).m).2.1 → (s.beat * 1000000 + (20000 + (s.channel k).burst * (refreshPlan (s.channel k).m).2.2)) * 2 ^ 32 ≤ s.time.acc → s.time.acc < 2 ^ 96 → anyPanic s = false → s.front.runs = [] → 
      ∃ t, exec (.refreshBurst k 0 true) s = .next t ∧ became { s with mem.channels := Bank.modify s.mem.channels k (fun c => { c with burst := c.burst + 1, burstBeat := s.beat }) } t ∧ [.frame 6 0 [k, (s.channel k).burst, 4]] <+: t.outbox) ∧
  -- REFRESH_BURST of any channel whose plan has bursts left, at its slot, in panic or not, training or not: it is counted
  (∀ (k delay n : Nat) (ok : Bool) (s : State), alive s = true → k < 2 → s.power.dramAwake = true → s.time.settling = false → 7 ≤ s.boot.stage → n = (if (s.channel k).burstBeat = s.beat then (s.channel k).burst else 0) → n < (refreshPlan (s.channel k).m).2.1 → 
      ∃ t, exec (.refreshBurst k delay ok) s = .next t ∧ (t.channel k).burst = n + 1 ∧ (t.channel k).burstBeat = s.beat)

/-- What the power sequencer does at a request, at a choice of its own and with the core rail. A write of PWR_REQ, the
return to Full, the Steward's schedule, an operating point, and the readings and faults of the core rail act as given;
where a clause gives the whole state, nothing else changes. -/
def Obligations.PowerEventsTakeEffect : Prop :=
  -- PWR_REQ for a serving mode but Full
  (∀ (k q : Nat) (m : Mode) (s : State), alive s = true → windowUp s = true → k % 8 < 5 → m = modeOf (k % 8) → m.serves = true → m ≠ .full → m ≠ s.power.mode → s.power.mode.serves = true → s.boot.stage = 8 → inTransition s = false → opForMode s m ≤ s.power.confirmedOp → 
      ∃ t, exec (.pwrReqWrite k q) s = .next t ∧ became { s with stw.sticky := setBit32 s.stw.sticky 9, power.wantFull := false, power.change := some { target := m, eff := some (reckon s), asker := .req q, cause := 0 } } t) ∧
  -- PWR_REQ with a target that names no mode: BAD_ARG in PWR_RESULT
  (∀ (k q : Nat) (s : State), alive s = true → windowUp s = true → 5 ≤ k % 8 → inTransition s = false → 
      ∃ t, exec (.pwrReqWrite k q) s = .next t ∧ became { s with power.resultTag := q % 256, power.resultStatus := 3, power.resultCause := 0, power.resultSource := 0, stw.sticky := setBit32 s.stw.sticky 9 } t) ∧
  -- FULL_RETURN after 60,000 beats, once the voltage of the Full point is confirmed
  (∀ (s : State), alive s = true → 60000 ≤ s.power.fullBeats → s.power.wantFull = true → s.power.fullAllowed = true → s.power.mode.serves = true → s.power.mode ≠ .full → inTransition s = false → s.boot.stage = 8 → opForMode s .full ≤ s.power.confirmedOp → 
      ∃ t, exec (.fullReturn) s = .next t ∧ became { s with stw.sticky := setBit32 s.stw.sticky 9, power.change := some { target := .full, eff := some (reckon s), asker := .self, cause := 4 } } t) ∧
  -- FULL_RETURN where the voltage must rise first: the target is written and the change waits for it
  (∀ (s : State), alive s = true → 60000 ≤ s.power.fullBeats → s.power.wantFull = true → s.power.fullAllowed = true → s.power.mode.serves = true → s.power.mode ≠ .full → inTransition s = false → s.boot.stage = 8 → s.power.confirmedOp < opForMode s .full → raiseHeld s = false → 
      ∃ t, exec (.fullReturn) s = .next t ∧ became { s with stw.sticky := setBit32 s.stw.sticky 9, power.change := some { target := .full, eff := none, asker := .self, cause := 4 }, power.vcoreTarget := opTargetMv s (opForMode s .full), power.avs := some { mv := opTargetMv s (opForMode s .full), raise := true, op := opForMode s .full, writtenNs := s.ns }, power.avsRetries := 0 } t) ∧
  -- STEWARD_MODE_SCHEDULE: Watch from Lean
  (∀ (s : State), alive s = true → s.power.holds = [] → s.stw.state = .ready → s.power.mode = .lean → s.boot.stage = 8 → inTransition s = false → opForMode s .watch ≤ s.power.confirmedOp → 
      ∃ t, exec (.stewardModeSchedule 2) s = .next t ∧ became { s with stw.sticky := setBit32 s.stw.sticky 9, power.wantFull := false, power.change := some { target := .watch, eff := some (reckon s), asker := .self, cause := 3 } } t) ∧
  -- STEWARD_MODE_SCHEDULE while a host holds the mode: nothing
  (∀ (k : Nat) (s : State), alive s = true → s.power.holds ≠ [] → 
      ∃ t, exec (.stewardModeSchedule k) s = .next t ∧ became s t) ∧
  -- OPERATING_POINT_CHANGE to a point whose voltage is confirmed: it waits for the commit window
  (∀ (op : Nat) (s : State), alive s = true → opAllowed s s.power.mode op = true → op ≠ s.power.op → s.kept.power.config.opHold ≤ s.power.opBeats → s.power.opNext = none → s.power.avs = none → inTransition s = false → s.boot.stage = 8 → op ≤ s.power.confirmedOp → 
      ∃ t, exec (.operatingPointChange op) s = .next t ∧ became { s with power.opNext := some op } t) ∧
  -- OPERATING_POINT_CHANGE to a higher point: its voltage is written first
  (∀ (op : Nat) (s : State), alive s = true → opAllowed s s.power.mode op = true → op ≠ s.power.op → s.kept.power.config.opHold ≤ s.power.opBeats → s.power.opNext = none → s.power.avs = none → inTransition s = false → s.boot.stage = 8 → s.power.confirmedOp < op → raiseHeld s = false → 
      ∃ t, exec (.operatingPointChange op) s = .next t ∧ became { s with power.opNext := some op, power.vcoreTarget := opTargetMv s op, power.avs := some { mv := opTargetMv s op, raise := true, op := op, writtenNs := s.ns }, power.avsRetries := 0 } t) ∧
  -- AVS_READ within the tolerance of a raised target: the point is confirmed, and a change that waited takes its beat
  (∀ (mv : Nat) (a : AvsTarget) (x : ModeChange) (s : State), alive s = true → s.power.avs = some a → a.raise = true → a.mv ≤ mv + s.kept.power.config.avsTol → mv ≤ a.mv + s.kept.power.config.avsTol → s.kept.power.config.avsTol ≤ 25 → s.power.change = some x → x.eff = none → 
      ∃ t, exec (.avsRead true mv) s = .next t ∧ became { s with power.vcoreRead := mv, power.avsRetries := 0, power.avs := none, power.avsFaultRun := 0, power.confirmedOp := max s.power.confirmedOp a.op, power.change := some { x with eff := some (reckon s) }, assay.vcoreOff := none } t) ∧
  -- AVS_READ that was not acknowledged: the transaction is repeated, up to three times
  (∀ (mv : Nat) (s : State), alive s = true → s.power.avsRetries < 3 → 
      ∃ t, exec (.avsRead false mv) s = .next t ∧ became { s with power.avsRetries := s.power.avsRetries + 1, power.counts := tally s.power.counts 56 } t) ∧
  -- AVS_TIMEOUT of a raise that a change waited for: counted, logged, the change answered ABANDONED, REFUSED by source 1
  (∀ (q : Nat) (a : AvsTarget) (x : ModeChange) (s : State), alive s = true → s.power.avs = some a → a.raise = true → s.power.change = some x → x.eff = none → x.asker = .req q → 
      ∃ t, exec (.avsTimeout) s = .next t ∧ (t.power.avsFaultStk = true ∧ t.power.avsFaultRun = s.power.avsFaultRun + 1 ∧ t.power.counts = tally s.power.counts 60 ∧ t.power.change = none ∧ t.power.opNext = none ∧ t.power.resultTag = q % 256 ∧ t.power.resultStatus = 8 ∧ t.power.resultCause = 5 ∧ t.power.resultSource = 1)) ∧
  -- AVS_TIMEOUT of any target, raised or lowered: the fault is counted
  (∀ (a : AvsTarget) (s : State), alive s = true → s.power.avs = some a → 
      ∃ t, exec .avsTimeout s = .next t ∧ t.power.avsFaultStk = true ∧ t.power.avsFaultRun = s.power.avsFaultRun + 1)

/-- What wake sources, entries and wakes do to the power sequencer. Each wake source, each stage of a wake, the blocks
of an entry and its undo act as given; where a clause gives the whole state, nothing else changes. -/
def Obligations.WakesAndEntriesTakeEffect : Prop :=
  -- SPI_CS_FALL in Dormant
  (∀ (s : State), alive s = true → s.power.mode = .dormant → hasBit s.kept.power.config.wakeEnDormant 1 = true → s.power.entry = none → s.power.waking = none → 
      ∃ t, exec (.spiCsFall) s = .next t ∧ became { s with stw.sticky := setBit32 s.stw.sticky 9, power.counts := tally s.power.counts 40, power.wakeStk := s.power.wakeStk ||| 2, power.waking := some { bits := 2, target := modeOf s.kept.power.config.wakeTarget, left := .dormant, latchNs := s.ns } } t) ∧
  -- SIDEBAND_ADDRESS_MATCH of the Lean address in Dormant
  (∀ (r : Bool) (s : State), alive s = true → s.power.mode = .dormant → s.power.entry = none → s.power.waking = none → 
      ∃ t, exec (.sidebandAddressMatch 3 r) s = .next t ∧ became { s with stw.sticky := setBit32 s.stw.sticky 9, power.counts := tally s.power.counts 40, power.wakeStk := s.power.wakeStk ||| 4, power.waking := some { bits := 4, target := .lean, left := .dormant, latchNs := s.ns } } t) ∧
  -- SIDEBAND_ADDRESS_MATCH of the hold address in a serving mode: Doze and Dormant are turned away for 1,000 beats
  (∀ (r : Bool) (s : State), alive s = true → s.power.mode.serves = true → s.power.entry = none → 
      ∃ t, exec (.sidebandAddressMatch 7 r) s = .next t ∧ became { s with power.holdUntil := s.beat + 1000 } t) ∧
  -- SIDEBAND_HOLD_END
  (∀ (s : State), alive s = true → s.power.holdUntil ≤ s.beat → 
      ∃ t, exec (.sidebandHoldEnd) s = .next t ∧ became { s with power.holdUntil := 0 } t) ∧
  -- WAKE_FRAME_RX that meets R474, in Doze
  (∀ (port : Nat) (f : WakeFrame) (s : State), alive s = true → s.power.mode = .doze → (port = 8 ∨ port = 9 ∨ port = 24) → wakeFrameOk f s = true → hasBit s.kept.power.config.wakeEnDoze 3 = true → s.power.entry = none → s.power.waking = none → 
      ∃ t, exec (.wakeFrameRx port f) s = .next t ∧ became { s with stw.sticky := setBit32 s.stw.sticky 9, power.counts := tally s.power.counts 40, power.wakeStk := s.power.wakeStk ||| 8, power.waking := some { bits := 8, target := if f.target = 0xFF then modeOf s.kept.power.config.wakeTarget else modeOf f.target, left := .doze, latchNs := s.ns, stage := 1 } } t) ∧
  -- WAKE_FRAME_RX that does not: counted
  (∀ (port : Nat) (f : WakeFrame) (s : State), alive s = true → s.power.mode = .doze → (port = 8 ∨ port = 9 ∨ port = 24) → wakeFrameOk f s = false → 
      ∃ t, exec (.wakeFrameRx port f) s = .next t ∧ became { s with power.counts := tally s.power.counts 68 } t) ∧
  -- LINK_ENERGY in Dormant
  (∀ (port : Nat) (s : State), alive s = true → s.power.mode = .dormant → (port = 8 ∨ port = 9) → hasBit s.kept.power.config.wakeEnDormant 4 = true → s.power.entry = none → s.power.waking = none → 
      ∃ t, exec (.linkEnergy port) s = .next t ∧ became { s with stw.sticky := setBit32 s.stw.sticky 9, power.counts := tally s.power.counts 40, power.wakeStk := s.power.wakeStk ||| 16, power.waking := some { bits := 16, target := modeOf s.kept.power.config.wakeTarget, left := .dormant, latchNs := s.ns } } t) ∧
  -- PWR_ALARM_FIRE in a serving mode: at the start of its beat it is spent, and wakes nothing
  (∀ (b : Nat) (s : State), alive s = true → s.power.alarm = some b → s.power.mode.serves = true → s.power.entry = none → 
      ∃ t, exec (.pwrAlarmFire) s = .next t ∧ became { advanceTo (b * 1000000) s with power.alarm := none } t) ∧
  -- PWR_ALARM_FIRE in Doze
  (∀ (b : Nat) (s : State), alive s = true → s.power.alarm = some b → s.power.mode = .doze → hasBit s.kept.power.config.wakeEnDoze 7 = true → s.power.entry = none → s.power.waking = none → 
      ∃ t, exec (.pwrAlarmFire) s = .next t ∧ (t.power.alarm = none ∧ t.time = (advanceTo (b * 1000000) s).time ∧ t.power.counts = tally s.power.counts 40 ∧ t.power.wakeStk = s.power.wakeStk ||| 128 ∧ t.power.waking = some { bits := 128, target := modeOf s.kept.power.config.alarmTarget, left := .doze, latchNs := (advanceTo (b * 1000000) s).ns, stage := 1 })) ∧
  -- RDV_LEAD_ALARM in Dormant wakes into Doze
  (∀ (r : Nat) (s : State), alive s = true → s.power.mode = .dormant → hasBit s.kept.power.config.wakeEnDormant 8 = true → s.power.rdvAlarms = [r] → s.power.entry = none → s.power.waking = none → 
      ∃ t, exec (.rdvLeadAlarm r) s = .next t ∧ became { s with stw.sticky := setBit32 s.stw.sticky 9, power.rdvAlarms := [], power.rdvVisit := true, power.counts := tally (tally s.power.counts 40) 44, power.wakeStk := s.power.wakeStk ||| 256, power.waking := some { bits := 256, target := .doze, left := .dormant, latchNs := s.ns } } t) ∧
  -- RDV_LEAD_ALARM of any record that is set, its wake enabled
  (∀ (r : Nat) (s : State), alive s = true → s.power.mode = .dormant → hasBit s.kept.power.config.wakeEnDormant 8 = true → s.power.rdvAlarms.contains r = true → s.power.entry = none → s.power.waking = none → 
      ∃ t, exec (.rdvLeadAlarm r) s = .next t ∧ t.power.rdvAlarms = s.power.rdvAlarms.filter (· ≠ r) ∧ t.power.rdvVisit = true ∧ t.power.waking.map (·.target) = some .doze) ∧
  -- THERMAL_WAKE above TEMP_WAKE_HI, in Doze
  (∀ (temp : Int) (s : State), alive s = true → s.power.mode = .doze → temp > 10 * s.kept.power.config.tempWakeHi → hasBit s.kept.power.config.wakeEnDoze 9 = true → s.power.entry = none → s.power.waking = none → 
      ∃ t, exec (.thermalWake temp) s = .next t ∧ became { s with stw.sticky := setBit32 s.stw.sticky 9, power.counts := tally s.power.counts 40, power.wakeStk := s.power.wakeStk ||| 512, power.waking := some { bits := 512, target := modeOf s.kept.power.config.wakeTarget, left := .doze, latchNs := s.ns, stage := 1 } } t) ∧
  -- DEBUG_START_BIT while lane 3 is open, in Doze
  (∀ (s : State), alive s = true → s.power.mode = .doze → s.kept.stw.lane3Open = true → hasBit s.kept.power.config.wakeEnDoze 10 = true → s.power.entry = none → s.power.waking = none → 
      ∃ t, exec (.debugStartBit) s = .next t ∧ became { s with stw.sticky := setBit32 s.stw.sticky 9, power.counts := tally s.power.counts 40, power.wakeStk := s.power.wakeStk ||| 1024, power.waking := some { bits := 1024, target := modeOf s.kept.power.config.wakeTarget, left := .doze, latchNs := s.ns, stage := 1 } } t) ∧
  -- WAKE_BRINGUP_STAGE to the last stage: the ready instant gives beat M
  (∀ (x : Waking) (s : State), alive s = true → (List.range 4).all (fun n => (s.lane n).order.isEmpty) = true → s.power.waking = some x → x.stage = 7 → x.eff = none → 
      ∃ t, exec (.wakeBringupStage) s = .next t ∧ became { s with power.waking := some { x with stage := 8, eff := some (reckon s) } } t) ∧
  -- WAKE_BRINGUP_STAGE to the voltage: operating point 1
  (∀ (x : Waking) (s : State), alive s = true → (List.range 4).all (fun n => (s.lane n).order.isEmpty) = true → s.power.waking = some x → x.stage = 1 → x.eff = none → 
      ∃ t, exec (.wakeBringupStage) s = .next t ∧ became { s with power.waking := some { x with stage := 2 }, power.op := 1, stw.sticky := if s.power.op = 1 then s.stw.sticky else setBit32 s.stw.sticky 9, power.confirmedOp := 1, power.vcoreTarget := opTargetMv s 1 } t) ∧
  -- WAKE_BRINGUP_STAGE of any wake that is not ready: the next stage is done
  (∀ (x : Waking) (s : State), alive s = true → (List.range 4).all (fun n => (s.lane n).order.isEmpty) = true → s.power.waking = some x → x.eff = none → 
      ∃ t, exec .wakeBringupStage s = .next t ∧ t.power.waking.map (fun w => (w.stage, w.eff.isSome)) = some (x.stage + 1, decide (x.stage = 7) || (decide (x.stage = 5) && decide (x.target = .doze)))) ∧
  -- DORMANT_RETURN after a rendezvous visit
  (∀ (s : State), alive s = true → s.power.mode = .doze → s.power.rdvVisit = true → s.kept.power.config.rdvReturn = true → inTransition s = false → s.stw.changePending = false → 
      ∃ t, exec (.dormantReturn) s = .next t ∧ became { s with stw.sticky := setBit32 s.stw.sticky 9, power.counts := tally s.power.counts 24, power.entry := some { target := .dormant, left := .doze, asker := .self, cause := 3, step := 1 } } t) ∧
  -- ENTRY_BLOCK_REPLY: the bulk store agrees at step 5 of an entry for which a host's command waits; step 6 begins, and the command can no longer be cancelled
  (∀ (e : Entry) (s : State), alive s = true → s.power.entry = some e → e.step = 5 → e.agreed = [] → e.wake = none → e.undo = none → e.asker = .self → 
      ∃ t, exec (.entryBlockReply 0 0) s = .next t ∧ became { s with power.entry := some { e with step := 6, agreed := [] } } t) ∧
  -- ENTRY_BLOCK_REPLY of a block that refuses at step 3: the entry is abandoned with its reason, and the undo begins
  (∀ (e : Entry) (s : State), alive s = true → s.power.entry = some e → e.step = 3 → e.agreed.contains 41 = false → e.wake = none → e.undo = none → s.boot.flashJobs ≠ [] → 
      ∃ t, exec (.entryBlockReply 41 2) s = .next t ∧ became { s with power.entry := some { e with undo := some (3, 5, 41, 2) }, power.counts := tally s.power.counts 36, power.entryRefusedStk := true } t) ∧
  -- ENTRY_BLOCK_REPLY of any block that agrees at its step while others have yet to answer: its answer is taken
  (∀ (b refuse : Nat) (e : Entry) (s : State), alive s = true → willAgree b refuse s = some e → (entryBlocks e.left e.step).all (fun x => decide (x = b) || e.agreed.contains x) = false → 
      ∃ t, exec (.entryBlockReply b refuse) s = .next t ∧ t.power.entry = some { e with agreed := b :: e.agreed }) ∧
  -- ENTRY_UNDO_DONE: the device is back in the mode it left, the request answered ABANDONED
  (∀ (e : Entry) (q ap d src r : Nat) (s : State), alive s = true → (List.range 4).all (fun n => (s.lane n).order.isEmpty) = true → s.power.entry = some e → e.undo = some (ap, d, src, r) → e.asker = .req q → e.cancelJob = none → s.power.dramAwake = true → 
      ∃ t, exec (.entryUndoDone) s = .next t ∧ became (raise 1 0x0302 (le 1 e.target.code ++ le 1 ap ++ le 1 d ++ le 1 src ++ le 1 r) { s with power.entry := none, power.radiosFrom := reckon s, power.resultTag := q % 256, power.resultStatus := 8, power.resultCause := d, power.resultSource := if d = 5 then src else 0, stw.sticky := setBit32 s.stw.sticky 9 }) t) ∧
  -- ENTRY_UNDO_DONE of any entry that is being undone, whoever asked for it, whoever cancels it
  (∀ (e : Entry) (u : Nat × Nat × Nat × Nat) (s : State), alive s = true → (List.range 4).all (fun n => (s.lane n).order.isEmpty) = true → s.power.entry = some e → e.undo = some u → 
      ∃ t, exec .entryUndoDone s = .next t ∧ t.power.entry = none ∧ t.power.radiosFrom = reckon s ∧ t.power.mode = s.power.mode) ∧
  -- DOZE_DRAM_EXIT before a listen beat
  (∀ (s : State), alive s = true → s.power.mode = .doze → s.power.dramAwake = false → s.power.waking = none → s.power.entry = none → dozeBeat s (s.beat + 1) = true → 
      ∃ t, exec (.dozeDramExit) s = .next t ∧ (t.power.dramAwake = true ∧ t.power.mode = .doze ∧ t.kept = s.kept)) ∧
  -- PCIE_LINK_UP
  (∀ (s : State), alive s = true → 
      ∃ t, exec (.pcieLinkUp) s = .next t ∧ became { s with power.pcieUp := true, power.pcieWakeLow := false } t)

/-- The power commands complete. Each command of area 0x03, sent READY on lanes 0 to 2 with good fields and accepted
at once, is answered with the fields of its table, or stays open until its mode is in force; its effect is exactly the
one given. -/
def Obligations.PowerCommandsComplete : Prop :=
  -- PWR_SET_MODE for a serving mode but Full, no raise of the operating point needed, no hold taken or given
  (∀ (c : Cmd) (m : Mode) (s : State), readyFor c s = true → goodTable [fAny 16 1, fMask 17 1 3, fZero 18 2] c = true → c.lane ≤ 2 → c.u 17 1 = 0 → m = modeOf (c.u 16 1) → m.serves = true → m ≠ .full → m ≠ s.power.mode → s.power.mode.serves = true → s.boot.stage = 8 → inTransition s = false → opForMode s m ≤ s.power.confirmedOp → 
      ∃ t, exec (.pwrSetMode c) s = .next t ∧ opened 0x0301 c s true { s with stw.sticky := setBit32 s.stw.sticky 9, power.wantFull := false, power.change := some { target := m, eff := some (reckon s), asker := .job s.stw.nextJob c.tag, cause := 0 } } t) ∧
  -- PWR_SET_MODE for the mode in force, HOST_HOLD
  (∀ (c : Cmd) (s : State), readyFor c s = true → goodTable [fAny 16 1, fMask 17 1 3, fZero 18 2] c = true → c.lane ≤ 2 → c.u 17 1 = 1 → s.power.mode = modeOf (c.u 16 1) → s.power.mode = .watch → s.boot.stage = 8 → inTransition s = false → s.power.holds = [] → 
      ∃ t, exec (.pwrSetMode c) s = .next t ∧ ended 0x0301 c s { body := le 1 2 ++ le 1 s.power.op ++ le 1 0xFF ++ le 1 0 ++ le 1 0 ++ [0, 0, 0] ++ le 8 s.power.modeSince ++ le 2 0 ++ [0, 0] ++ le 4 0 } { s with power.holds := [c.lane], power.wantFull := false, power.resultTag := c.tag % 256, power.resultStatus := 0, power.resultCause := 0, power.resultSource := 0, stw.sticky := setBit32 s.stw.sticky 9 } t) ∧
  -- PWR_SET_MODE for Doze: the entry starts, and can still be cancelled
  (∀ (c : Cmd) (s : State), readyFor c s = true → goodTable [fAny 16 1, fMask 17 1 3, fZero 18 2] c = true → c.lane ≤ 2 → c.u 17 1 = 0 → c.u 16 1 = 3 → s.power.mode.serves = true → s.boot.stage = 8 → inTransition s = false → s.power.holdUntil ≤ s.beat → s.power.wakeSeen = none → 
      ∃ t, exec (.pwrSetMode c) s = .next t ∧ opened 0x0301 c s false { s with stw.sticky := setBit32 s.stw.sticky 9, power.counts := tally s.power.counts 24, power.entry := some { target := .doze, left := s.power.mode, asker := .job s.stw.nextJob c.tag, cause := 0, step := 1 } } t) ∧
  -- PWR_SET_MODE on lane 3: DENIED
  (∀ (c : Cmd) (s : State), readyFor c s = true → inTransition s = false → goodTable [fAny 16 1, fMask 17 1 3, fZero 18 2] c = true → c.lane = 3 → 
      ∃ t, exec (.pwrSetMode c) s = .next t ∧ ended 0x0301 c s (modeReply { status := 6, detail := 0xFF } s) { s with power.resultTag := c.tag % 256, power.resultStatus := 6, power.resultCause := 0xFF, power.resultSource := 0, stw.sticky := setBit32 s.stw.sticky 9 } t) ∧
  -- PWR_SET_MODE while a change is under way, whatever its target and its lane: BUSY
  (∀ (c : Cmd) (s : State), readyFor c s = true → goodTable [fAny 16 1, fMask 17 1 3, fZero 18 2] c = true → inTransition s = true → 
      ∃ t, exec (.pwrSetMode c) s = .next t ∧ ended 0x0301 c s (modeReply { status := 1 } s) { s with power.resultTag := c.tag % 256, power.resultStatus := 1, power.resultCause := 0, power.resultSource := 0, stw.sticky := setBit32 s.stw.sticky 9 } t) ∧
  -- PWR_CONFIG, the wake key as it was
  (∀ (c : Cmd) (s : State), readyFor c s = true → goodTable [fRange 16 1 0 2, fRange 17 1 0 3, fMask 18 1 7, fRange 19 1 0 15, fMask 20 2 0x0FFF, fMask 22 2 0x0FFF, fAny 24 4, fAny 28 6, fAny 34 1, fAny 35 1, fRange 36 2 10 65535, fRange 38 1 0 3, fRange 39 1 1 50, fRange 40 1 2 25, fAny 41 1, fAny 42 1, fZero 43 1, fRange 44 2 100 5000, fZero 46 2] c = true → c.flag 18 1 1 = false → 
      ∃ t, exec (.pwrConfig c) s = .next t ∧ ended 0x0302 c s {} { s with next.power.config := { wakeTarget := c.u 16 1, alarmTarget := c.u 17 1, gpioFalling := c.flag 18 1 0, rdvReturn := c.flag 18 1 2, avsRail := c.u 19 1, wakeEnDoze := c.u 20 2, wakeEnDormant := c.u 22 2, gpioWake := c.u 24 4, wakeKey := s.next.power.config.wakeKey, tempWakeHi := c.i 34 1, tempWakeLo := c.i 35 1, opHold := c.u 36 2, avsClk := c.u 38 1, avsSlew := c.u 39 1, avsTol := c.u 40 1, avsPmNormal := c.u 41 1, avsPmLight := c.u 42 1, avsTimeoutUs := c.u 44 2 } } t) ∧
  -- PWR_CONFIG with a wake key
  (∀ (c : Cmd) (s : State), readyFor c s = true → goodTable [fRange 16 1 0 2, fRange 17 1 0 3, fMask 18 1 7, fRange 19 1 0 15, fMask 20 2 0x0FFF, fMask 22 2 0x0FFF, fAny 24 4, fAny 28 6, fAny 34 1, fAny 35 1, fRange 36 2 10 65535, fRange 38 1 0 3, fRange 39 1 1 50, fRange 40 1 2 25, fAny 41 1, fAny 42 1, fZero 43 1, fRange 44 2 100 5000, fZero 46 2] c = true → c.flag 18 1 1 = true → 
      ∃ t, exec (.pwrConfig c) s = .next t ∧ answered 0x0302 s.beat c {} t ∧ t.next.power.config.wakeKey = c.bytesAt 28 6 ∧ t.kept = s.kept) ∧
  -- PWR_ALARM for a beat at least 100 ahead
  (∀ (c : Cmd) (s : State), readyFor c s = true → goodTable [fMask 16 1 1, fZero 17 3, fAny 20 8] c = true → c.flag 16 1 0 = true → s.beat + 100 ≤ c.u 20 8 → 
      ∃ t, exec (.pwrAlarm c) s = .next t ∧ ended 0x0303 c s {} { s with power.alarm := some (c.u 20 8) } t) ∧
  -- PWR_ALARM for a beat too near: LATE, the alarm as it was
  (∀ (c : Cmd) (s : State), readyFor c s = true → goodTable [fMask 16 1 1, fZero 17 3, fAny 20 8] c = true → c.flag 16 1 0 = true → c.u 20 8 < s.beat + 100 → 
      ∃ t, exec (.pwrAlarm c) s = .next t ∧ ended 0x0303 c s { status := 9 } s t) ∧
  -- PWR_ALARM cleared
  (∀ (c : Cmd) (s : State), readyFor c s = true → goodTable [fMask 16 1 1, fZero 17 3, fAny 20 8] c = true → c.flag 16 1 0 = false → 
      ∃ t, exec (.pwrAlarm c) s = .next t ∧ ended 0x0303 c s {} { s with power.alarm := none } t) ∧
  -- PWR_STATUS
  (∀ (c : Cmd) (s : State), readyFor c s = true → goodTable [] c = true → 
      ∃ t, exec (.pwrStatus c) s = .next t ∧ ended 0x0304 c s { body := le 1 s.power.mode.code ++ le 1 s.power.op ++ le 1 (fieldsWord [(0, bit s.power.fullAllowed), (1, bit (inTransition s)), (2, bit (s.power.holds ≠ [])), (3, bit (raiseHeld s))]) ++ le 1 (s.power.chainsW1 % 16 + 16 * (s.power.chainsW2 % 16)) ++ le 2 s.power.vcoreTarget ++ le 2 s.power.vcoreRead ++ le 2 s.power.avsStatus ++ le 2 (s.kept.assay.guards.getD (s.power.op - 1) 0) ++ le 8 s.power.modeSince ++ le 2 s.power.lastWake ++ [0, 0] ++ le 4 s.power.lastResumeUs } s t) ∧
  -- PWR_COUNTERS that clears nothing
  (∀ (c : Cmd) (s : State), readyFor c s = true → goodTable [fMask 16 1 3, fMask 17 1 3, fZero 18 2] c = true → c.u 16 1 = 0 → 
      ∃ t, exec (.pwrCounters c) s = .next t ∧ ended 0x0305 c s { body := le 1 (bit s.power.avsFaultStk + 2 * bit s.power.entryRefusedStk) ++ [0, 0, 0] ++ tallyBytes s.power.counts 20 13 ++ le 4 s.kept.power.brownOutCnt } s t) ∧
  -- PWR_COUNTERS that clears the counters and both sticky bits: the hold on raises ends
  (∀ (c : Cmd) (s : State), readyFor c s = true → goodTable [fMask 16 1 3, fMask 17 1 3, fZero 18 2] c = true → c.u 16 1 = 3 → c.u 17 1 = 3 → 
      ∃ t, exec (.pwrCounters c) s = .next t ∧ ended 0x0305 c s { body := le 1 (bit s.power.avsFaultStk + 2 * bit s.power.entryRefusedStk) ++ [0, 0, 0] ++ tallyBytes s.power.counts 20 13 ++ le 4 s.kept.power.brownOutCnt } { s with power.counts := [], power.avsFaultStk := false, power.entryRefusedStk := false, power.avsFaultRun := 0, kept.power.brownOutCnt := 0, next.power.brownOutCnt := 0 } t)

/-- What the DALI interfaces do at their events. Forward and backward frames, answer windows, collisions, bus faults
and the time-out of a pair act as given; where a clause gives the whole state, nothing else changes. -/
def Obligations.PoleEventsTakeEffect : Prop :=
  -- DALI_FRAME_START: the one frame waiting starts once the bus has settled; its start bit is its point of commitment
  (∀ (i extra k : Nat) (x : DaliFrame) (s : State), alive s = true → daliUp s i = true → (s.bus i).sending = none → (s.bus i).answer = none → (s.bus i).slots = [(k, x)] → x.hold = false → x.firstEnd = none → x.late = false → (s.bus i).idleSince + settlingNs x.prio + min extra 1200000 ≤ s.time.mono → s.time.acc < 2 ^ 96 → 
      ∃ t, exec (.daliFrameStart i extra) s = .next t ∧ became { s with stw.jobs := s.stw.jobs.map (fun j => if j.id = x.job then { j with committed := true } else j), pole.dali := Bank.modify s.pole.dali i (fun b => { b with slots := [(k, { x with start := some s.stamp, triggered := true })], sending := some (k, s.time.mono) }) } t ∧ [.frame 39 i [x.bits, x.data]] <+: t.outbox) ∧
  -- DALI_FRAME_START of the next frame of an interface that is idle: it is on the bus once the bus has settled
  (∀ (i extra k : Nat) (x : DaliFrame) (s : State), alive s = true → daliUp s i = true → (s.bus i).sending = none → (s.bus i).answer = none → nextDali s i = some (k, x) → x.firstEnd = none → 
      ∃ t, exec (.daliFrameStart i extra) s = .next t ∧ (t.bus i).sending = some (k, (advanceMono (daliReady s i x extra) s).time.mono)) ∧
  -- DALI_FRAME_END of a single frame that expects no answer: SENT
  (∀ (i k t0 : Nat) (x : DaliFrame) (s : State), alive s = true → (s.bus i).sending = some (k, t0) → (s.bus i).slots = [(k, x)] → x.twice = false → x.expect = false → t0 + daliNs x.bits ≤ s.time.mono → s.time.acc < 2 ^ 96 → i < 2 → 
      ∃ t, exec (.daliFrameEnd i) s = .next t ∧ became (completeJob x.job { body := [0, 0] ++ le 1 (bit x.late) ++ [0] ++ (x.start.getD {}).bytes } { s with pole.counts := tally s.pole.counts (128 * (i + 1) + 20), pole.dali := Bank.modify s.pole.dali i (fun b => { b with slots := [], sending := none, idleSince := s.time.mono }) }) t) ∧
  -- DALI_BACKWARD_RX within its window: ANSWER, with the byte
  (∀ (i gap data k t0 : Nat) (x : DaliFrame) (s : State), alive s = true → (s.bus i).answer = some (k, t0) → (s.bus i).slots = [(k, x)] → 5300000 ≤ gap ∧ gap ≤ 12000000 → t0 + gap + daliNs 8 ≤ s.time.mono → s.time.acc < 2 ^ 96 → i < 2 → 
      ∃ t, exec (.daliBackwardRx i gap data false) s = .next t ∧ became (completeJob x.job { body := [1] ++ le 1 (data % 256) ++ le 1 (bit x.late) ++ [0] ++ (x.start.getD {}).bytes } { s with pole.counts := tally s.pole.counts (128 * (i + 1) + 24), pole.dali := Bank.modify s.pole.dali i (fun b => { b with slots := [], answer := none, idleSince := s.time.mono }) }) t) ∧
  -- DALI_ANSWER_WINDOW_END: NO_ANSWER
  (∀ (i k t0 : Nat) (x : DaliFrame) (s : State), alive s = true → (s.bus i).answer = some (k, t0) → (s.bus i).slots = [(k, x)] → t0 + 12000000 ≤ s.time.mono → s.time.acc < 2 ^ 96 → i < 2 → 
      ∃ t, exec (.daliAnswerWindowEnd i) s = .next t ∧ became (completeJob x.job { body := [2, 0] ++ le 1 (bit x.late) ++ [0] ++ (x.start.getD {}).bytes } { s with pole.counts := tally s.pole.counts (128 * (i + 1) + 28), pole.dali := Bank.modify s.pole.dali i (fun b => { b with slots := [], answer := none }) }) t) ∧
  -- DALI_FORWARD_RX of another master's 16-bit frame, with receive events enabled
  (∀ (i data : Nat) (s : State), alive s = true → daliUp s i = true → (s.bus i).sending = none → (daliCfg s i).rxEvents = true → 
      ∃ t, exec (.daliForwardRx i 16 data true) s = .next t ∧ became (raise 39 0x0903 (le 1 i ++ le 1 16 ++ le 4 (data % 2 ^ 16)) { s with pole.counts := tally s.pole.counts (128 * (i + 1) + 40), pole.dali := Bank.modify s.pole.dali i (fun b => { b with idleSince := s.time.mono }) }) t ∧ [.frame 39 (2 + i) [16, data % 2 ^ 16]] <+: t.outbox) ∧
  -- DALI_COLLISION with resends left: the interface stops, the frame stays in its slot
  (∀ (i k t0 : Nat) (x : DaliFrame) (s : State), alive s = true → (s.bus i).sending = some (k, t0) → (s.bus i).slots = [(k, x)] → (daliCfg s i).collision = true → x.tries < (daliCfg s i).retries → i < 2 → 
      ∃ t, exec (.daliCollision i) s = .next t ∧ became { s with pole.counts := tally s.pole.counts (128 * (i + 1) + 36), pole.dali := Bank.modify s.pole.dali i (fun b => { b with slots := [(k, { x with tries := x.tries + 1 })], sending := none, idleSince := s.time.mono }) } t) ∧
  -- DALI_COLLISION after the last resend: COLLISION
  (∀ (i k t0 : Nat) (x : DaliFrame) (s : State), alive s = true → (s.bus i).sending = some (k, t0) → (s.bus i).slots = [(k, x)] → (daliCfg s i).collision = true → (daliCfg s i).retries ≤ x.tries → i < 2 → 
      ∃ t, exec (.daliCollision i) s = .next t ∧ became (completeJob x.job { body := [4, 0] ++ le 1 (bit x.late) ++ [0] ++ (x.start.getD {}).bytes } { s with pole.counts := tally s.pole.counts (128 * (i + 1) + 36), pole.dali := Bank.modify s.pole.dali i (fun b => { b with slots := [], sending := none, idleSince := s.time.mono }) }) t) ∧
  -- DALI_BUS_FAULT of an interface whose slots are empty
  (∀ (i : Nat) (s : State), alive s = true → i < 2 → (daliCfg s i).enable = true → (s.bus i).fault = false → (s.bus i).slots = [] → 
      ∃ t, exec (.daliBusFault i) s = .next t ∧ became (raise 39 0x0904 (le 1 i ++ le 1 1) { s with pole.faultStk := true, pole.counts := tally s.pole.counts (128 * (i + 1) + 56), pole.dali := Bank.modify s.pole.dali i (fun b => { b with sending := none, answer := none, fault := true }) }) t) ∧
  -- DALI_BUS_RECOVER
  (∀ (i : Nat) (s : State), alive s = true → i < 2 → (s.bus i).fault = true → 
      ∃ t, exec (.daliBusRecover i) s = .next t ∧ became (raise 39 0x0904 (le 1 i ++ le 1 0) { s with pole.dali := Bank.modify s.pole.dali i (fun b => { b with fault := false, idleSince := s.time.mono - 2400000 }) }) t) ∧
  -- DALI_TWICE_TIMEOUT: 94 ms after the first frame of a pair
  (∀ (i k e : Nat) (x : DaliFrame) (s : State), alive s = true → (s.bus i).slots = [(k, x)] → x.firstEnd = some e → (s.bus i).sending = none → e + 94000000 ≤ s.time.mono → s.time.acc < 2 ^ 96 → i < 2 → 
      ∃ t, exec (.daliTwiceTimeout i) s = .next t ∧ became (completeJob x.job { body := [6, 0] ++ le 1 (bit x.late) ++ [0] ++ (x.start.getD {}).bytes } { s with pole.dali := Bank.modify s.pole.dali i (fun b => { b with slots := [] }) }) t)

/-- What the timers, the pins and the metering service do at their events. Wraps, matches and captures of the timers,
pin edges and metering jobs act as given; where a clause gives the whole state, nothing else changes. -/
def Obligations.TimerPinAndMeterEvents : Prop :=
  -- TIMER_WRAP of a one-shot channel: time moves to the tick at which it stops, TIMER_DONE is raised
  (∀ (c : Nat) (s : State), alive s = true → c < 16 → unitUp s 38 = true → s.power.mode ≠ .dormant → (s.tmr c).running = true → (tmrCfg s c).mode = 2 → (s.tmr c).base < (tmrCfg s c).period → 
      ∃ t, exec (.timerWrap c) s = .next t ∧ became (raise 38 0x0907 (le 1 c) { advanceMono ((s.tmr c).baseNs + ((tmrCfg s c).period - 1 - (s.tmr c).base) * tmrTick (tmrCfg s c)) s with pole.timers := Bank.modify s.pole.timers c (fun x => { x with running := false, base := (tmrCfg s c).period - 1, baseNs := (s.tmr c).baseNs + ((tmrCfg s c).period - 1 - (s.tmr c).base) * tmrTick (tmrCfg s c) }) }) t) ∧
  -- TIMER_WRAP of a periodic channel without an output and without a channel linked to it: it counts on from 0
  (∀ (c t0 : Nat) (s : State), alive s = true → 8 ≤ c ∧ c < 16 → unitUp s 38 = true → s.power.mode ≠ .dormant → (s.tmr c).running = true → (tmrCfg s c).mode = 1 → (s.tmr c).base + (s.time.mono - (s.tmr c).baseNs) / tmrTick (tmrCfg s c) < (tmrCfg s c).period → (s.tmr c).shadowA = none ∧ (s.tmr c).shadowB = none → (s.tmr c).cmpB ≠ 0 → linkedTo s (c + 1) = false → t0 = (s.tmr c).baseNs + ((tmrCfg s c).period - (s.tmr c).base) * tmrTick (tmrCfg s c) → 
      ∃ t, exec (.timerWrap c) s = .next t ∧ became { advanceMono t0 s with pole.timers := Bank.modify s.pole.timers c (fun x => { x with base := 0, baseNs := t0 }) } t) ∧
  -- TIMER_MATCH of CMP_B on a one-shot channel that has not reached it: time moves to the tick, TIMER_MATCH is raised
  (∀ (c t0 : Nat) (s : State), alive s = true → c < 16 → unitUp s 38 = true → s.power.mode ≠ .dormant → (s.tmr c).running = true → (tmrCfg s c).mode = 2 → (tmrCfg s c).matchEvent = true → (s.tmr c).cmpB < (tmrCfg s c).period → tmrCount s c < (s.tmr c).cmpB → t0 = (s.tmr c).baseNs + ((s.tmr c).cmpB - (s.tmr c).base) * tmrTick (tmrCfg s c) → 
      ∃ t, exec (.timerMatch c 1) s = .next t ∧ became (raise 38 0x0905 (le 1 c ++ le 4 (s.tmr c).cmpB) { advanceMono t0 s with pole.timers := Bank.modify s.pole.timers c (fun x => { x with base := x.cmpB, baseNs := t0 }) }) t) ∧
  -- TIMER_CAPTURE with room in the queue of the channel
  (∀ (p c : Nat) (r : Bool) (s : State), alive s = true → p < 32 → (gpioCfg s p).alt = 1 → c = (gpioCfg s p).arg → c < 16 → unitUp s 38 = true → s.boot.stage = 8 → s.power.mode ≠ .dormant → hasBit (tmrCfg s c).capEdge (if r then 0 else 1) = true → (s.tmr c).queue.length < 4 → (s.tmr c).fullAt ≠ some s.time.mono → 
      ∃ t, exec (.timerCapture p r) s = .next t ∧ became { s with pole.ext := Map.set s.pole.ext p r, pole.timers := Bank.modify s.pole.timers c (fun x => { x with queue := x.queue ++ [{ count := tmrCount s c, stamp := s.stamp, falling := !r }] }) } t) ∧
  -- GPIO_EDGE of an input whose rising edges raise events: one event, no wake
  (∀ (p : Nat) (s : State), alive s = true → p < 32 → (gpioCfg s p).mode = 0 → unitUp s 38 = true → s.boot.stage = 8 → s.power.mode ≠ .dormant → (gpioCfg s p).onRise = true → Map.get? s.pole.edgeBeat p ≠ some s.beat → hasBit s.kept.power.config.gpioWake p = false → 
      ∃ t, exec (.gpioEdge p true) s = .next t ∧ became (raise 38 0x0908 (le 1 p ++ le 1 0 ++ le 1 1) { s with pole.ext := Map.set s.pole.ext p true, pole.edgeBeat := Map.set s.pole.edgeBeat p s.beat }) t) ∧
  -- METER_JOB of a beat that carried no samples: a gap is counted
  (∀ (f : MeterFrame) (s : State), alive s = true → (meterCfg s).enable = true → unitUp s 37 = true → s.overrunning 37 = false → s.boot.stage = 8 → s.power.mode ≠ .dormant → s.time.settling = false → s.pole.jobBeat ≠ some s.beat → s.beat ≠ 0 → s.pole.jobEpoch = s.kept.time.epoch → s.pole.trigCh = none → s.pole.gather = none → s.stw.jobs = [] → s.pole.holdoff = [] → 
      ∃ t, exec (.meterJob f) s = .next t ∧ became { s with pole.jobNo := s.pole.jobNo + 1, pole.jobBeat := some s.beat, pole.jobLive := false, pole.lastGood := [], pole.counts := tally s.pole.counts 28 } t) ∧
  -- METER_JOB of a beat in which channels 0 and 1 were sampled, none lost or at full scale, no rule enabled: the pair's accumulators grow, the block joins the history
  (∀ (f : MeterFrame) (ch : Nat) (a b : List Int) (s : State), alive s = true → (meterCfg s).enable = true → (meterCfg s).mask = 3 → unitUp s 37 = true → s.overrunning 37 = false → s.boot.stage = 8 → s.power.mode ≠ .dormant → s.time.settling = false → s.pole.jobBeat ≠ some s.beat → s.beat ≠ 0 → s.pole.jobEpoch = s.kept.time.epoch → s.pole.trigCh = some ch → (s.trig ch).armed = true → (s.trig ch).held = false → s.pole.liveFrom ≤ s.beat - 1 → s.ns < (s.trig ch).nextNs → a = channelCodes f (perBeat (meterCfg s).rate) 0 → b = channelCodes f (perBeat (meterCfg s).rate) 1 → a.all (fun x => x ≠ lostCode ∧ !clipped x) = true → b.all (fun x => x ≠ lostCode ∧ !clipped x) = true → 0 < products a b → s.pole.gather = none → s.stw.jobs = [] → s.kept.pole.rules = [] → s.pole.holdoff = [] → 
      ∃ t, exec (.meterJob f) s = .next t ∧ (t.pole.energy = Map.set s.pole.energy 0 { energyOf s 0 with samples := satAdd 64 (energyOf s 0).samples (max a.length b.length), imp := satAdd 96 (energyOf s 0).imp (products a b).toNat, vv := satAdd 96 (energyOf s 0).vv (squares a), ii := satAdd 96 (energyOf s 0).ii (squares b) } ∧ t.pole.jobNo = s.pole.jobNo + 1 ∧ t.pole.gather = none ∧ t.pole.records = s.pole.records ∧ t.mem = s.mem ∧ t.kept = s.kept)) ∧
  -- METER_JOB of any beat while metering runs: the frame of the last beat is taken, once
  (∀ (f : MeterFrame) (s : State), alive s = true → (meterCfg s).enable = true → unitUp s 37 = true → s.overrunning 37 = false → s.boot.stage = 8 → s.power.mode ≠ .dormant → s.time.settling = false → s.pole.jobBeat ≠ some s.beat → s.beat ≠ 0 → 
      ∃ t, exec (.meterJob f) s = .next t ∧ t.pole.jobNo = s.pole.jobNo + 1 ∧ t.pole.jobBeat = some s.beat ∧ t.pole.jobEpoch = s.kept.time.epoch)

/-- The commands of the metering service complete. Each METER command, sent READY with good fields and accepted at
once, is answered with the fields of its table or waits for its beat; its settings are staged. -/
def Obligations.PoleCommandsComplete : Prop :=
  -- METER_CONFIG of a service that holds its trigger channel
  (∀ (c : Cmd) (ch : Nat) (s : State), readyFor c s = true → goodTable [fMask 16 1 3, fRange 17 1 0 2, fMask 18 1 0xF, fZero 19 1, fRange 20 2 16 256, fZero 22 2, fAny 24 4, fAny 28 4, fAny 32 4, fAny 36 4, fRange 40 4 60000 86400000] c = true → c.flag 16 1 0 = true → s.pole.trigCh = some ch → 
      ∃ t, exec (.meterConfig c) s = .next t ∧ ended 0x0901 c s { body := le 1 ch } { s with next.pole.meter := { enable := true, overwrite := c.flag 16 1 1, rate := c.u 17 1, mask := c.u 18 1, history := c.u 20 2, scale := [c.u 24 4, c.u 28 4, c.u 32 4, c.u 36 4], saveBeats := c.u 40 4 } } t) ∧
  -- METER_CONFIG that enables the service: it claims and arms the highest free trigger channel
  (∀ (c : Cmd) (ch b : Nat) (s : State), readyFor c s = true → goodTable [fMask 16 1 3, fRange 17 1 0 2, fMask 18 1 0xF, fZero 19 1, fRange 20 2 16 256, fZero 22 2, fAny 24 4, fAny 28 4, fAny 32 4, fAny 36 4, fRange 40 4 60000 86400000] c = true → c.flag 16 1 0 = true → s.pole.trigCh = none → freeTrigger s = some ch → b = (s.ns + 1049999) / 1000000 → 
      ∃ t, exec (.meterConfig c) s = .next t ∧ ended 0x0901 c s { body := le 1 ch } { s with next.pole.meter := { enable := true, overwrite := c.flag 16 1 1, rate := c.u 17 1, mask := c.u 18 1, history := c.u 20 2, scale := [c.u 24 4, c.u 28 4, c.u 32 4, c.u 36 4], saveBeats := c.u 40 4 }, time.triggers := Bank.modify s.time.triggers ch (fun _ => { armed := true, party := 45, target := 2, arg := c.u 18 1, nextNs := b * 1000000, firstNs := b * 1000000, period := samplePeriod (c.u 17 1) }), pole.trigCh := some ch, pole.liveFrom := b, pole.jobEpoch := s.kept.time.epoch } t) ∧
  -- METER_TRIG_SET
  (∀ (c : Cmd) (s : State), readyFor c s = true → goodTable [fRange 16 1 0 3, fMask 17 1 3, fRange 18 1 0 3, fRange 19 1 0 3, fAny 20 4, fRange 24 2 1 100, fRange 26 1 1 100, fZero 27 1, fAny 28 2, fRange 30 2 1 4096, fAny 32 2] c = true → c.u 28 2 ≤ s.next.pole.meter.history → 
      ∃ t, exec (.meterTrigSet c) s = .next t ∧ ended 0x0902 c s {} { s with next.pole.rules := Map.set s.next.pole.rules (c.u 16 1) { enable := c.flag 17 1 0, wake := c.flag 17 1 1, kind := c.u 18 1, chan := c.u 19 1, threshold := c.u 20 4, window := c.u 24 2, stepPct := c.u 26 1, pre := c.u 28 2, post := c.u 30 2, holdoff := c.u 32 2 } } t) ∧
  -- METER_CAPTURE_FIRE of the next beat, or of a beat that has not passed, is committed and waits for that beat's job
  (∀ (c : Cmd) (s : State), readyFor c s = true → goodTable [fAny 16 8, fAny 24 2, fRange 26 2 1 4096] c = true → (c.u 16 8 = 0 ∨ s.beat ≤ c.u 16 8) → c.u 24 2 ≤ s.next.pole.meter.history → 
      ∃ t, exec (.meterCaptureFire c) s = .next t ∧ opened 0x0903 c s true s t) ∧
  -- METER_CAPTURE_FIRE with more samples before the beat than the history holds: BAD_ARG
  (∀ (c : Cmd) (s : State), readyFor c s = true → goodTable [fAny 16 8, fAny 24 2, fRange 26 2 1 4096] c = true → s.next.pole.meter.history < c.u 24 2 → 
      ∃ t, exec (.meterCaptureFire c) s = .next t ∧ ended 0x0903 c s (badArg 24) s t) ∧
  -- METER_CAPTURE_FIRE of a beat that has passed: LATE
  (∀ (c : Cmd) (s : State), readyFor c s = true → goodTable [fAny 16 8, fAny 24 2, fRange 26 2 1 4096] c = true → c.u 16 8 ≠ 0 → c.u 16 8 < s.beat → c.u 24 2 ≤ s.next.pole.meter.history → 
      ∃ t, exec (.meterCaptureFire c) s = .next t ∧ ended 0x0903 c s { status := 9 } s t) ∧
  -- METER_CAPTURE_READ of a record, without freeing it
  (∀ (c : Cmd) (r : Capture) (b : List Byte) (s : State), readyFor c s = true → goodTable [fAny 16 4, fAny 20 4, fMask 24 1 1, fZero 25 3] c = true → hasBit c.flags 0 = true → s.pole.records.find? (fun x => x.id = c.u 16 4) = some r → c.flag 24 1 0 = false → b = (r.bytes.drop (c.u 20 4)).take c.bulkLen → 
      ∃ t, exec (.meterCaptureRead c) s = .next t ∧ answered 0x0904 s.beat c { body := le 4 b.length ++ le 4 r.bytes.length, bulkOut := b.length } t ∧ t = { s with stw := t.stw, outbox := t.outbox } ∧ (t.lane c.lane).bulk = Memory.writeList ((taken 0x0904 c s).lane c.lane).bulk c.bulkOff b) ∧
  -- METER_ENERGY_READ of a pair whose scales are 0, its windows not full, with a clear: the RMS values are open
  (∀ (c : Cmd) (s : State), readyFor c s = true → goodTable [fRange 16 1 0 1, fMask 17 1 1, fZero 18 2] c = true → c.u 16 1 = 0 → c.flag 17 1 0 = true → s.kept.pole.rules = [] → s.pole.sums = [] → (meterCfg s).scale = [0, 0, 0, 0] → 
      ∃ v i n, ∃ t, exec (.meterEnergyRead c) s = .next t ∧ ended 0x0905 c s { body := le 8 (energyOf s 0).samples ++ le 12 (energyOf s 0).imp ++ le 12 (energyOf s 0).exp ++ le 12 (energyOf s 0).vv ++ le 12 (energyOf s 0).ii ++ le 8 0 ++ le 8 0 ++ le 4 v ++ le 4 i ++ le 8 (energyOf s 0).sinceBeat ++ le 8 s.pole.restoredBeat } { s with pole.energy := Map.set s.pole.energy 0 { sinceBeat := s.beat }, draws := n } t) ∧
  -- METER_ENERGY_READ of either pair, whatever its scales: its sums are answered, and cleared where it asks
  (∀ (c : Cmd) (s : State), readyFor c s = true → goodTable [fRange 16 1 0 1, fMask 17 1 1, fZero 18 2] c = true → 
      ∃ t, exec (.meterEnergyRead c) s = .next t ∧ (t.slot c.lane c.slot).phase = .done ∧ ((t.slot c.lane c.slot).response.drop 16).take 56 = le 8 (energyOf s (c.u 16 1)).samples ++ le 12 (energyOf s (c.u 16 1)).imp ++ le 12 (energyOf s (c.u 16 1)).exp ++ le 12 (energyOf s (c.u 16 1)).vv ++ le 12 (energyOf s (c.u 16 1)).ii ∧ t.pole.energy = if c.flag 17 1 0 then Map.set s.pole.energy (c.u 16 1) { sinceBeat := s.beat } else s.pole.energy)

/-- The commands of the DALI interfaces, the timers and the pins complete. Each DALI, TMR and GPIO command and
POLE_COUNTERS, sent READY with good fields and accepted at once, is answered with the fields of its table or waits for
its frame; settings are staged, timers and pins that a command acts on change at once. -/
def Obligations.DaliTimerAndPinCommands : Prop :=
  -- DALI_CONFIG
  (∀ (c : Cmd) (s : State), readyFor c s = true → goodTable [fRange 16 1 0 1, fMask 17 1 0x1F, fRange 18 1 0 7, fZero 19 1] c = true → 
      ∃ t, exec (.daliConfig c) s = .next t ∧ ended 0x0906 c s {} { s with next.pole.dali := Map.set s.next.pole.dali (c.u 16 1) { enable := c.flag 17 1 0, txInv := c.flag 17 1 1, rxInv := c.flag 17 1 2, rxEvents := c.flag 17 1 3, collision := c.flag 17 1 4, retries := c.u 18 1 } } t) ∧
  -- DALI_SEND into a named free slot waits for its frame
  (∀ (c : Cmd) (s : State), readyFor c s = true → goodTable [fRange 16 1 0 1, fOneOf 17 1 (List.range 16 ++ [0xFF]), fMask 18 1 7, fOneOf 19 1 [16, 24], fRange 20 1 1 5, fZero 21 3, fAny 24 4] c = true → c.u 16 1 = 1 → c.u 17 1 < 16 → (s.bus 1).fault = false → (s.bus 1).slots = [] → 
      ∃ t, exec (.daliSend c) s = .next t ∧ opened 0x0907 c s false { s with pole.dali := Bank.modify s.pole.dali 1 (fun b => { b with slots := [(c.u 17 1, { job := s.stw.nextJob, bits := c.u 19 1, data := c.u 24 4 % 2 ^ c.u 19 1, prio := c.u 20 1, hold := c.flag 18 1 0, twice := c.flag 18 1 1, expect := c.flag 18 1 2 })] }) } t) ∧
  -- DALI_SEND on a bus in fault: BUSY
  (∀ (c : Cmd) (s : State), readyFor c s = true → goodTable [fRange 16 1 0 1, fOneOf 17 1 (List.range 16 ++ [0xFF]), fMask 18 1 7, fOneOf 19 1 [16, 24], fRange 20 1 1 5, fZero 21 3, fAny 24 4] c = true → (s.bus (c.u 16 1)).fault = true → 
      ∃ t, exec (.daliSend c) s = .next t ∧ ended 0x0907 c s { status := 1 } s t) ∧
  -- TMR_CHAN_SET of a channel whose counter stands: staged, its compare values shadowed
  (∀ (c : Cmd) (s : State), readyFor c s = true → goodTable [fRange 16 1 0 15, fRange 17 1 0 3, fMask 18 1 0xF, fMask 19 1 3, fAny 20 2, fZero 22 2, fRange 24 4 2 0xFFFFFFFF, fAny 28 4, fAny 32 4, fAny 36 4] c = true → c.u 17 1 = 1 → c.u 28 4 < c.u 24 4 → (tmrCfg s (c.u 16 1)).mode = 0 → 
      ∃ t, exec (.tmrChanSet c) s = .next t ∧ ended 0x0908 c s {} { s with next.pole.timers := Map.set s.next.pole.timers (c.u 16 1) { mode := 1, runOnGroup := c.flag 18 1 0, lateFire := c.flag 18 1 1, outInv := c.flag 18 1 2, matchEvent := c.flag 18 1 3, capEdge := c.u 19 1, prescale := c.u 20 2, period := c.u 24 4, phase := c.u 28 4, cmpA := c.u 32 4, cmpB := c.u 36 4 }, pole.timers := Bank.modify s.pole.timers (c.u 16 1) (fun x => { x with shadowA := some (c.u 32 4), shadowB := some (c.u 36 4) }) } t) ∧
  -- TMR_GROUP stop of a group none of whose channels it controls: nothing changes
  (∀ (c : Cmd) (s : State), readyFor c s = true → goodTable [fRange 16 1 0 3, fRange 17 1 0 2, fZero 18 2] c = true → c.u 17 1 = 0 → s.kept.pole.timers = [] → 
      ∃ t, exec (.tmrGroup c) s = .next t ∧ ended 0x0909 c s {} s t) ∧
  -- TMR_GROUP start of a group of which it controls one channel without an output: the counter is loaded and runs
  (∀ (c : Cmd) (g : TmrCfg) (s : State), readyFor c s = true → goodTable [fRange 16 1 0 3, fRange 17 1 0 2, fZero 18 2] c = true → c.u 16 1 = 2 → c.u 17 1 = 1 → s.kept.pole.timers = [(9, g)] → g.mode = 2 → g.runOnGroup = true → (s.tmr 9).cmpA ≠ g.phase ∧ (s.tmr 9).cmpB ≠ g.phase → 
      ∃ t, exec (.tmrGroup c) s = .next t ∧ ended 0x0909 c s {} { s with pole.timers := Bank.modify s.pole.timers 9 (fun x => { x with running := true, baseNs := s.time.mono, base := g.phase }) } t) ∧
  -- TMR_COMPARE of CMP_B with SHADOW: it waits for the wrap
  (∀ (c : Cmd) (s : State), readyFor c s = true → goodTable [fRange 16 1 0 15, fRange 17 1 0 1, fMask 18 1 1, fZero 19 1, fAny 20 4] c = true → c.u 17 1 = 1 → c.flag 18 1 0 = true → (tmrCfg s (c.u 16 1)).mode = 2 → 
      ∃ t, exec (.tmrCompare c) s = .next t ∧ ended 0x090A c s { body := le 4 (tmrCount s (c.u 16 1)) ++ le 1 0 } { s with kept.pole.timers := Map.set s.kept.pole.timers (c.u 16 1) { Map.getD s.kept.pole.timers (c.u 16 1) {} with cmpB := c.u 20 4 }, next.pole.timers := Map.set s.next.pole.timers (c.u 16 1) { Map.getD s.next.pole.timers (c.u 16 1) {} with cmpB := c.u 20 4 }, pole.timers := Bank.modify s.pole.timers (c.u 16 1) (fun x => { x with shadowB := some (c.u 20 4) }) } t) ∧
  -- TMR_COMPARE of CMP_B that the counter has passed: it takes effect, is answered as behind and counted
  (∀ (c : Cmd) (s : State), readyFor c s = true → goodTable [fRange 16 1 0 15, fRange 17 1 0 1, fMask 18 1 1, fZero 19 1, fAny 20 4] c = true → c.u 17 1 = 1 → c.flag 18 1 0 = false → (tmrCfg s (c.u 16 1)).mode = 2 → (tmrCfg s (c.u 16 1)).lateFire = false → c.u 20 4 ≤ tmrCount s (c.u 16 1) → 
      ∃ t, exec (.tmrCompare c) s = .next t ∧ ended 0x090A c s { body := le 4 (tmrCount s (c.u 16 1)) ++ le 1 1 } { s with kept.pole.timers := Map.set s.kept.pole.timers (c.u 16 1) { Map.getD s.kept.pole.timers (c.u 16 1) {} with cmpB := c.u 20 4 }, next.pole.timers := Map.set s.next.pole.timers (c.u 16 1) { Map.getD s.next.pole.timers (c.u 16 1) {} with cmpB := c.u 20 4 }, pole.timers := Bank.modify s.pole.timers (c.u 16 1) (fun x => { x with cmpB := c.u 20 4, shadowB := none }), pole.behindStk := true, pole.counts := tally s.pole.counts 404 } t) ∧
  -- TMR_CAPTURE_READ of an empty queue
  (∀ (c : Cmd) (s : State), readyFor c s = true → goodTable [fRange 16 1 0 15, fRange 17 1 1 4, fMask 18 1 1, fZero 19 1] c = true → (s.tmr (c.u 16 1)).queue = [] → 
      ∃ t, exec (.tmrCaptureRead c) s = .next t ∧ ended 0x090B c s { body := le 1 0 ++ le 1 (bit (s.tmr (c.u 16 1)).ovf) ++ [0, 0] } { s with pole.timers := Bank.modify s.pole.timers (c.u 16 1) (fun x => { x with ovf := x.ovf && !c.flag 18 1 0 }) } t) ∧
  -- TMR_CAPTURE_READ of any queue: its oldest captures, which leave it
  (∀ (c : Cmd) (x : TmrRun) (s : State), readyFor c s = true → goodTable [fRange 16 1 0 15, fRange 17 1 1 4, fMask 18 1 1, fZero 19 1] c = true → x = s.tmr (c.u 16 1) → 
      ∃ t, exec (.tmrCaptureRead c) s = .next t ∧ ended 0x090B c s { body := le 1 (x.queue.take (c.u 17 1)).length ++ le 1 (bit x.ovf) ++ [0, 0] ++ ((x.queue.take (c.u 17 1)).map TmrCapture.bytes).flatten } { s with pole.timers := Bank.modify s.pole.timers (c.u 16 1) (fun y => { y with queue := y.queue.drop (c.u 17 1), ovf := y.ovf && !c.flag 18 1 0, fullAt := if y.queue.length ≥ 4 then some s.time.mono else y.fullAt }) } t) ∧
  -- GPIO_CONFIG of one pin
  (∀ (c : Cmd) (s : State), readyFor c s = true → goodTable [fRange 16 1 0 31, fRange 17 1 0 31, fRange 18 1 0 2, fRange 19 1 0 2, fRange 20 1 0 2, fAny 21 1, fAny 22 1, fMask 23 1 3] c = true → c.u 16 1 = 4 → c.u 17 1 = 4 → c.u 20 1 = 0 → 
      ∃ t, exec (.gpioConfig c) s = .next t ∧ ended 0x090C c s {} { s with next.pole.gpio := Map.set s.next.pole.gpio 4 { mode := c.u 18 1, pull := c.u 19 1, alt := 0, arg := c.u 21 1, debounceUs := c.u 22 1, onRise := c.flag 23 1 0, onFall := c.flag 23 1 1 } } t) ∧
  -- GPIO_WRITE with every pin an input that nothing drives: the levels written are Kept, every pin reads 0
  (∀ (c : Cmd) (s : State), readyFor c s = true → goodTable [fAny 16 4, fAny 20 4] c = true → s.kept.pole.gpio = [] → s.pole.ext = [] → 
      ∃ t, exec (.gpioWrite c) s = .next t ∧ ended 0x090D c s { body := le 4 0 } { s with kept.pole.levels := maskOf ((List.range 32).filter (fun p => if hasBit (c.u 16 4) p then hasBit (c.u 20 4) p else hasBit s.kept.pole.levels p)), next.pole.levels := maskOf ((List.range 32).filter (fun p => if hasBit (c.u 16 4) p then hasBit (c.u 20 4) p else hasBit s.next.pole.levels p)) } t) ∧
  -- GPIO_WRITE of any pins, whatever drives them: the levels written are Kept
  (∀ (c : Cmd) (s : State), readyFor c s = true → goodTable [fAny 16 4, fAny 20 4] c = true → 
      ∃ t, exec (.gpioWrite c) s = .next t ∧ (t.slot c.lane c.slot).phase = .done ∧ t.kept.pole.levels = maskOf ((List.range 32).filter (fun p => if hasBit (c.u 16 4) p then hasBit (c.u 20 4) p else hasBit s.kept.pole.levels p)) ∧ t.next.pole.levels = maskOf ((List.range 32).filter (fun p => if hasBit (c.u 16 4) p then hasBit (c.u 20 4) p else hasBit s.next.pole.levels p))) ∧
  -- POLE_COUNTERS of the timers, clearing them and two sticky bits
  (∀ (c : Cmd) (s : State), readyFor c s = true → goodTable [fRange 16 1 0 3, fMask 17 1 3, fMask 18 1 0xF, fZero 19 1] c = true → c.u 16 1 = 3 → c.u 17 1 = 3 → c.u 18 1 = 6 → 
      ∃ t, exec (.poleCounters c) s = .next t ∧ ended 0x090E c s { body := le 1 (fieldsWord [(0, bit s.pole.lostStk), (1, bit s.pole.faultStk), (2, bit s.pole.behindStk), (3, bit (capOvfStk s))]) ++ [0, 0, 0] ++ tallyBytes s.pole.counts 404 3 } { s with pole.counts := s.pole.counts.filter (fun e => e.1 / 128 ≠ 3), pole.faultStk := false, pole.behindStk := false } t)

/-- What the resets and the stages of the start do. Each reset and each stage of the start acts as given; while the
DRAM pads are in reset, CK, CS and DRST_N are driven low (R565). -/
def Obligations.ResetsTakeEffect : Prop :=
  -- POR_RELEASE with TEST_MODE low: the straps are sampled and the boot starts from the Cold values, flash and fuses as they were
  (∀ (b a : Nat) (f : Bool) (s : State), s.boot.porHeld = true → 
      ∃ t, exec (.porRelease b a f false) s = .next t ∧ t.boot.porHeld = false ∧ t.boot.stage = 0 ∧ t.boot.straps = { bootSrc := b % 4, sbAddr := a % 8, factoryN := f } ∧ t.boot.flash = s.boot.flash ∧ t.boot.fuses = s.boot.fuses ∧ t.stw.lastReset = 0 ∧ t.kept = {} ∧ t.stw.scratch = 0 ∧ t.time.acc = 0) ∧
  -- POR_RELEASE with TEST_MODE high: the manual does not apply
  (∀ (b a : Nat) (f : Bool) (s : State), s.boot.porHeld = true → 
      exec (.porRelease b a f true) s = .refused .testMode) ∧
  -- while the DRAM pads are in reset CK, CS and DRST_N are driven low and every other ball is free, as the power-on reset leaves them
  (∀ (b : DramBall) (s : State), s.mem.drive = .reset → 
      dramBallLow b s = decide (b ≠ .other) ∧ dramBallFree b s = decide (b = .other)) ∧
  -- in any other state of the DRAM pads none is held so
  (∀ (b : DramBall) (s : State), s.mem.drive ≠ .reset → 
      dramBallLow b s = false ∧ dramBallFree b s = false) ∧
  -- SUPPLY_MONITOR_TRIP: the power-on reset holds the device
  (∀ (k : Nat) (s : State), k < 4 → 
      ∃ t, exec (.supplyMonitorTrip k) s = .next t ∧ t.boot.porHeld = true ∧ t.kept = {} ∧ t.boot.flash = s.boot.flash ∧ t.boot.fuses = s.boot.fuses) ∧
  -- SUPPLY_MONITOR_TRIP: the DRAM pads are in reset
  (∀ (k : Nat) (s : State), k < 4 → 
      ∃ t, exec (.supplyMonitorTrip k) s = .next t ∧ t.mem.drive = .reset) ∧
  -- BROWN_OUT: a cold start but for its cause
  (∀ (s : State), s.boot.porHeld = false → 
      ∃ t, exec .brownOut s = .next t ∧ t.stw.lastReset = 1 ∧ t.boot.stage = 0 ∧ t.kept = {} ∧ t.boot.flash = s.boot.flash ∧ t.boot.fuses = s.boot.fuses ∧ t.boot.straps = s.boot.straps) ∧
  -- SYS_RESET_N_LOW of a microsecond or more: the warm reset is held; the TIME domain, SYS_SCRATCH, flash and fuses stay
  (∀ (n : Nat) (s : State), 1000 ≤ n → s.boot.porHeld = false → 
      ∃ t, exec (.sysResetNLow n) s = .next t ∧ t.boot.pinHeld = true ∧ t.stw.lastReset = 2 ∧ t.time.acc = s.time.acc ∧ t.time.fadj = s.time.fadj ∧ t.time.servo = s.time.servo ∧ t.stw.scratch = s.stw.scratch ∧ t.boot.flash = s.boot.flash ∧ t.boot.fuses = s.boot.fuses ∧ t.kept.time.epoch = s.kept.time.epoch ∧ t.kept.time.integral = s.kept.time.integral) ∧
  -- SYS_RESET_N_LOW of less than 100 ns: ignored
  (∀ (n : Nat) (s : State), n < 100 → 
      ∃ t, exec (.sysResetNLow n) s = .next t ∧ became s t) ∧
  -- SYS_RESET_N_RISE: the straps are sampled and the boot starts
  (∀ (b : Nat) (f : Bool) (s : State), s.boot.pinHeld = true → 
      ∃ t, exec (.sysResetNRise b f) s = .next t ∧ became { s with boot.pinHeld := false, boot.straps := { s.boot.straps with bootSrc := b % 4, factoryN := f }, boot.factoryWatch := (!f).and s.boot.factoryBy.isNone } t) ∧
  -- WARM_RESET that is due
  (∀ (b : Nat) (f : Bool) (x : WarmPlan) (d : Nat) (s : State), alive s = true → s.stw.warmReq = some x → x.due = some d → 
      ∃ t, exec (.warmReset b f) s = .next t ∧ (t.stw.lastReset = x.cause ∧ t.boot.stage = 0 ∧ t.boot.warm = true ∧ t.boot.toRecovery = x.intoRecovery.or s.boot.toRecovery ∧ t.stw.scratch = s.stw.scratch ∧ t.boot.flash = s.boot.flash ∧ t.boot.fuses = s.boot.fuses ∧ t.boot.straps.bootSrc = b % 4 ∧ t.boot.straps.factoryN = f ∧ t.kept.time.epoch = s.kept.time.epoch ∧ t.kept.time.integral = s.kept.time.integral ∧ t.time.servo = s.time.servo)) ∧
  -- BOOT_STAGE, the latched straps: the ROM runs
  (∀ (f : BootFacts) (s : State), alive s = true → s.boot.stage = 0 → s.stw.state = .rom → s.stw.warmReq = none → 
      ∃ t, exec (.bootStage f) s = .next t ∧ became { s with boot.stage := 1, stw.state := .rom } t) ∧
  -- BOOT_STAGE, the ROM's self-test of the key store fails: FAULT
  (∀ (f : BootFacts) (s : State), alive s = true → s.boot.stage = 1 → s.stw.state = .rom → s.stw.warmReq = none → f.keyStoreOk = false → 
      ∃ t, exec (.bootStage f) s = .next t ∧ became { s with stw.state := .fault, stw.faultCode := 1, assay.chipWdog := 0 } t) ∧
  -- BOOT_STAGE, the self-tests pass: the supplies' operating point is confirmed
  (∀ (f : BootFacts) (s : State), alive s = true → s.boot.stage = 1 → s.stw.state = .rom → s.stw.warmReq = none → f.keyStoreOk = true → f.fuseStable = true → 
      ∃ t, exec (.bootStage f) s = .next t ∧ became { s with boot.stage := 2, power.op := 1, power.confirmedOp := 1 } t)

/-- What flash writes, Ingot copies, the host link's reset pin and a restart of the Steward do. A factory restore by
strap, the confirmation of an image, the end of each flash write, the restart of the Steward and the reset pin of the
PCIe link act as given. -/
def Obligations.FlashAndRestartsTakeEffect : Prop :=
  -- FACTORY_STRAP_TIMEOUT: a factory restore, and a warm reset 10 beats on
  (∀ (s : State), alive s = true → s.boot.factoryWatch = true → s.stw.state = .ready → 
      ∃ t, exec (.factoryStrapTimeout) s = .next t ∧ (t.kept.boot.factoryRestoreCnt = satInc 32 s.kept.boot.factoryRestoreCnt ∧ t.boot.sramValid = false ∧ t.boot.factoryBy = some 0 ∧ t.stw.warmReq = some { due := some (s.beat + 10), cause := 3 } ∧ ((t.boot.flash.copy0 = none ∧ t.boot.flash.copy1.isSome = true) ∨ (t.boot.flash.copy1 = none ∧ t.boot.flash.copy0.isSome = true)))) ∧
  -- AUTO_CONFIRM of a trial that has run long enough: the permanent record is written
  (∀ (s : State), alive s = true → s.stw.trialBoot = true → (recordNow s).trial = true → (recordNow s).autoConfirm = true → (recordNow s).confirmBeats ≤ s.boot.trialBeats → s.stw.state = .ready → s.boot.flashJobs = [] → 
      ∃ t, exec (.autoConfirm) s = .next t ∧ became { s with boot.flashJobs := [.confirm none (permanentRecord s s.stw.imageSlot)] } t) ∧
  -- AUTO_CONFIRM of such a trial whatever else the flash is asked for, no confirmation under way
  (∀ (s : State), alive s = true → s.stw.trialBoot = true → (recordNow s).trial = true → (recordNow s).autoConfirm = true → (recordNow s).confirmBeats ≤ s.boot.trialBeats → s.stw.state = .ready → confirming s = false → 
      ∃ t, exec .autoConfirm s = .next t ∧ became { s with boot.flashJobs := s.boot.flashJobs ++ [.confirm none (permanentRecord s s.stw.imageSlot)] } t) ∧
  -- FLASH_PROGRAMME_DONE of a confirmation: the record stands, the rollback fuse rises, the trial ends
  (∀ (r : CommitRecord) (s : State), alive s = true → s.boot.flashJobs = [.confirm none r] → 
      ∃ t, exec (.flashProgrammeDone true) s = .next t ∧ (t.boot.flashJobs = [] ∧ (t.boot.flash.rec0 = some r ∨ t.boot.flash.rec1 = some r) ∧ t.boot.fuses.rollback = max s.boot.fuses.rollback s.boot.runningSecVer ∧ t.stw.trialBoot = false ∧ t.stw.events = s.stw.events ++ [{ stamp := s.stamp, source := 40, code := 0x0A03, data := le 1 s.stw.imageSlot ++ le 4 s.stw.fwVersion ++ le 1 (max s.boot.fuses.rollback s.boot.runningSecVer) }])) ∧
  -- PERST_N_RISE
  (∀ (s : State), alive s = true → 
      ∃ t, exec (.perstNRise) s = .next t ∧ became { s with boot.perstHigh := true } t) ∧
  -- INGOT_COPY_START where a copy is due and none runs, its records within its region: the region that does not hold the newest copy is erased
  (∀ (s : State), alive s = true → s.stw.changePending = true → s.stw.saveNow = true → s.boot.stage = 8 → s.stw.state = .ready → coresRun s = true → s.boot.flashJobs = [] → 
      ∃ t, exec .ingotCopyStart s = .next t ∧ (copyFits (ingotView s.kept) = true → t.boot.flashJobs = [.copy (freeRegion s.boot.flash) { seq := nextSeq s.boot.flash, kept := ingotView s.kept, writeBeat := s.beat, fwVersion := s.stw.fwVersion, epoch := s.kept.time.epoch, energy := s.pole.energy }] ∧ (if freeRegion s.boot.flash = 0 then t.boot.flash.copy0 = none ∧ t.boot.flash.copy1 = s.boot.flash.copy1 else t.boot.flash.copy1 = none ∧ t.boot.flash.copy0 = s.boot.flash.copy0))) ∧
  -- INGOT_COPY_START on any of the conditions, whoever waits for the copy, whatever else the flash is asked for
  (∀ (s : State), alive s = true → copyDue s = true → s.boot.stage = 8 → s.stw.state = .ready → coresRun s = true → copying s = false → 
      ∃ t, exec .ingotCopyStart s = .next t ∧ (copyFits (ingotView s.kept) = true → t.boot.flashJobs = s.boot.flashJobs ++ [.copy (freeRegion s.boot.flash) { seq := nextSeq s.boot.flash, kept := ingotView s.kept, writeBeat := s.beat, fwVersion := s.stw.fwVersion, epoch := s.kept.time.epoch, energy := s.pole.energy }] ∧ t.stw.saveNow = false)) ∧
  -- INGOT_COPY_START, no command waiting for it, and its records exceed its region: not written, reported with DETAIL 0x10
  (∀ (s : State), alive s = true → s.stw.changePending = true → s.stw.saveNow = true → s.boot.stage = 8 → s.stw.state = .ready → coresRun s = true → s.boot.flashJobs = [] → s.stw.jobs = [] → s.stw.warmReq = none → s.boot.commitWaits = none → 
      ∃ t, exec .ingotCopyStart s = .next t ∧ (copyFits (ingotView s.kept) = false → became (raise 45 0x0105 (le 1 (freeRegion s.boot.flash) ++ le 1 0x10) { s with boot.commitInCopy := false, stw.saveNow := false, stw.newerBeats := none, stw.ingotFailCnt := satInc 32 s.stw.ingotFailCnt }) t)) ∧
  -- INGOT_COPY_DONE, no command waiting for it: the copy stands
  (∀ (r : Nat) (x : IngotCopy) (s : State), alive s = true → s.boot.flashJobs = [.copy r x] → r ≤ 1 → s.stw.jobs = [] → s.stw.warmReq = none → s.boot.commitWaits = none → 
      ∃ t, exec (.ingotCopyDone true) s = .next t ∧ (t.boot.flashJobs = [] ∧ (if r = 0 then t.boot.flash.copy0 else t.boot.flash.copy1) = some x ∧ t.stw.ingotWriteCnt = satInc 32 s.stw.ingotWriteCnt ∧ t.stw.changePending = decide (ingotView s.kept ≠ x.kept) ∧ t.boot.journalBase = x.seq ∧ t.boot.sramValid = true ∧ t.stw.events = s.stw.events ++ [{ stamp := s.stamp, source := 45, code := 0x0104, data := le 4 x.seq ++ le 1 r }])) ∧
  -- INGOT_COPY_DONE, whoever waits for it: the copy stands
  (∀ (r : Nat) (x : IngotCopy) (rest : List FlashJob) (s : State), alive s = true → s.boot.flashJobs = .copy r x :: rest → 
      ∃ t, exec (.ingotCopyDone true) s = .next t ∧ (if r = 0 then t.boot.flash.copy0 else t.boot.flash.copy1) = some x ∧ t.stw.ingotWriteCnt = satInc 32 s.stw.ingotWriteCnt) ∧
  -- INGOT_COPY_DONE of a copy that fails, no command waiting for it: reported, the other copy stands
  (∀ (r : Nat) (x : IngotCopy) (s : State), alive s = true → s.boot.flashJobs = [.copy r x] → s.stw.jobs = [] → s.stw.warmReq = none → s.boot.commitWaits = none → 
      ∃ t, exec (.ingotCopyDone false) s = .next t ∧ became (raise 45 0x0105 (le 1 r ++ le 1 0x11) { s with boot.flashJobs := [], stw.newerBeats := none, stw.ingotFailCnt := satInc 32 s.stw.ingotFailCnt }) t) ∧
  -- STEWARD_RESTART asked for, no command open and none in the last minute
  (∀ (cause d : Nat) (u : State) (s : State), alive s = true → s.stw.restartReq = some (cause, d) → s.stw.state = .ready → coresRun s = true → s.power.mode ≠ .dormant → s.stw.jobs = [] → s.assay.restarts = [] → u = advanceTo (d * 1000000) s → 
      ∃ t, exec (.stewardRestart) s = .next t ∧ became { u with stw.state := .restarting, stw.restartReq := none, stw.restartCause := cause, stw.restartBeats := 0, stw.restartCnt := satInc 32 s.stw.restartCnt, stw.sticky := setBit32 s.stw.sticky 7, assay.chipWdog := 0, boot.trialBeats := 0, assay.restarts := [u.beat] } t) ∧
  -- STEWARD_RESTART asked for, fewer than two before it in the last minute, whatever is open
  (∀ (cause d : Nat) (u : State) (s : State), alive s = true → s.stw.restartReq = some (cause, d) → firmwareUp s = true → u = passTo (d * 1000000) s → (s.assay.restarts.filter (fun b => decide (b + 60000 > u.beat))).length < 2 → 
      ∃ t, exec .stewardRestart s = .next t ∧ t.stw.state = .restarting ∧ t.stw.restartReq = none ∧ t.stw.restartCause = cause ∧ t.stw.restartCnt = satInc 32 s.stw.restartCnt ∧ t.assay.restarts = u.beat :: s.assay.restarts.filter (fun b => decide (b + 60000 > u.beat))) ∧
  -- STEWARD_READY after a restart in READY, no command open and no doorbell held
  (∀ (s : State), alive s = true → s.stw.state = .restarting → s.boot.stage = 8 → s.stw.jobs = [] → (s.lane 0).order = [] ∧ (s.lane 1).order = [] ∧ (s.lane 2).order = [] ∧ (s.lane 3).order = [] → 
      ∃ t, exec (.stewardReady) s = .next t ∧ became (raise 45 0x0101 (le 1 s.stw.restartCause ++ le 4 s.stw.restartCnt) { s with stw.state := .ready }) t) ∧
  -- STEWARD_READY after a restart in READY, whatever is open, no doorbell held: the Steward serves, and every command that ended meanwhile is answered
  (∀ (s : State), alive s = true → s.stw.state = .restarting → s.boot.stage = 8 → (List.range 4).all (fun n => (s.lane n).order.isEmpty) = true → 
      ∃ t, exec .stewardReady s = .next t ∧ t.stw.state = .ready ∧ t.stw.restartCnt = s.stw.restartCnt)

/-- The security and image commands complete. Each command of area 0x0A, sent READY with good fields and accepted at
once, is answered with the fields its table gives, or stays open while the flash works, or is refused where R532 and
R540 refuse it; its effect is exactly the one given. The signature of SEC_ATTEST is 96 bytes that the model leaves
free, and so is a byte of a bulk region that nothing has written. -/
def Obligations.SecurityCommandsComplete : Prop :=
  -- SEC_INFO: SEQ and COPY of the newest flash copy, 0 where there is none
  (∀ (c : Cmd) (seq copy : Nat) (s : State), readyFor c s = true → goodTable [] c = true → c.lane ≤ 2 → seq = ((newestCopy s.boot.flash).map (fun e => e.2.seq)).getD 0 → copy = ((newestCopy s.boot.flash).map (fun e => e.1)).getD 0 → 
      ∃ t, exec (.secInfo c) s = .next t ∧ ended 0x0A01 c s { body := le 1 (recordNow s).active ++ le 1 (bit (recordNow s).trial) ++ le 1 (recordNow s).trialsLeft ++ le 1 s.boot.fuses.rollback ++ le 4 (recordNow s).versionA ++ le 4 (recordNow s).versionB ++ le 4 seq ++ le 1 copy ++ le 1 s.stw.restoreSrc ++ le 1 (bit s.boot.fuses.ownerHash.isSome + 2 * bit (seedValid s)) ++ [0] } s t) ∧
  -- SEC_ATTEST: the claims of Table 12-6, over the image that runs, and a signature
  (∀ (c : Cmd) (seq : Nat) (m : Memory) (s : State), readyFor c s = true → goodTable [fAny 16 32] c = true → c.lane ≤ 2 → seq = ((newestCopy s.boot.flash).map (fun e => e.2.seq)).getD 0 → m = imageOf s (if s.boot.hostRun then 2 else s.stw.imageSlot) → 
      ∃ t, exec (.secAttest c) s = .next t ∧ ended 0x0A02 c s { body := c.bytesAt 16 32 ++ le 8 Config.serial ++ le 4 s.stw.fwVersion ++ le 1 s.boot.runningSecVer ++ le 1 s.boot.fuses.rollback ++ le 1 (fieldsWord [(0, s.stw.imageSlot), (1, bit s.stw.trialBoot), (2, s.stw.restoreSrc), (4, bit s.boot.fuses.ownerHash.isSome)]) ++ [0] ++ imgBytes m (imgNat m 12 4 + 208) 48 ++ le 4 seq ++ s.stamp.bytes ++ (List.range 96).map (Config.digestByte s.draws) } { s with boot.counts := tally s.boot.counts 40, draws := s.draws + 1 } t) ∧
  -- SEC_CERT_READ: the certificate chain from OFFSET, as much as the bulk region takes
  (∀ (c : Cmd) (n : Nat) (s : State), readyFor c s = true → goodTable [fAny 16 4] c = true → c.lane ≤ 2 → hasBit c.flags 0 = true → n = min c.bulkLen (Config.certLength - c.u 16 4) → 
      ∃ t, exec (.secCertRead c) s = .next t ∧ answered 0x0A03 s.beat c { body := le 4 n ++ le 4 Config.certLength, bulkOut := n } t ∧ t = { s with stw := t.stw, outbox := t.outbox } ∧ (t.lane c.lane).bulk = Memory.writeList ((taken 0x0A03 c s).lane c.lane).bulk c.bulkOff ((List.range n).map (fun i => Config.certByte (c.u 16 4 + i)))) ∧
  -- SEC_CERT_READ without a bulk region: BAD_ARG
  (∀ (c : Cmd) (s : State), readyFor c s = true → goodTable [fAny 16 4] c = true → c.lane ≤ 2 → hasBit c.flags 0 = false → 
      ∃ t, exec (.secCertRead c) s = .next t ∧ ended 0x0A03 c s { status := 3, detail := 0 } s t) ∧
  -- SEC_KEY_SET of the lane 2 key
  (∀ (c : Cmd) (s : State), readyFor c s = true → goodTable [fRange 16 1 0 1, fZero 17 3, fAny 20 48] c = true → c.lane ≤ 2 → c.u 16 1 = 0 → 
      ∃ t, exec (.secKeySet c) s = .next t ∧ ended 0x0A04 c s {} { s with next.boot.lane2Key := some (c.bytesAt 20 16) } t) ∧
  -- SEC_KEY_SET of the owner key on lane 0 or 1, fused once
  (∀ (c : Cmd) (s : State), readyFor c s = true → goodTable [fRange 16 1 0 1, fZero 17 3, fAny 20 48] c = true → c.lane ≤ 1 → c.u 16 1 = 1 → s.boot.fuses.ownerHash = none → 
      ∃ t, exec (.secKeySet c) s = .next t ∧ ended 0x0A04 c s {} { s with boot.fuses.ownerHash := some (c.bytesAt 20 48) } t) ∧
  -- SEC_KEY_SET of the owner key that is fused already, or on lane 2: DENIED
  (∀ (c : Cmd) (s : State), readyFor c s = true → goodTable [fRange 16 1 0 1, fZero 17 3, fAny 20 48] c = true → c.lane ≤ 2 → c.u 16 1 = 1 → (c.lane = 2 ∨ s.boot.fuses.ownerHash.isSome = true) → 
      ∃ t, exec (.secKeySet c) s = .next t ∧ ended 0x0A04 c s { status := 6, detail := 0xFF } s t) ∧
  -- IMG_BEGIN for the flash slot that does not run, no update of another lane open
  (∀ (c : Cmd) (s : State), readyFor c s = true → goodTable [fRange 16 1 0 2, fZero 17 3, fRange 20 4 0 (slotBytes - 512), fRange 24 1 0 63, fZero 25 3] c = true → c.lane ≤ 2 → s.boot.update.all (fun x => decide (x.lane = c.lane)) = true → c.u 16 1 ≠ 2 → c.u 16 1 ≠ (recordNow s).active → (recordNow s).trial = false → s.boot.fuses.rollback ≤ c.u 24 1 → 
      ∃ t, exec (.imgBegin c) s = .next t ∧ ended 0x0A05 c s {} { s with boot.update := some { lane := c.lane, slot := c.u 16 1, imageLen := c.u 20 4, secVer := c.u 24 1 } } t) ∧
  -- IMG_BEGIN for the slot that runs, for the RAM target in READY, during a trial, or below the rollback version: DENIED
  (∀ (c : Cmd) (s : State), readyFor c s = true → goodTable [fRange 16 1 0 2, fZero 17 3, fRange 20 4 0 (slotBytes - 512), fRange 24 1 0 63, fZero 25 3] c = true → c.lane ≤ 2 → s.boot.update.all (fun x => decide (x.lane = c.lane)) = true → (c.u 16 1 = 2 ∨ c.u 16 1 = (recordNow s).active ∨ (recordNow s).trial = true ∨ c.u 24 1 < s.boot.fuses.rollback) → 
      ∃ t, exec (.imgBegin c) s = .next t ∧ ended 0x0A05 c s { status := 6, detail := 0xFF } s t) ∧
  -- IMG_BEGIN while an update of another lane is open: DENIED, with its owner
  (∀ (c : Cmd) (x : ImageUpdate) (s : State), readyFor c s = true → goodTable [fRange 16 1 0 2, fZero 17 3, fRange 20 4 0 (slotBytes - 512), fRange 24 1 0 63, fZero 25 3] c = true → c.lane ≤ 2 → s.boot.update = some x → x.lane ≠ c.lane → 
      ∃ t, exec (.imgBegin c) s = .next t ∧ ended 0x0A05 c s { status := 6, detail := laneOwner x.lane } s t) ∧
  -- IMG_WRITE into a flash slot: open until it is programmed
  (∀ (c : Cmd) (x : ImageUpdate) (s : State), readyFor c s = true → goodTable [fAny 16 4, fZero 20 4] c = true → c.lane ≤ 2 → s.boot.update = some x → x.lane = c.lane → x.slot ≠ 2 → hasBit c.flags 0 = true → c.u 16 4 + c.bulkLen ≤ x.imageLen + 512 → 
      ∃ t, exec (.imgWrite c) s = .next t ∧ opened 0x0A06 c s true { s with boot.flashJobs := s.boot.flashJobs ++ [.image s.stw.nextJob x.slot (c.u 16 4) (Memory.readList s.draws ((taken 0x0A06 c s).lane c.lane).bulk c.bulkOff c.bulkLen)], draws := s.draws + 65536 } t) ∧
  -- IMG_WRITE into the RAM target: written at once
  (∀ (c : Cmd) (x : ImageUpdate) (s : State), readyFor c s = true → goodTable [fAny 16 4, fZero 20 4] c = true → c.lane ≤ 2 → s.boot.update = some x → x.lane = c.lane → x.slot = 2 → hasBit c.flags 0 = true → c.u 16 4 + c.bulkLen ≤ x.imageLen + 512 → 
      ∃ t, exec (.imgWrite c) s = .next t ∧ ended 0x0A06 c s {} { s with boot.ram := Memory.writeList s.boot.ram (c.u 16 4) (Memory.readList s.draws ((taken 0x0A06 c s).lane c.lane).bulk c.bulkOff c.bulkLen), draws := s.draws + 65536 } t) ∧
  -- IMG_WRITE beyond the image and its Hallmark: BAD_ARG
  (∀ (c : Cmd) (x : ImageUpdate) (s : State), readyFor c s = true → goodTable [fAny 16 4, fZero 20 4] c = true → c.lane ≤ 2 → s.boot.update = some x → x.lane = c.lane → hasBit c.flags 0 = true → x.imageLen + 512 < c.u 16 4 + c.bulkLen → 
      ∃ t, exec (.imgWrite c) s = .next t ∧ ended 0x0A06 c s { status := 3, detail := 16 } s t) ∧
  -- IMG_WRITE without a bulk region: BAD_ARG
  (∀ (c : Cmd) (s : State), readyFor c s = true → goodTable [fAny 16 4, fZero 20 4] c = true → c.lane ≤ 2 → hasBit c.flags 0 = false → 
      ∃ t, exec (.imgWrite c) s = .next t ∧ ended 0x0A06 c s { status := 3, detail := 0 } s t) ∧
  -- IMG_WRITE on a lane other than that of the update: DENIED, with its owner
  (∀ (c : Cmd) (x : ImageUpdate) (s : State), readyFor c s = true → goodTable [fAny 16 4, fZero 20 4] c = true → c.lane ≤ 2 → hasBit c.flags 0 = true → s.boot.update = some x → x.lane ≠ c.lane → 
      ∃ t, exec (.imgWrite c) s = .next t ∧ ended 0x0A06 c s { status := 6, detail := laneOwner x.lane } s t) ∧
  -- IMG_WRITE with no update open: DENIED
  (∀ (c : Cmd) (s : State), readyFor c s = true → goodTable [fAny 16 4, fZero 20 4] c = true → c.lane ≤ 2 → hasBit c.flags 0 = true → s.boot.update = none → 
      ∃ t, exec (.imgWrite c) s = .next t ∧ ended 0x0A06 c s { status := 6, detail := 0xFF } s t) ∧
  -- IMG_COMMIT of an image whose Hallmarks do not verify: denied, and the update is closed
  (∀ (c : Cmd) (x : ImageUpdate) (s : State), readyFor c s = true → goodTable [fMask 16 1 3, fZero 17 3, fRange 20 4 1000 4000000] c = true → c.lane ≤ 2 → s.boot.update = some x → x.lane = c.lane → (imageFault (imageOf s x.slot) s.boot.fuses).isSome = true → 
      ∃ t, exec (.imgCommit c) s = .next t ∧ ended 0x0A07 c s { status := 6, detail := 0x10 } { s with boot.update := none } t) ∧
  -- IMG_COMMIT of an image that verifies, nothing to save: open while its commit record is written
  (∀ (c : Cmd) (x : ImageUpdate) (s : State), readyFor c s = true → goodTable [fMask 16 1 3, fZero 17 3, fRange 20 4 1000 4000000] c = true → c.lane ≤ 2 → s.boot.update = some x → x.lane = c.lane → x.slot = 1 → s.stw.changePending = false → imageFault s.boot.flash.imageB s.boot.fuses = none → 
      ∃ t, exec (.imgCommit c) s = .next t ∧ opened 0x0A07 c s true { s with boot.flashJobs := s.boot.flashJobs ++ [.commit s.stw.nextJob { seq := ((recordNow s).seq + 1) % 2 ^ 32, active := 1, trial := true, trialsLeft := 3, autoConfirm := c.flag 16 1 1, confirmBeats := c.u 20 4, versionA := slotVersion s 0, versionB := imgNat s.boot.flash.imageB 16 4 } (c.flag 16 1 0)] } t) ∧
  -- IMG_COMMIT of slot A likewise
  (∀ (c : Cmd) (x : ImageUpdate) (s : State), readyFor c s = true → goodTable [fMask 16 1 3, fZero 17 3, fRange 20 4 1000 4000000] c = true → c.lane ≤ 2 → s.boot.update = some x → x.lane = c.lane → x.slot = 0 → s.stw.changePending = false → imageFault s.boot.flash.imageA s.boot.fuses = none → 
      ∃ t, exec (.imgCommit c) s = .next t ∧ opened 0x0A07 c s true { s with boot.flashJobs := s.boot.flashJobs ++ [.commit s.stw.nextJob { seq := ((recordNow s).seq + 1) % 2 ^ 32, active := 0, trial := true, trialsLeft := 3, autoConfirm := c.flag 16 1 1, confirmBeats := c.u 20 4, versionA := imgNat s.boot.flash.imageA 16 4, versionB := slotVersion s 1 } (c.flag 16 1 0)] } t) ∧
  -- IMG_COMMIT of an image that verifies, a change to save: a flash copy first
  (∀ (c : Cmd) (x : ImageUpdate) (s : State), readyFor c s = true → goodTable [fMask 16 1 3, fZero 17 3, fRange 20 4 1000 4000000] c = true → c.lane ≤ 2 → s.boot.update = some x → x.lane = c.lane → x.slot ≠ 2 → s.stw.changePending = true → imageFault (imageOf s x.slot) s.boot.fuses = none → 
      ∃ t, exec (.imgCommit c) s = .next t ∧ opened 0x0A07 c s false { s with boot.commitWaits := some s.stw.nextJob, boot.commitInCopy := false, stw.saveNow := true } t) ∧
  -- IMG_COMMIT of the RAM image: it runs
  (∀ (c : Cmd) (x : ImageUpdate) (s : State), readyFor c s = true → goodTable [fMask 16 1 3, fZero 17 3, fRange 20 4 1000 4000000] c = true → c.lane ≤ 2 → s.boot.update = some x → x.lane = c.lane → x.slot = 2 → imageFault s.boot.ram s.boot.fuses = none → 
      ∃ t, exec (.imgCommit c) s = .next t ∧ ended 0x0A07 c s {} { s with boot.update := none, boot.hostRun := true } t) ∧
  -- IMG_COMMIT on a lane other than that of the update: DENIED, with its owner
  (∀ (c : Cmd) (x : ImageUpdate) (s : State), readyFor c s = true → goodTable [fMask 16 1 3, fZero 17 3, fRange 20 4 1000 4000000] c = true → c.lane ≤ 2 → s.boot.update = some x → x.lane ≠ c.lane → 
      ∃ t, exec (.imgCommit c) s = .next t ∧ ended 0x0A07 c s { status := 6, detail := laneOwner x.lane } s t) ∧
  -- IMG_COMMIT with no update open: DENIED
  (∀ (c : Cmd) (s : State), readyFor c s = true → goodTable [fMask 16 1 3, fZero 17 3, fRange 20 4 1000 4000000] c = true → c.lane ≤ 2 → s.boot.update = none → 
      ∃ t, exec (.imgCommit c) s = .next t ∧ ended 0x0A07 c s { status := 6, detail := 0xFF } s t) ∧
  -- IMG_CONFIRM of a trial: open while the permanent record is written
  (∀ (c : Cmd) (s : State), readyFor c s = true → goodTable [] c = true → c.lane ≤ 2 → s.stw.trialBoot = true → (recordNow s).trial = true → confirming s = false → 
      ∃ t, exec (.imgConfirm c) s = .next t ∧ opened 0x0A08 c s true { s with boot.flashJobs := s.boot.flashJobs ++ [.confirm (some s.stw.nextJob) (permanentRecord s s.stw.imageSlot)] } t) ∧
  -- IMG_CONFIRM outside a trial, or while a confirmation is being written: OK, nothing changed
  (∀ (c : Cmd) (s : State), readyFor c s = true → goodTable [] c = true → c.lane ≤ 2 → (s.stw.trialBoot = false ∨ (recordNow s).trial = false ∨ confirming s = true) → 
      ∃ t, exec (.imgConfirm c) s = .next t ∧ ended 0x0A08 c s {} s t) ∧
  -- SEC_FACTORY_RESTORE on lane 0 or 1: carried out, and a warm reset 10 beats on
  (∀ (c : Cmd) (s : State), readyFor c s = true → goodTable [fOneOf 16 4 [0x5A5A0F0F]] c = true → c.lane ≤ 1 → 
      ∃ t, exec (.secFactoryRestore c) s = .next t ∧ ended 0x0A09 c s {} (factoryRestore 1 s) t ∧ t.kept.boot.factoryRestoreCnt = satInc 32 s.kept.boot.factoryRestoreCnt ∧ t.boot.sramValid = false ∧ t.boot.factoryBy = some 1 ∧ t.stw.ingotWriteCnt = satInc 32 s.stw.ingotWriteCnt ∧ t.stw.warmReq = some { due := some (s.beat + 10), cause := 3 }) ∧
  -- SEC_FACTORY_RESTORE on lane 2: DENIED
  (∀ (c : Cmd) (s : State), readyFor c s = true → goodTable [fOneOf 16 4 [0x5A5A0F0F]] c = true → c.lane = 2 → 
      ∃ t, exec (.secFactoryRestore c) s = .next t ∧ ended 0x0A09 c s { status := 6, detail := 0xFF } s t) ∧
  -- SEED_WRITE inside the seed region: open until it is programmed
  (∀ (c : Cmd) (s : State), readyFor c s = true → goodTable [fAny 16 4, fZero 20 4] c = true → c.lane ≤ 2 → hasBit c.flags 0 = true → c.u 16 4 + c.bulkLen ≤ 512 * 1024 → 
      ∃ t, exec (.seedWrite c) s = .next t ∧ opened 0x0A0A c s true { s with boot.flashJobs := s.boot.flashJobs ++ [.seed s.stw.nextJob (c.u 16 4) (Memory.readList s.draws ((taken 0x0A0A c s).lane c.lane).bulk c.bulkOff c.bulkLen)], draws := s.draws + 65536 } t) ∧
  -- SEED_WRITE without a bulk region, or beyond the seed region: BAD_ARG
  (∀ (c : Cmd) (s : State), readyFor c s = true → goodTable [fAny 16 4, fZero 20 4] c = true → c.lane ≤ 2 → (hasBit c.flags 0 = false ∨ 512 * 1024 < c.u 16 4 + c.bulkLen) → 
      ∃ t, exec (.seedWrite c) s = .next t ∧ ended 0x0A0A c s { status := 3, detail := if hasBit c.flags 0 then 16 else 0 } s t) ∧
  -- SEC_PCIE_IDS
  (∀ (c : Cmd) (s : State), readyFor c s = true → goodTable [fAny 16 2, fAny 18 2] c = true → c.lane ≤ 2 → 
      ∃ t, exec (.secPcieIds c) s = .next t ∧ ended 0x0A0B c s {} { s with next.boot.subsysVendor := c.u 16 2, next.boot.subsysId := c.u 18 2 } t) ∧
  -- SEC_COUNTERS: the counters and the sticky bits, each cleared where the command says so
  (∀ (c : Cmd) (s : State), readyFor c s = true → goodTable [fMask 16 1 3, fMask 17 1 7, fZero 18 2] c = true → c.lane ≤ 2 → 
      ∃ t, exec (.secCounters c) s = .next t ∧ ended 0x0A0C c s { body := le 1 (bit s.boot.hallmarkFailStk + 2 * bit s.boot.revertStk + 4 * bit s.boot.ingotForeignStk) ++ [0, 0, 0] ++ tallyBytes s.boot.counts 20 4 ++ le 4 s.kept.boot.factoryRestoreCnt ++ le 4 (tallyOf s.boot.counts 40) } { s with boot.counts := if c.flag 16 1 0 then [] else s.boot.counts, kept.boot.factoryRestoreCnt := if c.flag 16 1 0 then 0 else s.kept.boot.factoryRestoreCnt, next.boot.factoryRestoreCnt := if c.flag 16 1 0 then 0 else s.next.boot.factoryRestoreCnt, boot.hallmarkFailStk := s.boot.hallmarkFailStk && !(c.flag 16 1 1 && c.flag 17 1 0), boot.revertStk := s.boot.revertStk && !(c.flag 16 1 1 && c.flag 17 1 1), boot.ingotForeignStk := s.boot.ingotForeignStk && !(c.flag 16 1 1 && c.flag 17 1 2) } t) ∧
  -- on lane 3 every command of the area: DENIED
  (∀ (i : Instr) (c : Cmd) (s : State), i.cmd? = some c → i.opcode / 256 = 10 → readyFor c s = true → goodTable (handlerOf i.opcode).fields c = true → c.lane = 3 → 
      ∃ t, exec i s = .next t ∧ ended i.opcode c s { status := 6, detail := 0xFF } s t)

/-- The commands of the Assay unit complete. Each command of area 0x0B, sent READY with good fields and accepted at
once, is answered with the fields of its table, or stays open until the commit window that applies it; its effect is
exactly the one given. -/
def Obligations.AssayCommandsComplete : Prop :=
  -- ASSAY_STATUS
  (∀ (c : Cmd) (s : State), readyFor c s = true → goodTable [] c = true → s.assay.disabled = [] → 
      ∃ t, exec (.assayStatus c) s = .next t ∧ ended 0x0B01 c s { body := le 1 (opMask s) ++ le 1 s.assay.govLevel ++ le 1 (fieldsWord [(0, bit (fullNow s)), (1, bit s.assay.ambientBar), (2, bit s.assay.eolStk), (3, bit s.assay.oosNow)]) ++ le 1 (worstPair s).1 ++ le 4 (degradationPpm s) ++ guardBytes s ++ ((List.range 4).map (fun i => le 2 (if s.kept.assay.removed.contains (i + 1) then 0 else opTargetMv s (i + 1)))).flatten ++ ((List.range 8).map (fun i => leInt 2 (s.assay.temps.getD i 0))).flatten ++ le 2 s.assay.pEst ++ (if s.kept.assay.config.thetaJa = 0 then le 2 0x8000 else leInt 2 (roundAway (ambientEst s) 1000)) ++ le 4 (s.kept.assay.lifeEq / 2 ^ 32) ++ le 8 s.assay.lastReplan ++ le 8 0 } s t) ∧
  -- ASSAY_CONFIG in its ranges
  (∀ (c : Cmd) (s : State), readyFor c s = true → goodTable [fAny 16 2, fAny 18 1, fAny 19 1, fAny 20 1, fAny 21 1, fAny 22 2] c = true → badAssayConfig c = none → 
      ∃ t, exec (.assayConfig c) s = .next t ∧ ended 0x0B02 c s {} { s with next.assay.config := { thetaJa := c.u 16 2, govT1 := c.u 18 1, govT2 := c.u 19 1, govT3 := c.u 20 1, stwWdogBeats := c.u 22 2 } } t) ∧
  -- ASSAY_CONFIG whose first threshold is below 80 °C: BAD_ARG names it
  (∀ (c : Cmd) (s : State), readyFor c s = true → goodTable [fAny 16 2, fAny 18 1, fAny 19 1, fAny 20 1, fAny 21 1, fAny 22 2] c = true → c.u 16 2 = 0 → c.u 18 1 < 80 → 
      ∃ t, exec (.assayConfig c) s = .next t ∧ ended 0x0B02 c s { status := 3, detail := 18 } s t) ∧
  -- ASSAY_REPLAN: open until its commit window
  (∀ (c : Cmd) (s : State), readyFor c s = true → goodTable [] c = true → s.assay.replanning = none → 
      ∃ t, exec (.assayReplan c) s = .next t ∧ opened 0x0B03 c s true { s with assay.replanning := some s.stw.nextJob } t) ∧
  -- ASSAY_REPLAN while one runs: BUSY
  (∀ (c : Cmd) (s : State), readyFor c s = true → goodTable [] c = true → s.assay.replanning.isSome = true → 
      ∃ t, exec (.assayReplan c) s = .next t ∧ ended 0x0B03 c s { status := 1 } s t) ∧
  -- ASSAY_PAIR_READ
  (∀ (c : Cmd) (b : List Byte) (s : State), readyFor c s = true → goodTable [fRange 16 1 0 31, fRange 17 1 1 32, fZero 18 2] c = true → c.u 16 1 + c.u 17 1 ≤ 32 → hasBit c.flags 0 = true → 8 * c.u 17 1 ≤ c.bulkLen → b = ((List.range (c.u 17 1)).map (fun i => le 4 (roundAway (degradation2 s (c.u 16 1 + i)) 2).toNat ++ le 2 (min 65535 ((pairHist s (c.u 16 1 + i)).headD 0).toNat) ++ le 1 (bit (guardPair (c.u 16 1 + i))) ++ [0])).flatten → 
      ∃ t, exec (.assayPairRead c) s = .next t ∧ answered 0x0B04 s.beat c { bulkOut := b.length } t ∧ t = { s with stw := t.stw, outbox := t.outbox } ∧ (t.lane c.lane).bulk = Memory.writeList ((taken 0x0B04 c s).lane c.lane).bulk c.bulkOff b) ∧
  -- ASSAY_FAULT_LOG without CLEAR
  (∀ (c : Cmd) (b : List Byte) (s : State), readyFor c s = true → goodTable [fMask 16 1 1, fZero 17 3] c = true → c.u 16 1 = 0 → hasBit c.flags 0 = true → 1024 ≤ c.bulkLen → b = (s.kept.assay.faultLog.map FaultEntry.bytes).flatten → 
      ∃ t, exec (.assayFaultLog c) s = .next t ∧ answered 0x0B05 s.beat c { body := le 1 s.kept.assay.faultLog.length, bulkOut := b.length } t ∧ t = { s with stw := t.stw, outbox := t.outbox } ∧ (t.lane c.lane).bulk = Memory.writeList ((taken 0x0B05 c s).lane c.lane).bulk c.bulkOff b) ∧
  -- ASSAY_UNIT_ENABLE of a unit that is disabled: its reset ends at the next commit window
  (∀ (c : Cmd) (s : State), readyFor c s = true → goodTable [fRange 16 1 0 47, fZero 17 3] c = true → c.u 16 1 ∈ s.assay.disabled → 
      ∃ t, exec (.assayUnitEnable c) s = .next t ∧ opened 0x0B06 c s true { s with assay.disabled := s.assay.disabled.filter (· ≠ c.u 16 1), assay.resets := Map.set s.assay.resets (c.u 16 1) { cls := 0, startBeat := s.beat } } t) ∧
  -- ASSAY_UNIT_ENABLE of a unit that works
  (∀ (c : Cmd) (s : State), readyFor c s = true → goodTable [fRange 16 1 0 47, fZero 17 3] c = true → c.u 16 1 ∉ s.assay.disabled → 
      ∃ t, exec (.assayUnitEnable c) s = .next t ∧ ended 0x0B06 c s {} s t) ∧
  -- ASSAY_COUNTERS that clears nothing
  (∀ (c : Cmd) (s : State), readyFor c s = true → goodTable [fMask 16 1 3, fMask 17 1 0xF, fZero 18 2] c = true → c.u 16 1 = 0 → 
      ∃ t, exec (.assayCounters c) s = .next t ∧ ended 0x0B07 c s { body := le 1 (fieldsWord [(0, bit s.assay.eolStk), (1, bit s.assay.govStk), (2, bit s.assay.unitDisabledStk), (3, bit s.assay.oosStk)]) ++ [0, 0, 0] ++ tallyBytes s.assay.counts 20 8 ++ le 4 s.kept.assay.chipWdogCnt ++ le 4 s.kept.assay.thermalTripCnt ++ tallyBytes s.assay.counts 60 4 } s t) ∧
  -- ASSAY_COUNTERS that clears all
  (∀ (c : Cmd) (s : State), readyFor c s = true → goodTable [fMask 16 1 3, fMask 17 1 0xF, fZero 18 2] c = true → c.u 16 1 = 3 → c.u 17 1 = 15 → 
      ∃ t, exec (.assayCounters c) s = .next t ∧ ended 0x0B07 c s { body := le 1 (fieldsWord [(0, bit s.assay.eolStk), (1, bit s.assay.govStk), (2, bit s.assay.unitDisabledStk), (3, bit s.assay.oosStk)]) ++ [0, 0, 0] ++ tallyBytes s.assay.counts 20 8 ++ le 4 s.kept.assay.chipWdogCnt ++ le 4 s.kept.assay.thermalTripCnt ++ tallyBytes s.assay.counts 60 4 } { s with assay.counts := [], assay.eolStk := false, assay.govStk := false, assay.unitDisabledStk := false, assay.oosStk := false, kept.assay.chipWdogCnt := 0, kept.assay.thermalTripCnt := 0, next.assay.chipWdogCnt := 0, next.assay.thermalTripCnt := 0 } t)

/-- What the Assay unit measures and what faults do. A pair's measurement, a re-plan of the device's own, a sensor
reading, the thermal trip and its release, a second of life, the watchdogs, an exception, a parity error of any unit, a
unit's return and the fall of PERST_N act as given, whatever else is under way; where a clause gives the whole state,
nothing else changes. -/
def Obligations.AssayEventsTakeEffect : Prop :=
  -- ASSAY_PAIR_MEASURE of a powered pair whose turn has come
  (∀ (nU nS : Nat) (s : State), alive s = true → 1000 ≤ s.assay.pairBeats → domainPowered s (pairDomain s.assay.nextPair) = true → 0 < nU → 
      ∃ t, exec (.assayPairMeasure nU nS) s = .next t ∧ became { s with assay.counts := tally s.assay.counts 20, assay.pairBeats := s.assay.pairBeats - 1000, assay.nextPair := (s.assay.nextPair + 1) % 32, kept.assay.hist := Map.set s.kept.assay.hist s.assay.nextPair ((roundAway (((nU : Int) - nS) * 10 ^ 6) nU :: Map.getD s.kept.assay.hist s.assay.nextPair []).take 8), next.assay.hist := Map.set s.next.assay.hist s.assay.nextPair ((roundAway (((nU : Int) - nS) * 10 ^ 6) nU :: Map.getD s.next.assay.hist s.assay.nextPair []).take 8) } t) ∧
  -- ASSAY_PAIR_MEASURE whose first count is 0, for which no rule gives a degradation: a free value stands for it (the model's choice, log entry 63), all else as before
  (∀ (nS : Nat) (s : State), alive s = true → 1000 ≤ s.assay.pairBeats → domainPowered s (pairDomain s.assay.nextPair) = true → 
      ∃ t, exec (.assayPairMeasure 0 nS) s = .next t ∧ (∃ d : Int, became { s with assay.counts := tally s.assay.counts 20, assay.pairBeats := s.assay.pairBeats - 1000, assay.nextPair := (s.assay.nextPair + 1) % 32, draws := s.draws + 1, kept.assay.hist := Map.set s.kept.assay.hist s.assay.nextPair ((d :: Map.getD s.kept.assay.hist s.assay.nextPair []).take 8), next.assay.hist := Map.set s.next.assay.hist s.assay.nextPair ((d :: Map.getD s.next.assay.hist s.assay.nextPair []).take 8) } t)) ∧
  -- ASSAY_PAIR_MEASURE before the pair's turn, or of a pair without power: nothing
  (∀ (nU nS : Nat) (s : State), alive s = true → (s.assay.pairBeats < 1000 ∨ domainPowered s (pairDomain s.assay.nextPair) = false) → 
      ∃ t, exec (.assayPairMeasure nU nS) s = .next t ∧ became s t) ∧
  -- ASSAY_REPLAN_PERIODIC where every guard is too low and no target reaches its ceiling: all four guards become those of R543
  (∀ (s : State), alive s = true → 86400000 ≤ s.assay.replanBeats → s.kept.assay.removed = [] → s.kept.assay.guards.length = 4 → (∀ op, 1 ≤ op → op ≤ 4 → s.kept.assay.guards.getD (op - 1) 0 < guardFormula op (worstPair s).2 ∧ opNominal op + guardFormula op (worstPair s).2 ≤ opCeiling op) → 
      ∃ t, exec (.assayReplanPeriodic) s = .next t ∧ (t.kept.assay.guards = [guardFormula 1 (worstPair s).2, guardFormula 2 (worstPair s).2, guardFormula 3 (worstPair s).2, guardFormula 4 (worstPair s).2] ∧ t.assay.lastReplan = s.beat ∧ t.assay.replanBeats = 0 ∧ t.kept.assay.removed = [])) ∧
  -- ASSAY_REPLAN_PERIODIC in any state, its time come: the four points are re-planned in turn, and the re-plan is counted and reported
  (∀ (s : State), alive s = true → 86400000 ≤ s.assay.replanBeats → 
      ∃ t, exec (.assayReplanPeriodic) s = .next t ∧ became (replanEnd true s ([1, 2, 3, 4].foldl (replanPoint true (worstPair s).2 (degradationPpm s)) s)) t) ∧
  -- SENSOR_READ within the specification, the rail on its target
  (∀ (l : List Int) (p : Nat) (s : State), alive s = true → s.power.mode ≠ .dormant → s.assay.sensorBeat = none → s.assay.vcoreOff = none → l.length = 8 → l.all (fun x => decide (-400 ≤ x) && decide (x ≤ 1100)) = true → 
      ∃ t, exec (.sensorRead l p) s = .next t ∧ (t.assay.temps = l ∧ t.assay.pEst = p ∧ t.assay.oosNow = false ∧ t.assay.hotBeats = 0 ∧ t.stw.events = s.stw.events ∧ t.kept = s.kept)) ∧
  -- SENSOR_READ of any readings, once a beat: the beats at 118 °C are counted and the specification judged
  (∀ (l : List Int) (p : Nat) (s : State), alive s = true → s.power.mode ≠ .dormant → (advancePhase 500000 s).assay.sensorBeat ≠ some (advancePhase 500000 s).beat → 
      ∃ t, exec (.sensorRead l p) s = .next t ∧ became (sensorSeen l p (advancePhase 500000 s)) t) ∧
  -- THERMAL_TRIP after ten beats at 118 °C: the warm reset, held, with cause 5
  (∀ (s : State), alive s = true → 10 ≤ s.assay.hotBeats → 
      ∃ t, exec (.thermalTrip) s = .next t ∧ (t.boot.thermalHeld = true ∧ t.stw.lastReset = 5 ∧ t.boot.stage = 0 ∧ t.assay.latch = ({ stamp := s.stamp, source := 2, cls := 11, action := 3 } :: s.assay.latch.1, s.assay.latch.2.1, s.assay.latch.2.2 + 1) ∧ t.time.acc = s.time.acc ∧ t.boot.fuses = s.boot.fuses)) ∧
  -- THERMAL_RELEASE below 95 °C: the straps are sampled and the boot starts
  (∀ (temp : Int) (b : Nat) (f : Bool) (s : State), s.boot.thermalHeld = true → temp < 950 → 
      ∃ t, exec (.thermalRelease temp b f) s = .next t ∧ became { s with boot.thermalHeld := false, boot.straps := { s.boot.straps with bootSrc := b % 4, factoryN := f }, boot.factoryWatch := (!f).and s.boot.factoryBy.isNone } t) ∧
  -- THERMAL_RELEASE at 95 °C or above, or without a thermal reset: nothing
  (∀ (temp : Int) (b : Nat) (f : Bool) (s : State), (950 ≤ temp ∨ s.boot.thermalHeld = false) → 
      ∃ t, exec (.thermalRelease temp b f) s = .next t ∧ became s t) ∧
  -- LIFE_EQ_TICK of an awake second: the hottest sensor's ageing
  (∀ (aon : Int) (s : State), alive s = true → s.power.mode ≠ .dormant → 1000 ≤ s.assay.lifeBeats → 
      ∃ t, exec (.lifeEqTick aon) s = .next t ∧ became { s with assay.lifeBeats := s.assay.lifeBeats - 1000, kept.assay.lifeEq := s.kept.assay.lifeEq + lifeSecond (hottest s).2, next.assay.lifeEq := s.next.assay.lifeEq + lifeSecond (hottest s).2 } t) ∧
  -- LIFE_EQ_TICK in Dormant: sensor 7 alone
  (∀ (aon : Int) (s : State), alive s = true → s.power.mode = .dormant → 
      ∃ t, exec (.lifeEqTick aon) s = .next t ∧ became { s with power.sleepTicks := s.power.sleepTicks + 32768, assay.temps := s.assay.temps.set 7 aon, assay.lifeDormant := s.assay.lifeDormant + lifeSecond (aon / 10 * 10) } t) ∧
  -- STEWARD_WDOG_EXPIRY while the firmware runs: counted, logged, a restart due with cause 0 where none is
  (∀ (s : State), alive s = true → firmwareUp s = true → 
      ∃ t, exec (.stewardWdogExpiry) s = .next t ∧ became { s with assay.counts := tally s.assay.counts 48, stw.restartReq := some (s.stw.restartReq.getD (0, s.beat)), kept.assay.faultLog := ({ stamp := s.stamp, source := 45, cls := 1, action := 2 } :: s.kept.assay.faultLog).take 32, next.assay.faultLog := ({ stamp := s.stamp, source := 45, cls := 1, action := 2 } :: s.next.assay.faultLog).take 32 } t) ∧
  -- STEWARD_EXCEPTION while the firmware runs: logged, a restart due with cause 2 where none is
  (∀ (s : State), alive s = true → firmwareUp s = true → 
      ∃ t, exec (.stewardException) s = .next t ∧ became { s with stw.restartReq := some (s.stw.restartReq.getD (2, s.beat)), kept.assay.faultLog := ({ stamp := s.stamp, source := 45, cls := 2, action := 2 } :: s.kept.assay.faultLog).take 32, next.assay.faultLog := ({ stamp := s.stamp, source := 45, cls := 2, action := 2 } :: s.next.assay.faultLog).take 32 } t) ∧
  -- CHIP_WDOG_EXPIRY after 2,000 beats without a heartbeat: a warm reset due, the fault in the latch
  (∀ (s : State), alive s = true → 2000 ≤ s.assay.chipWdog → s.stw.state = .ready → s.power.mode.serves = true → s.assay.warmResets = [] → s.stw.warmReq = none → 
      ∃ t, exec (.chipWdogExpiry) s = .next t ∧ became { s with assay.chipWdog := 0, assay.warmResets := [s.beat], assay.latch := ({ stamp := s.stamp, source := 2, cls := 4, action := 3 } :: s.assay.latch.1, s.assay.latch.2.1 + 1, s.assay.latch.2.2), stw.warmReq := some { due := some s.beat, cause := 4 } } t) ∧
  -- CHIP_WDOG_EXPIRY whatever resets came before: the fault in the latch, counted toward class 5, a warm reset due ahead of one that still waits
  (∀ (s : State), alive s = true → 2000 ≤ s.assay.chipWdog → s.stw.state ≠ .rom → s.power.mode ≠ .doze ∧ s.power.mode ≠ .dormant → 
      ∃ t, exec (.chipWdogExpiry) s = .next t ∧ became (askWarm 4 (countWarm (latchFault 2 4 3 [] 1 0 { s with assay.chipWdog := 0 }))) t) ∧
  -- PARITY_ERROR of a core unit: a warm reset due
  (∀ (s : State), alive s = true → s.assay.warmResets = [] → s.stw.warmReq = none → 
      ∃ t, exec (.parityError 2) s = .next t ∧ became { s with assay.warmResets := [s.beat], assay.latch := ({ stamp := s.stamp, source := 2, cls := 8, action := 3 } :: s.assay.latch.1, s.assay.latch.2.1 + 1, s.assay.latch.2.2), stw.warmReq := some { due := some s.beat, cause := 4 } } t) ∧
  -- PARITY_ERROR of a core unit whatever resets came before
  (∀ (n : Nat) (s : State), alive s = true → (n ≤ 2 ∨ n = 40) → 
      ∃ t, exec (.parityError n) s = .next t ∧ became (askWarm 4 (countWarm (latchFault n 8 3 [] 1 0 s))) t) ∧
  -- PARITY_ERROR of the Steward's unit: logged, a restart due with cause 2 where none is
  (∀ (s : State), alive s = true → 
      ∃ t, exec (.parityError 45) s = .next t ∧ became { s with stw.restartReq := some (s.stw.restartReq.getD (2, s.beat)), kept.assay.faultLog := ({ stamp := s.stamp, source := 45, cls := 8, action := 2 } :: s.kept.assay.faultLog).take 32, next.assay.faultLog := ({ stamp := s.stamp, source := 45, cls := 8, action := 2 } :: s.next.assay.faultLog).take 32 } t) ∧
  -- PARITY_ERROR of the sideband: a unit reset begins, logged and counted
  (∀ (s : State), alive s = true → s.stw.jobs = [] → s.assay.disabled = [] → s.assay.resets = [] → s.assay.faultBeats = [] → 
      ∃ t, exec (.parityError 44) s = .next t ∧ (Map.get? t.assay.resets 44 = some { cls := 8, startBeat := s.beat } ∧ t.assay.counts = tally (tally s.assay.counts 60) 64 ∧ t.assay.disabled = [] ∧ Map.get? t.assay.faultBeats 44 = some [s.beat])) ∧
  -- PARITY_ERROR of a unit that can be reset, the first or the second in 60,000 beats: logged, and its reset begins
  (∀ (n : Nat) (v s : State), alive s = true → (3 ≤ n ∧ n ≤ 6 ∨ 8 ≤ n ∧ n ≤ 39 ∨ 41 ≤ n ∧ n ≤ 44) → s.assay.disabled.contains n = false → Map.has s.assay.resets n = false → ((Map.getD s.assay.faultBeats n []).filter (fun b => b + 60000 > s.beat)).length < 2 → v = logFault n 8 1 [] s → 
      ∃ t, exec (.parityError n) s = .next t ∧ became (startReset n 8 { v with assay.faultBeats := Map.set v.assay.faultBeats n (s.beat :: (Map.getD s.assay.faultBeats n []).filter (fun b => b + 60000 > s.beat)) }) t) ∧
  -- PARITY_ERROR of a unit whose reset is under way: logged
  (∀ (n : Nat) (s : State), alive s = true → (3 ≤ n ∧ n ≤ 6 ∨ 8 ≤ n ∧ n ≤ 39 ∨ 41 ≤ n ∧ n ≤ 44) → s.assay.disabled.contains n = false → Map.has s.assay.resets n = true → ((Map.getD s.assay.faultBeats n []).filter (fun b => b + 60000 > s.beat)).length < 2 → 
      ∃ t, exec (.parityError n) s = .next t ∧ became (logFault n 8 1 [] s) t) ∧
  -- PARITY_ERROR of a unit that is disabled: nothing
  (∀ (n : Nat) (s : State), alive s = true → (3 ≤ n ∧ n ≤ 6 ∨ 8 ≤ n ∧ n ≤ 39 ∨ 41 ≤ n ∧ n ≤ 44) → s.assay.disabled.contains n = true → 
      ∃ t, exec (.parityError n) s = .next t ∧ became s t) ∧
  -- UNIT_RESUME of the sideband
  (∀ (u : UnitReset) (s : State), alive s = true → s.assay.resets = [(44, u)] → s.power.mode ≠ .dormant → s.stw.jobs = [] → u.startBeat < s.beat → s.phase < 20000 → 
      ∃ t, exec (.unitResume 44) s = .next t ∧ became (raise 2 0x0B04 (le 1 44 ++ le 1 u.cls ++ le 4 (s.beat - u.startBeat)) { s with assay.resets := [] }) t) ∧
  -- UNIT_RESUME of any unit in reset: at the first commit window after, its work taken up again, reported, the commands that wait for it answered
  (∀ (n : Nat) (u : UnitReset) (v s : State), alive s = true → Map.get? s.assay.resets n = some u → s.power.mode ≠ .dormant → v = (if u.startBeat < s.beat ∧ s.phase < 20000 then s else advanceTo ((s.beat + 1) * 1000000) s) → 
      ∃ t, exec (.unitResume n) s = .next t ∧ became ((((raise 2 0x0B04 (le 1 n ++ le 1 u.cls ++ le 4 (v.beat - u.startBeat)) (reopenUnit n { v with assay.resets := Map.erase s.assay.resets n })).stw.jobs.filter (waitsForUnit n)).foldl (fun a j => completeJob j.id {} a) (raise 2 0x0B04 (le 1 n ++ le 1 u.cls ++ le 4 (v.beat - u.startBeat)) (reopenUnit n { v with assay.resets := Map.erase s.assay.resets n })))) t) ∧
  -- UNIT_RESUME of a unit that is in no reset: nothing
  (∀ (n : Nat) (s : State), alive s = true → Map.get? s.assay.resets n = none → 
      ∃ t, exec (.unitResume n) s = .next t ∧ became s t) ∧
  -- PERST_N_FALL: the link is gone and a reset of PCIE begins
  (∀ (s : State), alive s = true → s.boot.perstHigh = true → s.boot.stage ≠ 0 → s.power.mode ≠ .dormant → s.assay.disabled = [] → s.assay.resets = [] → s.stw.jobs = [] → 
      ∃ t, exec (.perstNFall) s = .next t ∧ (Map.get? t.assay.resets 42 = some { cls := 0, startBeat := s.beat } ∧ t.assay.counts = tally (tally s.assay.counts 60) 64)) ∧
  -- PERST_N_FALL with whatever else under way, PCIE in no reset: the link is gone and a reset of PCIE begins
  (∀ (s : State), alive s = true → s.boot.perstHigh = true → s.boot.stage ≠ 0 → s.power.mode ≠ .dormant → s.assay.disabled.contains 42 = false → Map.has s.assay.resets 42 = false → 
      ∃ t, exec (.perstNFall) s = .next t ∧ became (startReset 42 0 { s with boot.perstHigh := false, power.pcieUp := false }) t) ∧
  -- PERST_N_FALL in Dormant, before the ROM, low already or PCIE disabled: the link is gone
  (∀ (s : State), alive s = true → (s.boot.perstHigh = false ∨ s.boot.stage = 0 ∨ s.power.mode = .dormant ∨ s.assay.disabled.contains 42 = true) → 
      ∃ t, exec (.perstNFall) s = .next t ∧ became { s with boot.perstHigh := false, power.pcieUp := false } t)
end

