-- ==== Sys2Proof/Decode.lean ====
section
/-! DEFINITION. Commands spelled by words. -/

namespace Sys2Proof

/-- The command that a word spells: spec/opcode_table.json gives no row any bits, so no word spells one. -/
def decodeTableWord (_ _ : Nat) : Option Instr := none

end Sys2Proof
end

