-- ==== Sys2Proof/Laws/Memory.lean ====
section
/-! SUPPORT. The laws of maps, byte memories and banks: a read after a write, and the canonical form that every operation keeps. -/

namespace Sys2Proof.Laws
open Machine

/-! ### Maps -/

section
variable {α : Type}

theorem get?_set_same (m : List (Nat × α)) (k : Nat) (v : α) : Map.get? (Map.set m k v) k = some v := by
  induction m with
  | nil => simp [Map.set, Map.get?]
  | cons e r ih =>
    unfold Map.set
    split
    · simp [Map.get?]
    · split
      · simp [Map.get?]
      · simp [Map.get?, *]

theorem get?_set_other (m : List (Nat × α)) {k j : Nat} (v : α) (h : j ≠ k) : Map.get? (Map.set m k v) j = Map.get? m j := by
  induction m with
  | nil => simp [Map.set, Map.get?, h]
  | cons e r ih =>
    unfold Map.set
    split
    · rw [Map.get?, if_neg h]
    · split
      · next h1 h2 => subst h2; simp [Map.get?, h]
      · simp only [Map.get?, ih]

@[simp] theorem get?_set (m : List (Nat × α)) (k j : Nat) (v : α) :
    Map.get? (Map.set m k v) j = if j = k then some v else Map.get? m j := by
  split
  · next h => subst h; exact get?_set_same m j v
  · next h => exact get?_set_other m v h

@[simp] theorem getD_set (m : List (Nat × α)) (k j : Nat) (v d : α) :
    Map.getD (Map.set m k v) j d = if j = k then v else Map.getD m j d := by
  unfold Map.getD
  rw [get?_set]
  split <;> rfl

@[simp] theorem get?_nil (k : Nat) : Map.get? ([] : List (Nat × α)) k = none := rfl
@[simp] theorem getD_nil (k : Nat) (d : α) : Map.getD ([] : List (Nat × α)) k d = d := rfl

theorem get?_erase (m : List (Nat × α)) (k j : Nat) :
    Map.get? (Map.erase m k) j = if j = k then none else Map.get? m j := by
  unfold Map.erase
  induction m with
  | nil => simp
  | cons e r ih =>
    rw [List.filter_cons]
    split
    · next h => simp only [Map.get?, ih]; grind
    · next h => rw [ih]; simp only [Map.get?]; grind

/-- What `Map.wf` says of a head and a tail. -/
theorem wf_cons (e : Nat × α) (r : List (Nat × α)) :
    Map.wf (e :: r) = true ↔ (∀ x ∈ r.head?, e.1 < x.1) ∧ Map.wf r = true := by
  cases r with
  | nil => simp [Map.wf]
  | cons x r => simp [Map.wf]

theorem head?_set (m : List (Nat × α)) (k : Nat) (v : α) (b : Nat) (hb : b < k) (hm : ∀ x ∈ m.head?, b < x.1) :
    ∀ x ∈ (Map.set m k v).head?, b < x.1 := by
  cases m with
  | nil => simpa [Map.set] using hb
  | cons e r =>
    unfold Map.set
    split
    · simpa using hb
    · split
      · simpa using hb
      · simpa using hm

/-- Storing keeps the canonical form. -/
theorem wf_set (m : List (Nat × α)) (k : Nat) (v : α) (h : Map.wf m = true) : Map.wf (Map.set m k v) = true := by
  induction m with
  | nil => rfl
  | cons e r ih =>
    rw [wf_cons] at h
    unfold Map.set
    split
    · next h1 => rw [wf_cons, wf_cons]; exact ⟨by simpa using h1, h⟩
    · next h1 =>
      split
      · next h2 => subst h2; rw [wf_cons]; exact h
      · next h2 =>
        rw [wf_cons]
        exact ⟨head?_set r k v e.1 (by omega) h.1, ih h.2⟩

/-- All keys lie above a bound. -/
theorem wf_bound (m : List (Nat × α)) (b : Nat) (hb : ∀ x ∈ m.head?, b < x.1) (h : Map.wf m = true) : ∀ x ∈ m, b < x.1 := by
  induction m generalizing b with
  | nil => simp
  | cons e r ih =>
    rw [wf_cons] at h
    intro x hx
    rcases List.mem_cons.1 hx with rfl | hx
    · exact hb x (by simp)
    · have := hb e (by simp)
      exact ih b (fun y hy => Nat.lt_trans this (h.1 y hy)) h.2 x hx

/-- Dropping entries keeps the canonical form. -/
theorem wf_filter (m : List (Nat × α)) (p : Nat × α → Bool) (h : Map.wf m = true) : Map.wf (m.filter p) = true := by
  induction m with
  | nil => rfl
  | cons e r ih =>
    have hr := (wf_cons e r).1 h
    rw [List.filter_cons]
    split
    · rw [wf_cons]
      refine ⟨fun x hx => ?_, ih hr.2⟩
      have hx : x ∈ r.filter p := List.mem_of_mem_head? hx
      exact wf_bound r e.1 hr.1 hr.2 x (List.mem_filter.1 hx).1
    · exact ih hr.2

theorem wf_erase (m : List (Nat × α)) (k : Nat) (h : Map.wf m = true) : Map.wf (Map.erase m k) = true := wf_filter m _ h

end

/-! ### Banks -/

section
variable {α : Type} {n : Nat}

theorem getD_eq (v : Vector α n) (k : Nat) (d : α) : v.getD k d = if h : k < n then v[k] else d := by
  unfold Vector.getD
  rw [Array.getD_eq_getD_getElem?]
  split <;> simp [*]

@[simp] theorem getD_modify (v : Vector α n) (k j : Nat) (f : α → α) (d : α) :
    (Bank.modify v k f).getD j d = if j = k ∧ k < n then f (v.getD k d) else v.getD j d := by
  unfold Bank.modify
  simp only [getD_eq]
  grind

end

/-! ### Byte memories -/

/-- A byte written reads back; every other address reads as before. -/
theorem read_write (n : Nat) (m : Memory) (a x : Nat) (b : Byte) :
    Memory.read n (Memory.write m a b) x = if x = a then b else Memory.read n m x := by
  unfold Memory.read Memory.write
  rw [get?_set]
  split <;> rfl

/-- Bytes written read back; every address outside them reads as before. -/
theorem read_writeList (n : Nat) (m : Memory) (a x : Nat) (l : List Byte) :
    Memory.read n (Memory.writeList m a l) x = if h : a ≤ x ∧ x < a + l.length then l[x - a] else Memory.read n m x := by
  induction l generalizing m a with
  | nil => rw [dif_neg (by simp)]; rfl
  | cons b r ih =>
    rw [Memory.writeList, ih]
    by_cases h : x = a
    · subst h
      rw [dif_neg (by omega), dif_pos (by simp), read_write, if_pos rfl]
      simp
    · rw [read_write, if_neg h]
      by_cases h2 : a + 1 ≤ x ∧ x < a + 1 + r.length
      · rw [dif_pos h2, dif_pos (by simp; omega)]
        have : x - a = (x - (a + 1)) + 1 := by omega
        simp [this]
      · rw [dif_neg h2, dif_neg (by simp; omega)]

/-- Every operation that writes a memory keeps its canonical form. -/
theorem wf_write (m : Memory) (a : Nat) (b : Byte) (h : Memory.wf m = true) : Memory.wf (Memory.write m a b) = true := wf_set m a b h

theorem wf_writeList (m : Memory) (a : Nat) (l : List Byte) (h : Memory.wf m = true) : Memory.wf (Memory.writeList m a l) = true := by
  induction l generalizing m a with
  | nil => exact h
  | cons b r ih => exact ih _ _ (wf_write m a b h)

theorem wf_forget (m : Memory) (a len : Nat) (h : Memory.wf m = true) : Memory.wf (Memory.forget m a len) = true := wf_filter m _ h

/-- After reset every memory has the canonical form. -/
theorem reset_memories_wf :
    Memory.wf State.reset.boot.flash.imageA = true ∧ Memory.wf State.reset.boot.flash.imageB = true ∧
    Memory.wf State.reset.boot.flash.seed = true ∧ Memory.wf State.reset.boot.ram = true ∧
    (∀ n, Memory.wf (State.reset.lane n).bulk = true) := by
  refine ⟨rfl, rfl, rfl, rfl, fun n => ?_⟩
  unfold State.lane
  rw [getD_eq]
  split
  · simp [State.reset, Memory.wf, Map.wf]
  · rfl

end Sys2Proof.Laws
end

