-- ==== Sys2Proof/Laws/State.lean ====
section
/-! SUPPORT. One lemma per component of State and per update of one: what an update leaves alone, so that no later proof unfolds a record
update. -/

namespace Sys2Proof.Laws
open Machine

variable (s : State)

/-! `ticks` -/

@[simp] theorem ticks_stw (k : Nat) : (ticks k s).stw = s.stw := by unfold ticks; rfl
@[simp] theorem ticks_power (k : Nat) : (ticks k s).power = s.power := by unfold ticks; rfl
@[simp] theorem ticks_boot (k : Nat) : (ticks k s).boot = s.boot := by unfold ticks; rfl
@[simp] theorem ticks_assay (k : Nat) : (ticks k s).assay = s.assay := by unfold ticks; rfl
@[simp] theorem ticks_plan (k : Nat) : (ticks k s).plan = s.plan := by unfold ticks; rfl
@[simp] theorem ticks_mem (k : Nat) : (ticks k s).mem = s.mem := by unfold ticks; rfl
@[simp] theorem ticks_wired (k : Nat) : (ticks k s).wired = s.wired := by unfold ticks; rfl
@[simp] theorem ticks_front (k : Nat) : (ticks k s).front = s.front := by unfold ticks; rfl
@[simp] theorem ticks_field (k : Nat) : (ticks k s).field = s.field := by unfold ticks; rfl
@[simp] theorem ticks_wide (k : Nat) : (ticks k s).wide = s.wide := by unfold ticks; rfl
@[simp] theorem ticks_pole (k : Nat) : (ticks k s).pole = s.pole := by unfold ticks; rfl
@[simp] theorem ticks_kept (k : Nat) : (ticks k s).kept = s.kept := by unfold ticks; rfl
@[simp] theorem ticks_next (k : Nat) : (ticks k s).next = s.next := by unfold ticks; rfl
@[simp] theorem ticks_outbox (k : Nat) : (ticks k s).outbox = s.outbox := by unfold ticks; rfl
@[simp] theorem ticks_draws (k : Nat) : (ticks k s).draws = s.draws := by unfold ticks; rfl
@[simp] theorem ticks_pending (k : Nat) : (ticks k s).pending = s.pending := by unfold ticks; rfl

/-! `advanceTo` -/

@[simp] theorem advanceTo_stw (ns : Nat) : (advanceTo ns s).stw = s.stw := by unfold advanceTo; split <;> simp
@[simp] theorem advanceTo_power (ns : Nat) : (advanceTo ns s).power = s.power := by unfold advanceTo; split <;> simp
@[simp] theorem advanceTo_boot (ns : Nat) : (advanceTo ns s).boot = s.boot := by unfold advanceTo; split <;> simp
@[simp] theorem advanceTo_assay (ns : Nat) : (advanceTo ns s).assay = s.assay := by unfold advanceTo; split <;> simp
@[simp] theorem advanceTo_plan (ns : Nat) : (advanceTo ns s).plan = s.plan := by unfold advanceTo; split <;> simp
@[simp] theorem advanceTo_mem (ns : Nat) : (advanceTo ns s).mem = s.mem := by unfold advanceTo; split <;> simp
@[simp] theorem advanceTo_wired (ns : Nat) : (advanceTo ns s).wired = s.wired := by unfold advanceTo; split <;> simp
@[simp] theorem advanceTo_front (ns : Nat) : (advanceTo ns s).front = s.front := by unfold advanceTo; split <;> simp
@[simp] theorem advanceTo_field (ns : Nat) : (advanceTo ns s).field = s.field := by unfold advanceTo; split <;> simp
@[simp] theorem advanceTo_wide (ns : Nat) : (advanceTo ns s).wide = s.wide := by unfold advanceTo; split <;> simp
@[simp] theorem advanceTo_pole (ns : Nat) : (advanceTo ns s).pole = s.pole := by unfold advanceTo; split <;> simp
@[simp] theorem advanceTo_kept (ns : Nat) : (advanceTo ns s).kept = s.kept := by unfold advanceTo; split <;> simp
@[simp] theorem advanceTo_next (ns : Nat) : (advanceTo ns s).next = s.next := by unfold advanceTo; split <;> simp
@[simp] theorem advanceTo_outbox (ns : Nat) : (advanceTo ns s).outbox = s.outbox := by unfold advanceTo; split <;> simp
@[simp] theorem advanceTo_draws (ns : Nat) : (advanceTo ns s).draws = s.draws := by unfold advanceTo; split <;> simp
@[simp] theorem advanceTo_pending (ns : Nat) : (advanceTo ns s).pending = s.pending := by unfold advanceTo; split <;> simp

/-! `advanceMono` -/

@[simp] theorem advanceMono_stw (ns : Nat) : (advanceMono ns s).stw = s.stw := by unfold advanceMono; simp
@[simp] theorem advanceMono_power (ns : Nat) : (advanceMono ns s).power = s.power := by unfold advanceMono; simp
@[simp] theorem advanceMono_boot (ns : Nat) : (advanceMono ns s).boot = s.boot := by unfold advanceMono; simp
@[simp] theorem advanceMono_assay (ns : Nat) : (advanceMono ns s).assay = s.assay := by unfold advanceMono; simp
@[simp] theorem advanceMono_plan (ns : Nat) : (advanceMono ns s).plan = s.plan := by unfold advanceMono; simp
@[simp] theorem advanceMono_mem (ns : Nat) : (advanceMono ns s).mem = s.mem := by unfold advanceMono; simp
@[simp] theorem advanceMono_wired (ns : Nat) : (advanceMono ns s).wired = s.wired := by unfold advanceMono; simp
@[simp] theorem advanceMono_front (ns : Nat) : (advanceMono ns s).front = s.front := by unfold advanceMono; simp
@[simp] theorem advanceMono_field (ns : Nat) : (advanceMono ns s).field = s.field := by unfold advanceMono; simp
@[simp] theorem advanceMono_wide (ns : Nat) : (advanceMono ns s).wide = s.wide := by unfold advanceMono; simp
@[simp] theorem advanceMono_pole (ns : Nat) : (advanceMono ns s).pole = s.pole := by unfold advanceMono; simp
@[simp] theorem advanceMono_kept (ns : Nat) : (advanceMono ns s).kept = s.kept := by unfold advanceMono; simp
@[simp] theorem advanceMono_next (ns : Nat) : (advanceMono ns s).next = s.next := by unfold advanceMono; simp
@[simp] theorem advanceMono_outbox (ns : Nat) : (advanceMono ns s).outbox = s.outbox := by unfold advanceMono; simp
@[simp] theorem advanceMono_draws (ns : Nat) : (advanceMono ns s).draws = s.draws := by unfold advanceMono; simp
@[simp] theorem advanceMono_pending (ns : Nat) : (advanceMono ns s).pending = s.pending := by unfold advanceMono; simp

/-! `advancePhase` -/

@[simp] theorem advancePhase_stw (p : Nat) : (advancePhase p s).stw = s.stw := by unfold advancePhase; simp
@[simp] theorem advancePhase_power (p : Nat) : (advancePhase p s).power = s.power := by unfold advancePhase; simp
@[simp] theorem advancePhase_boot (p : Nat) : (advancePhase p s).boot = s.boot := by unfold advancePhase; simp
@[simp] theorem advancePhase_assay (p : Nat) : (advancePhase p s).assay = s.assay := by unfold advancePhase; simp
@[simp] theorem advancePhase_plan (p : Nat) : (advancePhase p s).plan = s.plan := by unfold advancePhase; simp
@[simp] theorem advancePhase_mem (p : Nat) : (advancePhase p s).mem = s.mem := by unfold advancePhase; simp
@[simp] theorem advancePhase_wired (p : Nat) : (advancePhase p s).wired = s.wired := by unfold advancePhase; simp
@[simp] theorem advancePhase_front (p : Nat) : (advancePhase p s).front = s.front := by unfold advancePhase; simp
@[simp] theorem advancePhase_field (p : Nat) : (advancePhase p s).field = s.field := by unfold advancePhase; simp
@[simp] theorem advancePhase_wide (p : Nat) : (advancePhase p s).wide = s.wide := by unfold advancePhase; simp
@[simp] theorem advancePhase_pole (p : Nat) : (advancePhase p s).pole = s.pole := by unfold advancePhase; simp
@[simp] theorem advancePhase_kept (p : Nat) : (advancePhase p s).kept = s.kept := by unfold advancePhase; simp
@[simp] theorem advancePhase_next (p : Nat) : (advancePhase p s).next = s.next := by unfold advancePhase; simp
@[simp] theorem advancePhase_outbox (p : Nat) : (advancePhase p s).outbox = s.outbox := by unfold advancePhase; simp
@[simp] theorem advancePhase_draws (p : Nat) : (advancePhase p s).draws = s.draws := by unfold advancePhase; simp
@[simp] theorem advancePhase_pending (p : Nat) : (advancePhase p s).pending = s.pending := by unfold advancePhase; simp

/-! `tickTime` -/

@[simp] theorem tickTime_stw : (tickTime s).stw = s.stw := by unfold tickTime; simp
@[simp] theorem tickTime_power : (tickTime s).power = s.power := by unfold tickTime; simp
@[simp] theorem tickTime_boot : (tickTime s).boot = s.boot := by unfold tickTime; simp
@[simp] theorem tickTime_assay : (tickTime s).assay = s.assay := by unfold tickTime; simp
@[simp] theorem tickTime_plan : (tickTime s).plan = s.plan := by unfold tickTime; simp
@[simp] theorem tickTime_mem : (tickTime s).mem = s.mem := by unfold tickTime; simp
@[simp] theorem tickTime_wired : (tickTime s).wired = s.wired := by unfold tickTime; simp
@[simp] theorem tickTime_front : (tickTime s).front = s.front := by unfold tickTime; simp
@[simp] theorem tickTime_field : (tickTime s).field = s.field := by unfold tickTime; simp
@[simp] theorem tickTime_wide : (tickTime s).wide = s.wide := by unfold tickTime; simp
@[simp] theorem tickTime_pole : (tickTime s).pole = s.pole := by unfold tickTime; simp
@[simp] theorem tickTime_kept : (tickTime s).kept = s.kept := by unfold tickTime; simp
@[simp] theorem tickTime_next : (tickTime s).next = s.next := by unfold tickTime; simp
@[simp] theorem tickTime_outbox : (tickTime s).outbox = s.outbox := by unfold tickTime; simp
@[simp] theorem tickTime_draws : (tickTime s).draws = s.draws := by unfold tickTime; simp
@[simp] theorem tickTime_pending : (tickTime s).pending = s.pending := by unfold tickTime; simp

/-! `setKept` -/

@[simp] theorem setKept_time (f : Kept → Kept) : (setKept f s).time = s.time := by unfold setKept; rfl
@[simp] theorem setKept_stw (f : Kept → Kept) : (setKept f s).stw = s.stw := by unfold setKept; rfl
@[simp] theorem setKept_power (f : Kept → Kept) : (setKept f s).power = s.power := by unfold setKept; rfl
@[simp] theorem setKept_boot (f : Kept → Kept) : (setKept f s).boot = s.boot := by unfold setKept; rfl
@[simp] theorem setKept_assay (f : Kept → Kept) : (setKept f s).assay = s.assay := by unfold setKept; rfl
@[simp] theorem setKept_plan (f : Kept → Kept) : (setKept f s).plan = s.plan := by unfold setKept; rfl
@[simp] theorem setKept_mem (f : Kept → Kept) : (setKept f s).mem = s.mem := by unfold setKept; rfl
@[simp] theorem setKept_wired (f : Kept → Kept) : (setKept f s).wired = s.wired := by unfold setKept; rfl
@[simp] theorem setKept_front (f : Kept → Kept) : (setKept f s).front = s.front := by unfold setKept; rfl
@[simp] theorem setKept_field (f : Kept → Kept) : (setKept f s).field = s.field := by unfold setKept; rfl
@[simp] theorem setKept_wide (f : Kept → Kept) : (setKept f s).wide = s.wide := by unfold setKept; rfl
@[simp] theorem setKept_pole (f : Kept → Kept) : (setKept f s).pole = s.pole := by unfold setKept; rfl
@[simp] theorem setKept_outbox (f : Kept → Kept) : (setKept f s).outbox = s.outbox := by unfold setKept; rfl
@[simp] theorem setKept_draws (f : Kept → Kept) : (setKept f s).draws = s.draws := by unfold setKept; rfl
@[simp] theorem setKept_pending (f : Kept → Kept) : (setKept f s).pending = s.pending := by unfold setKept; rfl

/-! `stageKept` -/

@[simp] theorem stageKept_time (f : Kept → Kept) : (stageKept f s).time = s.time := by unfold stageKept; rfl
@[simp] theorem stageKept_stw (f : Kept → Kept) : (stageKept f s).stw = s.stw := by unfold stageKept; rfl
@[simp] theorem stageKept_power (f : Kept → Kept) : (stageKept f s).power = s.power := by unfold stageKept; rfl
@[simp] theorem stageKept_boot (f : Kept → Kept) : (stageKept f s).boot = s.boot := by unfold stageKept; rfl
@[simp] theorem stageKept_assay (f : Kept → Kept) : (stageKept f s).assay = s.assay := by unfold stageKept; rfl
@[simp] theorem stageKept_plan (f : Kept → Kept) : (stageKept f s).plan = s.plan := by unfold stageKept; rfl
@[simp] theorem stageKept_mem (f : Kept → Kept) : (stageKept f s).mem = s.mem := by unfold stageKept; rfl
@[simp] theorem stageKept_wired (f : Kept → Kept) : (stageKept f s).wired = s.wired := by unfold stageKept; rfl
@[simp] theorem stageKept_front (f : Kept → Kept) : (stageKept f s).front = s.front := by unfold stageKept; rfl
@[simp] theorem stageKept_field (f : Kept → Kept) : (stageKept f s).field = s.field := by unfold stageKept; rfl
@[simp] theorem stageKept_wide (f : Kept → Kept) : (stageKept f s).wide = s.wide := by unfold stageKept; rfl
@[simp] theorem stageKept_pole (f : Kept → Kept) : (stageKept f s).pole = s.pole := by unfold stageKept; rfl
@[simp] theorem stageKept_kept (f : Kept → Kept) : (stageKept f s).kept = s.kept := by unfold stageKept; rfl
@[simp] theorem stageKept_outbox (f : Kept → Kept) : (stageKept f s).outbox = s.outbox := by unfold stageKept; rfl
@[simp] theorem stageKept_draws (f : Kept → Kept) : (stageKept f s).draws = s.draws := by unfold stageKept; rfl
@[simp] theorem stageKept_pending (f : Kept → Kept) : (stageKept f s).pending = s.pending := by unfold stageKept; rfl

/-! `raiseAt` -/

@[simp] theorem raiseAt_time (u : Sys2Proof.Stamp) (src code : Nat) (d : List Byte) : (raiseAt u src code d s).time = s.time := by unfold raiseAt; rfl
@[simp] theorem raiseAt_power (u : Sys2Proof.Stamp) (src code : Nat) (d : List Byte) : (raiseAt u src code d s).power = s.power := by unfold raiseAt; rfl
@[simp] theorem raiseAt_boot (u : Sys2Proof.Stamp) (src code : Nat) (d : List Byte) : (raiseAt u src code d s).boot = s.boot := by unfold raiseAt; rfl
@[simp] theorem raiseAt_assay (u : Sys2Proof.Stamp) (src code : Nat) (d : List Byte) : (raiseAt u src code d s).assay = s.assay := by unfold raiseAt; rfl
@[simp] theorem raiseAt_plan (u : Sys2Proof.Stamp) (src code : Nat) (d : List Byte) : (raiseAt u src code d s).plan = s.plan := by unfold raiseAt; rfl
@[simp] theorem raiseAt_mem (u : Sys2Proof.Stamp) (src code : Nat) (d : List Byte) : (raiseAt u src code d s).mem = s.mem := by unfold raiseAt; rfl
@[simp] theorem raiseAt_wired (u : Sys2Proof.Stamp) (src code : Nat) (d : List Byte) : (raiseAt u src code d s).wired = s.wired := by unfold raiseAt; rfl
@[simp] theorem raiseAt_front (u : Sys2Proof.Stamp) (src code : Nat) (d : List Byte) : (raiseAt u src code d s).front = s.front := by unfold raiseAt; rfl
@[simp] theorem raiseAt_field (u : Sys2Proof.Stamp) (src code : Nat) (d : List Byte) : (raiseAt u src code d s).field = s.field := by unfold raiseAt; rfl
@[simp] theorem raiseAt_wide (u : Sys2Proof.Stamp) (src code : Nat) (d : List Byte) : (raiseAt u src code d s).wide = s.wide := by unfold raiseAt; rfl
@[simp] theorem raiseAt_pole (u : Sys2Proof.Stamp) (src code : Nat) (d : List Byte) : (raiseAt u src code d s).pole = s.pole := by unfold raiseAt; rfl
@[simp] theorem raiseAt_kept (u : Sys2Proof.Stamp) (src code : Nat) (d : List Byte) : (raiseAt u src code d s).kept = s.kept := by unfold raiseAt; rfl
@[simp] theorem raiseAt_next (u : Sys2Proof.Stamp) (src code : Nat) (d : List Byte) : (raiseAt u src code d s).next = s.next := by unfold raiseAt; rfl
@[simp] theorem raiseAt_outbox (u : Sys2Proof.Stamp) (src code : Nat) (d : List Byte) : (raiseAt u src code d s).outbox = s.outbox := by unfold raiseAt; rfl
@[simp] theorem raiseAt_draws (u : Sys2Proof.Stamp) (src code : Nat) (d : List Byte) : (raiseAt u src code d s).draws = s.draws := by unfold raiseAt; rfl
@[simp] theorem raiseAt_pending (u : Sys2Proof.Stamp) (src code : Nat) (d : List Byte) : (raiseAt u src code d s).pending = s.pending := by unfold raiseAt; rfl

/-! `raise` -/

@[simp] theorem raise_time (src code : Nat) (d : List Byte) : (raise src code d s).time = s.time := by unfold raise; simp
@[simp] theorem raise_power (src code : Nat) (d : List Byte) : (raise src code d s).power = s.power := by unfold raise; simp
@[simp] theorem raise_boot (src code : Nat) (d : List Byte) : (raise src code d s).boot = s.boot := by unfold raise; simp
@[simp] theorem raise_assay (src code : Nat) (d : List Byte) : (raise src code d s).assay = s.assay := by unfold raise; simp
@[simp] theorem raise_plan (src code : Nat) (d : List Byte) : (raise src code d s).plan = s.plan := by unfold raise; simp
@[simp] theorem raise_mem (src code : Nat) (d : List Byte) : (raise src code d s).mem = s.mem := by unfold raise; simp
@[simp] theorem raise_wired (src code : Nat) (d : List Byte) : (raise src code d s).wired = s.wired := by unfold raise; simp
@[simp] theorem raise_front (src code : Nat) (d : List Byte) : (raise src code d s).front = s.front := by unfold raise; simp
@[simp] theorem raise_field (src code : Nat) (d : List Byte) : (raise src code d s).field = s.field := by unfold raise; simp
@[simp] theorem raise_wide (src code : Nat) (d : List Byte) : (raise src code d s).wide = s.wide := by unfold raise; simp
@[simp] theorem raise_pole (src code : Nat) (d : List Byte) : (raise src code d s).pole = s.pole := by unfold raise; simp
@[simp] theorem raise_kept (src code : Nat) (d : List Byte) : (raise src code d s).kept = s.kept := by unfold raise; simp
@[simp] theorem raise_next (src code : Nat) (d : List Byte) : (raise src code d s).next = s.next := by unfold raise; simp
@[simp] theorem raise_outbox (src code : Nat) (d : List Byte) : (raise src code d s).outbox = s.outbox := by unfold raise; simp
@[simp] theorem raise_draws (src code : Nat) (d : List Byte) : (raise src code d s).draws = s.draws := by unfold raise; simp
@[simp] theorem raise_pending (src code : Nat) (d : List Byte) : (raise src code d s).pending = s.pending := by unfold raise; simp

/-! `emit` -/

@[simp] theorem emit_time (o : Output) : (emit o s).time = s.time := by unfold emit; rfl
@[simp] theorem emit_stw (o : Output) : (emit o s).stw = s.stw := by unfold emit; rfl
@[simp] theorem emit_power (o : Output) : (emit o s).power = s.power := by unfold emit; rfl
@[simp] theorem emit_boot (o : Output) : (emit o s).boot = s.boot := by unfold emit; rfl
@[simp] theorem emit_assay (o : Output) : (emit o s).assay = s.assay := by unfold emit; rfl
@[simp] theorem emit_plan (o : Output) : (emit o s).plan = s.plan := by unfold emit; rfl
@[simp] theorem emit_mem (o : Output) : (emit o s).mem = s.mem := by unfold emit; rfl
@[simp] theorem emit_wired (o : Output) : (emit o s).wired = s.wired := by unfold emit; rfl
@[simp] theorem emit_front (o : Output) : (emit o s).front = s.front := by unfold emit; rfl
@[simp] theorem emit_field (o : Output) : (emit o s).field = s.field := by unfold emit; rfl
@[simp] theorem emit_wide (o : Output) : (emit o s).wide = s.wide := by unfold emit; rfl
@[simp] theorem emit_pole (o : Output) : (emit o s).pole = s.pole := by unfold emit; rfl
@[simp] theorem emit_kept (o : Output) : (emit o s).kept = s.kept := by unfold emit; rfl
@[simp] theorem emit_next (o : Output) : (emit o s).next = s.next := by unfold emit; rfl
@[simp] theorem emit_draws (o : Output) : (emit o s).draws = s.draws := by unfold emit; rfl
@[simp] theorem emit_pending (o : Output) : (emit o s).pending = s.pending := by unfold emit; rfl

/-! `setInt` -/

@[simp] theorem setInt_time (i : Nat) : (setInt i s).time = s.time := by unfold setInt; rfl
@[simp] theorem setInt_power (i : Nat) : (setInt i s).power = s.power := by unfold setInt; rfl
@[simp] theorem setInt_boot (i : Nat) : (setInt i s).boot = s.boot := by unfold setInt; rfl
@[simp] theorem setInt_assay (i : Nat) : (setInt i s).assay = s.assay := by unfold setInt; rfl
@[simp] theorem setInt_plan (i : Nat) : (setInt i s).plan = s.plan := by unfold setInt; rfl
@[simp] theorem setInt_mem (i : Nat) : (setInt i s).mem = s.mem := by unfold setInt; rfl
@[simp] theorem setInt_wired (i : Nat) : (setInt i s).wired = s.wired := by unfold setInt; rfl
@[simp] theorem setInt_front (i : Nat) : (setInt i s).front = s.front := by unfold setInt; rfl
@[simp] theorem setInt_field (i : Nat) : (setInt i s).field = s.field := by unfold setInt; rfl
@[simp] theorem setInt_wide (i : Nat) : (setInt i s).wide = s.wide := by unfold setInt; rfl
@[simp] theorem setInt_pole (i : Nat) : (setInt i s).pole = s.pole := by unfold setInt; rfl
@[simp] theorem setInt_kept (i : Nat) : (setInt i s).kept = s.kept := by unfold setInt; rfl
@[simp] theorem setInt_next (i : Nat) : (setInt i s).next = s.next := by unfold setInt; rfl
@[simp] theorem setInt_outbox (i : Nat) : (setInt i s).outbox = s.outbox := by unfold setInt; rfl
@[simp] theorem setInt_draws (i : Nat) : (setInt i s).draws = s.draws := by unfold setInt; rfl
@[simp] theorem setInt_pending (i : Nat) : (setInt i s).pending = s.pending := by unfold setInt; rfl

/-! `updLane` -/

@[simp] theorem updLane_time (n : Nat) (f : Lane → Lane) : (updLane n f s).time = s.time := by unfold updLane; rfl
@[simp] theorem updLane_power (n : Nat) (f : Lane → Lane) : (updLane n f s).power = s.power := by unfold updLane; rfl
@[simp] theorem updLane_boot (n : Nat) (f : Lane → Lane) : (updLane n f s).boot = s.boot := by unfold updLane; rfl
@[simp] theorem updLane_assay (n : Nat) (f : Lane → Lane) : (updLane n f s).assay = s.assay := by unfold updLane; rfl
@[simp] theorem updLane_plan (n : Nat) (f : Lane → Lane) : (updLane n f s).plan = s.plan := by unfold updLane; rfl
@[simp] theorem updLane_mem (n : Nat) (f : Lane → Lane) : (updLane n f s).mem = s.mem := by unfold updLane; rfl
@[simp] theorem updLane_wired (n : Nat) (f : Lane → Lane) : (updLane n f s).wired = s.wired := by unfold updLane; rfl
@[simp] theorem updLane_front (n : Nat) (f : Lane → Lane) : (updLane n f s).front = s.front := by unfold updLane; rfl
@[simp] theorem updLane_field (n : Nat) (f : Lane → Lane) : (updLane n f s).field = s.field := by unfold updLane; rfl
@[simp] theorem updLane_wide (n : Nat) (f : Lane → Lane) : (updLane n f s).wide = s.wide := by unfold updLane; rfl
@[simp] theorem updLane_pole (n : Nat) (f : Lane → Lane) : (updLane n f s).pole = s.pole := by unfold updLane; rfl
@[simp] theorem updLane_kept (n : Nat) (f : Lane → Lane) : (updLane n f s).kept = s.kept := by unfold updLane; rfl
@[simp] theorem updLane_next (n : Nat) (f : Lane → Lane) : (updLane n f s).next = s.next := by unfold updLane; rfl
@[simp] theorem updLane_outbox (n : Nat) (f : Lane → Lane) : (updLane n f s).outbox = s.outbox := by unfold updLane; rfl
@[simp] theorem updLane_draws (n : Nat) (f : Lane → Lane) : (updLane n f s).draws = s.draws := by unfold updLane; rfl
@[simp] theorem updLane_pending (n : Nat) (f : Lane → Lane) : (updLane n f s).pending = s.pending := by unfold updLane; rfl

/-! `updSlot` -/

@[simp] theorem updSlot_time (n k : Nat) (f : Slot → Slot) : (updSlot n k f s).time = s.time := by unfold updSlot; simp
@[simp] theorem updSlot_power (n k : Nat) (f : Slot → Slot) : (updSlot n k f s).power = s.power := by unfold updSlot; simp
@[simp] theorem updSlot_boot (n k : Nat) (f : Slot → Slot) : (updSlot n k f s).boot = s.boot := by unfold updSlot; simp
@[simp] theorem updSlot_assay (n k : Nat) (f : Slot → Slot) : (updSlot n k f s).assay = s.assay := by unfold updSlot; simp
@[simp] theorem updSlot_plan (n k : Nat) (f : Slot → Slot) : (updSlot n k f s).plan = s.plan := by unfold updSlot; simp
@[simp] theorem updSlot_mem (n k : Nat) (f : Slot → Slot) : (updSlot n k f s).mem = s.mem := by unfold updSlot; simp
@[simp] theorem updSlot_wired (n k : Nat) (f : Slot → Slot) : (updSlot n k f s).wired = s.wired := by unfold updSlot; simp
@[simp] theorem updSlot_front (n k : Nat) (f : Slot → Slot) : (updSlot n k f s).front = s.front := by unfold updSlot; simp
@[simp] theorem updSlot_field (n k : Nat) (f : Slot → Slot) : (updSlot n k f s).field = s.field := by unfold updSlot; simp
@[simp] theorem updSlot_wide (n k : Nat) (f : Slot → Slot) : (updSlot n k f s).wide = s.wide := by unfold updSlot; simp
@[simp] theorem updSlot_pole (n k : Nat) (f : Slot → Slot) : (updSlot n k f s).pole = s.pole := by unfold updSlot; simp
@[simp] theorem updSlot_kept (n k : Nat) (f : Slot → Slot) : (updSlot n k f s).kept = s.kept := by unfold updSlot; simp
@[simp] theorem updSlot_next (n k : Nat) (f : Slot → Slot) : (updSlot n k f s).next = s.next := by unfold updSlot; simp
@[simp] theorem updSlot_outbox (n k : Nat) (f : Slot → Slot) : (updSlot n k f s).outbox = s.outbox := by unfold updSlot; simp
@[simp] theorem updSlot_draws (n k : Nat) (f : Slot → Slot) : (updSlot n k f s).draws = s.draws := by unfold updSlot; simp
@[simp] theorem updSlot_pending (n k : Nat) (f : Slot → Slot) : (updSlot n k f s).pending = s.pending := by unfold updSlot; simp

/-! `settle` -/

@[simp] theorem settle_time : (settle s).time = s.time := by unfold settle; rfl
@[simp] theorem settle_power : (settle s).power = s.power := by unfold settle; rfl
@[simp] theorem settle_boot : (settle s).boot = s.boot := by unfold settle; rfl
@[simp] theorem settle_assay : (settle s).assay = s.assay := by unfold settle; rfl
@[simp] theorem settle_plan : (settle s).plan = s.plan := by unfold settle; rfl
@[simp] theorem settle_mem : (settle s).mem = s.mem := by unfold settle; rfl
@[simp] theorem settle_wired : (settle s).wired = s.wired := by unfold settle; rfl
@[simp] theorem settle_front : (settle s).front = s.front := by unfold settle; rfl
@[simp] theorem settle_field : (settle s).field = s.field := by unfold settle; rfl
@[simp] theorem settle_wide : (settle s).wide = s.wide := by unfold settle; rfl
@[simp] theorem settle_pole : (settle s).pole = s.pole := by unfold settle; rfl
@[simp] theorem settle_kept : (settle s).kept = s.kept := by unfold settle; rfl
@[simp] theorem settle_next : (settle s).next = s.next := by unfold settle; rfl
@[simp] theorem settle_draws : (settle s).draws = s.draws := by unfold settle; rfl
@[simp] theorem settle_pending : (settle s).pending = s.pending := by unfold settle; rfl

/-! `dropJob` -/

@[simp] theorem dropJob_time (i : Nat) : (dropJob i s).time = s.time := by unfold dropJob; rfl
@[simp] theorem dropJob_power (i : Nat) : (dropJob i s).power = s.power := by unfold dropJob; rfl
@[simp] theorem dropJob_boot (i : Nat) : (dropJob i s).boot = s.boot := by unfold dropJob; rfl
@[simp] theorem dropJob_assay (i : Nat) : (dropJob i s).assay = s.assay := by unfold dropJob; rfl
@[simp] theorem dropJob_plan (i : Nat) : (dropJob i s).plan = s.plan := by unfold dropJob; rfl
@[simp] theorem dropJob_mem (i : Nat) : (dropJob i s).mem = s.mem := by unfold dropJob; rfl
@[simp] theorem dropJob_wired (i : Nat) : (dropJob i s).wired = s.wired := by unfold dropJob; rfl
@[simp] theorem dropJob_front (i : Nat) : (dropJob i s).front = s.front := by unfold dropJob; rfl
@[simp] theorem dropJob_field (i : Nat) : (dropJob i s).field = s.field := by unfold dropJob; rfl
@[simp] theorem dropJob_wide (i : Nat) : (dropJob i s).wide = s.wide := by unfold dropJob; rfl
@[simp] theorem dropJob_pole (i : Nat) : (dropJob i s).pole = s.pole := by unfold dropJob; rfl
@[simp] theorem dropJob_kept (i : Nat) : (dropJob i s).kept = s.kept := by unfold dropJob; rfl
@[simp] theorem dropJob_next (i : Nat) : (dropJob i s).next = s.next := by unfold dropJob; rfl
@[simp] theorem dropJob_outbox (i : Nat) : (dropJob i s).outbox = s.outbox := by unfold dropJob; rfl
@[simp] theorem dropJob_draws (i : Nat) : (dropJob i s).draws = s.draws := by unfold dropJob; rfl
@[simp] theorem dropJob_pending (i : Nat) : (dropJob i s).pending = s.pending := by unfold dropJob; rfl

/-! `commitJob` -/

@[simp] theorem commitJob_time (i : Nat) : (commitJob i s).time = s.time := by unfold commitJob; rfl
@[simp] theorem commitJob_power (i : Nat) : (commitJob i s).power = s.power := by unfold commitJob; rfl
@[simp] theorem commitJob_boot (i : Nat) : (commitJob i s).boot = s.boot := by unfold commitJob; rfl
@[simp] theorem commitJob_assay (i : Nat) : (commitJob i s).assay = s.assay := by unfold commitJob; rfl
@[simp] theorem commitJob_plan (i : Nat) : (commitJob i s).plan = s.plan := by unfold commitJob; rfl
@[simp] theorem commitJob_mem (i : Nat) : (commitJob i s).mem = s.mem := by unfold commitJob; rfl
@[simp] theorem commitJob_wired (i : Nat) : (commitJob i s).wired = s.wired := by unfold commitJob; rfl
@[simp] theorem commitJob_front (i : Nat) : (commitJob i s).front = s.front := by unfold commitJob; rfl
@[simp] theorem commitJob_field (i : Nat) : (commitJob i s).field = s.field := by unfold commitJob; rfl
@[simp] theorem commitJob_wide (i : Nat) : (commitJob i s).wide = s.wide := by unfold commitJob; rfl
@[simp] theorem commitJob_pole (i : Nat) : (commitJob i s).pole = s.pole := by unfold commitJob; rfl
@[simp] theorem commitJob_kept (i : Nat) : (commitJob i s).kept = s.kept := by unfold commitJob; rfl
@[simp] theorem commitJob_next (i : Nat) : (commitJob i s).next = s.next := by unfold commitJob; rfl
@[simp] theorem commitJob_outbox (i : Nat) : (commitJob i s).outbox = s.outbox := by unfold commitJob; rfl
@[simp] theorem commitJob_draws (i : Nat) : (commitJob i s).draws = s.draws := by unfold commitJob; rfl
@[simp] theorem commitJob_pending (i : Nat) : (commitJob i s).pending = s.pending := by unfold commitJob; rfl

/-! `updQueue` -/

@[simp] theorem updQueue_time (q : Nat) (f : PQueue → PQueue) : (updQueue q f s).time = s.time := by unfold updQueue; rfl
@[simp] theorem updQueue_stw (q : Nat) (f : PQueue → PQueue) : (updQueue q f s).stw = s.stw := by unfold updQueue; rfl
@[simp] theorem updQueue_power (q : Nat) (f : PQueue → PQueue) : (updQueue q f s).power = s.power := by unfold updQueue; rfl
@[simp] theorem updQueue_boot (q : Nat) (f : PQueue → PQueue) : (updQueue q f s).boot = s.boot := by unfold updQueue; rfl
@[simp] theorem updQueue_assay (q : Nat) (f : PQueue → PQueue) : (updQueue q f s).assay = s.assay := by unfold updQueue; rfl
@[simp] theorem updQueue_mem (q : Nat) (f : PQueue → PQueue) : (updQueue q f s).mem = s.mem := by unfold updQueue; rfl
@[simp] theorem updQueue_wired (q : Nat) (f : PQueue → PQueue) : (updQueue q f s).wired = s.wired := by unfold updQueue; rfl
@[simp] theorem updQueue_front (q : Nat) (f : PQueue → PQueue) : (updQueue q f s).front = s.front := by unfold updQueue; rfl
@[simp] theorem updQueue_field (q : Nat) (f : PQueue → PQueue) : (updQueue q f s).field = s.field := by unfold updQueue; rfl
@[simp] theorem updQueue_wide (q : Nat) (f : PQueue → PQueue) : (updQueue q f s).wide = s.wide := by unfold updQueue; rfl
@[simp] theorem updQueue_pole (q : Nat) (f : PQueue → PQueue) : (updQueue q f s).pole = s.pole := by unfold updQueue; rfl
@[simp] theorem updQueue_kept (q : Nat) (f : PQueue → PQueue) : (updQueue q f s).kept = s.kept := by unfold updQueue; rfl
@[simp] theorem updQueue_next (q : Nat) (f : PQueue → PQueue) : (updQueue q f s).next = s.next := by unfold updQueue; rfl
@[simp] theorem updQueue_outbox (q : Nat) (f : PQueue → PQueue) : (updQueue q f s).outbox = s.outbox := by unfold updQueue; rfl
@[simp] theorem updQueue_draws (q : Nat) (f : PQueue → PQueue) : (updQueue q f s).draws = s.draws := by unfold updQueue; rfl
@[simp] theorem updQueue_pending (q : Nat) (f : PQueue → PQueue) : (updQueue q f s).pending = s.pending := by unfold updQueue; rfl

/-! `updTrig` -/

@[simp] theorem updTrig_stw (q : Nat) (f : Trigger → Trigger) : (updTrig q f s).stw = s.stw := by unfold updTrig; rfl
@[simp] theorem updTrig_power (q : Nat) (f : Trigger → Trigger) : (updTrig q f s).power = s.power := by unfold updTrig; rfl
@[simp] theorem updTrig_boot (q : Nat) (f : Trigger → Trigger) : (updTrig q f s).boot = s.boot := by unfold updTrig; rfl
@[simp] theorem updTrig_assay (q : Nat) (f : Trigger → Trigger) : (updTrig q f s).assay = s.assay := by unfold updTrig; rfl
@[simp] theorem updTrig_plan (q : Nat) (f : Trigger → Trigger) : (updTrig q f s).plan = s.plan := by unfold updTrig; rfl
@[simp] theorem updTrig_mem (q : Nat) (f : Trigger → Trigger) : (updTrig q f s).mem = s.mem := by unfold updTrig; rfl
@[simp] theorem updTrig_wired (q : Nat) (f : Trigger → Trigger) : (updTrig q f s).wired = s.wired := by unfold updTrig; rfl
@[simp] theorem updTrig_front (q : Nat) (f : Trigger → Trigger) : (updTrig q f s).front = s.front := by unfold updTrig; rfl
@[simp] theorem updTrig_field (q : Nat) (f : Trigger → Trigger) : (updTrig q f s).field = s.field := by unfold updTrig; rfl
@[simp] theorem updTrig_wide (q : Nat) (f : Trigger → Trigger) : (updTrig q f s).wide = s.wide := by unfold updTrig; rfl
@[simp] theorem updTrig_pole (q : Nat) (f : Trigger → Trigger) : (updTrig q f s).pole = s.pole := by unfold updTrig; rfl
@[simp] theorem updTrig_kept (q : Nat) (f : Trigger → Trigger) : (updTrig q f s).kept = s.kept := by unfold updTrig; rfl
@[simp] theorem updTrig_next (q : Nat) (f : Trigger → Trigger) : (updTrig q f s).next = s.next := by unfold updTrig; rfl
@[simp] theorem updTrig_outbox (q : Nat) (f : Trigger → Trigger) : (updTrig q f s).outbox = s.outbox := by unfold updTrig; rfl
@[simp] theorem updTrig_draws (q : Nat) (f : Trigger → Trigger) : (updTrig q f s).draws = s.draws := by unfold updTrig; rfl
@[simp] theorem updTrig_pending (q : Nat) (f : Trigger → Trigger) : (updTrig q f s).pending = s.pending := by unfold updTrig; rfl

/-! `updUnit` -/

@[simp] theorem updUnit_stw (q : Nat) (f : UnitPlan → UnitPlan) : (updUnit q f s).stw = s.stw := by unfold updUnit; rfl
@[simp] theorem updUnit_power (q : Nat) (f : UnitPlan → UnitPlan) : (updUnit q f s).power = s.power := by unfold updUnit; rfl
@[simp] theorem updUnit_boot (q : Nat) (f : UnitPlan → UnitPlan) : (updUnit q f s).boot = s.boot := by unfold updUnit; rfl
@[simp] theorem updUnit_assay (q : Nat) (f : UnitPlan → UnitPlan) : (updUnit q f s).assay = s.assay := by unfold updUnit; rfl
@[simp] theorem updUnit_plan (q : Nat) (f : UnitPlan → UnitPlan) : (updUnit q f s).plan = s.plan := by unfold updUnit; rfl
@[simp] theorem updUnit_mem (q : Nat) (f : UnitPlan → UnitPlan) : (updUnit q f s).mem = s.mem := by unfold updUnit; rfl
@[simp] theorem updUnit_wired (q : Nat) (f : UnitPlan → UnitPlan) : (updUnit q f s).wired = s.wired := by unfold updUnit; rfl
@[simp] theorem updUnit_front (q : Nat) (f : UnitPlan → UnitPlan) : (updUnit q f s).front = s.front := by unfold updUnit; rfl
@[simp] theorem updUnit_field (q : Nat) (f : UnitPlan → UnitPlan) : (updUnit q f s).field = s.field := by unfold updUnit; rfl
@[simp] theorem updUnit_wide (q : Nat) (f : UnitPlan → UnitPlan) : (updUnit q f s).wide = s.wide := by unfold updUnit; rfl
@[simp] theorem updUnit_pole (q : Nat) (f : UnitPlan → UnitPlan) : (updUnit q f s).pole = s.pole := by unfold updUnit; rfl
@[simp] theorem updUnit_kept (q : Nat) (f : UnitPlan → UnitPlan) : (updUnit q f s).kept = s.kept := by unfold updUnit; rfl
@[simp] theorem updUnit_next (q : Nat) (f : UnitPlan → UnitPlan) : (updUnit q f s).next = s.next := by unfold updUnit; rfl
@[simp] theorem updUnit_outbox (q : Nat) (f : UnitPlan → UnitPlan) : (updUnit q f s).outbox = s.outbox := by unfold updUnit; rfl
@[simp] theorem updUnit_draws (q : Nat) (f : UnitPlan → UnitPlan) : (updUnit q f s).draws = s.draws := by unfold updUnit; rfl
@[simp] theorem updUnit_pending (q : Nat) (f : UnitPlan → UnitPlan) : (updUnit q f s).pending = s.pending := by unfold updUnit; rfl

/-! `updChannel` -/

@[simp] theorem updChannel_time (q : Nat) (f : DramChannel → DramChannel) : (updChannel q f s).time = s.time := by unfold updChannel; rfl
@[simp] theorem updChannel_stw (q : Nat) (f : DramChannel → DramChannel) : (updChannel q f s).stw = s.stw := by unfold updChannel; rfl
@[simp] theorem updChannel_power (q : Nat) (f : DramChannel → DramChannel) : (updChannel q f s).power = s.power := by unfold updChannel; rfl
@[simp] theorem updChannel_boot (q : Nat) (f : DramChannel → DramChannel) : (updChannel q f s).boot = s.boot := by unfold updChannel; rfl
@[simp] theorem updChannel_assay (q : Nat) (f : DramChannel → DramChannel) : (updChannel q f s).assay = s.assay := by unfold updChannel; rfl
@[simp] theorem updChannel_plan (q : Nat) (f : DramChannel → DramChannel) : (updChannel q f s).plan = s.plan := by unfold updChannel; rfl
@[simp] theorem updChannel_wired (q : Nat) (f : DramChannel → DramChannel) : (updChannel q f s).wired = s.wired := by unfold updChannel; rfl
@[simp] theorem updChannel_front (q : Nat) (f : DramChannel → DramChannel) : (updChannel q f s).front = s.front := by unfold updChannel; rfl
@[simp] theorem updChannel_field (q : Nat) (f : DramChannel → DramChannel) : (updChannel q f s).field = s.field := by unfold updChannel; rfl
@[simp] theorem updChannel_wide (q : Nat) (f : DramChannel → DramChannel) : (updChannel q f s).wide = s.wide := by unfold updChannel; rfl
@[simp] theorem updChannel_pole (q : Nat) (f : DramChannel → DramChannel) : (updChannel q f s).pole = s.pole := by unfold updChannel; rfl
@[simp] theorem updChannel_kept (q : Nat) (f : DramChannel → DramChannel) : (updChannel q f s).kept = s.kept := by unfold updChannel; rfl
@[simp] theorem updChannel_next (q : Nat) (f : DramChannel → DramChannel) : (updChannel q f s).next = s.next := by unfold updChannel; rfl
@[simp] theorem updChannel_outbox (q : Nat) (f : DramChannel → DramChannel) : (updChannel q f s).outbox = s.outbox := by unfold updChannel; rfl
@[simp] theorem updChannel_draws (q : Nat) (f : DramChannel → DramChannel) : (updChannel q f s).draws = s.draws := by unfold updChannel; rfl
@[simp] theorem updChannel_pending (q : Nat) (f : DramChannel → DramChannel) : (updChannel q f s).pending = s.pending := by unfold updChannel; rfl

/-! `updDport` -/

@[simp] theorem updDport_time (q : Nat) (f : DramPort → DramPort) : (updDport q f s).time = s.time := by unfold updDport; rfl
@[simp] theorem updDport_stw (q : Nat) (f : DramPort → DramPort) : (updDport q f s).stw = s.stw := by unfold updDport; rfl
@[simp] theorem updDport_power (q : Nat) (f : DramPort → DramPort) : (updDport q f s).power = s.power := by unfold updDport; rfl
@[simp] theorem updDport_boot (q : Nat) (f : DramPort → DramPort) : (updDport q f s).boot = s.boot := by unfold updDport; rfl
@[simp] theorem updDport_assay (q : Nat) (f : DramPort → DramPort) : (updDport q f s).assay = s.assay := by unfold updDport; rfl
@[simp] theorem updDport_plan (q : Nat) (f : DramPort → DramPort) : (updDport q f s).plan = s.plan := by unfold updDport; rfl
@[simp] theorem updDport_wired (q : Nat) (f : DramPort → DramPort) : (updDport q f s).wired = s.wired := by unfold updDport; rfl
@[simp] theorem updDport_front (q : Nat) (f : DramPort → DramPort) : (updDport q f s).front = s.front := by unfold updDport; rfl
@[simp] theorem updDport_field (q : Nat) (f : DramPort → DramPort) : (updDport q f s).field = s.field := by unfold updDport; rfl
@[simp] theorem updDport_wide (q : Nat) (f : DramPort → DramPort) : (updDport q f s).wide = s.wide := by unfold updDport; rfl
@[simp] theorem updDport_pole (q : Nat) (f : DramPort → DramPort) : (updDport q f s).pole = s.pole := by unfold updDport; rfl
@[simp] theorem updDport_kept (q : Nat) (f : DramPort → DramPort) : (updDport q f s).kept = s.kept := by unfold updDport; rfl
@[simp] theorem updDport_next (q : Nat) (f : DramPort → DramPort) : (updDport q f s).next = s.next := by unfold updDport; rfl
@[simp] theorem updDport_outbox (q : Nat) (f : DramPort → DramPort) : (updDport q f s).outbox = s.outbox := by unfold updDport; rfl
@[simp] theorem updDport_draws (q : Nat) (f : DramPort → DramPort) : (updDport q f s).draws = s.draws := by unfold updDport; rfl
@[simp] theorem updDport_pending (q : Nat) (f : DramPort → DramPort) : (updDport q f s).pending = s.pending := by unfold updDport; rfl

/-! `updRing` -/

@[simp] theorem updRing_time (q : Nat) (f : Ring → Ring) : (updRing q f s).time = s.time := by unfold updRing; rfl
@[simp] theorem updRing_stw (q : Nat) (f : Ring → Ring) : (updRing q f s).stw = s.stw := by unfold updRing; rfl
@[simp] theorem updRing_power (q : Nat) (f : Ring → Ring) : (updRing q f s).power = s.power := by unfold updRing; rfl
@[simp] theorem updRing_boot (q : Nat) (f : Ring → Ring) : (updRing q f s).boot = s.boot := by unfold updRing; rfl
@[simp] theorem updRing_assay (q : Nat) (f : Ring → Ring) : (updRing q f s).assay = s.assay := by unfold updRing; rfl
@[simp] theorem updRing_plan (q : Nat) (f : Ring → Ring) : (updRing q f s).plan = s.plan := by unfold updRing; rfl
@[simp] theorem updRing_wired (q : Nat) (f : Ring → Ring) : (updRing q f s).wired = s.wired := by unfold updRing; rfl
@[simp] theorem updRing_front (q : Nat) (f : Ring → Ring) : (updRing q f s).front = s.front := by unfold updRing; rfl
@[simp] theorem updRing_field (q : Nat) (f : Ring → Ring) : (updRing q f s).field = s.field := by unfold updRing; rfl
@[simp] theorem updRing_wide (q : Nat) (f : Ring → Ring) : (updRing q f s).wide = s.wide := by unfold updRing; rfl
@[simp] theorem updRing_pole (q : Nat) (f : Ring → Ring) : (updRing q f s).pole = s.pole := by unfold updRing; rfl
@[simp] theorem updRing_kept (q : Nat) (f : Ring → Ring) : (updRing q f s).kept = s.kept := by unfold updRing; rfl
@[simp] theorem updRing_next (q : Nat) (f : Ring → Ring) : (updRing q f s).next = s.next := by unfold updRing; rfl
@[simp] theorem updRing_outbox (q : Nat) (f : Ring → Ring) : (updRing q f s).outbox = s.outbox := by unfold updRing; rfl
@[simp] theorem updRing_draws (q : Nat) (f : Ring → Ring) : (updRing q f s).draws = s.draws := by unfold updRing; rfl
@[simp] theorem updRing_pending (q : Nat) (f : Ring → Ring) : (updRing q f s).pending = s.pending := by unfold updRing; rfl

/-! `updSynth` -/

@[simp] theorem updSynth_time (q : Nat) (f : Synth → Synth) : (updSynth q f s).time = s.time := by unfold updSynth; rfl
@[simp] theorem updSynth_stw (q : Nat) (f : Synth → Synth) : (updSynth q f s).stw = s.stw := by unfold updSynth; rfl
@[simp] theorem updSynth_power (q : Nat) (f : Synth → Synth) : (updSynth q f s).power = s.power := by unfold updSynth; rfl
@[simp] theorem updSynth_boot (q : Nat) (f : Synth → Synth) : (updSynth q f s).boot = s.boot := by unfold updSynth; rfl
@[simp] theorem updSynth_assay (q : Nat) (f : Synth → Synth) : (updSynth q f s).assay = s.assay := by unfold updSynth; rfl
@[simp] theorem updSynth_plan (q : Nat) (f : Synth → Synth) : (updSynth q f s).plan = s.plan := by unfold updSynth; rfl
@[simp] theorem updSynth_mem (q : Nat) (f : Synth → Synth) : (updSynth q f s).mem = s.mem := by unfold updSynth; rfl
@[simp] theorem updSynth_wired (q : Nat) (f : Synth → Synth) : (updSynth q f s).wired = s.wired := by unfold updSynth; rfl
@[simp] theorem updSynth_field (q : Nat) (f : Synth → Synth) : (updSynth q f s).field = s.field := by unfold updSynth; rfl
@[simp] theorem updSynth_wide (q : Nat) (f : Synth → Synth) : (updSynth q f s).wide = s.wide := by unfold updSynth; rfl
@[simp] theorem updSynth_pole (q : Nat) (f : Synth → Synth) : (updSynth q f s).pole = s.pole := by unfold updSynth; rfl
@[simp] theorem updSynth_kept (q : Nat) (f : Synth → Synth) : (updSynth q f s).kept = s.kept := by unfold updSynth; rfl
@[simp] theorem updSynth_next (q : Nat) (f : Synth → Synth) : (updSynth q f s).next = s.next := by unfold updSynth; rfl
@[simp] theorem updSynth_outbox (q : Nat) (f : Synth → Synth) : (updSynth q f s).outbox = s.outbox := by unfold updSynth; rfl
@[simp] theorem updSynth_draws (q : Nat) (f : Synth → Synth) : (updSynth q f s).draws = s.draws := by unfold updSynth; rfl
@[simp] theorem updSynth_pending (q : Nat) (f : Synth → Synth) : (updSynth q f s).pending = s.pending := by unfold updSynth; rfl

/-! `updCoex` -/

@[simp] theorem updCoex_time (q : Nat) (f : CoexPort → CoexPort) : (updCoex q f s).time = s.time := by unfold updCoex; rfl
@[simp] theorem updCoex_stw (q : Nat) (f : CoexPort → CoexPort) : (updCoex q f s).stw = s.stw := by unfold updCoex; rfl
@[simp] theorem updCoex_power (q : Nat) (f : CoexPort → CoexPort) : (updCoex q f s).power = s.power := by unfold updCoex; rfl
@[simp] theorem updCoex_boot (q : Nat) (f : CoexPort → CoexPort) : (updCoex q f s).boot = s.boot := by unfold updCoex; rfl
@[simp] theorem updCoex_assay (q : Nat) (f : CoexPort → CoexPort) : (updCoex q f s).assay = s.assay := by unfold updCoex; rfl
@[simp] theorem updCoex_plan (q : Nat) (f : CoexPort → CoexPort) : (updCoex q f s).plan = s.plan := by unfold updCoex; rfl
@[simp] theorem updCoex_mem (q : Nat) (f : CoexPort → CoexPort) : (updCoex q f s).mem = s.mem := by unfold updCoex; rfl
@[simp] theorem updCoex_wired (q : Nat) (f : CoexPort → CoexPort) : (updCoex q f s).wired = s.wired := by unfold updCoex; rfl
@[simp] theorem updCoex_field (q : Nat) (f : CoexPort → CoexPort) : (updCoex q f s).field = s.field := by unfold updCoex; rfl
@[simp] theorem updCoex_wide (q : Nat) (f : CoexPort → CoexPort) : (updCoex q f s).wide = s.wide := by unfold updCoex; rfl
@[simp] theorem updCoex_pole (q : Nat) (f : CoexPort → CoexPort) : (updCoex q f s).pole = s.pole := by unfold updCoex; rfl
@[simp] theorem updCoex_kept (q : Nat) (f : CoexPort → CoexPort) : (updCoex q f s).kept = s.kept := by unfold updCoex; rfl
@[simp] theorem updCoex_next (q : Nat) (f : CoexPort → CoexPort) : (updCoex q f s).next = s.next := by unfold updCoex; rfl
@[simp] theorem updCoex_outbox (q : Nat) (f : CoexPort → CoexPort) : (updCoex q f s).outbox = s.outbox := by unfold updCoex; rfl
@[simp] theorem updCoex_draws (q : Nat) (f : CoexPort → CoexPort) : (updCoex q f s).draws = s.draws := by unfold updCoex; rfl
@[simp] theorem updCoex_pending (q : Nat) (f : CoexPort → CoexPort) : (updCoex q f s).pending = s.pending := by unfold updCoex; rfl

/-! `updPort` -/

@[simp] theorem updPort_time (q : Nat) (f : WPort → WPort) : (updPort q f s).time = s.time := by unfold updPort; rfl
@[simp] theorem updPort_stw (q : Nat) (f : WPort → WPort) : (updPort q f s).stw = s.stw := by unfold updPort; rfl
@[simp] theorem updPort_power (q : Nat) (f : WPort → WPort) : (updPort q f s).power = s.power := by unfold updPort; rfl
@[simp] theorem updPort_boot (q : Nat) (f : WPort → WPort) : (updPort q f s).boot = s.boot := by unfold updPort; rfl
@[simp] theorem updPort_assay (q : Nat) (f : WPort → WPort) : (updPort q f s).assay = s.assay := by unfold updPort; rfl
@[simp] theorem updPort_plan (q : Nat) (f : WPort → WPort) : (updPort q f s).plan = s.plan := by unfold updPort; rfl
@[simp] theorem updPort_mem (q : Nat) (f : WPort → WPort) : (updPort q f s).mem = s.mem := by unfold updPort; rfl
@[simp] theorem updPort_front (q : Nat) (f : WPort → WPort) : (updPort q f s).front = s.front := by unfold updPort; rfl
@[simp] theorem updPort_field (q : Nat) (f : WPort → WPort) : (updPort q f s).field = s.field := by unfold updPort; rfl
@[simp] theorem updPort_wide (q : Nat) (f : WPort → WPort) : (updPort q f s).wide = s.wide := by unfold updPort; rfl
@[simp] theorem updPort_pole (q : Nat) (f : WPort → WPort) : (updPort q f s).pole = s.pole := by unfold updPort; rfl
@[simp] theorem updPort_kept (q : Nat) (f : WPort → WPort) : (updPort q f s).kept = s.kept := by unfold updPort; rfl
@[simp] theorem updPort_next (q : Nat) (f : WPort → WPort) : (updPort q f s).next = s.next := by unfold updPort; rfl
@[simp] theorem updPort_outbox (q : Nat) (f : WPort → WPort) : (updPort q f s).outbox = s.outbox := by unfold updPort; rfl
@[simp] theorem updPort_draws (q : Nat) (f : WPort → WPort) : (updPort q f s).draws = s.draws := by unfold updPort; rfl
@[simp] theorem updPort_pending (q : Nat) (f : WPort → WPort) : (updPort q f s).pending = s.pending := by unfold updPort; rfl

/-! `updRdv` -/

@[simp] theorem updRdv_time (q : Nat) (f : RdvRun → RdvRun) : (updRdv q f s).time = s.time := by unfold updRdv; rfl
@[simp] theorem updRdv_stw (q : Nat) (f : RdvRun → RdvRun) : (updRdv q f s).stw = s.stw := by unfold updRdv; rfl
@[simp] theorem updRdv_power (q : Nat) (f : RdvRun → RdvRun) : (updRdv q f s).power = s.power := by unfold updRdv; rfl
@[simp] theorem updRdv_boot (q : Nat) (f : RdvRun → RdvRun) : (updRdv q f s).boot = s.boot := by unfold updRdv; rfl
@[simp] theorem updRdv_assay (q : Nat) (f : RdvRun → RdvRun) : (updRdv q f s).assay = s.assay := by unfold updRdv; rfl
@[simp] theorem updRdv_plan (q : Nat) (f : RdvRun → RdvRun) : (updRdv q f s).plan = s.plan := by unfold updRdv; rfl
@[simp] theorem updRdv_mem (q : Nat) (f : RdvRun → RdvRun) : (updRdv q f s).mem = s.mem := by unfold updRdv; rfl
@[simp] theorem updRdv_wired (q : Nat) (f : RdvRun → RdvRun) : (updRdv q f s).wired = s.wired := by unfold updRdv; rfl
@[simp] theorem updRdv_front (q : Nat) (f : RdvRun → RdvRun) : (updRdv q f s).front = s.front := by unfold updRdv; rfl
@[simp] theorem updRdv_wide (q : Nat) (f : RdvRun → RdvRun) : (updRdv q f s).wide = s.wide := by unfold updRdv; rfl
@[simp] theorem updRdv_pole (q : Nat) (f : RdvRun → RdvRun) : (updRdv q f s).pole = s.pole := by unfold updRdv; rfl
@[simp] theorem updRdv_kept (q : Nat) (f : RdvRun → RdvRun) : (updRdv q f s).kept = s.kept := by unfold updRdv; rfl
@[simp] theorem updRdv_next (q : Nat) (f : RdvRun → RdvRun) : (updRdv q f s).next = s.next := by unfold updRdv; rfl
@[simp] theorem updRdv_outbox (q : Nat) (f : RdvRun → RdvRun) : (updRdv q f s).outbox = s.outbox := by unfold updRdv; rfl
@[simp] theorem updRdv_draws (q : Nat) (f : RdvRun → RdvRun) : (updRdv q f s).draws = s.draws := by unfold updRdv; rfl
@[simp] theorem updRdv_pending (q : Nat) (f : RdvRun → RdvRun) : (updRdv q f s).pending = s.pending := by unfold updRdv; rfl

/-! `updRun` -/

@[simp] theorem updRun_time (q : Nat) (f : ChildRun → ChildRun) : (updRun q f s).time = s.time := by unfold updRun; rfl
@[simp] theorem updRun_stw (q : Nat) (f : ChildRun → ChildRun) : (updRun q f s).stw = s.stw := by unfold updRun; rfl
@[simp] theorem updRun_power (q : Nat) (f : ChildRun → ChildRun) : (updRun q f s).power = s.power := by unfold updRun; rfl
@[simp] theorem updRun_boot (q : Nat) (f : ChildRun → ChildRun) : (updRun q f s).boot = s.boot := by unfold updRun; rfl
@[simp] theorem updRun_assay (q : Nat) (f : ChildRun → ChildRun) : (updRun q f s).assay = s.assay := by unfold updRun; rfl
@[simp] theorem updRun_plan (q : Nat) (f : ChildRun → ChildRun) : (updRun q f s).plan = s.plan := by unfold updRun; rfl
@[simp] theorem updRun_mem (q : Nat) (f : ChildRun → ChildRun) : (updRun q f s).mem = s.mem := by unfold updRun; rfl
@[simp] theorem updRun_wired (q : Nat) (f : ChildRun → ChildRun) : (updRun q f s).wired = s.wired := by unfold updRun; rfl
@[simp] theorem updRun_front (q : Nat) (f : ChildRun → ChildRun) : (updRun q f s).front = s.front := by unfold updRun; rfl
@[simp] theorem updRun_wide (q : Nat) (f : ChildRun → ChildRun) : (updRun q f s).wide = s.wide := by unfold updRun; rfl
@[simp] theorem updRun_pole (q : Nat) (f : ChildRun → ChildRun) : (updRun q f s).pole = s.pole := by unfold updRun; rfl
@[simp] theorem updRun_kept (q : Nat) (f : ChildRun → ChildRun) : (updRun q f s).kept = s.kept := by unfold updRun; rfl
@[simp] theorem updRun_next (q : Nat) (f : ChildRun → ChildRun) : (updRun q f s).next = s.next := by unfold updRun; rfl
@[simp] theorem updRun_outbox (q : Nat) (f : ChildRun → ChildRun) : (updRun q f s).outbox = s.outbox := by unfold updRun; rfl
@[simp] theorem updRun_draws (q : Nat) (f : ChildRun → ChildRun) : (updRun q f s).draws = s.draws := by unfold updRun; rfl
@[simp] theorem updRun_pending (q : Nat) (f : ChildRun → ChildRun) : (updRun q f s).pending = s.pending := by unfold updRun; rfl

/-! `updFchain` -/

@[simp] theorem updFchain_time (q : Nat) (f : FieldChain → FieldChain) : (updFchain q f s).time = s.time := by unfold updFchain; rfl
@[simp] theorem updFchain_stw (q : Nat) (f : FieldChain → FieldChain) : (updFchain q f s).stw = s.stw := by unfold updFchain; rfl
@[simp] theorem updFchain_power (q : Nat) (f : FieldChain → FieldChain) : (updFchain q f s).power = s.power := by unfold updFchain; rfl
@[simp] theorem updFchain_boot (q : Nat) (f : FieldChain → FieldChain) : (updFchain q f s).boot = s.boot := by unfold updFchain; rfl
@[simp] theorem updFchain_assay (q : Nat) (f : FieldChain → FieldChain) : (updFchain q f s).assay = s.assay := by unfold updFchain; rfl
@[simp] theorem updFchain_plan (q : Nat) (f : FieldChain → FieldChain) : (updFchain q f s).plan = s.plan := by unfold updFchain; rfl
@[simp] theorem updFchain_mem (q : Nat) (f : FieldChain → FieldChain) : (updFchain q f s).mem = s.mem := by unfold updFchain; rfl
@[simp] theorem updFchain_wired (q : Nat) (f : FieldChain → FieldChain) : (updFchain q f s).wired = s.wired := by unfold updFchain; rfl
@[simp] theorem updFchain_front (q : Nat) (f : FieldChain → FieldChain) : (updFchain q f s).front = s.front := by unfold updFchain; rfl
@[simp] theorem updFchain_wide (q : Nat) (f : FieldChain → FieldChain) : (updFchain q f s).wide = s.wide := by unfold updFchain; rfl
@[simp] theorem updFchain_pole (q : Nat) (f : FieldChain → FieldChain) : (updFchain q f s).pole = s.pole := by unfold updFchain; rfl
@[simp] theorem updFchain_kept (q : Nat) (f : FieldChain → FieldChain) : (updFchain q f s).kept = s.kept := by unfold updFchain; rfl
@[simp] theorem updFchain_next (q : Nat) (f : FieldChain → FieldChain) : (updFchain q f s).next = s.next := by unfold updFchain; rfl
@[simp] theorem updFchain_outbox (q : Nat) (f : FieldChain → FieldChain) : (updFchain q f s).outbox = s.outbox := by unfold updFchain; rfl
@[simp] theorem updFchain_draws (q : Nat) (f : FieldChain → FieldChain) : (updFchain q f s).draws = s.draws := by unfold updFchain; rfl
@[simp] theorem updFchain_pending (q : Nat) (f : FieldChain → FieldChain) : (updFchain q f s).pending = s.pending := by unfold updFchain; rfl

/-! `updBus` -/

@[simp] theorem updBus_time (q : Nat) (f : DaliBus → DaliBus) : (updBus q f s).time = s.time := by unfold updBus; rfl
@[simp] theorem updBus_stw (q : Nat) (f : DaliBus → DaliBus) : (updBus q f s).stw = s.stw := by unfold updBus; rfl
@[simp] theorem updBus_power (q : Nat) (f : DaliBus → DaliBus) : (updBus q f s).power = s.power := by unfold updBus; rfl
@[simp] theorem updBus_boot (q : Nat) (f : DaliBus → DaliBus) : (updBus q f s).boot = s.boot := by unfold updBus; rfl
@[simp] theorem updBus_assay (q : Nat) (f : DaliBus → DaliBus) : (updBus q f s).assay = s.assay := by unfold updBus; rfl
@[simp] theorem updBus_plan (q : Nat) (f : DaliBus → DaliBus) : (updBus q f s).plan = s.plan := by unfold updBus; rfl
@[simp] theorem updBus_mem (q : Nat) (f : DaliBus → DaliBus) : (updBus q f s).mem = s.mem := by unfold updBus; rfl
@[simp] theorem updBus_wired (q : Nat) (f : DaliBus → DaliBus) : (updBus q f s).wired = s.wired := by unfold updBus; rfl
@[simp] theorem updBus_front (q : Nat) (f : DaliBus → DaliBus) : (updBus q f s).front = s.front := by unfold updBus; rfl
@[simp] theorem updBus_field (q : Nat) (f : DaliBus → DaliBus) : (updBus q f s).field = s.field := by unfold updBus; rfl
@[simp] theorem updBus_wide (q : Nat) (f : DaliBus → DaliBus) : (updBus q f s).wide = s.wide := by unfold updBus; rfl
@[simp] theorem updBus_kept (q : Nat) (f : DaliBus → DaliBus) : (updBus q f s).kept = s.kept := by unfold updBus; rfl
@[simp] theorem updBus_next (q : Nat) (f : DaliBus → DaliBus) : (updBus q f s).next = s.next := by unfold updBus; rfl
@[simp] theorem updBus_outbox (q : Nat) (f : DaliBus → DaliBus) : (updBus q f s).outbox = s.outbox := by unfold updBus; rfl
@[simp] theorem updBus_draws (q : Nat) (f : DaliBus → DaliBus) : (updBus q f s).draws = s.draws := by unfold updBus; rfl
@[simp] theorem updBus_pending (q : Nat) (f : DaliBus → DaliBus) : (updBus q f s).pending = s.pending := by unfold updBus; rfl

/-! `updTmr` -/

@[simp] theorem updTmr_time (q : Nat) (f : TmrRun → TmrRun) : (updTmr q f s).time = s.time := by unfold updTmr; rfl
@[simp] theorem updTmr_stw (q : Nat) (f : TmrRun → TmrRun) : (updTmr q f s).stw = s.stw := by unfold updTmr; rfl
@[simp] theorem updTmr_power (q : Nat) (f : TmrRun → TmrRun) : (updTmr q f s).power = s.power := by unfold updTmr; rfl
@[simp] theorem updTmr_boot (q : Nat) (f : TmrRun → TmrRun) : (updTmr q f s).boot = s.boot := by unfold updTmr; rfl
@[simp] theorem updTmr_assay (q : Nat) (f : TmrRun → TmrRun) : (updTmr q f s).assay = s.assay := by unfold updTmr; rfl
@[simp] theorem updTmr_plan (q : Nat) (f : TmrRun → TmrRun) : (updTmr q f s).plan = s.plan := by unfold updTmr; rfl
@[simp] theorem updTmr_mem (q : Nat) (f : TmrRun → TmrRun) : (updTmr q f s).mem = s.mem := by unfold updTmr; rfl
@[simp] theorem updTmr_wired (q : Nat) (f : TmrRun → TmrRun) : (updTmr q f s).wired = s.wired := by unfold updTmr; rfl
@[simp] theorem updTmr_front (q : Nat) (f : TmrRun → TmrRun) : (updTmr q f s).front = s.front := by unfold updTmr; rfl
@[simp] theorem updTmr_field (q : Nat) (f : TmrRun → TmrRun) : (updTmr q f s).field = s.field := by unfold updTmr; rfl
@[simp] theorem updTmr_wide (q : Nat) (f : TmrRun → TmrRun) : (updTmr q f s).wide = s.wide := by unfold updTmr; rfl
@[simp] theorem updTmr_kept (q : Nat) (f : TmrRun → TmrRun) : (updTmr q f s).kept = s.kept := by unfold updTmr; rfl
@[simp] theorem updTmr_next (q : Nat) (f : TmrRun → TmrRun) : (updTmr q f s).next = s.next := by unfold updTmr; rfl
@[simp] theorem updTmr_outbox (q : Nat) (f : TmrRun → TmrRun) : (updTmr q f s).outbox = s.outbox := by unfold updTmr; rfl
@[simp] theorem updTmr_draws (q : Nat) (f : TmrRun → TmrRun) : (updTmr q f s).draws = s.draws := by unfold updTmr; rfl
@[simp] theorem updTmr_pending (q : Nat) (f : TmrRun → TmrRun) : (updTmr q f s).pending = s.pending := by unfold updTmr; rfl

/-! `updWr` -/

@[simp] theorem updWr_time (q : Nat) (f : Radio → Radio) : (updWr q f s).time = s.time := by unfold updWr; rfl
@[simp] theorem updWr_stw (q : Nat) (f : Radio → Radio) : (updWr q f s).stw = s.stw := by unfold updWr; rfl
@[simp] theorem updWr_power (q : Nat) (f : Radio → Radio) : (updWr q f s).power = s.power := by unfold updWr; rfl
@[simp] theorem updWr_boot (q : Nat) (f : Radio → Radio) : (updWr q f s).boot = s.boot := by unfold updWr; rfl
@[simp] theorem updWr_assay (q : Nat) (f : Radio → Radio) : (updWr q f s).assay = s.assay := by unfold updWr; rfl
@[simp] theorem updWr_plan (q : Nat) (f : Radio → Radio) : (updWr q f s).plan = s.plan := by unfold updWr; rfl
@[simp] theorem updWr_mem (q : Nat) (f : Radio → Radio) : (updWr q f s).mem = s.mem := by unfold updWr; rfl
@[simp] theorem updWr_wired (q : Nat) (f : Radio → Radio) : (updWr q f s).wired = s.wired := by unfold updWr; rfl
@[simp] theorem updWr_front (q : Nat) (f : Radio → Radio) : (updWr q f s).front = s.front := by unfold updWr; rfl
@[simp] theorem updWr_field (q : Nat) (f : Radio → Radio) : (updWr q f s).field = s.field := by unfold updWr; rfl
@[simp] theorem updWr_pole (q : Nat) (f : Radio → Radio) : (updWr q f s).pole = s.pole := by unfold updWr; rfl
@[simp] theorem updWr_kept (q : Nat) (f : Radio → Radio) : (updWr q f s).kept = s.kept := by unfold updWr; rfl
@[simp] theorem updWr_next (q : Nat) (f : Radio → Radio) : (updWr q f s).next = s.next := by unfold updWr; rfl
@[simp] theorem updWr_outbox (q : Nat) (f : Radio → Radio) : (updWr q f s).outbox = s.outbox := by unfold updWr; rfl
@[simp] theorem updWr_draws (q : Nat) (f : Radio → Radio) : (updWr q f s).draws = s.draws := by unfold updWr; rfl
@[simp] theorem updWr_pending (q : Nat) (f : Radio → Radio) : (updWr q f s).pending = s.pending := by unfold updWr; rfl

/-! `updNote` -/

@[simp] theorem updNote_time (q : Nat) (f : CalNote → CalNote) : (updNote q f s).time = s.time := by unfold updNote; rfl
@[simp] theorem updNote_stw (q : Nat) (f : CalNote → CalNote) : (updNote q f s).stw = s.stw := by unfold updNote; rfl
@[simp] theorem updNote_power (q : Nat) (f : CalNote → CalNote) : (updNote q f s).power = s.power := by unfold updNote; rfl
@[simp] theorem updNote_boot (q : Nat) (f : CalNote → CalNote) : (updNote q f s).boot = s.boot := by unfold updNote; rfl
@[simp] theorem updNote_assay (q : Nat) (f : CalNote → CalNote) : (updNote q f s).assay = s.assay := by unfold updNote; rfl
@[simp] theorem updNote_plan (q : Nat) (f : CalNote → CalNote) : (updNote q f s).plan = s.plan := by unfold updNote; rfl
@[simp] theorem updNote_mem (q : Nat) (f : CalNote → CalNote) : (updNote q f s).mem = s.mem := by unfold updNote; rfl
@[simp] theorem updNote_wired (q : Nat) (f : CalNote → CalNote) : (updNote q f s).wired = s.wired := by unfold updNote; rfl
@[simp] theorem updNote_field (q : Nat) (f : CalNote → CalNote) : (updNote q f s).field = s.field := by unfold updNote; rfl
@[simp] theorem updNote_wide (q : Nat) (f : CalNote → CalNote) : (updNote q f s).wide = s.wide := by unfold updNote; rfl
@[simp] theorem updNote_pole (q : Nat) (f : CalNote → CalNote) : (updNote q f s).pole = s.pole := by unfold updNote; rfl
@[simp] theorem updNote_kept (q : Nat) (f : CalNote → CalNote) : (updNote q f s).kept = s.kept := by unfold updNote; rfl
@[simp] theorem updNote_next (q : Nat) (f : CalNote → CalNote) : (updNote q f s).next = s.next := by unfold updNote; rfl
@[simp] theorem updNote_outbox (q : Nat) (f : CalNote → CalNote) : (updNote q f s).outbox = s.outbox := by unfold updNote; rfl
@[simp] theorem updNote_draws (q : Nat) (f : CalNote → CalNote) : (updNote q f s).draws = s.draws := by unfold updNote; rfl
@[simp] theorem updNote_pending (q : Nat) (f : CalNote → CalNote) : (updNote q f s).pending = s.pending := by unfold updNote; rfl

/-! `updCalRun` -/

@[simp] theorem updCalRun_time (q : Nat) (f : CalRun → CalRun) : (updCalRun q f s).time = s.time := by unfold updCalRun; rfl
@[simp] theorem updCalRun_stw (q : Nat) (f : CalRun → CalRun) : (updCalRun q f s).stw = s.stw := by unfold updCalRun; rfl
@[simp] theorem updCalRun_power (q : Nat) (f : CalRun → CalRun) : (updCalRun q f s).power = s.power := by unfold updCalRun; rfl
@[simp] theorem updCalRun_boot (q : Nat) (f : CalRun → CalRun) : (updCalRun q f s).boot = s.boot := by unfold updCalRun; rfl
@[simp] theorem updCalRun_assay (q : Nat) (f : CalRun → CalRun) : (updCalRun q f s).assay = s.assay := by unfold updCalRun; rfl
@[simp] theorem updCalRun_plan (q : Nat) (f : CalRun → CalRun) : (updCalRun q f s).plan = s.plan := by unfold updCalRun; rfl
@[simp] theorem updCalRun_mem (q : Nat) (f : CalRun → CalRun) : (updCalRun q f s).mem = s.mem := by unfold updCalRun; rfl
@[simp] theorem updCalRun_wired (q : Nat) (f : CalRun → CalRun) : (updCalRun q f s).wired = s.wired := by unfold updCalRun; rfl
@[simp] theorem updCalRun_field (q : Nat) (f : CalRun → CalRun) : (updCalRun q f s).field = s.field := by unfold updCalRun; rfl
@[simp] theorem updCalRun_wide (q : Nat) (f : CalRun → CalRun) : (updCalRun q f s).wide = s.wide := by unfold updCalRun; rfl
@[simp] theorem updCalRun_pole (q : Nat) (f : CalRun → CalRun) : (updCalRun q f s).pole = s.pole := by unfold updCalRun; rfl
@[simp] theorem updCalRun_kept (q : Nat) (f : CalRun → CalRun) : (updCalRun q f s).kept = s.kept := by unfold updCalRun; rfl
@[simp] theorem updCalRun_next (q : Nat) (f : CalRun → CalRun) : (updCalRun q f s).next = s.next := by unfold updCalRun; rfl
@[simp] theorem updCalRun_outbox (q : Nat) (f : CalRun → CalRun) : (updCalRun q f s).outbox = s.outbox := by unfold updCalRun; rfl
@[simp] theorem updCalRun_draws (q : Nat) (f : CalRun → CalRun) : (updCalRun q f s).draws = s.draws := by unfold updCalRun; rfl
@[simp] theorem updCalRun_pending (q : Nat) (f : CalRun → CalRun) : (updCalRun q f s).pending = s.pending := by unfold updCalRun; rfl

/-! `apart` -/

@[simp] theorem apart_pending (f : State → State) : (apart f s).pending = s.pending := by unfold apart; rfl
@[simp] theorem apart_time (f : State → State) : (apart f s).time = (f { s with outbox := [], pending := [] }).time := by unfold apart; rfl
@[simp] theorem apart_stw (f : State → State) : (apart f s).stw = (f { s with outbox := [], pending := [] }).stw := by unfold apart; rfl
@[simp] theorem apart_power (f : State → State) : (apart f s).power = (f { s with outbox := [], pending := [] }).power := by unfold apart; rfl
@[simp] theorem apart_boot (f : State → State) : (apart f s).boot = (f { s with outbox := [], pending := [] }).boot := by unfold apart; rfl
@[simp] theorem apart_assay (f : State → State) : (apart f s).assay = (f { s with outbox := [], pending := [] }).assay := by unfold apart; rfl
@[simp] theorem apart_plan (f : State → State) : (apart f s).plan = (f { s with outbox := [], pending := [] }).plan := by unfold apart; rfl
@[simp] theorem apart_mem (f : State → State) : (apart f s).mem = (f { s with outbox := [], pending := [] }).mem := by unfold apart; rfl
@[simp] theorem apart_wired (f : State → State) : (apart f s).wired = (f { s with outbox := [], pending := [] }).wired := by unfold apart; rfl
@[simp] theorem apart_front (f : State → State) : (apart f s).front = (f { s with outbox := [], pending := [] }).front := by unfold apart; rfl
@[simp] theorem apart_field (f : State → State) : (apart f s).field = (f { s with outbox := [], pending := [] }).field := by unfold apart; rfl
@[simp] theorem apart_wide (f : State → State) : (apart f s).wide = (f { s with outbox := [], pending := [] }).wide := by unfold apart; rfl
@[simp] theorem apart_pole (f : State → State) : (apart f s).pole = (f { s with outbox := [], pending := [] }).pole := by unfold apart; rfl
@[simp] theorem apart_kept (f : State → State) : (apart f s).kept = (f { s with outbox := [], pending := [] }).kept := by unfold apart; rfl
@[simp] theorem apart_next (f : State → State) : (apart f s).next = (f { s with outbox := [], pending := [] }).next := by unfold apart; rfl
@[simp] theorem apart_outbox (f : State → State) : (apart f s).outbox = (f { s with outbox := [], pending := [] }).outbox := by unfold apart; rfl
@[simp] theorem apart_draws (f : State → State) : (apart f s).draws = (f { s with outbox := [], pending := [] }).draws := by unfold apart; rfl

/-! What `settle` keeps of the Steward interface -/

@[simp] theorem settle_stw_state : (settle s).stw.state = s.stw.state := by unfold settle; rfl
@[simp] theorem settle_stw_lanes : (settle s).stw.lanes = s.stw.lanes := by unfold settle; rfl
@[simp] theorem settle_stw_jobs : (settle s).stw.jobs = s.stw.jobs := by unfold settle; rfl
@[simp] theorem settle_stw_nextJob : (settle s).stw.nextJob = s.stw.nextJob := by unfold settle; rfl
@[simp] theorem settle_stw_events : (settle s).stw.events = s.stw.events := by unfold settle; rfl
@[simp] theorem settle_stw_batchBeat : (settle s).stw.batchBeat = s.stw.batchBeat := by unfold settle; rfl
@[simp] theorem settle_stw_sticky : (settle s).stw.sticky = s.stw.sticky := by unfold settle; rfl
@[simp] theorem settle_stw_enMsix : (settle s).stw.enMsix = s.stw.enMsix := by unfold settle; rfl
@[simp] theorem settle_stw_enPin : (settle s).stw.enPin = s.stw.enPin := by unfold settle; rfl
@[simp] theorem settle_stw_scratch : (settle s).stw.scratch = s.stw.scratch := by unfold settle; rfl
@[simp] theorem settle_stw_restartReq : (settle s).stw.restartReq = s.stw.restartReq := by unfold settle; rfl
@[simp] theorem settle_stw_warmReq : (settle s).stw.warmReq = s.stw.warmReq := by unfold settle; rfl
@[simp] theorem settle_stw_heartbeat : (settle s).stw.heartbeat = s.stw.heartbeat := by unfold settle; rfl
@[simp] theorem settle_stw_causeNewStk : (settle s).stw.causeNewStk = s.stw.causeNewStk := by unfold settle; rfl
@[simp] theorem settle_stw_uptime : (settle s).stw.uptime = s.stw.uptime := by unfold settle; rfl
@[simp] theorem settle_stw_changePending : (settle s).stw.changePending = s.stw.changePending := by unfold settle; rfl
@[simp] theorem settle_stw_saveNow : (settle s).stw.saveNow = s.stw.saveNow := by unfold settle; rfl
@[simp] theorem settle_stw_restartCnt : (settle s).stw.restartCnt = s.stw.restartCnt := by unfold settle; rfl
@[simp] theorem settle_stw_lastReset : (settle s).stw.lastReset = s.stw.lastReset := by unfold settle; rfl
@[simp] theorem settle_stw_restoreSrc : (settle s).stw.restoreSrc = s.stw.restoreSrc := by unfold settle; rfl
@[simp] theorem settle_stw_imageSlot : (settle s).stw.imageSlot = s.stw.imageSlot := by unfold settle; rfl
@[simp] theorem settle_stw_trialBoot : (settle s).stw.trialBoot = s.stw.trialBoot := by unfold settle; rfl
@[simp] theorem settle_stw_faultCode : (settle s).stw.faultCode = s.stw.faultCode := by unfold settle; rfl
@[simp] theorem settle_stw_heartBeats : (settle s).stw.heartBeats = s.stw.heartBeats := by unfold settle; rfl
@[simp] theorem settle_stw_fwVersion : (settle s).stw.fwVersion = s.stw.fwVersion := by unfold settle; rfl
@[simp] theorem settle_stw_fwBuild : (settle s).stw.fwBuild = s.stw.fwBuild := by unfold settle; rfl
@[simp] theorem settle_stw_ingotWriteCnt : (settle s).stw.ingotWriteCnt = s.stw.ingotWriteCnt := by unfold settle; rfl
@[simp] theorem settle_stw_ingotFailCnt : (settle s).stw.ingotFailCnt = s.stw.ingotFailCnt := by unfold settle; rfl
@[simp] theorem settle_stw_inbandAuthFailCnt : (settle s).stw.inbandAuthFailCnt = s.stw.inbandAuthFailCnt := by unfold settle; rfl
@[simp] theorem settle_stw_debugCrcErrCnt : (settle s).stw.debugCrcErrCnt = s.stw.debugCrcErrCnt := by unfold settle; rfl
@[simp] theorem settle_stw_pushPull : (settle s).stw.pushPull = s.stw.pushPull := by unfold settle; rfl
@[simp] theorem settle_stw_restartCause : (settle s).stw.restartCause = s.stw.restartCause := by unfold settle; rfl
@[simp] theorem settle_stw_restartBeats : (settle s).stw.restartBeats = s.stw.restartBeats := by unfold settle; rfl
@[simp] theorem settle_stw_quietBeats : (settle s).stw.quietBeats = s.stw.quietBeats := by unfold settle; rfl
@[simp] theorem settle_stw_pendingBeats : (settle s).stw.pendingBeats = s.stw.pendingBeats := by unfold settle; rfl

/-! `setRx` -/

@[simp] theorem setRx_time (ch : Nat) (x : RxPhase) : (setRx ch x s).time = s.time := by unfold setRx; rfl
@[simp] theorem setRx_stw (ch : Nat) (x : RxPhase) : (setRx ch x s).stw = s.stw := by unfold setRx; rfl
@[simp] theorem setRx_power (ch : Nat) (x : RxPhase) : (setRx ch x s).power = s.power := by unfold setRx; rfl
@[simp] theorem setRx_boot (ch : Nat) (x : RxPhase) : (setRx ch x s).boot = s.boot := by unfold setRx; rfl
@[simp] theorem setRx_assay (ch : Nat) (x : RxPhase) : (setRx ch x s).assay = s.assay := by unfold setRx; rfl
@[simp] theorem setRx_plan (ch : Nat) (x : RxPhase) : (setRx ch x s).plan = s.plan := by unfold setRx; rfl
@[simp] theorem setRx_mem (ch : Nat) (x : RxPhase) : (setRx ch x s).mem = s.mem := by unfold setRx; rfl
@[simp] theorem setRx_wired (ch : Nat) (x : RxPhase) : (setRx ch x s).wired = s.wired := by unfold setRx; rfl
@[simp] theorem setRx_front (ch : Nat) (x : RxPhase) : (setRx ch x s).front = s.front := by unfold setRx; rfl
@[simp] theorem setRx_wide (ch : Nat) (x : RxPhase) : (setRx ch x s).wide = s.wide := by unfold setRx; rfl
@[simp] theorem setRx_pole (ch : Nat) (x : RxPhase) : (setRx ch x s).pole = s.pole := by unfold setRx; rfl
@[simp] theorem setRx_kept (ch : Nat) (x : RxPhase) : (setRx ch x s).kept = s.kept := by unfold setRx; rfl
@[simp] theorem setRx_next (ch : Nat) (x : RxPhase) : (setRx ch x s).next = s.next := by unfold setRx; rfl
@[simp] theorem setRx_outbox (ch : Nat) (x : RxPhase) : (setRx ch x s).outbox = s.outbox := by unfold setRx; rfl
@[simp] theorem setRx_draws (ch : Nat) (x : RxPhase) : (setRx ch x s).draws = s.draws := by unfold setRx; rfl
@[simp] theorem setRx_pending (ch : Nat) (x : RxPhase) : (setRx ch x s).pending = s.pending := by unfold setRx; rfl

/-! `phyCount` -/

@[simp] theorem phyCount_time (r k : Nat) : (phyCount r k s).time = s.time := by unfold phyCount; rfl
@[simp] theorem phyCount_stw (r k : Nat) : (phyCount r k s).stw = s.stw := by unfold phyCount; rfl
@[simp] theorem phyCount_power (r k : Nat) : (phyCount r k s).power = s.power := by unfold phyCount; rfl
@[simp] theorem phyCount_boot (r k : Nat) : (phyCount r k s).boot = s.boot := by unfold phyCount; rfl
@[simp] theorem phyCount_assay (r k : Nat) : (phyCount r k s).assay = s.assay := by unfold phyCount; rfl
@[simp] theorem phyCount_plan (r k : Nat) : (phyCount r k s).plan = s.plan := by unfold phyCount; rfl
@[simp] theorem phyCount_mem (r k : Nat) : (phyCount r k s).mem = s.mem := by unfold phyCount; rfl
@[simp] theorem phyCount_wired (r k : Nat) : (phyCount r k s).wired = s.wired := by unfold phyCount; rfl
@[simp] theorem phyCount_front (r k : Nat) : (phyCount r k s).front = s.front := by unfold phyCount; rfl
@[simp] theorem phyCount_field (r k : Nat) : (phyCount r k s).field = s.field := by unfold phyCount; rfl
@[simp] theorem phyCount_pole (r k : Nat) : (phyCount r k s).pole = s.pole := by unfold phyCount; rfl
@[simp] theorem phyCount_kept (r k : Nat) : (phyCount r k s).kept = s.kept := by unfold phyCount; rfl
@[simp] theorem phyCount_next (r k : Nat) : (phyCount r k s).next = s.next := by unfold phyCount; rfl
@[simp] theorem phyCount_outbox (r k : Nat) : (phyCount r k s).outbox = s.outbox := by unfold phyCount; rfl
@[simp] theorem phyCount_draws (r k : Nat) : (phyCount r k s).draws = s.draws := by unfold phyCount; rfl
@[simp] theorem phyCount_pending (r k : Nat) : (phyCount r k s).pending = s.pending := by unfold phyCount; rfl

/-! `accCount` -/

@[simp] theorem accCount_time (r : Nat) (b : Option Nat) (k : Nat) : (accCount r b k s).time = s.time := by unfold accCount; rfl
@[simp] theorem accCount_stw (r : Nat) (b : Option Nat) (k : Nat) : (accCount r b k s).stw = s.stw := by unfold accCount; rfl
@[simp] theorem accCount_power (r : Nat) (b : Option Nat) (k : Nat) : (accCount r b k s).power = s.power := by unfold accCount; rfl
@[simp] theorem accCount_boot (r : Nat) (b : Option Nat) (k : Nat) : (accCount r b k s).boot = s.boot := by unfold accCount; rfl
@[simp] theorem accCount_assay (r : Nat) (b : Option Nat) (k : Nat) : (accCount r b k s).assay = s.assay := by unfold accCount; rfl
@[simp] theorem accCount_plan (r : Nat) (b : Option Nat) (k : Nat) : (accCount r b k s).plan = s.plan := by unfold accCount; rfl
@[simp] theorem accCount_mem (r : Nat) (b : Option Nat) (k : Nat) : (accCount r b k s).mem = s.mem := by unfold accCount; rfl
@[simp] theorem accCount_wired (r : Nat) (b : Option Nat) (k : Nat) : (accCount r b k s).wired = s.wired := by unfold accCount; rfl
@[simp] theorem accCount_front (r : Nat) (b : Option Nat) (k : Nat) : (accCount r b k s).front = s.front := by unfold accCount; rfl
@[simp] theorem accCount_field (r : Nat) (b : Option Nat) (k : Nat) : (accCount r b k s).field = s.field := by unfold accCount; rfl
@[simp] theorem accCount_pole (r : Nat) (b : Option Nat) (k : Nat) : (accCount r b k s).pole = s.pole := by unfold accCount; rfl
@[simp] theorem accCount_kept (r : Nat) (b : Option Nat) (k : Nat) : (accCount r b k s).kept = s.kept := by unfold accCount; rfl
@[simp] theorem accCount_next (r : Nat) (b : Option Nat) (k : Nat) : (accCount r b k s).next = s.next := by unfold accCount; rfl
@[simp] theorem accCount_outbox (r : Nat) (b : Option Nat) (k : Nat) : (accCount r b k s).outbox = s.outbox := by unfold accCount; rfl
@[simp] theorem accCount_draws (r : Nat) (b : Option Nat) (k : Nat) : (accCount r b k s).draws = s.draws := by unfold accCount; rfl
@[simp] theorem accCount_pending (r : Nat) (b : Option Nat) (k : Nat) : (accCount r b k s).pending = s.pending := by unfold accCount; rfl

/-! `memCount` -/

@[simp] theorem memCount_time (k : Nat) : (memCount k s).time = s.time := by unfold memCount; rfl
@[simp] theorem memCount_stw (k : Nat) : (memCount k s).stw = s.stw := by unfold memCount; rfl
@[simp] theorem memCount_power (k : Nat) : (memCount k s).power = s.power := by unfold memCount; rfl
@[simp] theorem memCount_boot (k : Nat) : (memCount k s).boot = s.boot := by unfold memCount; rfl
@[simp] theorem memCount_assay (k : Nat) : (memCount k s).assay = s.assay := by unfold memCount; rfl
@[simp] theorem memCount_plan (k : Nat) : (memCount k s).plan = s.plan := by unfold memCount; rfl
@[simp] theorem memCount_wired (k : Nat) : (memCount k s).wired = s.wired := by unfold memCount; rfl
@[simp] theorem memCount_front (k : Nat) : (memCount k s).front = s.front := by unfold memCount; rfl
@[simp] theorem memCount_field (k : Nat) : (memCount k s).field = s.field := by unfold memCount; rfl
@[simp] theorem memCount_wide (k : Nat) : (memCount k s).wide = s.wide := by unfold memCount; rfl
@[simp] theorem memCount_pole (k : Nat) : (memCount k s).pole = s.pole := by unfold memCount; rfl
@[simp] theorem memCount_kept (k : Nat) : (memCount k s).kept = s.kept := by unfold memCount; rfl
@[simp] theorem memCount_next (k : Nat) : (memCount k s).next = s.next := by unfold memCount; rfl
@[simp] theorem memCount_outbox (k : Nat) : (memCount k s).outbox = s.outbox := by unfold memCount; rfl
@[simp] theorem memCount_draws (k : Nat) : (memCount k s).draws = s.draws := by unfold memCount; rfl
@[simp] theorem memCount_pending (k : Nat) : (memCount k s).pending = s.pending := by unfold memCount; rfl

/-! `timeCount` -/

@[simp] theorem timeCount_stw (k : Nat) : (timeCount k s).stw = s.stw := by unfold timeCount; rfl
@[simp] theorem timeCount_power (k : Nat) : (timeCount k s).power = s.power := by unfold timeCount; rfl
@[simp] theorem timeCount_boot (k : Nat) : (timeCount k s).boot = s.boot := by unfold timeCount; rfl
@[simp] theorem timeCount_assay (k : Nat) : (timeCount k s).assay = s.assay := by unfold timeCount; rfl
@[simp] theorem timeCount_plan (k : Nat) : (timeCount k s).plan = s.plan := by unfold timeCount; rfl
@[simp] theorem timeCount_mem (k : Nat) : (timeCount k s).mem = s.mem := by unfold timeCount; rfl
@[simp] theorem timeCount_wired (k : Nat) : (timeCount k s).wired = s.wired := by unfold timeCount; rfl
@[simp] theorem timeCount_front (k : Nat) : (timeCount k s).front = s.front := by unfold timeCount; rfl
@[simp] theorem timeCount_field (k : Nat) : (timeCount k s).field = s.field := by unfold timeCount; rfl
@[simp] theorem timeCount_wide (k : Nat) : (timeCount k s).wide = s.wide := by unfold timeCount; rfl
@[simp] theorem timeCount_pole (k : Nat) : (timeCount k s).pole = s.pole := by unfold timeCount; rfl
@[simp] theorem timeCount_kept (k : Nat) : (timeCount k s).kept = s.kept := by unfold timeCount; rfl
@[simp] theorem timeCount_next (k : Nat) : (timeCount k s).next = s.next := by unfold timeCount; rfl
@[simp] theorem timeCount_outbox (k : Nat) : (timeCount k s).outbox = s.outbox := by unfold timeCount; rfl
@[simp] theorem timeCount_draws (k : Nat) : (timeCount k s).draws = s.draws := by unfold timeCount; rfl
@[simp] theorem timeCount_pending (k : Nat) : (timeCount k s).pending = s.pending := by unfold timeCount; rfl

/-! `powerCount` -/

@[simp] theorem powerCount_time (k : Nat) : (powerCount k s).time = s.time := by unfold powerCount; rfl
@[simp] theorem powerCount_stw (k : Nat) : (powerCount k s).stw = s.stw := by unfold powerCount; rfl
@[simp] theorem powerCount_boot (k : Nat) : (powerCount k s).boot = s.boot := by unfold powerCount; rfl
@[simp] theorem powerCount_assay (k : Nat) : (powerCount k s).assay = s.assay := by unfold powerCount; rfl
@[simp] theorem powerCount_plan (k : Nat) : (powerCount k s).plan = s.plan := by unfold powerCount; rfl
@[simp] theorem powerCount_mem (k : Nat) : (powerCount k s).mem = s.mem := by unfold powerCount; rfl
@[simp] theorem powerCount_wired (k : Nat) : (powerCount k s).wired = s.wired := by unfold powerCount; rfl
@[simp] theorem powerCount_front (k : Nat) : (powerCount k s).front = s.front := by unfold powerCount; rfl
@[simp] theorem powerCount_field (k : Nat) : (powerCount k s).field = s.field := by unfold powerCount; rfl
@[simp] theorem powerCount_wide (k : Nat) : (powerCount k s).wide = s.wide := by unfold powerCount; rfl
@[simp] theorem powerCount_pole (k : Nat) : (powerCount k s).pole = s.pole := by unfold powerCount; rfl
@[simp] theorem powerCount_kept (k : Nat) : (powerCount k s).kept = s.kept := by unfold powerCount; rfl
@[simp] theorem powerCount_next (k : Nat) : (powerCount k s).next = s.next := by unfold powerCount; rfl
@[simp] theorem powerCount_outbox (k : Nat) : (powerCount k s).outbox = s.outbox := by unfold powerCount; rfl
@[simp] theorem powerCount_draws (k : Nat) : (powerCount k s).draws = s.draws := by unfold powerCount; rfl
@[simp] theorem powerCount_pending (k : Nat) : (powerCount k s).pending = s.pending := by unfold powerCount; rfl

/-! `frontCount` -/

@[simp] theorem frontCount_time (scope k : Nat) : (frontCount scope k s).time = s.time := by unfold frontCount; rfl
@[simp] theorem frontCount_stw (scope k : Nat) : (frontCount scope k s).stw = s.stw := by unfold frontCount; rfl
@[simp] theorem frontCount_power (scope k : Nat) : (frontCount scope k s).power = s.power := by unfold frontCount; rfl
@[simp] theorem frontCount_boot (scope k : Nat) : (frontCount scope k s).boot = s.boot := by unfold frontCount; rfl
@[simp] theorem frontCount_assay (scope k : Nat) : (frontCount scope k s).assay = s.assay := by unfold frontCount; rfl
@[simp] theorem frontCount_plan (scope k : Nat) : (frontCount scope k s).plan = s.plan := by unfold frontCount; rfl
@[simp] theorem frontCount_mem (scope k : Nat) : (frontCount scope k s).mem = s.mem := by unfold frontCount; rfl
@[simp] theorem frontCount_wired (scope k : Nat) : (frontCount scope k s).wired = s.wired := by unfold frontCount; rfl
@[simp] theorem frontCount_field (scope k : Nat) : (frontCount scope k s).field = s.field := by unfold frontCount; rfl
@[simp] theorem frontCount_wide (scope k : Nat) : (frontCount scope k s).wide = s.wide := by unfold frontCount; rfl
@[simp] theorem frontCount_pole (scope k : Nat) : (frontCount scope k s).pole = s.pole := by unfold frontCount; rfl
@[simp] theorem frontCount_kept (scope k : Nat) : (frontCount scope k s).kept = s.kept := by unfold frontCount; rfl
@[simp] theorem frontCount_next (scope k : Nat) : (frontCount scope k s).next = s.next := by unfold frontCount; rfl
@[simp] theorem frontCount_outbox (scope k : Nat) : (frontCount scope k s).outbox = s.outbox := by unfold frontCount; rfl
@[simp] theorem frontCount_draws (scope k : Nat) : (frontCount scope k s).draws = s.draws := by unfold frontCount; rfl
@[simp] theorem frontCount_pending (scope k : Nat) : (frontCount scope k s).pending = s.pending := by unfold frontCount; rfl

/-! `poleCount` -/

@[simp] theorem poleCount_time (sel k : Nat) : (poleCount sel k s).time = s.time := by unfold poleCount; rfl
@[simp] theorem poleCount_stw (sel k : Nat) : (poleCount sel k s).stw = s.stw := by unfold poleCount; rfl
@[simp] theorem poleCount_power (sel k : Nat) : (poleCount sel k s).power = s.power := by unfold poleCount; rfl
@[simp] theorem poleCount_boot (sel k : Nat) : (poleCount sel k s).boot = s.boot := by unfold poleCount; rfl
@[simp] theorem poleCount_assay (sel k : Nat) : (poleCount sel k s).assay = s.assay := by unfold poleCount; rfl
@[simp] theorem poleCount_plan (sel k : Nat) : (poleCount sel k s).plan = s.plan := by unfold poleCount; rfl
@[simp] theorem poleCount_mem (sel k : Nat) : (poleCount sel k s).mem = s.mem := by unfold poleCount; rfl
@[simp] theorem poleCount_wired (sel k : Nat) : (poleCount sel k s).wired = s.wired := by unfold poleCount; rfl
@[simp] theorem poleCount_front (sel k : Nat) : (poleCount sel k s).front = s.front := by unfold poleCount; rfl
@[simp] theorem poleCount_field (sel k : Nat) : (poleCount sel k s).field = s.field := by unfold poleCount; rfl
@[simp] theorem poleCount_wide (sel k : Nat) : (poleCount sel k s).wide = s.wide := by unfold poleCount; rfl
@[simp] theorem poleCount_kept (sel k : Nat) : (poleCount sel k s).kept = s.kept := by unfold poleCount; rfl
@[simp] theorem poleCount_next (sel k : Nat) : (poleCount sel k s).next = s.next := by unfold poleCount; rfl
@[simp] theorem poleCount_outbox (sel k : Nat) : (poleCount sel k s).outbox = s.outbox := by unfold poleCount; rfl
@[simp] theorem poleCount_draws (sel k : Nat) : (poleCount sel k s).draws = s.draws := by unfold poleCount; rfl
@[simp] theorem poleCount_pending (sel k : Nat) : (poleCount sel k s).pending = s.pending := by unfold poleCount; rfl

/-! `portCount` -/

@[simp] theorem portCount_time (i k : Nat) : (portCount i k s).time = s.time := by unfold portCount; rfl
@[simp] theorem portCount_stw (i k : Nat) : (portCount i k s).stw = s.stw := by unfold portCount; rfl
@[simp] theorem portCount_power (i k : Nat) : (portCount i k s).power = s.power := by unfold portCount; rfl
@[simp] theorem portCount_boot (i k : Nat) : (portCount i k s).boot = s.boot := by unfold portCount; rfl
@[simp] theorem portCount_assay (i k : Nat) : (portCount i k s).assay = s.assay := by unfold portCount; rfl
@[simp] theorem portCount_plan (i k : Nat) : (portCount i k s).plan = s.plan := by unfold portCount; rfl
@[simp] theorem portCount_mem (i k : Nat) : (portCount i k s).mem = s.mem := by unfold portCount; rfl
@[simp] theorem portCount_front (i k : Nat) : (portCount i k s).front = s.front := by unfold portCount; rfl
@[simp] theorem portCount_field (i k : Nat) : (portCount i k s).field = s.field := by unfold portCount; rfl
@[simp] theorem portCount_wide (i k : Nat) : (portCount i k s).wide = s.wide := by unfold portCount; rfl
@[simp] theorem portCount_pole (i k : Nat) : (portCount i k s).pole = s.pole := by unfold portCount; rfl
@[simp] theorem portCount_kept (i k : Nat) : (portCount i k s).kept = s.kept := by unfold portCount; rfl
@[simp] theorem portCount_next (i k : Nat) : (portCount i k s).next = s.next := by unfold portCount; rfl
@[simp] theorem portCount_outbox (i k : Nat) : (portCount i k s).outbox = s.outbox := by unfold portCount; rfl
@[simp] theorem portCount_draws (i k : Nat) : (portCount i k s).draws = s.draws := by unfold portCount; rfl
@[simp] theorem portCount_pending (i k : Nat) : (portCount i k s).pending = s.pending := by unfold portCount; rfl

/-! `switchCount` -/

@[simp] theorem switchCount_time (k : Nat) : (switchCount k s).time = s.time := by unfold switchCount; rfl
@[simp] theorem switchCount_stw (k : Nat) : (switchCount k s).stw = s.stw := by unfold switchCount; rfl
@[simp] theorem switchCount_power (k : Nat) : (switchCount k s).power = s.power := by unfold switchCount; rfl
@[simp] theorem switchCount_boot (k : Nat) : (switchCount k s).boot = s.boot := by unfold switchCount; rfl
@[simp] theorem switchCount_assay (k : Nat) : (switchCount k s).assay = s.assay := by unfold switchCount; rfl
@[simp] theorem switchCount_plan (k : Nat) : (switchCount k s).plan = s.plan := by unfold switchCount; rfl
@[simp] theorem switchCount_mem (k : Nat) : (switchCount k s).mem = s.mem := by unfold switchCount; rfl
@[simp] theorem switchCount_front (k : Nat) : (switchCount k s).front = s.front := by unfold switchCount; rfl
@[simp] theorem switchCount_field (k : Nat) : (switchCount k s).field = s.field := by unfold switchCount; rfl
@[simp] theorem switchCount_wide (k : Nat) : (switchCount k s).wide = s.wide := by unfold switchCount; rfl
@[simp] theorem switchCount_pole (k : Nat) : (switchCount k s).pole = s.pole := by unfold switchCount; rfl
@[simp] theorem switchCount_kept (k : Nat) : (switchCount k s).kept = s.kept := by unfold switchCount; rfl
@[simp] theorem switchCount_next (k : Nat) : (switchCount k s).next = s.next := by unfold switchCount; rfl
@[simp] theorem switchCount_outbox (k : Nat) : (switchCount k s).outbox = s.outbox := by unfold switchCount; rfl
@[simp] theorem switchCount_draws (k : Nat) : (switchCount k s).draws = s.draws := by unfold switchCount; rfl
@[simp] theorem switchCount_pending (k : Nat) : (switchCount k s).pending = s.pending := by unfold switchCount; rfl

/-! `putPwrResult` -/

@[simp] theorem putPwrResult_time (tag status cause source : Nat) : (putPwrResult tag status cause source s).time = s.time := by unfold putPwrResult; rfl
@[simp] theorem putPwrResult_boot (tag status cause source : Nat) : (putPwrResult tag status cause source s).boot = s.boot := by unfold putPwrResult; rfl
@[simp] theorem putPwrResult_assay (tag status cause source : Nat) : (putPwrResult tag status cause source s).assay = s.assay := by unfold putPwrResult; rfl
@[simp] theorem putPwrResult_plan (tag status cause source : Nat) : (putPwrResult tag status cause source s).plan = s.plan := by unfold putPwrResult; rfl
@[simp] theorem putPwrResult_mem (tag status cause source : Nat) : (putPwrResult tag status cause source s).mem = s.mem := by unfold putPwrResult; rfl
@[simp] theorem putPwrResult_wired (tag status cause source : Nat) : (putPwrResult tag status cause source s).wired = s.wired := by unfold putPwrResult; rfl
@[simp] theorem putPwrResult_front (tag status cause source : Nat) : (putPwrResult tag status cause source s).front = s.front := by unfold putPwrResult; rfl
@[simp] theorem putPwrResult_field (tag status cause source : Nat) : (putPwrResult tag status cause source s).field = s.field := by unfold putPwrResult; rfl
@[simp] theorem putPwrResult_wide (tag status cause source : Nat) : (putPwrResult tag status cause source s).wide = s.wide := by unfold putPwrResult; rfl
@[simp] theorem putPwrResult_pole (tag status cause source : Nat) : (putPwrResult tag status cause source s).pole = s.pole := by unfold putPwrResult; rfl
@[simp] theorem putPwrResult_kept (tag status cause source : Nat) : (putPwrResult tag status cause source s).kept = s.kept := by unfold putPwrResult; rfl
@[simp] theorem putPwrResult_next (tag status cause source : Nat) : (putPwrResult tag status cause source s).next = s.next := by unfold putPwrResult; rfl
@[simp] theorem putPwrResult_outbox (tag status cause source : Nat) : (putPwrResult tag status cause source s).outbox = s.outbox := by unfold putPwrResult; rfl
@[simp] theorem putPwrResult_draws (tag status cause source : Nat) : (putPwrResult tag status cause source s).draws = s.draws := by unfold putPwrResult; rfl
@[simp] theorem putPwrResult_pending (tag status cause source : Nat) : (putPwrResult tag status cause source s).pending = s.pending := by unfold putPwrResult; rfl

/-! `accCounts` -/

@[simp] theorem accCounts_time (r : Nat) (bs : List Nat) (k : Nat) : (accCounts r bs k s).time = s.time := by unfold accCounts; rfl
@[simp] theorem accCounts_stw (r : Nat) (bs : List Nat) (k : Nat) : (accCounts r bs k s).stw = s.stw := by unfold accCounts; rfl
@[simp] theorem accCounts_power (r : Nat) (bs : List Nat) (k : Nat) : (accCounts r bs k s).power = s.power := by unfold accCounts; rfl
@[simp] theorem accCounts_boot (r : Nat) (bs : List Nat) (k : Nat) : (accCounts r bs k s).boot = s.boot := by unfold accCounts; rfl
@[simp] theorem accCounts_assay (r : Nat) (bs : List Nat) (k : Nat) : (accCounts r bs k s).assay = s.assay := by unfold accCounts; rfl
@[simp] theorem accCounts_plan (r : Nat) (bs : List Nat) (k : Nat) : (accCounts r bs k s).plan = s.plan := by unfold accCounts; rfl
@[simp] theorem accCounts_mem (r : Nat) (bs : List Nat) (k : Nat) : (accCounts r bs k s).mem = s.mem := by unfold accCounts; rfl
@[simp] theorem accCounts_wired (r : Nat) (bs : List Nat) (k : Nat) : (accCounts r bs k s).wired = s.wired := by unfold accCounts; rfl
@[simp] theorem accCounts_front (r : Nat) (bs : List Nat) (k : Nat) : (accCounts r bs k s).front = s.front := by unfold accCounts; rfl
@[simp] theorem accCounts_field (r : Nat) (bs : List Nat) (k : Nat) : (accCounts r bs k s).field = s.field := by unfold accCounts; rfl
@[simp] theorem accCounts_pole (r : Nat) (bs : List Nat) (k : Nat) : (accCounts r bs k s).pole = s.pole := by unfold accCounts; rfl
@[simp] theorem accCounts_kept (r : Nat) (bs : List Nat) (k : Nat) : (accCounts r bs k s).kept = s.kept := by unfold accCounts; rfl
@[simp] theorem accCounts_next (r : Nat) (bs : List Nat) (k : Nat) : (accCounts r bs k s).next = s.next := by unfold accCounts; rfl
@[simp] theorem accCounts_outbox (r : Nat) (bs : List Nat) (k : Nat) : (accCounts r bs k s).outbox = s.outbox := by unfold accCounts; rfl
@[simp] theorem accCounts_draws (r : Nat) (bs : List Nat) (k : Nat) : (accCounts r bs k s).draws = s.draws := by unfold accCounts; rfl
@[simp] theorem accCounts_pending (r : Nat) (bs : List Nat) (k : Nat) : (accCounts r bs k s).pending = s.pending := by unfold accCounts; rfl

/-! `accOctets` -/

@[simp] theorem accOctets_time (r : Nat) (bs : List Nat) (k n : Nat) : (accOctets r bs k n s).time = s.time := by unfold accOctets; rfl
@[simp] theorem accOctets_stw (r : Nat) (bs : List Nat) (k n : Nat) : (accOctets r bs k n s).stw = s.stw := by unfold accOctets; rfl
@[simp] theorem accOctets_power (r : Nat) (bs : List Nat) (k n : Nat) : (accOctets r bs k n s).power = s.power := by unfold accOctets; rfl
@[simp] theorem accOctets_boot (r : Nat) (bs : List Nat) (k n : Nat) : (accOctets r bs k n s).boot = s.boot := by unfold accOctets; rfl
@[simp] theorem accOctets_assay (r : Nat) (bs : List Nat) (k n : Nat) : (accOctets r bs k n s).assay = s.assay := by unfold accOctets; rfl
@[simp] theorem accOctets_plan (r : Nat) (bs : List Nat) (k n : Nat) : (accOctets r bs k n s).plan = s.plan := by unfold accOctets; rfl
@[simp] theorem accOctets_mem (r : Nat) (bs : List Nat) (k n : Nat) : (accOctets r bs k n s).mem = s.mem := by unfold accOctets; rfl
@[simp] theorem accOctets_wired (r : Nat) (bs : List Nat) (k n : Nat) : (accOctets r bs k n s).wired = s.wired := by unfold accOctets; rfl
@[simp] theorem accOctets_front (r : Nat) (bs : List Nat) (k n : Nat) : (accOctets r bs k n s).front = s.front := by unfold accOctets; rfl
@[simp] theorem accOctets_field (r : Nat) (bs : List Nat) (k n : Nat) : (accOctets r bs k n s).field = s.field := by unfold accOctets; rfl
@[simp] theorem accOctets_pole (r : Nat) (bs : List Nat) (k n : Nat) : (accOctets r bs k n s).pole = s.pole := by unfold accOctets; rfl
@[simp] theorem accOctets_kept (r : Nat) (bs : List Nat) (k n : Nat) : (accOctets r bs k n s).kept = s.kept := by unfold accOctets; rfl
@[simp] theorem accOctets_next (r : Nat) (bs : List Nat) (k n : Nat) : (accOctets r bs k n s).next = s.next := by unfold accOctets; rfl
@[simp] theorem accOctets_outbox (r : Nat) (bs : List Nat) (k n : Nat) : (accOctets r bs k n s).outbox = s.outbox := by unfold accOctets; rfl
@[simp] theorem accOctets_draws (r : Nat) (bs : List Nat) (k n : Nat) : (accOctets r bs k n s).draws = s.draws := by unfold accOctets; rfl
@[simp] theorem accOctets_pending (r : Nat) (bs : List Nat) (k n : Nat) : (accOctets r bs k n s).pending = s.pending := by unfold accOctets; rfl

/-! `updMetric` -/

@[simp] theorem updMetric_time (n : Nat) (f : MetricRow → MetricRow) : (updMetric n f s).time = s.time := by unfold updMetric; rfl
@[simp] theorem updMetric_stw (n : Nat) (f : MetricRow → MetricRow) : (updMetric n f s).stw = s.stw := by unfold updMetric; rfl
@[simp] theorem updMetric_power (n : Nat) (f : MetricRow → MetricRow) : (updMetric n f s).power = s.power := by unfold updMetric; rfl
@[simp] theorem updMetric_boot (n : Nat) (f : MetricRow → MetricRow) : (updMetric n f s).boot = s.boot := by unfold updMetric; rfl
@[simp] theorem updMetric_assay (n : Nat) (f : MetricRow → MetricRow) : (updMetric n f s).assay = s.assay := by unfold updMetric; rfl
@[simp] theorem updMetric_plan (n : Nat) (f : MetricRow → MetricRow) : (updMetric n f s).plan = s.plan := by unfold updMetric; rfl
@[simp] theorem updMetric_mem (n : Nat) (f : MetricRow → MetricRow) : (updMetric n f s).mem = s.mem := by unfold updMetric; rfl
@[simp] theorem updMetric_wired (n : Nat) (f : MetricRow → MetricRow) : (updMetric n f s).wired = s.wired := by unfold updMetric; rfl
@[simp] theorem updMetric_front (n : Nat) (f : MetricRow → MetricRow) : (updMetric n f s).front = s.front := by unfold updMetric; rfl
@[simp] theorem updMetric_field (n : Nat) (f : MetricRow → MetricRow) : (updMetric n f s).field = s.field := by unfold updMetric; rfl
@[simp] theorem updMetric_pole (n : Nat) (f : MetricRow → MetricRow) : (updMetric n f s).pole = s.pole := by unfold updMetric; rfl
@[simp] theorem updMetric_kept (n : Nat) (f : MetricRow → MetricRow) : (updMetric n f s).kept = s.kept := by unfold updMetric; rfl
@[simp] theorem updMetric_next (n : Nat) (f : MetricRow → MetricRow) : (updMetric n f s).next = s.next := by unfold updMetric; rfl
@[simp] theorem updMetric_outbox (n : Nat) (f : MetricRow → MetricRow) : (updMetric n f s).outbox = s.outbox := by unfold updMetric; rfl
@[simp] theorem updMetric_draws (n : Nat) (f : MetricRow → MetricRow) : (updMetric n f s).draws = s.draws := by unfold updMetric; rfl
@[simp] theorem updMetric_pending (n : Nat) (f : MetricRow → MetricRow) : (updMetric n f s).pending = s.pending := by unfold updMetric; rfl

/-! `senseMedium` -/

@[simp] theorem senseMedium_time (r : Nat) (cca : List (Int × Option Int)) : (senseMedium r cca s).time = s.time := by unfold senseMedium; rfl
@[simp] theorem senseMedium_stw (r : Nat) (cca : List (Int × Option Int)) : (senseMedium r cca s).stw = s.stw := by unfold senseMedium; rfl
@[simp] theorem senseMedium_power (r : Nat) (cca : List (Int × Option Int)) : (senseMedium r cca s).power = s.power := by unfold senseMedium; rfl
@[simp] theorem senseMedium_boot (r : Nat) (cca : List (Int × Option Int)) : (senseMedium r cca s).boot = s.boot := by unfold senseMedium; rfl
@[simp] theorem senseMedium_assay (r : Nat) (cca : List (Int × Option Int)) : (senseMedium r cca s).assay = s.assay := by unfold senseMedium; rfl
@[simp] theorem senseMedium_plan (r : Nat) (cca : List (Int × Option Int)) : (senseMedium r cca s).plan = s.plan := by unfold senseMedium; rfl
@[simp] theorem senseMedium_mem (r : Nat) (cca : List (Int × Option Int)) : (senseMedium r cca s).mem = s.mem := by unfold senseMedium; rfl
@[simp] theorem senseMedium_wired (r : Nat) (cca : List (Int × Option Int)) : (senseMedium r cca s).wired = s.wired := by unfold senseMedium; rfl
@[simp] theorem senseMedium_front (r : Nat) (cca : List (Int × Option Int)) : (senseMedium r cca s).front = s.front := by unfold senseMedium; rfl
@[simp] theorem senseMedium_field (r : Nat) (cca : List (Int × Option Int)) : (senseMedium r cca s).field = s.field := by unfold senseMedium; rfl
@[simp] theorem senseMedium_pole (r : Nat) (cca : List (Int × Option Int)) : (senseMedium r cca s).pole = s.pole := by unfold senseMedium; rfl
@[simp] theorem senseMedium_kept (r : Nat) (cca : List (Int × Option Int)) : (senseMedium r cca s).kept = s.kept := by unfold senseMedium; rfl
@[simp] theorem senseMedium_next (r : Nat) (cca : List (Int × Option Int)) : (senseMedium r cca s).next = s.next := by unfold senseMedium; rfl
@[simp] theorem senseMedium_outbox (r : Nat) (cca : List (Int × Option Int)) : (senseMedium r cca s).outbox = s.outbox := by unfold senseMedium; rfl
@[simp] theorem senseMedium_draws (r : Nat) (cca : List (Int × Option Int)) : (senseMedium r cca s).draws = s.draws := by unfold senseMedium; rfl
@[simp] theorem senseMedium_pending (r : Nat) (cca : List (Int × Option Int)) : (senseMedium r cca s).pending = s.pending := by unfold senseMedium; rfl

/-! `watchForce` -/

@[simp] theorem watchForce_time (c : Nat) (was now : Bool) : (watchForce c was now s).time = s.time := by unfold watchForce; split <;> rfl
@[simp] theorem watchForce_stw (c : Nat) (was now : Bool) : (watchForce c was now s).stw = s.stw := by unfold watchForce; split <;> rfl
@[simp] theorem watchForce_power (c : Nat) (was now : Bool) : (watchForce c was now s).power = s.power := by unfold watchForce; split <;> rfl
@[simp] theorem watchForce_boot (c : Nat) (was now : Bool) : (watchForce c was now s).boot = s.boot := by unfold watchForce; split <;> rfl
@[simp] theorem watchForce_assay (c : Nat) (was now : Bool) : (watchForce c was now s).assay = s.assay := by unfold watchForce; split <;> rfl
@[simp] theorem watchForce_plan (c : Nat) (was now : Bool) : (watchForce c was now s).plan = s.plan := by unfold watchForce; split <;> rfl
@[simp] theorem watchForce_mem (c : Nat) (was now : Bool) : (watchForce c was now s).mem = s.mem := by unfold watchForce; split <;> rfl
@[simp] theorem watchForce_wired (c : Nat) (was now : Bool) : (watchForce c was now s).wired = s.wired := by unfold watchForce; split <;> rfl
@[simp] theorem watchForce_front (c : Nat) (was now : Bool) : (watchForce c was now s).front = s.front := by unfold watchForce; split <;> rfl
@[simp] theorem watchForce_wide (c : Nat) (was now : Bool) : (watchForce c was now s).wide = s.wide := by unfold watchForce; split <;> rfl
@[simp] theorem watchForce_pole (c : Nat) (was now : Bool) : (watchForce c was now s).pole = s.pole := by unfold watchForce; split <;> rfl
@[simp] theorem watchForce_kept (c : Nat) (was now : Bool) : (watchForce c was now s).kept = s.kept := by unfold watchForce; split <;> rfl
@[simp] theorem watchForce_next (c : Nat) (was now : Bool) : (watchForce c was now s).next = s.next := by unfold watchForce; split <;> rfl
@[simp] theorem watchForce_outbox (c : Nat) (was now : Bool) : (watchForce c was now s).outbox = s.outbox := by unfold watchForce; split <;> rfl
@[simp] theorem watchForce_draws (c : Nat) (was now : Bool) : (watchForce c was now s).draws = s.draws := by unfold watchForce; split <;> rfl
@[simp] theorem watchForce_pending (c : Nat) (was now : Bool) : (watchForce c was now s).pending = s.pending := by unfold watchForce; split <;> rfl

/-! `shiftWaits` -/

@[simp] theorem shiftWaits_time (d : Int) : (shiftWaits d s).time = s.time := by unfold shiftWaits; rfl
@[simp] theorem shiftWaits_boot (d : Int) : (shiftWaits d s).boot = s.boot := by unfold shiftWaits; rfl
@[simp] theorem shiftWaits_wired (d : Int) : (shiftWaits d s).wired = s.wired := by unfold shiftWaits; rfl
@[simp] theorem shiftWaits_front (d : Int) : (shiftWaits d s).front = s.front := by unfold shiftWaits; rfl
@[simp] theorem shiftWaits_pole (d : Int) : (shiftWaits d s).pole = s.pole := by unfold shiftWaits; rfl
@[simp] theorem shiftWaits_outbox (d : Int) : (shiftWaits d s).outbox = s.outbox := by unfold shiftWaits; rfl
@[simp] theorem shiftWaits_draws (d : Int) : (shiftWaits d s).draws = s.draws := by unfold shiftWaits; rfl
@[simp] theorem shiftWaits_pending (d : Int) : (shiftWaits d s).pending = s.pending := by unfold shiftWaits; rfl

/-! `calCount` -/

@[simp] theorem calCount_time (t k : Nat) : (calCount t k s).time = s.time := by unfold calCount; split <;> rfl
@[simp] theorem calCount_stw (t k : Nat) : (calCount t k s).stw = s.stw := by unfold calCount; split <;> rfl
@[simp] theorem calCount_power (t k : Nat) : (calCount t k s).power = s.power := by unfold calCount; split <;> rfl
@[simp] theorem calCount_boot (t k : Nat) : (calCount t k s).boot = s.boot := by unfold calCount; split <;> rfl
@[simp] theorem calCount_assay (t k : Nat) : (calCount t k s).assay = s.assay := by unfold calCount; split <;> rfl
@[simp] theorem calCount_plan (t k : Nat) : (calCount t k s).plan = s.plan := by unfold calCount; split <;> rfl
@[simp] theorem calCount_mem (t k : Nat) : (calCount t k s).mem = s.mem := by unfold calCount; split <;> rfl
@[simp] theorem calCount_wired (t k : Nat) : (calCount t k s).wired = s.wired := by unfold calCount; split <;> rfl
@[simp] theorem calCount_field (t k : Nat) : (calCount t k s).field = s.field := by unfold calCount; split <;> rfl
@[simp] theorem calCount_wide (t k : Nat) : (calCount t k s).wide = s.wide := by unfold calCount; split <;> rfl
@[simp] theorem calCount_pole (t k : Nat) : (calCount t k s).pole = s.pole := by unfold calCount; split <;> rfl
@[simp] theorem calCount_kept (t k : Nat) : (calCount t k s).kept = s.kept := by unfold calCount; split <;> rfl
@[simp] theorem calCount_next (t k : Nat) : (calCount t k s).next = s.next := by unfold calCount; split <;> rfl
@[simp] theorem calCount_outbox (t k : Nat) : (calCount t k s).outbox = s.outbox := by unfold calCount; split <;> rfl
@[simp] theorem calCount_draws (t k : Nat) : (calCount t k s).draws = s.draws := by unfold calCount; split <;> rfl
@[simp] theorem calCount_pending (t k : Nat) : (calCount t k s).pending = s.pending := by unfold calCount; split <;> rfl

/-! `setWaiting` -/

@[simp] theorem setWaiting_time (src kind chains : Nat) : (setWaiting src kind chains s).time = s.time := by unfold setWaiting; rfl
@[simp] theorem setWaiting_stw (src kind chains : Nat) : (setWaiting src kind chains s).stw = s.stw := by unfold setWaiting; rfl
@[simp] theorem setWaiting_power (src kind chains : Nat) : (setWaiting src kind chains s).power = s.power := by unfold setWaiting; rfl
@[simp] theorem setWaiting_boot (src kind chains : Nat) : (setWaiting src kind chains s).boot = s.boot := by unfold setWaiting; rfl
@[simp] theorem setWaiting_assay (src kind chains : Nat) : (setWaiting src kind chains s).assay = s.assay := by unfold setWaiting; rfl
@[simp] theorem setWaiting_plan (src kind chains : Nat) : (setWaiting src kind chains s).plan = s.plan := by unfold setWaiting; rfl
@[simp] theorem setWaiting_mem (src kind chains : Nat) : (setWaiting src kind chains s).mem = s.mem := by unfold setWaiting; rfl
@[simp] theorem setWaiting_wired (src kind chains : Nat) : (setWaiting src kind chains s).wired = s.wired := by unfold setWaiting; rfl
@[simp] theorem setWaiting_field (src kind chains : Nat) : (setWaiting src kind chains s).field = s.field := by unfold setWaiting; rfl
@[simp] theorem setWaiting_wide (src kind chains : Nat) : (setWaiting src kind chains s).wide = s.wide := by unfold setWaiting; rfl
@[simp] theorem setWaiting_pole (src kind chains : Nat) : (setWaiting src kind chains s).pole = s.pole := by unfold setWaiting; rfl
@[simp] theorem setWaiting_kept (src kind chains : Nat) : (setWaiting src kind chains s).kept = s.kept := by unfold setWaiting; rfl
@[simp] theorem setWaiting_next (src kind chains : Nat) : (setWaiting src kind chains s).next = s.next := by unfold setWaiting; rfl
@[simp] theorem setWaiting_outbox (src kind chains : Nat) : (setWaiting src kind chains s).outbox = s.outbox := by unfold setWaiting; rfl
@[simp] theorem setWaiting_draws (src kind chains : Nat) : (setWaiting src kind chains s).draws = s.draws := by unfold setWaiting; rfl
@[simp] theorem setWaiting_pending (src kind chains : Nat) : (setWaiting src kind chains s).pending = s.pending := by unfold setWaiting; rfl

/-! `watchPend` -/

@[simp] theorem watchPend_time (q : Nat) (f : State → State) : (watchPend q f s).time = (f s).time := by
  unfold watchPend; dsimp only; split <;> rfl
@[simp] theorem watchPend_stw (q : Nat) (f : State → State) : (watchPend q f s).stw = (f s).stw := by
  unfold watchPend; dsimp only; split <;> rfl
@[simp] theorem watchPend_power (q : Nat) (f : State → State) : (watchPend q f s).power = (f s).power := by
  unfold watchPend; dsimp only; split <;> rfl
@[simp] theorem watchPend_boot (q : Nat) (f : State → State) : (watchPend q f s).boot = (f s).boot := by
  unfold watchPend; dsimp only; split <;> rfl
@[simp] theorem watchPend_assay (q : Nat) (f : State → State) : (watchPend q f s).assay = (f s).assay := by
  unfold watchPend; dsimp only; split <;> rfl
@[simp] theorem watchPend_plan (q : Nat) (f : State → State) : (watchPend q f s).plan = (f s).plan := by
  unfold watchPend; dsimp only; split <;> rfl
@[simp] theorem watchPend_mem (q : Nat) (f : State → State) : (watchPend q f s).mem = (f s).mem := by
  unfold watchPend; dsimp only; split <;> rfl
@[simp] theorem watchPend_wired (q : Nat) (f : State → State) : (watchPend q f s).wired = (f s).wired := by
  unfold watchPend; dsimp only; split <;> rfl
@[simp] theorem watchPend_front (q : Nat) (f : State → State) : (watchPend q f s).front = (f s).front := by
  unfold watchPend; dsimp only; split <;> rfl
@[simp] theorem watchPend_wide (q : Nat) (f : State → State) : (watchPend q f s).wide = (f s).wide := by
  unfold watchPend; dsimp only; split <;> rfl
@[simp] theorem watchPend_pole (q : Nat) (f : State → State) : (watchPend q f s).pole = (f s).pole := by
  unfold watchPend; dsimp only; split <;> rfl
@[simp] theorem watchPend_kept (q : Nat) (f : State → State) : (watchPend q f s).kept = (f s).kept := by
  unfold watchPend; dsimp only; split <;> rfl
@[simp] theorem watchPend_next (q : Nat) (f : State → State) : (watchPend q f s).next = (f s).next := by
  unfold watchPend; dsimp only; split <;> rfl
@[simp] theorem watchPend_outbox (q : Nat) (f : State → State) : (watchPend q f s).outbox = (f s).outbox := by
  unfold watchPend; dsimp only; split <;> rfl
@[simp] theorem watchPend_draws (q : Nat) (f : State → State) : (watchPend q f s).draws = (f s).draws := by
  unfold watchPend; dsimp only; split <;> rfl
@[simp] theorem watchPend_pending (q : Nat) (f : State → State) : (watchPend q f s).pending = (f s).pending := by
  unfold watchPend; dsimp only; split <;> rfl

end Sys2Proof.Laws
end

