-- ==== Sys2Proof/Laws/Steward.lean ====
section
/-! SUPPORT. What `act`, `submit` and `deliver` do, said once: the lemmas that claims about the commands cite. -/

namespace Sys2Proof.Laws
open Machine

theorem act_alive {f : State → State} {s : State} (h : alive s = true) : act f s = .next (settle (apart f s)) := by
  unfold act; rw [if_pos h]

theorem act_held {f : State → State} {s : State} (h : alive s = false) : act f s = .next (settle { s with outbox := [] }) := by
  unfold act; rw [if_neg (by simp [h])]

theorem modify_modify {α : Type} {n : Nat} (v : Vector α n) (k : Nat) (f g : α → α) :
    Bank.modify (Bank.modify v k f) k g = Bank.modify v k (fun x => g (f x)) := by
  unfold Bank.modify
  split
  · next h => simp [Vector.set]
  · rfl

theorem modify_congr {α : Type} {n : Nat} (v : Vector α n) (k : Nat) (f g : α → α) (d : α) (h : f (v.getD k d) = g (v.getD k d)) :
    Bank.modify v k f = Bank.modify v k g := by
  unfold Bank.modify
  split
  · next hk => rw [getD_eq, dif_pos hk] at h; rw [h]
  · rfl

/-! ### Acceptance -/

theorem acceptedNow_iff (c : Cmd) (s : State) : acceptedNow c s = true ↔
    alive s = true ∧ windowUp s = true ∧ c.lane < 4 ∧ c.slot < 16 ∧ (s.lane c.lane).claimed = true ∧
      (s.slot c.lane c.slot).phase = .free ∧ (s.lane c.lane).order = [] ∧ serving s = true := by
  simp [acceptedNow, and_assoc]

theorem serving_coresRun {s : State} (h : serving s = true) : coresRun s = true := by
  unfold serving at h; simp at h; exact h.2

theorem serving_state {s : State} (h : serving s = true) : s.stw.state = .ready ∨ s.stw.state = .recovery := by
  unfold serving at h; simp at h; exact h.1

/-- While the cores run no entry is at a step at which a doorbell wakes. -/
theorem doorbellWake_serving {n : Nat} {s : State} (h : coresRun s = true) : doorbellWake n s = s := by
  unfold doorbellWake
  split
  · next e he =>
    rw [if_neg]
    unfold coresRun at h
    rw [he] at h
    simp at h
    omega
  · rfl

/-! ### Lanes and slots -/

@[simp] theorem lane_updLane (n m : Nat) (f : Lane → Lane) (s : State) :
    (updLane n f s).lane m = if m = n ∧ n < 4 then f (s.lane n) else s.lane m := by
  unfold State.lane updLane; exact getD_modify ..

@[simp] theorem slot_updSlot (n k m j : Nat) (f : Slot → Slot) (s : State) :
    (updSlot n k f s).slot m j = if m = n ∧ n < 4 ∧ j = k ∧ k < 16 then f (s.slot n k) else s.slot m j := by
  unfold State.slot updSlot
  rw [lane_updLane]
  split
  · next h => simp only [getD_modify]; grind
  · next h => grind

/-- Two changes of one slot are one. -/
theorem updSlot_eq (n k : Nat) (f : Slot → Slot) (s : State) :
    updSlot n k f s = updLane n (fun l => { l with slots := Bank.modify l.slots k f }) s := rfl

theorem updLane_updLane (n : Nat) (f g : Lane → Lane) (s : State) : updLane n g (updLane n f s) = updLane n (fun l => g (f l)) s := by
  unfold updLane; simp only [modify_modify]

@[simp] theorem settle_lane (s : State) (n : Nat) : (settle s).lane n = s.lane n := by unfold State.lane; rw [settle_stw_lanes]
@[simp] theorem settle_slot (s : State) (n k : Nat) : (settle s).slot n k = s.slot n k := by unfold State.slot; rw [settle_lane]

/-- Only the state of the Steward interface says what the lanes hold. -/
theorem lane_of_stw {s t : State} (h : s.stw.lanes = t.stw.lanes) (n : Nat) : s.lane n = t.lane n := by unfold State.lane; rw [h]

theorem alive_of_boot {s t : State} (h : s.boot = t.boot) : alive s = alive t := by unfold alive; rw [h]
theorem windowUp_of {s t : State} (h : s.boot = t.boot) (h2 : s.power = t.power) : windowUp s = windowUp t := by
  unfold windowUp; rw [h, h2]
theorem coresRun_of {s t : State} (h : s.power = t.power) : coresRun s = coresRun t := by unfold coresRun; rw [h]
theorem serving_of {s t : State} (h : s.power = t.power) (h2 : s.stw.state = t.stw.state) : serving s = serving t := by
  unfold serving; rw [coresRun_of h, h2]

@[simp] theorem serving_updLane (n : Nat) (f : Lane → Lane) (s : State) : serving (updLane n f s) = serving s :=
  serving_of (by simp) rfl
@[simp] theorem coresRun_updLane (n : Nat) (f : Lane → Lane) (s : State) : coresRun (updLane n f s) = coresRun s := coresRun_of (by simp)
@[simp] theorem laneCfg_updLane (n m : Nat) (f : Lane → Lane) (s : State) : (updLane n f s).laneCfg m = s.laneCfg m := by
  unfold State.laneCfg; simp
@[simp] theorem nextJob_updLane (n : Nat) (f : Lane → Lane) (s : State) : (updLane n f s).stw.nextJob = s.stw.nextJob := rfl
@[simp] theorem beat_updLane (n : Nat) (f : Lane → Lane) (s : State) : (updLane n f s).beat = s.beat := by
  unfold State.beat State.ns; simp

theorem updLane_congr {n : Nat} {f g : Lane → Lane} {s : State} (h : f (s.lane n) = g (s.lane n)) : updLane n f s = updLane n g s := by
  unfold updLane; rw [modify_congr _ _ f g {} h]

/-- A doorbell of a free slot of a claimed lane, nothing else waiting, while the cores run. -/
theorem ringSlot_free {n k : Nat} {s : State} (hn : n < 4) (hc : (s.lane n).claimed = true) (hp : (s.slot n k).phase = .free)
    (ho : (s.lane n).order = []) (hr : coresRun s = true) (hf : s.stw.state ≠ .fault) :
    ringSlot n k s = updLane n (fun l => { l with
      slots := Bank.modify l.slots k (fun x => { x with phase := .held, accepted := false }), order := [k],
      leaseLeft := (s.laneCfg n).leaseBeats, wdogLeft := (s.laneCfg n).wdogBeats, wdogExpired := false }) s := by
  unfold ringSlot
  rw [if_neg (by simp [hc, hf]), if_neg (by simp [hp])]
  simp only [updSlot_eq, updLane_updLane]
  unfold renewLane
  rw [if_pos (by simp [hn, hc])]
  rw [doorbellWake_serving (by rw [← hr]; apply coresRun_of; simp)]
  simp only [updLane_updLane, State.laneCfg, updLane_kept]
  apply updLane_congr
  simp [ho]

/-- The job that a command accepted at once becomes. -/
def jobOf (op : Nat) (c : Cmd) (s : State) : Job :=
  { id := s.stw.nextJob, lane := c.lane, slot := c.slot, opcode := op, cmd := c, acceptBeat := s.beat % 2 ^ 32 }

/-- The work of a command from the state in which it starts: answered, or left open. -/
def afterWork (op : Nat) (c : Cmd) (s : State) : State × Verdict → State
  | (u, .reply r) => complete (s.beat + 1) (jobOf op c s) r u
  | (u, .wait cm due aux) =>
    { u with stw.jobs := u.stw.jobs ++ [{ jobOf op c s with committed := cm, due := due, aux := aux }] }

theorem afterWork_congr {op : Nat} {c : Cmd} {s t : State} (h : s.beat = t.beat) (h2 : s.stw.nextJob = t.stw.nextJob) (x : State × Verdict) :
    afterWork op c s x = afterWork op c t x := by
  obtain ⟨u, v⟩ := x
  cases v <;> simp [afterWork, jobOf, h, h2]

theorem accept_eq {op : Nat} {h : Handler} {c : Cmd} {x : State} (hc : (x.slot c.lane c.slot).cmd = c) :
    accept op h c.lane c.slot x = afterWork op c x (perform op h c x.stw.nextJob
      (let y := updLane c.lane (fun l => { l with
        slots := Bank.modify l.slots c.slot (fun z => { z with accepted := true }),
        order := l.order.filter (· ≠ c.slot), cmdCnt := satInc 32 l.cmdCnt }) x
       { y with stw.nextJob := x.stw.nextJob + 1 })) := by
  unfold accept
  rw [hc]
  simp only [updSlot_eq, updLane_updLane]
  generalize perform _ _ _ _ _ = r
  obtain ⟨u, v⟩ := r
  cases v <;> rfl

theorem modify_id {α : Type} {n : Nat} (v : Vector α n) (k : Nat) (f g : α → α) (h : ∀ x, f x = g x) :
    Bank.modify v k f = Bank.modify v k g := by rw [show f = g from funext h]

/-- A command that is accepted at once: its work, from the state `taken`. -/
theorem submit_accepted {op : Nat} {h : Handler} {c : Cmd} {s : State} (ha : acceptedNow c s = true) :
    submit op h c { s with outbox := [], pending := [] } = afterWork op c s (perform op h c s.stw.nextJob (taken op c s)) := by
  obtain ⟨_, hw, hl, hk, hc, hp, ho, hs⟩ := (acceptedNow_iff c s).1 ha
  have hst : s.stw.state ≠ .fault := by rcases serving_state hs with h | h <;> simp [h]
  generalize e0 : ({ s with outbox := [], pending := [] } : State) = s0
  have h0 : s0.lane c.lane = s.lane c.lane := by subst e0; rfl
  have h1 : (s0.slot c.lane c.slot).phase = .free := by rw [← hp]; subst e0; rfl
  have h2 : s0.stw.state ≠ .fault := by subst e0; exact hst
  have h3 : windowUp s0 = true := by rw [← hw]; subst e0; rfl
  have h4 : coresRun s0 = true := by rw [← serving_coresRun hs]; subst e0; rfl
  have h5 : serving s0 = true := by rw [← hs]; subst e0; rfl
  unfold submit
  rw [if_neg (by simp [h3]; omega)]
  have hfresh : ((s0.lane c.lane).claimed && decide ((s0.slot c.lane c.slot).phase = .free) && decide (s0.stw.state ≠ .fault)) = true := by
    simp [h0, hc, h1, h2]
  simp only [hfresh, if_true, Bool.true_and]
  rw [ringSlot_free hl (by simp [hl, h0, hc]) (by unfold State.slot at h1 ⊢; simp [hl, hk, h1]) (by simp [hl, h0, ho])
    (by rw [← h4]; exact coresRun_of (by simp)) (by simpa [updLane] using h2)]
  simp only [updLane_updLane, laneCfg_updLane]
  rw [if_pos (by unfold acceptable; simp [h5, hl])]
  rw [accept_eq (by unfold State.slot; simp [hl, hk])]
  rw [afterWork_congr (t := s) (by simp; subst e0; rfl) (by simp; subst e0; rfl)]
  congr 2
  · simp; subst e0; rfl
  · simp only [updLane_updLane, nextJob_updLane]
    rw [updLane_congr (g := takenLane op c (s.laneCfg c.lane))]
    · subst e0; rfl
    · simp only [modify_modify, takenLane]
      subst e0
      simp [State.laneCfg]

/-! ### The work and the answer -/

theorem perform_good {op : Nat} {h : Handler} {c : Cmd} {id : Nat} {s : State} (hh : goodHeader c = true) (hf : goodTable h.fields c = true)
    (ha : areaServed op s = true) : perform op h c id s = h.run c id s := by
  unfold goodHeader at hh; unfold goodTable at hf
  simp at hh hf
  simp [perform, refuseEarly, hh, hf, ha]

theorem areaServed_of {op : Nat} {s : State} (h : s.stw.state ≠ .recovery) : areaServed op s = true := by
  simp [areaServed, h]

theorem alive_apart {f : State → State} {s : State} (h : alive s = true) : act f s = .next (settle (apart f s)) := act_alive h

/-! `deliver` writes the answer and changes nothing outside the Steward interface and the outbox. -/

@[simp] theorem deliver_time (j : Job) (r : Reply) (s : State) : (deliver j r s).time = s.time := by
  unfold deliver sendInband; dsimp only; split <;> (try split) <;> (try split) <;> simp
@[simp] theorem deliver_power (j : Job) (r : Reply) (s : State) : (deliver j r s).power = s.power := by
  unfold deliver sendInband; dsimp only; split <;> (try split) <;> (try split) <;> simp
@[simp] theorem deliver_boot (j : Job) (r : Reply) (s : State) : (deliver j r s).boot = s.boot := by
  unfold deliver sendInband; dsimp only; split <;> (try split) <;> (try split) <;> simp
@[simp] theorem deliver_assay (j : Job) (r : Reply) (s : State) : (deliver j r s).assay = s.assay := by
  unfold deliver sendInband; dsimp only; split <;> (try split) <;> (try split) <;> simp
@[simp] theorem deliver_plan (j : Job) (r : Reply) (s : State) : (deliver j r s).plan = s.plan := by
  unfold deliver sendInband; dsimp only; split <;> (try split) <;> (try split) <;> simp
@[simp] theorem deliver_mem (j : Job) (r : Reply) (s : State) : (deliver j r s).mem = s.mem := by
  unfold deliver sendInband; dsimp only; split <;> (try split) <;> (try split) <;> simp
@[simp] theorem deliver_wired (j : Job) (r : Reply) (s : State) : (deliver j r s).wired = s.wired := by
  unfold deliver sendInband; dsimp only; split <;> (try split) <;> (try split) <;> simp
@[simp] theorem deliver_front (j : Job) (r : Reply) (s : State) : (deliver j r s).front = s.front := by
  unfold deliver sendInband; dsimp only; split <;> (try split) <;> (try split) <;> simp
@[simp] theorem deliver_field (j : Job) (r : Reply) (s : State) : (deliver j r s).field = s.field := by
  unfold deliver sendInband; dsimp only; split <;> (try split) <;> (try split) <;> simp
@[simp] theorem deliver_wide (j : Job) (r : Reply) (s : State) : (deliver j r s).wide = s.wide := by
  unfold deliver sendInband; dsimp only; split <;> (try split) <;> (try split) <;> simp
@[simp] theorem deliver_pole (j : Job) (r : Reply) (s : State) : (deliver j r s).pole = s.pole := by
  unfold deliver sendInband; dsimp only; split <;> (try split) <;> (try split) <;> simp
@[simp] theorem deliver_kept (j : Job) (r : Reply) (s : State) : (deliver j r s).kept = s.kept := by
  unfold deliver sendInband; dsimp only; split <;> (try split) <;> (try split) <;> simp
@[simp] theorem deliver_next (j : Job) (r : Reply) (s : State) : (deliver j r s).next = s.next := by
  unfold deliver sendInband; dsimp only; split <;> (try split) <;> (try split) <;> simp
@[simp] theorem deliver_draws (j : Job) (r : Reply) (s : State) : (deliver j r s).draws = s.draws := by
  unfold deliver sendInband; dsimp only; split <;> (try split) <;> (try split) <;> simp
@[simp] theorem deliver_pending (j : Job) (r : Reply) (s : State) : (deliver j r s).pending = s.pending := by
  unfold deliver sendInband; dsimp only; split <;> (try split) <;> (try split) <;> simp

/-- Two states agree outside the Steward interface, the outbox and the queue. -/
def sameParts (s t : State) : Prop :=
  s.time = t.time ∧ s.power = t.power ∧ s.boot = t.boot ∧ s.assay = t.assay ∧ s.plan = t.plan ∧ s.mem = t.mem ∧ s.wired = t.wired ∧
  s.front = t.front ∧ s.field = t.field ∧ s.wide = t.wide ∧ s.pole = t.pole ∧ s.kept = t.kept ∧ s.next = t.next ∧ s.draws = t.draws

theorem sameParts_eq {x u : State} {p : List Instr} (h : sameParts x u) (hp : u.pending = p) :
    { x with stw := u.stw, outbox := u.outbox, pending := p } = u := by
  unfold sameParts at h
  cases x; cases u; simp_all

/-- A state that agrees with another outside the Steward interface, the outbox and the queue. -/
theorem eq_of_parts {s t : State} (p : List Instr) (h1 : t.time = s.time) (h2 : t.power = s.power) (h3 : t.boot = s.boot)
    (h4 : t.assay = s.assay) (h5 : t.plan = s.plan) (h6 : t.mem = s.mem) (h7 : t.wired = s.wired) (h8 : t.front = s.front)
    (h9 : t.field = s.field) (h10 : t.wide = s.wide) (h11 : t.pole = s.pole) (h12 : t.kept = s.kept) (h13 : t.next = s.next)
    (h14 : t.draws = s.draws) (h15 : t.pending = p) :
    t = { s with stw := t.stw, outbox := t.outbox, pending := p } := by
  cases s; cases t; simp_all

theorem deliver_slot {j : Job} {r : Reply} {s : State} (hl : j.lane < 4) (hk : j.slot < 16) :
    ((deliver j r s).slot j.lane j.slot).phase = .done ∧ ((deliver j r s).slot j.lane j.slot).response = responseBytes j r := by
  unfold deliver
  rw [if_pos hl]
  dsimp only
  split <;> split <;> simp [sendInband, emit, hl, hk, State.slot, updLane, State.lane, updSlot]

/-- A command accepted at once and answered at once. -/
theorem apart_reply {op : Nat} {h : Handler} {c : Cmd} {s u : State} {r : Reply} (ha : acceptedNow c s = true)
    (hr : perform op h c s.stw.nextJob (taken op c s) = (u, .reply r)) (hp : plain c = true ∨ r.status ≠ stOk)
    (hu : u.stw.state ≠ .restarting) :
    apart (submit op h c) s = { (deliver (jobOf op c s) r u) with pending := s.pending } := by
  unfold apart
  rw [submit_accepted ha, hr]
  unfold afterWork complete respond
  dsimp only
  have : (jobOf op c s).durable = hasBit c.flags 1 := rfl
  rw [if_neg (by
    rw [this]; unfold plain at hp
    rcases hp with hp | hp <;> simp_all), if_neg hu]

/-- A command accepted at once, whose work ends with the answer `r` in state `u`, DURABLE not asked or refused: it is answered at once, and
everything outside the Steward interface and the outbox is as its work left it. -/
theorem served_reply {op : Nat} {h : Handler} {c : Cmd} {s u : State} {r : Reply} (ha : acceptedNow c s = true)
    (hr : perform op h c s.stw.nextJob (taken op c s) = (u, .reply r)) (hp : plain c = true ∨ r.status ≠ stOk)
    (hu : u.stw.state ≠ .restarting) :
    ∃ t, act (submit op h c) s = .next t ∧ answered op s.beat c r t ∧
      t = { u with stw := t.stw, outbox := t.outbox, pending := s.pending } := by
  obtain ⟨hal, _, hl, hk, _⟩ := (acceptedNow_iff c s).1 ha
  refine ⟨_, act_alive hal, ?_, ?_⟩
  · unfold answered
    rw [settle_slot, apart_reply ha hr hp hu]
    exact deliver_slot (j := jobOf op c s) hl hk
  · rw [apart_reply ha hr hp hu]
    apply eq_of_parts <;> simp

theorem readyFor_iff (c : Cmd) (s : State) : readyFor c s = true ↔
    acceptedNow c s = true ∧ goodHeader c = true ∧ plain c = true ∧ s.stw.state = .ready := by
  simp [readyFor, and_assoc]

/-! The state in which the work of a command starts differs from the state it is sent to in the Steward interface only. -/

@[simp] theorem taken_time (op : Nat) (c : Cmd) (s : State) : (taken op c s).time = s.time := by unfold taken; rfl
@[simp] theorem taken_power (op : Nat) (c : Cmd) (s : State) : (taken op c s).power = s.power := by unfold taken; rfl
@[simp] theorem taken_boot (op : Nat) (c : Cmd) (s : State) : (taken op c s).boot = s.boot := by unfold taken; rfl
@[simp] theorem taken_assay (op : Nat) (c : Cmd) (s : State) : (taken op c s).assay = s.assay := by unfold taken; rfl
@[simp] theorem taken_plan (op : Nat) (c : Cmd) (s : State) : (taken op c s).plan = s.plan := by unfold taken; rfl
@[simp] theorem taken_mem (op : Nat) (c : Cmd) (s : State) : (taken op c s).mem = s.mem := by unfold taken; rfl
@[simp] theorem taken_wired (op : Nat) (c : Cmd) (s : State) : (taken op c s).wired = s.wired := by unfold taken; rfl
@[simp] theorem taken_front (op : Nat) (c : Cmd) (s : State) : (taken op c s).front = s.front := by unfold taken; rfl
@[simp] theorem taken_field (op : Nat) (c : Cmd) (s : State) : (taken op c s).field = s.field := by unfold taken; rfl
@[simp] theorem taken_wide (op : Nat) (c : Cmd) (s : State) : (taken op c s).wide = s.wide := by unfold taken; rfl
@[simp] theorem taken_pole (op : Nat) (c : Cmd) (s : State) : (taken op c s).pole = s.pole := by unfold taken; rfl
@[simp] theorem taken_kept (op : Nat) (c : Cmd) (s : State) : (taken op c s).kept = s.kept := by unfold taken; rfl
@[simp] theorem taken_next (op : Nat) (c : Cmd) (s : State) : (taken op c s).next = s.next := by unfold taken; rfl
@[simp] theorem taken_draws (op : Nat) (c : Cmd) (s : State) : (taken op c s).draws = s.draws := by unfold taken; rfl
@[simp] theorem taken_beat (op : Nat) (c : Cmd) (s : State) : (taken op c s).beat = s.beat := by unfold State.beat State.ns; simp
@[simp] theorem taken_ns (op : Nat) (c : Cmd) (s : State) : (taken op c s).ns = s.ns := by unfold State.ns; simp
@[simp] theorem taken_frac (op : Nat) (c : Cmd) (s : State) : (taken op c s).frac = s.frac := by unfold State.frac; simp
@[simp] theorem taken_phase (op : Nat) (c : Cmd) (s : State) : (taken op c s).phase = s.phase := by unfold State.phase State.ns; simp
@[simp] theorem taken_stamp (op : Nat) (c : Cmd) (s : State) : (taken op c s).stamp = s.stamp := by unfold State.stamp State.ns State.frac; simp
@[simp] theorem taken_tbc (op : Nat) (c : Cmd) (s : State) : (taken op c s).tbc = s.tbc := by unfold State.tbc; simp
@[simp] theorem taken_stw_state (op : Nat) (c : Cmd) (s : State) : (taken op c s).stw.state = s.stw.state := by unfold taken; rfl
@[simp] theorem taken_stw_jobs (op : Nat) (c : Cmd) (s : State) : (taken op c s).stw.jobs = s.stw.jobs := by unfold taken; rfl
@[simp] theorem taken_stw_events (op : Nat) (c : Cmd) (s : State) : (taken op c s).stw.events = s.stw.events := by unfold taken; rfl
@[simp] theorem taken_stw_sticky (op : Nat) (c : Cmd) (s : State) : (taken op c s).stw.sticky = s.stw.sticky := by unfold taken; rfl
@[simp] theorem taken_stw_enMsix (op : Nat) (c : Cmd) (s : State) : (taken op c s).stw.enMsix = s.stw.enMsix := by unfold taken; rfl
@[simp] theorem taken_stw_enPin (op : Nat) (c : Cmd) (s : State) : (taken op c s).stw.enPin = s.stw.enPin := by unfold taken; rfl
@[simp] theorem taken_stw_warmReq (op : Nat) (c : Cmd) (s : State) : (taken op c s).stw.warmReq = s.stw.warmReq := by unfold taken; rfl
@[simp] theorem taken_stw_restartReq (op : Nat) (c : Cmd) (s : State) : (taken op c s).stw.restartReq = s.stw.restartReq := by unfold taken; rfl

@[simp] theorem taken_stw_restoreSrc (op : Nat) (c : Cmd) (s : State) : (taken op c s).stw.restoreSrc = s.stw.restoreSrc := by unfold taken; rfl
@[simp] theorem taken_stw_imageSlot (op : Nat) (c : Cmd) (s : State) : (taken op c s).stw.imageSlot = s.stw.imageSlot := by unfold taken; rfl
@[simp] theorem taken_stw_trialBoot (op : Nat) (c : Cmd) (s : State) : (taken op c s).stw.trialBoot = s.stw.trialBoot := by unfold taken; rfl
@[simp] theorem taken_stw_faultCode (op : Nat) (c : Cmd) (s : State) : (taken op c s).stw.faultCode = s.stw.faultCode := by unfold taken; rfl
@[simp] theorem taken_stw_lastReset (op : Nat) (c : Cmd) (s : State) : (taken op c s).stw.lastReset = s.stw.lastReset := by unfold taken; rfl
@[simp] theorem taken_stw_causeNewStk (op : Nat) (c : Cmd) (s : State) : (taken op c s).stw.causeNewStk = s.stw.causeNewStk := by unfold taken; rfl
@[simp] theorem taken_stw_heartbeat (op : Nat) (c : Cmd) (s : State) : (taken op c s).stw.heartbeat = s.stw.heartbeat := by unfold taken; rfl
@[simp] theorem taken_stw_heartBeats (op : Nat) (c : Cmd) (s : State) : (taken op c s).stw.heartBeats = s.stw.heartBeats := by unfold taken; rfl
@[simp] theorem taken_stw_scratch (op : Nat) (c : Cmd) (s : State) : (taken op c s).stw.scratch = s.stw.scratch := by unfold taken; rfl
@[simp] theorem taken_stw_fwVersion (op : Nat) (c : Cmd) (s : State) : (taken op c s).stw.fwVersion = s.stw.fwVersion := by unfold taken; rfl
@[simp] theorem taken_stw_fwBuild (op : Nat) (c : Cmd) (s : State) : (taken op c s).stw.fwBuild = s.stw.fwBuild := by unfold taken; rfl
@[simp] theorem taken_stw_restartCnt (op : Nat) (c : Cmd) (s : State) : (taken op c s).stw.restartCnt = s.stw.restartCnt := by unfold taken; rfl
@[simp] theorem taken_stw_ingotWriteCnt (op : Nat) (c : Cmd) (s : State) : (taken op c s).stw.ingotWriteCnt = s.stw.ingotWriteCnt := by unfold taken; rfl
@[simp] theorem taken_stw_ingotFailCnt (op : Nat) (c : Cmd) (s : State) : (taken op c s).stw.ingotFailCnt = s.stw.ingotFailCnt := by unfold taken; rfl
@[simp] theorem taken_stw_inbandAuthFailCnt (op : Nat) (c : Cmd) (s : State) : (taken op c s).stw.inbandAuthFailCnt = s.stw.inbandAuthFailCnt := by unfold taken; rfl
@[simp] theorem taken_stw_debugCrcErrCnt (op : Nat) (c : Cmd) (s : State) : (taken op c s).stw.debugCrcErrCnt = s.stw.debugCrcErrCnt := by unfold taken; rfl
@[simp] theorem taken_stw_uptime (op : Nat) (c : Cmd) (s : State) : (taken op c s).stw.uptime = s.stw.uptime := by unfold taken; rfl
@[simp] theorem taken_stw_batchBeat (op : Nat) (c : Cmd) (s : State) : (taken op c s).stw.batchBeat = s.stw.batchBeat := by unfold taken; rfl
@[simp] theorem taken_stw_pushPull (op : Nat) (c : Cmd) (s : State) : (taken op c s).stw.pushPull = s.stw.pushPull := by unfold taken; rfl
@[simp] theorem taken_stw_msixPrev (op : Nat) (c : Cmd) (s : State) : (taken op c s).stw.msixPrev = s.stw.msixPrev := by unfold taken; rfl
@[simp] theorem taken_stw_restartCause (op : Nat) (c : Cmd) (s : State) : (taken op c s).stw.restartCause = s.stw.restartCause := by unfold taken; rfl
@[simp] theorem taken_stw_restartBeats (op : Nat) (c : Cmd) (s : State) : (taken op c s).stw.restartBeats = s.stw.restartBeats := by unfold taken; rfl
@[simp] theorem taken_stw_changePending (op : Nat) (c : Cmd) (s : State) : (taken op c s).stw.changePending = s.stw.changePending := by unfold taken; rfl
@[simp] theorem taken_stw_quietBeats (op : Nat) (c : Cmd) (s : State) : (taken op c s).stw.quietBeats = s.stw.quietBeats := by unfold taken; rfl
@[simp] theorem taken_stw_pendingBeats (op : Nat) (c : Cmd) (s : State) : (taken op c s).stw.pendingBeats = s.stw.pendingBeats := by unfold taken; rfl
@[simp] theorem taken_stw_saveNow (op : Nat) (c : Cmd) (s : State) : (taken op c s).stw.saveNow = s.stw.saveNow := by unfold taken; rfl
@[simp] theorem taken_stw_nextJob (op : Nat) (c : Cmd) (s : State) : (taken op c s).stw.nextJob = s.stw.nextJob + 1 := by unfold taken; rfl

/-- Beside lanes and the count of commands accepted, `taken` leaves the Steward interface as it is. -/
theorem taken_stw (op : Nat) (c : Cmd) (s : State) :
    (taken op c s).stw = { s.stw with lanes := (taken op c s).stw.lanes, nextJob := s.stw.nextJob + 1 } := by unfold taken; rfl

theorem taken_slot_other (op : Nat) (c : Cmd) (s : State) (n k : Nat) (h : ¬ (n = c.lane ∧ k = c.slot)) :
    (taken op c s).slot n k = s.slot n k := by
  unfold State.slot State.lane taken takenLane
  simp only [getD_modify]
  split
  · simp only [getD_modify]; grind
  · rfl

theorem lane_eq_of {s t : State} (h : s.stw = t.stw) (n k : Nat) : s.slot n k = t.slot n k := by unfold State.slot State.lane; rw [h]

theorem deliver_stw (j : Job) (r : Reply) (s : State) : (deliver j r s).stw = { s.stw with lanes := (deliver j r s).stw.lanes } := by
  unfold deliver sendInband updSlot updLane; dsimp only; split <;> (try split) <;> (try split) <;> rfl

theorem sendInband_slot (l k q : Nat) (b : List Byte) (s : State) (n i : Nat) : (sendInband l k q b s).slot n i = s.slot n i := by
  unfold sendInband emit State.slot State.lane updLane
  simp only [getD_modify]; split <;> simp_all

theorem deliver_slot_other {j : Job} {r : Reply} {s : State} {n k : Nat} (h : ¬ (n = j.lane ∧ k = j.slot)) :
    (deliver j r s).slot n k = s.slot n k := by
  unfold deliver
  dsimp only
  split
  · have key : ∀ x : State, x.slot n k = s.slot n k →
        (updLane j.lane (fun l => { l with abandonCnt := satInc 32 l.abandonCnt }) x).slot n k = s.slot n k := by
      intro x hx; rw [← hx]; unfold State.slot; rw [lane_updLane]; split <;> simp_all
    have base : (updSlot j.lane j.slot (fun x => { x with phase := .done, accepted := false, response := responseBytes j r }) s).slot n k
        = s.slot n k := by rw [slot_updSlot, if_neg (by grind)]
    split <;> split
    · rw [sendInband_slot]; exact key _ base
    · rw [sendInband_slot]; exact base
    · exact key _ base
    · exact base
  · rfl

theorem sendInband_lane (l k q : Nat) (b : List Byte) (s : State) (n : Nat) (h : n ≠ l) : (sendInband l k q b s).lane n = s.lane n := by
  unfold sendInband emit State.lane updLane
  simp only [getD_modify]; rw [if_neg (by simp [h])]

theorem deliver_lane_other {j : Job} {r : Reply} {s : State} {n : Nat} (h : n ≠ j.lane) : (deliver j r s).lane n = s.lane n := by
  unfold deliver
  dsimp only
  split
  · have key : ∀ (f : Lane → Lane) (x : State), (updLane j.lane f x).lane n = x.lane n := by
      intro f x; rw [lane_updLane, if_neg (by simp [h])]
    split <;> split
    · rw [sendInband_lane _ _ _ _ _ _ h, key, updSlot_eq, key]
    · rw [sendInband_lane _ _ _ _ _ _ h, updSlot_eq, key]
    · rw [key, updSlot_eq, key]
    · rw [updSlot_eq, key]
  · rfl

/-- What a command that READY serves at once does, where its work, from `taken`, is an answer. -/
theorem ready_ended_stw {op : Nat} {h : Handler} {c : Cmd} {s u : State} {r : Reply} (ha : readyFor c s = true)
    (hf : goodTable h.fields c = true) (hr : (h.run c s.stw.nextJob (taken op c s)).2 = .reply r)
    (hv : (h.run c s.stw.nextJob (taken op c s)).1.stw.state ≠ .restarting)
    (hl : ∀ n k, ¬ (n = c.lane ∧ k = c.slot) → (h.run c s.stw.nextJob (taken op c s)).1.slot n k = u.slot n k)
    (hw : { (h.run c s.stw.nextJob (taken op c s)).1.stw with
      lanes := u.stw.lanes, nextJob := u.stw.nextJob, msixPrev := u.stw.msixPrev } = u.stw)
    (hu : sameParts (h.run c s.stw.nextJob (taken op c s)).1 u) (hq : u.pending = s.pending := by rfl) :
    ∃ t, act (submit op h c) s = .next t ∧ ended op c s r u t := by
  obtain ⟨h1, h2, h3, h4⟩ := (readyFor_iff c s).1 ha
  have ha : areaServed op (taken op c s) = true := areaServed_of (by rw [taken_stw_state, h4]; decide)
  obtain ⟨hal, _, hc, hk, _⟩ := (acceptedNow_iff c s).1 h1
  generalize hz : h.run c s.stw.nextJob (taken op c s) = w at hr hv hl hw hu
  obtain ⟨v, x⟩ := w
  dsimp only at hr hv hl hw hu
  subst hr
  have hp : perform op h c s.stw.nextJob (taken op c s) = (v, .reply r) := by rw [perform_good h2 hf ha, hz]
  refine ⟨_, act_alive hal, ?_, ?_, ?_⟩
  · unfold answered
    rw [settle_slot, apart_reply h1 hp (.inl h3) hv]
    exact deliver_slot (j := jobOf op c s) hc hk
  · intro n k hn
    rw [settle_slot, apart_reply h1 hp (.inl h3) hv, ← hl n k hn]
    exact deliver_slot_other (j := jobOf op c s) hn
  · rw [apart_reply h1 hp (.inl h3) hv]
    have key : ∀ y : State, y.stw = { v.stw with lanes := y.stw.lanes } → sameParts y u → y.pending = u.pending →
        settle y = { u with
          stw := { u.stw with lanes := (settle y).stw.lanes, nextJob := (settle y).stw.nextJob, msixPrev := (settle y).stw.msixPrev }
          outbox := (settle y).outbox } := by
      intro y e1 e2 e3
      unfold sameParts at e2
      rw [← hw]
      unfold settle
      dsimp only
      rw [e1]
      cases y; cases u
      grind
    apply key
    · exact deliver_stw _ _ _
    · unfold sameParts at hu ⊢; simpa using hu
    · simp [hq]

theorem ready_ended {op : Nat} {h : Handler} {c : Cmd} {s u : State} {r : Reply} (ha : readyFor c s = true)
    (hf : goodTable h.fields c = true) (hr : (h.run c s.stw.nextJob (taken op c s)).2 = .reply r)
    (hv : (h.run c s.stw.nextJob (taken op c s)).1.stw = (taken op c s).stw)
    (hu : sameParts (h.run c s.stw.nextJob (taken op c s)).1 u) (hq : u.pending = s.pending := by rfl) (hw : u.stw = s.stw := by rfl) :
    ∃ t, act (submit op h c) s = .next t ∧ ended op c s r u t := by
  obtain ⟨h1, h2, h3, h4⟩ := (readyFor_iff c s).1 ha
  refine ready_ended_stw ha hf hr ?_ ?_ ?_ hu hq
  · rw [hv, taken_stw_state, h4]; decide
  · intro n k hn
    rw [lane_eq_of hv, taken_slot_other _ _ _ _ _ hn]; exact lane_eq_of hw.symm n k
  · rw [hv, taken_stw, hw]

/-- As `ready_ended`, where the work raises events. -/
theorem ready_ended_events {op : Nat} {h : Handler} {c : Cmd} {s u : State} {r : Reply} (ha : readyFor c s = true)
    (hf : goodTable h.fields c = true) (hr : (h.run c s.stw.nextJob (taken op c s)).2 = .reply r)
    (hv : (h.run c s.stw.nextJob (taken op c s)).1.stw = { (taken op c s).stw with events := u.stw.events })
    (hu : sameParts (h.run c s.stw.nextJob (taken op c s)).1 u) (hq : u.pending = s.pending := by rfl)
    (hw : u.stw = { s.stw with events := u.stw.events } := by rfl) :
    ∃ t, act (submit op h c) s = .next t ∧ ended op c s r u t := by
  obtain ⟨h1, h2, h3, h4⟩ := (readyFor_iff c s).1 ha
  refine ready_ended_stw ha hf hr ?_ ?_ ?_ hu hq
  · rw [hv]; show (taken op c s).stw.state ≠ _; rw [taken_stw_state, h4]; decide
  · intro n k hn
    have e1 : (h.run c s.stw.nextJob (taken op c s)).1.stw.lanes = (taken op c s).stw.lanes := by rw [hv]
    have e2 : u.stw.lanes = s.stw.lanes := by rw [hw]
    have e3 := taken_slot_other op c s n k hn
    unfold State.slot State.lane at e3 ⊢
    rw [e1, e2, e3]
  · rw [hv, taken_stw]; rw [hw]

/-- As `ready_ended`, where the work changes the Steward interface outside its lanes. -/
theorem ready_ended_wide {op : Nat} {h : Handler} {c : Cmd} {s u : State} {r : Reply} (ha : readyFor c s = true)
    (hf : goodTable h.fields c = true) (hr : (h.run c s.stw.nextJob (taken op c s)).2 = .reply r)
    (hv : (h.run c s.stw.nextJob (taken op c s)).1.stw = { u.stw with lanes := (taken op c s).stw.lanes, nextJob := s.stw.nextJob + 1 })
    (hu : sameParts (h.run c s.stw.nextJob (taken op c s)).1 u) (hs : u.stw.state = .ready) (hw : u.stw.lanes = s.stw.lanes := by rfl)
    (hq : u.pending = s.pending := by rfl) :
    ∃ t, act (submit op h c) s = .next t ∧ ended op c s r u t := by
  refine ready_ended_stw ha hf hr ?_ ?_ ?_ hu hq
  · rw [hv]; show u.stw.state ≠ _; rw [hs]; decide
  · intro n k hn
    have e1 : (h.run c s.stw.nextJob (taken op c s)).1.stw.lanes = (taken op c s).stw.lanes := by rw [hv]
    have e3 := taken_slot_other op c s n k hn
    unfold State.slot State.lane at e3 ⊢
    rw [e1, hw, e3]
  · rw [hv]

/-- As `ready_ended_wide`, where the work leaves the command open. -/
theorem ready_opened_wide {op : Nat} {h : Handler} {c : Cmd} {s u : State} {cm : Bool} {due aux : Nat} (ha : readyFor c s = true)
    (hf : goodTable h.fields c = true) (hr : (h.run c s.stw.nextJob (taken op c s)).2 = .wait cm due aux)
    (hv : (h.run c s.stw.nextJob (taken op c s)).1.stw = { u.stw with lanes := (taken op c s).stw.lanes, nextJob := s.stw.nextJob + 1 })
    (hu : sameParts (h.run c s.stw.nextJob (taken op c s)).1 u) (hw : u.stw.lanes = s.stw.lanes := by rfl)
    (hj : u.stw.jobs = s.stw.jobs := by rfl) (hq : u.pending = s.pending := by rfl) :
    ∃ t, act (submit op h c) s = .next t ∧ opened op c s cm u t := by
  obtain ⟨h1, h2, h3, h4⟩ := (readyFor_iff c s).1 ha
  have ha : areaServed op (taken op c s) = true := areaServed_of (by rw [taken_stw_state, h4]; decide)
  obtain ⟨hal, _, hl, hk, _⟩ := (acceptedNow_iff c s).1 h1
  generalize hz : h.run c s.stw.nextJob (taken op c s) = w at hr hv hu
  obtain ⟨v, r⟩ := w
  subst hr
  dsimp only at hv hu
  generalize hx : ({ v with pending := s.pending, stw.jobs := v.stw.jobs ++ [{ jobOf op c s with committed := cm, due := due, aux := aux }] } : State) = x
  have e : apart (submit op h c) s = x := by
    rw [← hx]
    unfold apart
    rw [submit_accepted h1, perform_good h2 hf ha, hz]
    rfl
  have ex : x.stw = { u.stw with
      lanes := (taken op c s).stw.lanes
      nextJob := s.stw.nextJob + 1
      jobs := s.stw.jobs ++ [{ jobOf op c s with committed := cm, due := due, aux := aux }] } := by
    rw [← hx, ← hj]
    exact congrArg (fun y : Steward => { y with jobs := y.jobs ++ [{ jobOf op c s with committed := cm, due := due, aux := aux }] }) hv
  have el : ∀ n k, x.slot n k = (taken op c s).slot n k := by
    intro n k; unfold State.slot State.lane; rw [ex]
  refine ⟨_, act_alive hal, ?_, ?_, ?_, ?_⟩
  · rw [settle_slot, e, el]
    unfold State.slot State.lane
    simp [taken, takenLane, hl, hk]
  · rw [settle_stw_jobs, e, ex]
    exact ⟨_, rfl, by simp [jobOf]⟩
  · intro n k hn
    rw [settle_slot, e, el, taken_slot_other _ _ _ _ _ hn]
    unfold State.slot State.lane; rw [← hw]
  · rw [e]
    unfold settle
    have e2 : sameParts x u := by rw [← hx]; exact hu
    have e3 : x.pending = u.pending := by rw [← hx, hq]
    unfold sameParts at e2
    clear hx e el
    cases x; cases u
    simp_all

/-- As `ready_ended`, where the work leaves the command open. -/
theorem ready_opened {op : Nat} {h : Handler} {c : Cmd} {s u : State} {cm : Bool} {due aux : Nat} (ha : readyFor c s = true)
    (hf : goodTable h.fields c = true) (hr : (h.run c s.stw.nextJob (taken op c s)).2 = .wait cm due aux)
    (hv : (h.run c s.stw.nextJob (taken op c s)).1.stw = (taken op c s).stw)
    (hu : sameParts (h.run c s.stw.nextJob (taken op c s)).1 u) (hq : u.pending = s.pending := by rfl) (hw : u.stw = s.stw := by rfl) :
    ∃ t, act (submit op h c) s = .next t ∧ opened op c s cm u t :=
  ready_opened_wide ha hf hr (by rw [hv, taken_stw, hw]) hu (by rw [hw]) (by rw [hw]) hq

theorem sendInband_bulk (l k q : Nat) (b : List Byte) (s : State) (n : Nat) : ((sendInband l k q b s).lane n).bulk = (s.lane n).bulk := by
  unfold sendInband emit State.lane updLane
  simp only [getD_modify]; split <;> simp_all

theorem updLane_bulk (m : Nat) (f : Lane → Lane) (x : State) (n : Nat) (hf : ∀ l, (f l).bulk = l.bulk) :
    ((updLane m f x).lane n).bulk = (x.lane n).bulk := by
  rw [lane_updLane]; split
  · next h => rw [hf, h.1]
  · rfl

theorem updSlot_bulk (m k : Nat) (f : Slot → Slot) (x : State) (n : Nat) :
    ((updSlot m k f x).lane n).bulk = (x.lane n).bulk := by
  rw [updSlot_eq]; exact updLane_bulk m _ x n (fun _ => rfl)

theorem deliver_bulk (j : Job) (r : Reply) (s : State) (n : Nat) : ((deliver j r s).lane n).bulk = (s.lane n).bulk := by
  unfold deliver
  dsimp only
  repeat' split
  all_goals first
    | rfl
    | (simp only [sendInband_bulk, updSlot_bulk]; done)
    | (simp only [sendInband_bulk]; refine (updLane_bulk _ _ _ _ ?_).trans (updSlot_bulk _ _ _ _ _); intro l; rfl)
    | (refine (updLane_bulk _ _ _ _ ?_).trans (updSlot_bulk _ _ _ _ _); intro l; rfl)

/-- The bulk region of a lane as the work of `c` finds it: on the command's own lane with what its sender wrote. -/
theorem taken_bulk (op : Nat) (c : Cmd) (s : State) (n : Nat) :
    ((taken op c s).lane n).bulk =
      if n = c.lane ∧ c.lane < 4 then Memory.writeList (s.lane c.lane).bulk c.bulkOff c.region else (s.lane n).bulk := by
  unfold State.lane taken
  dsimp only
  rw [getD_modify]; split
  · next h => rfl
  · rfl

/-- As `ready_ended`, for any change that the work makes. -/
theorem ready_reply {op : Nat} {h : Handler} {c : Cmd} {s u : State} {r : Reply} (ha : readyFor c s = true)
    (hf : goodTable h.fields c = true) (hr : (h.run c s.stw.nextJob (taken op c s)).2 = .reply r)
    (hu : (h.run c s.stw.nextJob (taken op c s)).1 = u) (hv : u.stw.state ≠ .restarting) :
    ∃ t, act (submit op h c) s = .next t ∧ answered op s.beat c r t ∧
      (∀ n k, ¬ (n = c.lane ∧ k = c.slot) → t.slot n k = u.slot n k) ∧ (∀ n, (t.lane n).bulk = (u.lane n).bulk) ∧
      t = { u with stw := { u.stw with lanes := t.stw.lanes, msixPrev := t.stw.msixPrev }, outbox := t.outbox, pending := s.pending } := by
  obtain ⟨h1, h2, h3, h4⟩ := (readyFor_iff c s).1 ha
  have ha : areaServed op (taken op c s) = true := areaServed_of (by rw [taken_stw_state, h4]; decide)
  obtain ⟨hal, _, hc, hk, _⟩ := (acceptedNow_iff c s).1 h1
  have hp : perform op h c s.stw.nextJob (taken op c s) = (u, .reply r) := by rw [perform_good h2 hf ha]; exact Prod.ext hu hr
  refine ⟨_, act_alive hal, ?_, ?_, ?_, ?_⟩
  · unfold answered
    rw [settle_slot, apart_reply h1 hp (.inl h3) hv]
    exact deliver_slot (j := jobOf op c s) hc hk
  · intro n k hn
    rw [settle_slot, apart_reply h1 hp (.inl h3) hv]
    exact deliver_slot_other (j := jobOf op c s) hn
  · intro n
    rw [settle_lane, apart_reply h1 hp (.inl h3) hv]
    exact deliver_bulk _ _ _ _
  · rw [apart_reply h1 hp (.inl h3) hv]
    have key : ∀ y : State, y.stw = { u.stw with lanes := y.stw.lanes } → sameParts y u → y.pending = s.pending →
        settle y = { u with
          stw := { u.stw with lanes := (settle y).stw.lanes, msixPrev := (settle y).stw.msixPrev }
          outbox := (settle y).outbox, pending := s.pending } := by
      intro y e1 e2 e3
      unfold sameParts at e2
      unfold settle
      dsimp only
      rw [e1]
      cases y; cases u
      grind
    apply key
    · exact deliver_stw _ _ _
    · unfold sameParts; simp
    · rfl

/-- What the work of a command sent out comes first in what the command sends out. -/
theorem ready_sends {op : Nat} {h : Handler} {c : Cmd} {s u : State} {r : Reply} (ha : readyFor c s = true)
    (hf : goodTable h.fields c = true) (hr : (h.run c s.stw.nextJob (taken op c s)).2 = .reply r)
    (hu : (h.run c s.stw.nextJob (taken op c s)).1 = u) (hv : u.stw.state ≠ .restarting) {t : State}
    (ht : act (submit op h c) s = .next t) : u.outbox <+: t.outbox := by
  obtain ⟨h1, h2, h3, h4⟩ := (readyFor_iff c s).1 ha
  have ha : areaServed op (taken op c s) = true := areaServed_of (by rw [taken_stw_state, h4]; decide)
  obtain ⟨hal, _, hc, hk, _⟩ := (acceptedNow_iff c s).1 h1
  have hp : perform op h c s.stw.nextJob (taken op c s) = (u, .reply r) := by rw [perform_good h2 hf ha]; exact Prod.ext hu hr
  rw [act_alive hal] at ht
  injection ht with ht
  rw [← ht, apart_reply h1 hp (.inl h3) hv]
  refine List.IsPrefix.trans ?_ (List.prefix_append _ _)
  show u.outbox <+: (deliver _ _ _).outbox
  unfold deliver
  dsimp only
  split <;> (try split) <;> (try split) <;> first | exact List.prefix_refl _ | exact List.prefix_append _ _

/-- Every answer to a command that READY serves at once finds the state READY. -/
theorem ready_state {c : Cmd} {s : State} (ha : readyFor c s = true) : s.stw.state = .ready := ((readyFor_iff c s).1 ha).2.2.2

/-! ### Commands that are not the Steward's -/

/-- The state in which the effect of a command starts: the outbox empty, the queue out of sight. -/
def fresh (s : State) : State := { s with outbox := [], pending := [] }

@[simp] theorem fresh_time (s : State) : (fresh s).time = s.time := by unfold fresh; rfl
@[simp] theorem fresh_stw (s : State) : (fresh s).stw = s.stw := by unfold fresh; rfl
@[simp] theorem fresh_power (s : State) : (fresh s).power = s.power := by unfold fresh; rfl
@[simp] theorem fresh_boot (s : State) : (fresh s).boot = s.boot := by unfold fresh; rfl
@[simp] theorem fresh_assay (s : State) : (fresh s).assay = s.assay := by unfold fresh; rfl
@[simp] theorem fresh_plan (s : State) : (fresh s).plan = s.plan := by unfold fresh; rfl
@[simp] theorem fresh_mem (s : State) : (fresh s).mem = s.mem := by unfold fresh; rfl
@[simp] theorem fresh_wired (s : State) : (fresh s).wired = s.wired := by unfold fresh; rfl
@[simp] theorem fresh_front (s : State) : (fresh s).front = s.front := by unfold fresh; rfl
@[simp] theorem fresh_field (s : State) : (fresh s).field = s.field := by unfold fresh; rfl
@[simp] theorem fresh_wide (s : State) : (fresh s).wide = s.wide := by unfold fresh; rfl
@[simp] theorem fresh_pole (s : State) : (fresh s).pole = s.pole := by unfold fresh; rfl
@[simp] theorem fresh_kept (s : State) : (fresh s).kept = s.kept := by unfold fresh; rfl
@[simp] theorem fresh_next (s : State) : (fresh s).next = s.next := by unfold fresh; rfl
@[simp] theorem fresh_draws (s : State) : (fresh s).draws = s.draws := by unfold fresh; rfl
@[simp] theorem fresh_outbox (s : State) : (fresh s).outbox = [] := by unfold fresh; rfl
@[simp] theorem fresh_pending (s : State) : (fresh s).pending = [] := by unfold fresh; rfl
@[simp] theorem fresh_ns (s : State) : (fresh s).ns = s.ns := by unfold State.ns fresh; rfl
@[simp] theorem fresh_frac (s : State) : (fresh s).frac = s.frac := by unfold State.frac fresh; rfl
@[simp] theorem fresh_tbc (s : State) : (fresh s).tbc = s.tbc := by unfold State.tbc fresh; rfl
@[simp] theorem fresh_beat (s : State) : (fresh s).beat = s.beat := by unfold State.beat State.ns fresh; rfl
@[simp] theorem fresh_phase (s : State) : (fresh s).phase = s.phase := by unfold State.phase State.ns fresh; rfl
@[simp] theorem fresh_stamp (s : State) : (fresh s).stamp = s.stamp := by unfold State.stamp State.ns State.frac fresh; rfl
@[simp] theorem fresh_inc (s : State) : (fresh s).inc = s.inc := by unfold State.inc fresh; rfl
@[simp] theorem fresh_tickNs (s : State) : (fresh s).tickNs = s.tickNs := by unfold State.tickNs fresh; rfl
@[simp] theorem fresh_unit (s : State) (k : Nat) : (fresh s).unit k = s.unit k := by unfold State.unit fresh; rfl
@[simp] theorem fresh_trig (s : State) (k : Nat) : (fresh s).trig k = s.trig k := by unfold State.trig fresh; rfl
@[simp] theorem fresh_lane (s : State) (k : Nat) : (fresh s).lane k = s.lane k := by unfold State.lane fresh; rfl
@[simp] theorem fresh_laneCfg (s : State) (k : Nat) : (fresh s).laneCfg k = s.laneCfg k := by unfold State.laneCfg fresh; rfl
@[simp] theorem fresh_alive (s : State) : alive (fresh s) = alive s := by unfold alive fresh; rfl
@[simp] theorem fresh_windowUp (s : State) : windowUp (fresh s) = windowUp s := by unfold windowUp fresh; rfl
@[simp] theorem fresh_serving (s : State) : serving (fresh s) = serving s := by unfold serving coresRun fresh; rfl
@[simp] theorem fresh_coresRun (s : State) : coresRun (fresh s) = coresRun s := by unfold coresRun fresh; rfl
@[simp] theorem fresh_dataPlane (s : State) : dataPlane (fresh s) = dataPlane s := by unfold dataPlane fresh; rfl
@[simp] theorem fresh_slot (s : State) (n k : Nat) : (fresh s).slot n k = s.slot n k := by unfold State.slot State.lane fresh; rfl
@[simp] theorem fresh_unitUp (s : State) (n : Nat) : unitUp (fresh s) n = unitUp s n := by unfold unitUp fresh; rfl

theorem apart_fresh (f : State → State) (s : State) : apart f s = { f (fresh s) with pending := s.pending } := by unfold apart fresh; rfl

/-- A command of a block that is not held in reset, whose effect on everything but the outbox gives `u`. -/
theorem act_became {f : State → State} {s u : State} (ha : alive s = true) (hw : (f (fresh s)).stw = u.stw)
    (h : sameParts (f (fresh s)) u) (hq : u.pending = s.pending := by rfl) : ∃ t, act f s = .next t ∧ became u t := by
  refine ⟨_, act_alive ha, ?_⟩
  rw [apart_fresh]
  unfold sameParts at h
  unfold became settle
  generalize f (fresh s) = x at *
  cases x; cases u
  simp_all

/-- As `act_became`, with what the command sends out. -/
theorem act_sent {f : State → State} {s u : State} {o : List Output} (ha : alive s = true) (hw : (f (fresh s)).stw = u.stw)
    (ho : (f (fresh s)).outbox = o) (h : sameParts (f (fresh s)) u) (hq : u.pending = s.pending := by rfl) :
    ∃ t, act f s = .next t ∧ became u t ∧ o <+: t.outbox := by
  refine ⟨_, act_alive ha, ?_, ?_⟩
  · rw [apart_fresh]
    unfold sameParts at h
    unfold became settle
    generalize f (fresh s) = x at *
    cases x; cases u
    simp_all
  · rw [← ho]
    unfold settle
    rw [apart_fresh]
    exact List.prefix_append _ _

/-- As `act_became`, for a command that acts whether a reset is held or not. -/
theorem actAlways_became {f : State → State} {s u : State} (hw : (f (fresh s)).stw = u.stw)
    (h : sameParts (f (fresh s)) u) (hq : u.pending = s.pending := by rfl) : ∃ t, actAlways f s = .next t ∧ became u t := by
  refine ⟨_, rfl, ?_⟩
  rw [apart_fresh]
  unfold sameParts at h
  unfold became settle
  generalize f (fresh s) = x at *
  cases x; cases u
  simp_all

/-! PWR_RESULT beside the answer of a command. -/

theorem notePower_other {op : Nat} (h : op ≠ 0x0301) (c : Cmd) (r : Reply) (s : State) : notePower op c r s = s := if_neg h
theorem notePower_set (c : Cmd) (r : Reply) (s : State) : notePower 0x0301 c r s = putPwrResult c.tag r.status r.detail 0 s := if_pos rfl

/-- A command past its point of commitment is answered at once, or keeps its answer until the Steward has restarted. -/
theorem respond_serving {j : Job} {r : Reply} {s : State} (h : s.stw.state ≠ .restarting) : respond j r s = deliver j r s := if_neg h
theorem respond_restarting {j : Job} {r : Reply} {s : State} (h : s.stw.state = .restarting) :
    respond j r s = { s with
      stw.jobs := s.stw.jobs ++ [{ j with committed := true, reply := some r, durableFrom := none, inCopy := false }] } := if_pos h

end Sys2Proof.Laws
end

