-- ==== Sys2Proof/Laws/Timebase.lean ====
section
/-! SUPPORT. The shared operations of the timebase: what a measurement, a rebase's start and time's advance do, said once. -/

namespace Sys2Proof.Laws
open Machine

@[simp] theorem laterEpoch_self (e : Nat) : laterEpoch e e = false := by
  unfold laterEpoch; simp

/-- Steadiness is judged from the servo's state, its cause, the first measurement and STEP_NS alone (R54). -/
theorem steadyAfter_of {theta : Int} {s x : State} (h1 : x.time.stepSteady = s.time.stepSteady) (h2 : x.time.servo = s.time.servo)
    (h3 : x.time.cause = s.time.cause) (h4 : x.time.stepFirst = s.time.stepFirst) (h5 : x.kept = s.kept) :
    steadyAfter theta x = steadyAfter theta s := by unfold steadyAfter; rw [h1, h2, h3, h4, h5]

/-- Outside HOLDOVER nothing is judged. -/
theorem steadyAfter_acquiring {theta : Int} {s : State} (h : s.time.servo = .acquiring) : steadyAfter theta s = s.time.stepSteady := by
  unfold steadyAfter; simp [h]

/-- A measurement below the step threshold in HOLDOVER, with fewer than seven good ones before it in a row. -/
theorem measure_holdover {theta : Int} {e : Nat} {s x : State} (hx : x.time = s.time) (hp : x.power = s.power) (hk : x.kept = s.kept)
    (hm : s.power.mode.serves = true) (he : e = s.kept.time.epoch) (hl : s.time.loadTick = none) (hs : s.time.servo = .holdover)
    (hg : s.time.goodRun < 7) (ht : theta.natAbs ≤ s.kept.time.servo.stepNs * 2 ^ 16) :
    Machine.measure theta e x = { x with time := { s.time with
      srcBeats := 0, lastTheta := theta, stepRun := 0, stepSteady := steadyAfter theta s, goodRun := s.time.goodRun + 1
      counts := tally s.time.counts 24 } } := by
  have e2 : ¬ (s.power.mode = .doze) := by intro h; simp [h, Mode.serves] at hm
  have e3 : ¬ (s.power.mode = .dormant) := by intro h; simp [h, Mode.serves] at hm
  have e5 : ¬ (s.kept.time.servo.stepNs * 65536 < theta.natAbs) := by omega
  unfold Machine.measure
  generalize hy : timeCount cServoMeas { x with time.srcBeats := 0 } = y
  have b1 : y.time = { s.time with srcBeats := 0, counts := tally s.time.counts 24 } := by rw [← hy, ← hx]; rfl
  have b2 : y.power = s.power := by rw [← hy, ← hp]; rfl
  have b3 : y.kept = s.kept := by rw [← hy, ← hk]; rfl
  have b4 : y = { x with time := y.time } := by rw [← hy]; rfl
  have b6 : steadyAfter theta y = steadyAfter theta s := steadyAfter_of (by rw [b1]) (by rw [b1]) (by rw [b1]) (by rw [b1]) b3
  clear hy
  dsimp only
  rw [if_neg (by simp [b2, e2, e3]), if_neg (by simp [b1, b3, hl, he]), b6, if_neg (by simp [b3, e5]), if_pos (by simp [b1, hs]),
    if_neg (by simp [b1]; omega)]
  rw [b4]
  simp [b1]

/-- A measurement below the lock threshold while ACQUIRING, the control law within its bound, fewer than seven such before it. -/
theorem measure_acquiring {theta i : Int} {e : Nat} {s x : State} (hx : x.time = s.time) (hp : x.power = s.power) (hk : x.kept = s.kept)
    (hn : x.next = s.next)
    (hm : s.power.mode.serves = true) (he : e = s.kept.time.epoch) (hl : s.time.loadTick = none) (hs : s.time.servo = .acquiring)
    (hg : s.time.lockRun < 7) (ht : theta.natAbs ≤ s.kept.time.servo.stepNs * 2 ^ 16) (hlo : theta.natAbs < s.kept.time.servo.lockNs * 2 ^ 16)
    (hi : i = s.kept.time.integral + s.kept.time.servo.ki * theta * 2 ^ 16)
    (hb : (i + s.kept.time.servo.kp * theta * 2 ^ 16).natAbs ≤ s.kept.time.servo.slewPpm * 1000000 * 2 ^ 32) :
    Machine.measure theta e x = { x with
      time := { s.time with
        srcBeats := 0, lastTheta := theta, stepRun := 0, lockRun := s.time.lockRun + 1, lastMeas := s.time.mono,
        lastMeasDorm := s.power.dormantNs, fadjNext := some (fadjOf (-(i + s.kept.time.servo.kp * theta * 2 ^ 16)), s.beat + 1),
        counts := tally s.time.counts 24 }
      kept := { s.kept with time := { s.kept.time with integral := i } }
      next := { s.next with time := { s.next.time with integral := i } } } := by
  have e2 : ¬ (s.power.mode = .doze) := by intro h; simp [h, Mode.serves] at hm
  have e3 : ¬ (s.power.mode = .dormant) := by intro h; simp [h, Mode.serves] at hm
  have e5 : ¬ (s.kept.time.servo.stepNs * 65536 < theta.natAbs) := by omega
  have law : controlLaw s.kept.time.servo s.kept.time.integral theta = (i, -(i + s.kept.time.servo.kp * theta * 2 ^ 16)) := by
    unfold controlLaw
    have e : (s.kept.time.servo.kp : Int) * theta * 2 ^ 16 + s.kept.time.integral + (s.kept.time.servo.ki : Int) * theta * 2 ^ 16 =
      i + s.kept.time.servo.kp * theta * 2 ^ 16 := by rw [hi]; omega
    dsimp only
    rw [e, if_pos (by omega), ← hi]
  unfold Machine.measure
  generalize hy : timeCount cServoMeas { x with time.srcBeats := 0 } = y
  have b1 : y.time = { s.time with srcBeats := 0, counts := tally s.time.counts 24 } := by rw [← hy, ← hx]; rfl
  have b2 : y.power = s.power := by rw [← hy, ← hp]; rfl
  have b3 : y.kept = s.kept := by rw [← hy, ← hk]; rfl
  have b5 : y.next = s.next := by rw [← hy, ← hn]; rfl
  have b4 : y = { x with time := y.time } := by rw [← hy]; rfl
  have b6 : steadyAfter theta y = s.time.stepSteady := by rw [steadyAfter_acquiring (by rw [b1]; exact hs), b1]
  clear hy
  dsimp only
  rw [if_neg (by simp [b2, e2, e3]), if_neg (by simp [b1, b3, hl, he]), b6, if_neg (by simp [b3, e5]), if_neg (by simp [b1, hs])]
  unfold applyMeasurement
  simp only [b3, law]
  rw [if_pos hlo]
  generalize hz : setKept _ _ = z
  have c1 : z.time = { s.time with
      srcBeats := 0, lastTheta := theta, stepRun := 0, lastMeas := s.time.mono, lastMeasDorm := s.power.dormantNs
      counts := tally s.time.counts 24 } := by rw [← hz]; simp [setKept, b1, b2]
  have c2 : z = { x with
      time := z.time
      kept := { s.kept with time := { s.kept.time with integral := i } }
      next := { s.next with time := { s.next.time with integral := i } } } := by
    rw [← hz, b4]; simp [setKept, hn]
  clear hz
  have c3 : z.time.servo ≠ .freeRun := by simp [c1, hs]
  simp only [if_neg c3]
  rw [if_neg (by simp [c1]; omega)]
  rw [c2]
  simp [c1, b1, State.beat, State.ns]

/-- Time's advance moves the accumulator and local time alone. -/
theorem advanceTo_eq (n : Nat) (s : State) :
    advanceTo n s = { s with time.acc := (advanceTo n s).time.acc, time.mono := (advanceTo n s).time.mono } := by
  unfold advanceTo; split
  · unfold ticks; rfl
  · rfl

theorem ticks_time_lastMeas (n : Nat) (s : State) : (ticks n s).time.lastMeas = s.time.lastMeas := by unfold ticks; rfl
@[simp] theorem advanceTo_time_lastMeas (n : Nat) (s : State) : (advanceTo n s).time.lastMeas = s.time.lastMeas := by unfold advanceTo; split <;> simp [ticks_time_lastMeas]
theorem ticks_time_lastMeasDorm (n : Nat) (s : State) : (ticks n s).time.lastMeasDorm = s.time.lastMeasDorm := by unfold ticks; rfl
@[simp] theorem advanceTo_time_lastMeasDorm (n : Nat) (s : State) : (advanceTo n s).time.lastMeasDorm = s.time.lastMeasDorm := by unfold advanceTo; split <;> simp [ticks_time_lastMeasDorm]
theorem ticks_time_fadj (n : Nat) (s : State) : (ticks n s).time.fadj = s.time.fadj := by unfold ticks; rfl
@[simp] theorem advanceTo_time_fadj (n : Nat) (s : State) : (advanceTo n s).time.fadj = s.time.fadj := by unfold advanceTo; split <;> simp [ticks_time_fadj]
theorem ticks_time_fadjNext (n : Nat) (s : State) : (ticks n s).time.fadjNext = s.time.fadjNext := by unfold ticks; rfl
@[simp] theorem advanceTo_time_fadjNext (n : Nat) (s : State) : (advanceTo n s).time.fadjNext = s.time.fadjNext := by unfold advanceTo; split <;> simp [ticks_time_fadjNext]
theorem ticks_time_clearIntegral (n : Nat) (s : State) : (ticks n s).time.clearIntegral = s.time.clearIntegral := by unfold ticks; rfl
@[simp] theorem advanceTo_time_clearIntegral (n : Nat) (s : State) : (advanceTo n s).time.clearIntegral = s.time.clearIntegral := by unfold advanceTo; split <;> simp [ticks_time_clearIntegral]
theorem ticks_time_servo (n : Nat) (s : State) : (ticks n s).time.servo = s.time.servo := by unfold ticks; rfl
@[simp] theorem advanceTo_time_servo (n : Nat) (s : State) : (advanceTo n s).time.servo = s.time.servo := by unfold advanceTo; split <;> simp [ticks_time_servo]
theorem ticks_time_cause (n : Nat) (s : State) : (ticks n s).time.cause = s.time.cause := by unfold ticks; rfl
@[simp] theorem advanceTo_time_cause (n : Nat) (s : State) : (advanceTo n s).time.cause = s.time.cause := by unfold advanceTo; split <;> simp [ticks_time_cause]
theorem ticks_time_lastTheta (n : Nat) (s : State) : (ticks n s).time.lastTheta = s.time.lastTheta := by unfold ticks; rfl
@[simp] theorem advanceTo_time_lastTheta (n : Nat) (s : State) : (advanceTo n s).time.lastTheta = s.time.lastTheta := by unfold advanceTo; split <;> simp [ticks_time_lastTheta]
theorem ticks_time_lockRun (n : Nat) (s : State) : (ticks n s).time.lockRun = s.time.lockRun := by unfold ticks; rfl
@[simp] theorem advanceTo_time_lockRun (n : Nat) (s : State) : (advanceTo n s).time.lockRun = s.time.lockRun := by unfold advanceTo; split <;> simp [ticks_time_lockRun]
theorem ticks_time_stepRun (n : Nat) (s : State) : (ticks n s).time.stepRun = s.time.stepRun := by unfold ticks; rfl
@[simp] theorem advanceTo_time_stepRun (n : Nat) (s : State) : (advanceTo n s).time.stepRun = s.time.stepRun := by unfold advanceTo; split <;> simp [ticks_time_stepRun]
theorem ticks_time_goodRun (n : Nat) (s : State) : (ticks n s).time.goodRun = s.time.goodRun := by unfold ticks; rfl
@[simp] theorem advanceTo_time_goodRun (n : Nat) (s : State) : (advanceTo n s).time.goodRun = s.time.goodRun := by unfold advanceTo; split <;> simp [ticks_time_goodRun]
theorem ticks_time_srcBeats (n : Nat) (s : State) : (ticks n s).time.srcBeats = s.time.srcBeats := by unfold ticks; rfl
@[simp] theorem advanceTo_time_srcBeats (n : Nat) (s : State) : (advanceTo n s).time.srcBeats = s.time.srcBeats := by unfold advanceTo; split <;> simp [ticks_time_srcBeats]
theorem ticks_time_rebase (n : Nat) (s : State) : (ticks n s).time.rebase = s.time.rebase := by unfold ticks; rfl
@[simp] theorem advanceTo_time_rebase (n : Nat) (s : State) : (advanceTo n s).time.rebase = s.time.rebase := by unfold advanceTo; split <;> simp [ticks_time_rebase]
theorem ticks_time_loadTick (n : Nat) (s : State) : (ticks n s).time.loadTick = s.time.loadTick := by unfold ticks; rfl
@[simp] theorem advanceTo_time_loadTick (n : Nat) (s : State) : (advanceTo n s).time.loadTick = s.time.loadTick := by unfold advanceTo; split <;> simp [ticks_time_loadTick]
theorem ticks_time_settling (n : Nat) (s : State) : (ticks n s).time.settling = s.time.settling := by unfold ticks; rfl
@[simp] theorem advanceTo_time_settling (n : Nat) (s : State) : (advanceTo n s).time.settling = s.time.settling := by unfold advanceTo; split <;> simp [ticks_time_settling]
theorem ticks_time_triggers (n : Nat) (s : State) : (ticks n s).time.triggers = s.time.triggers := by unfold ticks; rfl
@[simp] theorem advanceTo_time_triggers (n : Nat) (s : State) : (advanceTo n s).time.triggers = s.time.triggers := by unfold advanceTo; split <;> simp [ticks_time_triggers]
theorem ticks_time_tsq (n : Nat) (s : State) : (ticks n s).time.tsq = s.time.tsq := by unfold ticks; rfl
@[simp] theorem advanceTo_time_tsq (n : Nat) (s : State) : (advanceTo n s).time.tsq = s.time.tsq := by unfold advanceTo; split <;> simp [ticks_time_tsq]
theorem ticks_time_ppsIn (n : Nat) (s : State) : (ticks n s).time.ppsIn = s.time.ppsIn := by unfold ticks; rfl
@[simp] theorem advanceTo_time_ppsIn (n : Nat) (s : State) : (advanceTo n s).time.ppsIn = s.time.ppsIn := by unfold advanceTo; split <;> simp [ticks_time_ppsIn]
theorem ticks_time_latch (n : Nat) (s : State) : (ticks n s).time.latch = s.time.latch := by unfold ticks; rfl
@[simp] theorem advanceTo_time_latch (n : Nat) (s : State) : (advanceTo n s).time.latch = s.time.latch := by unfold advanceTo; split <;> simp [ticks_time_latch]
theorem ticks_time_units (n : Nat) (s : State) : (ticks n s).time.units = s.time.units := by unfold ticks; rfl
@[simp] theorem advanceTo_time_units (n : Nat) (s : State) : (advanceTo n s).time.units = s.time.units := by unfold advanceTo; split <;> simp [ticks_time_units]
theorem ticks_time_nextCommit (n : Nat) (s : State) : (ticks n s).time.nextCommit = s.time.nextCommit := by unfold ticks; rfl
@[simp] theorem advanceTo_time_nextCommit (n : Nat) (s : State) : (advanceTo n s).time.nextCommit = s.time.nextCommit := by unfold advanceTo; split <;> simp [ticks_time_nextCommit]
theorem ticks_time_planCommitTick (n : Nat) (s : State) : (ticks n s).time.planCommitTick = s.time.planCommitTick := by unfold ticks; rfl
@[simp] theorem advanceTo_time_planCommitTick (n : Nat) (s : State) : (advanceTo n s).time.planCommitTick = s.time.planCommitTick := by unfold advanceTo; split <;> simp [ticks_time_planCommitTick]
theorem ticks_time_computeBeat (n : Nat) (s : State) : (ticks n s).time.computeBeat = s.time.computeBeat := by unfold ticks; rfl
@[simp] theorem advanceTo_time_computeBeat (n : Nat) (s : State) : (advanceTo n s).time.computeBeat = s.time.computeBeat := by unfold advanceTo; split <;> simp [ticks_time_computeBeat]
theorem ticks_time_planCommitBeat (n : Nat) (s : State) : (ticks n s).time.planCommitBeat = s.time.planCommitBeat := by unfold ticks; rfl
@[simp] theorem advanceTo_time_planCommitBeat (n : Nat) (s : State) : (advanceTo n s).time.planCommitBeat = s.time.planCommitBeat := by unfold advanceTo; split <;> simp [ticks_time_planCommitBeat]
theorem ticks_time_counts (n : Nat) (s : State) : (ticks n s).time.counts = s.time.counts := by unfold ticks; rfl
@[simp] theorem advanceTo_time_counts (n : Nat) (s : State) : (advanceTo n s).time.counts = s.time.counts := by unfold advanceTo; split <;> simp [ticks_time_counts]
@[simp] theorem advanceTo_trig (n k : Nat) (s : State) : (advanceTo n s).trig k = s.trig k := by unfold State.trig; simp
@[simp] theorem advanceTo_unit (n k : Nat) (s : State) : (advanceTo n s).unit k = s.unit k := by unfold State.unit; simp

/-- The clock sees nothing of the outbox and the queue. -/
@[simp] theorem clockRuns_fresh (s : State) : clockRuns (fresh s) = clockRuns s := rfl

/-- Ticks see nothing of the outbox and the queue. -/
theorem ticks_fresh (k : Nat) (s : State) : ticks k (fresh s) = fresh (ticks k s) := by
  unfold ticks
  rw [fresh_inc, fresh_tickNs, fresh_time, clockRuns_fresh]
  generalize accWrap _ = a
  generalize s.time.mono + _ = b
  unfold fresh; rfl

/-- Time's advance sees nothing of the outbox and the queue. -/
@[simp] theorem advanceTo_fresh (n : Nat) (s : State) : advanceTo n (fresh s) = fresh (advanceTo n s) := by
  unfold advanceTo
  rw [fresh_inc, fresh_time, clockRuns_fresh, ticks_fresh]
  split <;> rfl

/-- A commit window that leaves what stamps go by alone notes nothing. -/
theorem notePast_same {old : Kept} {s : State}
    (h : s.kept.time.portComp = old.time.portComp ∧ delayResults s.kept.front.results = delayResults old.front.results) : notePast old s = s := by
  unfold notePast; exact if_pos h

/-- Local time's advance sees nothing of the outbox and the queue. -/
@[simp] theorem advanceMono_fresh (n : Nat) (s : State) : advanceMono n (fresh s) = fresh (advanceMono n s) := by
  unfold advanceMono ticks
  rw [fresh_inc, fresh_tickNs, fresh_time]
  generalize accWrap _ = a
  generalize s.time.mono + _ = b
  unfold fresh; rfl

theorem ticksTo_past {a i t : Nat} (h : t ≤ a) : ticksTo a i t = 0 := by unfold ticksTo; rw [if_pos h]

/-- Time that has already come does not move. -/
theorem advanceTo_past {n : Nat} {s : State} (h : n * 2 ^ 32 ≤ s.time.acc) (hw : s.time.acc < 2 ^ 96) : advanceTo n s = s := by
  unfold advanceTo
  rw [ticksTo_past h]
  unfold ticks accWrap
  simp only [Nat.zero_mul, Nat.add_zero, Nat.mod_eq_of_lt hw, ite_self]

/-- A measurement on a load's tick or of an earlier epoch (R49). -/
theorem measure_stale {theta : Int} {e : Nat} {s : State} (h1 : s.power.mode ≠ .doze) (h2 : s.power.mode ≠ .dormant)
    (h3 : s.time.loadTick = some s.time.acc ∨ laterEpoch s.kept.time.epoch e = true) :
    Machine.measure theta e s = { s with time.srcBeats := 0, time.counts := tally (tally s.time.counts 24) 60 } := by
  unfold Machine.measure
  dsimp only
  rw [if_neg (by simp [timeCount, h1, h2]), if_pos (by exact h3.symm)]
  rfl

/-- A read of a transmit timestamp queue changes the queues, the device's overflow flag and the event log alone. -/
theorem takeTsq_frame (src n : Nat) (clear : Bool) (s : State) :
    (takeTsq src n clear s).1 = { s with
      time.tsq := (takeTsq src n clear s).1.time.tsq, time.tsqOvfStk := (takeTsq src n clear s).1.time.tsqOvfStk
      stw.events := (takeTsq src n clear s).1.stw.events } := by
  unfold takeTsq
  dsimp only
  split
  · unfold untellDrops; rfl
  · rfl

/-- So do the Steward's own reads of the queues it holds. -/
theorem stewardTsq_frame (s : State) : stewardTsq s = { s with
    time.tsq := (stewardTsq s).time.tsq, time.tsqOvfStk := (stewardTsq s).time.tsqOvfStk, stw.events := (stewardTsq s).stw.events } := by
  have fold : ∀ (l : List (Nat × Tsq)) (x : State),
      x = { s with time.tsq := x.time.tsq, time.tsqOvfStk := x.time.tsqOvfStk, stw.events := x.stw.events } →
      ∀ y, l.foldl (fun s e => if tsqHeld s e.1 then (takeTsq e.1 16 false s).1 else s) x = y →
      y = { s with time.tsq := y.time.tsq, time.tsqOvfStk := y.time.tsqOvfStk, stw.events := y.stw.events } := by
    intro l
    induction l with
    | nil => intro x hx y hy; rw [← hy]; exact hx
    | cons e l ih =>
      intro x hx y hy
      rw [List.foldl_cons] at hy
      refine ih _ ?_ y hy
      split
      · have f := takeTsq_frame e.1 16 false x
        generalize (takeTsq e.1 16 false x).1 = z at f
        rw [f, hx]
      · exact hx
  unfold stewardTsq
  split
  · exact fold _ s rfl _ rfl
  · rfl

end Sys2Proof.Laws
end

