-- ==== Sys2Proof/Laws/Power.lean ====
section
/-! SUPPORT. What the shared operations of the power sequencer do: a wake source that fires, a change that needs no raise, an entry. -/

namespace Sys2Proof.Laws
open Machine

/-- Beat M depends on the time alone (R446). -/
theorem reckon_congr {x s : State} (h : x.time = s.time) : reckon x = reckon s := by
  unfold reckon State.phase State.beat State.ns; rw [h]

/-- A wake source enabled for the mode in force, with no entry and no wake under way, is latched and sets the target (R466, R467). -/
theorem fireWake_latched {b : Nat} {m : Mode} {s : State} (he : s.power.entry = none) (hn : s.power.waking = none)
    (hw : wakeEnabled s.power.mode b s = true) :
    fireWake b m s = { s with
      stw.sticky := setBit32 s.stw.sticky 9
      power.counts := tally s.power.counts 40
      power.wakeStk := s.power.wakeStk ||| BitVec.ofNat 16 (2 ^ b)
      power.waking := some { bits := 2 ^ b, target := m, left := s.power.mode, latchNs := s.ns,
                             stage := if s.power.mode = .doze then 1 else 0 } } := by
  simp [fireWake, he, hn, hw, powerCount, cWake, modeChanges, setInt]

/-- A change to a serving mode whose operating point needs no raise takes its beat at once (R446). -/
theorem startChange_atOnce {m : Mode} {a : Asker} {cause : Nat} {w : Bool} {s : State} (h : opForMode s m ≤ s.power.confirmedOp) :
    startChange m a cause w s = { s with
      stw.sticky := setBit32 s.stw.sticky 9
      power.change := some { target := m, eff := some (reckon s), asker := a, cause := cause, withheld := w } } := by
  have e : ¬ (opForMode s m > s.power.confirmedOp) := by omega
  simp [startChange, e, modeChanges, setInt]

/-- An entry starts: nothing has agreed yet (R456). -/
theorem startEntry_starts {m : Mode} {a : Asker} {cause : Nat} {s : State} (h : m = .dormant → s.stw.changePending = false) :
    startEntry m a cause s = { s with
      stw.sticky := setBit32 s.stw.sticky 9
      power.counts := tally s.power.counts 24
      power.entry := some { target := m, left := s.power.mode, asker := a, cause := cause, step := 1 } } := by
  unfold startEntry powerCount
  dsimp only
  split
  · next hc => have := h hc.1; simp_all [modeChanges, setInt]
  · rfl

/-- A mode that serves is none of the others. -/
theorem serves_ne {m : Mode} (h : m.serves = true) : m ≠ .recovery ∧ m ≠ .doze ∧ m ≠ .dormant := by
  cases m <;> simp_all [Mode.serves]

/-- The parts of a transition, where none runs. -/
theorem noTransition {s : State} (h : inTransition s = false) :
    s.power.change = none ∧ s.power.entry = none ∧ s.power.waking = none := by
  simpa [inTransition, and_assoc] using h

/-- A request in a serving mode for another serving mode but Full, with no raise needed, is a change (R118, R446). -/
theorem requestMode_change {k cause : Nat} {m : Mode} {a : Asker} {s : State} (hk : modeOf k = m) (hs : s.power.mode.serves = true)
    (hb : s.boot.stage = 8) (hi : inTransition s = false) (hm : m.serves = true) (hf : m ≠ .full) (hn : m ≠ s.power.mode)
    (ho : opForMode s m ≤ s.power.confirmedOp) :
    requestMode k a cause s = ({ s with
      stw.sticky := setBit32 s.stw.sticky 9
      power.wantFull := false
      power.change := some { target := m, eff := some (reckon s), asker := a, cause := cause } }, none) := by
  subst hk
  obtain ⟨n1, n2, -⟩ := serves_ne hs
  have e : opForMode { s with power.wantFull := false } (modeOf k) = opForMode s (modeOf k) := by
    simp [opForMode, opAllowed, opInTable]
  have e2 : ¬ (opForMode { s with power.wantFull := false } (modeOf k) > s.power.confirmedOp) := by rw [e]; omega
  have e3 : opForMode { s with power.wantFull := false } (modeOf k) ≤ s.power.confirmedOp := by rw [e]; exact ho
  unfold requestMode
  simp only [n1, n2, hb, hi, hm, hf, hn, e2, decide_false, Bool.false_and, Bool.false_eq_true, if_false, ne_eq, not_true, false_or,
    and_false, if_true, false_and, startChange_atOnce (s := { s with power.wantFull := false }) e3]
  rfl

/-- A request for the mode in force, one that serves and is not Full, is answered at once. -/
theorem requestMode_same {k cause : Nat} {a : Asker} {s : State} (hk : modeOf k = s.power.mode) (hs : s.power.mode.serves = true)
    (hb : s.boot.stage = 8) (hi : inTransition s = false) (hf : s.power.mode ≠ .full) :
    requestMode k a cause s = ({ s with power.wantFull := false }, some { eff := s.power.modeSince }) := by
  obtain ⟨n1, n2, -⟩ := serves_ne hs
  unfold requestMode
  simp [hk, n1, n2, hb, hi, hs, hf]

/-- A request in a serving mode for Doze starts the entry, where nothing holds it back (R456, R473). -/
theorem requestMode_doze {cause : Nat} {a : Asker} {s : State} (hs : s.power.mode.serves = true)
    (hb : s.boot.stage = 8) (hi : inTransition s = false) (hh : s.power.holdUntil ≤ s.beat) (hw : s.power.wakeSeen = none) :
    requestMode 3 a cause s = ({ s with
      stw.sticky := setBit32 s.stw.sticky 9
      power.counts := tally s.power.counts 24
      power.entry := some { target := .doze, left := s.power.mode, asker := a, cause := cause, step := 1 } }, none) := by
  obtain ⟨n1, n2, -⟩ := serves_ne hs
  unfold requestMode
  simp [n1, n2, hb, hi, hh, hw, modeOf, Mode.serves, startEntry, powerCount, modeChanges, setInt, Ne.symm n2]

end Sys2Proof.Laws
end

