-- ==== Sys2Proof/Laws/Assay.lean ====
section
/-! SUPPORT. What a re-plan does to one point, and what judging FULL_ALLOWED leaves as it was. -/

namespace Sys2Proof.Laws
open Machine

/-- A change of the device's own leaves settings and the Assay unit as they were. -/
theorem startChange_self (m : Mode) (cause : Nat) (w : Bool) (s : State) :
    (startChange m .self cause w s).kept = s.kept ∧ (startChange m .self cause w s).assay = s.assay := by
  unfold startChange
  dsimp only
  split
  · split
    · exact ⟨rfl, rfl⟩
    · exact ⟨rfl, rfl⟩
  · exact ⟨rfl, rfl⟩

/-- FULL_ALLOWED brought up to date: settings and the Assay unit stay. -/
theorem judgeFull_keeps (s : State) : (judgeFull s).kept = s.kept ∧ (judgeFull s).assay = s.assay := by
  unfold judgeFull setFullAllowed leaveFull
  dsimp only
  split
  · exact ⟨rfl, rfl⟩
  · split
    · exact startChange_self _ _ _ _
    · exact ⟨rfl, rfl⟩

/-- The core rail's target written: settings and the Assay unit stay. -/
theorem applyTarget_keeps (o s : State) : (applyTarget o s).kept = s.kept ∧ (applyTarget o s).assay = s.assay := by
  unfold applyTarget
  dsimp only
  split
  · split
    · exact ⟨rfl, rfl⟩
    · exact ⟨rfl, rfl⟩
  · split
    · exact ⟨rfl, rfl⟩
    · exact ⟨rfl, rfl⟩

/-- A point whose guard is below the value of R543, and whose target stays within its ceiling, takes that value. -/
theorem replanPoint_raises {own : Bool} {d2 : Int} {d op : Nat} {s : State} (hr : s.kept.assay.removed = [])
    (hg : s.kept.assay.guards.getD (op - 1) 0 < guardFormula op d2) (hc : opNominal op + guardFormula op d2 ≤ opCeiling op)
    (hl : op - 1 < s.kept.assay.guards.length) :
    (replanPoint own d2 d s op).kept.assay = { s.kept.assay with guards := s.kept.assay.guards.set (op - 1) (guardFormula op d2) } ∧
    (replanPoint own d2 d s op).time = s.time := by
  unfold replanPoint
  rw [if_neg (by simp [hr])]
  dsimp only
  rw [if_neg (by omega), if_pos hg]
  have e : ∀ x : State, (if own = true then { x with assay.lowerRun := x.assay.lowerRun.set (op - 1) 0 } else x).kept = x.kept := by
    intro x; split <;> rfl
  have e2 : ∀ x : State, (if own = true then { x with assay.lowerRun := x.assay.lowerRun.set (op - 1) 0 } else x).time = x.time := by
    intro x; split <;> rfl
  have k : (setGuard op (guardFormula op d2) s).kept.assay = { s.kept.assay with guards := s.kept.assay.guards.set (op - 1) (guardFormula op d2) } := rfl
  have c : ∀ x : State, x.kept = (setGuard op (guardFormula op d2) s).kept → ¬ (op ≤ 2 ∧ opNominal op + x.kept.assay.guards.getD (op - 1) 0 > opCeiling op) := by
    intro x hx
    rw [hx, k]
    simp [List.getD, hl]
    intro _; exact hc
  have h := e (setGuard op (guardFormula op d2) s)
  have h2 := e2 (setGuard op (guardFormula op d2) s)
  rw [if_neg (c _ h), h, k]
  exact ⟨rfl, h2⟩

/-- A re-plan in which every guard is too low and no target reaches its ceiling: each guard is that of R543, no point is removed. -/
theorem replan_raises {own : Bool} {s : State} (hr : s.kept.assay.removed = []) (hl : s.kept.assay.guards.length = 4)
    (h : ∀ op, 1 ≤ op → op ≤ 4 → s.kept.assay.guards.getD (op - 1) 0 < guardFormula op (worstPair s).2 ∧
      opNominal op + guardFormula op (worstPair s).2 ≤ opCeiling op) :
    (replan own s).kept.assay.guards = [guardFormula 1 (worstPair s).2, guardFormula 2 (worstPair s).2, guardFormula 3 (worstPair s).2,
      guardFormula 4 (worstPair s).2] ∧
    (replan own s).kept.assay.removed = [] ∧ (replan own s).assay.lastReplan = s.beat ∧
    (own = true → (replan own s).assay.replanBeats = 0) := by
  obtain ⟨a, b, x, y, hg⟩ : ∃ a b x y, s.kept.assay.guards = [a, b, x, y] := by
    match hq : s.kept.assay.guards, hl with
    | [a, b, x, y], _ => exact ⟨a, b, x, y, rfl⟩
  have c1 := h 1 (by decide) (by decide)
  have c2 := h 2 (by decide) (by decide)
  have c3 := h 3 (by decide) (by decide)
  have c4 := h 4 (by decide) (by decide)
  rw [hg] at c1 c2 c3 c4
  simp only [List.getD_cons_zero, List.getD_cons_succ, Nat.sub_self, show (2 : Nat) - 1 = 1 from rfl, show (3 : Nat) - 1 = 2 from rfl,
    show (4 : Nat) - 1 = 3 from rfl] at c1 c2 c3 c4
  have k : ∀ d, ([1, 2, 3, 4].foldl (replanPoint own (worstPair s).2 d) s).kept.assay.guards =
        [guardFormula 1 (worstPair s).2, guardFormula 2 (worstPair s).2, guardFormula 3 (worstPair s).2, guardFormula 4 (worstPair s).2] ∧
      ([1, 2, 3, 4].foldl (replanPoint own (worstPair s).2 d) s).kept.assay.removed = [] := by
    intro d
    generalize (worstPair s).2 = w at *
    simp only [List.foldl]
    have p1 := replanPoint_raises (own := own) (d := d) (s := s) (op := 1) (d2 := w) hr (by rw [hg]; exact c1.1) c1.2 (by simp [hg])
    generalize replanPoint own w d s 1 = s1 at *
    have p2 := replanPoint_raises (own := own) (d := d) (s := s1) (op := 2) (d2 := w) (by rw [p1.1]; exact hr) (by rw [p1.1, hg]; exact c2.1)
      c2.2 (by simp [p1.1, hg])
    generalize replanPoint own w d s1 2 = s2 at *
    have p3 := replanPoint_raises (own := own) (d := d) (s := s2) (op := 3) (d2 := w) (by rw [p2.1, p1.1]; exact hr)
      (by rw [p2.1, p1.1, hg]; exact c3.1) c3.2 (by simp [p2.1, p1.1, hg])
    generalize replanPoint own w d s2 3 = s3 at *
    have p4 := replanPoint_raises (own := own) (d := d) (s := s3) (op := 4) (d2 := w) (by rw [p3.1, p2.1, p1.1]; exact hr)
      (by rw [p3.1, p2.1, p1.1, hg]; exact c4.1) c4.2 (by simp [p3.1, p2.1, p1.1, hg])
    rw [p4.1, p3.1, p2.1, p1.1, hg]; exact ⟨rfl, hr⟩
  have q : ∀ x : State, (replanEnd own s x).kept = x.kept ∧ (replanEnd own s x).assay.lastReplan = s.beat ∧
      (own = true → (replanEnd own s x).assay.replanBeats = 0) := by
    intro x
    unfold replanEnd
    dsimp only
    rw [(judgeFull_keeps _).1, (judgeFull_keeps _).2, (applyTarget_keeps _ _).1, (applyTarget_keeps _ _).2]
    split
    · exact ⟨rfl, rfl, fun ho => by simp [raise, raiseAt, assayCount, assayCountBy, ho]⟩
    · exact ⟨rfl, rfl, fun ho => by simp [assayCount, assayCountBy, ho]⟩
  unfold replan
  rw [(q _).1]
  exact ⟨(k _).1, (k _).2, (q _).2⟩

/-- The hottest of readings that are all at most `m` reads at most `m`. -/
theorem hottest_le {m : Int} {s : State} (h : ∀ i < 8, s.assay.temps.getD i 0 ≤ m) : (hottest s).2 ≤ m := by
  have step : ∀ (ns : List Nat) (b : Nat × Int), b.2 ≤ m → (∀ i ∈ ns, s.assay.temps.getD i 0 ≤ m) →
      (ns.foldl (fun b i => if s.assay.temps.getD i 0 > b.2 then (i, s.assay.temps.getD i 0) else b) b).2 ≤ m := by
    intro ns
    induction ns with
    | nil => intro b hb _; exact hb
    | cons n r ih =>
      intro b hb hn
      simp only [List.foldl_cons]
      apply ih
      · split
        · exact hn n (by simp)
        · exact hb
      · intro i hi; exact hn i (by simp [hi])
  exact step (List.range 8) (0, s.assay.temps.getD 0 0) (h 0 (by decide)) (fun i hi => h i (by simpa using hi))

theorem outOfSpec_calm {s : State} (hb : (List.range 8).filter (fun i => decide (s.assay.temps.getD i 0 < (-400 : Int)) ||
    decide (s.assay.temps.getD i 0 > (1100 : Int))) = []) (hv : s.assay.vcoreOff = none) :
    outOfSpec s = { s with assay.oosNow := false } := by
  unfold outOfSpec
  simp only [hb, hv, List.isEmpty_nil, Bool.not_true, Bool.or_false, Bool.false_eq_true, false_and, if_false, List.head?_nil]

/-- A reading within the specification while the core rail is on its target (R549, R559). -/
theorem sensorSeen_calm {l : List Int} {p : Nat} {s : State} (h : ∀ i < 8, -400 ≤ l.getD i 0 ∧ l.getD i 0 ≤ 1100) (hv : s.assay.vcoreOff = none) :
    sensorSeen l p s = { s with
      assay.temps := (List.range 8).map (fun i => l.getD i 0), assay.pEst := p, assay.sensorBeat := some s.beat, assay.hotBeats := 0,
      assay.oosNow := false } := by
  have hg : ∀ i < 8, ((List.range 8).map (fun i => l.getD i 0)).getD i 0 = l.getD i 0 := by
    intro i hi; simp [List.getD, hi]
  have hb : (List.range 8).filter (fun i => decide (((List.range 8).map (fun i => l.getD i 0)).getD i 0 < (-400 : Int)) ||
      decide (((List.range 8).map (fun i => l.getD i 0)).getD i 0 > (1100 : Int))) = [] := by
    rw [List.filter_eq_nil_iff]
    intro i hi
    have hi : i < 8 := by simpa using hi
    rw [hg i hi]
    have := h i hi
    simp only [Bool.or_eq_true, decide_eq_true_eq]; omega
  have hh : ¬ ((hottest { s with assay.temps := (List.range 8).map (fun i => l.getD i 0), assay.pEst := p, assay.sensorBeat := some s.beat }).2 ≥ 1180) := by
    have := hottest_le (m := 1100) (s := { s with assay.temps := (List.range 8).map (fun i => l.getD i 0), assay.pEst := p, assay.sensorBeat := some s.beat })
      (fun i hi => by rw [hg i hi]; exact (h i hi).2)
    omega
  unfold sensorSeen
  dsimp only
  rw [if_neg hh]
  generalize (List.range 8).map (fun i => l.getD i 0) = x at hb
  exact outOfSpec_calm hb hv

/-- The governor at a plan commit while nothing is hot: it stays at level 0, and a declared resistance of at most 1.20 °C/W bars nothing. -/
theorem governor_calm {s : State} (h0 : s.assay.govLevel = 0) (ht : ∀ k ∈ [1, 2, 3], (hottest s).2 < govThreshold s k)
    (hr : s.kept.assay.config.thetaJa ≠ 0 ∧ s.kept.assay.config.thetaJa ≤ 120)
    (hf : s.power.fullAllowed = (!s.kept.assay.removed.contains 3 && !s.kept.assay.removed.contains 4)) :
    governor s = { s with assay.coolBeats := 0, assay.ambientBar := false } := by
  have a1 : ¬ (hottest s).2 ≥ govThreshold s 1 := by have := ht 1 (by simp); omega
  have a2 : ¬ (hottest s).2 ≥ govThreshold s 2 := by have := ht 2 (by simp); omega
  have a3 : ¬ (hottest s).2 ≥ govThreshold s 3 := by have := ht 3 (by simp); omega
  unfold governor
  dsimp only
  rw [h0]
  simp only [a1, a2, a3, if_false, if_true, gt_iff_lt, Nat.lt_irrefl, false_and, show ¬ ((0 : Nat) ≥ 1000) by decide]
  have hj : ∀ x : State, x.kept = s.kept → judgeAmbient x = { x with assay.ambientBar := false } := by
    intro x hx
    unfold judgeAmbient
    rw [hx]
    dsimp only
    congr 2
    rw [if_neg hr.1, if_pos hr.2]
  have hk : ∀ x : State, x.kept = s.kept → (judgeAmbient x).assay.ambientBar = false := by intro x hx; rw [hj x hx]
  rw [if_neg (by rw [hk] <;> simp), hj]
  unfold judgeFull setFullAllowed fullNow
  dsimp only
  rw [if_pos (by rw [hf]; simp)]
  rw [← h0]

end Sys2Proof.Laws
end

