-- ==== Sys2Proof/Laws/Beat.lean ====
section
/-! SUPPORT. What the parts of a commit window do while nothing but the counts of beats is due. -/

namespace Sys2Proof.Laws
open Machine

theorem takeSettings_plain {x : State} (h : x.plan.late = none) : takeSettings x = { x with kept := x.next } := by
  unfold takeSettings lateSettings
  dsimp only
  rw [h]

theorem timeSettings_plain {k : Kept} {x : State} (h1 : x.kept.time.servo.src = k.time.servo.src)
    (h2 : x.kept.time.pps.inEnable = k.time.pps.inEnable) : timeSettings k x = x := by
  unfold timeSettings
  dsimp only
  rw [h1, h2]
  simp

/-- The timebase at a commit window with nothing staged: the count of R47 goes on, no unit changes its plan. -/
theorem timeCommit_plain {b n : Nat} {x : State} (h1 : x.time.fadjNext = none) (h2 : x.time.clearIntegral = false)
    (h3 : x.time.units = []) (h4 : x.time.settling = false) :
    timeCommit b n x = { x with time.srcBeats := if srcCounting x then x.time.srcBeats + n else x.time.srcBeats } := by
  unfold timeCommit
  simp only [h1, h2, Bool.false_eq_true, if_false]
  rw [h3, List.foldl_nil, h4]

theorem ppsSettings_plain {k : Kept} {x : State} (h : x.kept.time.pps = k.time.pps) : ppsSettings k x = x := by
  unfold ppsSettings
  dsimp only
  rw [h]
  split
  · next e => rw [if_pos ⟨e, rfl, rfl⟩]
  · next e => rw [if_neg (fun h => e h.1)]

/-- The power sequencer at a commit window with no change under way. -/
theorem powerCommit_plain {b n : Nat} {x : State} (h1 : x.power.opNext = none) (h2 : x.power.change = none) (h3 : x.power.waking = none) :
    powerCommit b n x = { x with power.opBeats := x.power.opBeats + n,
                                 power.fullBeats := if x.power.fullAllowed then x.power.fullBeats + n else 0 } := by
  unfold powerCommit
  dsimp only
  rw [h1]
  dsimp only
  rw [h2]
  dsimp only
  rw [h3]

theorem durableCommit_plain {b : Nat} {x : State} (h : x.stw.jobs = []) : durableCommit b x = x := by
  unfold durableCommit
  split
  · rfl
  · rw [h]; rfl

theorem assayCommit_plain {n : Nat} {x : State} (h1 : x.assay.lifeDormant = 0) (h2 : x.assay.replanning = none) (h3 : x.stw.state ≠ .rom)
    (h4 : x.power.mode ≠ .doze) (h5 : x.power.mode ≠ .dormant) :
    assayCommit n x = { x with
      assay.pairBeats := x.assay.pairBeats + n, assay.replanBeats := x.assay.replanBeats + n
      assay.lifeBeats := x.assay.lifeBeats + n, assay.chipWdog := x.assay.chipWdog + n } := by
  unfold assayCommit replanCommit
  dsimp only
  rw [if_pos (Or.inl h1)]
  dsimp only
  rw [h2]
  simp [h3, h4, h5]

theorem dozeCommit_awake {b : Nat} {x : State} (h : x.power.mode ≠ .doze) : dozeCommit b x = x := by
  unfold dozeCommit
  rw [if_pos (Or.inl h)]

/-- No doorbell waits after a change of the lanes that leaves their orders alone. -/
theorem orders_map {s x : State} {f : Lane → Lane} (hf : ∀ l, (f l).order = l.order) (hx : x.stw.lanes = s.stw.lanes.map f)
    (h : (List.range 4).all (fun n => (s.lane n).order.isEmpty) = true) : (List.range 4).all (fun n => (x.lane n).order.isEmpty) = true := by
  rw [List.all_eq_true] at h ⊢
  intro n hn
  have a := h n hn
  have b : n < 4 := by simpa using hn
  unfold State.lane at a ⊢
  rw [hx]
  simp [Vector.getD, Array.getD, b, hf] at a ⊢
  exact a

/-- A commit window outside start-up and READY, step by step. -/
theorem commitWindow_steps {s0 y s1 s2 s3 s4 : State} {b n : Nat} (hb : max s0.time.nextCommit s0.beat = b)
    (hn : b + 1 - s0.time.nextCommit = n) (hc : clockRuns s0 = true) (hr : s0.time.rebase = none) (hy : advanceTo (b * 1000000) s0 = y)
    (e1 : takeSettings { y with time.nextCommit := b + 1 } = s1) (hs : y.time.settling = false)
    (e2 : ppsSettings y.kept (stewardTsq (timeCommit b n (timeSettings y.kept s1))) = s2) (e3 : laneCommit n (powerCommit b n s2) = s3)
    (h3 : s3.boot.stage = 9) (e4 : assayCommit n (durableCommit b (ingotCommit n s3)) = s4)
    (hk : s4.kept.assay.config = y.kept.assay.config) (hz : s4.stw.state ≠ .ready) (hd : s4.power.mode ≠ .doze)
    (hp : s4.kept.time.portComp = y.kept.time.portComp ∧ delayResults s4.kept.front.results = delayResults y.kept.front.results) :
    commitWindow s0 = s4 := by
  unfold commitWindow
  rw [hb]
  extract_lets b1 n1 y1 u t1 t2 t3 t4 t5 t6 t7 v t8
  rw [if_neg (by rw [hc, hr]; simp)]
  have a0 : y1 = y := hy
  have a1 : t1 = s1 := by rw [← e1, ← a0]
  have a2 : t2 = timeSettings y.kept s1 := by
    rw [← a1, ← a0]
    show timeSettings y1.kept (if y1.time.settling then rearmHeld b1 t1 else t1) = _
    rw [if_neg (by rw [a0, hs]; simp)]
  have a3 : t3 = s3 := by
    show laneCommit n1 (powerCommit b1 n1 (ppsSettings y1.kept (stewardTsq (timeCommit b1 n1 t2)))) = s3
    rw [a2, a0, ← e3, ← e2, ← hn]
  have a4 : t4 = s3 := by
    rw [← a3]; exact if_neg (by rw [a3, h3]; simp)
  have a5 : t5 = s3 := by
    rw [← a4]; exact if_neg (by rw [a4, h3]; simp)
  have a6 : t6 = s4 := by
    show assayCommit n1 (durableCommit b1 (ingotCommit n1 t5)) = s4
    rw [a5, ← e4, ← hn]
  have a7 : t7 = s4 := by
    rw [← a6]; exact if_neg (by rw [a6, a0, hk]; simp)
  have a8 : t8 = s4 := by
    rw [← a7]; exact if_neg (by rw [a7]; exact fun h => hz h.1)
  rw [a8, a0, dozeCommit_awake hd]
  exact notePast_same hp

/-- A commit window in Recovery with nothing under way: the accepted settings, and the counts of beats. -/
theorem commitWindow_recovery {s0 y : State} {b n : Nat} (hb : max s0.time.nextCommit s0.beat = b)
    (hn : b + 1 - s0.time.nextCommit = n) (hc : clockRuns s0 = true) (hr : s0.time.rebase = none) (hy : advanceTo (b * 1000000) s0 = y)
    (h2 : y.boot.stage = 9 ∧ y.stw.state = .recovery ∧ y.power.mode = .recovery)
    (h4 : y.time.settling = false ∧ y.time.fadjNext = none ∧ y.time.clearIntegral = false ∧ y.time.units = [])
    (h5 : y.plan.late = none ∧ y.stw.jobs = [] ∧ y.power.opNext = none ∧ y.power.change = none ∧ y.power.waking = none)
    (h6 : y.assay.lifeDormant = 0 ∧ y.assay.replanning = none) (h7 : y.next.time.servo.src = 0 ∧ y.kept.time.servo.src = 0)
    (h8 : y.next.time.pps = y.kept.time.pps) (h9 : y.next.assay.config = y.kept.assay.config)
    (h10 : y.next.time.portComp = y.kept.time.portComp ∧ delayResults y.next.front.results = delayResults y.kept.front.results) :
    commitWindow s0 = { y with
      kept := y.next, time.nextCommit := b + 1, power.opBeats := y.power.opBeats + n
      power.fullBeats := if y.power.fullAllowed then y.power.fullBeats + n else 0
      stw.lanes := y.stw.lanes.map (fun l => if l.claimed then { l with leaseLeft := l.leaseLeft - n, wdogLeft := l.wdogLeft - n } else l)
      stw.uptime := y.stw.uptime + n, stw.heartBeats := y.stw.heartBeats + n, assay.pairBeats := y.assay.pairBeats + n
      assay.replanBeats := y.assay.replanBeats + n, assay.lifeBeats := y.assay.lifeBeats + n, assay.chipWdog := y.assay.chipWdog + n } := by
  have c0 : ∀ x : State, x.kept = y.next → srcCounting x = false := by
    intro x hx; unfold srcCounting; rw [hx, h7.1]; rfl
  refine commitWindow_steps (s3 := { y with
      kept := y.next, time.nextCommit := b + 1, power.opBeats := y.power.opBeats + n
      power.fullBeats := if y.power.fullAllowed then y.power.fullBeats + n else 0
      stw.lanes := y.stw.lanes.map (fun l => if l.claimed then { l with leaseLeft := l.leaseLeft - n, wdogLeft := l.wdogLeft - n } else l)
      stw.uptime := y.stw.uptime + n, stw.heartBeats := y.stw.heartBeats + n })
    (s2 := { y with kept := y.next, time.nextCommit := b + 1 }) hb hn hc hr hy (takeSettings_plain h5.1) h4.1 ?_ ?_ h2.1 ?_ h9 ?_ ?_ h10
  · rw [timeSettings_plain (by exact h7.1.trans h7.2.symm) (by exact congrArg _ h8), timeCommit_plain (by exact h4.2.1) (by exact h4.2.2.1) (by exact h4.2.2.2) (by exact h4.1), c0 _ (by rfl)]
    unfold stewardTsq
    rw [if_neg (fun h => by have := h.1.symm.trans h2.2.1; cases this)]
    exact ppsSettings_plain h8
  · rw [powerCommit_plain (by exact h5.2.2.1) (by exact h5.2.2.2.1) (by exact h5.2.2.2.2)]
    unfold laneCommit countDown
    dsimp only
    rw [h2.2.2, h2.2.1]
    rfl
  · have e : ∀ x : State, x.boot.stage = 9 → ingotCommit n x = x := fun x hx => by
      unfold ingotCommit; rw [if_pos (by rw [hx]; decide)]
    rw [e _ (by exact h2.1), durableCommit_plain (by exact h5.2.1),
      assayCommit_plain (by exact h6.1) (by exact h6.2) (by exact h2.2.1 ▸ nofun) (by exact h2.2.2 ▸ nofun) (by exact h2.2.2 ▸ nofun)]
  · exact h2.2.1 ▸ nofun
  · exact h2.2.2 ▸ nofun

end Sys2Proof.Laws
end

