-- ==== Sys2Proof/Laws/Boot.lean ====
section
/-! SUPPORT. The encryption of field key material in the Ingot: what the key store wrote it reads back. -/

namespace Sys2Proof.Laws
open Sys2Proof.Machine

/-- A keystream laid over a byte list twice. -/
theorem mapIdx_xor_twice (l : List Byte) (g : Nat → Byte) :
    (l.mapIdx (fun i b => b ^^^ g i)).mapIdx (fun i b => b ^^^ g i) = l := by
  apply List.ext_getElem
  · simp
  · intro i h1 h2
    simp [BitVec.xor_assoc]

/-- Field key material that goes under the device key twice is in the clear again (R264, log entry 109). -/
theorem sealKeys_sealKeys (m : List (Nat × KeyEntry)) : sealKeys (sealKeys m) = m := by
  induction m with
  | nil => rfl
  | cons e m ih =>
    unfold sealKeys Map.mapVals at ih ⊢
    rw [List.map_cons, List.map_cons, ih]
    dsimp only
    rw [mapIdx_xor_twice]

/-- The Kept values that a flash copy holds are, opened, the ones that were saved, but for the records that are not Kept (R160, R181, R528). -/
theorem openIngot_ingotView (k : Kept) :
    openIngot (ingotView k) = { k with field.children := k.field.children.filter (fun e => !e.2.joining) } := by
  unfold openIngot ingotView
  rw [sealKeys_sealKeys]

end Sys2Proof.Laws
end

