-- ==== Sys2Proof/Laws/Lanes.lean ====
section
/-! SUPPORT. What the shared operations of the lanes do: a claim, a release, a renewal, said once. -/

namespace Sys2Proof.Laws
open Machine

/-- A counter advanced by one is incremented. -/
theorem tally_by (m : List (Nat × Nat)) (k : Nat) : tallyBy m k 1 = tally m k := rfl

/-- A part of the state that every step of a walk leaves as it is. -/
theorem foldl_keeps {α β : Type} (p : State → β) (f : State → α → State) (h : ∀ s x, p (f s x) = p s) (l : List α) (s : State) :
    p (l.foldl f s) = p s := by
  induction l generalizing s with
  | nil => rfl
  | cons x r ih => rw [List.foldl_cons, ih, h]

theorem lanes_lane {s t : State} (h : s.stw.lanes = t.stw.lanes) (n : Nat) : s.lane n = t.lane n := by unfold State.lane; rw [h]

theorem updLane_lanes (n : Nat) (f : Lane → Lane) (s : State) : (updLane n f s).stw.lanes = Bank.modify s.stw.lanes n f := rfl

theorem renewLane_claimed {n : Nat} {s : State} (h : (s.lane n).claimed = true) :
    renewLane n s = updLane n (fun l => { l with
      leaseLeft := (s.laneCfg n).leaseBeats, wdogLeft := (s.laneCfg n).wdogBeats, wdogExpired := false }) s := by
  unfold renewLane; rw [if_pos h]

theorem abandonTrig_lanes (c k : Nat) (s : State) : (abandonTrig c k s).stw.lanes = s.stw.lanes := by
  unfold abandonTrig raise raiseAt updTrig; rfl

theorem abandonTrig_events (c k : Nat) (s : State) : s.stw.events <+: (abandonTrig c k s).stw.events := by
  unfold abandonTrig raise raiseAt updTrig; exact List.prefix_append _ _

theorem sweepTriggers_lanes (p : Nat) (s : State) : (sweepTriggers p s).stw.lanes = s.stw.lanes := by
  unfold sweepTriggers
  apply foldl_keeps (fun s => s.stw.lanes)
  intro s k; split
  · exact abandonTrig_lanes ..
  · rfl

theorem tagHead_stw (q : Nat) (s : State) : (tagHead q s).stw = s.stw := by
  unfold tagHead updQueue; dsimp only; split
  · split <;> rfl
  · rfl

theorem dropLost_stw (s : State) : (dropLost s).stw = s.stw := by
  unfold dropLost
  dsimp only
  exact foldl_keeps (fun s => s.stw) _ (fun s (x : Nat × PQueue) => tagHead_stw x.1 s) _ _

theorem sweepCells_stw (p : Nat) (s : State) : (sweepCells p s).stw = s.stw := by
  unfold sweepCells
  apply foldl_keeps (fun s => s.stw)
  intro s e; dsimp only; split
  · unfold freeCells; rfl
  · split <;> rfl

theorem disableHostRings_stw (s : State) : (disableHostRings s).stw = s.stw := by
  unfold disableHostRings
  apply foldl_keeps (fun s => s.stw)
  intro s e; split
  · unfold disableRing updRing; rfl
  · rfl

theorem sweepDports_stw (p : Nat) (s : State) : (sweepDports p s).stw = s.stw := by
  unfold sweepDports
  apply foldl_keeps (fun s => s.stw)
  intro s k; split
  · unfold updDport; rfl
  · rfl

theorem sweepResources_lanes (p : Nat) (s : State) : (sweepResources p s).stw.lanes = s.stw.lanes := by
  unfold sweepResources; dsimp only; split
  · rw [disableHostRings_stw, sweepDports_stw, dropLost_stw, sweepCells_stw, sweepTriggers_lanes]
  · rw [sweepDports_stw, dropLost_stw, sweepCells_stw, sweepTriggers_lanes]

/-- The lane after a release of a lane that has no open command and no rung slot (R98). -/
def releasedLane (cause : Nat) (l : Lane) : Lane :=
  { l with
    claimed := false, nonce := 0, wdogExpired := false, leaseLeft := 0, wdogLeft := 0
    slots := l.slots.map (fun x => { x with phase := .free, accepted := false }), order := []
    wrIdx := 0, rdIdx := 0, phase := true, entrySeq := 0, lostMark := false, ring := [], writtenAt := [], bulk := []
    leaseExpireCnt := if cause = 1 then satInc 32 l.leaseExpireCnt else l.leaseExpireCnt }

/-- A release of a lane that has no open command and no rung slot: its own lane is as new, every other lane as before, and the event is raised. -/
theorem releaseLane_idle {n cause : Nat} {s : State} (h : s.stw.jobs.filter (fun j => j.lane = n) = []) (ho : (s.lane n).order = []) :
    (releaseLane n cause s).stw.lanes = Bank.modify s.stw.lanes n (releasedLane cause) ∧
    ∃ e ∈ (releaseLane n cause s).stw.events, e.source = 45 ∧ e.code = 0x0102 ∧ e.data = le 1 n ++ le 1 cause ∧ e.skip = n := by
  unfold releaseLane
  rw [h, ho]
  simp only [List.filter_nil, List.foldl_nil]
  generalize hx : updLane n _ _ = x
  have hl : x.stw.lanes = Bank.modify s.stw.lanes n (releasedLane cause) := by rw [← hx]; rfl
  clear hx
  have hs := sweepResources_lanes (laneOwner n) x
  generalize sweepResources (laneOwner n) x = y at hs
  constructor
  · split
    · unfold setInt; exact hs.trans hl
    · exact hs.trans hl
  · split
    · unfold setInt; exact ⟨_, List.mem_append_right _ (List.mem_singleton.2 rfl), rfl, rfl, rfl, rfl⟩
    · exact ⟨_, List.mem_append_right _ (List.mem_singleton.2 rfl), rfl, rfl, rfl, rfl⟩

theorem foldl_id {α : Type} (f : State → α → State) (s : State) (l : List α) (h : ∀ x, f s x = s) : l.foldl f s = s := by
  induction l with
  | nil => rfl
  | cons x r ih => rw [List.foldl_cons, h, ih]

/-- While the Steward does not serve and the ROM does not wait for a host load, no held doorbell is accepted. -/
theorem serveHeld_idle {s : State} (h1 : serving s = false) (h2 : hostLoading s = false) : serveHeld s = s := by
  have hl : ∀ n, serveLane s n = s := by
    intro n; unfold serveLane
    split
    · rw [if_neg (by simp [acceptable, h1, romTakes, h2])]
    · rfl
  unfold serveHeld
  split
  · rfl
  · exact foldl_id _ _ _ (fun _ => foldl_id _ _ _ hl)

/-- Where no doorbell waits there is none to accept. -/
theorem serveHeld_none {s : State} (h : (List.range 4).all (fun n => (s.lane n).order.isEmpty) = true) : serveHeld s = s := by
  unfold serveHeld; rw [if_pos h]

/-- A doorbell of a FREE slot of a claimed lane, no entry to Doze or Dormant running: BUSY, behind the doorbells that wait, the lease
renewed (R99, R102, R103, R104). -/
theorem ringSlot_held {n k : Nat} {s : State} (hn : n < 4) (hc : (s.lane n).claimed = true) (hp : (s.slot n k).phase = .free)
    (he : s.power.entry = none) (hf : s.stw.state ≠ .fault) :
    ringSlot n k s = updLane n (fun l => { l with
      slots := Bank.modify l.slots k (fun x => { x with phase := .held, accepted := false }), order := l.order ++ [k],
      leaseLeft := (s.laneCfg n).leaseBeats, wdogLeft := (s.laneCfg n).wdogBeats, wdogExpired := false }) s := by
  unfold ringSlot
  rw [if_neg (by simp [hc, hf]), if_neg (by simp [hp])]
  simp only [updSlot_eq, updLane_updLane]
  unfold renewLane
  rw [if_pos (by simp [hn, hc])]
  unfold doorbellWake
  simp only [updLane_power, he]
  simp only [updLane_updLane, State.laneCfg, updLane_kept]

/-- A command sent to a FREE slot of a claimed lane while the Steward does not serve: the slot holds it and the bulk region what came with it, BUSY, behind the doorbells that
wait (R103, R104, R517). -/
theorem submit_waiting {op : Nat} {h : Handler} {c : Cmd} {s : State} (hl : c.lane < 4) (hk : c.slot < 16) (hw : windowUp s = true)
    (hc : (s.lane c.lane).claimed = true) (hp : (s.slot c.lane c.slot).phase = .free) (he : s.power.entry = none)
    (hf : s.stw.state ≠ .fault) (hs : serving s = false) (hr : hostLoading s = false) :
    submit op h c s = updLane c.lane (fun l => { l with
      slots := Bank.modify l.slots c.slot (fun x => { x with opcode := op, cmd := c, phase := .held, accepted := false })
      bulk := Memory.writeList l.bulk c.bulkOff c.region, order := l.order ++ [c.slot], leaseLeft := (s.laneCfg c.lane).leaseBeats, wdogLeft := (s.laneCfg c.lane).wdogBeats,
      wdogExpired := false }) s := by
  have hfresh : ((s.lane c.lane).claimed && decide ((s.slot c.lane c.slot).phase = .free) && decide (s.stw.state ≠ .fault)) = true := by
    simp [hc, hp, hf]
  unfold submit
  rw [if_neg (by simp [hw]; omega)]
  simp only [hfresh, if_true, Bool.true_and]
  rw [ringSlot_held hl (by simp [hl, hc]) (by unfold State.slot at hp ⊢; simp [hl, hk, hp]) (by simp [updLane, he])
    (by simpa [updLane] using hf)]
  simp only [updLane_updLane, laneCfg_updLane]
  rw [if_neg]
  · simp only [modify_modify]
  · unfold acceptable romTakes
    have : hostLoading (updLane c.lane (fun l => { l with
      slots := Bank.modify (Bank.modify l.slots c.slot (fun x => { x with opcode := op, cmd := c })) c.slot (fun x => { x with phase := .held, accepted := false })
      bulk := Memory.writeList l.bulk c.bulkOff c.region, order := l.order ++ [c.slot]
      leaseLeft := (s.laneCfg c.lane).leaseBeats, wdogLeft := (s.laneCfg c.lane).wdogBeats, wdogExpired := false }) s) = hostLoading s := by unfold hostLoading updLane; rfl
    simp only [serving_updLane, hs, this, hr]
    simp

/-- A hard claim that succeeds: the lane is held under the new nonce (R97). -/
theorem hardClaim_takes {n nonce : Nat} {s : State} (hn : n < 4) (h0 : 0 < nonce) (h1 : nonce < 65536)
    (h : (s.lane n).claimed = false ∨ (s.lane n).wdogExpired = true) :
    ((judgeHardClaim n nonce s).lane n).claimed = true ∧ ((judgeHardClaim n nonce s).lane n).nonce = nonce ∧
      ((judgeHardClaim n nonce s).lane n).wdogExpired = false ∧
      ((judgeHardClaim n nonce s).lane n).leaseLeft = ((judgeHardClaim n nonce s).laneCfg n).leaseBeats := by
  have e : nonce % 65536 = nonce := by omega
  have k : ∀ x : State, ((claimLane n nonce x).lane n).claimed = true ∧ ((claimLane n nonce x).lane n).nonce = nonce ∧
      ((claimLane n nonce x).lane n).wdogExpired = false ∧ ((claimLane n nonce x).lane n).leaseLeft = ((claimLane n nonce x).laneCfg n).leaseBeats := by
    intro x
    unfold claimLane
    rw [lane_updLane]
    simp [hn]
  unfold judgeHardClaim
  rw [e, if_neg (by omega)]
  by_cases hc : (s.lane n).claimed = false
  · rw [if_pos (by simp [hc])]; exact k s
  · rw [if_neg (by simpa using hc), if_pos (by simpa [hc] using h)]; exact k _

/-- A request of a warm reset changes the plan of the reset and the wish for a flash copy, and leaves a reset requested. -/
theorem requestWarm_frame (recovery : Bool) (delay cause : Nat) (s : State) :
    requestWarm recovery delay cause s = { s with
      stw.warmReq := (requestWarm recovery delay cause s).stw.warmReq, stw.saveNow := (requestWarm recovery delay cause s).stw.saveNow } := by
  unfold requestWarm
  split
  · rfl
  · split <;> rfl

theorem requestWarm_isSome (recovery : Bool) (delay cause : Nat) (s : State) :
    (requestWarm recovery delay cause s).stw.warmReq.isSome = true := by
  unfold requestWarm
  split
  · rfl
  · split <;> rfl

end Sys2Proof.Laws
end

