-- ==== Sys2Proof/Laws/Burnisher.lean ====
section
/-! SUPPORT. The targets of the Burnisher: only closed-loop power control makes them depend on the settings. -/

namespace Sys2Proof.Laws
open Machine

/-- The targets of every calibration but the transmit power are the same under all settings (Table 6-18). -/
theorem calSubs_fixed {id : Nat} (h : id ≠ 7) (s u : State) (t : Nat) : calSubs s id t = calSubs u id t := by
  unfold calSubs; simp [h]

/-- A choice among the targets that takes none of the transmit power's is the same under all settings. -/
theorem calTargets_filter {p : Nat × Nat × Nat → Bool} (h : ∀ x, x.1 = 7 → p x = false) (s u : State) :
    (calTargets s).filter p = (calTargets u).filter p := by
  unfold calTargets
  rw [List.filter_flatten, List.filter_flatten, List.map_map, List.map_map]
  congr 1
  apply List.map_congr_left
  intro i _
  simp only [Function.comp]
  by_cases hi : i + 1 = 7
  · have e : ∀ v : State, ((calUnits.map (fun t => (calSubs v (i + 1) t).map (fun k => (i + 1, t, k)))).flatten).filter p = [] := by
      intro v
      rw [List.filter_eq_nil_iff]
      intro x hx
      simp only [List.mem_flatten, List.mem_map] at hx
      obtain ⟨_, ⟨t, _, rfl⟩, hx⟩ := hx
      obtain ⟨k, _, rfl⟩ := List.mem_map.1 hx
      rw [h _ hi]; decide
    rw [e, e]
  · congr 2
    apply List.map_congr_left
    intro t _
    rw [calSubs_fixed hi s u]

end Sys2Proof.Laws
end

