-- ==== Sys2Proof/Laws/Commands.lean ====
section
/-! SUPPORT. What holds of every command of the Steward's command sets alike. -/

namespace Sys2Proof.Laws
open Machine

/-- Every row of the command sets is sent the same way, under its opcode, and judged by that opcode's table. -/
theorem exec_command {i : Instr} {c : Cmd} (h : i.cmd? = some c) (s : State) :
    exec i s = act (submit i.opcode (handlerOf i.opcode) c) s := by
  cases i <;> cases h <;> rfl

/-- Every row but those on the resets is an effect on everything but the queue, and none while a reset is held. -/
theorem exec_act {i : Instr} (h : i.onReset = false) (s : State) : ∃ f, exec i s = act f s := by
  cases i <;> first
    | exact ⟨_, rfl⟩
    | cases h

/-- Every row answers a next state with the interrupts told of and the queue as it was, or is the refusal of the test state. -/
theorem exec_next (i : Instr) (s : State) :
    (∃ x, exec i s = .next (settle x) ∧ x.pending = s.pending) ∨
      (∃ b a f, i = .porRelease b a f true ∧ s.boot.porHeld = true ∧ exec i s = .refused .testMode) := by
  have ha : ∀ f : State → State, ∃ x, act f s = .next (settle x) ∧ x.pending = s.pending := by
    intro f
    unfold act
    split
    · exact ⟨_, rfl, rfl⟩
    · exact ⟨_, rfl, rfl⟩
  by_cases h : i.onReset = false
  · obtain ⟨f, hf⟩ := exec_act h s
    exact .inl (by rw [hf]; exact ha f)
  · have hb : ∀ f : State → State, ∃ x, actAlways f s = .next (settle x) ∧ x.pending = s.pending := fun f => ⟨_, rfl, rfl⟩
    cases i <;> first
      | exact absurd rfl h
      | exact .inl (hb _)
      | skip
    next b a f t =>
      show (∃ x, execPorRelease b a f t s = _ ∧ _) ∨ _
      unfold execPorRelease
      by_cases ht : t = true ∧ s.boot.porHeld = true
      · exact .inr ⟨b, a, f, by rw [ht.1], ht.2, by show execPorRelease b a f t s = _; unfold execPorRelease; rw [if_pos ht]⟩
      · rw [if_neg ht]; exact .inl (hb _)

theorem settle_reported (x : State) : reported (settle x) := by
  unfold reported
  rw [show intStatus (settle x) = intStatus x from rfl]
  rfl

/-- While a reset is held, a row that is not on the resets changes nothing. -/
theorem exec_held {i : Instr} {s : State} (h : i.onReset = false) (ha : alive s = false) : ∃ t, exec i s = .next t ∧ became s t := by
  obtain ⟨f, hf⟩ := exec_act h s
  refine ⟨_, hf.trans (act_held ha), ?_⟩
  unfold became settle
  rfl

/-- A command sent to an unclaimed lane: its doorbell is counted. -/
theorem submit_unclaimed {op : Nat} {h : Handler} {c : Cmd} {s : State} (hl : c.lane < 4) (hk : c.slot < 16) (hw : windowUp s = true)
    (hc : (s.lane c.lane).claimed = false) :
    submit op h c s = updLane c.lane (fun l => { l with dbErrCnt := satInc 16 l.dbErrCnt }) s := by
  unfold submit
  rw [if_neg (by simp [hw]; omega)]
  simp only [hc, Bool.false_and, Bool.false_eq_true, if_false]
  unfold ringSlot
  rw [if_pos (Or.inl (by rw [hc]; rfl))]
  unfold doorbellError
  rw [if_neg (by rw [hc]; simp)]

/-- A command sent to a slot that is not FREE: counted, reported, the lease renewed, the slot as it was. -/
theorem submit_taken {op : Nat} {h : Handler} {c : Cmd} {s : State} (hl : c.lane < 4) (hk : c.slot < 16) (hw : windowUp s = true)
    (hc : (s.lane c.lane).claimed = true) (hp : (s.slot c.lane c.slot).phase ≠ .free) (hf : s.stw.state ≠ .fault) :
    submit op h c s = raise 45 0x0103 (le 1 c.lane ++ le 1 c.slot) (updLane c.lane (fun l => { l with
      dbErrCnt := satInc 16 l.dbErrCnt, leaseLeft := (s.laneCfg c.lane).leaseBeats, wdogLeft := (s.laneCfg c.lane).wdogBeats
      wdogExpired := false }) s) := by
  unfold submit
  rw [if_neg (by simp [hw]; omega)]
  simp only [hp, decide_false, Bool.and_false, Bool.false_and, Bool.false_eq_true, if_false]
  unfold ringSlot
  rw [if_neg (by simp [hc, hf]), if_pos hp]
  unfold doorbellError
  rw [if_pos ⟨hc, hf⟩]
  unfold renewLane raise raiseAt
  dsimp only
  rw [if_pos (by unfold State.lane updLane; simp [hl]; exact hc)]
  simp [updLane, State.laneCfg, State.stamp, State.ns, State.frac]
  rw [modify_modify]

/-- A command accepted at once and turned away before it does anything. -/
theorem turned_away {op : Nat} {h : Handler} {c : Cmd} {s : State} {r : Reply} (ha : acceptedNow c s = true)
    (hp : perform op h c s.stw.nextJob (taken op c s) = (taken op c s, .reply r)) (hr : r.status ≠ stOk) :
    ∃ t, act (submit op h c) s = .next t ∧ ended op c s r s t := by
  obtain ⟨hal, _, hl, hk, _, _, _, hs⟩ := (acceptedNow_iff c s).1 ha
  have hst : (taken op c s).stw.state ≠ .restarting := by
    rw [taken_stw_state]; rcases serving_state hs with e | e <;> rw [e] <;> decide
  refine ⟨_, act_alive hal, ?_, ?_, ?_⟩
  · unfold answered
    rw [settle_slot, apart_reply ha hp (.inr hr) hst]
    exact deliver_slot (j := jobOf op c s) hl hk
  · intro n k hn
    rw [settle_slot, apart_reply ha hp (.inr hr) hst]
    exact (deliver_slot_other (j := jobOf op c s) hn).trans (taken_slot_other op c s n k hn)
  · rw [apart_reply ha hp (.inr hr) hst]
    have key : ∀ y : State, y.stw = { (taken op c s).stw with lanes := y.stw.lanes } → sameParts y s → y.pending = s.pending →
        settle y = { s with
          stw := { s.stw with lanes := (settle y).stw.lanes, nextJob := (settle y).stw.nextJob, msixPrev := (settle y).stw.msixPrev }
          outbox := (settle y).outbox } := by
      intro y e1 e2 e3
      unfold sameParts at e2
      rw [taken_stw] at e1
      unfold settle
      dsimp only
      rw [e1]
      cases y; cases s
      grind
    apply key
    · exact deliver_stw _ _ _
    · unfold sameParts; simp
    · rfl

theorem act_queue (f : State → State) (s : State) (p : List Instr) :
    act f { s with pending := p } = match act f s with
      | .next t => .next { t with pending := p }
      | o => o := by
  unfold act
  rw [show alive { s with pending := p } = alive s from rfl]
  by_cases h : alive s = true
  · rw [if_pos h, if_pos h]; rfl
  · rw [if_neg h, if_neg h]; rfl

/-- No row sees the queue. -/
theorem exec_queue (i : Instr) (s : State) (p : List Instr) :
    exec i { s with pending := p } = match exec i s with
      | .next t => .next { t with pending := p }
      | o => o := by
  cases i
  case porRelease b a f t =>
    show execPorRelease b a f t _ = match execPorRelease b a f t s with | .next t => _ | o => o
    unfold execPorRelease
    split
    · rfl
    · rfl
  all_goals first
    | exact act_queue _ _ _
    | rfl

/-- A command that sets what its table reserves has a wrong field. -/
theorem reserved_bad {fs : List FieldSpec} {c : Cmd} (h : reservedSet fs c = true) : ∃ d, badField fs c = some d := by
  have tab : ∀ f ∈ fs, f.ok c = false → ∃ d, badField fs c = some d := by
    intro f hf hk
    unfold badField
    cases hx : fs.find? (fun f => !f.ok c) with
    | some g => exact ⟨_, rfl⟩
    | none => rw [List.find?_eq_none] at hx; have := hx f hf; simp [hk] at this
  unfold reservedSet at h
  rw [Bool.or_eq_true] at h
  obtain h | h := h
  · obtain ⟨f, hf, hk⟩ := List.any_eq_true.1 h
    refine tab f hf ?_
    unfold FieldSpec.ok
    cases hz : f.kind <;> rw [hz] at hk <;> simp at hk ⊢ <;> exact hk
  · obtain ⟨o, h0, h1⟩ := List.any_eq_true.1 h
    rw [Bool.and_eq_true, decide_eq_true_eq, decide_eq_true_eq] at h1
    obtain ⟨h1, h3⟩ := h1
    have h2 : o < c.length := List.mem_range.1 h0
    unfold badField
    cases fs.find? (fun f => !f.ok c) with
    | some g => exact ⟨_, rfl⟩
    | none =>
      dsimp only
      unfold strayByte
      cases hx : ((List.range (c.length - tableEnd fs)).map (fun i => tableEnd fs + i)).find? (fun o => c.byteAt o ≠ 0) with
      | some d => exact ⟨d, rfl⟩
      | none =>
        rw [List.find?_eq_none] at hx
        have := hx o (List.mem_map.2 ⟨o - tableEnd fs, List.mem_range.2 (by omega), by omega⟩)
        exact absurd (by simpa using this) h3

/-- No doorbell waits after a change of one lane that leaves its order alone. -/
theorem orders_modify {s x : State} {n : Nat} {f : Lane → Lane} (hf : ∀ l, (f l).order = l.order) (hx : x.stw.lanes = Bank.modify s.stw.lanes n f)
    (h : (List.range 4).all (fun k => (s.lane k).order.isEmpty) = true) : (List.range 4).all (fun k => (x.lane k).order.isEmpty) = true := by
  rw [List.all_eq_true] at h ⊢
  intro k hk
  have a := h k hk
  unfold State.lane at a ⊢
  rw [hx, getD_modify]
  split
  · next e => rw [hf, ← e.1]; exact a
  · exact a

end Sys2Proof.Laws
end

