-- ==== Sys2Proof/Laws/Faults.lean ====
section
/-! SUPPORT. What a sweep, a lane release and a unit reset leave as it was: the Assay unit's own record of resets. -/

namespace Sys2Proof.Laws
open Machine

theorem sweepTriggers_assay (p : Nat) (s : State) : (sweepTriggers p s).assay = s.assay := by
  unfold sweepTriggers
  apply foldl_keeps (fun s => s.assay)
  intro s k; split
  · unfold abandonTrig raise raiseAt updTrig; rfl
  · rfl

theorem tagHead_assay (q : Nat) (s : State) : (tagHead q s).assay = s.assay := by
  unfold tagHead updQueue; dsimp only; split
  · split <;> rfl
  · rfl

theorem dropLost_assay (s : State) : (dropLost s).assay = s.assay := by
  unfold dropLost
  dsimp only
  exact foldl_keeps (fun s => s.assay) _ (fun s (x : Nat × PQueue) => tagHead_assay x.1 s) _ _

theorem sweepCells_assay (p : Nat) (s : State) : (sweepCells p s).assay = s.assay := by
  unfold sweepCells
  apply foldl_keeps (fun s => s.assay)
  intro s e; dsimp only; split
  · unfold freeCells; rfl
  · split <;> rfl

theorem disableHostRings_assay (s : State) : (disableHostRings s).assay = s.assay := by
  unfold disableHostRings
  apply foldl_keeps (fun s => s.assay)
  intro s e; split
  · unfold disableRing updRing; rfl
  · rfl

theorem sweepDports_assay (p : Nat) (s : State) : (sweepDports p s).assay = s.assay := by
  unfold sweepDports
  apply foldl_keeps (fun s => s.assay)
  intro s k; split
  · unfold updDport; rfl
  · rfl

theorem sweepResources_assay (p : Nat) (s : State) : (sweepResources p s).assay = s.assay := by
  unfold sweepResources; dsimp only; split
  · rw [disableHostRings_assay, sweepDports_assay, dropLost_assay, sweepCells_assay, sweepTriggers_assay]
  · rw [sweepDports_assay, dropLost_assay, sweepCells_assay, sweepTriggers_assay]

theorem deliverAbandoned_assay (d : Nat) (j : Job) (s : State) : (deliverAbandoned d j s).assay = s.assay := by
  unfold deliverAbandoned
  rw [deliver_assay]
  unfold notePower
  split <;> rfl

theorem releaseLane_assay {n cause : Nat} {s : State} (h : s.stw.jobs = []) : (releaseLane n cause s).assay = s.assay := by
  unfold releaseLane
  rw [h]
  simp only [List.filter_nil, List.foldl_nil]
  generalize hx : updLane n _ _ = x
  have hl : x.assay = s.assay := by
    rw [← hx]
    exact foldl_keeps (fun s => s.assay) _ (fun s k => deliverAbandoned_assay 3 (rungJob n k s) s) _ _
  clear hx
  have hs := sweepResources_assay (laneOwner n) x
  generalize sweepResources (laneOwner n) x = y at hs
  split
  · unfold setInt; exact hs.trans hl
  · exact hs.trans hl

theorem releaseTransport_assay {src : Nat} {s : State} (h : s.stw.jobs = []) : (releaseTransport src s).assay = s.assay := by
  unfold releaseTransport
  dsimp only
  generalize (if src = 42 then 0 else if src = 43 then 1 else if src = 46 then 2 else 3) = n
  split
  · exact releaseLane_assay h
  · rfl

/-- A reset of a transport or of the sideband, with no command open: the Assay unit counts it and keeps all else (Table 13-7). -/
theorem clearUnit_assay {src : Nat} {s : State} (h : s.stw.jobs = []) (hs : 42 ≤ src ∧ src ≤ 44) :
    (clearUnit src s).assay = { s.assay with
      counts := tally (tally s.assay.counts 60) 64, safeOverruns := Map.erase s.assay.safeOverruns src } := by
  have ha : ∀ x : State, x.stw.jobs = [] → abandonUnit src x = x := by
    intro x hx; unfold abandonUnit; rw [hx]; rfl
  have hu : ∀ x : State, x.stw.jobs = [] → (stopUnit src x).assay = x.assay := by
    intro x hx
    unfold stopUnit
    obtain ⟨h1, h2⟩ := hs
    iterate 10 rw [if_neg (by omega)]
    split
    · exact releaseTransport_assay hx
    · split
      · exact releaseTransport_assay hx
      · rfl
  unfold clearUnit
  have hc : (assayCount cUnitReset s).stw.jobs = [] := h
  rw [ha _ hc]
  generalize hz : sweepResources src _ = z
  have e : z.assay = { s.assay with counts := tally s.assay.counts 60 } := by
    rw [← hz, sweepResources_assay, hu _ hc]; rfl
  dsimp only
  unfold updUnit assayCount assayCountBy
  dsimp only
  rw [e]
  rfl

end Sys2Proof.Laws
end

