-- ==== Sys2Proof/Laws/Radio.lean ====
section
/-! SUPPORT. What a transmission's start and end change, beside the pin edges that they send out. -/

namespace Sys2Proof.Laws
open Machine

/-- `t` is `s` with something more sent out. -/
def sentFrom (s t : State) : Prop := ∃ o, t = { s with outbox := s.outbox ++ o }

theorem sentFrom_refl (s : State) : sentFrom s s := ⟨[], by simp⟩

theorem sentFrom_emit (o : Output) (s : State) : sentFrom s (emit o s) := ⟨[o], rfl⟩

theorem sentFrom_trans {s t u : State} (h : sentFrom s t) (k : sentFrom t u) : sentFrom s u := by
  obtain ⟨a, rfl⟩ := h
  obtain ⟨b, rfl⟩ := k
  exact ⟨a ++ b, by simp⟩

theorem sentFrom_foldl {α : Type} (f : State → α → State) (h : ∀ s x, sentFrom s (f s x)) (l : List α) (s : State) :
    sentFrom s (l.foldl f s) := by
  induction l generalizing s with
  | nil => exact sentFrom_refl s
  | cons x r ih => exact sentFrom_trans (h s x) (ih _)

theorem leadEdges_sent (src t0 : Nat) (s : State) (c : Nat) : sentFrom s (leadEdges src t0 s c) := by
  unfold leadEdges
  dsimp only
  repeat' split
  all_goals first
    | exact sentFrom_trans (sentFrom_trans (sentFrom_emit _ _) (sentFrom_emit _ _)) (sentFrom_emit _ _)
    | exact sentFrom_trans (sentFrom_emit _ _) (sentFrom_emit _ _)
    | exact sentFrom_emit _ _

theorem trailEdges_sent (src t1 : Nat) (cut : Bool) (s : State) (c : Nat) : sentFrom s (trailEdges src t1 cut s c) := by
  unfold trailEdges
  dsimp only
  repeat' split
  all_goals first
    | exact sentFrom_trans (sentFrom_trans (sentFrom_emit _ _) (sentFrom_emit _ _)) (sentFrom_emit _ _)
    | exact sentFrom_trans (sentFrom_emit _ _) (sentFrom_emit _ _)
    | exact sentFrom_emit _ _

theorem txAct_sent (src : Nat) (level : Bool) (ns : Nat) (s : State) : sentFrom s (txAct src level ns s) := by
  unfold txAct
  apply sentFrom_foldl
  intro s n; split
  · exact sentFrom_emit _ _
  · exact sentFrom_refl _

/-- A transmission starts now: it is on record from its first to its last instant, waits no more, and its pin edges go out (R285). -/
theorem startRadio_does (src kind chains dur : Nat) (s : State) : ∃ o, startRadio src kind chains dur s = { s with
    front.tx := Map.set s.front.tx src { t0 := s.time.mono, t1 := s.time.mono + dur, kind := kind, chains := chains }
    front.waiting := Map.erase s.front.waiting src
    outbox := s.outbox ++ o } := by
  obtain ⟨o, ho⟩ := sentFrom_trans (sentFrom_foldl _ (leadEdges_sent src s.time.mono) (chainsOf chains) s)
    (txAct_sent src true (s.time.mono - leadNs s src chains) _)
  refine ⟨o, ?_⟩
  unfold startRadio
  dsimp only
  rw [ho]

/-- The blanks that a cut moves are all that it changes of the blanks' state, whatever has been sent out. -/
theorem cutBlanks_outbox (src fin : Nat) (o : List Output) (s : State) :
    cutBlanks src fin { s with outbox := o } = { s with front.blankUntil := (cutBlanks src fin s).front.blankUntil, outbox := o } := by
  have h : ∀ (r n : Nat) (x : State), cutBlank r fin n { x with outbox := o } = { cutBlank r fin n x with outbox := o } := by
    intro r n x; unfold cutBlank; split <;> rfl
  have b : ∀ (r n : Nat) (x : State), cutBlank r fin n x = { x with front.blankUntil := (cutBlank r fin n x).front.blankUntil } := by
    intro r n x; unfold cutBlank; split <;> rfl
  have c : cutBlanks src fin s = { s with front.blankUntil := (cutBlanks src fin s).front.blankUntil } := by
    unfold cutBlanks
    dsimp only
    split
    · rw [b 33, b src]
    · split
      · rw [b 34, b src]
      · exact b _ _ _
  have e : cutBlanks src fin { s with outbox := o } = { cutBlanks src fin s with outbox := o } := by
    unfold cutBlanks
    dsimp only
    rw [h]
    split
    · exact h _ _ _
    · split
      · exact h _ _ _
      · rfl
  rw [e]; generalize cutBlanks src fin s = y at c; rw [c]

/-- A transmission ends, or is cut, now: it is off the record, its pin edges go out (R278, R285), and a cut ends the blanks that it laid (R158,
R206). -/
theorem endRadio_does {src : Nat} (cut : Bool) {t : RadioTx} {s : State} (h : Map.get? s.front.tx src = some t) :
    ∃ o, endRadio src cut s = { s with
      front.tx := Map.erase s.front.tx src
      front.blankUntil := if cut then (cutBlanks src t.t1 s).front.blankUntil else s.front.blankUntil
      outbox := s.outbox ++ o } := by
  obtain ⟨o, ho⟩ := sentFrom_trans (sentFrom_foldl _ (trailEdges_sent src s.time.mono cut) (chainsOf t.chains) s)
    (txAct_sent src false (s.time.mono + (chainsOf t.chains).foldl (fun m c => max m (25 * (pinCfg s src c).lnaOn)) 0) _)
  refine ⟨o, ?_⟩
  unfold endRadio
  rw [h]
  dsimp only
  rw [ho]
  cases cut
  · rfl
  · rw [if_pos rfl, if_pos rfl, cutBlanks_outbox]

/-- A transmission that runs to its end. -/
theorem endRadio_whole {src : Nat} {t : RadioTx} {s : State} (h : Map.get? s.front.tx src = some t) :
    ∃ o, endRadio src false s = { s with front.tx := Map.erase s.front.tx src, outbox := s.outbox ++ o } := endRadio_does false h

/-- A field transmission starts while nothing is received in its band and F24 and W2 share no band: the band is blank until 10 µs after its last
chip (R158). -/
theorem startField_does {chain kind dur : Nat} {s : State} (hr : s.field.rx = []) (hs : shares24 s = false) :
    ∃ o, startField chain kind dur s = { s with
      front.tx := Map.set s.front.tx (34 + chain) { t0 := s.time.mono, t1 := s.time.mono + dur, kind := kind, chains := 1 }
      front.waiting := Map.erase s.front.waiting (34 + chain)
      front.blankUntil := Map.set s.front.blankUntil (34 + chain) (max (s.time.mono + dur + 10000) (Map.getD s.front.blankUntil (34 + chain) 0))
      outbox := s.outbox ++ o } := by
  obtain ⟨o, ho⟩ := startRadio_does (34 + chain) kind 1 dur s
  refine ⟨o, ?_⟩
  have hb : ∀ a, blankChain chain a s = s := by intro a; unfold blankChain; rw [hr]; rfl
  unfold startField fieldSource
  dsimp only
  rw [hb, ho, if_neg (by simp [hs])]
  rfl

end Sys2Proof.Laws
end

