-- ==== Sys2Proof/Laws/Field.lean ====
section
/-! SUPPORT. What the shared operations of the field radio do. -/

namespace Sys2Proof.Laws
open Machine

/-! What the reads of the field radio's state are not touched by: the outbox and the queue. -/

@[simp] theorem fresh_fchain (s : State) (k : Nat) : (fresh s).fchain k = s.fchain k := rfl
@[simp] theorem fresh_bandOn (s : State) (k : Nat) : bandOn (fresh s) k = bandOn s k := rfl
@[simp] theorem fresh_fieldUp (s : State) : fieldUp (fresh s) = fieldUp s := rfl
@[simp] theorem fresh_fcfg (s : State) : fcfg (fresh s) = fcfg s := rfl
@[simp] theorem fresh_childRec (s : State) (k : Nat) : childRec (fresh s) k = childRec s k := rfl
@[simp] theorem fresh_childRun (s : State) (k : Nat) : childRun (fresh s) k = childRun s k := rfl
@[simp] theorem fresh_rdvRun (s : State) (k : Nat) : rdvRun (fresh s) k = rdvRun s k := rfl
@[simp] theorem fresh_channelOpen (s : State) (k : Nat) : channelOpen (fresh s) k = channelOpen s k := rfl
@[simp] theorem fresh_queue (s : State) (k : Nat) : (fresh s).queue k = s.queue k := rfl

/-- Local time that has already come does not move. -/
theorem advanceMono_past {n : Nat} {s : State} (h : n ≤ s.time.mono) (hw : s.time.acc < 2 ^ 96) : advanceMono n s = s := by
  unfold advanceMono
  have h0 : (n - s.time.mono + (s.tickNs - 1)) / s.tickNs = 0 := by
    have : s.tickNs = 25 ∨ s.tickNs = 2 := by unfold State.tickNs; split <;> simp
    rw [Nat.sub_eq_zero_of_le h]
    obtain h | h := this <;> rw [h]
  rw [h0]
  unfold ticks accWrap
  simp only [Nat.zero_mul, Nat.add_zero, Nat.mod_eq_of_lt hw, ite_self]

/-- A counter with no child scope: the band's, and the channel's where it has one. -/
theorem fieldCount_band (ch k : Nat) (s : State) :
    fieldCount ch k none s = { s with field.counts := (fieldCount ch k none s).field.counts } := by
  unfold fieldCount; rfl

/-- A reception past its SFD ends on a channel that no one monitors, while no access waits on it: counted, the channel free. -/
theorem endReception_quiet {ch st k : Nat} {r : Reception} {s : State} (hr : s.rxOf ch = .receiving r) (hm : monitored s ch = false)
    (ha : ((s.fchain (chainOf ch)).access.all (fun a => decide (a.stage ≠ 5))) = true) :
    endReception ch st k s = fieldCount ch k none { s with field.rx := Map.set s.field.rx ch (afterRx r) } := by
  unfold endReception
  rw [hr]
  dsimp only
  unfold setRx
  have h1 : monitored (fieldCount ch k none { s with field.rx := Map.set s.field.rx ch (afterRx r) }) ch = false := by
    rw [fieldCount_band]; exact hm
  rw [if_neg (by rw [h1]; simp)]
  have h2 : (fieldCount ch k none { s with field.rx := Map.set s.field.rx ch (afterRx r) }).fchain (chainOf ch) = s.fchain (chainOf ch) := by
    rw [fieldCount_band]; rfl
  unfold waitOver
  dsimp only
  rw [h2]
  cases e : (s.fchain (chainOf ch)).access with
  | none => rfl
  | some a =>
    rw [e] at ha
    simp only [Option.all_some, decide_eq_true_eq] at ha
    simp [ha]

/-- While F24 and W2 share no band, no span of W2 stands in the way of a field transmission (R215). -/
theorem wideClash_apart {s : State} {src dur since : Nat} (h : shares24 s = false) : wideClash s src dur since = false := by
  unfold wideClash; rw [h]; simp

/-- Time moved on to an instant stops at its tick. -/
theorem advanceMono_le {n : Nat} {s : State} (h : s.time.mono ≤ n) (hm : s.power.mode ≠ .doze) : (advanceMono n s).time.mono ≤ n + 1 := by
  show s.time.mono + (n - s.time.mono + (s.tickNs - 1)) / s.tickNs * s.tickNs ≤ n + 1
  have : s.tickNs = 2 := by unfold State.tickNs; rw [if_neg hm]
  rw [this]
  omega

/-- A relock changes the front end alone. -/
theorem startLock_eq (i : Nat) (s : State) : startLock i s = { s with front := (startLock i s).front } := by
  unfold startLock
  dsimp only
  split
  · rfl
  · split <;> rfl

/-- What a relock does to the front end depends on the front end, the units and the time alone. -/
theorem startLock_front {i : Nat} {s t : State} (hf : s.front = t.front) (ha : s.assay = t.assay) (ht : s.time = t.time) :
    (startLock i s).front = (startLock i t).front := by
  unfold startLock State.synth unitUp frontCount updSynth
  dsimp only
  rw [hf, ha, ht]
  split
  · exact hf
  · split
    all_goals first | exact hf | rfl | skip

/-! The detector of a channel: a read after a write, and what a detection behind a frame can do. -/

@[simp] theorem rxOf_setRx (ch k : Nat) (x : RxPhase) (s : State) : (setRx ch x s).rxOf k = if k = ch then x else s.rxOf k := by
  unfold State.rxOf setRx
  exact getD_set ..

theorem judgeCapture_weak {ch : Nat} {p : Preamble} {r : Reception} {s : State} (h : s.rxOf ch = .receiving r)
    (hp : p.strength < r.rssi + (fcfg s).captureMargin) : judgeCapture ch p s = s := by
  unfold judgeCapture
  rw [h]
  exact if_pos hp

theorem judgeCapture_lastSymbol {ch : Nat} {p : Preamble} {r : Reception} {s : State} (h : s.rxOf ch = .receiving r)
    (hp : r.rssi + (fcfg s).captureMargin ≤ p.strength) (ht : r.fin < p.at' + symNs ch) :
    judgeCapture ch p s = setRx ch (.receiving { r with next := some p }) s := by
  unfold judgeCapture
  rw [h]
  dsimp only
  rw [if_neg (by omega), if_pos ht]

end Sys2Proof.Laws
end

