-- ==== Sys2Proof/Laws/Planner.lean ====
section
/-! SUPPORT. What the Planisher's shared operations on queues do. -/

namespace Sys2Proof.Laws
open Machine

/-- Tagging a head changes the queues alone. -/
theorem tagHead_eq (q : Nat) (s : State) : tagHead q s = { s with plan.queues := (tagHead q s).plan.queues } := by
  unfold tagHead
  dsimp only
  split
  · split
    · rfl
    · rfl
  · rfl

/-- A tagged head is the head, and the frames behind it stay. -/
theorem tagHead_none {q : Nat} {s : State} (h : (s.queue q).frames = []) : tagHead q s = s := by
  unfold tagHead; simp only [h]

@[simp] theorem updQueue_queue (q : Nat) (f : PQueue → PQueue) (s : State) : (updQueue q f s).queue q = f (s.queue q) := by
  show Map.getD (Map.set _ _ _) _ _ = _
  simp

/-- A queue's head taken off changes the queues alone. -/
theorem popHead_eq (q : Nat) (s : State) : popHead q s = { s with plan.queues := (popHead q s).plan.queues } := by
  unfold popHead
  rw [tagHead_eq]
  rfl

/-- A queue's only frame taken off leaves it empty, all else as it was. -/
theorem popHead_last {q : Nat} {f : Queued} {s : State} (h : (s.queue q).frames = [f]) :
    popHead q s = updQueue q (fun p => { p with frames := [] }) s := by
  unfold popHead
  rw [tagHead_none (by rw [updQueue_queue, h]; rfl)]
  unfold updQueue
  dsimp only
  rw [h]
  rfl

/-- A selection changes the Planisher alone. -/
theorem selectFrom_eq (e c q : Nat) (f : Queued) (s : State) : selectFrom e c q f s = { s with plan := (selectFrom e c q f s).plan } := by
  unfold selectFrom planCount planAdd
  dsimp only
  rw [popHead_eq]
  split <;> rfl

/-- A queue's only frame selected leaves the queue empty. -/
theorem selectFrom_frames {e c q : Nat} {f g : Queued} {s : State} (h : (s.queue q).frames = [g]) : ((selectFrom e c q f s).queue q).frames = [] := by
  have h0 : ∀ t : State, (t.queue q).frames = [g] → ((planCount e cSelect (popHead q t)).queue q).frames = [] := by
    intro t ht
    rw [popHead_last ht]
    have e : ∀ y : State, (planCount e cSelect y).queue q = y.queue q := fun _ => rfl
    rw [e, updQueue_queue]
  unfold selectFrom
  apply h0
  rw [updQueue_queue]
  show ((if f.charged = true then s else chargeClass _ _ _ s).queue q).frames = [g]
  split
  · exact h
  · exact h

/-- What the plan computation sees: every frame that stands in a queue, and the uplink demand there is (R355). -/
theorem markSeen_does (x : State) : markSeen x = { x with plan.queues := Map.mapVals x.plan.queues (fun _ p =>
    { p with frames := p.frames.map (fun f => { f with seen := some (f.seen.getD x.beat) }),
             ulSeen := if p.ulBytes > 0 then some (p.ulSeen.getD x.beat) else none }) } := by
  unfold markSeen
  dsimp only
  congr 3
  funext _ p
  congr 1
  · congr 1
    funext f
    cases f.seen <;> rfl
  · cases p.ulSeen <;> rfl

/-- `markSeen` at an instant that the clock has come to, the queues as before. -/
theorem markSeen_at {y s : State} (k : Option Nat) (h : y.plan = s.plan) :
    markSeen { fresh y with time.computeBeat := k } = fresh { y with
      time.computeBeat := k, plan.queues := Map.mapVals s.plan.queues (fun _ p =>
        { p with frames := p.frames.map (fun f => { f with seen := some (f.seen.getD y.beat) }),
                 ulSeen := if p.ulBytes > 0 then some (p.ulSeen.getD y.beat) else none }) } := by
  have b : ∀ z : State, State.beat { fresh z with time.computeBeat := k } = z.beat := fun _ => rfl
  rw [markSeen_does, b, ← h]
  rfl

end Sys2Proof.Laws
end

