-- ==== Sys2Proof/Laws/Pole.lean ====
section
/-! SUPPORT. What the shared operations of pole I/O can do. -/

namespace Sys2Proof.Laws
open Sys2Proof.Machine

theorem deliver_stw_apart {j : Job} {r : Reply} {s : State} (o : List Output) (p : List Instr) :
    (deliver j r { s with outbox := o, pending := p }).stw = (deliver j r s).stw := by
  unfold deliver
  by_cases h1 : j.lane < 4
  · rw [if_pos h1, if_pos h1]
    dsimp only
    by_cases h2 : r.status = stAbandoned <;> by_cases h3 : j.lane = 2 ∨ j.lane = 3 <;> simp only [h2, h3, if_true, if_false] <;> rfl
  · rw [if_neg h1, if_neg h1]

theorem respond_stw_apart {j : Job} {r : Reply} {s : State} (o : List Output) (p : List Instr) :
    (respond j r { s with outbox := o, pending := p }).stw = (respond j r s).stw := by
  unfold respond
  by_cases h : s.stw.state = .restarting
  · rw [if_pos h, if_pos h]
  · rw [if_neg h, if_neg h]
    exact deliver_stw_apart o p

theorem complete_stw {b id : Nat} {j : Job} {r : Reply} {s : State} (o : List Output) (p : List Instr) :
    (complete b j r (dropJob id { s with outbox := o, pending := p })).stw = (complete b j r (dropJob id s)).stw := by
  have e : dropJob id { s with outbox := o, pending := p } = { dropJob id s with outbox := o, pending := p } := rfl
  rw [e]
  generalize dropJob id s = y
  unfold complete
  by_cases h1 : j.durable = true ∧ r.status = stOk
  · rw [if_pos h1, if_pos h1]
  · rw [if_neg h1, if_neg h1]
    exact respond_stw_apart o p

/-- Two states that differ in what has been sent out and in the queue alone. -/
def apartFrom (x y : State) : Prop := x = { y with outbox := x.outbox, pending := x.pending }

theorem respond_apart {j : Job} {r : Reply} {x y : State} (h : apartFrom x y) : apartFrom (respond j r x) (respond j r y) := by
  have hs := respond_stw_apart (j := j) (r := r) (s := y) x.outbox x.pending
  unfold apartFrom at h ⊢
  rw [← h] at hs
  have hp : ∀ z, sameParts (respond j r z) z := by
    intro z; unfold respond; split
    · simp [sameParts]
    · simp [sameParts]
  have a := hp x
  have b := hp y
  generalize respond j r x = u at hs a ⊢
  generalize respond j r y = v at hs b ⊢
  unfold sameParts at a b
  rw [h] at a
  cases u; cases v; simp_all

/-- The answers that follow a response neither see nor change what stands outside the Steward interface, the outbox and the queue. -/
theorem followUp_apart : ∀ (n id : Nat) {x y : State}, apartFrom x y → apartFrom (followUp n id x) (followUp n id y) := by
  intro n
  induction n with
  | zero => intro id x y h; exact h
  | succ n ih =>
    have fold : ∀ (l : List Job) {x y : State}, apartFrom x y →
        apartFrom (l.foldl (fun s j => followUp n j.id (respond j { status := stTooLate } (dropJob j.id s))) x)
          (l.foldl (fun s j => followUp n j.id (respond j { status := stTooLate } (dropJob j.id s))) y) := by
      intro l
      induction l with
      | nil => intro x y h; exact h
      | cons j l il =>
        intro x y h
        simp only [List.foldl_cons]
        refine il (ih j.id (respond_apart ?_))
        unfold apartFrom at h ⊢; rw [h]; rfl
    intro id x y h
    have e : x.stw = y.stw := by rw [h]
    unfold followUp State.job
    rw [e]
    split
    · exact h
    · exact fold _ h

theorem followUp_same : ∀ (n id : Nat) (s : State), sameParts (followUp n id s) s ∧ (followUp n id s).pending = s.pending := by
  intro n
  induction n with
  | zero => intro id s; exact ⟨by simp [followUp, sameParts], rfl⟩
  | succ n ih =>
    intro id s
    have fold : ∀ (l : List Job) (y : State), sameParts y s ∧ y.pending = s.pending →
        sameParts (l.foldl (fun s j => followUp n j.id (respond j { status := stTooLate } (dropJob j.id s))) y) s ∧
        (l.foldl (fun s j => followUp n j.id (respond j { status := stTooLate } (dropJob j.id s))) y).pending = s.pending := by
      intro l
      induction l with
      | nil => intro y h; exact h
      | cons j l il =>
        intro y h
        refine il _ ?_
        have a := ih j.id (respond j { status := stTooLate } (dropJob j.id y))
        have b : sameParts (respond j { status := stTooLate } (dropJob j.id y)) y ∧
            (respond j { status := stTooLate } (dropJob j.id y)).pending = y.pending := by
          unfold respond; split <;> simp [sameParts, dropJob]
        unfold sameParts at *
        simp_all
    unfold followUp
    split
    · simp [sameParts]
    · exact fold _ s ⟨by simp [sameParts], rfl⟩

/-- The completion of a waiting command neither sees nor changes what stands outside the Steward interface, the outbox and the queue. -/
theorem completeJob_apart (id : Nat) (r : Reply) (o : List Output) (p : List Instr) (s : State) :
    (completeJob id r { s with outbox := o, pending := p }).stw = (completeJob id r s).stw ∧
    sameParts (completeJob id r { s with outbox := o, pending := p }) s := by
  have hc : ∀ (j : Job) (z : State), sameParts (complete s.beat j r (dropJob id z)) z := by
    intro j z
    unfold complete respond sameParts
    split <;> (try split) <;> simp [dropJob]
  unfold completeJob
  rw [show ({ s with outbox := o, pending := p } : State).job id = s.job id from rfl,
    show ({ s with outbox := o, pending := p } : State).beat = s.beat from rfl]
  cases s.job id with
  | none => exact ⟨rfl, by simp [sameParts]⟩
  | some j =>
    have a := hc j { s with outbox := o, pending := p }
    have b := hc j s
    have e := complete_stw (b := s.beat) (j := j) (r := r) (id := id) (s := s) o p
    dsimp only
    generalize complete s.beat j r (dropJob id { s with outbox := o, pending := p }) = x at a e ⊢
    generalize complete s.beat j r (dropJob id s) = y at b e ⊢
    have hx : apartFrom x y := by
      unfold apartFrom; unfold sameParts at a b; cases x; cases y; simp_all
    have f := followUp_apart 16 id hx
    have g := (followUp_same 16 id x).1
    refine ⟨by rw [f], ?_⟩
    unfold sameParts at *
    simp_all

/-- As `completeJob_apart`, for the state alone. -/
theorem completeJob_same (id : Nat) (r : Reply) (s : State) : sameParts (completeJob id r s) s := by
  have := (completeJob_apart id r s.outbox s.pending s).2
  exact this

/-- A command of a block that is not held in reset, whose last act completes a waiting command. -/
theorem act_completes {f : State → State} {s u : State} {id : Nat} {r : Reply} (ha : alive s = true) (o : List Output)
    (hf : f (fresh s) = completeJob id r { u with outbox := o, pending := [] }) (hq : u.pending = s.pending := by rfl) :
    ∃ t, act f s = .next t ∧ became (completeJob id r u) t := by
  have h1 := completeJob_apart id r o [] u
  have h2 := completeJob_same id r u
  have hp : (completeJob id r u).pending = u.pending := by
    unfold completeJob
    cases u.job id with
    | none => rfl
    | some j =>
      dsimp only
      rw [(followUp_same 16 id _).2]
      unfold complete respond
      split <;> (try split) <;> simp [dropJob]
  refine act_became ha ?_ ?_ (by rw [hp, hq])
  · rw [hf]; exact h1.1
  · rw [hf]
    have a := h1.2
    unfold sameParts at *
    simp_all

/-- A bus after a change of a bus. -/
@[simp] theorem updBus_bus (i k : Nat) (f : DaliBus → DaliBus) (s : State) :
    (updBus i f s).bus k = if k = i ∧ i < 2 then f (s.bus i) else s.bus k := by
  unfold State.bus updBus; exact getD_modify ..

/-- A timer channel after a change of a channel. -/
@[simp] theorem updTmr_tmr (c k : Nat) (f : TmrRun → TmrRun) (s : State) :
    (updTmr c f s).tmr k = if k = c ∧ c < 16 then f (s.tmr c) else s.tmr k := by
  unfold State.tmr updTmr; exact getD_modify ..

/-- The one frame of an interface completes: its slot is freed and its command answered. -/
theorem daliDone_one {i k st ans : Nat} {x : DaliFrame} {s : State} (h : (s.bus i).slots = [(k, x)]) (_hi : i < 2) :
    daliDone i k st ans s = completeJob x.job { body := le 1 st ++ le 1 ans ++ le 1 (bit x.late) ++ [0] ++ (x.start.getD {}).bytes }
      (updBus i (fun b => { b with slots := [] }) s) := by
  have e : daliFrame s i k = some x := by unfold daliFrame; rw [h]; simp [Map.get?]
  unfold daliDone
  rw [e]
  dsimp only
  have : updBus i (fun b => { b with slots := Map.erase b.slots k }) s = updBus i (fun b => { b with slots := [] }) s := by
    unfold updBus
    rw [modify_congr _ _ _ _ {}]
    have hb : s.pole.dali.getD i {} = s.bus i := rfl
    rw [hb, h]
    simp [Map.erase]
  rw [this]
  rfl

/-- A frame of an interface that holds one frame is changed. -/
theorem updDaliFrame_one {i k : Nat} {x : DaliFrame} {f : DaliFrame → DaliFrame} {s : State} (h : (s.bus i).slots = [(k, x)]) :
    updDaliFrame i k f s = updBus i (fun b => { b with slots := [(k, f x)] }) s := by
  have e : daliFrame s i k = some x := by unfold daliFrame; rw [h]; simp [Map.get?]
  unfold updDaliFrame
  rw [e]
  unfold updBus
  dsimp only
  rw [modify_congr _ _ _ _ {}]
  have hb : s.pole.dali.getD i {} = s.bus i := rfl
  rw [hb, h]
  simp [Map.set]

/-- A counter that has not reached its period since it was last looked at stands. -/
theorem tmrSync_idle {c : Nat} {s : State}
    (h : (tmrCfg s c).mode ≠ 1 ∨ (s.tmr c).base + tmrTicks (tmrCfg s c) (s.tmr c) s.time.mono < (tmrCfg s c).period) : tmrSync c s = s := by
  unfold tmrSync
  dsimp only
  rw [if_pos h]

/-- Samples none of which is lost enter the sums as they are. -/
theorem sumValues_whole {xs : List Int} {prev : Option (Int × Nat)} (h : lostCode ∉ xs) (s : State) : sumValues xs prev s = (xs, s) := by
  unfold sumValues
  have key : ∀ l : List Nat, ∀ acc : List Int, (∀ k ∈ l, k < xs.length) →
      l.foldl (fun a k => (a.1 ++ [(sumValue xs prev k a.2).1], (sumValue xs prev k a.2).2)) (acc, s) = (acc ++ l.map (fun k => xs.getD k 0), s) := by
    intro l
    induction l with
    | nil => intro acc _; simp
    | cons k r ih =>
      intro acc hl
      have hk : k < xs.length := hl k (by simp)
      have hv : sumValue xs prev k s = (xs.getD k 0, s) := by
        unfold sumValue
        dsimp only
        rw [if_pos]
        intro e
        apply h
        rw [← e]
        simp [List.getD_eq_getElem?_getD, hk]
      rw [List.foldl_cons]
      dsimp only
      rw [hv, ih _ (fun j hj => hl j (by simp [hj]))]
      simp
  have := key (List.range xs.length) [] (by simp)
  dsimp only
  rw [this]
  congr 1
  apply List.ext_getElem
  · simp
  · intro n h1 h2
    simp [List.getD_eq_getElem?_getD, h2]

/-- A channel none of whose samples was lost is taken into the sums as it is. -/
theorem sumChannel_whole {b : MeterBlock} {c : Nat} (h : lostCode ∉ b.samples.getD c []) (a : List (List Int)) (s : State) :
    ∃ lg sm, sumChannel b (a, s) c = (a ++ [b.samples.getD c []], { s with pole.lastGood := lg, pole.sums := sm }) := by
  unfold sumChannel
  dsimp only
  rw [sumValues_whole h]
  dsimp only
  split
  · exact ⟨_, _, rfl⟩
  · exact ⟨_, _, rfl⟩

/-- The sums of a beat in which two channels were sampled and none of their samples was lost. -/
theorem sumBeat_pair {b : MeterBlock} {x y : List Int} (h : b.samples = [x, y, [], []]) (hx : lostCode ∉ x) (hy : lostCode ∉ y) (s : State) :
    ∃ lg sm, sumBeat b s = addEnergy 0 x y { s with pole.lastGood := lg, pole.sums := sm } := by
  have e : ∀ u : State, addEnergy 1 [] [] u = u := by intro u; unfold addEnergy; rw [if_pos ⟨rfl, rfl⟩]
  obtain ⟨l0, m0, k0⟩ := sumChannel_whole (b := b) (c := 0) (by rw [h]; exact hx) [] s
  obtain ⟨l1, m1, k1⟩ := sumChannel_whole (b := b) (c := 1) (by rw [h]; exact hy) ([] ++ [b.samples.getD 0 []])
    { s with pole.lastGood := l0, pole.sums := m0 }
  obtain ⟨l2, m2, k2⟩ := sumChannel_whole (b := b) (c := 2) (by rw [h]; simp) ([] ++ [b.samples.getD 0 []] ++ [b.samples.getD 1 []])
    { s with pole.lastGood := l1, pole.sums := m1 }
  obtain ⟨l3, m3, k3⟩ := sumChannel_whole (b := b) (c := 3) (by rw [h]; simp)
    ([] ++ [b.samples.getD 0 []] ++ [b.samples.getD 1 []] ++ [b.samples.getD 2 []]) { s with pole.lastGood := l2, pole.sums := m2 }
  have f : (List.range 4).foldl (sumChannel b) ([], s) =
      ([] ++ [b.samples.getD 0 []] ++ [b.samples.getD 1 []] ++ [b.samples.getD 2 []] ++ [b.samples.getD 3 []],
        { s with pole.lastGood := l3, pole.sums := m3 }) := by
    show sumChannel b (sumChannel b (sumChannel b (sumChannel b ([], s) 0) 1) 2) 3 = _
    rw [k0, k1, k2, k3]
  refine ⟨l3, m3, ?_⟩
  unfold sumBeat
  rw [f, h]
  exact e _

theorem none_lost {l : List Int} (hl : l.all (fun x => x ≠ lostCode ∧ !clipped x) = true) : lostCode ∉ l ∧ (l.filter (· = lostCode)).length = 0 := by
  have h : ∀ x ∈ l, x ≠ lostCode := by
    intro x hx
    have := List.all_eq_true.1 hl x hx
    simp at this
    exact this.1
  refine ⟨fun hm => h _ hm rfl, ?_⟩
  rw [List.length_eq_zero_iff, List.filter_eq_nil_iff]
  intro x hx
  simpa using h x hx

/-- Where no rule is enabled and none is ignored, no rule is met. -/
theorem rulesMet_none {b : MeterBlock} {s : State} (h1 : s.kept.pole.rules = []) (h2 : s.pole.holdoff = []) : rulesMet b s = ([], s) := by
  unfold rulesMet
  generalize List.range 4 = l
  induction l with
  | nil => rfl
  | cons i r ih =>
    rw [List.foldl_cons]
    dsimp only
    have e1 : Map.getD s.kept.pole.rules i {} = ({} : CaptureRule) := by rw [h1]; rfl
    have e2 : ruleMet s {} b = none := by unfold ruleMet; simp
    have e3 : ¬ (Map.getD s.pole.holdoff i 0 > 0) := by rw [h2]; simp [Map.getD, Map.get?]
    rw [e1, e2, if_neg e3]
    exact ih

/-- A metering job on a block of two sampled channels, none of whose samples was lost or at full scale, where nothing triggers. -/
theorem processBlock_pair {b : MeterBlock} {x y : List Int} {s : State} (h : b.samples = [x, y, [], []])
    (hx : x.all (fun x => x ≠ lostCode ∧ !clipped x) = true) (hy : y.all (fun x => x ≠ lostCode ∧ !clipped x) = true)
    (hg : s.pole.gather = none) (hj : s.stw.jobs = []) (hr : s.kept.pole.rules = []) (hh : s.pole.holdoff = []) :
    ∃ lg sm hi n, processBlock b true s =
      { addEnergy 0 x y { s with pole.counts := n, pole.lastGood := lg, pole.sums := sm } with pole.history := hi } := by
  have cs : ∃ n, countSamples b s = { s with pole.counts := n } := by
    unfold countSamples
    rw [if_pos (by rw [h]; simp only [List.map_cons, List.map_nil, (none_lost hx).2, (none_lost hy).2]; rfl)]
    exact ⟨_, rfl⟩
  obtain ⟨n, cs⟩ := cs
  obtain ⟨lg, sm, sb⟩ := sumBeat_pair h (none_lost hx).1 (none_lost hy).1 { s with pole.counts := n }
  have ae : ∀ z : State, z.pole.gather = none → z.stw.jobs = [] → z.kept.pole.rules = [] → z.pole.holdoff = [] →
      (addEnergy 0 x y z).pole.gather = none ∧ (addEnergy 0 x y z).stw.jobs = [] ∧ (addEnergy 0 x y z).kept.pole.rules = [] ∧
      (addEnergy 0 x y z).pole.holdoff = [] := by
    intro z a b c d
    unfold addEnergy
    split
    · exact ⟨a, b, c, d⟩
    · exact ⟨a, b, c, d⟩
  obtain ⟨g1, g2, g3, g4⟩ := ae { s with pole.counts := n, pole.lastGood := lg, pole.sums := sm } hg hj hr hh
  generalize hz : addEnergy 0 x y { s with pole.counts := n, pole.lastGood := lg, pole.sums := sm } = z at *
  have gb : gatherBlock b true z = z := by unfold gatherBlock; rw [g1]
  have ap : applyTriggers b true z = z := by
    unfold applyTriggers
    split
    · rfl
    · simp [firesOf, g2, g1, firstTrigger, rulesMet_none g3 g4]
  refine ⟨lg, sm, ((z.pole.history ++ [b]).reverse.take (meterCfg z).history).reverse, n, ?_⟩
  rw [hz]
  unfold processBlock
  rw [cs]
  dsimp only
  rw [if_pos rfl, if_pos rfl, sb, gb, ap]
  have fg : finishGather { z with pole.history := ((z.pole.history ++ [b]).reverse.take (meterCfg z).history).reverse } =
      { z with pole.history := ((z.pole.history ++ [b]).reverse.take (meterCfg z).history).reverse } := by unfold finishGather; dsimp only; rw [g1]
  rw [fg]
  unfold lateFires
  dsimp only
  rw [g2]
  rfl

end Sys2Proof.Laws
end

