-- ==== Sys2Proof/Laws/Wide.lean ====
section
/-! SUPPORT. What the shared operations of the wide radios can do. -/

namespace Sys2Proof.Laws
open Sys2Proof.Machine

/-! Settings in force depend on what is Kept alone, the operating width on the power mode too. -/

theorem bssCfg_of {s t : State} (h : t.kept = s.kept) (r b : Nat) : bssCfg t r b = bssCfg s r b := by unfold bssCfg; rw [h]
theorem chanCfg_of {s t : State} (h : t.kept = s.kept) (r : Nat) : chanCfg t r = chanCfg s r := by unfold chanCfg; rw [h]
theorem upCfg_of {s t : State} (h : t.kept = s.kept) (r : Nat) : upCfg t r = upCfg s r := by unfold upCfg; rw [h]
theorem tbttSpan_of {s t : State} (h : t.kept = s.kept) (r n : Nat) : tbttSpan t r n = tbttSpan s r n := by
  unfold tbttSpan pifsNs sifsNs beaconCfg; rw [chanCfg_of h, h]
theorem accessCfg_of {s t : State} (h : t.kept = s.kept) (r : Nat) : accessCfg t r = accessCfg s r := by unfold accessCfg; rw [h]
theorem operWidth_of {s t : State} (h : t.power = s.power) (r w : Nat) : operWidth t r w = operWidth s r w := by unfold operWidth; rw [h]
theorem wr_of {s t : State} (h : t.wide = s.wide) (r : Nat) : t.wr r = s.wr r := by unfold State.wr; rw [h]

theorem updWr_wide_clients (r : Nat) (f : Radio → Radio) (s : State) : (updWr r f s).wide.clients = s.wide.clients := rfl
theorem updWr_wide_twt (r : Nat) (f : Radio → Radio) (s : State) : (updWr r f s).wide.twt = s.wide.twt := rfl
theorem updWr_updWr (r : Nat) (f g : Radio → Radio) (s : State) : updWr r g (updWr r f s) = updWr r (fun w => g (f w)) s := by
  unfold updWr; simp only [modify_modify]

@[simp] theorem wr_updWr (r m : Nat) (f : Radio → Radio) (s : State) :
    (updWr r f s).wr m = if m = r ∧ r < 2 then f (s.wr r) else s.wr m := by
  unfold State.wr updWr; exact getD_modify ..

theorem updWr_congr {r : Nat} {f g : Radio → Radio} {s : State} (h : f (s.wr r) = g (s.wr r)) : updWr r f s = updWr r g s := by
  unfold updWr; rw [modify_congr _ _ f g {} h]

theorem updWr_id (r : Nat) (s : State) : updWr r (fun w => w) s = s := by
  unfold updWr Bank.modify
  split
  · rw [show s.wide.radios.set r s.wide.radios[r] = s.wide.radios by simp]
  · rfl

theorem foldl_fixed {α β : Type} (f : β → α → β) (b : β) (l : List α) (h : ∀ x, f b x = b) : l.foldl f b = b := by
  induction l with
  | nil => rfl
  | cons x r ih => rw [List.foldl_cons, h, ih]

/-- Where no BSS is enabled, a change of the channel changes no count. -/
theorem changeBss_none {r : Nat} {s : State} (h : ∀ b, (bssCfg s r b).enable = false) : changeBss r s = s := by
  unfold changeBss
  rw [updWr_congr (g := fun w => w), updWr_id]
  rw [foldl_fixed _ _ _ (by intro b; rw [h b]; rfl)]

/-- A channel of the device's own choice comes into force without BSS and without a mode cap: one event, nothing answered. -/
theorem chanInForce_quiet {r b : Nat} {m : ChanMove} {s : State} (hj : m.job = none) (hb : ∀ k, (bssCfg s r k).enable = false)
    (hc : chanCfg s r = m.chan) (hw : operWidth s r m.chan.width = m.chan.width) :
    chanInForce r b m s = raise (wideSrc r) 0x0501 (le 1 m.chan.band ++ le 1 m.chan.primary ++ le 1 m.chan.width ++ le 1 m.reason)
      (updWr r (fun w => { w with move := none, radarStop := none }) s) := by
  unfold chanInForce
  rw [hj]
  unfold completeAsker chanChanged
  dsimp only
  rw [changeBss_none (by exact hb)]
  have e1 : chanCfg (updWr r (fun w => { w with move := none, radarStop := none }) s) r = m.chan := hc
  have e2 : operWidth (updWr r (fun w => { w with move := none, radarStop := none }) s) r m.chan.width = m.chan.width := hw
  rw [e1, e2]

/-- A radio that does something exists. -/
theorem radio_lt {r : Nat} {s : State} (h : s.wr r ≠ {}) : r < 2 := by
  unfold State.wr at h
  rw [getD_eq] at h
  by_cases hr : r < 2
  · exact hr
  · rw [dif_neg hr] at h; exact absurd rfl h

/-- A PPDU ends without a monitor: its outcome is counted, the receiver goes on. -/
theorem endPpdu_counts {r outcome k : Nat} {s : State} (h : (wrxCfg s r).monitor = false) :
    endPpdu r outcome k s = updWr r (fun x => { x with phyCounts := tally x.phyCounts k, rx := x.rxNext, rxNext := .idle }) s := by
  unfold endPpdu
  dsimp only
  rw [if_neg (by show ¬ ((wrxCfg s r).monitor = true); rw [h]; simp)]
  unfold rxIdle phyCount
  rw [updWr_updWr]

/-! ### Transmissions -/

theorem blankWide_idle {r a : Nat} {s : State} (h : (s.wr r).rx = .idle) : blankWide r a s = updWr r (fun w => { w with rxNext := .idle }) s := by
  unfold blankWide
  have : ((updWr r (fun w => { w with rxNext := .idle }) s).wr r).rx = .idle := by rw [wr_updWr]; split <;> exact h
  dsimp only
  rw [this]

/-- The counts of a PPDU that radio `r` starts: sent, and held to the rate ceiling where `limited`. -/
def sentCounts (limited : Bool) (m : List (Nat × Nat)) : List (Nat × Nat) :=
  tally (if limited then tally m pTxLimited else m) pTxPpdu

/-- A PPDU goes on the air while nothing is received: on record, the receiver blank until 2 µs after it, counted; its pins go out. -/
theorem sendPpdu_does {r kind chains dur : Nat} {p : PhyMode} {power : Option Int} {s : State} (hx : (s.wr r).rx = .idle) (hs : shares24 s = false) :
    ∃ o, sendPpdu r kind chains dur p power s = { s with
      front.tx := Map.set s.front.tx (wideSrc r) { t0 := s.time.mono, t1 := s.time.mono + dur, kind := kind, chains := chains }
      front.waiting := Map.erase s.front.waiting (wideSrc r)
      front.blankUntil := Map.set s.front.blankUntil (wideSrc r) (max (s.time.mono + dur + 2000) (Map.getD s.front.blankUntil (wideSrc r) 0))
      wide.radios := Bank.modify s.wide.radios r (fun w => { w with
        rxNext := .idle, phyCounts := sentCounts (ceilingBinds s r p power chains) w.phyCounts })
      outbox := s.outbox ++ o } := by
  obtain ⟨o, ho⟩ := startRadio_does (wideSrc r) kind chains dur (updWr r (fun w => { w with rxNext := .idle }) s)
  refine ⟨o, ?_⟩
  have h24 : ∀ z : State, z.kept = s.kept → ¬ (r = 1 ∧ shares24 z = true) := by
    intro z hz h; unfold shares24 at *; rw [hz] at h; rw [hs] at h; simp at h
  unfold sendPpdu blankUntilFor blankFor
  dsimp only
  rw [blankWide_idle hx, if_neg (c := r = 1 ∧ shares24 (updWr r (fun w => { w with rxNext := .idle }) s) = true) (h24 _ rfl), ho]
  unfold blankTo
  dsimp only
  rw [if_neg (h24 _ (by rfl))]
  unfold sentCounts phyCount
  cases ceilingBinds s r p power chains <;> simp only [Bool.false_eq_true, if_false, if_true, updWr, modify_modify]

/-- An exchange that serves nobody charges no link. -/
theorem chargeLinks_none {r : Nat} {x : Exchange} {s : State} (h1 : x.sent = []) (h2 : x.users = []) : chargeLinks r x s = s := by
  unfold chargeLinks servedClients
  rw [h1, h2]
  rfl

/-- The exchange as it is kept from its first symbol on: its start, its stamp, and the flags of that instant (R58, R59). -/
def startedExchange (s : State) (r : Nat) (x : Exchange) : Exchange :=
  { x with
    startMono := s.time.mono
    stamp := egressStamp (wideSrc r) (refChain (exchangeChains s r)) (delayVariant s r x.air.phy.width) 0 s
    flags := stampFlags (wideSrc r) (refChain (exchangeChains s r)) (delayVariant s r x.air.phy.width) s }

/-- An exchange that is no timing measurement goes on the air: on record, the receivers blanked, counted; its pins and its frames go out. -/
theorem launch_does {r : Nat} {x : Exchange} {s : State} (hx : (s.wr r).rx = .idle) (hs : shares24 s = false)
    (ht : timingKind x.air.kind = false) : ∃ o, launch r x s = { s with
      front.tx := Map.set s.front.tx (wideSrc r) { t0 := s.time.mono, t1 := s.time.mono + x.air.dur, kind := if x.air.kind = 3 ∨ x.air.kind = 5 then 2 else 0, chains := exchangeChains s r }
      front.waiting := Map.erase s.front.waiting (wideSrc r)
      front.blankUntil := Map.set s.front.blankUntil (wideSrc r) (max (s.time.mono + x.air.dur + 2000) (Map.getD s.front.blankUntil (wideSrc r) 0))
      wide.radios := Bank.modify s.wide.radios r (fun w => { w with
        rxNext := .idle, phyCounts := sentCounts (ceilingBinds s r x.air.phy x.air.power (exchangeChains s r)) w.phyCounts
        waiting := none, shareWait := false, exchange := some (startedExchange s r x) })
      outbox := s.outbox ++ o } := by
  obtain ⟨o, ho⟩ := sendPpdu_does (r := r) (kind := if x.air.kind = 3 ∨ x.air.kind = 5 then 2 else 0) (chains := exchangeChains s r)
    (dur := x.air.dur) (p := x.air.phy) (power := x.air.power) hx hs
  unfold launch
  dsimp only
  rw [ho, ht]
  simp only [Bool.false_eq_true, if_false]
  have fold : ∀ (l : List (Nat × List Nat)) (y : State), sentFrom y (l.foldl (fun s e => emit (.frame (wideSrc r) e.1 e.2) s) y) :=
    fun l y => sentFrom_foldl _ (fun e z => ⟨_, rfl⟩) l y
  obtain ⟨o2, ho2⟩ := fold (contents s r x) _
  rw [ho2]
  exact ⟨_, by simp only [emit, updWr, modify_modify, List.append_assoc]; rfl⟩

theorem exchangeChains_of {s t : State} {r : Nat} (h1 : t.power = s.power) (h2 : t.kept = s.kept) (h3 : (t.wr r).mask = (s.wr r).mask) :
    exchangeChains t r = exchangeChains s r := by
  unfold exchangeChains; rw [h1, chanCfg_of h2, h3]

theorem ceilingBinds_of {s t : State} (h : t.kept = s.kept) (r : Nat) (p : PhyMode) (w : Option Int) (n : Nat) :
    ceilingBinds t r p w n = ceilingBinds s r p w n := by
  unfold ceilingBinds powerCfg; rw [h]

/-- An exchange without individually addressed frames leaves no record for link adaptation. -/
theorem recordPer_none {r : Nat} {x : Exchange} {l : List (SentMpdu × Bool)} {s : State} (h : x.sent.filterMap (fun m => peerOf s m.queue) = []) :
    recordPer r x l s = s := by
  unfold recordPer; rw [h]; rfl

/-- One MPDU that is not acknowledged and has no reason to end goes back to its queue. -/
theorem settleMpdus_back {r : Nat} {m : SentMpdu} {s : State} (h : unackedStatus s r m = none) :
    settleMpdus r [(m, false)] s = returnHead m.queue m.item s := by
  unfold settleMpdus
  simp [h]

/-! ### Completions -/

/-- A frame that leaves without cells gives back its pool's bytes alone. -/
theorem leave_pool {e : Nat} {f : Queued} {s : State} (h : f.cells = none) : leave e f s = { s with mem := (leave e f s).mem } := by
  unfold leave
  rw [h]
  unfold uncharge
  dsimp only
  split <;> rfl

theorem updClient_eq (c : Nat) (f : Client → Client) (s : State) : updClient c f s = { s with wide.clients := (updClient c f s).wide.clients } := by
  unfold updClient; split <;> rfl

theorem updLink_eq (r c : Nat) (f : LinkRec → LinkRec) (s : State) : updLink r c f s = { s with wide.links := (updLink r c f s).wide.links } := by
  unfold updLink; split <;> rfl

/-- A frame that fails: its counter, its owner's records, its pool, and one report; nothing else. -/
theorem completeWlan_does {r q st : Nat} {f : Queued} {s : State} {k : Nat} {b : Bool} (hst : txCounter st = some (k, b)) (h0 : st ≠ 0)
    (hj : f.job = none) (hc : f.cells = none) : ∃ cl ln m, completeWlan r q st f s = { s with
      wide.radios := (accCounts r (if b then frameBss s r q f else []) k s).wide.radios, wide.clients := cl, wide.links := ln, mem := m
      outbox := s.outbox ++ [.frame (wideSrc r) 20 [f.payload.id, st]] } := by
  have fin : ∀ z : State, (∃ cl ln m, z = { s with
      wide.radios := (accCounts r (if b then frameBss s r q f else []) k s).wide.radios, wide.clients := cl, wide.links := ln, mem := m }) →
      ∃ cl ln m, emit (.frame (wideSrc r) 20 [f.payload.id, st]) z = { s with
      wide.radios := (accCounts r (if b then frameBss s r q f else []) k s).wide.radios, wide.clients := cl, wide.links := ln, mem := m
      outbox := s.outbox ++ [.frame (wideSrc r) 20 [f.payload.id, st]] } := by
    rintro z ⟨cl, ln, m, rfl⟩
    exact ⟨cl, ln, m, rfl⟩
  unfold completeWlan
  rw [hj, hst]
  dsimp only
  apply fin
  rw [leave_pool hc, if_neg (by simp [h0])]
  have one : ∃ cl ln m, accCounts r (if b = true then frameBss s r q f else []) k { s with mem := (leave (24 + r) f s).mem } = { s with
      wide.radios := (accCounts r (if b then frameBss s r q f else []) k s).wide.radios, wide.clients := cl, wide.links := ln, mem := m } :=
    ⟨s.wide.clients, s.wide.links, _, rfl⟩
  generalize accCounts r (if b = true then frameBss s r q f else []) k { s with mem := (leave (24 + r) f s).mem } = z at one
  have two : ∀ (z : State) c g, (∃ cl ln m, z = { s with
      wide.radios := (accCounts r (if b then frameBss s r q f else []) k s).wide.radios, wide.clients := cl, wide.links := ln, mem := m }) →
      ∃ cl ln m, updClient c g z = { s with
      wide.radios := (accCounts r (if b then frameBss s r q f else []) k s).wide.radios, wide.clients := cl, wide.links := ln, mem := m } := by
    rintro z c g ⟨cl, ln, m, rfl⟩
    rw [updClient_eq]
    exact ⟨_, _, _, rfl⟩
  have three : ∀ (z : State) c g, (∃ cl ln m, z = { s with
      wide.radios := (accCounts r (if b then frameBss s r q f else []) k s).wide.radios, wide.clients := cl, wide.links := ln, mem := m }) →
      ∃ cl ln m, updLink r c g z = { s with
      wide.radios := (accCounts r (if b then frameBss s r q f else []) k s).wide.radios, wide.clients := cl, wide.links := ln, mem := m } := by
    rintro z c g ⟨cl, ln, m, rfl⟩
    rw [updLink_eq]
    exact ⟨_, _, _, rfl⟩
  cases peerOf s q with
  | none => exact one
  | some c =>
    dsimp only
    split
    · exact two _ _ _ (three _ _ _ one)
    · exact one

/-- A beat that has begun has its first instant behind it. -/
theorem beat_le_acc {n : Nat} {s : State} (h : n ≤ s.beat) : n * 1000000 * 2 ^ 32 ≤ s.time.acc := by
  unfold State.beat State.ns at h
  omega

/-- The only frame of a queue expires: it completes, counted, and the queue is empty. -/
theorem expireQueue_one {q life st k : Nat} {b : Bool} {f : Queued} {s : State} (hf : (s.queue q).frames = [f]) (hst : txCounter st = some (k, b))
    (h0 : st ≠ 0) (hj : f.job = none) (hc : f.cells = none) (ht : f.enqBeat + life ≤ s.beat) (hw : s.time.acc < 2 ^ 96) :
    ∃ cl ln m, expireQueue q life st s = { s with
      plan.queues := Map.set s.plan.queues q { s.queue q with frames := [] }
      wide.radios := (accCounts (queueHome s q - 24) (if b then frameBss s (queueHome s q - 24) q f else []) k s).wide.radios
      wide.clients := cl, wide.links := ln, mem := m
      outbox := s.outbox ++ [.frame (wideSrc (queueHome s q - 24)) 20 [f.payload.id, st]] } := by
  unfold expireQueue
  rw [hf]
  simp only [List.foldl_nil]
  have hz := advanceTo_past (beat_le_acc ht) hw
  simp only [hz, hf]
  have e1 : [f].filter (fun x => decide (x.enqBeat + life ≤ s.beat)) = [f] := by simp [ht]
  have e2 : updQueue q (fun p => { p with frames := p.frames.filter (fun x => decide (x.enqBeat + life > s.beat)) }) s =
      { s with plan.queues := Map.set s.plan.queues q { s.queue q with frames := [] } } := by
    unfold updQueue; dsimp only; rw [hf]; simp [ht]
  rw [e1, e2]
  simp only [List.foldl_cons, List.foldl_nil]
  obtain ⟨cl, ln, m, e⟩ := completeWlan_does (r := queueHome s q - 24) (q := q) (f := f)
    (s := { s with plan.queues := Map.set s.plan.queues q { s.queue q with frames := [] } }) hst h0 hj hc
  rw [e, tagHead_none]
  · exact ⟨cl, ln, m, rfl⟩
  · show (Map.getD (Map.set s.plan.queues q _) q _).frames = []
    simp

/-! ### Service periods -/

theorem bssOf_station {c : Nat} {x : Client} {s : State} (hx : Map.get? s.wide.clients c = some x) (hk : x.kind = 1) :
    bssOf s (some c) = some x.bss := by
  unfold bssOf; dsimp only; rw [hx]; dsimp only; rw [if_pos hk]

/-- A no-show below the limit is counted for the agreement, the radio and the BSS. -/
theorem noShow_counts {r key c : Nat} {f : TwtFlow} {x : Client} {s : State} (hx : Map.get? s.wide.clients c = some x) (hk : x.kind = 1)
    (hf : Map.get? s.wide.twt key = some f) (hn : f.noshows + 1 ≠ (accessCfg s r).noshowLimit) :
    noShow r key c s = { s with
      wide.twt := Map.set s.wide.twt key { f with noshows := f.noshows + 1 }
      wide.radios := Bank.modify s.wide.radios r (fun w => { w with counts := tally (tally w.counts (65280 + 124)) (256 * x.bss + 124) }) } := by
  unfold noShow
  rw [bssOf_station hx hk]
  have e : (accCount r (some x.bss) aNoshow s).wide.twt = s.wide.twt := rfl
  dsimp only
  rw [e, hf]
  dsimp only
  rw [if_neg (by exact hn)]
  rfl

/-- The one running period's member that has not shown up is judged. -/
theorem twtNoshow_one {r key c : Nat} {p : ServicePeriod} {f : TwtFlow} {x : Client} {s : State} (hp : (s.wr r).periods = [p])
    (h : p.key = key ∧ p.members = [c] ∧ p.present = [] ∧ p.judged = []) (ht : p.startNs + 1000 * (accessCfg s r).noshowUs < p.endNs)
    (hx : Map.get? s.wide.clients c = some x) (hk : x.kind = 1) (hf : Map.get? s.wide.twt key = some f)
    (hn : f.noshows + 1 ≠ (accessCfg s r).noshowLimit) :
    twtNoshow r key s = { advanceTo (p.startNs + 1000 * (accessCfg s r).noshowUs) s with
      wide.twt := Map.set s.wide.twt key { f with noshows := f.noshows + 1 }
      wide.radios := Bank.modify s.wide.radios r (fun w => { w with periods := [{ p with judged := [c] }], counts := tally (tally w.counts (65280 + 124)) (256 * x.bss + 124) }) } := by
  obtain ⟨pk, kind, p0, p1, ann, mem, pres, jud⟩ := p
  obtain ⟨rfl, rfl, rfl, rfl⟩ := h
  dsimp only at ht hf ⊢
  unfold twtNoshow judgeAt
  rw [hp]
  simp only [List.find?_cons, decide_true]
  rw [if_neg (by omega)]
  unfold judgeMembers
  dsimp only
  generalize p0 + 1000 * (accessCfg s r).noshowUs = n
  rw [show [c].filter (fun c => !([] : List Nat).contains c && !([] : List Nat).contains c) = [c] by simp]
  simp only [List.foldl_cons, List.foldl_nil]
  have k2 : (advanceTo n s).wide = s.wide := by simp
  have k3 : (advanceTo n s).kept = s.kept := by simp
  generalize advanceTo n s = z at k2 k3
  rw [noShow_counts (x := x) (f := f) (by rw [updWr_wide_clients, k2, hx]) hk (by rw [updWr_wide_twt, k2, hf])
    (by rw [accessCfg_of (s := s) (by rw [updWr_kept, k3])]; exact hn)]
  unfold updWr
  dsimp only
  rw [k2, modify_modify]
  have mc := modify_congr s.wide.radios r (fun w => { w with periods := w.periods.map (fun y => if y.key = pk then { y with judged := y.judged ++ [c] } else y), counts := tally (tally w.counts (65280 + 124)) (256 * x.bss + 124) })
    (fun w => { w with periods := [{ key := pk, kind := kind, startNs := p0, endNs := p1, announced := ann, members := [c], present := [], judged := [c] }], counts := tally (tally w.counts (65280 + 124)) (256 * x.bss + 124) }) {}
    (by have : (s.wide.radios.getD r {}).periods = _ := hp
        simp only [this, List.map_cons, List.map_nil, if_true]; rfl)
  rw [mc]

/-! ### Reordering -/

theorem find_second {n : Nat} {p : Nat → Bool} (h0 : p 0 = false) (h1 : p 1 = true) : (List.range (n + 2)).find? p = some 1 := by
  rw [List.range_succ_eq_map, List.range_succ_eq_map]
  simp [h0, h1]

/-- The one agreement of the one client changed. -/
theorem updBa_one {c t : Nat} {x : Client} {a : BaRx} {f : BaRx → BaRx} {s : State} (hc : s.wide.clients = [(c, x)]) (hb : x.baRx = [(t, a)]) :
    updBa c t f s = { s with wide.clients := [(c, { x with baRx := [(t, f a)] })] } := by
  unfold updBa updClient
  rw [hc]
  simp [Map.get?, Map.set, hb]

theorem client_one {c : Nat} {x : Client} {s : State} (hc : s.wide.clients = [(c, x)]) : s.client c = x := by
  unfold State.client; rw [hc]; simp [Map.getD, Map.get?]

theorem releaseMpdu_replay {h : HeldMpdu} {s : State} (hl : lateStatus s h.m = 9) :
    releaseMpdu h s = accCount h.radio (bssOf s h.m.client) aReplay s := by
  unfold releaseMpdu; rw [hl]; rfl

/-- A held replay is counted and left out of the scoreboard; where PHY_MONITOR is clear nothing else happens. -/
theorem releaseHeld_replay {c t : Nat} {h : HeldMpdu} {s : State} (hl : lateStatus s h.m = 9) (hw : (wrxCfg s h.radio).monitor = false) :
    releaseHeld c t h s = updBa c t (fun a => { a with passed := a.passed ++ [h.m.seq] }) (accCount h.radio (bssOf s h.m.client) aReplay s) := by
  have e : ∀ (f : BaRx → BaRx) (z : State), z.kept = s.kept → (wrxCfg (updBa c t f z) h.radio).monitor = false := by
    intro f z hz
    have : (updBa c t f z).kept = s.kept := by
      unfold updBa; rw [updClient_eq]; exact hz
    unfold wrxCfg at hw ⊢; rw [this]; exact hw
  unfold releaseHeld
  dsimp only
  rw [hl, if_neg (by decide), releaseMpdu_replay hl, e _ _ (by simp), if_neg (by simp)]

/-- One MPDU behind one missing number, and it is a replay: the window moves past both, the MPDU is counted and gone. -/
theorem moveWindow_replay {c t : Nat} {x : Client} {a : BaRx} {h : HeldMpdu} {s : State} (hc : s.wide.clients = [(c, x)]) (hb : x.baRx = [(t, a)])
    (ha : a.start < 4096) (hh : a.held = [((a.start + 1) % 4096, h)]) (hm : h.m.client = some c) (hk : x.kind = 1)
    (hl : ∀ b, lateStatus { s with wide.clients := [(c, { x with baRx := b })] } h.m = 9) (hw : (wrxCfg s h.radio).monitor = false) :
    ∃ p, moveWindow c t ((a.start + 1) % 4096) s = { s with
      wide.clients := [(c, { x with baRx := [(t, { a with start := (a.start + 2) % 4096, held := [], gap := none, passed := p })] })]
      wide.radios := (accCount h.radio (some x.bss) aReplay s).wide.radios } := by
  have g1 : seqGap a.start ((a.start + 1) % 4096) = 1 := by unfold seqGap; omega
  have g2 : (a.start + 1) % 4096 ≠ a.start := by omega
  have g3 : (a.start + 0) % 4096 = a.start := by omega
  have g4 : ((a.start + 1) % 4096 + 1) % 4096 = (a.start + 2) % 4096 := by omega
  unfold moveWindow
  rw [client_one hc, hb]
  simp only [Map.get?, if_true, g1, List.range_one, List.map_cons, List.map_nil, g3]
  rw [updBa_one hc hb]
  have e1 : a.held.filter (fun e => !([a.start].contains e.1)) = a.held := by rw [hh]; simp [g2]
  have e2 : [a.start].filterMap (fun q => Map.get? a.held q) = [] := by rw [hh]; simp [Map.get?, Ne.symm g2]
  rw [e1, e2]
  simp only [List.foldl_nil]
  generalize a.passed ++ [a.start].filter (fun q => !Map.has a.held q) = pp
  obtain ⟨a1, ha1⟩ : ∃ a1 : BaRx, a1 = { a with start := (a.start + 1) % 4096, passed := pp } := ⟨_, rfl⟩
  obtain ⟨a2, ha2⟩ : ∃ a2 : BaRx, a2 = { a with start := (a.start + 2) % 4096, held := [], passed := pp } := ⟨_, rfl⟩
  obtain ⟨a3, ha3⟩ : ∃ a3 : BaRx, a3 = { a2 with passed := pp ++ [h.m.seq] } := ⟨_, rfl⟩
  rw [← ha1]
  unfold windowMoved
  have step : releaseRun c t 1024 { s with wide.clients := [(c, { x with baRx := [(t, a1)] })] } =
      { s with wide.clients := [(c, { x with baRx := [(t, a3)] })], wide.radios := (accCount h.radio (some x.bss) aReplay s).wide.radios } := by
    rw [show (1024 : Nat) = 1022 + 1 + 1 from rfl, releaseRun, client_one rfl]
    have f1 : Map.get? [(t, a1)] t = some a1 := by simp [Map.get?]
    have f2 : Map.get? a1.held a1.start = some h := by rw [ha1]; simp [hh, Map.get?]
    dsimp only
    rw [f1]
    dsimp only
    rw [f2]
    dsimp only
    rw [updBa_one (x := { x with baRx := [(t, a1)] }) (a := a1) rfl rfl]
    have f3 : ({ a1 with start := (a1.start + 1) % 4096, held := Map.erase a1.held a1.start } : BaRx) = a2 := by
      rw [ha1, ha2]; simp [hh, g4, Map.erase]
    rw [f3, releaseHeld_replay (hl _) (by exact hw)]
    have f4 : ∀ z : State, z.wide.clients = [(c, { x with baRx := [(t, a2)] })] → bssOf z h.m.client = some x.bss := by
      intro z hz
      unfold bssOf
      rw [hm]
      dsimp only
      rw [hz]
      simp [Map.get?, hk]
    have f5 : ({ a2 with passed := a2.passed ++ [h.m.seq] } : BaRx) = a3 := by rw [ha3, ha2]
    rw [f4 _ rfl, updBa_one (x := { x with baRx := [(t, a2)] }) (a := a2) rfl rfl, f5, releaseRun,
      client_one (x := { x with baRx := [(t, a3)] }) rfl]
    have f6 : Map.get? [(t, a3)] t = some a3 := by simp [Map.get?]
    have f7 : Map.get? a3.held a3.start = none := by rw [ha3, ha2]; rfl
    dsimp only
    rw [f6]
    dsimp only
    rw [f7]
    rfl
  rw [step, updBa_one (x := { x with baRx := [(t, a3)] }) (a := a3) rfl rfl, ha3, ha2]
  exact ⟨_, rfl⟩

theorem completeQueue_none {q st : Nat} {s : State} (h : (s.queue q).frames = []) : completeQueue q st s = s := by
  unfold completeQueue; simp only [h, if_true]

/-- Queues in which nothing waits: completing all their frames does nothing. -/
theorem flushes_none {l : List Nat} {s : State} (h : ∀ q, (s.queue q).frames = []) : l.foldl (fun s q => flushWlan q s) s = s := by
  induction l with
  | nil => rfl
  | cons q r ih => rw [List.foldl_cons, flushWlan, completeQueue_none (h q)]; exact ih

theorem queues_none {s : State} (h : s.plan.queues = []) (q : Nat) : (s.queue q).frames = [] := by
  unfold State.queue; rw [h]; rfl

/-- A client with nothing waiting leaves the tables; what else the block holds stays, the radios' records of it apart. -/
theorem removeClient_quiet {c : Nat} {x : Client} {s : State} (hc : Map.get? s.wide.clients c = some x) (hq : s.plan.queues = []) :
    removeClient c s = { s with wide := (removeClient c s).wide } ∧ (removeClient c s).wide.clients = Map.erase s.wide.clients c ∧
    (removeClient c s).wide.links = s.wide.links.filter (fun e => e.2.client ≠ c) ∧
    (removeClient c s).wide.twt = s.wide.twt.filter (fun e => e.2.client ≠ c) ∧ (removeClient c s).wide.dels = s.wide.dels := by
  unfold removeClient
  rw [hc]
  dsimp only
  rw [flushes_none (queues_none hq), hq]
  refine ⟨?_, rfl, rfl, rfl, rfl⟩
  conv => lhs; rw [show ([] : List (Nat × PQueue)).map _ = s.plan.queues from hq.symm]

theorem dropForLimit_eq (q : Nat) (s : State) :
    dropForLimit q s = { s with plan := (dropForLimit q s).plan, mem := (dropForLimit q s).mem, stw.events := (dropForLimit q s).stw.events } := by
  have h : ∀ (b : Bool) (x y : State), x = { s with plan := x.plan, mem := x.mem } →
      y = { s with plan := y.plan, mem := y.mem, stw.events := y.stw.events } → ∀ z, z = (if b = true then x else y) →
      z = { s with plan := z.plan, mem := z.mem, stw.events := z.stw.events } := by
    intro b x y hx hy z hz
    cases b
    · rw [hz]; exact hy
    · rw [hz, if_pos rfl, hx]
  exact h _ _ _ rfl rfl _ rfl

theorem mem_changed {s x : State} (m : MemState) (h : x = { s with plan := x.plan, mem := x.mem, stw.events := x.stw.events }) :
    { x with mem := m } = { s with plan := x.plan, mem := m, stw.events := x.stw.events } := by
  conv => lhs; rw [h]

/-- A frame for a management queue enters it, or is counted as discarded: the queues, the pools and their events change. -/
theorem enqueue_management {q : Nat} {f : Queued} {s : State} (h : queueRange q = 4) :
    (enqueue q f s).1 = { s with plan := (enqueue q f s).1.plan, mem := (enqueue q f s).1.mem, stw.events := (enqueue q f s).1.stw.events } := by
  have h1 : childQueue q = false := by unfold childQueue; rw [h]; rfl
  have h2 : psClient s q = none := by unfold psClient queueStation; rw [h]; rfl
  unfold enqueue
  simp only [h1, h2, Bool.false_eq_true, if_false]
  split
  · exact dropForLimit_eq q s
  · split
    · rfl
    · split
      · exact mem_changed _ (dropForLimit_eq q s)
      · dsimp only
        rw [tagHead_eq]
        split
        · unfold updQueue chargePool raise raiseAt; dsimp only; split <;> rfl
        · rfl

/-- A frame that an empty management queue and the pool have room for waits at its head, the only one. -/
theorem enqueue_management_admits {q : Nat} {f : Queued} {s : State} (h : queueRange q = 4) (he : (s.queue q).frames = [])
    (hl : f.charge ≤ (queueSet s q).limitKb * 1024) (hc : f.colour = 0) (hp : poolFits s 1 f.charge = true) :
    (((enqueue q f s).1.queue q).frames.map (fun g => (g.job, g.payload))) = [(f.job, f.payload)] := by
  have h1 : childQueue q = false := by unfold childQueue; rw [h]; rfl
  have h2 : psClient s q = none := by unfold psClient queueStation; rw [h]; rfl
  have h3 : queuePool s q = 1 ∨ queuePool s q = 0 := by unfold queuePool; rw [h2]; split <;> simp
  have h4 : ¬ ((s.queue q).bytes + f.charge > (queueSet s q).limitKb * 1024) := by unfold PQueue.bytes; rw [he]; simp; omega
  have h5 : ¬ (queuePool s q ≠ 0 ∧ (!poolFits s (queuePool s q) f.charge) = true) := by
    rcases h3 with h3 | h3 <;> rw [h3] <;> simp [hp]
  unfold enqueue
  simp only [h1, h2, Bool.false_eq_true, if_false, hc, ne_eq, not_true_eq_false, decide_false, Bool.false_and, decide_eq_true_eq, if_neg h4]
  rw [if_neg (by simpa using h5)]
  have key : ∀ (y : State) (g : Queued), g.tag = none → (y.queue q).frames = [] →
      ((tagHead q (updQueue q (fun p => { p with frames := p.frames ++ [g] }) y)).queue q).frames.map (fun g => (g.job, g.payload)) =
        [(g.job, g.payload)] := by
    intro y g hg hy
    unfold tagHead
    simp only [updQueue_queue, hy, List.nil_append, hg, List.map_cons, List.map_nil]
  have hc : (if queuePool s q ≠ 0 then chargePool (queuePool s q) f.charge s else s).queue q = s.queue q := by
    split
    · unfold chargePool raise raiseAt State.queue; dsimp only; split <;> rfl
    · rfl
  rw [key _ _ rfl (by rw [hc, he])]


/-- A radio with no channel runs no plan, and a plan computed for the field alone stays. -/
theorem latchWide_off {s : State} {r : Nat} (h : s.kept.wide.chan = []) (hc : Map.get? s.plan.computed r = none) :
    latchWide s r = { s with plan.latched := Map.set s.plan.latched r { beat := s.beat + 1, active := false } } := by
  have c : chanCfg s r = {} := by unfold chanCfg; rw [h]; rfl
  unfold latchWide
  dsimp only
  rw [if_pos (by unfold wideAllowed; rw [c]; simp)]
  unfold dropComputed
  rw [hc]

/-- The plan commit where no wide radio has a channel and a field chain has finished the plan of the next beat (R36, R341). -/
theorem latchPlans_field {s : State} {p : AirPlan} (hd : dataPlane s = true) (hm : s.power.mode ≠ .doze)
    (hz : modeAt s (s.beat + 1) ≠ .doze) (hch : s.kept.wide.chan = []) (hp : s.plan.computed = [(2, p)]) (hb : p.beat = s.beat + 1)
    (hr : rebaseHolds s = false) (hdone : ((s.unit 34).complete || (s.unit 35).complete) = true) :
    latchPlans s = { s with
      plan.missed := [], plan.computed := []
      plan.latched := Map.set (Map.set (Map.set s.plan.latched 0 { beat := s.beat + 1, active := false }) 1 { beat := s.beat + 1, active := false }) 2 p } := by
  have w : ∀ x : State, x.kept = s.kept → widePlanCommit x = x := by
    intro x hx
    have : ∀ r, wideOn x r = false := by
      intro r
      have c : chanCfg x r = {} := by unfold chanCfg; rw [hx, hch]; rfl
      unfold wideOn; rw [c]; simp
    unfold widePlanCommit
    simp only [List.foldl_cons, List.foldl_nil, this, Bool.false_eq_true, false_and, if_false]
  have f : ∀ x : State, x.power = s.power → fieldPlanCommit x = x := by
    intro x hx
    unfold fieldPlanCommit
    rw [if_neg (by rw [hx]; exact fun h => hm h.1)]
  have l : ∀ x : State, x.power = s.power → x.time = s.time → x.plan.computed = s.plan.computed →
      latchField x = { x with plan.computed := [], plan.latched := Map.set x.plan.latched 2 p } := by
    intro x hx ht hc
    have b : x.beat = s.beat := by unfold State.beat State.ns; rw [ht]
    have m : modeAt x (x.beat + 1) = modeAt s (s.beat + 1) := by unfold modeAt; rw [hx, b]
    have u : ∀ k, x.unit k = s.unit k := by intro k; unfold State.unit; rw [ht]
    have q : rebaseHolds x = false := by unfold rebaseHolds at hr ⊢; rw [ht, b]; exact hr
    unfold latchField
    dsimp only
    rw [m, if_neg (fun h => hz h.1), hc, hp, u, u, hdone, b]
    simp [Map.get?, Map.erase, hb, q]
  have hn : ∀ r, r < 2 → Map.get? s.plan.computed r = none := by
    intro r h
    rw [hp]
    obtain rfl | rfl : r = 0 ∨ r = 1 := by omega
    · rfl
    · rfl
  unfold latchPlans
  rw [if_neg (by rw [hd]; simp)]
  dsimp only
  rw [latchWide_off (r := 0) (by exact hch) (by exact hn 0 (by decide)), latchWide_off (r := 1) (by exact hch) (by exact hn 1 (by decide))]
  rw [l _ (by rfl) (by rfl) (by rfl), w _ (by rfl), f _ (by rfl)]
  rfl

/-- A radio whose chains are those of its mask, or that still needs others, keeps them. -/
theorem settleChains_same {r : Nat} {s : State} (h : holdsChains s r = true ∨ (s.wr r).chains = (s.wr r).mask) : settleChains r s = s := by
  unfold settleChains
  exact if_pos h

/-- Leftover chains power down where the mask keeps some: nothing else changes. -/
theorem settleChains_down {r : Nat} {s : State} (hh : holdsChains s r = false) (hm : (s.wr r).mask ≠ 0) (hc : (s.wr r).chains ≠ (s.wr r).mask) :
    settleChains r s = updWr r (fun w => { w with chains := w.mask }) s := by
  unfold settleChains
  dsimp only
  rw [if_neg (by simp [hh, hc]), if_neg hm]

end Sys2Proof.Laws
end

