-- ==== Sys2Proof/Laws/Wired.lean ====
section
/-! SUPPORT. What the shared operations of the wired ports do: selection, a frame's start, PAUSE, the rules of gate lists where there are
none. -/

namespace Sys2Proof.Laws
open Machine

@[simp] theorem fresh_wport (s : State) (e : Nat) : (fresh s).wport e = s.wport e := rfl
@[simp] theorem fresh_portCfg (s : State) (e : Nat) : portCfg (fresh s) e = portCfg s e := rfl
@[simp] theorem fresh_wiredOn (s : State) : wiredOn (fresh s) = wiredOn s := rfl
@[simp] theorem fresh_portFree (s : State) (e : Nat) : portFree (fresh s) e = portFree s e := rfl
@[simp] theorem fresh_bitsNs (s : State) (e n : Nat) : bitsNs (fresh s) e n = bitsNs s e n := rfl
@[simp] theorem fresh_frameNs (s : State) (e n : Nat) : frameNs (fresh s) e n = frameNs s e n := rfl
@[simp] theorem fresh_gateList (s : State) (e : Nat) : gateList (fresh s) e = gateList s e := rfl
@[simp] theorem fresh_ring (s : State) (r : Nat) : (fresh s).ring r = s.ring r := rfl

@[simp] theorem fresh_egressStamp (src v n m : Nat) (s : State) : egressStamp src v n m (fresh s) = egressStamp src v n m s := by unfold fresh; rfl
@[simp] theorem fresh_ingressStamp (src v n m : Nat) (s : State) : ingressStamp src v n m (fresh s) = ingressStamp src v n m s := by unfold fresh; rfl

@[simp] theorem updPort_wport (e k : Nat) (f : WPort → WPort) (s : State) :
    (updPort e f s).wport k = if k = e then f (s.wport e) else s.wport k := by
  show Map.getD (Map.set _ _ _) _ _ = _
  simp only [getD_set]
  rfl

/-- Without a gate list no frame is discarded for never fitting. -/
theorem purgeGated_none {s : State} (h : s.kept.plan.gates = []) : purgeGated s = s := by unfold purgeGated; rw [h]; rfl

theorem purgeEgress_none {e : Nat} {s : State} (h : gateList s e = none) : purgeEgress e s = s := by
  unfold purgeEgress; rw [h]; rfl

theorem countWaits_none {e w : Nat} {c : Option Nat} {s : State} (h : gateList s e = none) : countWaits e w c s = s := by
  unfold countWaits; rw [h]; rfl

/-- A value found in a map is one of its entries. -/
theorem get?_mem {α : Type} {m : List (Nat × α)} {k : Nat} {v : α} (h : Map.get? m k = some v) : (k, v) ∈ m := by
  induction m with
  | nil => cases h
  | cons x r ih =>
    unfold Map.get? at h
    split at h
    · rename_i e
      cases h
      subst e
      exact List.mem_cons_self ..
    · exact List.mem_cons_of_mem _ (ih h)

/-- While no port sends PAUSE, no crossing of a threshold does anything. -/
theorem pauseAll_none {s : State} (h : s.kept.wired.ports.all (fun x => !x.2.pauseTx) = true) : pauseAll s = s := by
  have hp : ∀ e, (portCfg s e).pauseTx = false := by
    intro e
    unfold portCfg Map.getD
    cases hg : Map.get? s.kept.wired.ports e with
    | none => rfl
    | some g => simpa using List.all_eq_true.1 h _ (get?_mem hg)
  have hc : ∀ e, pauseCheck e s = s := by
    intro e; unfold pauseCheck; dsimp only; rw [if_pos (by simp [hp])]
  unfold pauseAll
  exact foldl_id _ s _ (fun x => by rw [hc]; split <;> rfl)

/-- The queues ready for a class of a wired egress, where one queue holds frames. -/
theorem ready_single {e c q : Nat} {p : PQueue} {f : Queued} {r : List Queued} {ok' : Nat → Queued → Bool} {s : State}
    (hq : s.plan.queues = [(q, p)]) (hf : p.frames = f :: r) (hr : q ≤ 0xDF) (he : q / 8 = e) (hh : f.held = false) (ho : ok' q f = true) :
    ready s e c ok' = if q % 8 = c then [(q, f)] else [] := by
  have h0 : queueRange q = 0 := by unfold queueRange; rw [if_pos hr]
  unfold ready
  rw [hq]
  simp only [List.filterMap_cons, List.filterMap_nil, queueEgress, queueClass, h0, hf, hh, ho, he]
  by_cases h : q % 8 = c <;> simp [h]

/-- The one frame that can start is selected. -/
theorem judge_single {e q : Nat} {p : PQueue} {f : Queued} {r : List Queued} {ok' : Nat → Queued → Bool} {s : State}
    (hu : unitUp s 4 = true) (hq : s.plan.queues = [(q, p)]) (hf : p.frames = f :: r) (hr : q ≤ 0xDF) (he : q / 8 = e) (hh : f.held = false)
    (ho : ok' q f = true) (hs : (classSet s (classKey e (q % 8))).shaped = false) :
    judge e ok' s = (s, some (q % 8, q, f)) := by
  have hm : judgeManagement e ok' s = (s, none) := by
    unfold judgeManagement
    rw [ready_single hq hf hr he hh ho, if_neg (by omega)]
    rfl
  have hj : ∀ n, q % 8 < n → judgeClasses e ok' n s = (s, some (q % 8, q, f)) := by
    intro n
    induction n with
    | zero => intro h; omega
    | succ n ih =>
      intro h
      unfold judgeClasses
      rw [ready_single hq hf hr he hh ho]
      by_cases hn : q % 8 = n
      · subst hn
        rw [if_pos rfl]
        simp [earliest, shapedOut, hs]
      · rw [if_neg hn]
        simp only [earliest]
        exact ih (by omega)
  unfold judge
  rw [hu, if_neg (by simp), hm]
  exact hj 8 (by omega)

/-- A frame whose tag has a PCP starts: the port holds it until its last bit. -/
theorem startTx_does {e : Nat} {q : Queued} {f : Frame} {s : State} (hq : q.payload = .eth f) (ht : q.tagged = false ∨ q.pcp.isSome = true) :
    ∃ o, startTx e q s = emit o (updPort e (fun p => { p with
      tx := some { item := q, startNs := s.time.mono, endNs := s.time.mono + frameNs s e (sentBytes q),
                   stamp := egressStamp (portSource e) 0 0 (bitsNs s e 64) s, flags := stampFlags (portSource e) 0 0 s
                   issue := s.time.mono + bitsNs s e 64 }
      wakeEnd := none, lpiTx := false }) s) := by
  unfold startTx
  rw [hq]
  have hw : ∃ l, wireFields q f s = (s, l) := by
    unfold wireFields
    cases hp : q.pcp with
    | some p => exact ⟨_, rfl⟩
    | none =>
      rw [hp] at ht
      have : q.tagged = false := by simpa using ht
      rw [this]
      exact ⟨_, rfl⟩
  obtain ⟨l, hl⟩ := hw
  dsimp only
  rw [hl]
  exact ⟨_, rfl⟩

/-- A selection leaves a wired port's class, its links and its gates alone. -/
theorem pickFrame_starts {e q : Nat} {p : PQueue} {x : Queued} {s : State}
    (hu : unitUp s 4 = true) (hq : s.plan.queues = [(q, p)]) (hf : p.frames = [x]) (hr : q ≤ 0xDF) (he : q / 8 = e) (hh : x.held = false)
    (hs : (classSet s (classKey e (q % 8))).shaped = false) (hg : gateList s e = none) (hl : (s.wport e).lpiTx = false) :
    pickFrame e s = startTx e { x with waited := false } (selectFrom e (q % 8) q x s) := by
  unfold pickFrame
  rw [purgeEgress_none hg]
  dsimp only
  rw [hl]
  have ho : gateFits s e 0 q x = true := by unfold gateFits gateOpenFor; rw [hg]
  rw [if_neg (by simp), judge_single hu hq hf hr he hh ho hs]
  dsimp only
  rw [countWaits_none hg, if_neg (by simp)]

/-- A wired port that runs no PLCA and waits for no retry selects as soon as its gap has passed. -/
theorem wiredSelect_picks {e : Nat} {s : State} (hf : portFree s e = true) (hp : (s.wport e).plca = 0) (hr : (s.wport e).retry = none)
    (hg : (s.wport e).gapEnd ≤ s.time.mono) (hw : s.time.acc < 2 ^ 96) : wiredSelect e s = pickFrame e s := by
  unfold wiredSelect
  dsimp only
  rw [hf, hp, hr, if_neg (by simp), if_neg (by simp), if_neg (by simp), advanceMono_past hg hw]

/-- A port that is not free to start a frame selects none. -/
theorem wiredSelect_not {e : Nat} {s : State} (hf : portFree s e = false) : wiredSelect e s = s := by
  unfold wiredSelect; dsimp only; rw [hf]; rfl

/-- A frame selected on a wired port starts; the selection's part is the Planisher's alone. -/
theorem selected_starts {e c q : Nat} {x : Queued} {f : Frame} {s : State} (hq : x.payload = .eth f)
    (ht : x.tagged = false ∨ x.pcp.isSome = true) :
    ∃ o, startTx e { x with waited := false } (selectFrom e c q x s) = emit o (updPort e (fun p => { p with
      tx := some { item := { x with waited := false }, startNs := s.time.mono, endNs := s.time.mono + frameNs s e (sentBytes x),
                   stamp := egressStamp (portSource e) 0 0 (bitsNs s e 64) s, flags := stampFlags (portSource e) 0 0 s
                   issue := s.time.mono + bitsNs s e 64 }
      wakeEnd := none, lpiTx := false }) (selectFrom e c q x s)) := by
  obtain ⟨o, ho⟩ := startTx_does (e := e) (q := { x with waited := false }) (f := f) (s := selectFrom e c q x s) hq ht
  refine ⟨o, ?_⟩
  rw [ho]
  have h := selectFrom_eq e c q x s
  generalize selectFrom e c q x s = y at *
  have e1 : y.time = s.time := by rw [h]
  have e2 : y.kept = s.kept := by rw [h]
  have e3 : y.power = s.power := by rw [h]
  have e4 : y.front = s.front := by rw [h]
  have e5 : y.wired = s.wired := by rw [h]
  have b : ∀ n, bitsNs y e n = bitsNs s e n := by intro n; unfold bitsNs State.wport; rw [e5]
  have g : ∀ n, egressStamp (portSource e) 0 0 n y = egressStamp (portSource e) 0 0 n s := by
    intro n
    have : y = { s with plan := y.plan } := h
    rw [this]
    rfl
  have fl : stampFlags (portSource e) 0 0 y = stampFlags (portSource e) 0 0 s := by rw [show y = { s with plan := y.plan } from h]; rfl
  have fr : ∀ n, frameNs y e n = frameNs s e n := by intro n; exact b _
  rw [b, g, fl, e1, fr]
  rfl

/-- A port's queues emptied where none holds a frame: the counts of the port alone may change. -/
theorem flushPort_idle (e : Nat) {s : State} (h : s.plan.queues = []) :
    (flushPort e s).plan = s.plan ∧ (flushPort e s).kept = s.kept ∧ (flushPort e s).wired.learned = s.wired.learned ∧
    ((flushPort e s).wport e).link = (s.wport e).link ∧ ((flushPort e s).wport e).linkChanges = (s.wport e).linkChanges := by
  unfold flushPort
  generalize List.range 8 = l
  induction l generalizing s with
  | nil => exact ⟨rfl, rfl, rfl, rfl, rfl⟩
  | cons c r ih =>
    have hq : flushQueue (8 * e + c) s = s := by
      unfold flushQueue
      dsimp only
      rw [if_pos (by unfold State.queue; rw [h]; rfl)]
    rw [List.foldl_cons]
    dsimp only
    rw [hq]
    obtain ⟨a1, a2, a3, a4, a5⟩ := ih (s := updPort e (fun p => { p with counts := tallyBy p.counts cTxLinkDown (s.queue (8 * e + c)).frames.length }) s) h
    refine ⟨a1, a2, a3, a4.trans ?_, a5.trans ?_⟩ <;> rw [updPort_wport, if_pos rfl]

/-- The one frame that a free wired port can send starts. -/
theorem pickFrame_sends {e q : Nat} {p : PQueue} {x : Queued} {f : Frame} {s : State}
    (hu : unitUp s 4 = true) (hq : s.plan.queues = [(q, p)]) (hf : p.frames = [x]) (hr : q ≤ 0xDF) (he : q / 8 = e) (hh : x.held = false)
    (hs : (classSet s (classKey e (q % 8))).shaped = false) (hg : gateList s e = none) (hl : (s.wport e).lpiTx = false)
    (hx : x.payload = .eth f) (ht : x.tagged = false ∨ x.pcp.isSome = true) :
    ∃ o, pickFrame e s = emit o (updPort e (fun p => { p with
      tx := some { item := { x with waited := false }, startNs := s.time.mono, endNs := s.time.mono + frameNs s e (sentBytes x),
                   stamp := egressStamp (portSource e) 0 0 (bitsNs s e 64) s, flags := stampFlags (portSource e) 0 0 s
                   issue := s.time.mono + bitsNs s e 64 }
      wakeEnd := none, lpiTx := false }) (selectFrom e (q % 8) q x s)) ∧
      ((selectFrom e (q % 8) q x s).queue q).frames = [] := by
  obtain ⟨o, ho⟩ := selected_starts (e := e) (c := q % 8) (q := q) (s := s) hx ht
  refine ⟨o, ?_, ?_⟩
  · rw [pickFrame_starts hu hq hf hr he hh hs hg hl, ho]
  · exact selectFrom_frames (g := x) (by unfold State.queue; rw [hq]; simpa [Map.getD, Map.get?] using hf)

/-- What the ports of a state are, after a frame has started on one of them. -/
theorem sends_wport {e c q : Nat} {x : Queued} {o : Output} {g : WPort → WPort} {s : State} :
    (emit o (updPort e g (selectFrom e c q x s))).wport e = g (s.wport e) := by
  rw [selectFrom_eq]
  show ((updPort e g _).wport e) = _
  rw [updPort_wport, if_pos rfl]
  rfl

end Sys2Proof.Laws
end

