-- ==== Sys2Proof/Tests/Slice0.lean ====
section
/-! SUPPORT. Tests. Which commands are no messages that the spec knows; some rows on small states, the expected values read off the manual's
tables; and for every clause of a statement that has hypotheses, a state and operands that meet them all. -/

open Sys2Proof Sys2Proof.Machine

namespace Sys2Proof.Tests

set_option Elab.async false

/-- The block READY, in Lean. -/
def up : State := { State.reset with boot.stage := 8, stw.state := .ready }
/-- Lane `n` claimed. -/
def claim (n : Nat) (s : State) : State := updLane n (fun l => { l with claimed := true }) s
/-- The block READY with lane 0 claimed. -/
def ready : State := claim 0 up
/-- `s` at `ns` of local time. -/
def at' (ns : Nat) (s : State) : State := { s with time.acc := ns * 2 ^ 32, time.mono := ns }
/-- A command without operands, in slot 0 of lane 0. -/
def nop : Cmd := { lane := 0, slot := 0 }
/-- A command whose operands are the values `b`, each with its length in bytes, from slot offset 16 on. -/
def cmd (b : List (Nat × Nat)) : Cmd :=
  { lane := 0, slot := 0, length := 16 + (b.map (·.1)).sum, body := (b.map (fun x => le x.1 x.2)).flatten }
/-- The state that a step from `s` answers. -/
def after (s : State) : State := match step s with | .next t => t | _ => s

/-! ### Ill-formed commands are refused -/

theorem test_wf_lane_number : (Instr.doorbell 4 0).wf = false ∧ (Instr.doorbell 3 0).wf = true := by decide
theorem test_wf_done_lane : (Instr.mbxDoneWrite 4 0).wf = false ∧ (Instr.leaseRenew 4).wf = false ∧ (Instr.leaseExpiry 4).wf = false := by decide
theorem test_wf_read_lane : (Instr.mbxErrRead 4).wf = false ∧ (Instr.evrLostRead 4).wf = false ∧ (Instr.laneWdogExpiry 4).wf = false := by decide
theorem test_wf_nonce : (Instr.laneClaim 0 65536).wf = false ∧ (Instr.hardClaim 0 65536).wf = false ∧
    (Instr.laneReleaseWrite 0 65536).wf = false ∧ (Instr.laneClaim 0 65535).wf = true := by decide
theorem test_wf_ring_index : (Instr.evrRdWrite 0 1024).wf = false ∧ (Instr.evrRdWrite 0 1023).wf = true := by decide
theorem test_wf_power_request : (Instr.pwrReqWrite 8 0).wf = false ∧ (Instr.pwrReqWrite 0 256).wf = false ∧ (Instr.pwrReqWrite 7 255).wf = true := by
  decide
theorem test_wf_register : (Instr.registerWrite 3 0 0).wf = false ∧ (Instr.registerWrite 0 2 0).wf = false ∧
    (Instr.registerWrite 0 4096 0).wf = false ∧ (Instr.registerWrite 2 4092 0).wf = true := by decide
theorem test_wf_inband : (Instr.inbandClaim { lane := 0 }).wf = false ∧ (Instr.inbandDone { lane := 2, slot := 256 }).wf = false ∧
    (Instr.inbandCommand { lane := 3, seq := 2 ^ 32 }).wf = false ∧ (Instr.inbandCommand { lane := 3 }).wf = true := by decide
theorem test_wf_straps : (Instr.porRelease 4 0 false false).wf = false ∧ (Instr.porRelease 0 8 false false).wf = false ∧
    (Instr.warmReset 4 false).wf = false ∧ (Instr.sysResetNRise 4 true).wf = false ∧ (Instr.thermalRelease 0 4 true).wf = false := by decide
theorem test_wf_units : (Instr.beatOverrun 48 1).wf = false ∧ (Instr.planCompletion 48).wf = false ∧ (Instr.parityError 48).wf = false ∧
    (Instr.unitResume 48).wf = false ∧ (Instr.supplyMonitorTrip 4).wf = false := by decide
theorem test_wf_channels : (Instr.triggerFire 16).wf = false ∧ (Instr.triggerPulseEnd 16).wf = false ∧ (Instr.timerWrap 16).wf = false := by decide
theorem test_wf_ports : (Instr.linkDown 24).wf = false ∧ (Instr.linkUp 24 0 false).wf = false := by decide
theorem test_wf_tag : ({ vid := 4096 } : VTag).wf = false ∧ ({ pcp := 8 } : VTag).wf = false ∧ ({ vid := 4095, pcp := 7 } : VTag).wf = true := by
  decide
theorem test_wf_wired_frame : (Instr.wiredFrameRx 0 { frame := { tag := some { vid := 4096 } } }).wf = false ∧
    (Instr.wiredFrameRx 0 { frame := { da := 2 ^ 48 } }).wf = false ∧ (Instr.wiredFrameRx 23 { frame := {} }).wf = true := by decide
theorem test_wf_enqueue : (Instr.enqueue 0 (.field { secLevel := 8 }) 1).wf = false ∧ (Instr.enqueue 0 (.eth {}) 4096).wf = false := by decide
theorem test_wf_field_frame : (Instr.fieldRxEnd 11 { len := 128 }).wf = false ∧ (Instr.fieldRxEnd 11 { version := 4 }).wf = false ∧
    (Instr.fieldRxEnd 11 { len := 127 }).wf = true := by decide
theorem test_wf_descriptor : ({ addr := 2 ^ 64 } : TxDesc).wf = false ∧ ({ cls := 8 } : TxDesc).wf = false := by decide
theorem test_wf_command : (Instr.sysNop { nop with lane := 4 }).wf = false ∧ (Instr.sysNop { nop with slot := 16 }).wf = false ∧
    (Instr.sysNop { nop with tag := 65536 }).wf = false ∧ (Instr.sysNop { nop with body := List.replicate 241 0 }).wf = false ∧
    (Instr.sysNop nop).wf = true := by decide +kernel

/-! ### Single rows -/

/-- The state that a row answers from `s`. -/
def ran (i : Instr) (s : State) : State := match exec i s with | .next t => t | _ => s

/-- 02_steward_interface.md: SYS_NOP copies the 16 bytes of the request into its response. -/
theorem test_nop_echoes :
    ((ran (.sysNop (cmd [(16, 0x0123456789ABCDEF)])) ready).slot 0 0).response.drop 16 = le 16 0x0123456789ABCDEF := by decide +kernel
/-- R120: another major version is answered UNSUPPORTED, DETAIL 0x01. -/
theorem test_other_major_version :
    (((ran (.sysNop { nop with ifver := 0x52 }) ready).slot 0 0).response.drop 6).take 2 = [2, 1] := by decide +kernel
/-- R120: a byte that is not 0 where the table reserves it is answered BAD_ARG with its offset. -/
theorem test_reserved_byte :
    (((ran (.sysCounters (cmd [(1, 0), (1, 0), (2, 1)])) ready).slot 0 0).response.drop 6).take 2 = [3, 18] := by decide +kernel
/-- R444: PWR_REQ with TARGET 6 is answered BAD_ARG in PWR_RESULT. -/
theorem test_no_such_mode :
    (ran (.pwrReqWrite 6 9) up).power.resultStatus = 3 ∧ (ran (.pwrReqWrite 6 9) up).power.resultTag = 9 := by decide +kernel
/-- SYS_SCRATCH (02_steward_interface.md) holds what software writes. -/
theorem test_scratch : (ran (.registerWrite 0 0x018 0xDEADBEEF) up).stw.scratch = 0xDEADBEEF := by decide +kernel
/-- R97: a hard claim of a lane that is held, its watchdog not expired, is ignored and counted. -/
theorem test_hard_claim_of_a_held_lane :
    ((ran (.hardClaim 0 77) ready).lane 0).hardClaimCnt = 1 ∧ ((ran (.hardClaim 0 77) ready).lane 0).nonce = 0 := by decide +kernel
/-- R24: with no correction one tick moves the TBC on by 2 ns. -/
theorem test_tick : (after up).ns = 2 := by decide +kernel
/-- Table 12-2: the manual says nothing of the test state. -/
theorem test_test_mode_stops :
    (match exec (.porRelease 0 0 true true) { up with boot.porHeld := true } with | .refused .testMode => true | _ => false) = true := by
  decide +kernel

/-! ### States and operands that meet the hypotheses of the statements -/

/-- The block READY with one client entry, which has no link. -/
def withClient : State := { ready with wide.clients := [(0, {})] }

/-- The deauthentication frame of whatever length the model allows fits the pool of a block that holds no frame. -/
theorem deauth_fits :
    poolFits withClient 1 (chargeOf withClient 0x3F02 (.eth { da := 0, etherType := 0, len := deauthLen }) 0).charge = true := by
  have h : deauthLen < 2305 := by unfold deauthLen; omega
  have hc : ∀ f : Frame, (chargeOf withClient 0x3F02 (.eth f) 0).charge = f.msdu := fun _ => rfl
  have hu : poolUsed withClient 1 = 0 := by decide +kernel
  have hb : poolBytes withClient 1 = 2 ^ 30 := by decide +kernel
  simp only [poolFits, hc, hu, hb, Frame.msdu, Frame.payload, decide_eq_true_eq]
  omega

/-- With no pair aged, the guard that R543 gives for a point lies above 0 and below what its ceiling leaves, whatever GUARD0 is fused. -/
theorem guard_in_range (op : Nat) (h1 : 1 ≤ op) (h2 : op ≤ 4) :
    0 < guardFormula op 0 ∧ opNominal op + guardFormula op 0 ≤ opCeiling op := by
  have h : guard0 op ≤ 40 ∧ 0 < guard0 op ∧ (op ≤ 2 → guard0 op ≤ 35) := by unfold guard0; split <;> omega
  have hg : guardFormula op 0 = (guard0 op * 20000 + 99999) / 100000 * 5 := by unfold guardFormula; omega
  rw [hg]
  generalize guard0 op = g at h
  obtain rfl | rfl | rfl | rfl : op = 1 ∨ op = 2 ∨ op = 3 ∨ op = 4 := by omega
  all_goals simp [opNominal, opCeiling] <;> omega

/-- The block READY on the day of a re-plan. -/
def replanDue : State := { up with assay.replanBeats := 86400000 }

theorem guards_low (op : Nat) (h1 : 1 ≤ op) (h2 : op ≤ 4) :
    replanDue.kept.assay.guards.getD (op - 1) 0 < guardFormula op (worstPair replanDue).2 ∧
    opNominal op + guardFormula op (worstPair replanDue).2 ≤ opCeiling op := by
  have h : (worstPair replanDue).2 = 0 := by decide +kernel
  have hg : replanDue.kept.assay.guards.getD (op - 1) 0 = 0 := by
    obtain rfl | rfl | rfl | rfl : op = 1 ∨ op = 2 ∨ op = 3 ∨ op = 4 := by omega
    all_goals rfl
  rw [h, hg]
  exact guard_in_range op h1 h2

theorem test_hypotheses_EmptyQueueIdlesOneTick :
    -- the clock runs
    (∃ (s : State), s.pending = [] ∧ alive s = true ∧ clockRuns s = true ∧ (List.range 4).all (fun k => (s.lane k).order.isEmpty) = true) ∧
    -- the power-on reset is held
    (∃ (s : State), s.pending = [] ∧ s.boot.porHeld = true) := by
  and_intros
  · exact ⟨up, by decide +kernel⟩
  · exact ⟨{ up with boot.porHeld := true }, by decide +kernel⟩

theorem test_hypotheses_InterruptsStayTold :
    (∃ (s t' : State), reported s ∧ step s = .next t') := by
  exact ⟨State.reset, after State.reset, by decide, rfl⟩

theorem test_hypotheses_NothingHappensInReset :
    (∃ (i : Instr) (s : State), i.onReset = false ∧ alive s = false) := by
  exact ⟨.eventBatchWrite, { up with boot.pinHeld := true }, by decide +kernel⟩

theorem test_hypotheses_CommandsAreRefusedEarly :
    -- another major version
    (∃ (i : Instr) (c : Cmd) (s : State), i.cmd? = some c ∧ acceptedNow c s = true ∧ c.ifver / 16 ≠ 4) ∧
    -- a wrong field of the header
    (∃ (i : Instr) (c : Cmd) (d : Nat) (s : State), i.cmd? = some c ∧ acceptedNow c s = true ∧ c.ifver / 16 = 4 ∧ badHeader c = some d) ∧
    -- in Recovery, an area that is not served
    (∃ (i : Instr) (c : Cmd) (s : State), i.cmd? = some c ∧ acceptedNow c s = true ∧ goodHeader c = true ∧ s.stw.state = .recovery ∧ i.opcode / 256 ≠ 1 ∧ i.opcode / 256 ≠ 10) := by
  and_intros
  · exact ⟨.sysNop { nop with ifver := 0x52 }, { nop with ifver := 0x52 }, ready, by decide +kernel⟩
  · exact ⟨.sysNop { nop with length := 257 }, { nop with length := 257 }, 2, ready, by decide +kernel⟩
  · exact ⟨.fieldConfig nop, nop, { ready with stw.state := .recovery }, by decide +kernel⟩

theorem test_hypotheses_ReservedFieldsAreRefused :
    -- a value that the table does not allow
    (∃ (i : Instr) (c : Cmd) (d : Nat) (s : State), i.cmd? = some c ∧ acceptedNow c s = true ∧ goodHeader c = true ∧ areaServed i.opcode s = true ∧ badField (handlerOf i.opcode).fields c = some d) ∧
    -- a reserved byte or bit
    (∃ (i : Instr) (c : Cmd) (s : State), i.cmd? = some c ∧ acceptedNow c s = true ∧ goodHeader c = true ∧ areaServed i.opcode s = true ∧ reservedSet (handlerOf i.opcode).fields c = true) := by
  and_intros
  · exact ⟨.sysCancel (cmd [(1, 16), (3, 0)]), cmd [(1, 16), (3, 0)], 16, ready, by decide +kernel⟩
  · exact ⟨.sysNop (cmd [(16, 0), (4, 1)]), cmd [(16, 0), (4, 1)], ready, by decide +kernel⟩

theorem test_hypotheses_DoorbellsWaitForTheSteward :
    (∃ (i : Instr) (c : Cmd) (s : State), i.cmd? = some c ∧ alive s = true ∧ windowUp s = true ∧ c.lane < 4 ∧ c.slot < 16 ∧ (s.lane c.lane).claimed = true ∧ (s.slot c.lane c.slot).phase = .free ∧ s.power.entry = none ∧ s.stw.state ≠ .fault ∧ serving s = false ∧ hostLoading s = false) := by
  exact ⟨.sysNop nop, nop, { ready with stw.state := .restarting }, by decide +kernel⟩

theorem test_hypotheses_TakenSlotsAreLeftAlone :
    (∃ (i : Instr) (c : Cmd) (s : State), i.cmd? = some c ∧ alive s = true ∧ windowUp s = true ∧ c.lane < 4 ∧ c.slot < 16 ∧ (s.lane c.lane).claimed = true ∧ (s.slot c.lane c.slot).phase ≠ .free ∧ s.stw.state ≠ .fault) := by
  exact ⟨.sysNop nop, nop, updLane 0 (fun l => { l with slots := Bank.modify l.slots 0 (fun x => { x with phase := .done }) }) ready, by decide +kernel⟩

theorem test_hypotheses_UnclaimedLanesCountDoorbells :
    -- DOORBELL
    (∃ (n : Nat) (ring : BitVec 16) (s : State), alive s = true ∧ windowUp s = true ∧ n < 2 ∧ ring ≠ 0 ∧ (s.lane n).claimed = false ∧ ((List.range 4).all (fun k => (s.lane k).order.isEmpty) = true ∨ serving s = false ∧ hostLoading s = false)) ∧
    -- a row of the command sets
    (∃ (i : Instr) (c : Cmd) (s : State), i.cmd? = some c ∧ alive s = true ∧ windowUp s = true ∧ c.lane < 4 ∧ c.slot < 16 ∧ (s.lane c.lane).claimed = false) ∧
    -- INBAND_COMMAND on lane 3, open, its tag good
    (∃ (f : InbandFrame) (s : State), alive s = true ∧ windowUp s = true ∧ f.lane = 3 ∧ f.slot < 16 ∧ f.tagOk = true ∧ s.kept.stw.lane3Open = true ∧ (s.lane 3).claimed = false) := by
  and_intros
  · exact ⟨1, 0x8000, up, by decide +kernel⟩
  · exact ⟨.sysNop { nop with lane := 3, slot := 15 }, { nop with lane := 3, slot := 15 }, up, by decide +kernel⟩
  · exact ⟨{ lane := 3, slot := 15 }, { up with kept.stw.lane3Open := true }, by decide +kernel⟩

theorem test_hypotheses_StaleMeasurementsAreDiscarded :
    -- SERVO_MEASUREMENT of the selected port or of the Steward's own source
    (∃ (m : Measurement) (s : State), alive s = true ∧ s.power.mode ≠ .doze ∧ s.power.mode ≠ .dormant ∧ (m.src = 1 ∧ m.port = s.kept.time.servo.port ∨ m.src = 2) ∧ s.kept.time.servo.src = m.src ∧ (s.time.loadTick = some s.time.acc ∨ laterEpoch s.kept.time.epoch m.epoch = true)) ∧
    -- the judgement of a measurement of any source
    (∃ (theta : Int) (epoch : Nat) (s : State), s.power.mode ≠ .doze ∧ s.power.mode ≠ .dormant ∧ (s.time.loadTick = some s.time.acc ∨ laterEpoch s.kept.time.epoch epoch = true)) := by
  and_intros
  · exact ⟨{ src := 1 }, { up with kept.time.servo.src := 1, time.loadTick := some 0 }, by decide +kernel⟩
  · exact ⟨0, 0, { up with time.loadTick := some 0 }, by decide +kernel⟩

theorem test_hypotheses_OffsetFeedsAreJudged :
    -- another source
    (∃ (c : Cmd) (s : State), readyFor c s = true ∧ goodTable [fAny 16 8, fAny 24 2, fAny 26 8, fAny 34 1, fZero 35 1, fZero 36 4] c = true ∧ s.kept.time.servo.src ≠ 2) ∧
    -- an earlier epoch, or more than 2,000 beats before
    (∃ (c : Cmd) (s : State), readyFor c s = true ∧ goodTable [fAny 16 8, fAny 24 2, fAny 26 8, fAny 34 1, fZero 35 1, fZero 36 4] c = true ∧ s.kept.time.servo.src = 2 ∧ (laterEpoch s.kept.time.epoch (c.u 34 1) = true ∨ c.u 34 1 = s.kept.time.epoch ∧ c.u 26 8 + 2000 * 1000000 < s.ns)) := by
  and_intros
  · exact ⟨cmd [(8, 0), (2, 0), (8, 0), (1, 0), (1, 0), (4, 0)], ready, by decide +kernel⟩
  · exact ⟨cmd [(8, 0), (2, 0), (8, 0), (1, 0), (1, 0), (4, 0)], at' 3000000000 { ready with kept.time.servo.src := 2 }, by decide +kernel⟩

theorem test_hypotheses_NoSuchModeIsRefused :
    -- PWR_REQ, no transition under way
    (∃ (k q : Nat) (s : State), alive s = true ∧ windowUp s = true ∧ inTransition s = false ∧ (k = 5 ∨ k = 6 ∨ k = 7)) ∧
    -- PWR_REQ of any target in a transition: BUSY
    (∃ (k q : Nat) (s : State), alive s = true ∧ windowUp s = true ∧ inTransition s = true) ∧
    -- PWR_SET_MODE
    (∃ (c : Cmd) (s : State), readyFor c s = true ∧ inTransition s = false ∧ goodTable [fAny 16 1, fMask 17 1 3, fZero 18 2] c = true ∧ c.lane ≤ 2 ∧ (c.u 16 1 = 5 ∨ c.u 16 1 = 6 ∨ c.u 16 1 = 7)) := by
  and_intros
  · exact ⟨7, 0, up, by decide +kernel⟩
  · exact ⟨0, 0, { up with power.change := some { target := .watch, eff := none, asker := .self, cause := 0 } }, by decide +kernel⟩
  · exact ⟨cmd [(1, 5), (1, 0), (2, 0)], ready, by decide +kernel⟩

theorem test_hypotheses_HardClaimsAreJudged :
    -- HARD_CLAIM that succeeds
    (∃ (n nonce : Nat) (s : State), alive s = true ∧ n < 2 ∧ windowUp s = true ∧ 0 < nonce ∧ nonce < 65536 ∧ ((s.lane n).claimed = false ∨ (s.lane n).wdogExpired = true)) ∧
    -- HARD_CLAIM that is ignored
    (∃ (n nonce : Nat) (s : State), alive s = true ∧ n < 2 ∧ windowUp s = true ∧ 0 < nonce ∧ nonce < 65536 ∧ (s.lane n).claimed = true ∧ (s.lane n).wdogExpired = false) ∧
    -- the judgement of any lane: success
    (∃ (n nonce : Nat) (s : State), n < 4 ∧ 0 < nonce ∧ nonce < 65536 ∧ ((s.lane n).claimed = false ∨ (s.lane n).wdogExpired = true)) ∧
    -- the judgement of any lane: ignored and counted
    (∃ (n nonce : Nat) (s : State), 0 < nonce ∧ nonce < 65536 ∧ (s.lane n).claimed = true ∧ (s.lane n).wdogExpired = false) ∧
    -- a claim frame with HARD goes through that judgement
    (∃ (f : InbandFrame) (s : State), hasBit (InbandBody.u f.body 2 1) 0 = true) := by
  and_intros
  · exact ⟨1, 65535, up, by decide +kernel⟩
  · exact ⟨0, 1, ready, by decide +kernel⟩
  · exact ⟨3, 65535, up, by decide +kernel⟩
  · exact ⟨0, 1, ready, by decide +kernel⟩
  · exact ⟨{ lane := 2, body := [1, 0, 1] }, up, by decide +kernel⟩

theorem test_hypotheses_DurableCommandsWait :
    (∃ (i : Instr) (c : Cmd) (r : Reply) (s : State), i.cmd? = some c ∧ acceptedNow c s = true ∧ goodHeader c = true ∧ areaServed i.opcode s = true ∧ goodTable (handlerOf i.opcode).fields c = true ∧ hasBit c.flags 1 = true ∧ ((handlerOf i.opcode).run c s.stw.nextJob (taken i.opcode c s)).2 = .reply r ∧ r.status = 0) := by
  exact ⟨.sysNop { cmd [(16, 0)] with flags := 2 }, { cmd [(16, 0)] with flags := 2 }, { body := List.replicate 16 0 }, ready, by decide +kernel⟩

theorem test_hypotheses_BeatEventsTakeEffect :
    -- PLAN_COMPUTATION with no wide radio on a channel and no job of the Planisher overrunning: the frames that stand in the queues are seen, and the field plan of the next beat is made from the settings accepted for it
    (∃ (pols : List AirPolicy) (u : State) (s : State), u = { advanceTo (s.beat * 1000000 + 500000) s with time.computeBeat := some s.beat, plan.queues := Map.mapVals s.plan.queues (fun _ p => { p with frames := p.frames.map (fun f => { f with seen := some (f.seen.getD (advanceTo (s.beat * 1000000 + 500000) s).beat) }), ulSeen := if p.ulBytes > 0 then some (p.ulSeen.getD (advanceTo (s.beat * 1000000 + 500000) s).beat) else none }) } ∧ alive s = true ∧ s.time.computeBeat ≠ some s.beat ∧ s.phase ≤ 500000 ∧ s.time.settling = false ∧ (s.unit 4).busyUntil ≤ s.time.mono ∧ dataPlane s = true ∧ s.plan.computed = [] ∧ unitUp s 4 = true ∧ s.power.entry = none ∧ s.power.change = none ∧ s.power.waking = none ∧ s.power.mode ≠ .doze ∧ s.kept.wide.chan = []) ∧
    -- PLAN_COMPUTATION of any beat, behind a job of the Planisher that overruns: the computation is that of its beat, and the next beat has a field plan
    (∃ (pols : List AirPolicy) (s y : State), y = afterOverrun 4 (advancePhase 500000 s) ∧ alive s = true ∧ s.time.computeBeat ≠ some s.beat ∧ (s.phase ≤ 500000 ∨ s.time.planCommitBeat ≠ some s.beat) ∧ s.time.settling = false ∧ dataPlane s = true ∧ unitUp s 4 = true ∧ s.power.entry = none ∧ modeAt y (y.beat + 1) ≠ .doze) ∧
    -- PLAN_COMMIT at READY with no wide radio on a channel and a field plan that its chain has finished: the plan is latched for the next beat, the governor stays at level 0
    (∃ (p : AirPlan) (y : State) (s : State), y = advanceTo (s.beat * 1000000 + 900000) s ∧ alive s = true ∧ s.time.planCommitBeat ≠ some s.beat ∧ s.boot.stage = 8 ∧ s.power.mode.serves = true ∧ s.plan.gatePending = [] ∧ s.plan.maskPending = [] ∧ s.time.rebase = none ∧ s.power.change = none ∧ s.power.waking = none ∧ s.kept.wide.chan = [] ∧ (s.assay.govLevel = 0 ∧ (∀ k ∈ [1, 2, 3], (hottest s).2 < govThreshold s k)) ∧ s.kept.assay.config.thetaJa ≠ 0 ∧ s.kept.assay.config.thetaJa ≤ 120 ∧ s.power.fullAllowed = (!s.kept.assay.removed.contains 3 && !s.kept.assay.removed.contains 4) ∧ s.plan.computed = [(2, p)] ∧ ((s.unit 34).complete || (s.unit 35).complete) = true ∧ p.beat = y.beat + 1) ∧
    -- PLAN_COMMIT of any beat whose commit has not come: it is noted, no unit is complete for the beat after; at READY the next beat has its three plans
    (∃ (s y : State), y = advancePhase 900000 s ∧ alive s = true ∧ clockRuns s = true ∧ s.time.planCommitBeat ≠ some s.beat) ∧
    -- COMMIT_WINDOW in Recovery with no open command: the accepted settings are in force, and every count of beats advances by the beats since the last window
    (∃ (b n : Nat) (y : State) (s : State), y = advanceTo (b * 1000000) s ∧ alive s = true ∧ s.boot.stage = 9 ∧ s.stw.state = .recovery ∧ s.power.mode = .recovery ∧ b = max s.time.nextCommit s.beat ∧ n = b + 1 - s.time.nextCommit ∧ s.time.rebase = none ∧ s.time.settling = false ∧ s.time.fadjNext = none ∧ s.time.clearIntegral = false ∧ s.time.units = [] ∧ s.plan.late = none ∧ s.stw.jobs = [] ∧ s.power.opNext = none ∧ s.power.change = none ∧ s.power.waking = none ∧ s.assay.lifeDormant = 0 ∧ s.assay.replanning = none ∧ s.next.time.servo.src = 0 ∧ s.kept.time.servo.src = 0 ∧ s.next.time.pps = s.kept.time.pps ∧ s.kept.time.pps.outEnable = false ∧ s.next.assay.config = s.kept.assay.config ∧ (List.range 4).all (fun k => (s.lane k).order.isEmpty) = true) ∧
    -- COMMIT_WINDOW in READY, one configuration: a PAN identifier accepted for the next beat is in force, nothing else of the settings changes, and the beat whose window comes next is named
    (∃ (s : State), s = { State.reset with boot.stage := 8, stw.state := .ready, next.field.config.panId := 77 }) ∧
    -- COMMIT_WINDOW wherever the TBC runs, no rebase load standing before it and no doorbell held: the window of its beat has opened once, the settings accepted for it are in force
    (∃ (b : Nat) (s : State), b = max s.time.nextCommit s.beat ∧ alive s = true ∧ clockRuns s = true ∧ s.time.rebase.all (fun r => decide (b ≤ r.beat)) = true ∧ (List.range 4).all (fun n => (s.lane n).order.isEmpty) = true) := by
  and_intros
  · exact ⟨[], _, up, rfl, by decide +kernel⟩
  · exact ⟨[], up, _, rfl, by decide +kernel⟩
  · exact ⟨{ beat := 1 }, _, { up with plan.computed := [(2, { beat := 1 })], time.units := [(34, { complete := true })], power.fullAllowed := true, kept.assay.config.thetaJa := 120 }, rfl, by decide +kernel⟩
  · exact ⟨up, _, rfl, by decide +kernel⟩
  · exact ⟨0, 1, _, { up with boot.stage := 9, stw.state := .recovery, power.mode := .recovery }, rfl, by decide +kernel⟩
  · exact ⟨{ State.reset with boot.stage := 8, stw.state := .ready, next.field.config.panId := 77 }, by decide +kernel⟩
  · exact ⟨_, up, rfl, by decide +kernel⟩

theorem test_hypotheses_TimeEventsTakeEffect :
    -- BEAT_OVERRUN of a unit that did not overrun in the beat before
    (∃ (src ovr : Nat) (s : State), alive s = true ∧ 0 < ovr ∧ src ≤ 47 ∧ ((s.unit src).lastOverrun ≠ s.beat ∨ s.beat = 0) ∧ (s.unit src).safe = false) ∧
    -- BEAT_OVERRUN in the beat after one in which the unit overran: the safe plan follows, whether or not the unit is on it
    (∃ (src ovr : Nat) (s : State), alive s = true ∧ 0 < ovr ∧ src ≤ 47 ∧ s.beat ≠ 0 ∧ (s.unit src).lastOverrun = s.beat ∧ (s.unit src).safe = false) ∧
    -- SERVO_MEASUREMENT from the selected port while ACQUIRING, below the lock threshold, the control law not at its limit, fewer than seven such before
    (∃ (m : Measurement) (i theta : Int) (s : State), alive s = true ∧ m.src = 1 ∧ s.kept.time.servo.src = 1 ∧ m.port = s.kept.time.servo.port ∧ m.epoch = s.kept.time.epoch ∧ s.power.mode.serves = true ∧ s.time.loadTick = none ∧ s.time.servo = .acquiring ∧ s.time.lockRun < 7 ∧ theta = m.t2 - m.t1 - m.correction - m.meanPathDelay ∧ theta.natAbs ≤ s.kept.time.servo.stepNs * 2 ^ 16 ∧ theta.natAbs < s.kept.time.servo.lockNs * 2 ^ 16 ∧ i = s.kept.time.integral + s.kept.time.servo.ki * theta * 2 ^ 16 ∧ (i + s.kept.time.servo.kp * theta * 2 ^ 16).natAbs ≤ s.kept.time.servo.slewPpm * 1000000 * 2 ^ 32) ∧
    -- SOURCE_TIMEOUT in LOCKED
    (∃ (s : State), alive s = true ∧ s.time.servo = .locked ∧ s.kept.time.servo.src ≠ 0 ∧ s.power.mode.serves = true ∧ s.kept.time.servo.srcTimeout ≤ s.time.srcBeats) ∧
    -- REBASE_LOAD of the device's own rebase at the plan commit's end of its beat
    (∃ (r : Rebase) (s : State), alive s = true ∧ s.time.rebase = some r ∧ r.committed = true ∧ r.asker = none ∧ clockRuns s = true) ∧
    -- REBASE_LOAD in Dormant, where the TBC stands: nothing
    (∃ (s : State), alive s = true ∧ clockRuns s = false) ∧
    -- AUTO_REBASE: the step steady, the wait over
    (∃ (n : Nat) (s : State), alive s = true ∧ serving s = true ∧ s.time.servo = .holdover ∧ s.time.cause = .step ∧ s.time.stepSteady = true ∧ s.time.afterDormant = false ∧ s.kept.time.servo.rebaseWait ≤ n ∧ s.kept.time.servo.noAutoRebase = false ∧ s.time.rebase = none ∧ fitsTbc (rebaseResult (rebaseBeat s) true (-s.time.lastTheta)) = true) ∧
    -- INITIAL_REBASE
    (∃ (ns frac : Nat) (s : State), alive s = true ∧ serving s = true ∧ s.boot.stage = 8 ∧ s.time.servo = .freeRun ∧ s.time.rebase = none ∧ frac < 2 ^ 16 ∧ ns < 2 ^ 64) ∧
    -- TRIGGER_FIRE of a one-shot that starts the metering converter; TRIGn_STK where a lane 0 or 1 armed it
    (∃ (k : Nat) (s : State), alive s = true ∧ k < 16 ∧ (s.trig k).armed = true ∧ (s.trig k).held = false ∧ (s.trig k).period = 0 ∧ (s.trig k).target = 2 ∧ (s.trig k).eventEach = false ∧ s.power.mode ≠ .dormant) ∧
    -- PPS_IN_EDGE on the active edge
    (∃ (f : Bool) (s : State), alive s = true ∧ s.kept.time.pps.inEnable = true ∧ s.kept.time.pps.inFalling = f) ∧
    -- TOD_SENTENCE within 900 ms of its edge, SRC 3 not selected: the edge is labelled
    (∃ (utc : Nat) (e : Stamp) (s : State), alive s = true ∧ s.kept.time.pps.todEnable = true ∧ s.time.ppsIn.unlabelled = some e ∧ e.epoch = s.kept.time.epoch ∧ s.ns ≤ e.ns + 900000000 ∧ s.kept.time.servo.src ≠ 3) ∧
    -- TOD_SENTENCE with SRC 3 selected: the labelled edge is a measurement; in HOLDOVER, below the step threshold, one more good one
    (∃ (utc : Nat) (e : Stamp) (theta : Int) (s : State), theta = ((e.ns * 2 ^ 16 + e.frac : Nat) : Int) - s.kept.time.pps.inDelay - ((utc : Int) + s.kept.time.pps.utcOffset) * (10 ^ 9 * 2 ^ 16) ∧ alive s = true ∧ s.kept.time.pps.todEnable = true ∧ s.time.ppsIn.unlabelled = some e ∧ e.epoch = s.kept.time.epoch ∧ s.ns ≤ e.ns + 900000000 ∧ s.kept.time.servo.src = 3 ∧ s.power.mode.serves = true ∧ s.time.servo = .holdover ∧ s.time.goodRun < 7 ∧ s.time.loadTick = none ∧ theta.natAbs ≤ s.kept.time.servo.stepNs * 2 ^ 16) ∧
    -- PPS_MISSED_SECOND, the first in a row
    (∃ (u : State) (s : State), u = advanceTo (s.time.ppsIn.spanStart + 1001000000).toNat s ∧ alive s = true ∧ s.kept.time.pps.inEnable = true ∧ clockRuns s = true ∧ s.time.ppsIn.missRun = 0) ∧
    -- TB_NOW_LO_READ
    (∃ (s : State), alive s = true ∧ windowUp s = true) ∧
    -- PLAN_COMPLETION before the plan commit of the beat whose plans are computed
    (∃ (src : Nat) (s : State), alive s = true ∧ s.time.computeBeat = some s.beat ∧ s.time.planCommitBeat ≠ some s.beat ∧ s.phase < 900000) ∧
    -- PLAN_COMPLETION after the plan commit of a beat whose plans have been computed, its deadline past: the Planisher's overrun, to its end
    (∃ (src : Nat) (s : State), alive s = true ∧ s.time.planCommitBeat = some s.beat ∧ s.time.planCommitTick ≠ some s.time.acc ∧ s.time.computeBeat = some s.beat ∧ (s.beat * 1000000 + 900000) * 2 ^ 32 + s.inc ≤ s.time.acc ∧ s.ns - (s.beat * 1000000 + 900000) ≠ 0 ∧ ((s.unit 4).lastOverrun ≠ s.beat ∨ s.beat = 0)) ∧
    -- TRIGGER_PULSE_END of PPS_OUT: the pulse that ends first, at its local instant
    (∃ (k fin arg : Nat) (low : Bool) (l : List (Nat × Nat × Nat × Bool)) (s : State), alive s = true ∧ (s.trig k).pulses = (fin, 1, arg, low) :: l ∧ s.power.mode ≠ .dormant) := by
  and_intros
  · exact ⟨47, 1, at' 1000000 up, by decide +kernel⟩
  · exact ⟨47, 1, { up with time.acc := 5000000 * 2 ^ 32, time.mono := 5000000, time.units := [(47, { lastOverrun := 5 })] }, by decide +kernel⟩
  · exact ⟨{ src := 1 }, 0, 0, { up with kept.time.servo.src := 1, time.servo := .acquiring }, by decide +kernel⟩
  · exact ⟨{ up with time.servo := .locked, kept.time.servo.src := 1, time.srcBeats := 4000 }, by decide +kernel⟩
  · exact ⟨{ beat := 5, relative := false, value := 0, asker := none, committed := true }, { up with time.rebase := some { beat := 5, relative := false, value := 0, asker := none, committed := true } }, by decide +kernel⟩
  · exact ⟨{ up with power.mode := .dormant }, by decide +kernel⟩
  · exact ⟨16, { up with time.servo := .holdover, time.cause := .step }, by decide +kernel⟩
  · exact ⟨2 ^ 64 - 1, 65535, up, by decide +kernel⟩
  · exact ⟨15, { up with time.triggers := Bank.modify up.time.triggers 15 (fun t => { t with armed := true, target := 2 }) }, by decide +kernel⟩
  · exact ⟨false, { up with kept.time.pps.inEnable := true }, by decide +kernel⟩
  · exact ⟨0, {}, { up with kept.time.pps.todEnable := true, time.ppsIn.unlabelled := some {} }, by decide +kernel⟩
  · exact ⟨0, { ns := 37000000000 }, _, { up with kept.time.pps.todEnable := true, kept.time.servo.src := 3, time.servo := .holdover, time.ppsIn.unlabelled := some { ns := 37000000000 } }, rfl, by decide +kernel⟩
  · exact ⟨_, { up with kept.time.pps.inEnable := true }, rfl, by decide +kernel⟩
  · exact ⟨up, by decide +kernel⟩
  · exact ⟨0, { up with time.computeBeat := some 0 }, by decide +kernel⟩
  · exact ⟨0, at' 900100 { up with time.planCommitBeat := some 0, time.computeBeat := some 0 }, by decide +kernel⟩
  · exact ⟨15, 5, 0, false, [], { up with time.triggers := Bank.modify up.time.triggers 15 (fun t => { t with pulses := [(5, 1, 0, false)] }) }, by decide +kernel⟩

theorem test_hypotheses_TimeCommandsComplete :
    -- TIME_GET
    (∃ (c : Cmd) (s : State), readyFor c s = true ∧ goodTable [] c = true) ∧
    -- TIME_SERVO_CONFIG
    (∃ (c : Cmd) (s : State), readyFor c s = true ∧ goodTable [fRange 16 1 0 3, fRange 17 1 0 23, fMask 18 2 3, fAny 20 2, fAny 22 2, fRange 24 2 1 500, fRange 26 2 1 65535, fRange 28 4 1000 100000000, fRange 32 2 10 65535, fRange 34 1 1 255, fZero 35 1] c = true ∧ (c.u 16 1 = 1 ∨ c.u 17 1 = 0)) ∧
    -- TIME_OFFSET_FEED, the Steward's source selected, in HOLDOVER with fewer than seven good measurements in a row: one more
    (∃ (c : Cmd) (s : State), readyFor c s = true ∧ goodTable [fAny 16 8, fAny 24 2, fAny 26 8, fAny 34 1, fZero 35 1, fZero 36 4] c = true ∧ s.kept.time.servo.src = 2 ∧ c.u 34 1 = s.kept.time.epoch ∧ s.ns ≤ c.u 26 8 + 2000 * 1000000 ∧ s.power.mode.serves = true ∧ s.time.servo = .holdover ∧ s.time.goodRun < 7 ∧ s.time.loadTick = none ∧ (c.i 16 8).natAbs ≤ s.kept.time.servo.stepNs * 2 ^ 16) ∧
    -- TIME_REBASE
    (∃ (c : Cmd) (s : State), readyFor c s = true ∧ goodTable [fRange 16 1 0 1, fZero 17 3, fAny 20 2, fZero 22 2, fAny 24 8] c = true ∧ s.time.rebase = none ∧ s.kept.time.servo.src ≠ 1 ∧ fitsTbc (rebaseResult (rebaseBeat s) (c.u 16 1 = 1) ((if c.u 16 1 = 1 then c.i 24 8 else (c.u 24 8 : Int)) * 2 ^ 16 + (c.u 20 2 : Int))) = true) ∧
    -- TIME_PORT_COMP
    (∃ (c : Cmd) (s : State), readyFor c s = true ∧ goodTable [fRange 16 1 8 35, fZero 17 3, fAny 20 4, fAny 24 4] c = true) ∧
    -- TIME_TSQ_READ of a queue that no stamp reached on the present tick
    (∃ (c : Cmd) (q : Tsq) (s : State), q = Map.getD s.time.tsq (c.u 16 1) {} ∧ readyFor c s = true ∧ goodTable [fRange 16 1 8 35, fRange 17 1 1 14, fMask 18 1 1, fZero 19 1] c = true ∧ tsqHeld s (c.u 16 1) = false ∧ q.tick ≠ some s.time.acc) ∧
    -- TIME_TSQ_READ on the tick of the newest stamp: the entries as they stood before it, and the stamp stays behind them
    (∃ (c : Cmd) (q : Tsq) (s : State), q = Map.getD s.time.tsq (c.u 16 1) {} ∧ readyFor c s = true ∧ goodTable [fRange 16 1 8 35, fRange 17 1 1 14, fMask 18 1 1, fZero 19 1] c = true ∧ tsqHeld s (c.u 16 1) = false ∧ q.tick = some s.time.acc ∧ q.spilt = [] ∧ q.entries.length ≤ c.u 17 1 ∧ q.fresh = 1) ∧
    -- TIME_TRIG_ARM, one-shot
    (∃ (c : Cmd) (s : State), readyFor c s = true ∧ goodTable [fRange 16 1 0 15, fRange 17 1 0 7, fAny 18 2, fMask 20 2 3, fZero 22 2, fAny 24 8, fRange 32 4 0 4000000000, fAny 36 4, fAny 40 4] c = true ∧ trigArgOk (c.u 17 1) (c.u 18 2) = true ∧ (c.u 32 4 = 0 ∨ (10000 ≤ c.u 32 4 ∧ c.u 32 4 % 2 = 0)) ∧ ((c.u 17 1 = 1 ∨ c.u 17 1 = 7) → 20 ≤ c.u 40 4 ∧ (c.u 32 4 = 0 ∨ c.u 40 4 + 20 ≤ c.u 32 4)) ∧ ¬ (c.u 16 1 = 15 ∧ s.next.time.pps.outEnable = true) ∧ (s.trig (c.u 16 1)).armed = false ∧ s.ns + 50000 ≤ c.u 24 8) ∧
    -- TIME_TRIG_CANCEL of a channel of the sender whose instant has not come
    (∃ (c : Cmd) (s : State), readyFor c s = true ∧ goodTable [fRange 16 1 0 15, fZero 17 3] c = true ∧ (s.trig (c.u 16 1)).armed = true ∧ (s.trig (c.u 16 1)).party = laneOwner c.lane ∧ ¬ (c.u 16 1 = 15 ∧ s.kept.time.pps.outEnable = true) ∧ s.ns < (s.trig (c.u 16 1)).nextNs) ∧
    -- TIME_PPS_CONFIG, channel 15 free, PPS_OUT's already, or not asked for
    (∃ (c : Cmd) (s : State), readyFor c s = true ∧ goodTable [fMask 16 1 0xF, fRange 17 1 0 2, fZero 18 2, fAny 20 4, fRange 24 4 1000 900000000, fSigned 28 4 (-500000) 500000, fAny 32 4] c = true ∧ (c.flag 16 1 2 = false ∨ (s.trig 15).armed = false ∨ (s.trig 15).party = 45 ∨ s.next.time.pps.outEnable = true)) ∧
    -- TIME_COUNTERS, SELECT 0
    (∃ (c : Cmd) (s : State), readyFor c s = true ∧ goodTable [fRange 16 1 0 1, fMask 17 1 1, fZero 18 2] c = true ∧ c.u 16 1 = 0) ∧
    -- TIME_SAFE_CLEAR
    (∃ (c : Cmd) (s : State), readyFor c s = true ∧ goodTable [fRange 16 1 0 47, fZero 17 3] c = true) := by
  and_intros
  · exact ⟨nop, ready, by decide +kernel⟩
  · exact ⟨cmd [(1, 0), (1, 0), (2, 0), (2, 0), (2, 0), (2, 1), (2, 1), (4, 1000), (2, 10), (1, 1), (1, 0)], ready, by decide +kernel⟩
  · exact ⟨cmd [(8, 0), (2, 0), (8, 0), (1, 0), (1, 0), (4, 0)], { ready with kept.time.servo.src := 2, time.servo := .holdover }, by decide +kernel⟩
  · exact ⟨cmd [(1, 0), (3, 0), (2, 0), (2, 0), (8, 0)], ready, by decide +kernel⟩
  · exact ⟨cmd [(1, 8), (3, 0), (4, 0), (4, 0)], ready, by decide +kernel⟩
  · exact ⟨cmd [(1, 8), (1, 1), (1, 0), (1, 0)], _, ready, rfl, by decide +kernel⟩
  · exact ⟨cmd [(1, 8), (1, 1), (1, 0), (1, 0)], _, { ready with time.tsq := [(8, { entries := [{ stamp := {} }], tick := some 0, fresh := 1 })] }, rfl, by decide +kernel⟩
  · exact ⟨cmd [(1, 0), (1, 0), (2, 0), (2, 0), (2, 0), (8, 50000), (4, 0), (4, 0), (4, 0)], ready, by decide +kernel⟩
  · exact ⟨cmd [(1, 0), (3, 0)], { ready with time.triggers := Bank.modify ready.time.triggers 0 (fun t => { t with armed := true, party := laneOwner 0, nextNs := 1 }) }, by decide +kernel⟩
  · exact ⟨cmd [(1, 0), (1, 0), (2, 0), (4, 0), (4, 1000), (4, 0), (4, 0)], ready, by decide +kernel⟩
  · exact ⟨cmd [(1, 0), (1, 0), (2, 0)], ready, by decide +kernel⟩
  · exact ⟨cmd [(1, 0), (3, 0)], ready, by decide +kernel⟩

theorem test_hypotheses_LaneRegistersTakeEffect :
    -- DOORBELL of one FREE slot of a claimed lane while the Steward is restarting: BUSY, held, the lease renewed
    (∃ (n k : Nat) (ring : BitVec 16) (s : State), alive s = true ∧ n < 2 ∧ windowUp s = true ∧ s.stw.state = .restarting ∧ s.power.entry = none ∧ bitsSet 16 ring.toNat = [k] ∧ (s.lane n).claimed = true ∧ (s.slot n k).phase = .free) ∧
    -- MBX_DONE_WRITE of one slot in DONE
    (∃ (n k : Nat) (done : BitVec 16) (s : State), alive s = true ∧ n < 2 ∧ windowUp s = true ∧ bitsSet 16 done.toNat = [k] ∧ (s.lane n).claimed = true ∧ (s.slot n k).phase = .done) ∧
    -- LANE_CLAIM of an unclaimed lane
    (∃ (n nonce : Nat) (s : State), alive s = true ∧ n < 2 ∧ windowUp s = true ∧ 0 < nonce ∧ nonce < 65536 ∧ (s.lane n).claimed = false) ∧
    -- HARD_CLAIM of a claimed lane whose watchdog has not expired: counted
    (∃ (n nonce : Nat) (s : State), alive s = true ∧ n < 2 ∧ windowUp s = true ∧ 0 < nonce ∧ nonce < 65536 ∧ (s.lane n).claimed = true ∧ (s.lane n).wdogExpired = false) ∧
    -- HARD_CLAIM of an unclaimed lane: claimed
    (∃ (n nonce : Nat) (s : State), alive s = true ∧ n < 2 ∧ windowUp s = true ∧ 0 < nonce ∧ nonce < 65536 ∧ (s.lane n).claimed = false) ∧
    -- LANE_RELEASE_WRITE by the holder of a lane without open commands and waiting doorbells: that lane alone is as new, and SYS_LANE_RELEASED is raised
    (∃ (n nonce : Nat) (s : State), alive s = true ∧ n < 2 ∧ windowUp s = true ∧ nonce < 65536 ∧ (s.lane n).claimed = true ∧ (s.lane n).nonce = nonce ∧ s.stw.jobs.filter (fun j => j.lane = n) = [] ∧ (s.lane n).order = []) ∧
    -- LEASE_RENEW
    (∃ (n : Nat) (s : State), alive s = true ∧ n < 2 ∧ windowUp s = true ∧ (s.lane n).claimed = true) ∧
    -- EVR_RD_WRITE within what is unread
    (∃ (n i : Nat) (s : State), alive s = true ∧ n < 2 ∧ windowUp s = true ∧ (s.lane n).claimed = true ∧ (i % 1024 + 1024 - (s.lane n).rdIdx) % 1024 ≤ ((s.lane n).wrIdx + 1024 - (s.lane n).rdIdx) % 1024) ∧
    -- MBX_ERR_READ
    (∃ (n : Nat) (s : State), alive s = true ∧ n < 4 ∧ windowUp s = true) ∧
    -- EVR_LOST_READ
    (∃ (n : Nat) (s : State), alive s = true ∧ n < 4 ∧ windowUp s = true) ∧
    -- SYS_RESET_WARM with no change to save
    (∃ (s : State), alive s = true ∧ windowUp s = true ∧ s.stw.warmReq = none ∧ s.stw.changePending = false) ∧
    -- SYS_RESET_RECOVERY with no change to save
    (∃ (s : State), alive s = true ∧ windowUp s = true ∧ s.stw.warmReq = none ∧ s.stw.changePending = false) ∧
    -- SYS_RESET_RESTART
    (∃ (s : State), alive s = true ∧ windowUp s = true ∧ s.stw.restartReq = none) ∧
    -- REGISTER_WRITE of SYS_SCRATCH, by any transport
    (∃ (via : Nat) (value : BitVec 32) (s : State), alive s = true ∧ windowUp s = true) ∧
    -- REGISTER_WRITE of INT_STATUS by PCIe or SPI: W1C of the sticky bits that software clears
    (∃ (via : Nat) (value : BitVec 32) (s : State), alive s = true ∧ windowUp s = true ∧ via < 2) ∧
    -- REGISTER_WRITE by the sideband outside the SYS_, TB_ and PWR_ blocks: nothing
    (∃ (off : Nat) (value : BitVec 32) (s : State), alive s = true ∧ windowUp s = true ∧ 0x100 ≤ off ∧ off < 0x400) ∧
    -- a read of an offset that no register stands at returns 0
    (∃ (via off : Nat) (s : State), readableOffsets.contains off = false) ∧
    -- a read by the sideband outside the SYS_, TB_ and PWR_ blocks returns 0
    (∃ (off : Nat) (s : State), 0x100 ≤ off ∧ off < 0x400) ∧
    -- reads of a lane's registers by PCIe or SPI
    (∃ (via n : Nat) (s : State), windowUp s = true ∧ via < 2 ∧ n < 4) ∧
    -- reads of the SYS_, TB_ and PWR_ blocks by any transport
    (∃ (via : Nat) (s : State), windowUp s = true) := by
  and_intros
  · exact ⟨0, 15, 0x8000, { ready with stw.state := .restarting }, by decide +kernel⟩
  · exact ⟨0, 15, 0x8000, updLane 0 (fun l => { l with slots := Bank.modify l.slots 15 (fun x => { x with phase := .done }) }) ready, by decide +kernel⟩
  · exact ⟨1, 65535, up, by decide +kernel⟩
  · exact ⟨0, 65535, ready, by decide +kernel⟩
  · exact ⟨1, 1, up, by decide +kernel⟩
  · exact ⟨0, 0, ready, by decide +kernel⟩
  · exact ⟨0, ready, by decide +kernel⟩
  · exact ⟨0, 0, ready, by decide +kernel⟩
  · exact ⟨3, up, by decide +kernel⟩
  · exact ⟨3, up, by decide +kernel⟩
  · exact ⟨up, by decide +kernel⟩
  · exact ⟨up, by decide +kernel⟩
  · exact ⟨up, by decide +kernel⟩
  · exact ⟨2, 1, up, by decide +kernel⟩
  · exact ⟨1, 1, up, by decide +kernel⟩
  · exact ⟨0x3FF, 1, up, by decide +kernel⟩
  · exact ⟨0, 0x01C, up, by decide +kernel⟩
  · exact ⟨0x100, up, by decide +kernel⟩
  · exact ⟨1, 3, up, by decide +kernel⟩
  · exact ⟨0, up, by decide +kernel⟩

theorem test_hypotheses_InBandFramesTakeEffect :
    -- INBAND_RENEWAL on lane 3, open and claimed
    (∃ (f : InbandFrame) (s : State), alive s = true ∧ f.lane = 3 ∧ f.tagOk = true ∧ s.kept.stw.lane3Open = true ∧ (s.lane 3).claimed = true) ∧
    -- INBAND_RENEWAL on lane 2 whose conditions fail: counted
    (∃ (f : InbandFrame) (s : State), alive s = true ∧ f.lane = 2 ∧ f.tagOk = false) ∧
    -- INBAND_DONE on lane 3: the slot is FREE
    (∃ (f : InbandFrame) (s : State), alive s = true ∧ f.lane = 3 ∧ f.slot < 16 ∧ f.tagOk = true ∧ s.kept.stw.lane3Open = true ∧ (s.lane 3).claimed = true ∧ (s.slot 3 f.slot).phase = .done) ∧
    -- INBAND_CLAIM on lane 2 with a sequence number ahead of the last: judged and answered
    (∃ (f : InbandFrame) (nonce : Nat) (s : State), alive s = true ∧ f.lane = 2 ∧ f.tagOk = true ∧ f.toMgmtMac = true ∧ f.vlan = some s.kept.stw.mgmtVlan ∧ s.kept.boot.lane2Key.isSome = true ∧ f.body = le 2 nonce ++ [0] ∧ 0 < nonce ∧ nonce < 65536 ∧ (s.lane 2).claimed = false ∧ s.kept.stw.claimSeq < f.seq ∧ f.seq < 2 ^ 31) ∧
    -- INBAND_BULK_WRITE on lane 3 of one byte
    (∃ (f : InbandFrame) (b : Byte) (s : State), alive s = true ∧ f.lane = 3 ∧ f.tagOk = true ∧ s.kept.stw.lane3Open = true ∧ (s.lane 3).claimed = true ∧ f.body = [4, 0, 0, 0, b]) ∧
    -- INBAND_BULK_READ on lane 3: the bytes of the window that have been written, free bytes elsewhere
    (∃ (f : InbandFrame) (off len : Nat) (s : State), alive s = true ∧ f.lane = 3 ∧ f.tagOk = true ∧ s.kept.stw.lane3Open = true ∧ (s.lane 3).claimed = true ∧ f.body = le 4 off ++ le 4 len ∧ off + len ≤ 65536) ∧
    -- INBAND_RELEASE on lane 3 of a lane without open commands and waiting doorbells
    (∃ (f : InbandFrame) (s : State), alive s = true ∧ f.lane = 3 ∧ f.tagOk = true ∧ s.kept.stw.lane3Open = true ∧ (s.lane 3).claimed = true ∧ s.stw.jobs.filter (fun j => j.lane = 3) = [] ∧ (s.lane 3).order = []) ∧
    -- INBAND_RELEASE on lane 3 with one doorbell that waits: its command is answered ABANDONED with DETAIL LANE_RELEASED
    (∃ (f : InbandFrame) (k : Nat) (s : State), alive s = true ∧ f.lane = 3 ∧ f.tagOk = true ∧ s.kept.stw.lane3Open = true ∧ (s.lane 3).claimed = true ∧ s.stw.jobs = [] ∧ (s.lane 3).order = [k]) ∧
    -- INBAND_COMMAND on lane 3 while the Steward is restarting: the slot holds the command and is BUSY
    (∃ (f : InbandFrame) (s : State), alive s = true ∧ f.lane = 3 ∧ f.slot < 16 ∧ f.tagOk = true ∧ windowUp s = true ∧ s.kept.stw.lane3Open = true ∧ s.stw.state = .restarting ∧ s.power.entry = none ∧ (s.lane 3).claimed = true ∧ (s.slot 3 f.slot).phase = .free) := by
  and_intros
  · exact ⟨{ lane := 3 }, { claim 3 up with kept.stw.lane3Open := true }, by decide +kernel⟩
  · exact ⟨{ lane := 2, tagOk := false }, up, by decide +kernel⟩
  · exact ⟨{ lane := 3, slot := 15 }, updLane 3 (fun l => { l with slots := Bank.modify l.slots 15 (fun x => { x with phase := .done }) }) { claim 3 up with kept.stw.lane3Open := true }, by decide +kernel⟩
  · exact ⟨{ lane := 2, vlan := some 1, seq := 1, body := [255, 255, 0] }, 65535, { up with kept.boot.lane2Key := some [] }, by decide +kernel⟩
  · exact ⟨{ lane := 3, body := [4, 0, 0, 0, 7] }, 7, { claim 3 up with kept.stw.lane3Open := true }, by decide +kernel⟩
  · exact ⟨{ lane := 3, body := le 4 65532 ++ le 4 4 }, 65532, 4, { claim 3 up with kept.stw.lane3Open := true }, by decide +kernel⟩
  · exact ⟨{ lane := 3 }, { claim 3 up with kept.stw.lane3Open := true }, by decide +kernel⟩
  · exact ⟨{ lane := 3 }, 15, updLane 3 (fun l => { l with order := [15] }) { claim 3 up with kept.stw.lane3Open := true }, by decide +kernel⟩
  · exact ⟨{ lane := 3, slot := 15 }, { claim 3 up with kept.stw.lane3Open := true, stw.state := .restarting }, by decide +kernel⟩

theorem test_hypotheses_LaneTimersAndEventBatches :
    -- LEASE_EXPIRY of a lane without open commands and waiting doorbells: released with cause 1
    (∃ (n : Nat) (s : State), alive s = true ∧ n < 4 ∧ (s.lane n).claimed = true ∧ (s.lane n).leaseLeft = 0 ∧ s.stw.jobs.filter (fun j => j.lane = n) = [] ∧ (s.lane n).order = []) ∧
    -- LANE_WDOG_EXPIRY
    (∃ (n : Nat) (s : State), alive s = true ∧ n < 4 ∧ (s.lane n).claimed = true ∧ (s.lane n).wdogLeft = 0) ∧
    -- EVENT_BATCH_WRITE of one event of an earlier beat, lane 0 alone claimed, its ring not full and its area enabled
    (∃ (e : Event) (s : State), alive s = true ∧ s.stw.events = [e] ∧ e.stamp.epoch = s.kept.time.epoch ∧ s.stw.batchBeat ≤ e.stamp.ns / 1000000 ∧ e.stamp.ns / 1000000 < s.beat ∧ hasBit (s.laneCfg 0).areaEn (e.code / 256) = true ∧ e.skip ≠ 0 ∧ (s.lane 0).claimed = true ∧ (s.lane 1).claimed = false ∧ (s.lane 2).claimed = false ∧ (s.lane 3).claimed = false ∧ (s.lane 2).wrIdx = (s.lane 2).rdIdx ∧ (s.lane 3).wrIdx = (s.lane 3).rdIdx ∧ (s.lane 2).wrIdx < 1024 ∧ (s.lane 3).wrIdx < 1024 ∧ (s.lane 0).unread < 1023) ∧
    -- HEARTBEAT
    (∃ (s : State), alive s = true ∧ (s.stw.state = .ready ∨ s.stw.state = .recovery) ∧ 100 ≤ s.stw.heartBeats) := by
  and_intros
  · exact ⟨3, claim 3 up, by decide +kernel⟩
  · exact ⟨3, claim 3 up, by decide +kernel⟩
  · exact ⟨{ stamp := {}, source := 0, code := 0x0101 }, at' 1000000 { ready with stw.events := [{ stamp := {}, source := 0, code := 0x0101 }] }, by decide +kernel⟩
  · exact ⟨{ up with stw.heartBeats := 100 }, by decide +kernel⟩

theorem test_hypotheses_SystemCommandsComplete :
    -- SYS_GET_INFO
    (∃ (c : Cmd) (s : State), readyFor c s = true ∧ goodTable [] c = true) ∧
    -- SYS_NOP: the 16 bytes come back
    (∃ (c : Cmd) (s : State), readyFor c s = true ∧ goodTable [fAny 16 16] c = true) ∧
    -- SYS_CANCEL of its own slot or of a FREE one: BAD_ARG
    (∃ (c : Cmd) (s : State), readyFor c s = true ∧ goodTable [fRange 16 1 0 15, fZero 17 3] c = true ∧ (c.u 16 1 = c.slot ∨ (s.slot c.lane (c.u 16 1)).phase = .free)) ∧
    -- SYS_CANCEL of a slot that is DONE: TOO_LATE, nothing else
    (∃ (c : Cmd) (s : State), readyFor c s = true ∧ goodTable [fRange 16 1 0 15, fZero 17 3] c = true ∧ c.u 16 1 ≠ c.slot ∧ (s.slot c.lane (c.u 16 1)).phase = .done) ∧
    -- SYS_CANCEL of an open command that has passed its point of commitment: that command goes on, and the cancel waits for its response
    (∃ (c : Cmd) (j : Job) (s : State), readyFor c s = true ∧ goodTable [fRange 16 1 0 15, fZero 17 3] c = true ∧ c.u 16 1 ≠ c.slot ∧ (s.slot c.lane (c.u 16 1)).phase = .held ∧ s.stw.jobs.find? (fun j => j.lane = c.lane ∧ j.slot = c.u 16 1) = some j ∧ undecided s j = false) ∧
    -- SYS_CANCEL of an open command before its point of commitment: what it has pending is undone, it is answered ABANDONED with DETAIL CANCELLED, the cancel OK
    (∃ (c : Cmd) (j : Job) (s : State), readyFor c s = true ∧ goodTable [fRange 16 1 0 15, fZero 17 3] c = true ∧ c.u 16 1 ≠ c.slot ∧ (s.slot c.lane (c.u 16 1)).phase = .held ∧ s.stw.jobs.find? (fun j => j.lane = c.lane ∧ j.slot = c.u 16 1) = some j ∧ undecided s j = true ∧ s.power.entry.all (fun e => decide (e.asker ≠ j.asker)) = true) ∧
    -- SYS_CANCEL of the command whose entry to Doze or Dormant runs: the entry is undone, both answers follow its end
    (∃ (c : Cmd) (j : Job) (e : Entry) (s : State), readyFor c s = true ∧ goodTable [fRange 16 1 0 15, fZero 17 3] c = true ∧ c.u 16 1 ≠ c.slot ∧ (s.slot c.lane (c.u 16 1)).phase = .held ∧ s.stw.jobs.find? (fun j => j.lane = c.lane ∧ j.slot = c.u 16 1) = some j ∧ undecided s j = true ∧ s.power.entry = some e ∧ e.asker = j.asker) ∧
    -- SYS_RESET_CMD of KIND 0 or 1 with no change to save: the warm reset is due 10 beats on
    (∃ (c : Cmd) (s : State), readyFor c s = true ∧ goodTable [fRange 16 1 0 3, fAny 17 1, fZero 18 2] c = true ∧ c.u 16 1 ≤ 1 ∧ c.u 17 1 = 0 ∧ s.stw.warmReq = none ∧ s.stw.changePending = false) ∧
    -- SYS_RESET_CMD of KIND 0 or 1 with a change to save: a flash copy first, its command open
    (∃ (c : Cmd) (s : State), readyFor c s = true ∧ goodTable [fRange 16 1 0 3, fAny 17 1, fZero 18 2] c = true ∧ c.u 16 1 ≤ 1 ∧ c.u 17 1 = 0 ∧ s.stw.warmReq = none ∧ s.stw.changePending = true) ∧
    -- SYS_RESET_CMD of KIND 0 or 1 while a warm reset is requested that waits for no copy: it joins that request (the model's choice, log entry 81)
    (∃ (c : Cmd) (w : WarmPlan) (s : State), readyFor c s = true ∧ goodTable [fRange 16 1 0 3, fAny 17 1, fZero 18 2] c = true ∧ c.u 16 1 ≤ 1 ∧ c.u 17 1 = 0 ∧ s.stw.warmReq = some w ∧ w.waitCopy = false) ∧
    -- SYS_RESET_CMD of KIND 0 or 1 while a warm reset is requested that waits for its copy: open until the copy ends (log entry 81)
    (∃ (c : Cmd) (w : WarmPlan) (s : State), readyFor c s = true ∧ goodTable [fRange 16 1 0 3, fAny 17 1, fZero 18 2] c = true ∧ c.u 16 1 ≤ 1 ∧ c.u 17 1 = 0 ∧ s.stw.warmReq = some w ∧ w.waitCopy = true) ∧
    -- SYS_RESET_CMD of KIND 2: the restart begins 1 beat after the answer
    (∃ (c : Cmd) (s : State), readyFor c s = true ∧ goodTable [fRange 16 1 0 3, fAny 17 1, fZero 18 2] c = true ∧ c.u 16 1 = 2 ∧ c.u 17 1 = 0) ∧
    -- SYS_RESET_CMD of KIND 3 of a unit that may be reset so: the reset begins, and the command stays open until the unit resumes
    (∃ (c : Cmd) (s : State), readyFor c s = true ∧ goodTable [fRange 16 1 0 3, fAny 17 1, fZero 18 2] c = true ∧ c.u 16 1 = 3 ∧ (3 ≤ c.u 17 1 ∧ c.u 17 1 ≤ 6 ∨ 8 ≤ c.u 17 1 ∧ c.u 17 1 ≤ 39 ∨ 41 ≤ c.u 17 1 ∧ c.u 17 1 ≤ 44) ∧ ¬ (c.lane < 2 ∧ c.u 17 1 = laneOwner c.lane) ∧ s.assay.disabled.contains (c.u 17 1) = false ∧ Map.has s.assay.resets (c.u 17 1) = false ∧ s.stw.jobs.all (fun j => !(decide (j.lane = c.lane) && decide (j.slot = c.slot))) = true) ∧
    -- SYS_RESET_CMD of KIND 3 of a unit whose reset is under way: it too is answered when the unit resumes
    (∃ (c : Cmd) (s : State), readyFor c s = true ∧ goodTable [fRange 16 1 0 3, fAny 17 1, fZero 18 2] c = true ∧ c.u 16 1 = 3 ∧ (3 ≤ c.u 17 1 ∧ c.u 17 1 ≤ 6 ∨ 8 ≤ c.u 17 1 ∧ c.u 17 1 ≤ 39 ∨ 41 ≤ c.u 17 1 ∧ c.u 17 1 ≤ 44) ∧ ¬ (c.lane < 2 ∧ c.u 17 1 = laneOwner c.lane) ∧ s.assay.disabled.contains (c.u 17 1) = false ∧ Map.has s.assay.resets (c.u 17 1) = true) ∧
    -- SYS_RESET_CMD of KIND 3 of a unit that may not be reset so: DENIED, or BAD_ARG where no such reset exists
    (∃ (c : Cmd) (s : State), readyFor c s = true ∧ goodTable [fRange 16 1 0 3, fAny 17 1, fZero 18 2] c = true ∧ c.u 16 1 = 3 ∧ (c.u 17 1 ≤ 2 ∨ c.u 17 1 = 40 ∨ c.lane < 2 ∧ c.u 17 1 = laneOwner c.lane ∨ c.u 17 1 = 7 ∨ 45 ≤ c.u 17 1)) ∧
    -- SYS_RESET_CMD of KIND 3 of a unit that is disabled: DENIED
    (∃ (c : Cmd) (s : State), readyFor c s = true ∧ goodTable [fRange 16 1 0 3, fAny 17 1, fZero 18 2] c = true ∧ c.u 16 1 = 3 ∧ (3 ≤ c.u 17 1 ∧ c.u 17 1 ≤ 6 ∨ 8 ≤ c.u 17 1 ∧ c.u 17 1 ≤ 39 ∨ 41 ≤ c.u 17 1 ∧ c.u 17 1 ≤ 44) ∧ ¬ (c.lane < 2 ∧ c.u 17 1 = laneOwner c.lane) ∧ s.assay.disabled.contains (c.u 17 1) = true) ∧
    -- SYS_RESET_CMD of KIND 0, 1 or 2 that names a source: BAD_ARG
    (∃ (c : Cmd) (s : State), readyFor c s = true ∧ goodTable [fRange 16 1 0 3, fAny 17 1, fZero 18 2] c = true ∧ c.u 16 1 ≤ 2 ∧ c.u 17 1 ≠ 0) ∧
    -- SYS_INGOT_SAVE with nothing to save: the present copy's values; with no copy in existence zeros (the model's choice, log entry 80)
    (∃ (c : Cmd) (s : State), readyFor c s = true ∧ goodTable [] c = true ∧ s.stw.changePending = false) ∧
    -- SYS_INGOT_SAVE with a change to save: open until the copy ends
    (∃ (c : Cmd) (s : State), readyFor c s = true ∧ goodTable [] c = true ∧ s.stw.changePending = true) ∧
    -- SYS_LANE_CONFIG of the sender's own lane, or of lane 2 or 3 by lane 0 or 1; a lease or watchdog of 0 stays as it is
    (∃ (c : Cmd) (old : LaneConfig) (lease wdog : Nat) (s : State), old = s.next.stw.lanes.getD (c.u 16 1) {} ∧ lease = (if c.u 18 2 = 0 then old.leaseBeats else c.u 18 2) ∧ wdog = (if c.u 20 2 = 0 then old.wdogBeats else c.u 20 2) ∧ readyFor c s = true ∧ goodTable [fRange 16 1 0 3, fMask 17 1 3, fAny 18 2, fAny 20 2, fMask 22 2 0x1FFE, fRange 24 2 1 1023, fAny 26 1, fZero 27 1, fAny 28 2, fZero 30 2] c = true ∧ (c.u 16 1 = c.lane ∨ c.lane < 2 ∧ 2 ≤ c.u 16 1) ∧ 100 ≤ lease ∧ 20 ≤ wdog ∧ wdog < lease ∧ (c.flag 17 1 1 = true → 1 ≤ c.u 28 2 ∧ c.u 28 2 ≤ 4094)) ∧
    -- SYS_LANE_CONFIG of such a lane with a lease, a watchdog or a VLAN outside its range: BAD_ARG with the field's offset
    (∃ (c : Cmd) (old : LaneConfig) (lease wdog : Nat) (s : State), old = s.next.stw.lanes.getD (c.u 16 1) {} ∧ lease = (if c.u 18 2 = 0 then old.leaseBeats else c.u 18 2) ∧ wdog = (if c.u 20 2 = 0 then old.wdogBeats else c.u 20 2) ∧ readyFor c s = true ∧ goodTable [fRange 16 1 0 3, fMask 17 1 3, fAny 18 2, fAny 20 2, fMask 22 2 0x1FFE, fRange 24 2 1 1023, fAny 26 1, fZero 27 1, fAny 28 2, fZero 30 2] c = true ∧ (c.u 16 1 = c.lane ∨ c.lane < 2 ∧ 2 ≤ c.u 16 1) ∧ (lease < 100 ∨ wdog < 20 ∨ lease ≤ wdog ∨ c.flag 17 1 1 = true ∧ ¬ (1 ≤ c.u 28 2 ∧ c.u 28 2 ≤ 4094))) ∧
    -- SYS_LANE_CONFIG of any other lane: DENIED
    (∃ (c : Cmd) (s : State), readyFor c s = true ∧ goodTable [fRange 16 1 0 3, fMask 17 1 3, fAny 18 2, fAny 20 2, fMask 22 2 0x1FFE, fRange 24 2 1 1023, fAny 26 1, fZero 27 1, fAny 28 2, fZero 30 2] c = true ∧ c.u 16 1 ≠ c.lane ∧ (2 ≤ c.lane ∨ c.u 16 1 < 2)) ∧
    -- SYS_COUNTERS without clearing: the counters of the lane named, this command among those accepted, and the device's; nothing changes
    (∃ (c : Cmd) (l : Lane) (s : State), l = (taken 0x0107 c s).lane (c.u 16 1) ∧ readyFor c s = true ∧ goodTable [fRange 16 1 0 3, fMask 17 1 1, fZero 18 2] c = true ∧ c.flag 17 1 0 = false) ∧
    -- SYS_COUNTERS with clearing: answered as without, and the counters of the lane named are 0, the device's as they were
    (∃ (c : Cmd) (l : Lane) (s : State), l = (taken 0x0107 c s).lane (c.u 16 1) ∧ readyFor c s = true ∧ goodTable [fRange 16 1 0 3, fMask 17 1 1, fZero 18 2] c = true ∧ c.flag 17 1 0 = true) := by
  and_intros
  · exact ⟨nop, ready, by decide +kernel⟩
  · exact ⟨cmd [(16, 0)], ready, by decide +kernel⟩
  · exact ⟨cmd [(1, 0), (3, 0)], ready, by decide +kernel⟩
  · exact ⟨cmd [(1, 15), (3, 0)], updLane 0 (fun l => { l with slots := Bank.modify l.slots 15 (fun x => { x with phase := .done }) }) ready, by decide +kernel⟩
  · exact ⟨cmd [(1, 1), (3, 0)], { id := 7, lane := 0, slot := 1, opcode := 0x0301, cmd := nop, acceptBeat := 0, committed := true }, updLane 0 (fun l => { l with slots := Bank.modify l.slots 1 (fun x => { x with phase := .held }) }) { ready with stw.jobs := [{ id := 7, lane := 0, slot := 1, opcode := 0x0301, cmd := nop, acceptBeat := 0, committed := true }] }, by decide +kernel⟩
  · exact ⟨cmd [(1, 1), (3, 0)], { id := 7, lane := 0, slot := 1, opcode := 0x0501, cmd := nop, acceptBeat := 0 }, updLane 0 (fun l => { l with slots := Bank.modify l.slots 1 (fun x => { x with phase := .held }) }) { ready with stw.jobs := [{ id := 7, lane := 0, slot := 1, opcode := 0x0501, cmd := nop, acceptBeat := 0 }] }, by decide +kernel⟩
  · exact ⟨cmd [(1, 1), (3, 0)], { id := 7, lane := 0, slot := 1, opcode := 0x0301, cmd := nop, acceptBeat := 0 }, { target := .doze, left := .lean, asker := .job 7 0, cause := 0, step := 1 }, updLane 0 (fun l => { l with slots := Bank.modify l.slots 1 (fun x => { x with phase := .held }) }) { ready with stw.jobs := [{ id := 7, lane := 0, slot := 1, opcode := 0x0301, cmd := nop, acceptBeat := 0 }], power.entry := some { target := .doze, left := .lean, asker := .job 7 0, cause := 0, step := 1 } }, by decide +kernel⟩
  · exact ⟨cmd [(1, 0), (1, 0), (2, 0)], ready, by decide +kernel⟩
  · exact ⟨cmd [(1, 0), (1, 0), (2, 0)], { ready with stw.changePending := true }, by decide +kernel⟩
  · exact ⟨cmd [(1, 1), (1, 0), (2, 0)], { due := some 5 }, { ready with stw.warmReq := some { due := some 5 } }, by decide +kernel⟩
  · exact ⟨cmd [(1, 1), (1, 0), (2, 0)], { waitCopy := true }, { ready with stw.warmReq := some { waitCopy := true } }, by decide +kernel⟩
  · exact ⟨cmd [(1, 2), (1, 0), (2, 0)], ready, by decide +kernel⟩
  · exact ⟨cmd [(1, 3), (1, 44), (2, 0)], ready, by decide +kernel⟩
  · exact ⟨cmd [(1, 3), (1, 44), (2, 0)], { ready with assay.resets := [(44, { cls := 0, startBeat := 0 })] }, by decide +kernel⟩
  · exact ⟨cmd [(1, 3), (1, 7), (2, 0)], ready, by decide +kernel⟩
  · exact ⟨cmd [(1, 3), (1, 44), (2, 0)], { ready with assay.disabled := [44] }, by decide +kernel⟩
  · exact ⟨cmd [(1, 0), (1, 1), (2, 0)], ready, by decide +kernel⟩
  · exact ⟨nop, ready, by decide +kernel⟩
  · exact ⟨nop, { ready with stw.changePending := true }, by decide +kernel⟩
  · exact ⟨cmd [(1, 0), (1, 0), (2, 100), (2, 20), (2, 2), (2, 1), (1, 0), (1, 0), (2, 0), (2, 0)], _, _, _, ready, rfl, rfl, rfl, by decide +kernel⟩
  · exact ⟨cmd [(1, 0), (1, 0), (2, 99), (2, 20), (2, 2), (2, 1), (1, 0), (1, 0), (2, 0), (2, 0)], _, _, _, ready, rfl, rfl, rfl, by decide +kernel⟩
  · exact ⟨cmd [(1, 1), (1, 0), (2, 100), (2, 20), (2, 2), (2, 1), (1, 0), (1, 0), (2, 0), (2, 0)], claim 1 ready, by decide +kernel⟩
  · exact ⟨cmd [(1, 0), (1, 0), (2, 0)], _, ready, rfl, by decide +kernel⟩
  · exact ⟨cmd [(1, 0), (1, 1), (2, 0)], _, ready, rfl, by decide +kernel⟩

theorem test_hypotheses_FieldReceptionEvents :
    -- FIELD_DETECT on an idle channel, its symbol periods within DET_COUNT, DET_THRESH and DET_FLOOR: an acquisition
    (∃ (ch : Nat) (tm p : Int) (ps : List (Nat × Int × Int)) (s : State), alive s = true ∧ channelOpen s ch = true ∧ qualifies (fcfg s) tm ps = true ∧ FieldPeriods.strength { periods := ps } = p ∧ s.rxOf ch = .idle) ∧
    -- FIELD_DETECT whose symbol periods are too few, too weak or too far apart: no detection
    (∃ (ch : Nat) (tm : Int) (ps : List (Nat × Int × Int)) (s : State), alive s = true ∧ qualifies (fcfg s) tm ps = false) ∧
    -- FIELD_DETECT of a second preamble, 3 dB stronger and more than a chip away: the acquisition starts afresh
    (∃ (ch : Nat) (tm p : Int) (ps : List (Nat × Int × Int)) (o : Preamble) (b m : Option Preamble) (s : State), alive s = true ∧ channelOpen s ch = true ∧ qualifies (fcfg s) tm ps = true ∧ FieldPeriods.strength { periods := ps } = p ∧ s.rxOf ch = .acquiring o b m ∧ 1 < (tm - o.timing).natAbs ∧ o.strength + 3 ≤ p ∧ ch < 100) ∧
    -- FIELD_DETECT of a second preamble that is not 3 dB stronger: the acquisition goes on
    (∃ (ch : Nat) (tm p : Int) (ps : List (Nat × Int × Int)) (o : Preamble) (b m : Option Preamble) (s : State), alive s = true ∧ channelOpen s ch = true ∧ qualifies (fcfg s) tm ps = true ∧ FieldPeriods.strength { periods := ps } = p ∧ s.rxOf ch = .acquiring o b m ∧ p < o.strength + 3) ∧
    -- FIELD_DETECT, CAPTURE_MARGIN stronger than the frame being received, before the symbol period of its last chip: the stronger one is acquired
    (∃ (ch : Nat) (tm p : Int) (ps : List (Nat × Int × Int)) (r : Reception) (s : State), alive s = true ∧ channelOpen s ch = true ∧ qualifies (fcfg s) tm ps = true ∧ FieldPeriods.strength { periods := ps } = p ∧ s.rxOf ch = .receiving r ∧ r.rssi + (fcfg s).captureMargin ≤ p ∧ s.time.mono + symNs ch ≤ r.fin ∧ monitored s ch = false ∧ (s.fchain (chainOf ch)).access = none ∧ ch < 100) ∧
    -- FIELD_DETECT of such a preamble in the symbol period of the last chip: the frame ends normally, acquisition starts on it then
    (∃ (ch : Nat) (tm p : Int) (ps : List (Nat × Int × Int)) (r : Reception) (s : State), alive s = true ∧ channelOpen s ch = true ∧ qualifies (fcfg s) tm ps = true ∧ FieldPeriods.strength { periods := ps } = p ∧ s.rxOf ch = .receiving r ∧ r.rssi + (fcfg s).captureMargin ≤ p ∧ r.fin < s.time.mono + symNs ch) ∧
    -- FIELD_ACQ_ABANDON, 12 symbol periods after the detection
    (∃ (ch : Nat) (p : Preamble) (b m : Option Preamble) (s : State), alive s = true ∧ s.rxOf ch = .acquiring p b m ∧ ch < 100) ∧
    -- FIELD_SFD_END in time: RSSI, CORR_Q, the stamp and its CAL_STALE are latched, the last chip is the one that the PHR gives
    (∃ (ch cq phr : Nat) (p : Preamble) (r : Int) (s : State), alive s = true ∧ s.rxOf ch = .acquiring p none none ∧ s.time.mono ≤ p.at' + 12 * symNs ch ∧ ch < 100 ∧ 4 < phr ∧ phr < 128) ∧
    -- FIELD_SFD_END in the symbol period of a restart that is too weak to capture: the SFD of the first preamble stands, the restart is not counted
    (∃ (ch cq phr : Nat) (p o : Preamble) (m : Option Preamble) (r : Int) (s : State), alive s = true ∧ s.rxOf ch = .acquiring p (some o) m ∧ s.time.mono < p.at' + symNs ch ∧ s.time.mono ≤ o.at' + 12 * symNs ch ∧ p.strength < r + (fcfg s).captureMargin ∧ ch < 100 ∧ 4 < phr ∧ phr < 128) ∧
    -- FIELD_SYNC_LOST, the mean CORR of 8 symbols below SYNC_FLOOR: the frame ends; nothing is delivered
    (∃ (ch : Nat) (cs : List Nat) (r : Reception) (s : State), alive s = true ∧ s.rxOf ch = .receiving r ∧ cs.length = 8 ∧ cs.sum < 8 * (fcfg s).syncFloor ∧ monitored s ch = false ∧ (s.fchain 0).access = none ∧ ch < 100) ∧
    -- FIELD_SYNC_LOST, their mean at SYNC_FLOOR or above: the frame goes on
    (∃ (ch : Nat) (cs : List Nat) (s : State), alive s = true ∧ 8 * (fcfg s).syncFloor ≤ cs.sum) ∧
    -- FIELD_GAIN_REDUCE
    (∃ (db : Nat) (s : State), alive s = true ∧ bandOn s 0 = true ∧ fieldUp s = true) ∧
    -- FIELD_GAIN_RAISE, by 6 dB at most, 16 µs after the last
    (∃ (db : Nat) (s : State), alive s = true ∧ bandOn s 0 = true ∧ fieldUp s = true ∧ s.field.rx.any (fun x => decide (x.1 < 100) && decide (x.2 ≠ .idle)) = false) ∧
    -- FIELD_RX_END of a frame whose check sequence fails
    (∃ (ch : Nat) (x : FieldRx) (r : Reception) (s : State), alive s = true ∧ s.rxOf ch = .receiving r ∧ overtaken s 0 = false ∧ testOpen s ch = false ∧ 4 < x.len ∧ x.phrReserved = false ∧ x.fcsOk = false ∧ x.ftype = 1 ∧ senderChild s x = none ∧ monitored s ch = false ∧ (s.fchain 0).access = none ∧ ch < 100) ∧
    -- FIELD_RX_END of a frame that passes every check, from a sender with no child record, with no acknowledgement asked for: the field ring counts it and gets its descriptor, its payload is counted, the sender's duplicate entry is the newest
    (∃ (ch : Nat) (x : FieldRx) (r : Reception) (s : State), alive s = true ∧ s.rxOf ch = .receiving r ∧ overtaken s 0 = false ∧ testOpen s ch = false ∧ rxStatus s ch x = 0 ∧ x.ftype = 1 ∧ x.secLevel = 0 ∧ x.seqSuppressed = false ∧ x.ar = false ∧ x.rdvFrom = none ∧ senderChild s x = none ∧ (s.fchain 0).access = none ∧ ch < 100) ∧
    -- FIELD_RX_END of any frame whose reception is not overtaken, an acknowledgement apart: its status is counted, once
    (∃ (ch st : Nat) (x : FieldRx) (r : Reception) (s : State), alive s = true ∧ ch ≠ 0 ∧ s.rxOf ch = .receiving r ∧ overtaken s (chainOf ch) = false ∧ rxStatus s ch x = st ∧ st ≠ 0x0D ∧ (x.ftype = 2 → st ≠ 0)) := by
  and_intros
  · exact ⟨11, 0, -106, [(140, 0, -106)], { up with kept.field.config.f24 := true, front.synths := up.front.synths.set 2 { state := .locked }, kept.field.config.detCount := 1 }, by decide +kernel⟩
  · exact ⟨11, 0, [], { up with kept.field.config.f24 := true, front.synths := up.front.synths.set 2 { state := .locked } }, by decide +kernel⟩
  · exact ⟨26, 2, -103, [(140, 2, -103)], { at' := 0, timing := 0, strength := -106 }, none, none, { up with kept.field.config.f24 := true, front.synths := up.front.synths.set 2 { state := .locked }, field.rx := [(26, .acquiring { at' := 0, timing := 0, strength := -106 } none none)], kept.field.config.detCount := 1 }, by decide +kernel⟩
  · exact ⟨26, 2, -104, [(140, 2, -104)], { at' := 0, timing := 0, strength := -106 }, none, none, { up with kept.field.config.f24 := true, front.synths := up.front.synths.set 2 { state := .locked }, field.rx := [(26, .acquiring { at' := 0, timing := 0, strength := -106 } none none)], kept.field.config.detCount := 1 }, by decide +kernel⟩
  · exact ⟨11, 0, -100, [(140, 0, -100)], { rssi := -106, corrQ := 0, at' := 0, fin := 352000 }, { up with kept.field.config.f24 := true, front.synths := up.front.synths.set 2 { state := .locked }, field.rx := [(11, .receiving { rssi := -106, corrQ := 0, at' := 0, fin := 352000 })], kept.field.config.detCount := 1 }, by decide +kernel⟩
  · exact ⟨11, 0, -100, [(140, 0, -100)], { rssi := -106, corrQ := 0, at' := 0, fin := 15999 }, { up with kept.field.config.f24 := true, front.synths := up.front.synths.set 2 { state := .locked }, field.rx := [(11, .receiving { rssi := -106, corrQ := 0, at' := 0, fin := 15999 })], kept.field.config.detCount := 1 }, by decide +kernel⟩
  · exact ⟨11, { at' := 0, timing := 0, strength := -106 }, none, none, { up with kept.field.config.f24 := true, front.synths := up.front.synths.set 2 { state := .locked }, field.rx := [(11, .acquiring { at' := 0, timing := 0, strength := -106 } none none)] }, by decide +kernel⟩
  · exact ⟨11, 0, 5, { at' := 0, timing := 0, strength := -106 }, 0, { up with kept.field.config.f24 := true, front.synths := up.front.synths.set 2 { state := .locked }, field.rx := [(11, .acquiring { at' := 0, timing := 0, strength := -106 } none none)] }, by decide +kernel⟩
  · exact ⟨11, 0, 127, { at' := 0, timing := 0, strength := -106 }, { at' := 0, timing := 0, strength := -106 }, none, -100, { up with kept.field.config.f24 := true, front.synths := up.front.synths.set 2 { state := .locked }, field.rx := [(11, .acquiring { at' := 0, timing := 0, strength := -106 } (some { at' := 0, timing := 0, strength := -106 }) none)] }, by decide +kernel⟩
  · exact ⟨11, [64, 64, 64, 64, 64, 64, 64, 63], { rssi := -106, corrQ := 0, at' := 0, fin := 352000 }, { up with kept.field.config.f24 := true, front.synths := up.front.synths.set 2 { state := .locked }, field.rx := [(11, .receiving { rssi := -106, corrQ := 0, at' := 0, fin := 352000 })] }, by decide +kernel⟩
  · exact ⟨11, [64, 64, 64, 64, 64, 64, 64, 64], up, by decide +kernel⟩
  · exact ⟨1, { up with kept.field.config.f24 := true, front.synths := up.front.synths.set 2 { state := .locked } }, by decide +kernel⟩
  · exact ⟨7, { up with kept.field.config.f24 := true, front.synths := up.front.synths.set 2 { state := .locked } }, by decide +kernel⟩
  · exact ⟨11, { fcsOk := false, dstPan := some 0xFFFF, dstShort := some 0xFFFF }, { rssi := -106, corrQ := 0, at' := 0, fin := 352000 }, { up with kept.field.config.f24 := true, front.synths := up.front.synths.set 2 { state := .locked }, field.rx := [(11, .receiving { rssi := -106, corrQ := 0, at' := 0, fin := 352000 })] }, by decide +kernel⟩
  · exact ⟨11, { dstPan := some 0xFFFF, dstShort := some 0xFFFF }, { rssi := -106, corrQ := 0, at' := 0, fin := 352000 }, { up with kept.field.config.f24 := true, front.synths := up.front.synths.set 2 { state := .locked }, field.rx := [(11, .receiving { rssi := -106, corrQ := 0, at' := 0, fin := 352000 })] }, by decide +kernel⟩
  · exact ⟨11, 1, { fcsOk := false, dstPan := some 0xFFFF, dstShort := some 0xFFFF }, { rssi := -106, corrQ := 0, at' := 0, fin := 352000 }, { up with kept.field.config.f24 := true, front.synths := up.front.synths.set 2 { state := .locked }, field.rx := [(11, .receiving { rssi := -106, corrQ := 0, at' := 0, fin := 352000 })] }, by decide +kernel⟩

theorem test_hypotheses_FieldTransmissionEvents :
    -- FIELD_ACK_SEND of an unsecured acknowledgement that answers no poll, the radio free
    (∃ (chain : Nat) (k : AckDue) (s : State), alive s = true ∧ chain < 2 ∧ (s.fchain chain).acks = [k] ∧ k.key = none ∧ k.poll = none ∧ k.at' ≤ s.time.mono ∧ s.time.acc < 2 ^ 96 ∧ fieldUp s = true ∧ s.front.tx = [] ∧ obstructed s (34 + chain) 1 = false ∧ shares24 s = false ∧ s.field.rx = []) ∧
    -- FIELD_ACK_SEND of any acknowledgement that nothing obstructs, its key, if it has one, present and not exhausted
    (∃ (chain : Nat) (k : AckDue) (rest : List AckDue) (s y : State), y = updFchain chain (fun c => { c with acks := rest }) (advanceMono k.at' s) ∧ alive s = true ∧ chain < 2 ∧ (s.fchain chain).acks = k :: rest ∧ fieldUp y = true ∧ transmitting y (34 + chain) = false ∧ obstructed y (34 + chain) 1 = false ∧ wideClash y (34 + chain) k.dur k.since = false ∧ k.key.all (fun e => (fieldKey y e).any (fun x => decide (x.txPn + 1 < 0xFFFFFFFF))) = true) ∧
    -- FIELD_TX_RELEASE on FSG: the frame of its management queue begins channel access with a back-off
    (∃ (slots : Nat) (m : FieldTx) (f : Queued) (s : State), alive s = true ∧ fieldUp s = true ∧ bandOn s 1 = true ∧ unitUp s 4 = true ∧ (s.fchain 1).access = none ∧ (s.fchain 1).test = none ∧ fieldSafe s 1 = false ∧ s.power.mode.serves = true ∧ s.power.entry = none ∧ 20000 ≤ s.phase ∧ s.phase < 950000 ∧ fieldWindowed s = false ∧ s.time.settling = false ∧ s.overrunning 35 = false ∧ s.plan.queues = [(0x3F05, { frames := [f] })] ∧ f.held = false ∧ f.payload = .field m ∧ (classSet s (classKey 26 8)).shaped = false) ∧
    -- FIELD_TX_RELEASE on the safe plan, or in Doze outside a listen beat: nothing is released
    (∃ (k slots : Nat) (s : State), alive s = true ∧ k < 2 ∧ (fieldSafe s k = true ∨ s.power.mode = .doze ∧ listenNow s = false)) ∧
    -- FIELD_BACKOFF_END: a clear-channel assessment of 8 symbol periods begins
    (∃ (chain : Nat) (a : FieldAccess) (s : State), alive s = true ∧ (s.fchain chain).access = some a ∧ a.stage = 0 ∧ mayAccess s chain a = true ∧ s.time.settling = false ∧ s.overrunning (34 + chain) = false ∧ chain < 2 ∧ a.due ≤ s.time.mono ∧ s.time.acc < 2 ^ 96 ∧ 20000 ≤ s.phase ∧ s.phase + 8 * symNs (chanKey a.item.band a.item.channel) ≤ 950000) ∧
    -- FIELD_BACKOFF_END on the safe plan, or in Doze outside a listen beat: the frame goes back to the head of its queue without a completion
    (∃ (chain : Nat) (a : FieldAccess) (f : Queued) (s : State), alive s = true ∧ chain < 2 ∧ (s.fchain chain).access = some a ∧ (s.fchain chain).parked = none ∧ a.stage = 0 ∧ a.limit = none ∧ a.queued = some f ∧ s.time.settling = false ∧ (fieldSafe s chain = true ∨ s.power.mode = .doze ∧ listenNow s = false)) ∧
    -- FIELD_CCA_END, the channel busy and a back-off left: the next back-off
    (∃ (chain slots : Nat) (e : Int) (a : FieldAccess) (s : State), alive s = true ∧ (s.fchain chain).access = some a ∧ a.stage = 1 ∧ a.limit = none ∧ mayAccess s chain a = true ∧ a.due ≤ s.time.mono ∧ s.time.acc < 2 ^ 96 ∧ ccaBusy s (chanKey a.item.band a.item.channel) e = true ∧ a.nb + 1 ≤ (fcfg s).maxBackoffs) ∧
    -- FIELD_CCA_END, the channel clear and the radio free: an unsecured frame starts
    (∃ (chain slots dur : Nat) (e : Int) (a : FieldAccess) (s : State), dur = fieldNs (chanKey a.item.band a.item.channel) a.item.len ∧ alive s = true ∧ chain < 2 ∧ (s.fchain chain).access = some a ∧ a.stage = 1 ∧ a.limit = none ∧ mayAccess s chain a = true ∧ a.due ≤ s.time.mono ∧ s.time.acc < 2 ^ 96 ∧ ccaBusy s (chanKey a.item.band a.item.channel) e = false ∧ a.item.instant = none ∧ chipWindow s (34 + chain) = true ∧ s.front.tx = [] ∧ obstructed s (34 + chain) 1 = false ∧ priorityPending s (34 + chain) = false ∧ shares24 s = false ∧ s.field.rx = [] ∧ a.item.secLevel = 0 ∧ a.queue < 0x1000) := by
  and_intros
  · exact ⟨0, { channel := 11, lastChip := 0, at' := 0, pending := false }, updFchain 0 (fun c => { c with acks := [{ channel := 11, lastChip := 0, at' := 0, pending := false }] }) { up with front.synths := up.front.synths.set 3 { state := .locked } }, by decide +kernel⟩
  · exact ⟨0, { channel := 11, lastChip := 0, at' := 0, pending := false }, [], updFchain 0 (fun c => { c with acks := [{ channel := 11, lastChip := 0, at' := 0, pending := false }] }) { up with front.synths := up.front.synths.set 3 { state := .locked } }, _, rfl, by decide +kernel⟩
  · exact ⟨0, {}, { payload := .field {}, charge := 20 }, at' 20000 { up with kept.field.config.fsg := true, plan.queues := [(0x3F05, { frames := [{ payload := .field {}, charge := 20 }] })] }, by decide +kernel⟩
  · exact ⟨0, 0, { up with time.units := [(34, { safe := true })] }, by decide +kernel⟩
  · exact ⟨0, { item := {}, queued := some { payload := .field {}, charge := 20 }, queue := 0, stage := 0 }, updFchain 0 (fun c => { c with access := some { item := {}, queued := some { payload := .field {}, charge := 20 }, queue := 0, stage := 0 } }) (at' 20000 up), by decide +kernel⟩
  · exact ⟨0, { item := {}, queued := some { payload := .field {}, charge := 20 }, queue := 0 }, { payload := .field {}, charge := 20 }, updFchain 0 (fun c => { c with access := some { item := {}, queued := some { payload := .field {}, charge := 20 }, queue := 0 } }) { up with time.units := [(34, { safe := true })] }, by decide +kernel⟩
  · exact ⟨0, 0, -82, { item := {}, queued := some { payload := .field {}, charge := 20 }, queue := 0, stage := 1 }, updFchain 0 (fun c => { c with access := some { item := {}, queued := some { payload := .field {}, charge := 20 }, queue := 0, stage := 1 } }) (at' 0 up), by decide +kernel⟩
  · exact ⟨0, 0, _, -83, { item := {}, queued := some { payload := .field {}, charge := 20 }, queue := 0, stage := 1 }, updFchain 0 (fun c => { c with access := some { item := {}, queued := some { payload := .field {}, charge := 20 }, queue := 0, stage := 1 } }) (at' 20000 { up with front.synths := up.front.synths.set 3 { state := .locked } }), rfl, by decide +kernel⟩

theorem test_hypotheses_FieldTransmissionEnds :
    -- FIELD_TX_END of a frame that asks for an acknowledgement: the wait of 54 symbol periods begins
    (∃ (chain : Nat) (x : RadioTx) (a : FieldAccess) (s : State), alive s = true ∧ chain < 2 ∧ Map.get? s.front.tx (34 + chain) = some x ∧ x.kind = 0 ∧ x.t1 ≤ s.time.mono ∧ s.time.acc < 2 ^ 96 ∧ (s.fchain chain).sendingAck = none ∧ (s.fchain chain).other = none ∧ (s.fchain chain).access = some a ∧ a.stage = 2 ∧ a.item.stamp = none ∧ a.item.ar = true) ∧
    -- FIELD_TX_END of any frame that asks for an acknowledgement, with or without a stamp: the chain is free, the wait begins
    (∃ (chain : Nat) (x : RadioTx) (a : FieldAccess) (s y : State), y = advanceMono x.t1 s ∧ alive s = true ∧ chain < 2 ∧ Map.get? s.front.tx (34 + chain) = some x ∧ x.kind ≠ 3 ∧ (s.fchain chain).sendingAck = none ∧ (s.fchain chain).other = none ∧ (s.fchain chain).access = some a ∧ a.stage = 2 ∧ a.item.ar = true) ∧
    -- FIELD_ACK_WAIT_END with a retry left and no reception going on: F24's synthesiser retunes and the next back-off begins
    (∃ (chain slots : Nat) (a : FieldAccess) (s : State), alive s = true ∧ (s.fchain chain).access = some a ∧ a.stage = 3 ∧ a.limit = none ∧ mayAccess s chain a = true ∧ a.due ≤ s.time.mono ∧ s.time.acc < 2 ^ 96 ∧ s.field.rx = [] ∧ a.retries < (fcfg s).maxRetries) ∧
    -- FIELD_ACK_WAIT_END while a retry is left, whatever other channels receive: the next back-off begins
    (∃ (chain slots : Nat) (a : FieldAccess) (s y : State), y = advanceMono a.due s ∧ alive s = true ∧ (s.fchain chain).access = some a ∧ a.stage = 3 ∧ a.taken = true ∧ (match y.rxOf (chanKey a.item.band a.item.channel) with | .receiving r => decide (a.due < r.at') || decide (r.at' ≤ a.lastChip) | _ => true) = true ∧ mayAccess y chain a = true ∧ a.retries < (fcfg s).maxRetries) ∧
    -- POLL_ANSWER_SEND of a child whose queue is empty, on a clear channel: an empty frame
    (∃ (e : Int) (slots : Nat) (p : PollAnswer) (s : State), alive s = true ∧ (s.fchain 1).answers = [p] ∧ 100 ≤ p.channel ∧ s.time.settling = false ∧ s.overrunning 35 = false ∧ (s.fchain 1).access = none ∧ fieldUp s = true ∧ p.at' - 8 * symNs p.channel ≤ s.time.mono ∧ s.time.acc < 2 ^ 96 ∧ 20000 ≤ s.phase ∧ s.phase + 8 * symNs p.channel ≤ 950000 ∧ s.plan.queues = [] ∧ s.front.tx = [] ∧ s.front.runs = [] ∧ s.kept.front.coex = [] ∧ (s.synth 4).state = .locked ∧ (fcfg s).ccaMode = 1 ∧ e < (fcfg s).ccaEd ∧ shares24 s = false ∧ s.field.rx = [] ∧ s.time.mono + 8 * symNs p.channel + 2 ≤ p.limit ∧ s.power.mode.serves = true) ∧
    -- POLL_ANSWER_SEND while the chain is taken up by a frame on the air, before the limit of the answer: it stays due
    (∃ (k slots : Nat) (e : Int) (p : PollAnswer) (l : List PollAnswer) (a : FieldAccess) (s : State), alive s = true ∧ (s.fchain k).answers = p :: l ∧ (s.fchain k).access = some a ∧ a.stage = 2 ∧ fieldUp s = true ∧ s.time.mono ≤ p.limit) ∧
    -- CHILD_FRAME_EXPIRED: the one frame of a child queue, past PERSIST_BEATS, is completed EXPIRED
    (∃ (i : Nat) (m : FieldTx) (f : Queued) (s : State), alive s = true ∧ i < 3072 ∧ s.plan.queues = [(0x2000 + i, { frames := [f] })] ∧ f.payload = .field m ∧ f.pool = 0 ∧ f.cells = none ∧ f.enqBeat + (fcfg s).persist ≤ s.beat ∧ (s.fchain 0).access = none ∧ (s.fchain 1).access = none ∧ childRec s i = none) ∧
    -- CHILD_FRAME_EXPIRED of any child queue with no frame on the air: the frames that have waited PERSIST_BEATS leave it, the others stay
    (∃ (i : Nat) (s : State), alive s = true ∧ s.field.chains.any (fun c => c.access.any (fun a => decide (a.queue = 0x2000 + i))) = false) ∧
    -- FIELD_CHILD_SILENT: a child that has not polled for four of its intervals, by the time gone by
    (∃ (i : Nat) (r : Child) (s : State), alive s = true ∧ childRec s i = some r ∧ r.pollExpect ≠ 0 ∧ r.joining = false ∧ (childRun s i).silentArmed = true ∧ 4 * r.pollExpect * 1000 ≤ pollAge s (childRun s i)) := by
  and_intros
  · exact ⟨0, { t0 := 0, t1 := 0 }, { item := {}, queued := some { payload := .field {}, charge := 20 }, queue := 0, stage := 2 }, updFchain 0 (fun c => { c with access := some { item := {}, queued := some { payload := .field {}, charge := 20 }, queue := 0, stage := 2 } }) (at' 0 { up with front.tx := [(34, { t0 := 0, t1 := 0 })] }), by decide +kernel⟩
  · exact ⟨0, { t0 := 0, t1 := 0 }, { item := {}, queued := some { payload := .field {}, charge := 20 }, queue := 0, stage := 2 }, updFchain 0 (fun c => { c with access := some { item := {}, queued := some { payload := .field {}, charge := 20 }, queue := 0, stage := 2 } }) (at' 0 { up with front.tx := [(34, { t0 := 0, t1 := 0 })] }), _, rfl, by decide +kernel⟩
  · exact ⟨0, 0, { item := {}, queued := some { payload := .field {}, charge := 20 }, queue := 0, stage := 3 }, updFchain 0 (fun c => { c with access := some { item := {}, queued := some { payload := .field {}, charge := 20 }, queue := 0, stage := 3 } }) (at' 0 up), by decide +kernel⟩
  · exact ⟨0, 0, { item := {}, queued := some { payload := .field {}, charge := 20 }, queue := 0, stage := 3 }, updFchain 0 (fun c => { c with access := some { item := {}, queued := some { payload := .field {}, charge := 20 }, queue := 0, stage := 3 } }) (at' 0 up), _, rfl, by decide +kernel⟩
  · exact ⟨-83, 0, { child := 0, channel := 101, at' := 0, limit := 10 ^ 9 }, updFchain 1 (fun c => { c with answers := [{ child := 0, channel := 101, at' := 0, limit := 10 ^ 9 }] }) (at' 20000 { up with front.synths := up.front.synths.set 4 { state := .locked }, kept.field.config.ccaMode := 1 }), by decide +kernel⟩
  · exact ⟨0, 0, 0, { child := 0, channel := 11, at' := 0, limit := 0 }, [], { item := {}, queued := some { payload := .field {}, charge := 20 }, queue := 0, stage := 2 }, updFchain 0 (fun c => { c with access := some { item := {}, queued := some { payload := .field {}, charge := 20 }, queue := 0, stage := 2 }, answers := [{ child := 0, channel := 11, at' := 0, limit := 0 }] }) up, by decide +kernel⟩
  · exact ⟨3071, {}, { payload := .field {}, charge := 20 }, at' 60000000000 { up with plan.queues := [(0x2000 + 3071, { frames := [{ payload := .field {}, charge := 20 }] })] }, by decide +kernel⟩
  · exact ⟨3071, at' 60000000000 { up with plan.queues := [(0x2000 + 3071, { frames := [{ payload := .field {}, charge := 20 }] })] }, by decide +kernel⟩
  · exact ⟨3071, { pollExpect := 1 }, at' 4000000000 { up with kept.field.children := [(3071, { pollExpect := 1 })] }, by decide +kernel⟩

theorem test_hypotheses_FieldRendezvousEvents :
    -- FIELD_RDV_SEND by a sender on FSG whose instant has come, the radio free
    (∃ (r len : Nat) (g : Rdv) (s : State), alive s = true ∧ Map.get? s.kept.field.rdv r = some g ∧ g.enable = true ∧ g.listen = false ∧ g.band = 1 ∧ (rdvRun s r).suspended = false ∧ fieldUp s = true ∧ bandOn s 1 = true ∧ s.time.acc = rdvInstant g s.ns * 2 ^ 32 ∧ s.time.acc < 2 ^ 96 ∧ s.front.tx = [] ∧ obstructed s 35 1 = false ∧ shares24 s = false ∧ chipWindow s 35 = true ∧ 5 ≤ len ∧ len ≤ 127 ∧ s.field.rx = []) ∧
    -- FIELD_RDV_SEND by any sender at its instant, nothing obstructing the chain
    (∃ (r len : Nat) (g : Rdv) (s y : State) (ch : Nat), y = advanceTo (rdvInstant g s.ns) s ∧ ch = chanKey g.band g.channel ∧ alive s = true ∧ Map.get? s.kept.field.rdv r = some g ∧ g.enable = true ∧ g.listen = false ∧ g.band < 2 ∧ (rdvRun s r).suspended = false ∧ fieldUp s = true ∧ bandOn s g.band = true ∧ 5 ≤ len ∧ len ≤ 127 ∧ chipWindow y (34 + g.band) = true ∧ transmitting y (34 + g.band) = false ∧ obstructed y (34 + g.band) 1 = false ∧ wideClash y (34 + g.band) (fieldNs ch len) 0 = false) ∧
    -- RENDEZVOUS_WINDOW_START of a listener on F24, its guard within 40 % of the period: the window lasts until 10 symbols after the guard
    (∃ (r : Nat) (g : Rdv) (s : State), alive s = true ∧ Map.get? s.kept.field.rdv r = some g ∧ g.enable = true ∧ g.listen = true ∧ g.band = 0 ∧ (rdvRun s r).suspended = false ∧ (rdvRun s r).window = none ∧ (rdvRun s r).continuous = none ∧ fieldUp s = true ∧ bandOn s 0 = true ∧ (s.synth 2).state = .locked ∧ rdvGuard s g (rdvRun s r) * 10 ≤ 4 * g.period * 1000000) ∧
    -- RENDEZVOUS_WINDOW_START of any listener, on either band, whatever its guard: the window opens
    (∃ (r : Nat) (g : Rdv) (s : State), alive s = true ∧ Map.get? s.kept.field.rdv r = some g ∧ g.enable = true ∧ g.listen = true ∧ (rdvRun s r).suspended = false ∧ (rdvRun s r).window = none ∧ (rdvRun s r).continuous = none ∧ fieldUp s = true ∧ bandOn s g.band = true) ∧
    -- FIELD_RDV_MISSED: the window has ended without the partner; continuous listening for twice the guard and a period, in whole beats
    (∃ (r w : Nat) (g : Rdv) (s : State), alive s = true ∧ Map.get? s.kept.field.rdv r = some g ∧ (rdvRun s r).window = some w ∧ (rdvRun s r).heard = false ∧ s.field.rx = [] ∧ w ≤ s.time.mono ∧ s.time.acc < 2 ^ 96) ∧
    -- FIELD_RDV_LOST: continuous listening has ended without the partner; the rendezvous is suspended while the servo is not LOCKED
    (∃ (r b : Nat) (g : Rdv) (s : State), alive s = true ∧ Map.get? s.kept.field.rdv r = some g ∧ (rdvRun s r).continuous = some b ∧ s.time.servo ≠ .locked ∧ b ≤ s.time.mono ∧ s.time.acc < 2 ^ 96) ∧
    -- FIELD_TEST_END of a receive test
    (∃ (chain k p b : Nat) (s : State), alive s = true ∧ (s.fchain chain).test = some (3, k, p, b) ∧ b ≠ 0 ∧ b * 1000000 * 2 ^ 32 ≤ s.time.acc ∧ s.time.acc < 2 ^ 96 ∧ s.front.tx = []) := by
  and_intros
  · exact ⟨0, 20, { enable := true, band := 1 }, at' 20000 { up with front.synths := up.front.synths.set 4 { state := .locked }, kept.field.rdv := [(0, { enable := true, band := 1 })], kept.field.config.fsg := true }, by decide +kernel⟩
  · exact ⟨0, 20, { enable := true, band := 1 }, at' 20000 { up with front.synths := up.front.synths.set 4 { state := .locked }, kept.field.rdv := [(0, { enable := true, band := 1 })], kept.field.config.fsg := true }, _, _, rfl, rfl, by decide +kernel⟩
  · exact ⟨0, { enable := true, listen := true }, { up with kept.field.config.f24 := true, front.synths := up.front.synths.set 2 { state := .locked }, kept.field.rdv := [(0, { enable := true, listen := true })] }, by decide +kernel⟩
  · exact ⟨0, { enable := true, listen := true }, { up with kept.field.config.f24 := true, front.synths := up.front.synths.set 2 { state := .locked }, kept.field.rdv := [(0, { enable := true, listen := true })] }, by decide +kernel⟩
  · exact ⟨0, 0, {}, { up with kept.field.rdv := [(0, {})], field.rdv := [(0, { window := some 0 })] }, by decide +kernel⟩
  · exact ⟨0, 0, {}, { up with kept.field.rdv := [(0, {})], field.rdv := [(0, { continuous := some 0 })] }, by decide +kernel⟩
  · exact ⟨1, 1, 0, 1, updFchain 1 (fun c => { c with test := some (3, 1, 0, 1) }) (at' 1000000 up), by decide +kernel⟩

theorem test_hypotheses_FieldCommandsComplete :
    -- FIELD_CONFIG, its fields within the limits of Table 3-17
    (∃ (c : Cmd) (s : State), readyFor c s = true ∧ goodTable [fMask 16 1 3, fRange 17 1 0 10, fAny 18 2, fAny 20 2, fAny 22 2, fAny 24 2, fSigned 26 1 (-40) 20, fSigned 27 1 (-40) 20, fMask 28 1 7, fSigned 29 1 (-100) (-50), fRange 30 1 64 240, fRange 31 1 1 4, fSigned 32 1 (-110) (-70), fRange 33 1 3 15, fRange 34 1 16 200, fAny 35 1, fRange 36 1 0 5, fRange 37 1 0 7, fRange 38 1 0 7, fMask 39 1 3, fRange 40 2 100 65535, fRange 42 2 192 2000, fRange 44 4 1000 1000000, fRange 48 2 16 4096, fAny 50 2, fZero 52 4] c = true ∧ bitsOf (c.u 28 1) 1 0 ≠ 0 ∧ bitsOf (c.u 35 1) 3 0 ≤ 7 ∧ 3 ≤ bitsOf (c.u 35 1) 7 4 ∧ bitsOf (c.u 35 1) 7 4 ≤ 8 ∧ c.u 50 2 ≠ 0 ∧ c.u 50 2 ≤ c.u 48 2) ∧
    -- FIELD_CHILD_SET of a record whose addresses no other record has, its counters not loaded
    (∃ (c : Cmd) (s : State), readyFor c s = true ∧ goodTable [fRange 16 2 0 3071, fRange 18 2 0 4095, fAny 20 8, fAny 28 2, fMask 30 1 0x9F, fMask 31 1 0x1F, fAny 32 2, fRange 34 1 0 7, fRange 35 1 1 32, fAny 36 2, fZero 38 2, fAny 40 4, fAny 44 4, fAny 48 4] c = true ∧ s.next.field.children = [] ∧ bandChanOk (c.u 30 1) = true ∧ c.u 32 2 = 0xFFFF ∧ c.flag 31 1 4 = false ∧ Map.get? s.next.wide.fieldKeys 0xFFFF = none) ∧
    -- FIELD_CHILD_SET of any record whose addresses no other record has, its counters loaded or left
    (∃ (c : Cmd) (s : State), readyFor c s = true ∧ goodTable [fRange 16 2 0 3071, fRange 18 2 0 4095, fAny 20 8, fAny 28 2, fMask 30 1 0x9F, fMask 31 1 0x1F, fAny 32 2, fRange 34 1 0 7, fRange 35 1 1 32, fAny 36 2, fZero 38 2, fAny 40 4, fAny 44 4, fAny 48 4] c = true ∧ s.next.field.children.all (fun e => decide (e.1 = c.u 16 2) || (decide (e.2.ext ≠ c.u 20 8) && (decide (c.u 28 2 = 0xFFFE) || decide (e.2.short ≠ c.u 28 2)))) = true ∧ bandChanOk (c.u 30 1) = true ∧ (c.u 32 2 ≤ 4095 ∨ c.u 32 2 = 0xFFFF)) ∧
    -- FIELD_CHILD_DEL
    (∃ (c : Cmd) (s : State), readyFor c s = true ∧ goodTable [fRange 16 2 0 3071, fZero 18 2] c = true ∧ Map.has s.next.field.children (c.u 16 2) = true) ∧
    -- FIELD_CHILD_GET of a record without a key
    (∃ (c : Cmd) (r : Child) (s : State), readyFor c s = true ∧ goodTable [fRange 16 2 0 3071, fZero 18 2] c = true ∧ childRec s (c.u 16 2) = some r ∧ fieldKey s r.keyIdx = none) ∧
    -- FIELD_RDV_SET on F24
    (∃ (c : Cmd) (s : State), readyFor c s = true ∧ goodTable [fRange 16 1 0 7, fMask 17 1 7, fRange 18 2 0 255, fAny 20 1, fZero 21 1, fRange 22 2 100 65535, fAny 24 2, fRange 26 2 20 900, fRange 28 2 50 5000, fZero 30 2] c = true ∧ c.flag 17 1 2 = false ∧ 11 ≤ c.u 20 1 ∧ c.u 20 1 ≤ 26 ∧ c.u 24 2 < c.u 22 2) ∧
    -- FIELD_ORPHAN_PLAN that is only stored
    (∃ (c : Cmd) (s : State), readyFor c s = true ∧ goodTable [fMask 16 1 3, fZero 17 1, fAny 18 2, fAny 20 76] c = true ∧ badPlan c = none ∧ c.flag 16 1 0 = false ∧ c.flag 16 1 1 = false) ∧
    -- FIELD_ORPHAN_PLAN that is not a good plan
    (∃ (c : Cmd) (s : State), readyFor c s = true ∧ goodTable [fMask 16 1 3, fZero 17 1, fAny 18 2, fAny 20 76] c = true ∧ badPlan c = some 28 ∧ c.flag 16 1 1 = false) ∧
    -- FIELD_TEST on a disabled F24, MODE 3: the receiver listens, its synthesisers relock
    (∃ (c : Cmd) (s : State), readyFor c s = true ∧ goodTable [fRange 16 1 0 3, fRange 17 1 0 1, fAny 18 1, fSigned 19 1 (-40) 20, fAny 20 4] c = true ∧ c.u 16 1 = 3 ∧ c.u 17 1 = 0 ∧ 11 ≤ c.u 18 1 ∧ c.u 18 1 ≤ 26 ∧ bandOn s 0 = false ∧ s.next.field.config.f24 = false ∧ (s.fchain 0).test = none ∧ c.u 20 4 = 0) ∧
    -- FIELD_TEST on an enabled band: DENIED
    (∃ (c : Cmd) (s : State), readyFor c s = true ∧ goodTable [fRange 16 1 0 3, fRange 17 1 0 1, fAny 18 1, fSigned 19 1 (-40) 20, fAny 20 4] c = true ∧ c.u 17 1 = 0 ∧ 11 ≤ c.u 18 1 ∧ c.u 18 1 ≤ 26 ∧ bandOn s 0 = true) ∧
    -- FIELD_COUNTERS of a band or channel, clearing nothing
    (∃ (c : Cmd) (s : State), readyFor c s = true ∧ goodTable [fRange 16 1 0 18, fMask 17 1 3, fAny 18 2, fMask 20 1 7, fZero 21 3] c = true ∧ c.u 16 1 ≤ 1 ∧ c.u 17 1 = 0) ∧
    -- FIELD_COUNTERS of a channel, clearing its counters and all sticky bits
    (∃ (c : Cmd) (s : State), readyFor c s = true ∧ goodTable [fRange 16 1 0 18, fMask 17 1 3, fAny 18 2, fMask 20 1 7, fZero 21 3] c = true ∧ c.u 16 1 = 6 ∧ c.u 17 1 = 3 ∧ c.u 20 1 = 7) := by
  and_intros
  · exact ⟨cmd [(1, 0), (1, 0), (2, 0), (2, 0), (2, 0), (2, 0), (1, 0), (1, 0), (1, 3), (1, 156), (1, 64), (1, 1), (1, 146), (1, 3), (1, 16), (1, 83), (1, 0), (1, 0), (1, 0), (1, 0), (2, 100), (2, 192), (4, 1000), (2, 16), (2, 1), (4, 0)], ready, by decide +kernel⟩
  · exact ⟨cmd [(2, 0), (2, 0), (8, 0), (2, 0), (1, 11), (1, 0), (2, 65535), (1, 0), (1, 1), (2, 0), (2, 0), (4, 0), (4, 0), (4, 0)], ready, by decide +kernel⟩
  · exact ⟨cmd [(2, 0), (2, 0), (8, 0), (2, 0), (1, 11), (1, 16), (2, 0), (1, 0), (1, 1), (2, 0), (2, 0), (4, 0), (4, 0), (4, 0)], ready, by decide +kernel⟩
  · exact ⟨cmd [(2, 0), (2, 0)], { ready with next.field.children := [(0, {})] }, by decide +kernel⟩
  · exact ⟨cmd [(2, 0), (2, 0)], {}, { ready with kept.field.children := [(0, {})] }, by decide +kernel⟩
  · exact ⟨cmd [(1, 0), (1, 0), (2, 0), (1, 11), (1, 0), (2, 100), (2, 0), (2, 20), (2, 50), (2, 0)], ready, by decide +kernel⟩
  · exact ⟨cmd [(1, 0), (1, 0), (2, 0), (1, 1), (1, 1), (2, 0), (1, 2), (1, 0), (1, 0), (1, 0), (2, 10), (2, 1), (64, 0)], ready, by decide +kernel⟩
  · exact ⟨cmd [(1, 0), (1, 0), (2, 0), (1, 1), (1, 1), (2, 0), (1, 2), (1, 0), (1, 0), (1, 0), (2, 0), (2, 1), (64, 0)], ready, by decide +kernel⟩
  · exact ⟨cmd [(1, 3), (1, 0), (1, 11), (1, 0), (4, 0)], ready, by decide +kernel⟩
  · exact ⟨cmd [(1, 0), (1, 0), (1, 11), (1, 0), (4, 0)], { ready with kept.field.config.f24 := true }, by decide +kernel⟩
  · exact ⟨cmd [(1, 0), (1, 0), (2, 0), (1, 0), (3, 0)], ready, by decide +kernel⟩
  · exact ⟨cmd [(1, 6), (1, 3), (2, 0), (1, 7), (3, 0)], ready, by decide +kernel⟩

theorem test_hypotheses_WidePhyCommandsComplete :
    -- WIDE_CHAN_SET: the change is pending, due at the next commit window, or, announced by an AP, when its count of beacons has run; committed at once unless a CAC stands before it
    (∃ (c : Cmd) (g : WideChan) (s : State), g = { band := c.u 17 1, primary := c.u 18 1, width := c.u 19 1, puncture := c.u 20 2, chainMax := c.u 22 1, listenChain := c.u 23 1 } ∧ readyFor c s = true ∧ goodTable [fRange 16 1 0 1, fAny 17 1, fAny 18 1, fRange 19 1 0 5, fAny 20 2, fMask 22 1 0xF, fRange 23 1 0 3, fMask 24 1 1, fAny 25 1, fZero 26 2] c = true ∧ badChan (c.u 16 1) g (c.flag 24 1 0) (c.u 25 1) = none ∧ (radarChan g = false ∨ (powerCfg s (c.u 16 1)).regDomain ≠ 0) ∧ chanBarred s g = false ∧ (pairRule s = false ∨ (chanTargets s (1 - c.u 16 1)).all (pairOk g) = true) ∧ (s.wr (c.u 16 1)).move = none) ∧
    -- WIDE_CHAN_SET in place of a change that no command asked for (a move away from a radar, the check of a radio that opens): it gives way, its last beat and its check stay
    (∃ (c : Cmd) (g : WideChan) (m : ChanMove) (s : State), g = { band := c.u 17 1, primary := c.u 18 1, width := c.u 19 1, puncture := c.u 20 2, chainMax := c.u 22 1, listenChain := c.u 23 1 } ∧ readyFor c s = true ∧ goodTable [fRange 16 1 0 1, fAny 17 1, fAny 18 1, fRange 19 1 0 5, fAny 20 2, fMask 22 1 0xF, fRange 23 1 0 3, fMask 24 1 1, fAny 25 1, fZero 26 2] c = true ∧ badChan (c.u 16 1) g (c.flag 24 1 0) (c.u 25 1) = none ∧ (radarChan g = false ∨ (powerCfg s (c.u 16 1)).regDomain ≠ 0) ∧ chanBarred s g = false ∧ (pairRule s = false ∨ (chanTargets s (1 - c.u 16 1)).all (pairOk g) = true) ∧ (s.wr (c.u 16 1)).move = some m ∧ m.job = none ∧ (c.flag 24 1 0 && apOn s (c.u 16 1)) = false) ∧
    -- WIDE_CHAN_SET that breaks the rule of a pair of links: UNSUPPORTED
    (∃ (c : Cmd) (g : WideChan) (s : State), g = { band := c.u 17 1, primary := c.u 18 1, width := c.u 19 1, puncture := c.u 20 2, chainMax := c.u 22 1, listenChain := c.u 23 1 } ∧ readyFor c s = true ∧ goodTable [fRange 16 1 0 1, fAny 17 1, fAny 18 1, fRange 19 1 0 5, fAny 20 2, fMask 22 1 0xF, fRange 23 1 0 3, fMask 24 1 1, fAny 25 1, fZero 26 2] c = true ∧ badChan (c.u 16 1) g (c.flag 24 1 0) (c.u 25 1) = none ∧ (radarChan g = false ∨ (powerCfg s (c.u 16 1)).regDomain ≠ 0) ∧ chanBarred s g = false ∧ pairRule s = true ∧ (chanTargets s (1 - c.u 16 1)).all (pairOk g) = false) ∧
    -- WIDE_CHAN_SET while another WIDE_CHAN_SET of that radio is open: BUSY
    (∃ (c : Cmd) (g : WideChan) (s : State), g = { band := c.u 17 1, primary := c.u 18 1, width := c.u 19 1, puncture := c.u 20 2, chainMax := c.u 22 1, listenChain := c.u 23 1 } ∧ readyFor c s = true ∧ goodTable [fRange 16 1 0 1, fAny 17 1, fAny 18 1, fRange 19 1 0 5, fAny 20 2, fMask 22 1 0xF, fRange 23 1 0 3, fMask 24 1 1, fAny 25 1, fZero 26 2] c = true ∧ badChan (c.u 16 1) g (c.flag 24 1 0) (c.u 25 1) = none ∧ (radarChan g = false ∨ (powerCfg s (c.u 16 1)).regDomain ≠ 0) ∧ chanBarred s g = false ∧ (pairRule s = false ∨ (chanTargets s (1 - c.u 16 1)).all (pairOk g) = true) ∧ (s.wr (c.u 16 1)).move.any (fun m => m.job.isSome) = true) ∧
    -- WIDE_CHAN_SET of a barred channel: DENIED
    (∃ (c : Cmd) (g : WideChan) (s : State), g = { band := c.u 17 1, primary := c.u 18 1, width := c.u 19 1, puncture := c.u 20 2, chainMax := c.u 22 1, listenChain := c.u 23 1 } ∧ readyFor c s = true ∧ goodTable [fRange 16 1 0 1, fAny 17 1, fAny 18 1, fRange 19 1 0 5, fAny 20 2, fMask 22 1 0xF, fRange 23 1 0 3, fMask 24 1 1, fAny 25 1, fZero 26 2] c = true ∧ badChan (c.u 16 1) g (c.flag 24 1 0) (c.u 25 1) = none ∧ (radarChan g = false ∨ (powerCfg s (c.u 16 1)).regDomain ≠ 0) ∧ chanBarred s g = true) ∧
    -- WIDE_CHAN_SET of a channel in the radar bands without a regulatory domain: DENIED
    (∃ (c : Cmd) (g : WideChan) (s : State), g = { band := c.u 17 1, primary := c.u 18 1, width := c.u 19 1, puncture := c.u 20 2, chainMax := c.u 22 1, listenChain := c.u 23 1 } ∧ readyFor c s = true ∧ goodTable [fRange 16 1 0 1, fAny 17 1, fAny 18 1, fRange 19 1 0 5, fAny 20 2, fMask 22 1 0xF, fRange 23 1 0 3, fMask 24 1 1, fAny 25 1, fZero 26 2] c = true ∧ badChan (c.u 16 1) g (c.flag 24 1 0) (c.u 25 1) = none ∧ radarChan g = true ∧ (powerCfg s (c.u 16 1)).regDomain = 0) ∧
    -- WIDE_TXPWR_CONFIG that leaves every chain at or above −30 dBm
    (∃ (c : Cmd) (g : WidePower) (s : State), g = { closedLoop := c.flag 17 1 0, grant := c.flag 17 1 1, regDomain := c.u 18 1, maxEirp := c.i 20 2, maxPsd := c.i 22 2, antGain := c.i 24 2, femGain := [c.i 28 2, c.i 30 2, c.i 32 2, c.i 34 2], expiry := c.u 36 8 } ∧ readyFor c s = true ∧ goodTable [fRange 16 1 0 1, fMask 17 1 3, fRange 18 1 0 2, fZero 19 1, fAny 20 2, fAny 22 2, fAny 24 2, fZero 26 2, fAny 28 8, fAny 36 8, fZero 44 4] c = true ∧ powerTooLow g (chanCfg s (c.u 16 1)).chainMax = false) ∧
    -- WIDE_RX_CONFIG
    (∃ (c : Cmd) (s : State), readyFor c s = true ∧ goodTable [fRange 16 1 0 1, fRange 17 1 3 10, fRange 18 1 6 20, fMask 19 1 7, fSigned 20 1 (-92) (-72), fSigned 21 1 (-72) (-52), fSigned 22 1 (-82) (-62), fZero 23 1] c = true) ∧
    -- WIDE_MLD_PAIR of two channels 200 MHz or more apart
    (∃ (c : Cmd) (n : Nat) (s : State), readyFor c s = true ∧ goodTable [fMask 16 1 1, fZero 17 3] c = true ∧ chanGap (chanCfg s 0) (chanCfg s 1) = some n ∧ 200 ≤ n) ∧
    -- WIDE_MLD_PAIR of channels nearer than 200 MHz: UNSUPPORTED
    (∃ (c : Cmd) (s : State), readyFor c s = true ∧ goodTable [fMask 16 1 1, fZero 17 3] c = true ∧ c.flag 16 1 0 = true ∧ pairOk (chanCfg s 0) (chanCfg s 1) = false) ∧
    -- WIDE_FTM_CONFIG
    (∃ (c : Cmd) (s : State), readyFor c s = true ∧ goodTable [fRange 16 1 0 1, fMask 17 1 3, fRange 18 1 1 32, fRange 19 1 2 16, fRange 20 2 300 10000, fZero 22 2] c = true) ∧
    -- WIDE_TEST in mode 3 on a radio that carries no role: the receiver runs on the chains named until the beat named
    (∃ (c : Cmd) (s : State), readyFor c s = true ∧ goodTable [fRange 16 1 0 1, fRange 17 1 0 3, fMask 18 1 0xF, fRange 19 1 0 5, fAny 20 1, fAny 21 1, fRange 22 1 0 5, fZero 23 1, fSigned 24 2 (-120) 24, fZero 26 2, fRange 28 4 100 65535, fAny 32 4] c = true ∧ c.u 16 1 = 0 ∧ c.u 17 1 = 3 ∧ badTest 0 (chanCfg s 0) { format := c.u 19 1, mcs := c.u 20 1, nss := c.u 21 1, width := c.u 22 1 } (c.u 18 1) (c.i 24 2) = none ∧ s.kept.wide.bss = [] ∧ s.next.wide.bss = [] ∧ s.kept.wide.upstream = [] ∧ s.next.wide.upstream = [] ∧ (chanCfg s 0).band = 1 ∧ Map.get? s.front.tx 32 = none ∧ c.u 32 4 ≠ 0) ∧
    -- WIDE_TEST of a radio that carries a BSS: DENIED
    (∃ (c : Cmd) (g : Bss) (s : State), readyFor c s = true ∧ goodTable [fRange 16 1 0 1, fRange 17 1 0 3, fMask 18 1 0xF, fRange 19 1 0 5, fAny 20 1, fAny 21 1, fRange 22 1 0 5, fZero 23 1, fSigned 24 2 (-120) 24, fZero 26 2, fRange 28 4 100 65535, fAny 32 4] c = true ∧ c.u 16 1 = 0 ∧ badTest 0 (chanCfg s 0) { format := c.u 19 1, mcs := c.u 20 1, nss := c.u 21 1, width := c.u 22 1 } (c.u 18 1) (c.i 24 2) = none ∧ s.kept.wide.bss = [(0, g)] ∧ g.enable = true) ∧
    -- WIDE_PHY_COUNTERS, clearing them and two sticky bits
    (∃ (c : Cmd) (s : State), readyFor c s = true ∧ goodTable [fRange 16 1 0 1, fMask 17 1 3, fMask 18 1 7, fZero 19 1] c = true ∧ c.u 17 1 = 3 ∧ c.u 18 1 = 6) := by
  and_intros
  · exact ⟨cmd [(1, 0), (1, 1), (1, 36), (1, 0), (2, 0), (1, 1), (1, 0), (1, 0), (1, 0), (2, 0)], _, ready, rfl, by decide +kernel⟩
  · exact ⟨cmd [(1, 0), (1, 1), (1, 36), (1, 0), (2, 0), (1, 1), (1, 0), (1, 0), (1, 0), (2, 0)], _, { chan := { band := 1, primary := 36 }, job := none }, updWr 0 (fun w => { w with move := some { chan := { band := 1, primary := 36 }, job := none } }) ready, rfl, by decide +kernel⟩
  · exact ⟨cmd [(1, 0), (1, 1), (1, 36), (1, 0), (2, 0), (1, 1), (1, 0), (1, 0), (1, 0), (2, 0)], _, { ready with kept.wide.pair := true, next.wide.pair := true, kept.wide.chan := [(1, { band := 1, primary := 40 })] }, rfl, by decide +kernel⟩
  · exact ⟨cmd [(1, 0), (1, 1), (1, 36), (1, 0), (2, 0), (1, 1), (1, 0), (1, 0), (1, 0), (2, 0)], _, updWr 0 (fun w => { w with move := some { chan := { band := 1, primary := 36 }, job := some 3 } }) ready, rfl, by decide +kernel⟩
  · exact ⟨cmd [(1, 0), (1, 1), (1, 36), (1, 0), (2, 0), (1, 1), (1, 0), (1, 0), (1, 0), (2, 0)], _, { ready with kept.wide.barred := [(256 + 36, 9)] }, rfl, by decide +kernel⟩
  · exact ⟨cmd [(1, 0), (1, 1), (1, 52), (1, 0), (2, 0), (1, 1), (1, 0), (1, 0), (1, 0), (2, 0)], _, ready, rfl, by decide +kernel⟩
  · exact ⟨cmd [(1, 0), (1, 0), (1, 0), (1, 0), (2, 0), (2, 0), (2, 0), (2, 0), (8, 0), (8, 0), (4, 0)], _, ready, rfl, by decide +kernel⟩
  · exact ⟨cmd [(1, 0), (1, 3), (1, 6), (1, 0), (1, 164), (1, 184), (1, 174), (1, 0)], ready, by decide +kernel⟩
  · exact ⟨cmd [(1, 0), (3, 0)], 3523, { ready with kept.wide.chan := [(0, { band := 2, primary := 1 }), (1, { band := 0, primary := 1 })] }, by decide +kernel⟩
  · exact ⟨cmd [(1, 1), (3, 0)], ready, by decide +kernel⟩
  · exact ⟨cmd [(1, 0), (1, 0), (1, 1), (1, 2), (2, 300), (2, 0)], ready, by decide +kernel⟩
  · exact ⟨cmd [(1, 0), (1, 3), (1, 1), (1, 0), (1, 0), (1, 1), (1, 0), (1, 0), (2, 0), (2, 0), (4, 100), (4, 1)], { ready with kept.wide.chan := [(0, { band := 1, primary := 36 })] }, by decide +kernel⟩
  · exact ⟨cmd [(1, 0), (1, 0), (1, 1), (1, 0), (1, 0), (1, 1), (1, 0), (1, 0), (2, 0), (2, 0), (4, 100), (4, 0)], { enable := true }, { ready with kept.wide.chan := [(0, { band := 1, primary := 36 })], kept.wide.bss := [(0, { enable := true })] }, by decide +kernel⟩
  · exact ⟨cmd [(1, 0), (1, 3), (1, 6), (1, 0)], ready, by decide +kernel⟩

theorem test_hypotheses_WideAccessCommandsComplete :
    -- WIDE_BSS_SET of BSS 0
    (∃ (c : Cmd) (s : State), readyFor c s = true ∧ goodTable [fRange 16 1 0 1, fRange 17 1 0 7, fMask 18 2 0x1F, fAny 20 6, fRange 26 1 1 255, fRange 27 1 1 63, fRange 28 2 1 512, fRange 30 1 0 3, fZero 31 1, fAny 32 2, fRange 34 2 20 400, fRange 36 2 0 400, fZero 38 2] c = true ∧ c.u 17 1 = 0 ∧ c.u 32 2 = 0) ∧
    -- WIDE_BSS_SET that enables another BSS while BSS 0 is disabled: BAD_ARG
    (∃ (c : Cmd) (s : State), readyFor c s = true ∧ goodTable [fRange 16 1 0 1, fRange 17 1 0 7, fMask 18 2 0x1F, fAny 20 6, fRange 26 1 1 255, fRange 27 1 1 63, fRange 28 2 1 512, fRange 30 1 0 3, fZero 31 1, fAny 32 2, fRange 34 2 20 400, fRange 36 2 0 400, fZero 38 2] c = true ∧ c.u 17 1 = 3 ∧ c.flag 18 2 0 = true ∧ s.next.wide.bss = []) ∧
    -- WIDE_UPSTREAM_SET of an access point that the radio has not heard
    (∃ (c : Cmd) (s : State), readyFor c s = true ∧ goodTable [fRange 16 1 0 1, fMask 17 1 3, fAny 18 6, fAny 24 6, fRange 30 1 0 1, fAny 31 1, fRange 32 2 1 48, fZero 34 2] c = true ∧ Map.get? s.wide.heard (macAt c 24) = none) ∧
    -- WIDE_UPSTREAM_SET of an access point heard on another primary channel: BAD_ARG
    (∃ (c : Cmd) (n : Nat) (s : State), readyFor c s = true ∧ goodTable [fRange 16 1 0 1, fMask 17 1 3, fAny 18 6, fAny 24 6, fRange 30 1 0 1, fAny 31 1, fRange 32 2 1 48, fZero 34 2] c = true ∧ Map.get? s.wide.heard (macAt c 24) = some n ∧ n ≠ 256 * (chanCfg s (c.u 16 1)).band + (chanCfg s (c.u 16 1)).primary) ∧
    -- WIDE_ACCESS_CONFIG
    (∃ (c : Cmd) (s : State), readyFor c s = true ∧ goodTable [fRange 16 1 0 1, fRange 17 1 1 31, fRange 18 1 1 15, fAny 19 1, fRange 20 2 1 65535, fRange 22 2 1 65535, fRange 24 2 1 65535, fRange 26 2 1 65535, fRange 28 2 16 4096, fRange 30 2 100 65535, fRange 32 2 1 1000, fRange 34 2 50 900] c = true) ∧
    -- WIDE_CLIENT_GET of an entry
    (∃ (c : Cmd) (x : Client) (s : State), readyFor c s = true ∧ goodTable [fAny 16 2, fZero 18 2] c = true ∧ Map.get? s.wide.clients (c.u 16 2) = some x) ∧
    -- WIDE_CLIENT_GET of an entry that does not exist: BAD_ARG
    (∃ (c : Cmd) (s : State), readyFor c s = true ∧ goodTable [fAny 16 2, fZero 18 2] c = true ∧ Map.get? s.wide.clients (c.u 16 2) = none) ∧
    -- WIDE_CLIENT_DEL of a client with nothing waiting: its entry, links and agreements go at once, the deauthentication frame waits and the answer with it
    (∃ (c : Cmd) (x : Client) (s : State), poolFits s 1 (chargeOf s 0x3F02 (.eth { da := x.addr, etherType := 0, len := deauthLen }) 0).charge = true ∧ readyFor c s = true ∧ goodTable [fAny 16 2, fAny 18 2] c = true ∧ Map.get? s.wide.clients (c.u 16 2) = some x ∧ x.kind ≠ 2 ∧ x.link1 = 0xFFFF ∧ s.plan.queues = [] ∧ s.kept.plan.queues = []) ∧
    -- WIDE_CLIENT_DEL of any station, whatever waits for it: its entry is gone, the answer waits
    (∃ (c : Cmd) (x : Client) (s : State), readyFor c s = true ∧ goodTable [fAny 16 2, fAny 18 2] c = true ∧ Map.get? s.wide.clients (c.u 16 2) = some x ∧ x.kind ≠ 2) ∧
    -- WIDE_CLIENT_DEL of an entry that does not exist: BAD_ARG
    (∃ (c : Cmd) (s : State), readyFor c s = true ∧ goodTable [fAny 16 2, fAny 18 2] c = true ∧ Map.get? s.wide.clients (c.u 16 2) = none) ∧
    -- WIDE_KEY_INSTALL of a WLAN key into an entry that nobody holds: it waits for the next commit window
    (∃ (c : Cmd) (s : State), readyFor c s = true ∧ goodTable [fRange 16 2 0 4351, fRange 18 1 1 9, fAny 19 1, fMask 20 1 7, fRange 21 1 0 2, fAny 22 2, fAny 24 8, fAny 32 8, fAny 40 32] c = true ∧ c.lane < 2 ∧ badKey c = none ∧ c.u 18 1 < 9 ∧ keyEntry s (c.u 16 2) = none) ∧
    -- WIDE_KEY_INSTALL of any key into an entry that is empty or the sender's own: a field key is accepted for the next commit window, a WLAN key waits for it
    (∃ (c : Cmd) (e : KeyEntry) (s : State), e = { owner := laneOwner c.lane, cipher := c.u 18 1, keyId := c.u 19 1, txActive := c.flag 20 1 0, rxEnable := c.flag 20 1 1, setPn := c.flag 20 1 2, radio := c.u 21 1, client := c.u 22 2, txPn := if c.flag 20 1 2 then c.u 24 8 else 0, keySource := c.u 32 8, key := (c.bytesAt 40 32).take (keyBytes (c.u 18 1)) } ∧ readyFor c s = true ∧ goodTable [fRange 16 2 0 4351, fRange 18 1 1 9, fAny 19 1, fMask 20 1 7, fRange 21 1 0 2, fAny 22 2, fAny 24 8, fAny 32 8, fAny 40 32] c = true ∧ c.lane < 2 ∧ badKey c = none ∧ (keyEntry s (c.u 16 2)).all (fun x => decide (x.owner = laneOwner c.lane)) = true) ∧
    -- WIDE_KEY_INSTALL into an entry that another lane holds: DENIED, the holder's number in DETAIL
    (∃ (c : Cmd) (e : KeyEntry) (s : State), readyFor c s = true ∧ goodTable [fRange 16 2 0 4351, fRange 18 1 1 9, fAny 19 1, fMask 20 1 7, fRange 21 1 0 2, fAny 22 2, fAny 24 8, fAny 32 8, fAny 40 32] c = true ∧ c.lane < 2 ∧ badKey c = none ∧ keyEntry s (c.u 16 2) = some e ∧ e.owner ≠ laneOwner c.lane) ∧
    -- WIDE_KEY_DEL of an entry that is empty
    (∃ (c : Cmd) (s : State), readyFor c s = true ∧ goodTable [fRange 16 2 0 4351, fZero 18 2] c = true ∧ keyEntry s (c.u 16 2) = none) ∧
    -- WIDE_KEY_DEL of the sender's own WLAN entry under which nothing waits: the entry is empty, no client names it
    (∃ (c : Cmd) (e : KeyEntry) (s : State), readyFor c s = true ∧ goodTable [fRange 16 2 0 4351, fZero 18 2] c = true ∧ Map.get? s.wide.keysNext (c.u 16 2) = none ∧ Map.get? s.wide.keys (c.u 16 2) = some e ∧ e.owner = laneOwner c.lane ∧ e.cipher < 9 ∧ s.plan.queues = []) ∧
    -- WIDE_KEY_DEL of any entry of the sender's own, whatever waits under it: the entry is empty
    (∃ (c : Cmd) (e : KeyEntry) (s : State), readyFor c s = true ∧ goodTable [fRange 16 2 0 4351, fZero 18 2] c = true ∧ keyEntry s (c.u 16 2) = some e ∧ e.owner = laneOwner c.lane) ∧
    -- WIDE_KEY_INFO of a WLAN entry: never the key
    (∃ (c : Cmd) (e : KeyEntry) (s : State), readyFor c s = true ∧ goodTable [fRange 16 2 0 4351] c = true ∧ keyEntry s (c.u 16 2) = some e ∧ e.cipher < 9) ∧
    -- WIDE_TWT_SET of a broadcast schedule that is enabled
    (∃ (c : Cmd) (s : State), readyFor c s = true ∧ goodTable [fRange 16 1 0 1, fRange 17 1 0 7, fRange 18 1 0 1, fRange 19 1 1 8, fMask 20 1 7, fAny 21 1, fRange 22 2 20 900, fRange 24 2 1 65535, fAny 26 2, fRange 28 4 256 254976] c = true ∧ c.u 18 1 = 0 ∧ twtInterval (c.u 24 2) ≤ 65535 ∧ c.u 26 2 < c.u 24 2 ∧ c.u 28 4 ≤ 65280 ∧ c.u 28 4 % 256 = 0 ∧ c.flag 20 1 0 = true) ∧
    -- WIDE_NEIGHBOUR_SET of role 0
    (∃ (c : Cmd) (s : State), readyFor c s = true ∧ goodTable [fAny 16 1, fMask 17 1 3, fRange 18 1 0 2, fRange 19 1 0 1, fAny 20 6, fAny 26 2] c = true ∧ c.u 18 1 = 0 ∧ c.u 26 2 ≤ 1023) ∧
    -- WIDE_ACCESS_COUNTERS of a radio, without a clear
    (∃ (c : Cmd) (s : State), readyFor c s = true ∧ goodTable [fRange 16 1 0 1, fOneOf 17 1 ([0, 1, 2, 3, 4, 5, 6, 7, 0xFF]), fMask 18 1 3, fMask 19 1 7] c = true ∧ c.u 17 1 = 0xFF ∧ c.u 18 1 = 0) := by
  and_intros
  · exact ⟨cmd [(1, 0), (1, 0), (2, 0), (6, 0), (1, 1), (1, 1), (2, 1), (1, 0), (1, 0), (2, 0), (2, 20), (2, 0), (2, 0)], ready, by decide +kernel⟩
  · exact ⟨cmd [(1, 0), (1, 3), (2, 1), (6, 0), (1, 1), (1, 1), (2, 1), (1, 0), (1, 0), (2, 0), (2, 20), (2, 0), (2, 0)], ready, by decide +kernel⟩
  · exact ⟨cmd [(1, 0), (1, 0), (6, 0), (6, 0), (1, 0), (1, 0), (2, 1), (2, 0)], ready, by decide +kernel⟩
  · exact ⟨cmd [(1, 0), (1, 0), (6, 0), (6, 0), (1, 0), (1, 0), (2, 1), (2, 0)], 5, { ready with wide.heard := [(0, 5)] }, by decide +kernel⟩
  · exact ⟨cmd [(1, 0), (1, 1), (1, 1), (1, 0), (2, 1), (2, 1), (2, 1), (2, 1), (2, 16), (2, 100), (2, 1), (2, 50)], ready, by decide +kernel⟩
  · exact ⟨cmd [(2, 0), (2, 0)], {}, { ready with wide.clients := [(0, {})] }, by decide +kernel⟩
  · exact ⟨cmd [(2, 0), (2, 0)], ready, by decide +kernel⟩
  · exact ⟨cmd [(2, 0), (2, 0)], {}, withClient, deauth_fits, by decide +kernel⟩
  · exact ⟨cmd [(2, 0), (2, 0)], {}, { ready with wide.clients := [(0, {})] }, by decide +kernel⟩
  · exact ⟨cmd [(2, 0), (2, 0)], ready, by decide +kernel⟩
  · exact ⟨cmd [(2, 0), (1, 1), (1, 0), (1, 0), (1, 0), (2, 0), (8, 0), (8, 0), (32, 0)], ready, by decide +kernel⟩
  · exact ⟨cmd [(2, 0), (1, 1), (1, 0), (1, 0), (1, 0), (2, 0), (8, 0), (8, 0), (32, 0)], _, ready, rfl, by decide +kernel⟩
  · exact ⟨cmd [(2, 0), (1, 1), (1, 0), (1, 0), (1, 0), (2, 0), (8, 0), (8, 0), (32, 0)], { owner := 5 }, { ready with wide.keys := [(0, { owner := 5 })] }, by decide +kernel⟩
  · exact ⟨cmd [(2, 0), (2, 0)], ready, by decide +kernel⟩
  · exact ⟨cmd [(2, 0), (2, 0)], { owner := laneOwner 0 }, { ready with wide.keys := [(0, { owner := laneOwner 0 })] }, by decide +kernel⟩
  · exact ⟨cmd [(2, 0), (2, 0)], { owner := laneOwner 0 }, { ready with wide.keys := [(0, { owner := laneOwner 0 })] }, by decide +kernel⟩
  · exact ⟨cmd [(2, 0), (2, 0)], {}, { ready with wide.keys := [(0, {})] }, by decide +kernel⟩
  · exact ⟨cmd [(1, 0), (1, 0), (1, 0), (1, 1), (1, 1), (1, 0), (2, 20), (2, 1), (2, 0), (4, 256)], ready, by decide +kernel⟩
  · exact ⟨cmd [(1, 0), (1, 0), (1, 0), (1, 0), (6, 0), (2, 0)], ready, by decide +kernel⟩
  · exact ⟨cmd [(1, 0), (1, 255), (1, 0), (1, 0)], ready, by decide +kernel⟩

theorem test_hypotheses_WidePhyEventsTakeEffect :
    -- WIDE_DETECT of a preamble at the threshold or above, the receiver idle: it acquires
    (∃ (r ago : Nat) (strength : Int) (lsig : Option (Nat × Nat)) (s : State), alive s = true ∧ wideHears s r = true ∧ preambleThreshold s r false ≤ strength ∧ (s.wr r).rx = .idle) ∧
    -- WIDE_DETECT of a preamble stronger by RESTART dB, its start more than 100 ns from the one that is being acquired, before L-SIG: the acquisition starts afresh
    (∃ (r ago t0 st : Nat) (p strength : Int) (d : Bool) (ss : List (Stamp × Bool)) (lsig : Option (Nat × Nat)) (s : State), alive s = true ∧ wideHears s r = true ∧ preambleThreshold s r false ≤ strength ∧ (s.wr r).rx = .acquiring t0 p st d none ss ∧ p + (wrxCfg s r).restart ≤ strength ∧ st + 100 < s.time.mono - ago) ∧
    -- WIDE_DETECT of a preamble stronger by CAPTURE dB after L-SIG and before the end of the SIG fields: the reception ends CAPTURED, the receiver acquires the new one
    (∃ (r ago t0 st le' fin : Nat) (p strength : Int) (d : Bool) (ss : List (Stamp × Bool)) (lsig : Option (Nat × Nat)) (s : State), alive s = true ∧ wideHears s r = true ∧ preambleThreshold s r false ≤ strength ∧ (s.wr r).rx = .acquiring t0 p st d (some (le', fin)) ss ∧ le' ≤ s.time.mono ∧ (wrxCfg s r).captureEn = true ∧ (wrxCfg s r).monitor = false ∧ p + (wrxCfg s r).capture ≤ strength) ∧
    -- WIDE_DETECT of a preamble stronger by CAPTURE dB before the last symbol: the reception ends CAPTURED, the receiver acquires the new one
    (∃ (r ago e l : Nat) (p strength : Int) (st : Stamp) (stale : Bool) (lsig : Option (Nat × Nat)) (s : State), alive s = true ∧ wideHears s r = true ∧ preambleThreshold s r false ≤ strength ∧ (s.wr r).rx = .receiving p st stale false e l ∧ (wrxCfg s r).captureEn = true ∧ (wrxCfg s r).monitor = false ∧ p + (wrxCfg s r).capture ≤ strength ∧ s.time.mono < l) ∧
    -- WIDE_ACQ_ABANDON of an acquisition without an L-SIG: 24 µs after the detection it counts as a false detection
    (∃ (r t0 st : Nat) (p : Int) (ss : List (Stamp × Bool)) (s : State), alive s = true ∧ (s.wr r).rx = .acquiring t0 p st false none ss ∧ (s.wr r).chains = (s.wr r).mask) ∧
    -- WIDE_SIG_END of a PPDU that the radio receives, in a format, with options and of a width that it supports: busy for the L-SIG duration, stamped as at its detection, received to its end
    (∃ (r t0 st le' fin : Nat) (p : Int) (d : Bool) (ss : List (Stamp × Bool)) (x : SigFacts) (s : State), alive s = true ∧ (s.wr r).rx = .acquiring t0 p st d (some (le', fin)) ss ∧ le' ≤ s.time.mono ∧ x.sigOk = true ∧ phyOk s r (chanCfg s r).band false x.phy = true ∧ widthMhz x.phy.width ≤ widthMhz (operWidth s r (chanCfg s r).width) ∧ x.phy.nss ≤ chainCount (s.wr r).chains ∧ x.phy.triggered = false ∧ (wrxCfg s r).obssEn = false) ∧
    -- WIDE_SIG_END of a trigger-based PPDU that the radio's own trigger, MU-BAR or BFRP frame solicits: it cannot be captured
    (∃ (e : Exchange) (r t0 st le' fin : Nat) (p : Int) (d : Bool) (ss : List (Stamp × Bool)) (x : SigFacts) (s : State), alive s = true ∧ (s.wr r).rx = .acquiring t0 p st d (some (le', fin)) ss ∧ le' ≤ s.time.mono ∧ x.sigOk = true ∧ phyOk s r (chanCfg s r).band false x.phy = true ∧ widthMhz x.phy.width ≤ widthMhz (operWidth s r (chanCfg s r).width) ∧ x.phy.nss ≤ chainCount (s.wr r).chains ∧ x.phy.triggered = true ∧ (s.wr r).exchange = some e ∧ e.phase = 1 ∧ (e.air.kind = 5 ∨ e.air.kind = 6 ∨ e.air.kind = 7) ∧ (wrxCfg s r).obssEn = false) ∧
    -- WIDE_SIG_END, the SIG fields failing their check: SIG_ERROR is counted, the primary stays busy
    (∃ (r t0 st le' fin : Nat) (p : Int) (d : Bool) (ss : List (Stamp × Bool)) (x : SigFacts) (s : State), alive s = true ∧ (s.wr r).rx = .acquiring t0 p st d (some (le', fin)) ss ∧ le' ≤ s.time.mono ∧ x.sigOk = false ∧ (wrxCfg s r).monitor = false ∧ (s.wr r).chains = (s.wr r).mask) ∧
    -- WIDE_SIG_END of a PPDU in a format or with an option that is not supported: FORMAT_UNSUPPORTED is counted, the primary stays busy
    (∃ (r t0 st le' fin : Nat) (p : Int) (d : Bool) (ss : List (Stamp × Bool)) (x : SigFacts) (s : State), alive s = true ∧ (s.wr r).rx = .acquiring t0 p st d (some (le', fin)) ss ∧ le' ≤ s.time.mono ∧ x.sigOk = true ∧ phyOk s r (chanCfg s r).band false x.phy = false ∧ (wrxCfg s r).monitor = false ∧ (s.wr r).chains = (s.wr r).mask) ∧
    -- WIDE_SIG_END of a PPDU with more streams than chains in use: STREAMS is counted, the primary stays busy
    (∃ (r t0 st le' fin : Nat) (p : Int) (d : Bool) (ss : List (Stamp × Bool)) (x : SigFacts) (s : State), alive s = true ∧ (s.wr r).rx = .acquiring t0 p st d (some (le', fin)) ss ∧ le' ≤ s.time.mono ∧ x.sigOk = true ∧ phyOk s r (chanCfg s r).band false x.phy = true ∧ widthMhz x.phy.width ≤ widthMhz (operWidth s r (chanCfg s r).width) ∧ chainCount (s.wr r).chains < x.phy.nss ∧ (wrxCfg s r).monitor = false ∧ (s.wr r).chains = (s.wr r).mask) ∧
    -- WIDE_CARRIER_LOST: the reception ends, counted; the primary stays busy for the L-SIG duration
    (∃ (r e l : Nat) (p : Int) (st : Stamp) (stale sol : Bool) (s : State), alive s = true ∧ (s.wr r).rx = .receiving p st stale sol e l ∧ (wrxCfg s r).monitor = false ∧ (s.wr r).chains = (s.wr r).mask) ∧
    -- WIDE_PPDU_END of a PPDU whose one MPDU fails its check sequence: PHY_OK and RX_FCS are counted at the end of its duration, no response
    (∃ (r e l : Nat) (p : Int) (st : Stamp) (stale sol : Bool) (x : PpduRx) (m : Mpdu) (s : State), alive s = true ∧ (s.wr r).rx = .receiving p st stale sol e l ∧ (s.wr r).test = none ∧ (s.wr r).exchange = none ∧ x.mpdus = [m] ∧ m.fcsOk = false ∧ (wrxCfg s r).monitor = false ∧ (s.wr r).responseAt = none ∧ (s.wr r).chains = (s.wr r).mask) ∧
    -- WIDE_PPDU_END of any PPDU that no transmission overtakes: PHY_OK is counted once, the receiver is free again
    (∃ (r e l : Nat) (p : Int) (st : Stamp) (stale sol : Bool) (x : PpduRx) (s : State), alive s = true ∧ (s.wr r).rx = .receiving p st stale sol e l ∧ blankedBy s r e = false) := by
  and_intros
  · exact ⟨1, 0, 0, none, updWr 1 (fun w => { w with chains := 1 }) { up with kept.wide.chan := [(1, { band := 1, primary := 36 })], front.synths := up.front.synths.set 1 { state := .locked } }, by decide +kernel⟩
  · exact ⟨0, 0, 0, 0, -60, -57, false, [], none, at' 200 (updWr 0 (fun w => { w with chains := 1, rx := .acquiring 0 (-60) 0 false none [] }) { up with kept.wide.chan := [(0, { band := 1, primary := 36 })], front.synths := up.front.synths.set 0 { state := .locked } }), by decide +kernel⟩
  · exact ⟨0, 0, 0, 0, 0, 1, -60, -50, false, [], none, updWr 0 (fun w => { w with chains := 1, rx := .acquiring 0 (-60) 0 false (some (0, 1)) [] }) { up with kept.wide.chan := [(0, { band := 1, primary := 36 })], front.synths := up.front.synths.set 0 { state := .locked } }, by decide +kernel⟩
  · exact ⟨0, 0, 1, 1, -60, -50, {}, false, none, updWr 0 (fun w => { w with chains := 1, rx := .receiving (-60) {} false false 1 1 }) { up with kept.wide.chan := [(0, { band := 1, primary := 36 })], front.synths := up.front.synths.set 0 { state := .locked } }, by decide +kernel⟩
  · exact ⟨1, 0, 0, -60, [], updWr 1 (fun w => { w with rx := .acquiring 0 (-60) 0 false none [] }) up, by decide +kernel⟩
  · exact ⟨0, 0, 0, 0, 5000, -60, false, [], {}, updWr 0 (fun w => { w with chains := 1, rx := .acquiring 0 (-60) 0 false (some (0, 5000)) [] }) { up with kept.wide.chan := [(0, { band := 1, primary := 36 })], front.synths := up.front.synths.set 0 { state := .locked } }, by decide +kernel⟩
  · exact ⟨{ air := { kind := 6 }, phase := 1, startMono := 0 }, 0, 0, 0, 0, 5000, -60, false, [], { phy := { format := 8, ltf := 1 } }, updWr 0 (fun w => { w with chains := 1, rx := .acquiring 0 (-60) 0 false (some (0, 5000)) [], exchange := some { air := { kind := 6 }, phase := 1, startMono := 0 } }) { up with kept.wide.chan := [(0, { band := 1, primary := 36 })], front.synths := up.front.synths.set 0 { state := .locked } }, by decide +kernel⟩
  · exact ⟨0, 0, 0, 0, 5000, -60, false, [], { sigOk := false }, updWr 0 (fun w => { w with rx := .acquiring 0 (-60) 0 false (some (0, 5000)) [] }) ({ up with kept.wide.chan := [(0, { band := 1, primary := 36 })] }), by decide +kernel⟩
  · exact ⟨0, 0, 0, 0, 5000, -60, false, [], { phy := { format := 10 } }, updWr 0 (fun w => { w with rx := .acquiring 0 (-60) 0 false (some (0, 5000)) [] }) ({ up with kept.wide.chan := [(0, { band := 1, primary := 36 })] }), by decide +kernel⟩
  · exact ⟨0, 0, 0, 0, 5000, -60, false, [], {}, updWr 0 (fun w => { w with rx := .acquiring 0 (-60) 0 false (some (0, 5000)) [] }) ({ up with kept.wide.chan := [(0, { band := 1, primary := 36 })] }), by decide +kernel⟩
  · exact ⟨1, 1, 1, -60, {}, false, false, updWr 1 (fun w => { w with rx := .receiving (-60) {} false false 1 1 }) up, by decide +kernel⟩
  · exact ⟨1, 1, 1, -60, {}, false, false, { mpdus := [{ fcsOk := false }] }, { fcsOk := false }, updWr 1 (fun w => { w with rx := .receiving (-60) {} false false 1 1 }) up, by decide +kernel⟩
  · exact ⟨1, 1, 1, -60, {}, false, false, { mpdus := [{ fcsOk := false }] }, updWr 1 (fun w => { w with rx := .receiving (-60) {} false false 1 1 }) up, by decide +kernel⟩

theorem test_hypotheses_WideChannelEventsTakeEffect :
    -- GRANT_EXPIRY while W1 is not in the 6 GHz band: the grant is over, the event names the beat
    (∃ (s : State), alive s = true ∧ clockRuns s = true ∧ (powerCfg s 0).grant = true ∧ (s.wr 0).grantStopped = false ∧ (chanCfg s 0).band ≠ 2) ∧
    -- RADAR_PULSE in a radar range: counted and told to the Steward's radar service
    (∃ (r l k : Nat) (s : State), alive s = true ∧ (operating s r).map (fun x => (x.1, x.2.1)) = some (l, k) ∧ wideHears s r = true ∧ radarRange l (l + 20 * k) = true) ∧
    -- RADAR_CONFIRMED with no channel to move to: the channels that it hit are barred for 1,800,000 beats, data stops with the next beat, and the radio has left its channel 10,000 beats on (log entry 77)
    (∃ (r hit csa : Nat) (s : State), alive s = true ∧ wideOn s r = true ∧ radarChan (chanCfg s r) = true ∧ (s.wr r).move = none) ∧
    -- RADAR_CONFIRMED on a radio in a radar channel, whatever it moves to and whatever change is under way: the flag is set, a change of its channel stands
    (∃ (r hit band primary width puncture csa : Nat) (s : State), alive s = true ∧ r < 2 ∧ wideOn s r = true ∧ radarChan (chanCfg s r) = true) ∧
    -- CAC_END of the device's own check: the channel is in force, the event names it
    (∃ (r b : Nat) (m : ChanMove) (s : State), alive s = true ∧ clockRuns s = true ∧ (s.wr r).move = some m ∧ m.cacEnd = some b ∧ m.eff = none ∧ m.job = none ∧ m.chan = chanCfg s r ∧ s.kept.wide.bss = [] ∧ operWidth s r (chanCfg s r).width = (chanCfg s r).width ∧ r < 2) ∧
    -- CAC_END of any availability check that has begun: the channel is in force
    (∃ (r b : Nat) (m : ChanMove) (s : State), alive s = true ∧ clockRuns s = true ∧ (s.wr r).move = some m ∧ m.cacEnd = some b ∧ m.eff = none) ∧
    -- NON_OCCUPANCY_END: the channel is free again at the beat that its time ends
    (∃ (k b : Nat) (s : State), alive s = true ∧ clockRuns s = true ∧ Map.get? s.kept.wide.barred k = some b) ∧
    -- WIDE_TEST_END: the test is over at the beat named
    (∃ (r : Nat) (s : State), alive s = true ∧ clockRuns s = true ∧ (s.wr r).test.isSome = true ∧ (s.wr r).testEnd ≠ 0 ∧ Map.get? s.front.tx (32 + r) = none) := by
  and_intros
  · exact ⟨{ up with kept.wide.power := [(0, { grant := true })] }, by decide +kernel⟩
  · exact ⟨0, 5250, 1, updWr 0 (fun w => { w with chains := 1 }) { up with kept.wide.chan := [(0, { band := 1, primary := 52 })], front.synths := up.front.synths.set 0 { state := .locked } }, by decide +kernel⟩
  · exact ⟨0, 0, 0, updWr 0 (fun w => { w with chains := 1 }) { up with kept.wide.chan := [(0, { band := 1, primary := 52 })], front.synths := up.front.synths.set 0 { state := .locked } }, by decide +kernel⟩
  · exact ⟨0, 0, 0, 0, 0, 0, 0, updWr 0 (fun w => { w with chains := 1 }) { up with kept.wide.chan := [(0, { band := 1, primary := 52 })], front.synths := up.front.synths.set 0 { state := .locked } }, by decide +kernel⟩
  · exact ⟨1, 60000, { chan := { band := 1, primary := 52 }, job := none, cacEnd := some 60000 }, updWr 1 (fun w => { w with chains := 1, move := some { chan := { band := 1, primary := 52 }, job := none, cacEnd := some 60000 } }) { up with kept.wide.chan := [(1, { band := 1, primary := 52 })], front.synths := up.front.synths.set 1 { state := .locked } }, by decide +kernel⟩
  · exact ⟨1, 60000, { chan := { band := 1, primary := 52 }, job := none, cacEnd := some 60000 }, updWr 1 (fun w => { w with chains := 1, move := some { chan := { band := 1, primary := 52 }, job := none, cacEnd := some 60000 } }) { up with kept.wide.chan := [(1, { band := 1, primary := 52 })], front.synths := up.front.synths.set 1 { state := .locked } }, by decide +kernel⟩
  · exact ⟨5, 9, { up with kept.wide.barred := [(5, 9)] }, by decide +kernel⟩
  · exact ⟨1, updWr 1 (fun w => { w with test := some (1, 0), testEnd := 1 }) up, by decide +kernel⟩

theorem test_hypotheses_WideAccessEventsTakeEffect :
    -- WIDE_EXCHANGE_START of a beacon that may start: it is on the air on the granted chains, the TBTT is served, DTIM counts that have run down release group frames
    (∃ (r : Nat) (a : WideAir) (s y : State), y = senseMedium r a.cca s ∧ alive s = true ∧ mayStart y r a = true ∧ (y.wr r).rx = .idle ∧ y.overrunning (32 + r) = false ∧ (y.wr r).waiting = none ∧ obstructed y (32 + r) (exchangeChains y r) = false ∧ priorityPending y (32 + r) = false ∧ shares24 y = false ∧ a.kind = 3) ∧
    -- WIDE_EXCHANGE_START while the radio is obstructed: the exchange waits
    (∃ (r : Nat) (a : WideAir) (s : State), alive s = true ∧ mayStart s r a = true ∧ s.overrunning (32 + r) = false ∧ (s.wr r).waiting = none ∧ obstructed s (32 + r) (exchangeChains s r) = true ∧ a.kind = 4) ∧
    -- WIDE_RESPONSE_SEND at its instant: it is on the air, counted, the receivers blanked to 2 µs after it
    (∃ (r : Nat) (x : Response) (s : State), alive s = true ∧ (s.wr r).responseAt = some x ∧ x.at' ≤ s.time.mono ∧ s.time.acc < 2 ^ 96 ∧ (s.wr r).rx = .idle ∧ wideOn s r = true ∧ responseChains s r ≠ 0 ∧ grantHolds s r = false ∧ inCac s r = false ∧ sendable s r x.phy (responseChains s r) = true ∧ transmitting s (32 + r) = false ∧ obstructed s (32 + r) (responseChains s r) = false ∧ shares24 s = false ∧ radarStopped s r = false ∧ (x.phy.triggered = false ∨ (s.wr r).upLink = none)) ∧
    -- WIDE_RESPONSE_SEND at its instant, in 2.4 GHz beside F24, against a span that F24 committed earlier: it is not sent, but counted
    (∃ (x : Response) (s : State), alive s = true ∧ (s.wr 1).responseAt = some x ∧ x.at' ≤ s.time.mono ∧ s.time.acc < 2 ^ 96 ∧ wideOn s 1 = true ∧ responseChains s 1 ≠ 0 ∧ grantHolds s 1 = false ∧ inCac s 1 = false ∧ sendable s 1 x.phy (responseChains s 1) = true ∧ radarStopped s 1 = false ∧ transmitting s 33 = false ∧ obstructed s 33 (responseChains s 1) = false ∧ (fieldClash s 1 (s.time.mono - leadNs s 33 (responseChains s 1)) (s.time.mono + x.dur) x.since).isSome = true ∧ (s.wr 1).chains = (s.wr 1).mask) ∧
    -- WIDE_TX_END of a beacon: the exchange is over
    (∃ (r : Nat) (x : RadioTx) (e : Exchange) (s : State), alive s = true ∧ Map.get? s.front.tx (32 + r) = some x ∧ r < 2 ∧ x.kind ≠ 3 ∧ (s.wr r).responding = false ∧ (s.wr r).exchange = some e ∧ e.air.kind = 3 ∧ e.sent = [] ∧ e.users = [] ∧ (powerCfg s r).closedLoop = false ∧ (s.wr r).chains = (s.wr r).mask) ∧
    -- WIDE_TX_END of a response: the radio is free again
    (∃ (r : Nat) (x : RadioTx) (s : State), alive s = true ∧ Map.get? s.front.tx (32 + r) = some x ∧ r < 2 ∧ x.kind ≠ 3 ∧ (s.wr r).responding = true ∧ (powerCfg s r).closedLoop = false ∧ (s.wr r).chains = (s.wr r).mask) ∧
    -- WIDE_ACK_TIMEOUT of a management frame with retries left: it goes back to the head of its queue
    (∃ (r : Nat) (e : Exchange) (m : SentMpdu) (a : AirTx) (s : State), alive s = true ∧ (s.wr r).exchange = some e ∧ e.phase = 1 ∧ e.air.kind = 4 ∧ e.users = [] ∧ e.sent = [m] ∧ (s.wr r).rx = .idle ∧ queueRange m.queue = 4 ∧ m.item.air = some a ∧ a.tries ≤ (accessCfg s r).retryLimit) ∧
    -- WIDE_ACK_TIMEOUT of any exchange that waits for an answer: it is over
    (∃ (r : Nat) (e : Exchange) (s : State), alive s = true ∧ (s.wr r).exchange = some e ∧ e.phase = 1 ∧ (s.wr r).rx = .idle) := by
  and_intros
  · exact ⟨0, { kind := 3 }, at' 50000 (updWr 0 (fun w => { w with chains := 1, mask := 1, beaconDue := some 90000 }) { up with kept.wide.chan := [(0, { band := 1, primary := 36 })], front.synths := up.front.synths.set 0 { state := .locked }, kept.wide.power := [(0, { regDomain := 1 }), (1, { regDomain := 1 })] }), _, rfl, by decide +kernel⟩
  · exact ⟨0, { kind := 4 }, at' 20000 (updWr 0 (fun w => { w with chains := 1, mask := 1 }) { up with kept.wide.chan := [(0, { band := 1, primary := 36 })], kept.wide.power := [(0, { regDomain := 1 }), (1, { regDomain := 1 })], plan.inForce := [(0, { entries := [{ kind := 4, start := 20, dur := 900 }] })] }), by decide +kernel⟩
  · exact ⟨0, { at' := 0, since := 0, dur := 100 }, updWr 0 (fun w => { w with chains := 1, mask := 1, responseAt := some { at' := 0, since := 0, dur := 100 } }) { up with kept.wide.chan := [(0, { band := 1, primary := 36 })], front.synths := up.front.synths.set 0 { state := .locked }, kept.wide.power := [(0, { regDomain := 1 }), (1, { regDomain := 1 })] }, by decide +kernel⟩
  · exact ⟨{ at' := 0, since := 1, dur := 100 }, updWr 1 (fun w => { w with chains := 1, mask := 1, responseAt := some { at' := 0, since := 1, dur := 100 } }) { up with kept.wide.chan := [(1, { band := 0, primary := 1 })], front.synths := up.front.synths.set 1 { state := .locked }, kept.wide.power := [(0, { regDomain := 1 }), (1, { regDomain := 1 })], front.tx := [(34, { t0 := 0, t1 := 10 })], kept.field.config.f24 := true }, by decide +kernel⟩
  · exact ⟨1, { t0 := 0, t1 := 0 }, { air := { kind := 3 }, startMono := 0 }, updWr 1 (fun w => { w with exchange := some { air := { kind := 3 }, startMono := 0 } }) { up with front.tx := [(33, { t0 := 0, t1 := 0 })], kept.wide.power := [(1, { closedLoop := false })] }, by decide +kernel⟩
  · exact ⟨1, { t0 := 0, t1 := 0 }, updWr 1 (fun w => { w with responding := true }) { up with front.tx := [(33, { t0 := 0, t1 := 0 })], kept.wide.power := [(1, { closedLoop := false })] }, by decide +kernel⟩
  · exact ⟨0, { air := { kind := 4 }, phase := 1, startMono := 0, sent := [{ queue := 0x3F02, item := { payload := .eth {}, charge := 64, air := some {} } }] }, { queue := 0x3F02, item := { payload := .eth {}, charge := 64, air := some {} } }, {}, updWr 0 (fun w => { w with exchange := some { air := { kind := 4 }, phase := 1, startMono := 0, sent := [{ queue := 0x3F02, item := { payload := .eth {}, charge := 64, air := some {} } }] } }) up, by decide +kernel⟩
  · exact ⟨0, { air := { kind := 4 }, phase := 1, startMono := 0, sent := [{ queue := 0x3F02, item := { payload := .eth {}, charge := 64, air := some {} } }] }, updWr 0 (fun w => { w with exchange := some { air := { kind := 4 }, phase := 1, startMono := 0, sent := [{ queue := 0x3F02, item := { payload := .eth {}, charge := 64, air := some {} } }] } }) up, by decide +kernel⟩

theorem test_hypotheses_WideSchedulesTakeEffect :
    -- MSDU_LIFETIME_EXPIRY of a station's only frame: it completes LIFETIME, counted for the radio and the BSS, and leaves the queue
    (∃ (q : Nat) (x : Client) (f : Queued) (m : Frame) (s : State), alive s = true ∧ queueRange q = 1 ∧ Map.get? s.wide.clients ((q - 0x1000) / 4) = some x ∧ x.kind = 1 ∧ x.ps = false ∧ x.link1 ≠ 0xFFFF ∧ (s.queue q).frames = [f] ∧ f.cells = none ∧ f.job = none ∧ f.payload = .eth m ∧ f.enqBeat + (accessCfg s 0).lifetime.getD (q % 4) 1000 ≤ s.beat ∧ s.time.acc < 2 ^ 96) ∧
    -- MSDU_LIFETIME_EXPIRY of any queue of a radio that serves no power-save station: time is at the oldest frame's expiry, and no frame of the queue is older than its lifetime
    (∃ (q life : Nat) (s : State), life = lifetimeOf s (queueHome s q - 24) q ∧ alive s = true ∧ (queueRange q = 1 ∨ queueRange q = 3) ∧ psClient s q = none) ∧
    -- PS_LIFETIME_EXPIRY of a power-save station's only frame: it completes PS_EXPIRED, counted, and leaves the queue
    (∃ (q : Nat) (x : Client) (f : Queued) (m : Frame) (s : State), alive s = true ∧ queueRange q = 1 ∧ Map.get? s.wide.clients ((q - 0x1000) / 4) = some x ∧ x.kind = 1 ∧ x.ps = true ∧ x.link1 ≠ 0xFFFF ∧ (s.queue q).frames = [f] ∧ f.cells = none ∧ f.job = none ∧ f.payload = .eth m ∧ f.enqBeat + (accessCfg s 0).psLifetime ≤ s.beat ∧ s.time.acc < 2 ^ 96) ∧
    -- PS_LIFETIME_EXPIRY of any queue of a power-save station
    (∃ (q life c : Nat) (s : State), life = (accessCfg s (queueHome s q - 24)).psLifetime ∧ alive s = true ∧ psClient s q = some c) ∧
    -- REORDER_TIMEOUT with one MPDU held behind one gap, a replay: the window moves past both, the MPDU is discarded and counted
    (∃ (c tid k b n : Nat) (x : Client) (a : BaRx) (m : HeldMpdu) (e : KeyEntry) (s : State), alive s = true ∧ s.wide.clients = [(c, x)] ∧ x.baRx = [(tid, a)] ∧ x.link1 ≠ 0xFFFF ∧ x.kind = 1 ∧ a.gap = some b ∧ a.held = [((a.start + 1) % 4096, m)] ∧ a.start < 4096 ∧ m.radio = 0 ∧ m.m.client = some c ∧ m.m.prot = true ∧ m.m.groupKey = none ∧ m.m.mgmt = none ∧ m.m.tid = some tid ∧ m.m.keyId = 0 ∧ x.key0 = k ∧ Map.get? s.wide.keys k = some e ∧ e.rxEnable = true ∧ Map.get? e.rxPn tid = some n ∧ m.m.pn ≤ n ∧ b + (accessCfg s 0).reorder ≤ s.beat ∧ s.time.acc < 2 ^ 96) ∧
    -- REORDER_TIMEOUT of any agreement with a gap that holds delivery: what the gap held is released
    (∃ (c tid b i : Nat) (a : BaRx) (s : State), alive s = true ∧ Map.get? (s.client c).baRx tid = some a ∧ a.gap = some b ∧ (List.range 4096).find? (fun i => Map.has a.held ((a.start + i) % 4096)) = some i) ∧
    -- BEACON_TBTT without an upstream clash: the beacon is due until its TBTT span ends, a countdown of a channel switch takes its step
    (∃ (r air : Nat) (s : State), alive s = true ∧ apOn s r = true ∧ inCac s r = false) ∧
    -- BEACON_SKIP: the TBTT span ends without the beacon started, BCN_SKIP is counted
    (∃ (r n : Nat) (s : State), alive s = true ∧ (s.wr r).beaconDue = some n ∧ (s.wr r).waiting = none) ∧
    -- TWT_SP_START of an individual agreement: its service period runs from its start to its nominal end
    (∃ (key : Nat) (f : TwtFlow) (s : State), alive s = true ∧ key < 1000000 ∧ Map.get? s.wide.twt key = some f ∧ wideOn s f.radio = true) ∧
    -- TWT_NOSHOW of a member that has not shown up: the no-show is counted, for it and for its BSS
    (∃ (r key c : Nat) (p : ServicePeriod) (f : TwtFlow) (x : Client) (s : State), alive s = true ∧ (s.wr r).periods = [p] ∧ p.key = key ∧ p.members = [c] ∧ p.present = [] ∧ p.judged = [] ∧ p.startNs + 1000 * (accessCfg s r).noshowUs < p.endNs ∧ Map.get? s.wide.clients c = some x ∧ x.kind = 1 ∧ Map.get? s.wide.twt key = some f ∧ f.noshows + 1 ≠ (accessCfg s r).noshowLimit) ∧
    -- TWT_SP_END: the service period is over at its nominal end
    (∃ (r key : Nat) (p : ServicePeriod) (s : State), alive s = true ∧ (s.wr r).periods.find? (fun p => decide (p.key = key)) = some p) ∧
    -- UPSTREAM_WINDOW_START in power-management mode 1: the window is open
    (∃ (r air total : Nat) (e : PlanEntry) (s : State), alive s = true ∧ (Map.getD s.plan.inForce r {}).entries = [e] ∧ e.kind = 2 ∧ s.phase ≤ e.start * 1000 ∧ wideOn s r = true ∧ (upCfg s r).pmMode = 1) ∧
    -- UPSTREAM_WINDOW_END in power-management mode 1: the window is closed
    (∃ (r air total : Nat) (e : PlanEntry) (s : State), alive s = true ∧ (Map.getD s.plan.inForce r {}).entries = [e] ∧ e.kind = 2 ∧ s.phase ≤ (e.start + e.dur) * 1000 ∧ wideOn s r = true ∧ (s.wr r).upWindow = true ∧ (upCfg s r).pmMode = 1) ∧
    -- WIDE_CLIENT_DEL_TIMEOUT: 100 beats after the command it is answered without its frame
    (∃ (c : Nat) (d : ClientDel) (s : State), alive s = true ∧ clockRuns s = true ∧ s.wide.dels = [d] ∧ d.client = c) := by
  and_intros
  · exact ⟨0x1000, { link1 := 0 }, { payload := .eth {}, charge := 64 }, {}, at' 1000000000 { up with wide.clients := [(0, { link1 := 0 })], plan.queues := [(0x1000, { frames := [{ payload := .eth {}, charge := 64 }] })] }, by decide +kernel⟩
  · exact ⟨0x1000, _, at' 1000000000 { up with wide.clients := [(0, { link1 := 0 })], plan.queues := [(0x1000, { frames := [{ payload := .eth {}, charge := 64 }] })] }, rfl, by decide +kernel⟩
  · exact ⟨0x1000, { link1 := 0, ps := true }, { payload := .eth {}, charge := 64 }, {}, at' 5000000000 { up with wide.clients := [(0, { link1 := 0, ps := true })], plan.queues := [(0x1000, { frames := [{ payload := .eth {}, charge := 64 }] })] }, by decide +kernel⟩
  · exact ⟨0x1000, _, 0, at' 5000000000 { up with wide.clients := [(0, { link1 := 0, ps := true })], plan.queues := [(0x1000, { frames := [{ payload := .eth {}, charge := 64 }] })] }, rfl, by decide +kernel⟩
  · exact ⟨0, 0, 0, 0, 0, { link1 := 0, key0 := 0, baRx := [(0, { size := 64, start := 4095, held := [(0, { radio := 0, stamp := {}, stale := false, m := { client := some 0, tid := some 0, prot := true } })], gap := some 0 })] }, { size := 64, start := 4095, held := [(0, { radio := 0, stamp := {}, stale := false, m := { client := some 0, tid := some 0, prot := true } })], gap := some 0 }, { radio := 0, stamp := {}, stale := false, m := { client := some 0, tid := some 0, prot := true } }, { rxEnable := true, rxPn := [(0, 0)] }, at' 50000000 { up with wide.clients := [(0, { link1 := 0, key0 := 0, baRx := [(0, { size := 64, start := 4095, held := [(0, { radio := 0, stamp := {}, stale := false, m := { client := some 0, tid := some 0, prot := true } })], gap := some 0 })] })], wide.keys := [(0, { rxEnable := true, rxPn := [(0, 0)] })] }, by decide +kernel⟩
  · exact ⟨0, 0, 0, 1, { size := 64, start := 4095, held := [(0, { radio := 0, stamp := {}, stale := false, m := { client := some 0, tid := some 0, prot := true } })], gap := some 0 }, at' 50000000 { up with wide.clients := [(0, { link1 := 0, key0 := 0, baRx := [(0, { size := 64, start := 4095, held := [(0, { radio := 0, stamp := {}, stale := false, m := { client := some 0, tid := some 0, prot := true } })], gap := some 0 })] })], wide.keys := [(0, { rxEnable := true, rxPn := [(0, 0)] })] }, by decide +kernel⟩
  · exact ⟨0, 0, updWr 0 (fun w => { w with chains := 1 }) { up with kept.wide.chan := [(0, { band := 1, primary := 36 })], front.synths := up.front.synths.set 0 { state := .locked }, kept.wide.bss := [(0, { enable := true })] }, by decide +kernel⟩
  · exact ⟨1, 5, updWr 1 (fun w => { w with beaconDue := some 5 }) up, by decide +kernel⟩
  · exact ⟨999999, { radio := 0, client := 0, flow := 0, phase := 20, interval := 1, offset := 0, dur := 256, announced := false }, updWr 0 (fun w => { w with chains := 1 }) { up with kept.wide.chan := [(0, { band := 1, primary := 36 })], front.synths := up.front.synths.set 0 { state := .locked }, wide.twt := [(999999, { radio := 0, client := 0, flow := 0, phase := 20, interval := 1, offset := 0, dur := 256, announced := false })] }, by decide +kernel⟩
  · exact ⟨0, 0, 0, { key := 0, kind := 0, startNs := 0, endNs := 200001, members := [0] }, { radio := 0, client := 0, flow := 0, phase := 20, interval := 1, offset := 0, dur := 256, announced := false }, {}, updWr 0 (fun w => { w with periods := [{ key := 0, kind := 0, startNs := 0, endNs := 200001, members := [0] }] }) { up with wide.clients := [(0, {})], wide.twt := [(0, { radio := 0, client := 0, flow := 0, phase := 20, interval := 1, offset := 0, dur := 256, announced := false })] }, by decide +kernel⟩
  · exact ⟨1, 0, { key := 0, kind := 0, startNs := 0, endNs := 200001, members := [0] }, updWr 1 (fun w => { w with periods := [{ key := 0, kind := 0, startNs := 0, endNs := 200001, members := [0] }] }) up, by decide +kernel⟩
  · exact ⟨0, 0, 0, { kind := 2, start := 1 }, updWr 0 (fun w => { w with chains := 1 }) { up with kept.wide.chan := [(0, { band := 1, primary := 36 })], front.synths := up.front.synths.set 0 { state := .locked }, plan.inForce := [(0, { entries := [{ kind := 2, start := 1 }] })], kept.wide.upstream := [(0, { pmMode := 1 })] }, by decide +kernel⟩
  · exact ⟨0, 0, 0, { kind := 2, start := 1 }, updWr 0 (fun w => { w with chains := 1, upWindow := true }) { up with kept.wide.chan := [(0, { band := 1, primary := 36 })], front.synths := up.front.synths.set 0 { state := .locked }, plan.inForce := [(0, { entries := [{ kind := 2, start := 1 }] })], kept.wide.upstream := [(0, { pmMode := 1 })] }, by decide +kernel⟩
  · exact ⟨5, { job := 0, client := 5, due := 100 }, { up with wide.dels := [{ job := 0, client := 5, due := 100 }] }, by decide +kernel⟩

theorem test_hypotheses_FrontEndCommandsComplete :
    -- FE_PIN_CONFIG of the chains of a wide radio, in order and within the limits
    (∃ (c : Cmd) (s : State), readyFor c s = true ∧ goodTable [fRange 16 1 32 35, fMask 17 1 0xF, fAny 18 1, fAny 19 1, fAny 20 1, fAny 21 1, fAny 22 1, fAny 23 1, fRange 24 1 0 2, fSigned 25 1 (-40) (-10), fMask 26 1 3, fZero 27 1] c = true ∧ c.u 16 1 < 34 ∧ c.u 18 1 ≤ 160 ∧ c.u 19 1 ≤ c.u 18 1 ∧ c.u 20 1 ≤ c.u 19 1 ∧ c.u 21 1 ≤ c.u 22 1 ∧ c.u 22 1 ≤ c.u 23 1 ∧ c.u 23 1 ≤ 80) ∧
    -- FE_PIN_CONFIG with the bypass switch before the low-noise amplifier is off: BAD_ARG
    (∃ (c : Cmd) (s : State), readyFor c s = true ∧ goodTable [fRange 16 1 32 35, fMask 17 1 0xF, fAny 18 1, fAny 19 1, fAny 20 1, fAny 21 1, fAny 22 1, fAny 23 1, fRange 24 1 0 2, fSigned 25 1 (-40) (-10), fMask 26 1 3, fZero 27 1] c = true ∧ c.u 16 1 = 34 ∧ c.u 17 1 = 1 ∧ c.u 18 1 < c.u 19 1 ∧ c.u 18 1 ≤ 255 ∧ c.u 19 1 ≤ 255 ∧ c.u 20 1 ≤ 255 ∧ c.u 21 1 ≤ 255 ∧ c.u 22 1 ≤ 255 ∧ c.u 23 1 ≤ 255) ∧
    -- FE_COEX_CONFIG while the other port is off
    (∃ (c : Cmd) (s : State), readyFor c s = true ∧ goodTable [fRange 16 1 0 1, fRange 17 1 0 2, fMask 18 1 0xF, fMask 19 1 7, fRange 20 4 100 20000, fRange 24 2 20 10000, fRange 26 2 0 2000] c = true ∧ (Map.getD s.next.front.coex (1 - c.u 16 1) {}).mode = 0) ∧
    -- CAL_CONFIG
    (∃ (c : Cmd) (s : State), readyFor c s = true ∧ goodTable [fRange 16 1 2 20, fRange 17 1 2 30, fRange 18 1 2 30, fMask 19 1 7, fSigned 20 1 (-90) (-50), fSigned 21 1 (-100) (-60), fRange 22 2 1000 65535, fRange 24 2 0 10000, fZero 26 2] c = true) ∧
    -- CAL_RUN of the crystal: one run is created, and the command waits for it
    (∃ (c : Cmd) (s : State), readyFor c s = true ∧ goodTable [fMask 16 2 0x3FF, fOneOf 18 1 ([3, 4, 5, 6] ++ (List.range 28).map (· + 8) ++ [37, 0xFF]), fAny 19 1, fMask 20 1 1, fZero 21 3] c = true ∧ c.u 16 2 = 8 ∧ c.u 18 1 = 3 ∧ c.u 19 1 = 0 ∧ s.power.mode.serves = true ∧ s.front.runs = [] ∧ s.stw.jobs = []) ∧
    -- CAL_RUN of any calibrations and targets: a run of each stands, and the command waits for them
    (∃ (c : Cmd) (l : List (Nat × Nat × Nat)) (s : State), l = (calTargets s).filter (fun x => hasBit (c.u 16 2) (x.1 - 1) && (decide (c.u 18 1 = 0xFF) || decide (c.u 18 1 = x.2.1)) && (decide (c.u 19 1 = 0xFF) || decide (c.u 19 1 = x.2.2))) ∧ readyFor c s = true ∧ goodTable [fMask 16 2 0x3FF, fOneOf 18 1 ([3, 4, 5, 6] ++ (List.range 28).map (· + 8) ++ [37, 0xFF]), fAny 19 1, fMask 20 1 1, fZero 21 3] c = true ∧ c.u 16 2 ≠ 0 ∧ l ≠ [] ∧ s.power.mode ≠ .doze ∧ s.power.mode ≠ .dormant ∧ s.stw.jobs.any (fun j => decide (j.opcode = 0x0C04) && decide (j.lane = c.lane)) = false) ∧
    -- CAL_STATUS of the crystal with a result in force and no run
    (∃ (c : Cmd) (r : CalResult) (s : State), readyFor c s = true ∧ goodTable [fRange 16 1 1 10, fOneOf 17 1 ([3, 4, 5, 6] ++ (List.range 28).map (· + 8) ++ [37]), fAny 18 1, fZero 19 1] c = true ∧ c.u 16 1 = 4 ∧ c.u 17 1 = 3 ∧ c.u 18 1 = 0 ∧ s.front.runs = [] ∧ s.front.notes = [] ∧ Map.get? s.kept.front.results (calKey 4 3 0 0) = some r) ∧
    -- CAL_STATUS of any calibration and target: its state, its failed attempts, its cause and its sensor
    (∃ (c : Cmd) (u : Nat) (n : CalNote) (s : State), u = (if c.u 16 1 = 5 then c.u 18 1 / 16 else c.u 18 1) ∧ n = calNote s (calUse s (c.u 16 1) (c.u 17 1) u) ∧ readyFor c s = true ∧ goodTable [fRange 16 1 1 10, fOneOf 17 1 ([3, 4, 5, 6] ++ (List.range 28).map (· + 8) ++ [37]), fAny 18 1, fZero 19 1] c = true ∧ (calSubs s (c.u 16 1) (c.u 17 1)).contains u = true) ∧
    -- FE_COUNTERS that clears nothing
    (∃ (c : Cmd) (s : State), readyFor c s = true ∧ goodTable [fOneOf 16 1 [3, 32, 33, 34, 35, 36], fMask 17 1 3, fMask 18 1 0xF, fZero 19 1] c = true ∧ c.u 17 1 = 0) ∧
    -- FE_COUNTERS that clears its scope and all sticky bits
    (∃ (c : Cmd) (s : State), readyFor c s = true ∧ goodTable [fOneOf 16 1 [3, 32, 33, 34, 35, 36], fMask 17 1 3, fMask 18 1 0xF, fZero 19 1] c = true ∧ c.u 17 1 = 3 ∧ c.u 18 1 = 15) := by
  and_intros
  · exact ⟨cmd [(1, 32), (1, 0), (1, 0), (1, 0), (1, 0), (1, 0), (1, 0), (1, 0), (1, 0), (1, 216), (1, 0), (1, 0)], ready, by decide +kernel⟩
  · exact ⟨cmd [(1, 34), (1, 1), (1, 0), (1, 1), (1, 0), (1, 0), (1, 0), (1, 0), (1, 0), (1, 216), (1, 0), (1, 0)], ready, by decide +kernel⟩
  · exact ⟨cmd [(1, 0), (1, 0), (1, 0), (1, 0), (4, 100), (2, 20), (2, 0)], ready, by decide +kernel⟩
  · exact ⟨cmd [(1, 2), (1, 2), (1, 2), (1, 0), (1, 166), (1, 156), (2, 1000), (2, 0), (2, 0)], ready, by decide +kernel⟩
  · exact ⟨cmd [(2, 8), (1, 3), (1, 0), (1, 0), (3, 0)], ready, by decide +kernel⟩
  · exact ⟨cmd [(2, 1023), (1, 255), (1, 255), (1, 0), (3, 0)], _, ready, rfl, by decide +kernel⟩
  · exact ⟨cmd [(1, 4), (1, 3), (1, 0), (1, 0)], {}, { ready with kept.front.results := [(calKey 4 3 0 0, {})] }, by decide +kernel⟩
  · exact ⟨cmd [(1, 4), (1, 3), (1, 0), (1, 0)], _, _, { ready with kept.front.results := [(calKey 4 3 0 0, {})] }, rfl, rfl, by decide +kernel⟩
  · exact ⟨cmd [(1, 3), (1, 0), (1, 0), (1, 0)], ready, by decide +kernel⟩
  · exact ⟨cmd [(1, 3), (1, 3), (1, 15), (1, 0)], ready, by decide +kernel⟩

theorem test_hypotheses_FrontEndEventsTakeEffect :
    -- SYNTH_LOCKED
    (∃ (i : Nat) (s : State), alive s = true ∧ i < 5 ∧ (s.synth i).state = .settling) ∧
    -- SYNTH_UNLOCK of the receive synthesiser of F24, its second loss at most
    (∃ (slots : Nat) (s : State), alive s = true ∧ synthReady s 2 = true ∧ s.field.rx = [] ∧ ((s.synth 2).losses.filter (fun b => b + 1000 > s.beat)).length = 0) ∧
    -- SYNTH_UNLOCK of any synthesiser that is locked: it relocks from OFF
    (∃ (i slots : Nat) (s : State), alive s = true ∧ i < 5 ∧ synthReady s i = true) ∧
    -- OBSTRUCTION_END: a field frame that waits, without security, starts
    (∃ (w : RadioTx) (a : FieldAccess) (dur : Nat) (s : State), dur = fieldNs (chanKey a.item.band a.item.channel) a.item.len ∧ alive s = true ∧ s.front.waiting = [(34, w)] ∧ s.kept.front.coex = [] ∧ s.front.runs = [] ∧ s.front.tx = [] ∧ synthReady s 3 = true ∧ shares24 s = false ∧ (s.unit 34).safe = false ∧ s.field.rx = [] ∧ (s.fchain 0).access = some a ∧ a.item.secLevel = 0 ∧ a.item.instant = none ∧ a.queue < 0x1000 ∧ w.kind = 0 ∧ s.time.mono ≤ w.t0 + s.kept.front.cal.lateAllow * 1000 ∧ chipWindow s 34 = true ∧ (s.unit 34).busyUntil ≤ s.time.mono) ∧
    -- OBSTRUCTION_END of any field frame that waits and may go on, its key present and its counter not exhausted: it starts
    (∃ (chain : Nat) (w : RadioTx) (a : FieldAccess) (s y z : State) (m : FieldTx) (ch : Nat), y = obstructionOver (34 + chain) s ∧ z = { y with front.waiting := Map.erase y.front.waiting (34 + chain) } ∧ m = (claimFrame a z).1.item ∧ ch = chanKey m.band m.channel ∧ alive s = true ∧ chain < 2 ∧ Map.get? s.front.waiting (34 + chain) = some w ∧ waitOk y (34 + chain) w.chains = true ∧ y.time.mono ≤ w.t0 + allowance y w.kind ∧ y.time.mono ≤ lastStart y (34 + chain) ∧ (z.fchain chain).access = some a ∧ mayAccess z chain a = true ∧ a.limit.all (fun l => decide (z.time.mono ≤ l)) = true ∧ (m.secLevel = 0 ∨ (m.key.bind (fieldKey z)).any (fun e => m.fc.isSome || decide (e.txPn + 1 < 0xFFFFFFFF)) = true)) ∧
    -- LATE_ALLOWANCE_EXPIRY of a wide exchange that is still obstructed: it goes back, with no completion
    (∃ (w : RadioTx) (s : State), alive s = true ∧ s.front.waiting = [(32, w)] ∧ (s.wr 0).waiting = none ∧ w.kind = 0 ∧ synthReady s 0 = false ∧ (s.synth 0).state = .off ∧ s.time.mono + 950000 - s.phase < w.t0 + s.kept.front.cal.lateAllow * 1000) ∧
    -- PA_TIMEOUT: a wide transmission that no exchange holds is cut
    (∃ (x : RadioTx) (ch slots : Nat) (s : State), alive s = true ∧ Map.get? s.front.tx 32 = some x ∧ x.kind ≠ 3 ∧ hasBit x.chains ch = true ∧ (pinCfg s 32 ch).paFitted = true ∧ x.t0 - 25 * (pinCfg s 32 ch).paLead + 6000000 < x.t1 + 25 * (pinCfg s 32 ch).paLag ∧ (s.wr 0).responding = false ∧ (s.wr 0).exchange = none) ∧
    -- PA_TIMEOUT of any radio's transmission but a test: it is cut, and the flag is set
    (∃ (src ch slots lim : Nat) (x : RadioTx) (s : State), lim = x.t0 - 25 * (pinCfg s src ch).paLead + (if 34 ≤ src then 14000000 else 6000000) ∧ alive s = true ∧ 32 ≤ src ∧ src ≤ 35 ∧ Map.get? s.front.tx src = some x ∧ x.kind ≠ 3 ∧ x.t0 < s.time.mono ∧ hasBit x.chains ch = true ∧ (pinCfg s src ch).paFitted = true ∧ lim < x.t1 + 25 * (pinCfg s src ch).paLag) ∧
    -- BYP_RISE
    (∃ (src ch : Nat) (lv : Int) (s : State), alive s = true ∧ (pinCfg s src ch).bypMode = 1 ∧ chainPowered s src ch = true ∧ (pinCfg s src ch).bypOn < lv ∧ (4 * src + ch) ∉ s.front.byp) ∧
    -- BYP_FALL
    (∃ (src ch : Nat) (lv : Int) (s : State), alive s = true ∧ (pinCfg s src ch).bypMode = 1 ∧ (4 * src + ch) ∈ s.front.byp ∧ lv ≤ (pinCfg s src ch).bypOn - 6 ∧ chainBusy s src = false) := by
  and_intros
  · exact ⟨4, { up with front.synths := up.front.synths.set 4 { state := .settling } }, by decide +kernel⟩
  · exact ⟨0, { up with front.synths := up.front.synths.set 2 { state := .locked } }, by decide +kernel⟩
  · exact ⟨4, 0, { up with front.synths := up.front.synths.set 4 { state := .locked } }, by decide +kernel⟩
  · exact ⟨{ t0 := 0, t1 := 0 }, { item := {}, queued := some { payload := .field {}, charge := 20 }, queue := 0, stage := 2 }, _, updFchain 0 (fun c => { c with access := some { item := {}, queued := some { payload := .field {}, charge := 20 }, queue := 0, stage := 2 } }) (at' 20000 { up with front.synths := up.front.synths.set 3 { state := .locked }, front.waiting := [(34, { t0 := 0, t1 := 0 })] }), rfl, by decide +kernel⟩
  · exact ⟨0, { t0 := 0, t1 := 0 }, { item := {}, queued := some { payload := .field {}, charge := 20 }, queue := 0, stage := 2 }, updFchain 0 (fun c => { c with access := some { item := {}, queued := some { payload := .field {}, charge := 20 }, queue := 0, stage := 2 } }) (at' 20000 { up with front.synths := up.front.synths.set 3 { state := .locked }, front.waiting := [(34, { t0 := 0, t1 := 0 })] }), _, _, _, _, rfl, rfl, rfl, rfl, by decide +kernel⟩
  · exact ⟨{ t0 := 0, t1 := 0 }, { up with front.waiting := [(32, { t0 := 0, t1 := 0 })] }, by decide +kernel⟩
  · exact ⟨{ t0 := 0, t1 := 6000000 }, 0, 0, { up with front.tx := [(32, { t0 := 0, t1 := 6000000 })] }, by decide +kernel⟩
  · exact ⟨32, 0, 0, _, { t0 := 0, t1 := 6000000 }, at' 1 { up with front.tx := [(32, { t0 := 0, t1 := 6000000 })] }, rfl, by decide +kernel⟩
  · exact ⟨34, 0, -24, { up with kept.front.pins := [(136, { bypMode := 1 })], kept.field.config.f24 := true }, by decide +kernel⟩
  · exact ⟨34, 0, -31, { up with kept.front.pins := [(136, { bypMode := 1 })], front.byp := [136] }, by decide +kernel⟩

theorem test_hypotheses_CoexistenceAndCalibrationEvents :
    -- COEX_REQ_RISE of a port in PTA mode
    (∃ (n : Nat) (p : Bool) (s : State), alive s = true ∧ n < 2 ∧ (coexCfg s n).mode = 1 ∧ (s.coexPort n).req = false) ∧
    -- COEX_REQ_RISE of a port in another mode, or already high: nothing
    (∃ (n : Nat) (p : Bool) (s : State), alive s = true ∧ n < 2 ∧ ((coexCfg s n).mode ≠ 1 ∨ (s.coexPort n).req = true)) ∧
    -- COEX_GRANT of a request that R291 lets through: GNT rises; under a shared aerial the radios that the port serves are blanked
    (∃ (n : Nat) (v s : State), v = { s with outbox := [.pinAt "COEX_GNT" n true s.time.mono], front.counts := tally s.front.counts 4652, front.coex := Bank.modify s.front.coex n (fun x => { x with pending := none, granted := some s.time.mono }) } ∧ alive s = true ∧ n < 2 ∧ (coexCfg s n).mode = 1 ∧ (s.coexPort n).pending.isSome = true ∧ (s.coexPort n).granted = none ∧ (s.coexPort n).cooling = false ∧ unitUp s 36 = true ∧ s.power.mode ≠ .dormant ∧ s.power.mode ≠ .recovery ∧ coexFree s n = true) ∧
    -- COEX_REQ_FALL of a granted port: GNT falls
    (∃ (n : Nat) (s : State), alive s = true ∧ n < 2 ∧ (coexCfg s n).mode = 1 ∧ (s.coexPort n).req = true ∧ (s.coexPort n).granted.isSome = true) ∧
    -- COEX_REQ_FALL of a port without a grant: its request is withdrawn
    (∃ (n : Nat) (s : State), alive s = true ∧ n < 2 ∧ (coexCfg s n).mode = 1 ∧ (s.coexPort n).req = true ∧ (s.coexPort n).granted = none) ∧
    -- COEX_REVOKE at MAX_HOLD: GNT falls, the port must cool down, counted and reported
    (∃ (n g : Nat) (v s : State), v = advanceMono (g + 1000 * (coexCfg s n).maxHold) s ∧ alive s = true ∧ n < 2 ∧ (s.coexPort n).granted = some g) ∧
    -- COEX_COOL_END, REQ low: the port may be granted again
    (∃ (n : Nat) (s : State), alive s = true ∧ n < 2 ∧ (s.coexPort n).cooling = true ∧ (s.coexPort n).req = false) ∧
    -- COEX_BLANK_RISE of a port in BLANK mode: every radio it serves is blanked, a reception past its SFD or L-SIG ending so
    (∃ (n : Nat) (s : State), alive s = true ∧ n < 2 ∧ (coexCfg s n).mode = 2 ∧ (s.coexPort n).req = false) ∧
    -- COEX_BLANK_RISE of a port that serves FSG, nothing received there: only the port changes
    (∃ (n : Nat) (s : State), alive s = true ∧ n < 2 ∧ (coexCfg s n).mode = 2 ∧ (coexCfg s n).radios = 8 ∧ (s.coexPort n).req = false ∧ s.field.rx = []) ∧
    -- COEX_BLANK_FALL: the blank of every radio it serves ends 1 µs later
    (∃ (n : Nat) (s : State), alive s = true ∧ n < 2 ∧ (coexCfg s n).mode = 2 ∧ (s.coexPort n).req = true) ∧
    -- COEX_HOLD_RISE
    (∃ (n : Nat) (s : State), alive s = true ∧ n < 2 ∧ (coexCfg s n).mode = 2 ∧ (s.coexPort n).pri = false) ∧
    -- COEX_HOLD_FALL
    (∃ (n : Nat) (s : State), alive s = true ∧ n < 2 ∧ (coexCfg s n).mode = 2) ∧
    -- CAL_STEP_START on a port, the crystal or the converter of no radio: at any time from 20 µs on; its commands pass their point of commitment
    (∃ (id k u : Nat) (x : CalRun) (s : State), alive s = true ∧ calRunOf s (calKey id k u 0) = some x ∧ x.id = id ∧ x.target = k ∧ s.time.settling = false ∧ s.overrunning 3 = false ∧ calUp s = true ∧ x.running = false ∧ x.ready = none ∧ x.staleAt = none ∧ id ≠ 9 ∧ x.stepsDone < x.steps ∧ id ≠ 7 ∧ id ≠ 10 ∧ (k < 32 ∨ 35 < k) ∧ 20000 ≤ s.phase) ∧
    -- CAL_STEP_START on a radio, in its window and with nothing in its way
    (∃ (id k u a b : Nat) (x : CalRun) (v s : State), v = advancePhase (a * 1000) s ∧ alive s = true ∧ calRunOf s (calKey id k u 0) = some x ∧ x.id = id ∧ x.target = k ∧ s.time.settling = false ∧ s.overrunning 3 = false ∧ calUp s = true ∧ x.running = false ∧ x.ready = none ∧ x.staleAt = none ∧ id ≠ 9 ∧ x.stepsDone < x.steps ∧ 32 ≤ k ∧ k ≤ 35 ∧ calWindow s id k u = some (a, b) ∧ s.phase < b * 1000 ∧ stepBlocked v k = false ∧ (assumesQuiet id k = false ∨ quietDeferred v k = false) ∧ v.phase + 40000 ≤ b * 1000) ∧
    -- CAL_STEP_START on a metering channel, just after a sample that no capture covers
    (∃ (u k : Nat) (x : CalRun) (s : State), alive s = true ∧ calRunOf s (calKey 10 k u 0) = some x ∧ x.id = 10 ∧ x.target = k ∧ s.time.settling = false ∧ s.overrunning 3 = false ∧ calUp s = true ∧ x.running = false ∧ x.ready = none ∧ x.staleAt = none ∧ x.stepsDone < x.steps ∧ (k < 32 ∨ 35 < k) ∧ 20000 ≤ s.phase ∧ sampled s s.beat = true ∧ s.phase % samplePeriod (meterCfg s).rate < 40000 ∧ s.pole.gather = none ∧ firesOf s s.beat = []) ∧
    -- CAL_STEP_END of a step that is not the last
    (∃ (id k u : Nat) (x : CalRun) (f : CalFacts) (v s : State), v = jobEnded 3 (min f.dur 40000) (advanceMono (x.since + min f.dur 40000) s) ∧ alive s = true ∧ s.front.runs.find? (fun x => decide (x.id = id) && decide (x.target = k) && decide (x.sub = u) && x.running) = some x ∧ (id ≠ 3 ∨ f.lowMargin = false) ∧ k ≠ 34 ∧ (assumesQuiet id k = false ∨ f.energy < quietLimit v k) ∧ x.stepsDone + 1 < x.steps) ∧
    -- CAL_STEP_END of the last step, its result plausible: it waits for its commit window
    (∃ (id k u : Nat) (x : CalRun) (f : CalFacts) (v s : State), v = jobEnded 3 (min f.dur 40000) (advanceMono (x.since + min f.dur 40000) s) ∧ alive s = true ∧ s.front.runs.find? (fun x => decide (x.id = id) && decide (x.target = k) && decide (x.sub = u) && x.running) = some x ∧ (id ≠ 3 ∨ f.lowMargin = false) ∧ k ≠ 34 ∧ (assumesQuiet id k = false ∨ f.energy < quietLimit v k) ∧ x.stepsDone + 1 = x.steps ∧ f.atEnd = false ∧ implausible x (calResult v x.key) f.codes f.diffs = false) ∧
    -- CAL_STEP_END of a step that assumes a quiet input, the input not quiet: the attempt fails
    (∃ (id k u : Nat) (x : CalRun) (f : CalFacts) (v s : State), v = jobEnded 3 (min f.dur 40000) (advanceMono (x.since + min f.dur 40000) s) ∧ alive s = true ∧ s.front.runs.find? (fun x => decide (x.id = id) && decide (x.target = k) && decide (x.sub = u) && x.running) = some x ∧ (id ≠ 3 ∨ f.lowMargin = false) ∧ k ≠ 34 ∧ assumesQuiet id k = true ∧ quietLimit v k ≤ f.energy) ∧
    -- STALE_RETRY_EXPIRY: a new run at the retry's beat
    (∃ (id k u : Nat) (s : State), alive s = true ∧ calUp s = true ∧ calRunOf s (calKey id k u 0) = none ∧ (calNote s (calUse s id k u)).stale.isSome = true ∧ (calNote s (calUse s id k u)).retryBeat ≠ 0) ∧
    -- STALE_RETRY_EXPIRY on the crystal, nothing else under way: one run, counted
    (∃ (s : State), alive s = true ∧ calUp s = true ∧ s.front.runs = [] ∧ (calNote s (calKey 4 3 0 0)).stale.isSome = true ∧ (calNote s (calKey 4 3 0 0)).retryBeat ≠ 0) := by
  and_intros
  · exact ⟨1, true, { up with kept.front.coex := [(1, { mode := 1 })] }, by decide +kernel⟩
  · exact ⟨1, false, { up with kept.front.coex := [(1, { mode := 2 })] }, by decide +kernel⟩
  · exact ⟨1, _, updCoex 1 (fun c => { c with req := true, pri := true, pending := some 0 }) { up with kept.front.coex := [(1, { mode := 1, shared := true, radios := 8 })] }, rfl, by decide +kernel⟩
  · exact ⟨1, updCoex 1 (fun c => { c with req := true, granted := some 0 }) { up with kept.front.coex := [(1, { mode := 1 })] }, by decide +kernel⟩
  · exact ⟨1, updCoex 1 (fun c => { c with req := true, pending := some 0 }) { up with kept.front.coex := [(1, { mode := 1 })] }, by decide +kernel⟩
  · exact ⟨1, 0, _, updCoex 1 (fun c => { c with granted := some 0 }) { up with kept.front.coex := [(1, { mode := 1 })] }, rfl, by decide +kernel⟩
  · exact ⟨1, updCoex 1 (fun c => { c with cooling := true }) { up with kept.front.coex := [(1, { mode := 1 })] }, by decide +kernel⟩
  · exact ⟨1, { up with kept.front.coex := [(1, { mode := 2, radios := 15 })] }, by decide +kernel⟩
  · exact ⟨1, { up with kept.front.coex := [(1, { mode := 2, radios := 8 })] }, by decide +kernel⟩
  · exact ⟨1, updCoex 1 (fun c => { c with req := true }) { up with kept.front.coex := [(1, { mode := 2, radios := 15 })] }, by decide +kernel⟩
  · exact ⟨1, { up with kept.front.coex := [(1, { mode := 2 })] }, by decide +kernel⟩
  · exact ⟨1, { up with kept.front.coex := [(1, { mode := 2 })] }, by decide +kernel⟩
  · exact ⟨4, 3, 0, { id := 4, target := 3, sub := 0 }, at' 20000 { up with front.runs := [{ id := 4, target := 3, sub := 0 }] }, by decide +kernel⟩
  · exact ⟨1, 32, 0, 20, 80, { id := 1, target := 32, sub := 0 }, _, at' 20000 { up with front.runs := [{ id := 1, target := 32, sub := 0 }], plan.inForce := [(0, { entries := [{ kind := 11, start := 20, dur := 60, arg := 1 }] })] }, rfl, by decide +kernel⟩
  · exact ⟨0, 37, { id := 10, target := 37, sub := 0, steps := 2 }, at' 20000 { up with front.runs := [{ id := 10, target := 37, sub := 0, steps := 2 }], kept.pole.meter.enable := true, pole.trigCh := some 15, time.triggers := Bank.modify up.time.triggers 15 (fun t => { t with armed := true }) }, by decide +kernel⟩
  · exact ⟨10, 37, 0, { id := 10, target := 37, sub := 0, steps := 2, running := true }, {}, _, { up with front.runs := [{ id := 10, target := 37, sub := 0, steps := 2, running := true }] }, rfl, by decide +kernel⟩
  · exact ⟨4, 3, 0, { id := 4, target := 3, sub := 0, running := true }, {}, _, { up with front.runs := [{ id := 4, target := 3, sub := 0, running := true }] }, rfl, by decide +kernel⟩
  · exact ⟨1, 32, 0, { id := 1, target := 32, sub := 0, running := true }, { energy := 0 }, _, { up with front.runs := [{ id := 1, target := 32, sub := 0, running := true }] }, rfl, by decide +kernel⟩
  · exact ⟨4, 3, 0, { up with front.notes := [(calKey 4 3 0 0, { stale := some 0, retryBeat := 1 })] }, by decide +kernel⟩
  · exact ⟨{ up with front.notes := [(calKey 4 3 0 0, { stale := some 0, retryBeat := 1 })] }, by decide +kernel⟩

theorem test_hypotheses_PlannerCommandsComplete :
    -- PLAN_QUEUE_SET of one queue that is no child queue, before 500 µs
    (∃ (c : Cmd) (s : State), readyFor c s = true ∧ goodTable [fAny 16 2, fAny 18 2, fAny 20 1, fMask 21 1 1, fRange 22 2 1 65535, fAny 24 2, fRange 26 1 0 100, fAny 27 1] c = true ∧ queueValid (c.u 16 2) = true ∧ c.u 18 2 = c.u 16 2 ∧ childQueue (c.u 16 2) = false ∧ c.u 20 1 = 0xFF ∧ c.u 24 2 ≠ 0 ∧ s.phase < 500000 ∧ s.plan.late = none) ∧
    -- PLAN_QUEUE_SET of any range of queues of one kind, child queues included, before 500 µs
    (∃ (c : Cmd) (g : QueueSet) (s : State), g = { cls := c.u 20 1, eventHold := c.flag 21 1 0, weight := c.u 22 2, limitKb := c.u 24 2, yellowPct := c.u 26 1, event := c.u 27 1 } ∧ readyFor c s = true ∧ goodTable [fAny 16 2, fAny 18 2, fAny 20 1, fMask 21 1 1, fRange 22 2 1 65535, fAny 24 2, fRange 26 1 0 100, fAny 27 1] c = true ∧ queueValid (c.u 16 2) = true ∧ queueValid (c.u 18 2) = true ∧ queueRange (c.u 16 2) = queueRange (c.u 18 2) ∧ c.u 16 2 ≤ c.u 18 2 ∧ (if childQueue (c.u 16 2) then decide (c.u 20 1 ≤ 7) else decide (c.u 20 1 = 0xFF) && decide (c.u 24 2 ≠ 0)) = true ∧ s.phase < 500000 ∧ s.plan.late = none) ∧
    -- PLAN_QUEUE_SET of the same queue after 500 µs: one window later
    (∃ (c : Cmd) (s : State), readyFor c s = true ∧ goodTable [fAny 16 2, fAny 18 2, fAny 20 1, fMask 21 1 1, fRange 22 2 1 65535, fAny 24 2, fRange 26 1 0 100, fAny 27 1] c = true ∧ queueValid (c.u 16 2) = true ∧ c.u 18 2 = c.u 16 2 ∧ childQueue (c.u 16 2) = false ∧ c.u 20 1 = 0xFF ∧ c.u 24 2 ≠ 0 ∧ 500000 ≤ s.phase ∧ s.plan.late = none) ∧
    -- PLAN_CLASS_SET of a class of a radio
    (∃ (c : Cmd) (s : State), readyFor c s = true ∧ goodTable [fRange 16 1 0 27, fRange 17 1 0 8, fMask 18 1 1, fRange 19 1 0 16, fRange 20 4 64 100000000, fRange 24 4 1600 16777215] c = true ∧ c.u 16 1 = 24 ∧ c.u 17 1 ≤ 7 ∧ s.phase < 500000 ∧ s.plan.late = none) ∧
    -- PLAN_CLASS_SET of class 8 of a wired egress: BAD_ARG
    (∃ (c : Cmd) (s : State), readyFor c s = true ∧ goodTable [fRange 16 1 0 27, fRange 17 1 0 8, fMask 18 1 1, fRange 19 1 0 16, fRange 20 4 64 100000000, fRange 24 4 1600 16777215] c = true ∧ c.u 16 1 < 24 ∧ c.u 17 1 = 8) ∧
    -- PLAN_POLICER_SET of a policer that is bound to nothing
    (∃ (c : Cmd) (s : State), readyFor c s = true ∧ goodTable [fRange 16 2 0 1023, fMask 18 1 3, fMask 19 1 0x3F, fRange 20 1 0 2, fRange 21 1 0 7, fAny 22 2, fRange 24 4 0 100000000, fRange 28 4 0 100000000, fRange 32 4 1536 16777215, fRange 36 4 1536 16777215] c = true ∧ c.u 19 1 % 4 ≠ 3 ∧ c.u 19 1 / 4 % 4 ≠ 3 ∧ c.u 19 1 / 16 % 4 ≠ 3 ∧ c.u 20 1 = 0 ∧ c.u 24 4 ≤ c.u 28 4 ∧ s.next.plan.policers = [] ∧ s.phase < 500000 ∧ s.plan.late = none) ∧
    -- PLAN_POLICER_SET of any policer, bound or not: an older binding to the same port or client ends
    (∃ (c : Cmd) (g : PolicerSet) (s : State), g = { enable := c.flag 18 1 0, aware := c.flag 18 1 1, actions := c.u 19 1, bindKind := c.u 20 1, reclass := c.u 21 1, bind := c.u 22 2, cir := c.u 24 4, pir := c.u 28 4, cbs := c.u 32 4, pbs := c.u 36 4 } ∧ readyFor c s = true ∧ goodTable [fRange 16 2 0 1023, fMask 18 1 3, fMask 19 1 0x3F, fRange 20 1 0 2, fRange 21 1 0 7, fAny 22 2, fRange 24 4 0 100000000, fRange 28 4 0 100000000, fRange 32 4 1536 16777215, fRange 36 4 1536 16777215] c = true ∧ c.u 19 1 % 4 ≠ 3 ∧ c.u 19 1 / 4 % 4 ≠ 3 ∧ c.u 19 1 / 16 % 4 ≠ 3 ∧ (c.u 20 1 = 1 → c.u 22 2 ≤ 23) ∧ (c.u 20 1 = 2 → c.u 22 2 ≤ 4095) ∧ c.u 24 4 ≤ c.u 28 4 ∧ s.phase < 500000 ∧ s.plan.late = none) ∧
    -- PLAN_GATE_SET that removes a list, at the first allowed beat: it waits for that beat
    (∃ (c : Cmd) (s : State), readyFor c s = true ∧ goodTable [fRange 16 1 0 23, fMask 17 1 1, fAny 18 2, fAny 20 4, fAny 24 8] c = true ∧ c.flag 17 1 0 = false ∧ c.u 24 8 = 0 ∧ gateList s (c.u 16 1) = none ∧ s.stw.jobs = []) ∧
    -- PLAN_GATE_SET of a list from the bulk region
    (∃ (c : Cmd) (g : GateList) (s : State), readyFor c s = true ∧ goodTable [fRange 16 1 0 23, fMask 17 1 1, fAny 18 2, fAny 20 4, fAny 24 8] c = true ∧ c.flag 17 1 0 = true ∧ c.u 24 8 = 0 ∧ (gateOf c (taken 0x0704 c s)).toOption = some g) ∧
    -- PLAN_MASK_SET of both masks of a radio that no city service holds
    (∃ (c : Cmd) (s : State), readyFor c s = true ∧ goodTable [fRange 16 1 0 1, fMask 17 1 3, fZero 18 6, fAny 24 8, fAny 32 32, fAny 64 32] c = true ∧ s.plan.cityMasks = [] ∧ c.flag 17 1 0 = true ∧ c.flag 17 1 1 = true ∧ c.u 24 8 = 0) ∧
    -- PLAN_MASK_SET of a radio whose masks the city service holds: DENIED to the Steward
    (∃ (c : Cmd) (s : State), readyFor c s = true ∧ goodTable [fRange 16 1 0 1, fMask 17 1 3, fZero 18 6, fAny 24 8, fAny 32 32, fAny 64 32] c = true ∧ s.plan.cityMasks = [1] ∧ c.u 16 1 = 1) ∧
    -- PLAN_AIR_CONFIG of a radio, before 500 µs
    (∃ (c : Cmd) (s : State), readyFor c s = true ∧ goodTable [fRange 16 1 0 2, fAny 17 1, fRange 18 1 1 255, fAny 19 1, fAny 20 4, fRange 24 2 1 256, fRange 26 2 20 900, fRange 28 2 0 500, fAny 30 2] c = true ∧ c.u 16 1 = 0 ∧ c.u 17 1 ≤ 3 ∧ 1 ≤ c.u 19 1 ∧ c.u 19 1 ≤ 64 ∧ 16384 ≤ c.u 20 4 ∧ c.u 20 4 ≤ 16777215 ∧ c.u 26 2 + c.u 28 2 ≤ 950 ∧ c.u 30 2 ≤ 930 ∧ s.phase < 500000 ∧ s.plan.late = none) ∧
    -- PLAN_AIR_CONFIG of the field radios: only the four window fields apply
    (∃ (c : Cmd) (s : State), readyFor c s = true ∧ goodTable [fRange 16 1 0 2, fAny 17 1, fRange 18 1 1 255, fAny 19 1, fAny 20 4, fRange 24 2 1 256, fRange 26 2 20 900, fRange 28 2 0 500, fAny 30 2] c = true ∧ c.u 16 1 = 2 ∧ c.u 26 2 + c.u 28 2 ≤ 950 ∧ s.phase < 500000 ∧ s.plan.late = none) ∧
    -- PLAN_AIR_READ of the plan in force
    (∃ (c : Cmd) (p : AirPlan) (b : List Byte) (s : State), p = Map.getD s.plan.inForce (c.u 16 1) {} ∧ b = (p.entries.map PlanEntry.bytes).flatten ∧ readyFor c s = true ∧ goodTable [fRange 16 1 0 2, fRange 17 1 0 1, fZero 18 2] c = true ∧ hasBit c.flags 0 = true ∧ 512 ≤ c.bulkLen ∧ c.u 17 1 = 0) ∧
    -- PLAN_QUEUE_GET of an empty queue
    (∃ (c : Cmd) (s : State), readyFor c s = true ∧ goodTable [fAny 16 2, fZero 18 2] c = true ∧ queueValid (c.u 16 2) = true ∧ (s.queue (c.u 16 2)).frames = []) ∧
    -- PLAN_QUEUE_GET of any queue: its settings, its bytes and frames, its tags, its drops, the beat in which its head was first seen
    (∃ (c : Cmd) (g : QueueSet) (p : PQueue) (s : State), g = queueSet s (c.u 16 2) ∧ p = s.queue (c.u 16 2) ∧ readyFor c s = true ∧ goodTable [fAny 16 2, fZero 18 2] c = true ∧ queueValid (c.u 16 2) = true) ∧
    -- PLAN_COUNTERS of an egress, clearing it and both sticky bits
    (∃ (c : Cmd) (s : State), readyFor c s = true ∧ goodTable [fOneOf 16 1 (List.range 28 ++ [0xFE, 0xFF]), fMask 17 1 3, fAny 18 2, fMask 20 1 3, fZero 21 3] c = true ∧ c.u 16 1 = 5 ∧ c.u 17 1 = 3 ∧ c.u 20 1 = 3) := by
  and_intros
  · exact ⟨cmd [(2, 0), (2, 0), (1, 255), (1, 0), (2, 1), (2, 1), (1, 0), (1, 0)], ready, by decide +kernel⟩
  · exact ⟨cmd [(2, 8192), (2, 8194), (1, 3), (1, 0), (2, 1), (2, 0), (1, 0), (1, 0)], _, ready, rfl, by decide +kernel⟩
  · exact ⟨cmd [(2, 0), (2, 0), (1, 255), (1, 0), (2, 1), (2, 1), (1, 0), (1, 0)], at' 500000 ready, by decide +kernel⟩
  · exact ⟨cmd [(1, 24), (1, 0), (1, 0), (1, 0), (4, 64), (4, 1600)], ready, by decide +kernel⟩
  · exact ⟨cmd [(1, 0), (1, 8), (1, 0), (1, 0), (4, 64), (4, 1600)], ready, by decide +kernel⟩
  · exact ⟨cmd [(2, 0), (1, 0), (1, 0), (1, 0), (1, 0), (2, 0), (4, 0), (4, 0), (4, 1536), (4, 1536)], ready, by decide +kernel⟩
  · exact ⟨cmd [(2, 0), (1, 0), (1, 0), (1, 1), (1, 0), (2, 0), (4, 1), (4, 2), (4, 1536), (4, 1536)], _, ready, rfl, by decide +kernel⟩
  · exact ⟨cmd [(1, 0), (1, 0), (2, 0), (4, 0), (8, 0)], ready, by decide +kernel⟩
  · exact ⟨{ cmd [(1, 0), (1, 1), (2, 1), (4, 1), (8, 0)] with flags := 1, bulkLen := 4 }, { cycle := 1, entries := [(1, 1)] }, updLane 0 (fun l => { l with bulk := [(0, 1), (1, 16), (2, 0), (3, 0)] }) ready, by decide +kernel⟩
  · exact ⟨cmd [(1, 0), (1, 3), (6, 0), (8, 0), (32, 0), (32, 0)], ready, by decide +kernel⟩
  · exact ⟨cmd [(1, 1), (1, 0), (6, 0), (8, 0), (32, 0), (32, 0)], { ready with plan.cityMasks := [1] }, by decide +kernel⟩
  · exact ⟨cmd [(1, 0), (1, 0), (1, 1), (1, 1), (4, 16384), (2, 1), (2, 20), (2, 0), (2, 0)], ready, by decide +kernel⟩
  · exact ⟨cmd [(1, 2), (1, 0), (1, 1), (1, 0), (4, 0), (2, 1), (2, 20), (2, 0), (2, 0)], ready, by decide +kernel⟩
  · exact ⟨{ cmd [(1, 0), (1, 0), (2, 0)] with flags := 1, bulkLen := 512 }, _, _, ready, rfl, rfl, by decide +kernel⟩
  · exact ⟨cmd [(2, 0), (2, 0)], ready, by decide +kernel⟩
  · exact ⟨cmd [(2, 16133), (2, 0)], _, _, ready, rfl, rfl, by decide +kernel⟩
  · exact ⟨cmd [(1, 5), (1, 3), (2, 0), (1, 3), (3, 0)], ready, by decide +kernel⟩

theorem test_hypotheses_PlannerEventsTakeEffect :
    -- ENQUEUE of a field frame for the empty management queue of FSG
    (∃ (m : FieldTx) (vid tag : Nat) (s : State), tag = finishTag (s.classRun (classKey 26 8)).v 0 m.len (queueSet s 0x3F05).weight ∧ alive s = true ∧ dataPlane s = true ∧ s.plan.queues = [] ∧ s.kept.plan.gates = [] ∧ (queueSet s 0x3F05).eventHold = false ∧ m.len ≤ (queueSet s 0x3F05).limitKb * 1024 ∧ poolUsed s 1 + m.len ≤ poolBytes s 1 ∧ poolBytes s 1 ≤ (poolBytes s 1 - (poolUsed s 1 + m.len)) * 10) ∧
    -- ENQUEUE of a field frame for any child's queue or a management queue of the field radios, within its limit and its pool: it stands at the queue's end
    (∃ (q : Nat) (m : FieldTx) (vid : Nat) (s : State), alive s = true ∧ dataPlane s = true ∧ ((0x2000 ≤ q ∧ q ≤ 0x2BFF) ∨ q = 0x3F04 ∨ q = 0x3F05) ∧ m.wf = true ∧ (if childQueue q then decide ((s.queue q).frames.length < (Map.getD s.kept.field.children (q - 0x2000) {}).qdepth) else decide ((s.queue q).bytes + m.len ≤ (queueSet s q).limitKb * 1024)) = true ∧ poolUsed s 1 + m.len ≤ poolBytes s 1) ∧
    -- EGRESS_SELECT of a wired port that is free: the one frame that waits starts
    (∃ (e q : Nat) (ds : List RxDesc) (x : Queued) (f : Frame) (p : PQueue) (s : State), alive s = true ∧ e < 16 ∧ portFree s e = true ∧ (s.wport e).plca = 0 ∧ (s.wport e).retry = none ∧ (s.wport e).lpiTx = false ∧ (s.wport e).gapEnd ≤ s.time.mono ∧ s.time.acc < 2 ^ 96 ∧ unitUp s 4 = true ∧ s.plan.queues = [(q, p)] ∧ p.frames = [x] ∧ q ≤ 0xDF ∧ q / 8 = e ∧ x.held = false ∧ x.payload = .eth f ∧ x.tagged = false ∧ (classSet s (classKey e (q % 8))).shaped = false ∧ gateList s e = none) ∧
    -- EGRESS_SELECT of any wired port that is free, not in low-power idle and with no frame that waits for its back-off: the frame that the selection of R316 gives starts
    (∃ (e c q : Nat) (ds : List RxDesc) (x : Queued) (f : Frame) (s y : State), y = purgeEgress e (advanceMono (s.wport e).gapEnd s) ∧ alive s = true ∧ e < 24 ∧ portFree s e = true ∧ (tsPort e = false ∨ ((s.wport e).plca ≠ 1 ∧ (s.wport e).plca ≠ 2)) ∧ (s.wport e).retry = none ∧ (s.wport e).lpiTx = false ∧ (judge e (gateFits y e 0) y).2 = some (c, q, x) ∧ x.payload = .eth f) ∧
    -- GATE_ENTRY_CHANGE of a port whose link is down: time moves to the change, and nothing starts
    (∃ (e d : Nat) (s : State), alive s = true ∧ s.time.settling = false ∧ gateNext s e = some d ∧ (s.wport e).link ≠ 1) ∧
    -- GATE_ENTRY_CHANGE in the settling interval of a rebase, or of an egress without a gate list: nothing
    (∃ (e : Nat) (s : State), alive s = true ∧ (s.time.settling = true ∨ gateNext s e = none)) ∧
    -- SHAPER_CREDIT_ZERO of a class of a radio: time moves to the tick at which the credit is 0
    (∃ (c : Nat) (s : State), alive s = true ∧ (classSet s (classKey 24 c)).shaped = true ∧ (creditNow s (classKey 24 c)).1 < 0 ∧ (classSet s (classKey 24 c)).rateKbps ≠ 0) := by
  and_intros
  · exact ⟨{}, 1, _, up, rfl, by decide +kernel⟩
  · exact ⟨0x3F04, { len := 20 }, 0, up, by decide +kernel⟩
  · exact ⟨0, 0, [], { payload := .eth {}, charge := 64 }, {}, { frames := [{ payload := .eth {}, charge := 64 }] }, updPort 0 (fun p => { p with link := 1 }) { up with plan.queues := [(0, { frames := [{ payload := .eth {}, charge := 64 }] })] }, by decide +kernel⟩
  · exact ⟨0, 0, 0, [], { payload := .eth {}, charge := 64 }, {}, updPort 0 (fun p => { p with link := 1 }) { up with plan.queues := [(0, { frames := [{ payload := .eth {}, charge := 64 }] })] }, _, rfl, by decide +kernel⟩
  · exact ⟨15, 100000, { up with kept.plan.gates := [(15, { cycle := 100, entries := [(1, 100)] })] }, by decide +kernel⟩
  · exact ⟨0, up, by decide +kernel⟩
  · exact ⟨0, { up with kept.plan.classes := [(classKey 24 0, { shaped := true })], plan.classes := [(classKey 24 0, { credit := -1 })] }, by decide +kernel⟩

theorem test_hypotheses_WiredPortEvents :
    -- LINK_UP of a port whose mode is set
    (∃ (e w : Nat) (half : Bool) (g : WPortCfg) (s : State), alive s = true ∧ e < 24 ∧ wiredOn s = true ∧ unitUp s (8 + e) = true ∧ portCfg s e = g ∧ g.mode ≠ 0 ∧ g.mode ≠ 4 ∧ (s.wport e).link = 0) ∧
    -- LINK_DOWN of a port that holds no frame, nothing queued: the link is down, the learned entries that point to the port go, WIRED_LINK is raised
    (∃ (e : Nat) (s : State), alive s = true ∧ e < 24 ∧ (s.wport e).link = 1 ∧ (s.wport e).tx = none ∧ (s.wport e).retry = none ∧ (s.wport e).rx = none ∧ s.plan.queues = []) ∧
    -- LINK_DOWN of any port whose link is up: what it sent, received and queued is dropped
    (∃ (e : Nat) (s : State), alive s = true ∧ e < 24 ∧ (s.wport e).link = 1) ∧
    -- MDIO_POLL, 100 beats after the last
    (∃ (s : State), alive s = true ∧ wiredOn s = true ∧ coresRun s = true ∧ s.wired.mdioPollBeat + 100 ≤ s.beat) ∧
    -- PLCA_BEACON_RX of a follower that had fallen back: it follows again
    (∃ (e : Nat) (s : State), alive s = true ∧ (s.wport e).link = 1 ∧ (s.wport e).plca = 3) ∧
    -- PLCA_FALLBACK, 4,000 bit times after the last BEACON
    (∃ (e : Nat) (s : State), alive s = true ∧ (s.wport e).link = 1 ∧ (s.wport e).plca = 2 ∧ (s.wport e).beaconAt + bitsNs s e 4000 ≤ s.time.mono ∧ s.time.acc < 2 ^ 96) ∧
    -- TRANSMIT_OPPORTUNITY of a node with one frame: it starts
    (∃ (e q : Nat) (x : Queued) (f : Frame) (p : PQueue) (s : State), alive s = true ∧ tsPort e = true ∧ portFree s e = true ∧ (s.wport e).plca = 2 ∧ (s.wport e).retry = none ∧ (s.wport e).lpiTx = false ∧ unitUp s 4 = true ∧ s.plan.queues = [(q, p)] ∧ p.frames = [x] ∧ q ≤ 0xDF ∧ q / 8 = e ∧ x.held = false ∧ x.payload = .eth f ∧ x.tagged = false ∧ (classSet s (classKey e (q % 8))).shaped = false ∧ gateList s e = none) ∧
    -- TRANSMIT_OPPORTUNITY of any node that is free: the frame that the selection of R316 gives starts
    (∃ (e c q : Nat) (x : Queued) (f : Frame) (s y : State), y = purgeEgress e (updPort e (fun p => { p with extraSent := 0, burstUntil := none }) s) ∧ alive s = true ∧ tsPort e = true ∧ portFree s e = true ∧ ((s.wport e).plca = 1 ∨ (s.wport e).plca = 2) ∧ (s.wport e).retry = none ∧ (s.wport e).lpiTx = false ∧ (judge e (gateFits y e 0) y).2 = some (c, q, x) ∧ x.payload = .eth f) ∧
    -- COLLISION without PLCA, within the first 512 bit times and before the sixteenth attempt: a back-off
    (∃ (e bits slots : Nat) (x : WiredTx) (s : State), alive s = true ∧ tsPort e = true ∧ (s.wport e).tx = some x ∧ (s.wport e).plca = 0 ∧ (s.wport e).attempts < 15 ∧ bits ≤ 512 ∧ x.startNs + bitsNs s e bits ≤ s.time.mono ∧ s.time.acc < 2 ^ 96 ∧ s.kept.wired.ports.all (fun y => !y.2.pauseTx) = true) ∧
    -- COLLISION, the sixteenth: the frame is discarded and counted
    (∃ (e bits slots : Nat) (x : WiredTx) (s : State), alive s = true ∧ tsPort e = true ∧ (s.wport e).tx = some x ∧ (s.wport e).plca = 0 ∧ (s.wport e).attempts = 15 ∧ bits ≤ 512 ∧ x.startNs + bitsNs s e bits ≤ s.time.mono ∧ s.time.acc < 2 ^ 96 ∧ s.kept.wired.ports.all (fun y => !y.2.pauseTx) = true ∧ x.item.pool = 0 ∧ x.item.cells = none) ∧
    -- COLLISION of any frame on a TS port, with PLCA or without: it is off the wire
    (∃ (e bits slots : Nat) (x : WiredTx) (s : State), alive s = true ∧ tsPort e = true ∧ (s.wport e).tx = some x) ∧
    -- CSMA_BACKOFF_END: the frame starts again
    (∃ (e : Nat) (x : WiredTx) (f : Frame) (s : State), alive s = true ∧ portFree s e = true ∧ (s.wport e).retry = some x ∧ (s.wport e).plca = 0 ∧ (s.wport e).gapEnd ≤ s.time.mono ∧ s.time.acc < 2 ^ 96 ∧ x.item.payload = .eth f ∧ x.item.tagged = false) := by
  and_intros
  · exact ⟨0, 1, false, { mode := 2 }, { up with kept.wired.ports := [(0, { mode := 2 })] }, by decide +kernel⟩
  · exact ⟨23, updPort 23 (fun p => { p with link := 1 }) up, by decide +kernel⟩
  · exact ⟨23, updPort 23 (fun p => { p with link := 1 }) up, by decide +kernel⟩
  · exact ⟨at' 100000000 up, by decide +kernel⟩
  · exact ⟨16, updPort 16 (fun p => { p with link := 1, plca := 3 }) up, by decide +kernel⟩
  · exact ⟨16, updPort 16 (fun p => { p with link := 1, plca := 2 }) (at' 1000000000 up), by decide +kernel⟩
  · exact ⟨16, 128, { payload := .eth {}, charge := 64 }, {}, { frames := [{ payload := .eth {}, charge := 64 }] }, updPort 16 (fun p => { p with link := 1, plca := 2 }) { up with plan.queues := [(128, { frames := [{ payload := .eth {}, charge := 64 }] })] }, by decide +kernel⟩
  · exact ⟨16, 0, 128, { payload := .eth {}, charge := 64 }, {}, updPort 16 (fun p => { p with link := 1, plca := 2 }) { up with plan.queues := [(128, { frames := [{ payload := .eth {}, charge := 64 }] })] }, _, rfl, by decide +kernel⟩
  · exact ⟨23, 512, 0, { item := { payload := .eth {}, charge := 64 }, startNs := 0, endNs := 0, stamp := {} }, updPort 23 (fun p => { p with tx := some { item := { payload := .eth {}, charge := 64 }, startNs := 0, endNs := 0, stamp := {} }, attempts := 14 }) (at' 1000000000 up), by decide +kernel⟩
  · exact ⟨23, 512, 0, { item := { payload := .eth {}, charge := 64 }, startNs := 0, endNs := 0, stamp := {} }, updPort 23 (fun p => { p with tx := some { item := { payload := .eth {}, charge := 64 }, startNs := 0, endNs := 0, stamp := {} }, attempts := 15 }) (at' 1000000000 up), by decide +kernel⟩
  · exact ⟨23, 512, 0, { item := { payload := .eth {}, charge := 64 }, startNs := 0, endNs := 0, stamp := {} }, updPort 23 (fun p => { p with tx := some { item := { payload := .eth {}, charge := 64 }, startNs := 0, endNs := 0, stamp := {} }, attempts := 15 }) (at' 1000000000 up), by decide +kernel⟩
  · exact ⟨23, { item := { payload := .eth {}, charge := 64 }, startNs := 0, endNs := 0, stamp := {} }, {}, updPort 23 (fun p => { p with link := 1, retry := some { item := { payload := .eth {}, charge := 64 }, startNs := 0, endNs := 0, stamp := {} } }) up, by decide +kernel⟩

theorem test_hypotheses_WiredFrameEvents :
    -- RX_CELL_CLAIM while the port's reserve has a cell
    (∃ (e : Nat) (s : State), alive s = true ∧ e < 24 ∧ wiredOn s = true ∧ (s.wport e).link = 1 ∧ (s.wport e).rx = none ∧ claimSplit s e 1 = some (1, 0) ∧ s.kept.wired.ports.all (fun y => !y.2.pauseTx) = true) ∧
    -- RX_CELL_CLAIM of any port on which a frame begins, while its reserve or the shared pool has a cell: the frame has it
    (∃ (e r k : Nat) (s : State), alive s = true ∧ e < 24 ∧ wiredOn s = true ∧ (s.wport e).link = 1 ∧ (s.wport e).rx = none ∧ claimSplit s e 1 = some (r, k)) ∧
    -- WIRED_FRAME_RX of a runt
    (∃ (e : Nat) (w : WiredRx) (s : State), alive s = true ∧ e < 24 ∧ wiredOn s = true ∧ (s.wport e).link = 1 ∧ w.frame.len < 64) ∧
    -- WIRED_FRAME_RX of a PAUSE frame, one cell claimed and nothing being sent: transmission pauses
    (∃ (e id : Nat) (r : RxRun) (c : CellSet) (w : WiredRx) (s : State), alive s = true ∧ e < 16 ∧ wiredOn s = true ∧ (s.wport e).link = 1 ∧ (s.wport e).rx = some r ∧ r.cells = some id ∧ Map.get? s.mem.cells id = some c ∧ w.codeError = false ∧ w.fcsOk = true ∧ w.frame.len = 64 ∧ w.frame.etherType = 0x8808 ∧ w.opcode = 1 ∧ w.frame.da = 0x0180C2000001 ∧ (portCfg s e).pauseRx = true ∧ 64 ≤ (portCfg s e).maxFrame ∧ w.quanta ≠ 0 ∧ (s.wport e).tx = none ∧ s.kept.wired.ports.all (fun y => !y.2.pauseTx) = true) ∧
    -- PAUSE_END: the pause is over; a port whose link is down starts nothing
    (∃ (e d : Nat) (s : State), alive s = true ∧ (s.wport e).pauseEnd = some d ∧ (s.wport e).link ≠ 1 ∧ d ≤ s.time.mono ∧ s.time.acc < 2 ^ 96) ∧
    -- PAUSE_REPEAT: the bytes held stay above the threshold, and nothing is being sent
    (∃ (e : Nat) (s : State), alive s = true ∧ (s.wport e).xoff = true ∧ (portCfg s e).pauseTx = true ∧ (s.wport e).link = 1 ∧ (s.wport e).tx = none ∧ (portCfg s e).xonKb * 1024 < portBytes s e ∧ (s.wport e).xoffAt + bitsNs s e ((portCfg s e).quanta * 512) / 2 ≤ s.time.mono ∧ s.time.acc < 2 ^ 96) ∧
    -- LPI_ENTRY of an idle port with an agreed time: it enters low-power idle
    (∃ (e : Nat) (s : State), alive s = true ∧ e < 24 ∧ wiredOn s = true ∧ (portCfg s e).eee = true ∧ (s.wport e).eeeAgreed = true ∧ eeeMode e (portCfg s e).mode (s.wport e).speed = true ∧ (s.wport e).link = 1 ∧ (s.wport e).tx = none ∧ (s.wport e).lpiTx = false ∧ (s.wport e).wakeEnd = none ∧ (s.wport e).pauseEnd.isSome = true ∧ (s.wport e).idleFrom + (portCfg s e).lpiIdle * 1000 ≤ s.time.mono ∧ s.time.acc < 2 ^ 96) ∧
    -- LPI_ENTRY of any such port for which no frame is eligible as its idle time ends
    (∃ (e : Nat) (s y : State), y = advanceMono ((s.wport e).idleFrom + (portCfg s e).lpiIdle * 1000) s ∧ alive s = true ∧ e < 24 ∧ wiredOn s = true ∧ (portCfg s e).eee = true ∧ (s.wport e).eeeAgreed = true ∧ eeeMode e (portCfg s e).mode (s.wport e).speed = true ∧ (s.wport e).link = 1 ∧ (s.wport e).tx = none ∧ (s.wport e).lpiTx = false ∧ (s.wport e).wakeEnd = none ∧ anyEligible y e = false) ∧
    -- LPI_WAKE_END, the link lost meanwhile: nothing starts
    (∃ (e d : Nat) (s : State), alive s = true ∧ (s.wport e).wakeEnd = some d ∧ (s.wport e).link ≠ 1 ∧ d ≤ s.time.mono ∧ s.time.acc < 2 ^ 96) ∧
    -- LPI_WAKE_END: the frame that waited starts
    (∃ (e d q : Nat) (x : Queued) (f : Frame) (p : PQueue) (s : State), alive s = true ∧ e < 16 ∧ wiredOn s = true ∧ (s.wport e).link = 1 ∧ (s.wport e).tx = none ∧ (s.wport e).pauseEnd = none ∧ (s.wport e).wakeEnd = some d ∧ d ≤ s.time.mono ∧ (s.wport e).plca = 0 ∧ (s.wport e).retry = none ∧ (s.wport e).lpiTx = false ∧ (s.wport e).gapEnd ≤ s.time.mono ∧ s.time.acc < 2 ^ 96 ∧ unitUp s 4 = true ∧ s.plan.queues = [(q, p)] ∧ p.frames = [x] ∧ q ≤ 0xDF ∧ q / 8 = e ∧ x.held = false ∧ x.payload = .eth f ∧ x.tagged = false ∧ (classSet s (classKey e (q % 8))).shaped = false ∧ gateList s e = none) ∧
    -- WIRED_TX_END of a frame without a stamp, no pause waiting: it is counted, its cells are given back, the gap follows
    (∃ (e : Nat) (x : WiredTx) (f : Frame) (s : State), alive s = true ∧ (s.wport e).tx = some x ∧ x.endNs ≤ s.time.mono ∧ s.time.acc < 2 ^ 96 ∧ x.item.payload = .eth f ∧ f.stamp = none ∧ x.item.pool = 0 ∧ x.item.cells = none ∧ (s.wport e).pauseDue = none ∧ (s.wport e).pauseAfter = none ∧ (s.wport e).plca = 0 ∧ s.kept.wired.ports.all (fun y => !y.2.pauseTx) = true) ∧
    -- WIRED_TX_END of any frame: it is off the wire, the port may send again after the gap
    (∃ (e : Nat) (x : WiredTx) (s : State), alive s = true ∧ (s.wport e).tx = some x) ∧
    -- L2_AGE_SWEEP: learned entries without HIT go, the others lose it
    (∃ (s : State), alive s = true ∧ s.kept.wired.switch.l2Age ≠ 0 ∧ s.wired.l2Sweep + s.kept.wired.switch.l2Age / 2 ≤ s.beat) ∧
    -- FLOW_AGE_SWEEP: flows without HIT go, the others lose it
    (∃ (s : State), alive s = true ∧ s.wired.flowSweep + s.kept.wired.switch.flowAge / 2 ≤ s.beat) := by
  and_intros
  · exact ⟨23, updPort 23 (fun p => { p with link := 1 }) up, by decide +kernel⟩
  · exact ⟨23, 1, 0, updPort 23 (fun p => { p with link := 1 }) up, by decide +kernel⟩
  · exact ⟨0, { frame := { len := 63 } }, updPort 0 (fun p => { p with link := 1 }) up, by decide +kernel⟩
  · exact ⟨0, 0, { cells := some 0 }, { owner := 8, account := 0 }, { frame := { len := 64, etherType := 0x8808, da := 0x0180C2000001 }, opcode := 1, quanta := 1 }, updPort 0 (fun p => { p with link := 1, rx := some { cells := some 0 } }) { up with kept.wired.ports := [(0, { pauseRx := true })], mem.cells := [(0, { owner := 8, account := 0 })] }, by decide +kernel⟩
  · exact ⟨23, 0, updPort 23 (fun p => { p with pauseEnd := some 0 }) up, by decide +kernel⟩
  · exact ⟨0, updPort 0 (fun p => { p with link := 1, xoff := true }) (at' 10000000000 { up with kept.wired.ports := [(0, { pauseTx := true })], mem.cells := [(0, { owner := 8, account := 0, shared := 513 })] }), by decide +kernel⟩
  · exact ⟨0, updPort 0 (fun p => { p with link := 1, eeeAgreed := true, pauseEnd := some 0 }) (at' 100000 { up with kept.wired.ports := [(0, { mode := 2, eee := true })] }), by decide +kernel⟩
  · exact ⟨0, updPort 0 (fun p => { p with link := 1, eeeAgreed := true }) (at' 100000 { up with kept.wired.ports := [(0, { mode := 2, eee := true })] }), _, rfl, by decide +kernel⟩
  · exact ⟨23, 0, updPort 23 (fun p => { p with wakeEnd := some 0 }) up, by decide +kernel⟩
  · exact ⟨0, 0, 0, { payload := .eth {}, charge := 64 }, {}, { frames := [{ payload := .eth {}, charge := 64 }] }, updPort 0 (fun p => { p with link := 1, wakeEnd := some 0 }) { up with plan.queues := [(0, { frames := [{ payload := .eth {}, charge := 64 }] })] }, by decide +kernel⟩
  · exact ⟨0, { item := { payload := .eth {}, charge := 64 }, startNs := 0, endNs := 0, stamp := {} }, {}, updPort 0 (fun p => { p with tx := some { item := { payload := .eth {}, charge := 64 }, startNs := 0, endNs := 0, stamp := {} } }) up, by decide +kernel⟩
  · exact ⟨23, { item := { payload := .eth {}, charge := 64 }, startNs := 0, endNs := 0, stamp := {} }, updPort 23 (fun p => { p with tx := some { item := { payload := .eth {}, charge := 64 }, startNs := 0, endNs := 0, stamp := {} }, attempts := 15 }) up, by decide +kernel⟩
  · exact ⟨at' 150000000000 up, by decide +kernel⟩
  · exact ⟨at' 30000000000 up, by decide +kernel⟩

theorem test_hypotheses_WiredCommandsComplete :
    -- WIRED_PORT_SET of an RMII port, no rapid spanning tree: the whole of Table 8-11 is staged
    (∃ (c : Cmd) (s : State), readyFor c s = true ∧ goodTable [fRange 16 1 0 27, fRange 17 1 0 6, fRange 18 1 0 2, fAny 19 1, fRange 20 2 64 9216, fRange 22 2 1 4094, fRange 24 1 0 2, fMask 25 1 1, fRange 26 1 0 2, fRange 27 1 0 7, fRange 28 2 4 4096, fAny 30 2, fRange 32 2 1 65535, fRange 34 2 10 10000, fRange 36 2 0 1000, fAny 38 1, fZero 39 1, fAny 40 16] c = true ∧ c.u 16 1 < 4 ∧ c.u 17 1 = 2 ∧ c.u 18 1 ≤ 1 ∧ c.u 30 2 + 4 ≤ c.u 28 2 ∧ c.u 40 16 = 0 ∧ s.next.wired.switch.rstp = 0) ∧
    -- WIRED_PORT_SET with RSTP set for the port and another STATE: DENIED, nothing changed
    (∃ (c : Cmd) (s : State), readyFor c s = true ∧ goodTable [fRange 16 1 0 27, fRange 17 1 0 6, fRange 18 1 0 2, fAny 19 1, fRange 20 2 64 9216, fRange 22 2 1 4094, fRange 24 1 0 2, fMask 25 1 1, fRange 26 1 0 2, fRange 27 1 0 7, fRange 28 2 4 4096, fAny 30 2, fRange 32 2 1 65535, fRange 34 2 10 10000, fRange 36 2 0 1000, fAny 38 1, fZero 39 1, fAny 40 16] c = true ∧ c.u 16 1 = 1 ∧ c.u 17 1 = 2 ∧ c.u 18 1 ≤ 1 ∧ c.u 30 2 + 4 ≤ c.u 28 2 ∧ c.u 40 16 = 0 ∧ hasBit s.next.wired.switch.rstp 1 = true ∧ c.u 26 1 ≠ (Map.getD s.next.wired.ports 1 {}).state) ∧
    -- WIRED_PORT_STATUS of a port that is up, not paused
    (∃ (c : Cmd) (s : State), readyFor c s = true ∧ goodTable [fRange 16 1 0 23, fZero 17 3] c = true ∧ (s.wport (c.u 16 1)).link = 1 ∧ (s.wport (c.u 16 1)).pauseEnd = none) ∧
    -- WIRED_PORT_STATUS of any port, up, down or paused
    (∃ (c : Cmd) (p : WPort) (w : Nat) (s : State), p = s.wport (c.u 16 1) ∧ w = (match p.pauseEnd with | some t => t - s.time.mono | none => 0) ∧ readyFor c s = true ∧ goodTable [fRange 16 1 0 23, fZero 17 3] c = true) ∧
    -- WIRED_T1S_SET
    (∃ (c : Cmd) (s : State), readyFor c s = true ∧ goodTable [fRange 16 1 16 23, fMask 17 1 1, fRange 18 1 0 254, fRange 19 1 2 32, fRange 20 1 16 255, fRange 21 1 0 15, fRange 22 1 32 255, fZero 23 1] c = true) ∧
    -- WIRED_SWITCH_CONFIG
    (∃ (c : Cmd) (s : State), readyFor c s = true ∧ goodTable [fAny 16 4, fRange 20 4 1000 4000000, fRange 24 4 0 0xFFFFFF, fMask 28 1 1, fZero 29 3] c = true ∧ (c.u 16 4 = 0 ∨ 10000 ≤ c.u 16 4 ∧ c.u 16 4 ≤ 4000000)) ∧
    -- WIRED_SWITCH_CONFIG with an age that is neither 0 nor in range: BAD_ARG
    (∃ (c : Cmd) (s : State), readyFor c s = true ∧ goodTable [fAny 16 4, fRange 20 4 1000 4000000, fRange 24 4 0 0xFFFFFF, fMask 28 1 1, fZero 29 3] c = true ∧ c.u 16 4 ≠ 0 ∧ (c.u 16 4 < 10000 ∨ 4000000 < c.u 16 4)) ∧
    -- WIRED_VLAN_SET
    (∃ (c : Cmd) (s : State), readyFor c s = true ∧ goodTable [fRange 16 2 1 4094, fMask 18 1 7, fZero 19 1, fRange 20 4 0 0x0FFFFFFF, fRange 24 4 0 0x00FFFFFF] c = true) ∧
    -- WIRED_GROUP_SET
    (∃ (c : Cmd) (s : State), readyFor c s = true ∧ goodTable [fRange 16 1 0 255, fZero 17 3, fRange 20 4 0 0x0FFFFFFF] c = true) ∧
    -- WIRED_L2_SET of a new static entry: it is in force at once, in the first free place of its bucket
    (∃ (c : Cmd) (i : Nat) (s : State), readyFor c s = true ∧ goodTable [fAny 16 6, fRange 22 2 1 4094, fRange 24 1 0 5, fMask 25 1 15, fAny 26 2, fAny 28 2, fRange 30 1 0 7, fZero 31 1] c = true ∧ destOk (c.u 24 1) (c.u 26 2) = true ∧ c.u 28 2 ≤ 1023 ∧ c.flag 25 1 0 = true ∧ l2Find s (macAt c 16) (c.u 22 2) = none ∧ l2Free s (l2Bucket (macAt c 16) (c.u 22 2)) = some i) ∧
    -- WIRED_L2_SET without VALID: the entry found goes
    (∃ (c : Cmd) (i : Nat) (s : State), readyFor c s = true ∧ goodTable [fAny 16 6, fRange 22 2 1 4094, fRange 24 1 0 5, fMask 25 1 15, fAny 26 2, fAny 28 2, fRange 30 1 0 7, fZero 31 1] c = true ∧ destOk (c.u 24 1) (c.u 26 2) = true ∧ c.u 28 2 ≤ 1023 ∧ c.flag 25 1 0 = false ∧ l2Find s (macAt c 16) (c.u 22 2) = some i) := by
  and_intros
  · exact ⟨cmd [(1, 0), (1, 2), (1, 0), (1, 0), (2, 64), (2, 1), (1, 0), (1, 0), (1, 0), (1, 0), (2, 4), (2, 0), (2, 1), (2, 10), (2, 0), (1, 0), (1, 0), (16, 0)], ready, by decide +kernel⟩
  · exact ⟨cmd [(1, 1), (1, 2), (1, 0), (1, 0), (2, 64), (2, 1), (1, 0), (1, 0), (1, 0), (1, 0), (2, 4), (2, 0), (2, 1), (2, 10), (2, 0), (1, 0), (1, 0), (16, 0)], { ready with next.wired.switch.rstp := 2 }, by decide +kernel⟩
  · exact ⟨cmd [(1, 0), (3, 0)], updPort 0 (fun p => { p with link := 1 }) ready, by decide +kernel⟩
  · exact ⟨cmd [(1, 0), (3, 0)], _, _, ready, rfl, rfl, by decide +kernel⟩
  · exact ⟨cmd [(1, 16), (1, 0), (1, 0), (1, 2), (1, 16), (1, 0), (1, 32), (1, 0)], ready, by decide +kernel⟩
  · exact ⟨cmd [(4, 0), (4, 1000), (4, 0), (1, 0), (3, 0)], ready, by decide +kernel⟩
  · exact ⟨cmd [(4, 1), (4, 1000), (4, 0), (1, 0), (3, 0)], ready, by decide +kernel⟩
  · exact ⟨cmd [(2, 1), (1, 0), (1, 0), (4, 0), (4, 0)], ready, by decide +kernel⟩
  · exact ⟨cmd [(1, 0), (3, 0), (4, 0)], ready, by decide +kernel⟩
  · exact ⟨cmd [(6, 0), (2, 1), (1, 0), (1, 1), (2, 0), (2, 0), (1, 0), (1, 0)], 4 * l2Bucket 0 1, ready, by decide +kernel⟩
  · exact ⟨cmd [(6, 0), (2, 1), (1, 0), (1, 0), (2, 0), (2, 0), (1, 0), (1, 0)], 4 * l2Bucket 0 1, { ready with kept.wired.statics := [(4 * l2Bucket 0 1, { mac := 0, vid := 1 })] }, by decide +kernel⟩

theorem test_hypotheses_WiredRoutingCommandsComplete :
    -- WIRED_L3_IF_SET of a VID that no other interface has
    (∃ (c : Cmd) (s : State), readyFor c s = true ∧ goodTable [fAny 16 1, fMask 17 1 7, fRange 18 2 1 4094, fAny 20 6, fRange 26 2 576 9198] c = true ∧ s.next.wired.ifs = []) ∧
    -- WIRED_L3_IF_SET of any interface whose VID no other enabled interface has
    (∃ (c : Cmd) (s : State), readyFor c s = true ∧ goodTable [fAny 16 1, fMask 17 1 7, fRange 18 2 1 4094, fAny 20 6, fRange 26 2 576 9198] c = true ∧ (c.flag 17 1 0 = true → s.next.wired.ifs.any (fun e => decide (e.1 ≠ c.u 16 1) && e.2.enable && decide (e.2.vid = c.u 18 2)) = false)) ∧
    -- WIRED_NEXTHOP_SET to a port
    (∃ (c : Cmd) (s : State), readyFor c s = true ∧ goodTable [fRange 16 2 0 1023, fRange 18 1 0 4, fMask 19 1 1, fAny 20 2, fAny 22 1, fZero 23 1, fAny 24 6] c = true ∧ c.u 18 1 = 0 ∧ c.u 20 2 ≤ 27) ∧
    -- WIRED_PREFIX_SET of the first IPv4 prefix
    (∃ (c : Cmd) (s : State), readyFor c s = true ∧ goodTable [fMask 16 1 3, fAny 17 1, fRange 18 1 0 2, fZero 19 1, fRange 20 2 0 1023, fZero 22 2, fAny 24 16] c = true ∧ c.flag 16 1 0 = true ∧ c.flag 16 1 1 = false ∧ c.u 17 1 ≤ 32 ∧ leNat (c.bytesAt 24 4).reverse % 2 ^ (32 - c.u 17 1) = 0 ∧ c.u 28 12 = 0 ∧ s.next.wired.prefixes = []) ∧
    -- WIRED_PREFIX_SET of any prefix, IPv4 or IPv6, added or taken out
    (∃ (c : Cmd) (v6 : Bool) (a : Nat) (ps : List Prefix) (s : State), v6 = c.flag 16 1 1 ∧ a = (if v6 then leNat (c.bytesAt 24 16).reverse else leNat (c.bytesAt 24 4).reverse) ∧ ps = s.next.wired.prefixes.filter (fun p => ¬ (p.v6 = v6 ∧ p.len = c.u 17 1 ∧ p.addr = a)) ++ (if c.flag 16 1 0 then [{ v6 := v6, len := c.u 17 1, addr := a, action := c.u 18 1, nh := c.u 20 2 }] else []) ∧ readyFor c s = true ∧ goodTable [fMask 16 1 3, fAny 17 1, fRange 18 1 0 2, fZero 19 1, fRange 20 2 0 1023, fZero 22 2, fAny 24 16] c = true ∧ c.u 17 1 ≤ (if v6 then 128 else 32) ∧ a % 2 ^ ((if v6 then 128 else 32) - c.u 17 1) = 0 ∧ (v6 = true ∨ c.u 28 12 = 0) ∧ ps.length ≤ 2048) ∧
    -- WIRED_FLOW_SET of a new IPv4 flow: in force at once, in the first place of its bucket
    (∃ (c : Cmd) (f : Flow) (s : State), f = { v6 := false, proto := c.u 17 1, vid := c.u 18 2, sport := c.u 20 2, dport := c.u 22 2, src := leNat (c.bytesAt 24 4).reverse, dst := leNat (c.bytesAt 40 4).reverse, nh := c.u 56 2, policer := 0xFFFF, classOvr := c.flag 16 1 2, cls := c.u 60 1 } ∧ readyFor c s = true ∧ goodTable [fMask 16 1 7, fAny 17 1, fRange 18 2 1 4094, fAny 20 2, fAny 22 2, fAny 24 16, fAny 40 16, fRange 56 2 0 1023, fAny 58 2, fRange 60 1 0 7, fZero 61 3] c = true ∧ c.flag 16 1 0 = true ∧ c.flag 16 1 1 = false ∧ c.u 28 12 = 0 ∧ c.u 44 12 = 0 ∧ c.u 58 2 = 0xFFFF ∧ s.wired.flows = []) ∧
    -- WIRED_CLASS_MAP of the PCP map
    (∃ (c : Cmd) (s : State), readyFor c s = true ∧ goodTable [fRange 16 1 0 27, fMask 17 1 3, fZero 18 2, fAny 20 8, fAny 28 64] c = true ∧ c.flag 17 1 0 = true ∧ c.flag 17 1 1 = false ∧ (∀ k, k < 8 → c.u (20 + k) 1 ≤ 7)) ∧
    -- WIRED_MDIO, a write: the transaction goes out and the word written is answered
    (∃ (c : Cmd) (s : State), readyFor c s = true ∧ goodTable [fRange 16 1 0 4, fRange 17 1 0 31, fRange 18 1 0 31, fZero 19 1, fAny 20 2, fAny 22 2] c = true ∧ c.u 16 1 = 1 ∧ c.u 20 2 ≤ 31 ∧ s.stw.jobs = []) ∧
    -- WIRED_MDIO, a read of either clause: the transaction goes out, what the PHY answers is open
    (∃ (c : Cmd) (s : State), readyFor c s = true ∧ goodTable [fRange 16 1 0 4, fRange 17 1 0 31, fRange 18 1 0 31, fZero 19 1, fAny 20 2, fAny 22 2] c = true ∧ ((c.u 16 1 = 0 ∧ c.u 20 2 ≤ 31) ∨ c.u 16 1 = 2) ∧ s.stw.jobs.any (fun j => decide (j.opcode = 0x040E) && decide (j.lane ≠ c.lane)) = false) ∧
    -- WIRED_L2_READ of the table from an index: the entries at and after it go to the bulk region
    (∃ (c : Cmd) (l : List (Nat × L2Entry)) (b : List Byte) (s : State), l = (l2All s).filter (fun e => e.1 ≥ c.u 16 2) ∧ b = (l.map (fun e => e.2.bytes)).flatten ∧ readyFor c s = true ∧ goodTable [fRange 16 2 0 16383, fRange 18 2 1 4096] c = true ∧ hasBit c.flags 0 = true ∧ 16 * c.u 18 2 ≤ c.bulkLen ∧ l.length < c.u 18 2) ∧
    -- WIRED_COUNTERS of a port, without a clear
    (∃ (c : Cmd) (s : State), readyFor c s = true ∧ goodTable [fOneOf 16 1 ((List.range 28) ++ [0xFF]), fMask 17 1 3, fMask 18 1 15, fZero 19 1] c = true ∧ c.u 16 1 ≤ 27 ∧ c.u 17 1 = 0) ∧
    -- WIRED_COUNTERS of the switch, clearing it and every sticky bit
    (∃ (c : Cmd) (s : State), readyFor c s = true ∧ goodTable [fOneOf 16 1 ((List.range 28) ++ [0xFF]), fMask 17 1 3, fMask 18 1 15, fZero 19 1] c = true ∧ c.u 16 1 = 0xFF ∧ c.u 17 1 = 3 ∧ c.u 18 1 = 15) := by
  and_intros
  · exact ⟨cmd [(1, 0), (1, 0), (2, 1), (6, 0), (2, 576)], ready, by decide +kernel⟩
  · exact ⟨cmd [(1, 0), (1, 0), (2, 1), (6, 0), (2, 576)], ready, by decide +kernel⟩
  · exact ⟨cmd [(2, 0), (1, 0), (1, 0), (2, 0), (1, 0), (1, 0), (6, 0), (2, 0)], ready, by decide +kernel⟩
  · exact ⟨cmd [(1, 1), (1, 0), (1, 0), (1, 0), (2, 0), (2, 0), (16, 0)], ready, by decide +kernel⟩
  · exact ⟨cmd [(1, 3), (1, 0), (1, 0), (1, 0), (2, 0), (2, 0), (16, 0)], _, _, _, ready, rfl, rfl, rfl, by decide +kernel⟩
  · exact ⟨cmd [(1, 1), (1, 0), (2, 1), (2, 0), (2, 0), (16, 0), (16, 0), (2, 0), (2, 65535), (1, 0), (3, 0)], _, ready, rfl, by decide +kernel⟩
  · exact ⟨cmd [(1, 0), (1, 1), (2, 0), (8, 0), (64, 0)], ready, by decide +kernel⟩
  · exact ⟨cmd [(1, 1), (1, 0), (1, 0), (1, 0), (2, 0), (2, 0)], ready, by decide +kernel⟩
  · exact ⟨cmd [(1, 2), (1, 0), (1, 0), (1, 0), (2, 0), (2, 0)], ready, by decide +kernel⟩
  · exact ⟨{ cmd [(2, 0), (2, 1)] with flags := 1, bulkLen := 16 }, _, _, ready, rfl, rfl, by decide +kernel⟩
  · exact ⟨cmd [(1, 0), (1, 0), (1, 0), (1, 0)], ready, by decide +kernel⟩
  · exact ⟨cmd [(1, 255), (1, 3), (1, 15), (1, 0)], ready, by decide +kernel⟩

theorem test_hypotheses_MemoryCommandsComplete :
    -- MEM_CONFIG of the devices detected
    (∃ (c : Cmd) (s : State), readyFor c s = true ∧ goodTable [fRange 16 1 0 1, fRange 17 1 1 2, fAny 18 2, fOneOf 20 1 [2, 4, 8], fRange 21 1 8 16, fMask 22 1 1, fZero 23 1] c = true ∧ s.mem.detected = some {} ∧ c.u 16 1 = 1 ∧ c.u 17 1 = 1 ∧ rateOk 1 (c.u 18 2) = true ∧ c.u 20 1 = 2) ∧
    -- MEM_CONFIG of a TYPE that is not the one detected: BAD_ARG
    (∃ (c : Cmd) (s : State), readyFor c s = true ∧ goodTable [fRange 16 1 0 1, fRange 17 1 1 2, fAny 18 2, fOneOf 20 1 [2, 4, 8], fRange 21 1 8 16, fMask 22 1 1, fZero 23 1] c = true ∧ s.mem.detected = some {} ∧ c.u 16 1 = 0) ∧
    -- MEM_POOL_SET that leaves STEWARD 512 MB or more
    (∃ (c : Cmd) (m : Nat) (s : State), readyFor c s = true ∧ goodTable [fAny 16 4, fAny 20 4, fAny 24 4, fAny 28 4, fRange 32 1 0 100, fZero 33 3] c = true ∧ c.u 16 4 % 64 = 0 ∧ c.u 20 4 % 64 = 0 ∧ c.u 24 4 % 64 = 0 ∧ c.u 28 4 % 64 = 0 ∧ stewardMb (s.next.mem.config.getD (s.mem.detected.getD {})) { queueMb := c.u 16 4, psMb := c.u 20 4, ringMb := c.u 24 4, captureMb := c.u 28 4, psW1Pct := c.u 32 1 } = some m ∧ 512 ≤ m) ∧
    -- MEM_CELL_SET of one account
    (∃ (c : Cmd) (s : State), readyFor c s = true ∧ goodTable [fOneOf 16 1 (List.range 29 ++ [0xFF]), fZero 17 1, fRange 18 2 0 4096, fRange 20 4 0 65536] c = true ∧ c.u 16 1 ≤ 28 ∧ reserveSum (Map.set s.next.mem.cells (c.u 16 1) (c.u 18 2, c.u 20 4)) ≤ 32768) ∧
    -- MEM_CELL_SET that takes the reserves above 32,768 cells: BAD_ARG
    (∃ (c : Cmd) (s : State), readyFor c s = true ∧ goodTable [fOneOf 16 1 (List.range 29 ++ [0xFF]), fZero 17 1, fRange 18 2 0 4096, fRange 20 4 0 65536] c = true ∧ c.u 16 1 ≤ 28 ∧ 32768 < reserveSum (Map.set s.next.mem.cells (c.u 16 1) (c.u 18 2, c.u 20 4)) ∧ reserveSum s.next.mem.cells ≤ 32768) ∧
    -- MEM_PORT_SET of a real-time port: only the panic threshold changes
    (∃ (c : Cmd) (s : State), readyFor c s = true ∧ goodTable [fRange 16 1 0 8, fAny 17 1, fAny 18 1, fZero 19 1, fAny 20 2] c = true ∧ c.u 16 1 ≤ 5 ∧ 20 ≤ c.u 17 1 ∧ c.u 17 1 ≤ 70) ∧
    -- MEM_PORT_SET of another port: its weight and its lease change
    (∃ (c : Cmd) (s : State), readyFor c s = true ∧ goodTable [fRange 16 1 0 8, fAny 17 1, fAny 18 1, fZero 19 1, fAny 20 2] c = true ∧ c.u 16 1 = 6 ∧ 1 ≤ c.u 18 1 ∧ c.u 18 1 ≤ 16 ∧ 20 ≤ c.u 20 2 ∧ c.u 20 2 ≤ 5000) ∧
    -- MEM_RING_SET that enables a host ring, from lane 0
    (∃ (c : Cmd) (s : State), readyFor c s = true ∧ goodTable [fAny 16 1, fMask 17 1 3, fAny 18 2, fAny 20 2, fAny 22 2, fAny 24 8, fAny 32 8] c = true ∧ c.lane = 0 ∧ hostRing (c.u 16 1) = true ∧ c.flag 17 1 0 = true ∧ c.u 18 2 = 256 ∧ 5 ≤ c.u 20 2 ∧ c.u 20 2 ≤ 1000 ∧ 1 ≤ c.u 22 2 ∧ c.u 22 2 ≤ 1000 ∧ c.u 24 8 % 64 = 0 ∧ (s.ring (c.u 16 1)).on = false) ∧
    -- MEM_RING_SET that disables a ring that is on
    (∃ (c : Cmd) (s : State), readyFor c s = true ∧ goodTable [fAny 16 1, fMask 17 1 3, fAny 18 2, fAny 20 2, fAny 22 2, fAny 24 8, fAny 32 8] c = true ∧ c.lane = 0 ∧ hostRing (c.u 16 1) = true ∧ c.flag 17 1 0 = false ∧ (s.ring (c.u 16 1)).on = true) ∧
    -- MEM_RING_SET from another lane: DENIED
    (∃ (c : Cmd) (s : State), readyFor c s = true ∧ goodTable [fAny 16 1, fMask 17 1 3, fAny 18 2, fAny 20 2, fAny 22 2, fAny 24 8, fAny 32 8] c = true ∧ c.lane ≠ 0) ∧
    -- MEM_RING_READ
    (∃ (c : Cmd) (s : State), readyFor c s = true ∧ goodTable [fAny 16 1, fZero 17 3] c = true ∧ ringExists (c.u 16 1) = true) ∧
    -- MEM_STATUS: the free megabytes of STEWARD and RING are open and within their pools
    (∃ (c : Cmd) (s : State), readyFor c s = true ∧ goodTable [] c = true) ∧
    -- MEM_COUNTERS of a DRAM port, clearing it and two sticky bits
    (∃ (c : Cmd) (s : State), readyFor c s = true ∧ goodTable [fAny 16 1, fMask 17 1 3, fMask 18 1 7, fZero 19 1] c = true ∧ c.u 16 1 = 4 ∧ c.u 17 1 = 3 ∧ c.u 18 1 = 5) := by
  and_intros
  · exact ⟨cmd [(1, 1), (1, 1), (2, 4266), (1, 2), (1, 8), (1, 0), (1, 0)], { ready with mem.detected := some {} }, by decide +kernel⟩
  · exact ⟨cmd [(1, 0), (1, 1), (2, 0), (1, 2), (1, 8), (1, 0), (1, 0)], { ready with mem.detected := some {} }, by decide +kernel⟩
  · exact ⟨cmd [(4, 0), (4, 0), (4, 0), (4, 0), (1, 0), (3, 0)], (stewardMb {} { queueMb := 0, psMb := 0, ringMb := 0, captureMb := 0, psW1Pct := 0 }).getD 0, ready, by decide +kernel⟩
  · exact ⟨cmd [(1, 0), (1, 0), (2, 0), (4, 0)], ready, by decide +kernel⟩
  · exact ⟨cmd [(1, 0), (1, 0), (2, 4096), (4, 0)], { ready with next.mem.cells := [(1, (27000, 0)), (2, (0, 0)), (3, (0, 0)), (4, (0, 0)), (5, (0, 0)), (6, (0, 0)), (7, (0, 0)), (8, (0, 0)), (9, (0, 0))] }, by decide +kernel⟩
  · exact ⟨cmd [(1, 0), (1, 20), (1, 0), (1, 0), (2, 0), (2, 0)], ready, by decide +kernel⟩
  · exact ⟨cmd [(1, 6), (1, 0), (1, 1), (1, 0), (2, 20), (2, 0)], ready, by decide +kernel⟩
  · exact ⟨cmd [(1, 0), (1, 1), (2, 256), (2, 5), (2, 1), (8, 0), (8, 0)], ready, by decide +kernel⟩
  · exact ⟨cmd [(1, 0), (1, 0), (2, 0), (2, 0), (2, 0), (8, 0), (8, 0)], updRing 0 (fun g => { g with on := true }) ready, by decide +kernel⟩
  · exact ⟨{ cmd [(1, 0), (1, 0), (2, 0), (2, 0), (2, 0), (8, 0), (8, 0)] with lane := 1 }, claim 1 up, by decide +kernel⟩
  · exact ⟨cmd [(1, 0), (3, 0)], ready, by decide +kernel⟩
  · exact ⟨nop, ready, by decide +kernel⟩
  · exact ⟨cmd [(1, 4), (1, 3), (1, 5), (1, 0)], ready, by decide +kernel⟩

theorem test_hypotheses_MemoryEventsTakeEffect :
    -- MR4_READ at a beat that is a multiple of 16: the multiplier waits for the commit window
    (∃ (k m : Nat) (temp : Int) (s : State), alive s = true ∧ k < 2 ∧ (m = 1 ∨ m = 2 ∨ m = 4) ∧ s.beat % 16 = 0 ∧ s.power.dramAwake = true) ∧
    -- PORT_LEASE_EXPIRY: what was outstanding is gone, MEM_PORT_LEASE_EXPIRE is raised
    (∃ (p : Nat) (s : State), alive s = true ∧ 6 ≤ p ∧ p ≤ 8) ∧
    -- PANIC_RISE of a port that feeds a transmitter, below its threshold and not empty
    (∃ (p level : Nat) (tx : Bool) (s : State), alive s = true ∧ p < 6 ∧ dataPlane s = true ∧ txPort p tx = true ∧ 0 < level ∧ level ≤ fifoBytes p ∧ level * 100 < (portSet s p).panicPct * fifoBytes p) ∧
    -- PANIC_RISE of a transmit port's FIFO that is empty: an underrun
    (∃ (p : Nat) (tx : Bool) (s : State), alive s = true ∧ p < 6 ∧ dataPlane s = true ∧ txPort p tx = true) ∧
    -- DRAM_READ_DONE, a clean read by a real-time receive port
    (∃ (p a : Nat) (tx : Bool) (q : Option Nat) (s : State), alive s = true ∧ p = 6 ∧ s.power.dramAwake = true) ∧
    -- DRAM_READ_DONE, uncorrectable, of a block that no frame waits in: the block is poisoned, counted and told of
    (∃ (a : Nat) (tx : Bool) (s : State), alive s = true ∧ s.power.dramAwake = true ∧ s.mem.poisoned.contains (a / 64) = false) ∧
    -- RING_STATUS_WRITE of a host ring, the first since it was enabled, without notification: the block goes to the host
    (∃ (r : Nat) (s : State), alive s = true ∧ (s.ring r).on = true ∧ (s.ring r).statusDue = true ∧ hostRing r = true ∧ s.power.pcieUp = true ∧ (s.ring r).statusAt = none ∧ (s.ring r).notify = false) ∧
    -- TX_RING_POLL that finds a descriptor that no FIRST began: written back with status 2, counted
    (∃ (r : Nat) (d : TxDesc) (s : State), alive s = true ∧ 16 ≤ r ∧ r ≤ 23 ∧ (s.ring r).on = true ∧ dataPlane s = true ∧ s.power.pcieUp = true ∧ s.power.mode ≠ .doze ∧ d.own = true ∧ d.first = false ∧ (s.ring r).open' = none ∧ s.kept.plan.gates = [] ∧ s.kept.wired.ports.all (fun y => !y.2.pauseTx) = true) ∧
    -- TX_RING_POLL of a ring that serves: every descriptor up to the first that is not owned is taken, in order
    (∃ (r n : Nat) (ds : List TxDesc) (s : State), n = (ds.takeWhile (·.own)).length ∧ alive s = true ∧ 16 ≤ r ∧ r ≤ 23 ∧ (s.ring r).on = true ∧ dataPlane s = true ∧ s.power.pcieUp = true ∧ s.power.mode ≠ .doze ∧ n ≠ 0) ∧
    -- REFRESH_BURST of a channel whose plan has bursts left, time already past its slot: counted in the beat, no training step due
    (∃ (k : Nat) (s : State), alive s = true ∧ k < 2 ∧ s.power.dramAwake = true ∧ s.time.settling = false ∧ (s.unit 6).busyUntil ≤ s.time.mono ∧ s.boot.stage = 8 ∧ (s.channel k).burstBeat = s.beat ∧ (s.channel k).burst + 1 < (refreshPlan (s.channel k).m).2.1 ∧ (s.beat * 1000000 + (20000 + (s.channel k).burst * (refreshPlan (s.channel k).m).2.2)) * 2 ^ 32 ≤ s.time.acc ∧ s.time.acc < 2 ^ 96 ∧ anyPanic s = false ∧ s.front.runs = []) ∧
    -- REFRESH_BURST of any channel whose plan has bursts left, at its slot, in panic or not, training or not: it is counted
    (∃ (k delay n : Nat) (ok : Bool) (s : State), n = (if (s.channel k).burstBeat = s.beat then (s.channel k).burst else 0) ∧ alive s = true ∧ k < 2 ∧ s.power.dramAwake = true ∧ s.time.settling = false ∧ 7 ≤ s.boot.stage ∧ n < (refreshPlan (s.channel k).m).2.1) := by
  and_intros
  · exact ⟨1, 4, 0, up, by decide +kernel⟩
  · exact ⟨8, up, by decide +kernel⟩
  · exact ⟨1, 1, false, up, by decide +kernel⟩
  · exact ⟨3, false, up, by decide +kernel⟩
  · exact ⟨6, 0, false, none, up, by decide +kernel⟩
  · exact ⟨0, false, up, by decide +kernel⟩
  · exact ⟨0, updRing 0 (fun g => { g with on := true, statusDue := true }) { up with power.pcieUp := true }, by decide +kernel⟩
  · exact ⟨16, { first := false }, updRing 16 (fun g => { g with on := true }) { up with power.pcieUp := true }, by decide +kernel⟩
  · exact ⟨16, _, [{ first := false }], updRing 16 (fun g => { g with on := true }) { up with power.pcieUp := true }, rfl, by decide +kernel⟩
  · exact ⟨0, at' 20000 up, by decide +kernel⟩
  · exact ⟨0, 0, _, true, at' 20000 up, rfl, by decide +kernel⟩

theorem test_hypotheses_PowerEventsTakeEffect :
    -- PWR_REQ for a serving mode but Full
    (∃ (k q : Nat) (m : Mode) (s : State), alive s = true ∧ windowUp s = true ∧ k % 8 < 5 ∧ m = modeOf (k % 8) ∧ m.serves = true ∧ m ≠ .full ∧ m ≠ s.power.mode ∧ s.power.mode.serves = true ∧ s.boot.stage = 8 ∧ inTransition s = false ∧ opForMode s m ≤ s.power.confirmedOp) ∧
    -- PWR_REQ with a target that names no mode: BAD_ARG in PWR_RESULT
    (∃ (k q : Nat) (s : State), alive s = true ∧ windowUp s = true ∧ 5 ≤ k % 8 ∧ inTransition s = false) ∧
    -- FULL_RETURN after 60,000 beats, once the voltage of the Full point is confirmed
    (∃ (s : State), alive s = true ∧ 60000 ≤ s.power.fullBeats ∧ s.power.wantFull = true ∧ s.power.fullAllowed = true ∧ s.power.mode.serves = true ∧ s.power.mode ≠ .full ∧ inTransition s = false ∧ s.boot.stage = 8 ∧ opForMode s .full ≤ s.power.confirmedOp) ∧
    -- FULL_RETURN where the voltage must rise first: the target is written and the change waits for it
    (∃ (s : State), alive s = true ∧ 60000 ≤ s.power.fullBeats ∧ s.power.wantFull = true ∧ s.power.fullAllowed = true ∧ s.power.mode.serves = true ∧ s.power.mode ≠ .full ∧ inTransition s = false ∧ s.boot.stage = 8 ∧ s.power.confirmedOp < opForMode s .full ∧ raiseHeld s = false) ∧
    -- STEWARD_MODE_SCHEDULE: Watch from Lean
    (∃ (s : State), alive s = true ∧ s.power.holds = [] ∧ s.stw.state = .ready ∧ s.power.mode = .lean ∧ s.boot.stage = 8 ∧ inTransition s = false ∧ opForMode s .watch ≤ s.power.confirmedOp) ∧
    -- STEWARD_MODE_SCHEDULE while a host holds the mode: nothing
    (∃ (k : Nat) (s : State), alive s = true ∧ s.power.holds ≠ []) ∧
    -- OPERATING_POINT_CHANGE to a point whose voltage is confirmed: it waits for the commit window
    (∃ (op : Nat) (s : State), alive s = true ∧ opAllowed s s.power.mode op = true ∧ op ≠ s.power.op ∧ s.kept.power.config.opHold ≤ s.power.opBeats ∧ s.power.opNext = none ∧ s.power.avs = none ∧ inTransition s = false ∧ s.boot.stage = 8 ∧ op ≤ s.power.confirmedOp) ∧
    -- OPERATING_POINT_CHANGE to a higher point: its voltage is written first
    (∃ (op : Nat) (s : State), alive s = true ∧ opAllowed s s.power.mode op = true ∧ op ≠ s.power.op ∧ s.kept.power.config.opHold ≤ s.power.opBeats ∧ s.power.opNext = none ∧ s.power.avs = none ∧ inTransition s = false ∧ s.boot.stage = 8 ∧ s.power.confirmedOp < op ∧ raiseHeld s = false) ∧
    -- AVS_READ within the tolerance of a raised target: the point is confirmed, and a change that waited takes its beat
    (∃ (mv : Nat) (a : AvsTarget) (x : ModeChange) (s : State), alive s = true ∧ s.power.avs = some a ∧ a.raise = true ∧ a.mv ≤ mv + s.kept.power.config.avsTol ∧ mv ≤ a.mv + s.kept.power.config.avsTol ∧ s.kept.power.config.avsTol ≤ 25 ∧ s.power.change = some x ∧ x.eff = none) ∧
    -- AVS_READ that was not acknowledged: the transaction is repeated, up to three times
    (∃ (mv : Nat) (s : State), alive s = true ∧ s.power.avsRetries < 3) ∧
    -- AVS_TIMEOUT of a raise that a change waited for: counted, logged, the change answered ABANDONED, REFUSED by source 1
    (∃ (q : Nat) (a : AvsTarget) (x : ModeChange) (s : State), alive s = true ∧ s.power.avs = some a ∧ a.raise = true ∧ s.power.change = some x ∧ x.eff = none ∧ x.asker = .req q) ∧
    -- AVS_TIMEOUT of any target, raised or lowered: the fault is counted
    (∃ (a : AvsTarget) (s : State), alive s = true ∧ s.power.avs = some a) := by
  and_intros
  · exact ⟨2, 0, .watch, up, by decide +kernel⟩
  · exact ⟨5, 0, up, by decide +kernel⟩
  · exact ⟨{ up with power.fullBeats := 60000, power.wantFull := true, power.fullAllowed := true, power.confirmedOp := 3 }, by decide +kernel⟩
  · exact ⟨{ up with power.fullBeats := 60000, power.wantFull := true, power.fullAllowed := true }, by decide +kernel⟩
  · exact ⟨up, by decide +kernel⟩
  · exact ⟨0, { up with power.holds := [0] }, by decide +kernel⟩
  · exact ⟨2, { up with power.opBeats := 100, power.confirmedOp := 2 }, by decide +kernel⟩
  · exact ⟨2, { up with power.opBeats := 100 }, by decide +kernel⟩
  · exact ⟨608, { mv := 600, raise := true, op := 2, writtenNs := 0 }, { target := .lean, eff := none, asker := .req 5, cause := 0 }, { up with power.avs := some { mv := 600, raise := true, op := 2, writtenNs := 0 }, power.change := some { target := .lean, eff := none, asker := .req 5, cause := 0 } }, by decide +kernel⟩
  · exact ⟨0, up, by decide +kernel⟩
  · exact ⟨5, { mv := 600, raise := true, op := 2, writtenNs := 0 }, { target := .lean, eff := none, asker := .req 5, cause := 0 }, { up with power.avs := some { mv := 600, raise := true, op := 2, writtenNs := 0 }, power.change := some { target := .lean, eff := none, asker := .req 5, cause := 0 } }, by decide +kernel⟩
  · exact ⟨{ mv := 600, raise := true, op := 2, writtenNs := 0 }, { up with power.avs := some { mv := 600, raise := true, op := 2, writtenNs := 0 }, power.change := some { target := .lean, eff := none, asker := .req 5, cause := 0 } }, by decide +kernel⟩

theorem test_hypotheses_WakesAndEntriesTakeEffect :
    -- SPI_CS_FALL in Dormant
    (∃ (s : State), alive s = true ∧ s.power.mode = .dormant ∧ hasBit s.kept.power.config.wakeEnDormant 1 = true ∧ s.power.entry = none ∧ s.power.waking = none) ∧
    -- SIDEBAND_ADDRESS_MATCH of the Lean address in Dormant
    (∃ (r : Bool) (s : State), alive s = true ∧ s.power.mode = .dormant ∧ s.power.entry = none ∧ s.power.waking = none) ∧
    -- SIDEBAND_ADDRESS_MATCH of the hold address in a serving mode: Doze and Dormant are turned away for 1,000 beats
    (∃ (r : Bool) (s : State), alive s = true ∧ s.power.mode.serves = true ∧ s.power.entry = none) ∧
    -- SIDEBAND_HOLD_END
    (∃ (s : State), alive s = true ∧ s.power.holdUntil ≤ s.beat) ∧
    -- WAKE_FRAME_RX that meets R474, in Doze
    (∃ (port : Nat) (f : WakeFrame) (s : State), alive s = true ∧ s.power.mode = .doze ∧ (port = 8 ∨ port = 9 ∨ port = 24) ∧ wakeFrameOk f s = true ∧ hasBit s.kept.power.config.wakeEnDoze 3 = true ∧ s.power.entry = none ∧ s.power.waking = none) ∧
    -- WAKE_FRAME_RX that does not: counted
    (∃ (port : Nat) (f : WakeFrame) (s : State), alive s = true ∧ s.power.mode = .doze ∧ (port = 8 ∨ port = 9 ∨ port = 24) ∧ wakeFrameOk f s = false) ∧
    -- LINK_ENERGY in Dormant
    (∃ (port : Nat) (s : State), alive s = true ∧ s.power.mode = .dormant ∧ (port = 8 ∨ port = 9) ∧ hasBit s.kept.power.config.wakeEnDormant 4 = true ∧ s.power.entry = none ∧ s.power.waking = none) ∧
    -- PWR_ALARM_FIRE in a serving mode: at the start of its beat it is spent, and wakes nothing
    (∃ (b : Nat) (s : State), alive s = true ∧ s.power.alarm = some b ∧ s.power.mode.serves = true ∧ s.power.entry = none) ∧
    -- PWR_ALARM_FIRE in Doze
    (∃ (b : Nat) (s : State), alive s = true ∧ s.power.alarm = some b ∧ s.power.mode = .doze ∧ hasBit s.kept.power.config.wakeEnDoze 7 = true ∧ s.power.entry = none ∧ s.power.waking = none) ∧
    -- RDV_LEAD_ALARM in Dormant wakes into Doze
    (∃ (r : Nat) (s : State), alive s = true ∧ s.power.mode = .dormant ∧ hasBit s.kept.power.config.wakeEnDormant 8 = true ∧ s.power.rdvAlarms = [r] ∧ s.power.entry = none ∧ s.power.waking = none) ∧
    -- RDV_LEAD_ALARM of any record that is set, its wake enabled
    (∃ (r : Nat) (s : State), alive s = true ∧ s.power.mode = .dormant ∧ hasBit s.kept.power.config.wakeEnDormant 8 = true ∧ s.power.rdvAlarms.contains r = true ∧ s.power.entry = none ∧ s.power.waking = none) ∧
    -- THERMAL_WAKE above TEMP_WAKE_HI, in Doze
    (∃ (temp : Int) (s : State), alive s = true ∧ s.power.mode = .doze ∧ temp > 10 * s.kept.power.config.tempWakeHi ∧ hasBit s.kept.power.config.wakeEnDoze 9 = true ∧ s.power.entry = none ∧ s.power.waking = none) ∧
    -- DEBUG_START_BIT while lane 3 is open, in Doze
    (∃ (s : State), alive s = true ∧ s.power.mode = .doze ∧ s.kept.stw.lane3Open = true ∧ hasBit s.kept.power.config.wakeEnDoze 10 = true ∧ s.power.entry = none ∧ s.power.waking = none) ∧
    -- WAKE_BRINGUP_STAGE to the last stage: the ready instant gives beat M
    (∃ (x : Waking) (s : State), alive s = true ∧ (List.range 4).all (fun n => (s.lane n).order.isEmpty) = true ∧ s.power.waking = some x ∧ x.stage = 7 ∧ x.eff = none) ∧
    -- WAKE_BRINGUP_STAGE to the voltage: operating point 1
    (∃ (x : Waking) (s : State), alive s = true ∧ (List.range 4).all (fun n => (s.lane n).order.isEmpty) = true ∧ s.power.waking = some x ∧ x.stage = 1 ∧ x.eff = none) ∧
    -- WAKE_BRINGUP_STAGE of any wake that is not ready: the next stage is done
    (∃ (x : Waking) (s : State), alive s = true ∧ (List.range 4).all (fun n => (s.lane n).order.isEmpty) = true ∧ s.power.waking = some x ∧ x.eff = none) ∧
    -- DORMANT_RETURN after a rendezvous visit
    (∃ (s : State), alive s = true ∧ s.power.mode = .doze ∧ s.power.rdvVisit = true ∧ s.kept.power.config.rdvReturn = true ∧ inTransition s = false ∧ s.stw.changePending = false) ∧
    -- ENTRY_BLOCK_REPLY: the bulk store agrees at step 5 of an entry for which a host's command waits; step 6 begins, and the command can no longer be cancelled
    (∃ (e : Entry) (s : State), alive s = true ∧ s.power.entry = some e ∧ e.step = 5 ∧ e.agreed = [] ∧ e.wake = none ∧ e.undo = none ∧ e.asker = .self) ∧
    -- ENTRY_BLOCK_REPLY of a block that refuses at step 3: the entry is abandoned with its reason, and the undo begins
    (∃ (e : Entry) (s : State), alive s = true ∧ s.power.entry = some e ∧ e.step = 3 ∧ e.agreed.contains 41 = false ∧ e.wake = none ∧ e.undo = none ∧ s.boot.flashJobs ≠ []) ∧
    -- ENTRY_BLOCK_REPLY of any block that agrees at its step while others have yet to answer: its answer is taken
    (∃ (b refuse : Nat) (e : Entry) (s : State), alive s = true ∧ willAgree b refuse s = some e ∧ (entryBlocks e.left e.step).all (fun x => decide (x = b) || e.agreed.contains x) = false) ∧
    -- ENTRY_UNDO_DONE: the device is back in the mode it left, the request answered ABANDONED
    (∃ (e : Entry) (q ap d src r : Nat) (s : State), alive s = true ∧ (List.range 4).all (fun n => (s.lane n).order.isEmpty) = true ∧ s.power.entry = some e ∧ e.undo = some (ap, d, src, r) ∧ e.asker = .req q ∧ e.cancelJob = none ∧ s.power.dramAwake = true) ∧
    -- ENTRY_UNDO_DONE of any entry that is being undone, whoever asked for it, whoever cancels it
    (∃ (e : Entry) (u : Nat × Nat × Nat × Nat) (s : State), alive s = true ∧ (List.range 4).all (fun n => (s.lane n).order.isEmpty) = true ∧ s.power.entry = some e ∧ e.undo = some u) ∧
    -- DOZE_DRAM_EXIT before a listen beat
    (∃ (s : State), alive s = true ∧ s.power.mode = .doze ∧ s.power.dramAwake = false ∧ s.power.waking = none ∧ s.power.entry = none ∧ dozeBeat s (s.beat + 1) = true) ∧
    -- PCIE_LINK_UP
    (∃ (s : State), alive s = true) := by
  and_intros
  · exact ⟨{ up with power.mode := .dormant }, by decide +kernel⟩
  · exact ⟨false, { up with power.mode := .dormant }, by decide +kernel⟩
  · exact ⟨false, up, by decide +kernel⟩
  · exact ⟨up, by decide +kernel⟩
  · exact ⟨24, { key := [1, 0, 0, 0, 0, 0] }, { up with power.mode := .doze, kept.power.config.wakeKey := [1, 0, 0, 0, 0, 0] }, by decide +kernel⟩
  · exact ⟨8, {}, { up with power.mode := .doze }, by decide +kernel⟩
  · exact ⟨9, { up with power.mode := .dormant }, by decide +kernel⟩
  · exact ⟨5, { up with power.alarm := some 5 }, by decide +kernel⟩
  · exact ⟨5, { up with power.mode := .doze, power.alarm := some 5 }, by decide +kernel⟩
  · exact ⟨3, { up with power.mode := .dormant, power.rdvAlarms := [3] }, by decide +kernel⟩
  · exact ⟨3, { up with power.mode := .dormant, power.rdvAlarms := [3] }, by decide +kernel⟩
  · exact ⟨1051, { up with power.mode := .doze }, by decide +kernel⟩
  · exact ⟨{ up with power.mode := .doze, kept.stw.lane3Open := true, kept.power.config.wakeEnDoze := 0x400 }, by decide +kernel⟩
  · exact ⟨{ bits := 0, target := .lean, left := .doze, latchNs := 0, stage := 7 }, { up with power.waking := some { bits := 0, target := .lean, left := .doze, latchNs := 0, stage := 7 } }, by decide +kernel⟩
  · exact ⟨{ bits := 0, target := .lean, left := .doze, latchNs := 0, stage := 1 }, { up with power.waking := some { bits := 0, target := .lean, left := .doze, latchNs := 0, stage := 1 } }, by decide +kernel⟩
  · exact ⟨{ bits := 0, target := .lean, left := .doze, latchNs := 0, stage := 1 }, { up with power.waking := some { bits := 0, target := .lean, left := .doze, latchNs := 0, stage := 1 } }, by decide +kernel⟩
  · exact ⟨{ up with power.mode := .doze, power.rdvVisit := true }, by decide +kernel⟩
  · exact ⟨{ target := .doze, left := .lean, asker := .self, cause := 0, step := 5 }, { up with power.entry := some { target := .doze, left := .lean, asker := .self, cause := 0, step := 5 } }, by decide +kernel⟩
  · exact ⟨{ target := .doze, left := .lean, asker := .self, cause := 0, step := 3 }, { up with power.entry := some { target := .doze, left := .lean, asker := .self, cause := 0, step := 3 }, boot.flashJobs := [.seed 0 0 []] }, by decide +kernel⟩
  · exact ⟨8, 0, { target := .doze, left := .lean, asker := .self, cause := 0, step := 2 }, { up with power.entry := some { target := .doze, left := .lean, asker := .self, cause := 0, step := 2 } }, by decide +kernel⟩
  · exact ⟨{ target := .doze, left := .lean, asker := .req 5, cause := 0, step := 3, undo := some (0, 0, 0, 0) }, 5, 0, 0, 0, 0, { up with power.entry := some { target := .doze, left := .lean, asker := .req 5, cause := 0, step := 3, undo := some (0, 0, 0, 0) } }, by decide +kernel⟩
  · exact ⟨{ target := .doze, left := .lean, asker := .req 5, cause := 0, step := 3, undo := some (0, 0, 0, 0) }, (0, 0, 0, 0), { up with power.entry := some { target := .doze, left := .lean, asker := .req 5, cause := 0, step := 3, undo := some (0, 0, 0, 0) } }, by decide +kernel⟩
  · exact ⟨{ up with power.mode := .doze, power.dramAwake := false }, by decide +kernel⟩
  · exact ⟨up, by decide +kernel⟩

theorem test_hypotheses_PowerCommandsComplete :
    -- PWR_SET_MODE for a serving mode but Full, no raise of the operating point needed, no hold taken or given
    (∃ (c : Cmd) (m : Mode) (s : State), readyFor c s = true ∧ goodTable [fAny 16 1, fMask 17 1 3, fZero 18 2] c = true ∧ c.lane ≤ 2 ∧ c.u 17 1 = 0 ∧ m = modeOf (c.u 16 1) ∧ m.serves = true ∧ m ≠ .full ∧ m ≠ s.power.mode ∧ s.power.mode.serves = true ∧ s.boot.stage = 8 ∧ inTransition s = false ∧ opForMode s m ≤ s.power.confirmedOp) ∧
    -- PWR_SET_MODE for the mode in force, HOST_HOLD
    (∃ (c : Cmd) (s : State), readyFor c s = true ∧ goodTable [fAny 16 1, fMask 17 1 3, fZero 18 2] c = true ∧ c.lane ≤ 2 ∧ c.u 17 1 = 1 ∧ s.power.mode = modeOf (c.u 16 1) ∧ s.power.mode = .watch ∧ s.boot.stage = 8 ∧ inTransition s = false ∧ s.power.holds = []) ∧
    -- PWR_SET_MODE for Doze: the entry starts, and can still be cancelled
    (∃ (c : Cmd) (s : State), readyFor c s = true ∧ goodTable [fAny 16 1, fMask 17 1 3, fZero 18 2] c = true ∧ c.lane ≤ 2 ∧ c.u 17 1 = 0 ∧ c.u 16 1 = 3 ∧ s.power.mode.serves = true ∧ s.boot.stage = 8 ∧ inTransition s = false ∧ s.power.holdUntil ≤ s.beat ∧ s.power.wakeSeen = none) ∧
    -- PWR_SET_MODE on lane 3: DENIED
    (∃ (c : Cmd) (s : State), readyFor c s = true ∧ inTransition s = false ∧ goodTable [fAny 16 1, fMask 17 1 3, fZero 18 2] c = true ∧ c.lane = 3) ∧
    -- PWR_SET_MODE while a change is under way, whatever its target and its lane: BUSY
    (∃ (c : Cmd) (s : State), readyFor c s = true ∧ goodTable [fAny 16 1, fMask 17 1 3, fZero 18 2] c = true ∧ inTransition s = true) ∧
    -- PWR_CONFIG, the wake key as it was
    (∃ (c : Cmd) (s : State), readyFor c s = true ∧ goodTable [fRange 16 1 0 2, fRange 17 1 0 3, fMask 18 1 7, fRange 19 1 0 15, fMask 20 2 0x0FFF, fMask 22 2 0x0FFF, fAny 24 4, fAny 28 6, fAny 34 1, fAny 35 1, fRange 36 2 10 65535, fRange 38 1 0 3, fRange 39 1 1 50, fRange 40 1 2 25, fAny 41 1, fAny 42 1, fZero 43 1, fRange 44 2 100 5000, fZero 46 2] c = true ∧ c.flag 18 1 1 = false) ∧
    -- PWR_CONFIG with a wake key
    (∃ (c : Cmd) (s : State), readyFor c s = true ∧ goodTable [fRange 16 1 0 2, fRange 17 1 0 3, fMask 18 1 7, fRange 19 1 0 15, fMask 20 2 0x0FFF, fMask 22 2 0x0FFF, fAny 24 4, fAny 28 6, fAny 34 1, fAny 35 1, fRange 36 2 10 65535, fRange 38 1 0 3, fRange 39 1 1 50, fRange 40 1 2 25, fAny 41 1, fAny 42 1, fZero 43 1, fRange 44 2 100 5000, fZero 46 2] c = true ∧ c.flag 18 1 1 = true) ∧
    -- PWR_ALARM for a beat at least 100 ahead
    (∃ (c : Cmd) (s : State), readyFor c s = true ∧ goodTable [fMask 16 1 1, fZero 17 3, fAny 20 8] c = true ∧ c.flag 16 1 0 = true ∧ s.beat + 100 ≤ c.u 20 8) ∧
    -- PWR_ALARM for a beat too near: LATE, the alarm as it was
    (∃ (c : Cmd) (s : State), readyFor c s = true ∧ goodTable [fMask 16 1 1, fZero 17 3, fAny 20 8] c = true ∧ c.flag 16 1 0 = true ∧ c.u 20 8 < s.beat + 100) ∧
    -- PWR_ALARM cleared
    (∃ (c : Cmd) (s : State), readyFor c s = true ∧ goodTable [fMask 16 1 1, fZero 17 3, fAny 20 8] c = true ∧ c.flag 16 1 0 = false) ∧
    -- PWR_STATUS
    (∃ (c : Cmd) (s : State), readyFor c s = true ∧ goodTable [] c = true) ∧
    -- PWR_COUNTERS that clears nothing
    (∃ (c : Cmd) (s : State), readyFor c s = true ∧ goodTable [fMask 16 1 3, fMask 17 1 3, fZero 18 2] c = true ∧ c.u 16 1 = 0) ∧
    -- PWR_COUNTERS that clears the counters and both sticky bits: the hold on raises ends
    (∃ (c : Cmd) (s : State), readyFor c s = true ∧ goodTable [fMask 16 1 3, fMask 17 1 3, fZero 18 2] c = true ∧ c.u 16 1 = 3 ∧ c.u 17 1 = 3) := by
  and_intros
  · exact ⟨cmd [(1, 2), (1, 0), (2, 0)], .watch, ready, by decide +kernel⟩
  · exact ⟨cmd [(1, 2), (1, 1), (2, 0)], { ready with power.mode := .watch }, by decide +kernel⟩
  · exact ⟨cmd [(1, 3), (1, 0), (2, 0)], ready, by decide +kernel⟩
  · exact ⟨{ cmd [(1, 0), (1, 0), (2, 0)] with lane := 3 }, claim 3 up, by decide +kernel⟩
  · exact ⟨cmd [(1, 0), (1, 0), (2, 0)], { ready with power.change := some { target := .watch, eff := none, asker := .self, cause := 0 } }, by decide +kernel⟩
  · exact ⟨cmd [(1, 0), (1, 0), (1, 0), (1, 0), (2, 0), (2, 0), (4, 0), (6, 0), (1, 0), (1, 0), (2, 10), (1, 0), (1, 1), (1, 2), (1, 0), (1, 0), (1, 0), (2, 100), (2, 0)], ready, by decide +kernel⟩
  · exact ⟨cmd [(1, 0), (1, 0), (1, 2), (1, 0), (2, 0), (2, 0), (4, 0), (6, 0), (1, 0), (1, 0), (2, 10), (1, 0), (1, 1), (1, 2), (1, 0), (1, 0), (1, 0), (2, 100), (2, 0)], ready, by decide +kernel⟩
  · exact ⟨cmd [(1, 1), (3, 0), (8, 100)], ready, by decide +kernel⟩
  · exact ⟨cmd [(1, 1), (3, 0), (8, 0)], ready, by decide +kernel⟩
  · exact ⟨cmd [(1, 0), (3, 0), (8, 0)], ready, by decide +kernel⟩
  · exact ⟨nop, ready, by decide +kernel⟩
  · exact ⟨cmd [(1, 0), (1, 0), (2, 0)], ready, by decide +kernel⟩
  · exact ⟨cmd [(1, 3), (1, 3), (2, 0)], ready, by decide +kernel⟩

theorem test_hypotheses_PoleEventsTakeEffect :
    -- DALI_FRAME_START: the one frame waiting starts once the bus has settled; its start bit is its point of commitment
    (∃ (i extra k : Nat) (x : DaliFrame) (s : State), alive s = true ∧ daliUp s i = true ∧ (s.bus i).sending = none ∧ (s.bus i).answer = none ∧ (s.bus i).slots = [(k, x)] ∧ x.hold = false ∧ x.firstEnd = none ∧ x.late = false ∧ (s.bus i).idleSince + settlingNs x.prio + min extra 1200000 ≤ s.time.mono ∧ s.time.acc < 2 ^ 96) ∧
    -- DALI_FRAME_START of the next frame of an interface that is idle: it is on the bus once the bus has settled
    (∃ (i extra k : Nat) (x : DaliFrame) (s : State), alive s = true ∧ daliUp s i = true ∧ (s.bus i).sending = none ∧ (s.bus i).answer = none ∧ nextDali s i = some (k, x) ∧ x.firstEnd = none) ∧
    -- DALI_FRAME_END of a single frame that expects no answer: SENT
    (∃ (i k t0 : Nat) (x : DaliFrame) (s : State), alive s = true ∧ (s.bus i).sending = some (k, t0) ∧ (s.bus i).slots = [(k, x)] ∧ x.twice = false ∧ x.expect = false ∧ t0 + daliNs x.bits ≤ s.time.mono ∧ s.time.acc < 2 ^ 96 ∧ i < 2) ∧
    -- DALI_BACKWARD_RX within its window: ANSWER, with the byte
    (∃ (i gap data k t0 : Nat) (x : DaliFrame) (s : State), alive s = true ∧ (s.bus i).answer = some (k, t0) ∧ (s.bus i).slots = [(k, x)] ∧ 5300000 ≤ gap ∧ gap ≤ 12000000 ∧ t0 + gap + daliNs 8 ≤ s.time.mono ∧ s.time.acc < 2 ^ 96 ∧ i < 2) ∧
    -- DALI_ANSWER_WINDOW_END: NO_ANSWER
    (∃ (i k t0 : Nat) (x : DaliFrame) (s : State), alive s = true ∧ (s.bus i).answer = some (k, t0) ∧ (s.bus i).slots = [(k, x)] ∧ t0 + 12000000 ≤ s.time.mono ∧ s.time.acc < 2 ^ 96 ∧ i < 2) ∧
    -- DALI_FORWARD_RX of another master's 16-bit frame, with receive events enabled
    (∃ (i data : Nat) (s : State), alive s = true ∧ daliUp s i = true ∧ (s.bus i).sending = none ∧ (daliCfg s i).rxEvents = true) ∧
    -- DALI_COLLISION with resends left: the interface stops, the frame stays in its slot
    (∃ (i k t0 : Nat) (x : DaliFrame) (s : State), alive s = true ∧ (s.bus i).sending = some (k, t0) ∧ (s.bus i).slots = [(k, x)] ∧ (daliCfg s i).collision = true ∧ x.tries < (daliCfg s i).retries ∧ i < 2) ∧
    -- DALI_COLLISION after the last resend: COLLISION
    (∃ (i k t0 : Nat) (x : DaliFrame) (s : State), alive s = true ∧ (s.bus i).sending = some (k, t0) ∧ (s.bus i).slots = [(k, x)] ∧ (daliCfg s i).collision = true ∧ (daliCfg s i).retries ≤ x.tries ∧ i < 2) ∧
    -- DALI_BUS_FAULT of an interface whose slots are empty
    (∃ (i : Nat) (s : State), alive s = true ∧ i < 2 ∧ (daliCfg s i).enable = true ∧ (s.bus i).fault = false ∧ (s.bus i).slots = []) ∧
    -- DALI_BUS_RECOVER
    (∃ (i : Nat) (s : State), alive s = true ∧ i < 2 ∧ (s.bus i).fault = true) ∧
    -- DALI_TWICE_TIMEOUT: 94 ms after the first frame of a pair
    (∃ (i k e : Nat) (x : DaliFrame) (s : State), alive s = true ∧ (s.bus i).slots = [(k, x)] ∧ x.firstEnd = some e ∧ (s.bus i).sending = none ∧ e + 94000000 ≤ s.time.mono ∧ s.time.acc < 2 ^ 96 ∧ i < 2) := by
  and_intros
  · exact ⟨1, 0, 0, { job := 0, bits := 16, data := 0, prio := 0 }, at' 1000000000 { up with kept.pole.dali := [(1, { enable := true, rxEvents := true })], pole.dali := Bank.modify up.pole.dali 1 (fun b => { b with slots := [(0, { job := 0, bits := 16, data := 0, prio := 0 })] }) }, by decide +kernel⟩
  · exact ⟨1, 0, 0, { job := 0, bits := 16, data := 0, prio := 0 }, at' 1000000000 { up with kept.pole.dali := [(1, { enable := true, rxEvents := true })], pole.dali := Bank.modify up.pole.dali 1 (fun b => { b with slots := [(0, { job := 0, bits := 16, data := 0, prio := 0 })] }) }, by decide +kernel⟩
  · exact ⟨1, 0, 0, { job := 0, bits := 16, data := 0, prio := 0 }, at' 1000000000 { up with kept.pole.dali := [(1, { enable := true, rxEvents := true })], pole.dali := Bank.modify up.pole.dali 1 (fun b => { b with sending := some (0, 0), slots := [(0, { job := 0, bits := 16, data := 0, prio := 0 })] }) }, by decide +kernel⟩
  · exact ⟨1, 5300000, 0, 0, 0, { job := 0, bits := 16, data := 0, prio := 0 }, at' 1000000000 { up with kept.pole.dali := [(1, { enable := true, rxEvents := true })], pole.dali := Bank.modify up.pole.dali 1 (fun b => { b with answer := some (0, 0), slots := [(0, { job := 0, bits := 16, data := 0, prio := 0 })] }) }, by decide +kernel⟩
  · exact ⟨1, 0, 0, { job := 0, bits := 16, data := 0, prio := 0 }, at' 1000000000 { up with kept.pole.dali := [(1, { enable := true, rxEvents := true })], pole.dali := Bank.modify up.pole.dali 1 (fun b => { b with answer := some (0, 0), slots := [(0, { job := 0, bits := 16, data := 0, prio := 0 })] }) }, by decide +kernel⟩
  · exact ⟨1, 0, at' 1000000000 { up with kept.pole.dali := [(1, { enable := true, rxEvents := true })], pole.dali := Bank.modify up.pole.dali 1 (fun b => { b with idleSince := 0 }) }, by decide +kernel⟩
  · exact ⟨1, 0, 0, { job := 0, bits := 16, data := 0, prio := 0, tries := 2 }, at' 1000000000 { up with kept.pole.dali := [(1, { enable := true, rxEvents := true })], pole.dali := Bank.modify up.pole.dali 1 (fun b => { b with sending := some (0, 0), slots := [(0, { job := 0, bits := 16, data := 0, prio := 0, tries := 2 })] }) }, by decide +kernel⟩
  · exact ⟨1, 0, 0, { job := 0, bits := 16, data := 0, prio := 0, tries := 3 }, at' 1000000000 { up with kept.pole.dali := [(1, { enable := true, rxEvents := true })], pole.dali := Bank.modify up.pole.dali 1 (fun b => { b with sending := some (0, 0), slots := [(0, { job := 0, bits := 16, data := 0, prio := 0, tries := 3 })] }) }, by decide +kernel⟩
  · exact ⟨1, at' 1000000000 { up with kept.pole.dali := [(1, { enable := true, rxEvents := true })], pole.dali := Bank.modify up.pole.dali 1 (fun b => { b with idleSince := 0 }) }, by decide +kernel⟩
  · exact ⟨1, at' 1000000000 { up with kept.pole.dali := [(1, { enable := true, rxEvents := true })], pole.dali := Bank.modify up.pole.dali 1 (fun b => { b with fault := true }) }, by decide +kernel⟩
  · exact ⟨1, 0, 0, { job := 0, bits := 16, data := 0, prio := 0, firstEnd := some 0 }, at' 94000000 { up with kept.pole.dali := [(1, { enable := true, rxEvents := true })], pole.dali := Bank.modify up.pole.dali 1 (fun b => { b with slots := [(0, { job := 0, bits := 16, data := 0, prio := 0, firstEnd := some 0 })] }) }, by decide +kernel⟩

theorem test_hypotheses_TimerPinAndMeterEvents :
    -- TIMER_WRAP of a one-shot channel: time moves to the tick at which it stops, TIMER_DONE is raised
    (∃ (c : Nat) (s : State), alive s = true ∧ c < 16 ∧ unitUp s 38 = true ∧ s.power.mode ≠ .dormant ∧ (s.tmr c).running = true ∧ (tmrCfg s c).mode = 2 ∧ (s.tmr c).base < (tmrCfg s c).period) ∧
    -- TIMER_WRAP of a periodic channel without an output and without a channel linked to it: it counts on from 0
    (∃ (c t0 : Nat) (s : State), t0 = (s.tmr c).baseNs + ((tmrCfg s c).period - (s.tmr c).base) * tmrTick (tmrCfg s c) ∧ alive s = true ∧ 8 ≤ c ∧ c < 16 ∧ unitUp s 38 = true ∧ s.power.mode ≠ .dormant ∧ (s.tmr c).running = true ∧ (tmrCfg s c).mode = 1 ∧ (s.tmr c).base + (s.time.mono - (s.tmr c).baseNs) / tmrTick (tmrCfg s c) < (tmrCfg s c).period ∧ (s.tmr c).shadowA = none ∧ (s.tmr c).shadowB = none ∧ (s.tmr c).cmpB ≠ 0 ∧ linkedTo s (c + 1) = false) ∧
    -- TIMER_MATCH of CMP_B on a one-shot channel that has not reached it: time moves to the tick, TIMER_MATCH is raised
    (∃ (c t0 : Nat) (s : State), t0 = (s.tmr c).baseNs + ((s.tmr c).cmpB - (s.tmr c).base) * tmrTick (tmrCfg s c) ∧ alive s = true ∧ c < 16 ∧ unitUp s 38 = true ∧ s.power.mode ≠ .dormant ∧ (s.tmr c).running = true ∧ (tmrCfg s c).mode = 2 ∧ (tmrCfg s c).matchEvent = true ∧ (s.tmr c).cmpB < (tmrCfg s c).period ∧ tmrCount s c < (s.tmr c).cmpB) ∧
    -- TIMER_CAPTURE with room in the queue of the channel
    (∃ (p c : Nat) (r : Bool) (s : State), alive s = true ∧ p < 32 ∧ (gpioCfg s p).alt = 1 ∧ c = (gpioCfg s p).arg ∧ c < 16 ∧ unitUp s 38 = true ∧ s.boot.stage = 8 ∧ s.power.mode ≠ .dormant ∧ hasBit (tmrCfg s c).capEdge (if r then 0 else 1) = true ∧ (s.tmr c).queue.length < 4 ∧ (s.tmr c).fullAt ≠ some s.time.mono) ∧
    -- GPIO_EDGE of an input whose rising edges raise events: one event, no wake
    (∃ (p : Nat) (s : State), alive s = true ∧ p < 32 ∧ (gpioCfg s p).mode = 0 ∧ unitUp s 38 = true ∧ s.boot.stage = 8 ∧ s.power.mode ≠ .dormant ∧ (gpioCfg s p).onRise = true ∧ Map.get? s.pole.edgeBeat p ≠ some s.beat ∧ hasBit s.kept.power.config.gpioWake p = false) ∧
    -- METER_JOB of a beat that carried no samples: a gap is counted
    (∃ (f : MeterFrame) (s : State), alive s = true ∧ (meterCfg s).enable = true ∧ unitUp s 37 = true ∧ s.overrunning 37 = false ∧ s.boot.stage = 8 ∧ s.power.mode ≠ .dormant ∧ s.time.settling = false ∧ s.pole.jobBeat ≠ some s.beat ∧ s.beat ≠ 0 ∧ s.pole.jobEpoch = s.kept.time.epoch ∧ s.pole.trigCh = none ∧ s.pole.gather = none ∧ s.stw.jobs = [] ∧ s.pole.holdoff = []) ∧
    -- METER_JOB of a beat in which channels 0 and 1 were sampled, none lost or at full scale, no rule enabled: the pair's accumulators grow, the block joins the history
    (∃ (f : MeterFrame) (ch : Nat) (a b : List Int) (s : State), a = channelCodes f (perBeat (meterCfg s).rate) 0 ∧ b = channelCodes f (perBeat (meterCfg s).rate) 1 ∧ alive s = true ∧ (meterCfg s).enable = true ∧ (meterCfg s).mask = 3 ∧ unitUp s 37 = true ∧ s.overrunning 37 = false ∧ s.boot.stage = 8 ∧ s.power.mode ≠ .dormant ∧ s.time.settling = false ∧ s.pole.jobBeat ≠ some s.beat ∧ s.beat ≠ 0 ∧ s.pole.jobEpoch = s.kept.time.epoch ∧ s.pole.trigCh = some ch ∧ (s.trig ch).armed = true ∧ (s.trig ch).held = false ∧ s.pole.liveFrom ≤ s.beat - 1 ∧ s.ns < (s.trig ch).nextNs ∧ a.all (fun x => x ≠ lostCode ∧ !clipped x) = true ∧ b.all (fun x => x ≠ lostCode ∧ !clipped x) = true ∧ 0 < products a b ∧ s.pole.gather = none ∧ s.stw.jobs = [] ∧ s.kept.pole.rules = [] ∧ s.pole.holdoff = []) ∧
    -- METER_JOB of any beat while metering runs: the frame of the last beat is taken, once
    (∃ (f : MeterFrame) (s : State), alive s = true ∧ (meterCfg s).enable = true ∧ unitUp s 37 = true ∧ s.overrunning 37 = false ∧ s.boot.stage = 8 ∧ s.power.mode ≠ .dormant ∧ s.time.settling = false ∧ s.pole.jobBeat ≠ some s.beat ∧ s.beat ≠ 0) := by
  and_intros
  · exact ⟨15, updTmr 15 (fun t => { t with running := true }) { up with kept.pole.timers := [(15, { mode := 2 })] }, by decide +kernel⟩
  · exact ⟨15, _, updTmr 15 (fun t => { t with running := true, cmpB := 1 }) { up with kept.pole.timers := [(15, { mode := 1 })] }, rfl, by decide +kernel⟩
  · exact ⟨15, _, updTmr 15 (fun t => { t with running := true, cmpB := 5 }) { up with kept.pole.timers := [(15, { mode := 2, matchEvent := true })] }, rfl, by decide +kernel⟩
  · exact ⟨31, 15, true, { up with kept.pole.gpio := [(31, { alt := 1, arg := 15 })], kept.pole.timers := [(15, { capEdge := 1 })] }, by decide +kernel⟩
  · exact ⟨31, { up with kept.pole.gpio := [(31, { onRise := true })] }, by decide +kernel⟩
  · exact ⟨{}, at' 1000000 { up with kept.pole.meter.enable := true }, by decide +kernel⟩
  · exact ⟨{ codes := [List.replicate 8 1, List.replicate 8 1] }, 15, _, _, at' 1000000 { up with kept.pole.meter.enable := true, kept.pole.meter.mask := 3, pole.trigCh := some 15, time.triggers := Bank.modify up.time.triggers 15 (fun t => { t with armed := true, nextNs := 10 ^ 9 }) }, rfl, rfl, by decide +kernel⟩
  · exact ⟨{}, at' 1000000 { up with kept.pole.meter.enable := true }, by decide +kernel⟩

theorem test_hypotheses_PoleCommandsComplete :
    -- METER_CONFIG of a service that holds its trigger channel
    (∃ (c : Cmd) (ch : Nat) (s : State), readyFor c s = true ∧ goodTable [fMask 16 1 3, fRange 17 1 0 2, fMask 18 1 0xF, fZero 19 1, fRange 20 2 16 256, fZero 22 2, fAny 24 4, fAny 28 4, fAny 32 4, fAny 36 4, fRange 40 4 60000 86400000] c = true ∧ c.flag 16 1 0 = true ∧ s.pole.trigCh = some ch) ∧
    -- METER_CONFIG that enables the service: it claims and arms the highest free trigger channel
    (∃ (c : Cmd) (ch b : Nat) (s : State), readyFor c s = true ∧ goodTable [fMask 16 1 3, fRange 17 1 0 2, fMask 18 1 0xF, fZero 19 1, fRange 20 2 16 256, fZero 22 2, fAny 24 4, fAny 28 4, fAny 32 4, fAny 36 4, fRange 40 4 60000 86400000] c = true ∧ c.flag 16 1 0 = true ∧ s.pole.trigCh = none ∧ freeTrigger s = some ch ∧ b = (s.ns + 1049999) / 1000000) ∧
    -- METER_TRIG_SET
    (∃ (c : Cmd) (s : State), readyFor c s = true ∧ goodTable [fRange 16 1 0 3, fMask 17 1 3, fRange 18 1 0 3, fRange 19 1 0 3, fAny 20 4, fRange 24 2 1 100, fRange 26 1 1 100, fZero 27 1, fAny 28 2, fRange 30 2 1 4096, fAny 32 2] c = true ∧ c.u 28 2 ≤ s.next.pole.meter.history) ∧
    -- METER_CAPTURE_FIRE of the next beat, or of a beat that has not passed, is committed and waits for that beat's job
    (∃ (c : Cmd) (s : State), readyFor c s = true ∧ goodTable [fAny 16 8, fAny 24 2, fRange 26 2 1 4096] c = true ∧ (c.u 16 8 = 0 ∨ s.beat ≤ c.u 16 8) ∧ c.u 24 2 ≤ s.next.pole.meter.history) ∧
    -- METER_CAPTURE_FIRE with more samples before the beat than the history holds: BAD_ARG
    (∃ (c : Cmd) (s : State), readyFor c s = true ∧ goodTable [fAny 16 8, fAny 24 2, fRange 26 2 1 4096] c = true ∧ s.next.pole.meter.history < c.u 24 2) ∧
    -- METER_CAPTURE_FIRE of a beat that has passed: LATE
    (∃ (c : Cmd) (s : State), readyFor c s = true ∧ goodTable [fAny 16 8, fAny 24 2, fRange 26 2 1 4096] c = true ∧ c.u 16 8 ≠ 0 ∧ c.u 16 8 < s.beat ∧ c.u 24 2 ≤ s.next.pole.meter.history) ∧
    -- METER_CAPTURE_READ of a record, without freeing it
    (∃ (c : Cmd) (r : Capture) (b : List Byte) (s : State), b = (r.bytes.drop (c.u 20 4)).take c.bulkLen ∧ readyFor c s = true ∧ goodTable [fAny 16 4, fAny 20 4, fMask 24 1 1, fZero 25 3] c = true ∧ hasBit c.flags 0 = true ∧ s.pole.records.find? (fun x => x.id = c.u 16 4) = some r ∧ c.flag 24 1 0 = false) ∧
    -- METER_ENERGY_READ of a pair whose scales are 0, its windows not full, with a clear: the RMS values are open
    (∃ (c : Cmd) (s : State), readyFor c s = true ∧ goodTable [fRange 16 1 0 1, fMask 17 1 1, fZero 18 2] c = true ∧ c.u 16 1 = 0 ∧ c.flag 17 1 0 = true ∧ s.kept.pole.rules = [] ∧ s.pole.sums = [] ∧ (meterCfg s).scale = [0, 0, 0, 0]) ∧
    -- METER_ENERGY_READ of either pair, whatever its scales: its sums are answered, and cleared where it asks
    (∃ (c : Cmd) (s : State), readyFor c s = true ∧ goodTable [fRange 16 1 0 1, fMask 17 1 1, fZero 18 2] c = true) := by
  and_intros
  · exact ⟨cmd [(1, 1), (1, 0), (1, 0), (1, 0), (2, 16), (2, 0), (4, 0), (4, 0), (4, 0), (4, 0), (4, 60000)], 15, { ready with pole.trigCh := some 15 }, by decide +kernel⟩
  · exact ⟨cmd [(1, 1), (1, 0), (1, 0), (1, 0), (2, 16), (2, 0), (4, 0), (4, 0), (4, 0), (4, 0), (4, 60000)], 15, 1, ready, by decide +kernel⟩
  · exact ⟨cmd [(1, 0), (1, 0), (1, 0), (1, 0), (4, 0), (2, 1), (1, 1), (1, 0), (2, 0), (2, 1), (2, 0), (2, 0)], ready, by decide +kernel⟩
  · exact ⟨cmd [(8, 5), (2, 0), (2, 1)], ready, by decide +kernel⟩
  · exact ⟨cmd [(8, 0), (2, 65535), (2, 1)], ready, by decide +kernel⟩
  · exact ⟨cmd [(8, 1), (2, 0), (2, 1)], at' 2000000 ready, by decide +kernel⟩
  · exact ⟨{ cmd [(4, 0), (4, 0), (1, 0), (3, 0)] with flags := 1, bulkLen := 64 }, { id := 0, trigger := 0, chan := 0, rate := 1, mask := 15, beat := 0, sample := 0, epoch := 0, pre := 0, postLeft := 0 }, _, { ready with pole.records := [{ id := 0, trigger := 0, chan := 0, rate := 1, mask := 15, beat := 0, sample := 0, epoch := 0, pre := 0, postLeft := 0 }] }, rfl, by decide +kernel⟩
  · exact ⟨cmd [(1, 0), (1, 1), (2, 0)], ready, by decide +kernel⟩
  · exact ⟨cmd [(1, 1), (1, 1), (2, 0)], ready, by decide +kernel⟩

theorem test_hypotheses_DaliTimerAndPinCommands :
    -- DALI_CONFIG
    (∃ (c : Cmd) (s : State), readyFor c s = true ∧ goodTable [fRange 16 1 0 1, fMask 17 1 0x1F, fRange 18 1 0 7, fZero 19 1] c = true) ∧
    -- DALI_SEND into a named free slot waits for its frame
    (∃ (c : Cmd) (s : State), readyFor c s = true ∧ goodTable [fRange 16 1 0 1, fOneOf 17 1 (List.range 16 ++ [0xFF]), fMask 18 1 7, fOneOf 19 1 [16, 24], fRange 20 1 1 5, fZero 21 3, fAny 24 4] c = true ∧ c.u 16 1 = 1 ∧ c.u 17 1 < 16 ∧ (s.bus 1).fault = false ∧ (s.bus 1).slots = []) ∧
    -- DALI_SEND on a bus in fault: BUSY
    (∃ (c : Cmd) (s : State), readyFor c s = true ∧ goodTable [fRange 16 1 0 1, fOneOf 17 1 (List.range 16 ++ [0xFF]), fMask 18 1 7, fOneOf 19 1 [16, 24], fRange 20 1 1 5, fZero 21 3, fAny 24 4] c = true ∧ (s.bus (c.u 16 1)).fault = true) ∧
    -- TMR_CHAN_SET of a channel whose counter stands: staged, its compare values shadowed
    (∃ (c : Cmd) (s : State), readyFor c s = true ∧ goodTable [fRange 16 1 0 15, fRange 17 1 0 3, fMask 18 1 0xF, fMask 19 1 3, fAny 20 2, fZero 22 2, fRange 24 4 2 0xFFFFFFFF, fAny 28 4, fAny 32 4, fAny 36 4] c = true ∧ c.u 17 1 = 1 ∧ c.u 28 4 < c.u 24 4 ∧ (tmrCfg s (c.u 16 1)).mode = 0) ∧
    -- TMR_GROUP stop of a group none of whose channels it controls: nothing changes
    (∃ (c : Cmd) (s : State), readyFor c s = true ∧ goodTable [fRange 16 1 0 3, fRange 17 1 0 2, fZero 18 2] c = true ∧ c.u 17 1 = 0 ∧ s.kept.pole.timers = []) ∧
    -- TMR_GROUP start of a group of which it controls one channel without an output: the counter is loaded and runs
    (∃ (c : Cmd) (g : TmrCfg) (s : State), readyFor c s = true ∧ goodTable [fRange 16 1 0 3, fRange 17 1 0 2, fZero 18 2] c = true ∧ c.u 16 1 = 2 ∧ c.u 17 1 = 1 ∧ s.kept.pole.timers = [(9, g)] ∧ g.mode = 2 ∧ g.runOnGroup = true ∧ (s.tmr 9).cmpA ≠ g.phase ∧ (s.tmr 9).cmpB ≠ g.phase) ∧
    -- TMR_COMPARE of CMP_B with SHADOW: it waits for the wrap
    (∃ (c : Cmd) (s : State), readyFor c s = true ∧ goodTable [fRange 16 1 0 15, fRange 17 1 0 1, fMask 18 1 1, fZero 19 1, fAny 20 4] c = true ∧ c.u 17 1 = 1 ∧ c.flag 18 1 0 = true ∧ (tmrCfg s (c.u 16 1)).mode = 2) ∧
    -- TMR_COMPARE of CMP_B that the counter has passed: it takes effect, is answered as behind and counted
    (∃ (c : Cmd) (s : State), readyFor c s = true ∧ goodTable [fRange 16 1 0 15, fRange 17 1 0 1, fMask 18 1 1, fZero 19 1, fAny 20 4] c = true ∧ c.u 17 1 = 1 ∧ c.flag 18 1 0 = false ∧ (tmrCfg s (c.u 16 1)).mode = 2 ∧ (tmrCfg s (c.u 16 1)).lateFire = false ∧ c.u 20 4 ≤ tmrCount s (c.u 16 1)) ∧
    -- TMR_CAPTURE_READ of an empty queue
    (∃ (c : Cmd) (s : State), readyFor c s = true ∧ goodTable [fRange 16 1 0 15, fRange 17 1 1 4, fMask 18 1 1, fZero 19 1] c = true ∧ (s.tmr (c.u 16 1)).queue = []) ∧
    -- TMR_CAPTURE_READ of any queue: its oldest captures, which leave it
    (∃ (c : Cmd) (x : TmrRun) (s : State), x = s.tmr (c.u 16 1) ∧ readyFor c s = true ∧ goodTable [fRange 16 1 0 15, fRange 17 1 1 4, fMask 18 1 1, fZero 19 1] c = true) ∧
    -- GPIO_CONFIG of one pin
    (∃ (c : Cmd) (s : State), readyFor c s = true ∧ goodTable [fRange 16 1 0 31, fRange 17 1 0 31, fRange 18 1 0 2, fRange 19 1 0 2, fRange 20 1 0 2, fAny 21 1, fAny 22 1, fMask 23 1 3] c = true ∧ c.u 16 1 = 4 ∧ c.u 17 1 = 4 ∧ c.u 20 1 = 0) ∧
    -- GPIO_WRITE with every pin an input that nothing drives: the levels written are Kept, every pin reads 0
    (∃ (c : Cmd) (s : State), readyFor c s = true ∧ goodTable [fAny 16 4, fAny 20 4] c = true ∧ s.kept.pole.gpio = [] ∧ s.pole.ext = []) ∧
    -- GPIO_WRITE of any pins, whatever drives them: the levels written are Kept
    (∃ (c : Cmd) (s : State), readyFor c s = true ∧ goodTable [fAny 16 4, fAny 20 4] c = true) ∧
    -- POLE_COUNTERS of the timers, clearing them and two sticky bits
    (∃ (c : Cmd) (s : State), readyFor c s = true ∧ goodTable [fRange 16 1 0 3, fMask 17 1 3, fMask 18 1 0xF, fZero 19 1] c = true ∧ c.u 16 1 = 3 ∧ c.u 17 1 = 3 ∧ c.u 18 1 = 6) := by
  and_intros
  · exact ⟨cmd [(1, 0), (1, 0), (1, 0), (1, 0)], ready, by decide +kernel⟩
  · exact ⟨cmd [(1, 1), (1, 0), (1, 0), (1, 16), (1, 1), (3, 0), (4, 0)], ready, by decide +kernel⟩
  · exact ⟨cmd [(1, 0), (1, 0), (1, 0), (1, 16), (1, 1), (3, 0), (4, 0)], { ready with pole.dali := Bank.modify ready.pole.dali 0 (fun b => { b with fault := true }) }, by decide +kernel⟩
  · exact ⟨cmd [(1, 0), (1, 1), (1, 0), (1, 0), (2, 0), (2, 0), (4, 2), (4, 0), (4, 0), (4, 0)], ready, by decide +kernel⟩
  · exact ⟨cmd [(1, 0), (1, 0), (2, 0)], ready, by decide +kernel⟩
  · exact ⟨cmd [(1, 2), (1, 1), (2, 0)], { mode := 2, phase := 5 }, { ready with kept.pole.timers := [(9, { mode := 2, phase := 5 })] }, by decide +kernel⟩
  · exact ⟨cmd [(1, 0), (1, 1), (1, 1), (1, 0), (4, 0)], { ready with kept.pole.timers := [(0, { mode := 2 })] }, by decide +kernel⟩
  · exact ⟨cmd [(1, 0), (1, 1), (1, 0), (1, 0), (4, 0)], { ready with kept.pole.timers := [(0, { mode := 2 })] }, by decide +kernel⟩
  · exact ⟨cmd [(1, 0), (1, 1), (1, 0), (1, 0)], ready, by decide +kernel⟩
  · exact ⟨cmd [(1, 0), (1, 1), (1, 0), (1, 0)], _, ready, rfl, by decide +kernel⟩
  · exact ⟨cmd [(1, 4), (1, 4), (1, 0), (1, 0), (1, 0), (1, 0), (1, 0), (1, 0)], ready, by decide +kernel⟩
  · exact ⟨cmd [(4, 0), (4, 0)], ready, by decide +kernel⟩
  · exact ⟨cmd [(4, 3), (4, 0)], ready, by decide +kernel⟩
  · exact ⟨cmd [(1, 3), (1, 3), (1, 6), (1, 0)], ready, by decide +kernel⟩

theorem test_hypotheses_ResetsTakeEffect :
    -- POR_RELEASE with TEST_MODE low: the straps are sampled and the boot starts from the Cold values, flash and fuses as they were
    (∃ (b a : Nat) (f : Bool) (s : State), s.boot.porHeld = true) ∧
    -- POR_RELEASE with TEST_MODE high: the manual does not apply
    (∃ (b a : Nat) (f : Bool) (s : State), s.boot.porHeld = true) ∧
    -- while the DRAM pads are in reset CK, CS and DRST_N are driven low and every other ball is free, as the power-on reset leaves them
    (∃ (b : DramBall) (s : State), s.mem.drive = .reset) ∧
    -- in any other state of the DRAM pads none is held so
    (∃ (b : DramBall) (s : State), s.mem.drive ≠ .reset) ∧
    -- SUPPLY_MONITOR_TRIP: the power-on reset holds the device
    (∃ (k : Nat) (s : State), k < 4) ∧
    -- SUPPLY_MONITOR_TRIP: the DRAM pads are in reset
    (∃ (k : Nat) (s : State), k < 4) ∧
    -- BROWN_OUT: a cold start but for its cause
    (∃ (s : State), s.boot.porHeld = false) ∧
    -- SYS_RESET_N_LOW of a microsecond or more: the warm reset is held; the TIME domain, SYS_SCRATCH, flash and fuses stay
    (∃ (n : Nat) (s : State), 1000 ≤ n ∧ s.boot.porHeld = false) ∧
    -- SYS_RESET_N_LOW of less than 100 ns: ignored
    (∃ (n : Nat) (s : State), n < 100) ∧
    -- SYS_RESET_N_RISE: the straps are sampled and the boot starts
    (∃ (b : Nat) (f : Bool) (s : State), s.boot.pinHeld = true) ∧
    -- WARM_RESET that is due
    (∃ (b : Nat) (f : Bool) (x : WarmPlan) (d : Nat) (s : State), alive s = true ∧ s.stw.warmReq = some x ∧ x.due = some d) ∧
    -- BOOT_STAGE, the latched straps: the ROM runs
    (∃ (f : BootFacts) (s : State), alive s = true ∧ s.boot.stage = 0 ∧ s.stw.state = .rom ∧ s.stw.warmReq = none) ∧
    -- BOOT_STAGE, the ROM's self-test of the key store fails: FAULT
    (∃ (f : BootFacts) (s : State), alive s = true ∧ s.boot.stage = 1 ∧ s.stw.state = .rom ∧ s.stw.warmReq = none ∧ f.keyStoreOk = false) ∧
    -- BOOT_STAGE, the self-tests pass: the supplies' operating point is confirmed
    (∃ (f : BootFacts) (s : State), alive s = true ∧ s.boot.stage = 1 ∧ s.stw.state = .rom ∧ s.stw.warmReq = none ∧ f.keyStoreOk = true ∧ f.fuseStable = true) := by
  and_intros
  · exact ⟨0, 0, false, { up with boot.porHeld := true }, by decide +kernel⟩
  · exact ⟨0, 0, false, { up with boot.porHeld := true }, by decide +kernel⟩
  · exact ⟨.ck, { up with mem.drive := .reset }, by decide +kernel⟩
  · exact ⟨.cs, { up with mem.drive := .running }, by decide +kernel⟩
  · exact ⟨3, up, by decide +kernel⟩
  · exact ⟨0, up, by decide +kernel⟩
  · exact ⟨up, by decide +kernel⟩
  · exact ⟨1000, up, by decide +kernel⟩
  · exact ⟨99, up, by decide +kernel⟩
  · exact ⟨0, false, { up with boot.pinHeld := true }, by decide +kernel⟩
  · exact ⟨0, false, { due := some 5 }, 5, { up with stw.warmReq := some { due := some 5 } }, by decide +kernel⟩
  · exact ⟨{}, { State.reset with boot.stage := 0 }, by decide +kernel⟩
  · exact ⟨{ keyStoreOk := false }, State.reset, by decide +kernel⟩
  · exact ⟨{}, State.reset, by decide +kernel⟩

theorem test_hypotheses_FlashAndRestartsTakeEffect :
    -- FACTORY_STRAP_TIMEOUT: a factory restore, and a warm reset 10 beats on
    (∃ (s : State), alive s = true ∧ s.boot.factoryWatch = true ∧ s.stw.state = .ready) ∧
    -- AUTO_CONFIRM of a trial that has run long enough: the permanent record is written
    (∃ (s : State), alive s = true ∧ s.stw.trialBoot = true ∧ (recordNow s).trial = true ∧ (recordNow s).autoConfirm = true ∧ (recordNow s).confirmBeats ≤ s.boot.trialBeats ∧ s.stw.state = .ready ∧ s.boot.flashJobs = []) ∧
    -- AUTO_CONFIRM of such a trial whatever else the flash is asked for, no confirmation under way
    (∃ (s : State), alive s = true ∧ s.stw.trialBoot = true ∧ (recordNow s).trial = true ∧ (recordNow s).autoConfirm = true ∧ (recordNow s).confirmBeats ≤ s.boot.trialBeats ∧ s.stw.state = .ready ∧ confirming s = false) ∧
    -- FLASH_PROGRAMME_DONE of a confirmation: the record stands, the rollback fuse rises, the trial ends
    (∃ (r : CommitRecord) (s : State), alive s = true ∧ s.boot.flashJobs = [.confirm none r]) ∧
    -- PERST_N_RISE
    (∃ (s : State), alive s = true) ∧
    -- INGOT_COPY_START where a copy is due and none runs, its records within its region: the region that does not hold the newest copy is erased
    (∃ (s : State), alive s = true ∧ s.stw.changePending = true ∧ s.stw.saveNow = true ∧ s.boot.stage = 8 ∧ s.stw.state = .ready ∧ coresRun s = true ∧ s.boot.flashJobs = []) ∧
    -- INGOT_COPY_START on any of the conditions, whoever waits for the copy, whatever else the flash is asked for
    (∃ (s : State), alive s = true ∧ copyDue s = true ∧ s.boot.stage = 8 ∧ s.stw.state = .ready ∧ coresRun s = true ∧ copying s = false) ∧
    -- INGOT_COPY_START, no command waiting for it, and its records exceed its region: not written, reported with DETAIL 0x10
    (∃ (s : State), alive s = true ∧ s.stw.changePending = true ∧ s.stw.saveNow = true ∧ s.boot.stage = 8 ∧ s.stw.state = .ready ∧ coresRun s = true ∧ s.boot.flashJobs = [] ∧ s.stw.jobs = [] ∧ s.stw.warmReq = none ∧ s.boot.commitWaits = none) ∧
    -- INGOT_COPY_DONE, no command waiting for it: the copy stands
    (∃ (r : Nat) (x : IngotCopy) (s : State), alive s = true ∧ s.boot.flashJobs = [.copy r x] ∧ r ≤ 1 ∧ s.stw.jobs = [] ∧ s.stw.warmReq = none ∧ s.boot.commitWaits = none) ∧
    -- INGOT_COPY_DONE, whoever waits for it: the copy stands
    (∃ (r : Nat) (x : IngotCopy) (rest : List FlashJob) (s : State), alive s = true ∧ s.boot.flashJobs = .copy r x :: rest) ∧
    -- INGOT_COPY_DONE of a copy that fails, no command waiting for it: reported, the other copy stands
    (∃ (r : Nat) (x : IngotCopy) (s : State), alive s = true ∧ s.boot.flashJobs = [.copy r x] ∧ s.stw.jobs = [] ∧ s.stw.warmReq = none ∧ s.boot.commitWaits = none) ∧
    -- STEWARD_RESTART asked for, no command open and none in the last minute
    (∃ (cause d : Nat) (u : State) (s : State), u = advanceTo (d * 1000000) s ∧ alive s = true ∧ s.stw.restartReq = some (cause, d) ∧ s.stw.state = .ready ∧ coresRun s = true ∧ s.power.mode ≠ .dormant ∧ s.stw.jobs = [] ∧ s.assay.restarts = []) ∧
    -- STEWARD_RESTART asked for, fewer than two before it in the last minute, whatever is open
    (∃ (cause d : Nat) (u : State) (s : State), u = passTo (d * 1000000) s ∧ alive s = true ∧ s.stw.restartReq = some (cause, d) ∧ firmwareUp s = true ∧ (s.assay.restarts.filter (fun b => decide (b + 60000 > u.beat))).length < 2) ∧
    -- STEWARD_READY after a restart in READY, no command open and no doorbell held
    (∃ (s : State), alive s = true ∧ s.stw.state = .restarting ∧ s.boot.stage = 8 ∧ s.stw.jobs = [] ∧ (s.lane 0).order = [] ∧ (s.lane 1).order = [] ∧ (s.lane 2).order = [] ∧ (s.lane 3).order = []) ∧
    -- STEWARD_READY after a restart in READY, whatever is open, no doorbell held: the Steward serves, and every command that ended meanwhile is answered
    (∃ (s : State), alive s = true ∧ s.stw.state = .restarting ∧ s.boot.stage = 8 ∧ (List.range 4).all (fun n => (s.lane n).order.isEmpty) = true) := by
  and_intros
  · exact ⟨{ up with boot.factoryWatch := true }, by decide +kernel⟩
  · exact ⟨{ up with stw.trialBoot := true, boot.trialBeats := 600000, boot.flash.rec0 := some { seq := 1, active := 1, trial := true, autoConfirm := true } }, by decide +kernel⟩
  · exact ⟨{ up with stw.trialBoot := true, boot.trialBeats := 600000, boot.flash.rec0 := some { seq := 1, active := 1, trial := true, autoConfirm := true } }, by decide +kernel⟩
  · exact ⟨{ seq := 1, active := 1, trial := true, autoConfirm := true }, { up with boot.flashJobs := [.confirm none { seq := 1, active := 1, trial := true, autoConfirm := true }] }, by decide +kernel⟩
  · exact ⟨up, by decide +kernel⟩
  · exact ⟨{ up with stw.changePending := true, stw.saveNow := true }, by decide +kernel⟩
  · exact ⟨{ up with stw.changePending := true, stw.saveNow := true }, by decide +kernel⟩
  · exact ⟨{ up with stw.changePending := true, stw.saveNow := true }, by decide +kernel⟩
  · exact ⟨1, { seq := 0, kept := {} }, { up with boot.flashJobs := [.copy 1 { seq := 0, kept := {} }] }, by decide +kernel⟩
  · exact ⟨1, { seq := 0, kept := {} }, [], { up with boot.flashJobs := [.copy 1 { seq := 0, kept := {} }] }, by decide +kernel⟩
  · exact ⟨0, { seq := 0, kept := {} }, { up with boot.flashJobs := [.copy 0 { seq := 0, kept := {} }] }, by decide +kernel⟩
  · exact ⟨1, 5, _, { up with stw.restartReq := some (1, 5) }, rfl, by decide +kernel⟩
  · exact ⟨1, 5, _, { up with stw.restartReq := some (1, 5), assay.restarts := [0] }, rfl, by decide +kernel⟩
  · exact ⟨{ up with stw.state := .restarting }, by decide +kernel⟩
  · exact ⟨{ up with stw.state := .restarting }, by decide +kernel⟩

theorem test_hypotheses_SecurityCommandsComplete :
    -- SEC_INFO: SEQ and COPY of the newest flash copy, 0 where there is none
    (∃ (c : Cmd) (seq copy : Nat) (s : State), readyFor c s = true ∧ goodTable [] c = true ∧ c.lane ≤ 2 ∧ seq = ((newestCopy s.boot.flash).map (fun e => e.2.seq)).getD 0 ∧ copy = ((newestCopy s.boot.flash).map (fun e => e.1)).getD 0) ∧
    -- SEC_ATTEST: the claims of Table 12-6, over the image that runs, and a signature
    (∃ (c : Cmd) (seq : Nat) (m : Memory) (s : State), m = imageOf s (if s.boot.hostRun then 2 else s.stw.imageSlot) ∧ readyFor c s = true ∧ goodTable [fAny 16 32] c = true ∧ c.lane ≤ 2 ∧ seq = ((newestCopy s.boot.flash).map (fun e => e.2.seq)).getD 0) ∧
    -- SEC_CERT_READ: the certificate chain from OFFSET, as much as the bulk region takes
    (∃ (c : Cmd) (n : Nat) (s : State), n = min c.bulkLen (Config.certLength - c.u 16 4) ∧ readyFor c s = true ∧ goodTable [fAny 16 4] c = true ∧ c.lane ≤ 2 ∧ hasBit c.flags 0 = true) ∧
    -- SEC_CERT_READ without a bulk region: BAD_ARG
    (∃ (c : Cmd) (s : State), readyFor c s = true ∧ goodTable [fAny 16 4] c = true ∧ c.lane ≤ 2 ∧ hasBit c.flags 0 = false) ∧
    -- SEC_KEY_SET of the lane 2 key
    (∃ (c : Cmd) (s : State), readyFor c s = true ∧ goodTable [fRange 16 1 0 1, fZero 17 3, fAny 20 48] c = true ∧ c.lane ≤ 2 ∧ c.u 16 1 = 0) ∧
    -- SEC_KEY_SET of the owner key on lane 0 or 1, fused once
    (∃ (c : Cmd) (s : State), readyFor c s = true ∧ goodTable [fRange 16 1 0 1, fZero 17 3, fAny 20 48] c = true ∧ c.lane ≤ 1 ∧ c.u 16 1 = 1 ∧ s.boot.fuses.ownerHash = none) ∧
    -- SEC_KEY_SET of the owner key that is fused already, or on lane 2: DENIED
    (∃ (c : Cmd) (s : State), readyFor c s = true ∧ goodTable [fRange 16 1 0 1, fZero 17 3, fAny 20 48] c = true ∧ c.lane ≤ 2 ∧ c.u 16 1 = 1 ∧ (c.lane = 2 ∨ s.boot.fuses.ownerHash.isSome = true)) ∧
    -- IMG_BEGIN for the flash slot that does not run, no update of another lane open
    (∃ (c : Cmd) (s : State), readyFor c s = true ∧ goodTable [fRange 16 1 0 2, fZero 17 3, fRange 20 4 0 (slotBytes - 512), fRange 24 1 0 63, fZero 25 3] c = true ∧ c.lane ≤ 2 ∧ s.boot.update.all (fun x => decide (x.lane = c.lane)) = true ∧ c.u 16 1 ≠ 2 ∧ c.u 16 1 ≠ (recordNow s).active ∧ (recordNow s).trial = false ∧ s.boot.fuses.rollback ≤ c.u 24 1) ∧
    -- IMG_BEGIN for the slot that runs, for the RAM target in READY, during a trial, or below the rollback version: DENIED
    (∃ (c : Cmd) (s : State), readyFor c s = true ∧ goodTable [fRange 16 1 0 2, fZero 17 3, fRange 20 4 0 (slotBytes - 512), fRange 24 1 0 63, fZero 25 3] c = true ∧ c.lane ≤ 2 ∧ s.boot.update.all (fun x => decide (x.lane = c.lane)) = true ∧ (c.u 16 1 = 2 ∨ c.u 16 1 = (recordNow s).active ∨ (recordNow s).trial = true ∨ c.u 24 1 < s.boot.fuses.rollback)) ∧
    -- IMG_BEGIN while an update of another lane is open: DENIED, with its owner
    (∃ (c : Cmd) (x : ImageUpdate) (s : State), readyFor c s = true ∧ goodTable [fRange 16 1 0 2, fZero 17 3, fRange 20 4 0 (slotBytes - 512), fRange 24 1 0 63, fZero 25 3] c = true ∧ c.lane ≤ 2 ∧ s.boot.update = some x ∧ x.lane ≠ c.lane) ∧
    -- IMG_WRITE into a flash slot: open until it is programmed
    (∃ (c : Cmd) (x : ImageUpdate) (s : State), readyFor c s = true ∧ goodTable [fAny 16 4, fZero 20 4] c = true ∧ c.lane ≤ 2 ∧ s.boot.update = some x ∧ x.lane = c.lane ∧ x.slot ≠ 2 ∧ hasBit c.flags 0 = true ∧ c.u 16 4 + c.bulkLen ≤ x.imageLen + 512) ∧
    -- IMG_WRITE into the RAM target: written at once
    (∃ (c : Cmd) (x : ImageUpdate) (s : State), readyFor c s = true ∧ goodTable [fAny 16 4, fZero 20 4] c = true ∧ c.lane ≤ 2 ∧ s.boot.update = some x ∧ x.lane = c.lane ∧ x.slot = 2 ∧ hasBit c.flags 0 = true ∧ c.u 16 4 + c.bulkLen ≤ x.imageLen + 512) ∧
    -- IMG_WRITE beyond the image and its Hallmark: BAD_ARG
    (∃ (c : Cmd) (x : ImageUpdate) (s : State), readyFor c s = true ∧ goodTable [fAny 16 4, fZero 20 4] c = true ∧ c.lane ≤ 2 ∧ s.boot.update = some x ∧ x.lane = c.lane ∧ hasBit c.flags 0 = true ∧ x.imageLen + 512 < c.u 16 4 + c.bulkLen) ∧
    -- IMG_WRITE without a bulk region: BAD_ARG
    (∃ (c : Cmd) (s : State), readyFor c s = true ∧ goodTable [fAny 16 4, fZero 20 4] c = true ∧ c.lane ≤ 2 ∧ hasBit c.flags 0 = false) ∧
    -- IMG_WRITE on a lane other than that of the update: DENIED, with its owner
    (∃ (c : Cmd) (x : ImageUpdate) (s : State), readyFor c s = true ∧ goodTable [fAny 16 4, fZero 20 4] c = true ∧ c.lane ≤ 2 ∧ hasBit c.flags 0 = true ∧ s.boot.update = some x ∧ x.lane ≠ c.lane) ∧
    -- IMG_WRITE with no update open: DENIED
    (∃ (c : Cmd) (s : State), readyFor c s = true ∧ goodTable [fAny 16 4, fZero 20 4] c = true ∧ c.lane ≤ 2 ∧ hasBit c.flags 0 = true ∧ s.boot.update = none) ∧
    -- IMG_COMMIT of an image whose Hallmarks do not verify: denied, and the update is closed
    (∃ (c : Cmd) (x : ImageUpdate) (s : State), readyFor c s = true ∧ goodTable [fMask 16 1 3, fZero 17 3, fRange 20 4 1000 4000000] c = true ∧ c.lane ≤ 2 ∧ s.boot.update = some x ∧ x.lane = c.lane ∧ (imageFault (imageOf s x.slot) s.boot.fuses).isSome = true) ∧
    -- IMG_COMMIT of an image that verifies, nothing to save: open while its commit record is written
    (∀ m : Memory, imageFault m {} = none → ∃ (c : Cmd) (x : ImageUpdate) (s : State), readyFor c s = true ∧ goodTable [fMask 16 1 3, fZero 17 3, fRange 20 4 1000 4000000] c = true ∧ c.lane ≤ 2 ∧ s.boot.update = some x ∧ x.lane = c.lane ∧ x.slot = 1 ∧ s.stw.changePending = false ∧ imageFault s.boot.flash.imageB s.boot.fuses = none) ∧
    -- IMG_COMMIT of slot A likewise
    (∀ m : Memory, imageFault m {} = none → ∃ (c : Cmd) (x : ImageUpdate) (s : State), readyFor c s = true ∧ goodTable [fMask 16 1 3, fZero 17 3, fRange 20 4 1000 4000000] c = true ∧ c.lane ≤ 2 ∧ s.boot.update = some x ∧ x.lane = c.lane ∧ x.slot = 0 ∧ s.stw.changePending = false ∧ imageFault s.boot.flash.imageA s.boot.fuses = none) ∧
    -- IMG_COMMIT of an image that verifies, a change to save: a flash copy first
    (∀ m : Memory, imageFault m {} = none → ∃ (c : Cmd) (x : ImageUpdate) (s : State), readyFor c s = true ∧ goodTable [fMask 16 1 3, fZero 17 3, fRange 20 4 1000 4000000] c = true ∧ c.lane ≤ 2 ∧ s.boot.update = some x ∧ x.lane = c.lane ∧ x.slot ≠ 2 ∧ s.stw.changePending = true ∧ imageFault (imageOf s x.slot) s.boot.fuses = none) ∧
    -- IMG_COMMIT of the RAM image: it runs
    (∀ m : Memory, imageFault m {} = none → ∃ (c : Cmd) (x : ImageUpdate) (s : State), readyFor c s = true ∧ goodTable [fMask 16 1 3, fZero 17 3, fRange 20 4 1000 4000000] c = true ∧ c.lane ≤ 2 ∧ s.boot.update = some x ∧ x.lane = c.lane ∧ x.slot = 2 ∧ imageFault s.boot.ram s.boot.fuses = none) ∧
    -- IMG_COMMIT on a lane other than that of the update: DENIED, with its owner
    (∃ (c : Cmd) (x : ImageUpdate) (s : State), readyFor c s = true ∧ goodTable [fMask 16 1 3, fZero 17 3, fRange 20 4 1000 4000000] c = true ∧ c.lane ≤ 2 ∧ s.boot.update = some x ∧ x.lane ≠ c.lane) ∧
    -- IMG_COMMIT with no update open: DENIED
    (∃ (c : Cmd) (s : State), readyFor c s = true ∧ goodTable [fMask 16 1 3, fZero 17 3, fRange 20 4 1000 4000000] c = true ∧ c.lane ≤ 2 ∧ s.boot.update = none) ∧
    -- IMG_CONFIRM of a trial: open while the permanent record is written
    (∃ (c : Cmd) (s : State), readyFor c s = true ∧ goodTable [] c = true ∧ c.lane ≤ 2 ∧ s.stw.trialBoot = true ∧ (recordNow s).trial = true ∧ confirming s = false) ∧
    -- IMG_CONFIRM outside a trial, or while a confirmation is being written: OK, nothing changed
    (∃ (c : Cmd) (s : State), readyFor c s = true ∧ goodTable [] c = true ∧ c.lane ≤ 2 ∧ (s.stw.trialBoot = false ∨ (recordNow s).trial = false ∨ confirming s = true)) ∧
    -- SEC_FACTORY_RESTORE on lane 0 or 1: carried out, and a warm reset 10 beats on
    (∃ (c : Cmd) (s : State), readyFor c s = true ∧ goodTable [fOneOf 16 4 [0x5A5A0F0F]] c = true ∧ c.lane ≤ 1) ∧
    -- SEC_FACTORY_RESTORE on lane 2: DENIED
    (∃ (c : Cmd) (s : State), readyFor c s = true ∧ goodTable [fOneOf 16 4 [0x5A5A0F0F]] c = true ∧ c.lane = 2) ∧
    -- SEED_WRITE inside the seed region: open until it is programmed
    (∃ (c : Cmd) (s : State), readyFor c s = true ∧ goodTable [fAny 16 4, fZero 20 4] c = true ∧ c.lane ≤ 2 ∧ hasBit c.flags 0 = true ∧ c.u 16 4 + c.bulkLen ≤ 512 * 1024) ∧
    -- SEED_WRITE without a bulk region, or beyond the seed region: BAD_ARG
    (∃ (c : Cmd) (s : State), readyFor c s = true ∧ goodTable [fAny 16 4, fZero 20 4] c = true ∧ c.lane ≤ 2 ∧ (hasBit c.flags 0 = false ∨ 512 * 1024 < c.u 16 4 + c.bulkLen)) ∧
    -- SEC_PCIE_IDS
    (∃ (c : Cmd) (s : State), readyFor c s = true ∧ goodTable [fAny 16 2, fAny 18 2] c = true ∧ c.lane ≤ 2) ∧
    -- SEC_COUNTERS: the counters and the sticky bits, each cleared where the command says so
    (∃ (c : Cmd) (s : State), readyFor c s = true ∧ goodTable [fMask 16 1 3, fMask 17 1 7, fZero 18 2] c = true ∧ c.lane ≤ 2) ∧
    -- on lane 3 every command of the area: DENIED
    (∃ (i : Instr) (c : Cmd) (s : State), i.cmd? = some c ∧ i.opcode / 256 = 10 ∧ readyFor c s = true ∧ goodTable (handlerOf i.opcode).fields c = true ∧ c.lane = 3) := by
  and_intros
  · exact ⟨nop, 0, 0, ready, by decide +kernel⟩
  · exact ⟨cmd [(32, 0)], 0, _, ready, rfl, by decide +kernel⟩
  · exact ⟨{ cmd [(4, 0)] with flags := 1, bulkLen := 64 }, _, ready, rfl, by decide +kernel⟩
  · exact ⟨cmd [(4, 0)], ready, by decide +kernel⟩
  · exact ⟨{ cmd [(1, 0), (3, 0), (48, 0)] with lane := 2 }, claim 2 up, by decide +kernel⟩
  · exact ⟨cmd [(1, 1), (3, 0), (48, 0)], ready, by decide +kernel⟩
  · exact ⟨cmd [(1, 1), (3, 0), (48, 0)], { ready with boot.fuses.ownerHash := some [] }, by decide +kernel⟩
  · exact ⟨cmd [(1, 1), (3, 0), (4, 1000), (1, 0), (3, 0)], { ready with boot.update := some { lane := 0, slot := 1, imageLen := 1000, secVer := 0 } }, by decide +kernel⟩
  · exact ⟨cmd [(1, 0), (3, 0), (4, 1000), (1, 0), (3, 0)], { ready with boot.update := some { lane := 0, slot := 1, imageLen := 1000, secVer := 0 } }, by decide +kernel⟩
  · exact ⟨cmd [(1, 1), (3, 0), (4, 1000), (1, 0), (3, 0)], { lane := 1, slot := 1, imageLen := 1000, secVer := 0 }, { ready with boot.update := some { lane := 1, slot := 1, imageLen := 1000, secVer := 0 } }, by decide +kernel⟩
  · exact ⟨{ cmd [(4, 1448), (4, 0)] with flags := 1, bulkLen := 64 }, { lane := 0, slot := 1, imageLen := 1000, secVer := 0 }, { ready with boot.update := some { lane := 0, slot := 1, imageLen := 1000, secVer := 0 } }, by decide +kernel⟩
  · exact ⟨{ cmd [(4, 1448), (4, 0)] with flags := 1, bulkLen := 64 }, { lane := 0, slot := 2, imageLen := 1000, secVer := 0 }, { ready with boot.update := some { lane := 0, slot := 2, imageLen := 1000, secVer := 0 } }, by decide +kernel⟩
  · exact ⟨{ cmd [(4, 1449), (4, 0)] with flags := 1, bulkLen := 64 }, { lane := 0, slot := 1, imageLen := 1000, secVer := 0 }, { ready with boot.update := some { lane := 0, slot := 1, imageLen := 1000, secVer := 0 } }, by decide +kernel⟩
  · exact ⟨cmd [(4, 0), (4, 0)], ready, by decide +kernel⟩
  · exact ⟨{ cmd [(4, 0), (4, 0)] with flags := 1, bulkLen := 64 }, { lane := 1, slot := 1, imageLen := 1000, secVer := 0 }, { ready with boot.update := some { lane := 1, slot := 1, imageLen := 1000, secVer := 0 } }, by decide +kernel⟩
  · exact ⟨{ cmd [(4, 0), (4, 0)] with flags := 1, bulkLen := 64 }, ready, by decide +kernel⟩
  · exact ⟨cmd [(1, 0), (3, 0), (4, 1000)], { lane := 0, slot := 1, imageLen := 1000, secVer := 0 }, { ready with boot.update := some { lane := 0, slot := 1, imageLen := 1000, secVer := 0 }, boot.flash.imageB := [(0, 0), (1, 0), (2, 0), (3, 0)] }, by decide +kernel⟩
  · exact fun m h => ⟨cmd [(1, 0), (3, 0), (4, 1000)], { lane := 0, slot := 1, imageLen := 1000, secVer := 0 }, { ready with boot.update := some { lane := 0, slot := 1, imageLen := 1000, secVer := 0 }, boot.flash.imageB := m }, rfl, rfl, by decide, rfl, rfl, rfl, rfl, h⟩
  · exact fun m h => ⟨cmd [(1, 0), (3, 0), (4, 1000)], { lane := 0, slot := 0, imageLen := 1000, secVer := 0 }, { ready with boot.update := some { lane := 0, slot := 0, imageLen := 1000, secVer := 0 }, boot.flash.imageA := m }, rfl, rfl, by decide, rfl, rfl, rfl, rfl, h⟩
  · exact fun m h => ⟨cmd [(1, 0), (3, 0), (4, 1000)], { lane := 0, slot := 1, imageLen := 1000, secVer := 0 }, { ready with boot.update := some { lane := 0, slot := 1, imageLen := 1000, secVer := 0 }, boot.flash.imageB := m, stw.changePending := true }, rfl, rfl, by decide, rfl, rfl, by decide, rfl, h⟩
  · exact fun m h => ⟨cmd [(1, 0), (3, 0), (4, 1000)], { lane := 0, slot := 2, imageLen := 1000, secVer := 0 }, { ready with boot.update := some { lane := 0, slot := 2, imageLen := 1000, secVer := 0 }, boot.ram := m }, rfl, rfl, by decide, rfl, rfl, rfl, h⟩
  · exact ⟨cmd [(1, 0), (3, 0), (4, 1000)], { lane := 1, slot := 1, imageLen := 1000, secVer := 0 }, { ready with boot.update := some { lane := 1, slot := 1, imageLen := 1000, secVer := 0 } }, by decide +kernel⟩
  · exact ⟨cmd [(1, 0), (3, 0), (4, 1000)], ready, by decide +kernel⟩
  · exact ⟨nop, { ready with stw.trialBoot := true, boot.flash.rec0 := some { seq := 1, active := 1, trial := true, autoConfirm := true } }, by decide +kernel⟩
  · exact ⟨nop, ready, by decide +kernel⟩
  · exact ⟨cmd [(4, 1515851535)], ready, by decide +kernel⟩
  · exact ⟨{ cmd [(4, 1515851535)] with lane := 2 }, claim 2 up, by decide +kernel⟩
  · exact ⟨{ cmd [(4, 524224), (4, 0)] with flags := 1, bulkLen := 64 }, ready, by decide +kernel⟩
  · exact ⟨{ cmd [(4, 524225), (4, 0)] with flags := 1, bulkLen := 64 }, ready, by decide +kernel⟩
  · exact ⟨cmd [(2, 0), (2, 0)], ready, by decide +kernel⟩
  · exact ⟨cmd [(1, 3), (1, 7), (2, 0)], ready, by decide +kernel⟩
  · exact ⟨.secInfo { nop with lane := 3 }, { nop with lane := 3 }, claim 3 up, by decide +kernel⟩

theorem test_hypotheses_AssayCommandsComplete :
    -- ASSAY_STATUS
    (∃ (c : Cmd) (s : State), readyFor c s = true ∧ goodTable [] c = true ∧ s.assay.disabled = []) ∧
    -- ASSAY_CONFIG in its ranges
    (∃ (c : Cmd) (s : State), readyFor c s = true ∧ goodTable [fAny 16 2, fAny 18 1, fAny 19 1, fAny 20 1, fAny 21 1, fAny 22 2] c = true ∧ badAssayConfig c = none) ∧
    -- ASSAY_CONFIG whose first threshold is below 80 °C: BAD_ARG names it
    (∃ (c : Cmd) (s : State), readyFor c s = true ∧ goodTable [fAny 16 2, fAny 18 1, fAny 19 1, fAny 20 1, fAny 21 1, fAny 22 2] c = true ∧ c.u 16 2 = 0 ∧ c.u 18 1 < 80) ∧
    -- ASSAY_REPLAN: open until its commit window
    (∃ (c : Cmd) (s : State), readyFor c s = true ∧ goodTable [] c = true ∧ s.assay.replanning = none) ∧
    -- ASSAY_REPLAN while one runs: BUSY
    (∃ (c : Cmd) (s : State), readyFor c s = true ∧ goodTable [] c = true ∧ s.assay.replanning.isSome = true) ∧
    -- ASSAY_PAIR_READ
    (∃ (c : Cmd) (b : List Byte) (s : State), b = ((List.range (c.u 17 1)).map (fun i => le 4 (roundAway (degradation2 s (c.u 16 1 + i)) 2).toNat ++ le 2 (min 65535 ((pairHist s (c.u 16 1 + i)).headD 0).toNat) ++ le 1 (bit (guardPair (c.u 16 1 + i))) ++ [0])).flatten ∧ readyFor c s = true ∧ goodTable [fRange 16 1 0 31, fRange 17 1 1 32, fZero 18 2] c = true ∧ c.u 16 1 + c.u 17 1 ≤ 32 ∧ hasBit c.flags 0 = true ∧ 8 * c.u 17 1 ≤ c.bulkLen) ∧
    -- ASSAY_FAULT_LOG without CLEAR
    (∃ (c : Cmd) (b : List Byte) (s : State), b = (s.kept.assay.faultLog.map FaultEntry.bytes).flatten ∧ readyFor c s = true ∧ goodTable [fMask 16 1 1, fZero 17 3] c = true ∧ c.u 16 1 = 0 ∧ hasBit c.flags 0 = true ∧ 1024 ≤ c.bulkLen) ∧
    -- ASSAY_UNIT_ENABLE of a unit that is disabled: its reset ends at the next commit window
    (∃ (c : Cmd) (s : State), readyFor c s = true ∧ goodTable [fRange 16 1 0 47, fZero 17 3] c = true ∧ c.u 16 1 ∈ s.assay.disabled) ∧
    -- ASSAY_UNIT_ENABLE of a unit that works
    (∃ (c : Cmd) (s : State), readyFor c s = true ∧ goodTable [fRange 16 1 0 47, fZero 17 3] c = true ∧ c.u 16 1 ∉ s.assay.disabled) ∧
    -- ASSAY_COUNTERS that clears nothing
    (∃ (c : Cmd) (s : State), readyFor c s = true ∧ goodTable [fMask 16 1 3, fMask 17 1 0xF, fZero 18 2] c = true ∧ c.u 16 1 = 0) ∧
    -- ASSAY_COUNTERS that clears all
    (∃ (c : Cmd) (s : State), readyFor c s = true ∧ goodTable [fMask 16 1 3, fMask 17 1 0xF, fZero 18 2] c = true ∧ c.u 16 1 = 3 ∧ c.u 17 1 = 15) := by
  and_intros
  · exact ⟨nop, ready, by decide +kernel⟩
  · exact ⟨cmd [(2, 0), (1, 80), (1, 82), (1, 84), (1, 0), (2, 50)], ready, by decide +kernel⟩
  · exact ⟨cmd [(2, 0), (1, 0), (1, 0), (1, 0), (1, 0), (2, 0)], ready, by decide +kernel⟩
  · exact ⟨nop, ready, by decide +kernel⟩
  · exact ⟨nop, { ready with assay.replanning := some 0 }, by decide +kernel⟩
  · exact ⟨{ cmd [(1, 0), (1, 1), (2, 0)] with flags := 1, bulkLen := 8 }, _, ready, rfl, by decide +kernel⟩
  · exact ⟨{ cmd [(1, 0), (3, 0)] with flags := 1, bulkLen := 1024 }, _, ready, rfl, by decide +kernel⟩
  · exact ⟨cmd [(1, 0), (3, 0)], { ready with assay.disabled := [0] }, by decide +kernel⟩
  · exact ⟨cmd [(1, 0), (3, 0)], ready, by decide +kernel⟩
  · exact ⟨cmd [(1, 0), (1, 0), (2, 0)], ready, by decide +kernel⟩
  · exact ⟨cmd [(1, 3), (1, 15), (2, 0)], ready, by decide +kernel⟩

theorem test_hypotheses_AssayEventsTakeEffect :
    -- ASSAY_PAIR_MEASURE of a powered pair whose turn has come
    (∃ (nU nS : Nat) (s : State), alive s = true ∧ 1000 ≤ s.assay.pairBeats ∧ domainPowered s (pairDomain s.assay.nextPair) = true ∧ 0 < nU) ∧
    -- ASSAY_PAIR_MEASURE whose first count is 0, for which no rule gives a degradation: a free value stands for it (the model's choice, log entry 63), all else as before
    (∃ (nS : Nat) (s : State), alive s = true ∧ 1000 ≤ s.assay.pairBeats ∧ domainPowered s (pairDomain s.assay.nextPair) = true) ∧
    -- ASSAY_PAIR_MEASURE before the pair's turn, or of a pair without power: nothing
    (∃ (nU nS : Nat) (s : State), alive s = true ∧ (s.assay.pairBeats < 1000 ∨ domainPowered s (pairDomain s.assay.nextPair) = false)) ∧
    -- ASSAY_REPLAN_PERIODIC where every guard is too low and no target reaches its ceiling: all four guards become those of R543
    (∃ (s : State), (∀ op, 1 ≤ op → op ≤ 4 → s.kept.assay.guards.getD (op - 1) 0 < guardFormula op (worstPair s).2 ∧ opNominal op + guardFormula op (worstPair s).2 ≤ opCeiling op) ∧ alive s = true ∧ 86400000 ≤ s.assay.replanBeats ∧ s.kept.assay.removed = [] ∧ s.kept.assay.guards.length = 4) ∧
    -- ASSAY_REPLAN_PERIODIC in any state, its time come: the four points are re-planned in turn, and the re-plan is counted and reported
    (∃ (s : State), alive s = true ∧ 86400000 ≤ s.assay.replanBeats) ∧
    -- SENSOR_READ within the specification, the rail on its target
    (∃ (l : List Int) (p : Nat) (s : State), alive s = true ∧ s.power.mode ≠ .dormant ∧ s.assay.sensorBeat = none ∧ s.assay.vcoreOff = none ∧ l.length = 8 ∧ l.all (fun x => decide (-400 ≤ x) && decide (x ≤ 1100)) = true) ∧
    -- SENSOR_READ of any readings, once a beat: the beats at 118 °C are counted and the specification judged
    (∃ (l : List Int) (p : Nat) (s : State), alive s = true ∧ s.power.mode ≠ .dormant ∧ (advancePhase 500000 s).assay.sensorBeat ≠ some (advancePhase 500000 s).beat) ∧
    -- THERMAL_TRIP after ten beats at 118 °C: the warm reset, held, with cause 5
    (∃ (s : State), alive s = true ∧ 10 ≤ s.assay.hotBeats) ∧
    -- THERMAL_RELEASE below 95 °C: the straps are sampled and the boot starts
    (∃ (temp : Int) (b : Nat) (f : Bool) (s : State), s.boot.thermalHeld = true ∧ temp < 950) ∧
    -- THERMAL_RELEASE at 95 °C or above, or without a thermal reset: nothing
    (∃ (temp : Int) (b : Nat) (f : Bool) (s : State), (950 ≤ temp ∨ s.boot.thermalHeld = false)) ∧
    -- LIFE_EQ_TICK of an awake second: the hottest sensor's ageing
    (∃ (aon : Int) (s : State), alive s = true ∧ s.power.mode ≠ .dormant ∧ 1000 ≤ s.assay.lifeBeats) ∧
    -- LIFE_EQ_TICK in Dormant: sensor 7 alone
    (∃ (aon : Int) (s : State), alive s = true ∧ s.power.mode = .dormant) ∧
    -- STEWARD_WDOG_EXPIRY while the firmware runs: counted, logged, a restart due with cause 0 where none is
    (∃ (s : State), alive s = true ∧ firmwareUp s = true) ∧
    -- STEWARD_EXCEPTION while the firmware runs: logged, a restart due with cause 2 where none is
    (∃ (s : State), alive s = true ∧ firmwareUp s = true) ∧
    -- CHIP_WDOG_EXPIRY after 2,000 beats without a heartbeat: a warm reset due, the fault in the latch
    (∃ (s : State), alive s = true ∧ 2000 ≤ s.assay.chipWdog ∧ s.stw.state = .ready ∧ s.power.mode.serves = true ∧ s.assay.warmResets = [] ∧ s.stw.warmReq = none) ∧
    -- CHIP_WDOG_EXPIRY whatever resets came before: the fault in the latch, counted toward class 5, a warm reset due ahead of one that still waits
    (∃ (s : State), alive s = true ∧ 2000 ≤ s.assay.chipWdog ∧ s.stw.state ≠ .rom ∧ s.power.mode ≠ .doze ∧ s.power.mode ≠ .dormant) ∧
    -- PARITY_ERROR of a core unit: a warm reset due
    (∃ (s : State), alive s = true ∧ s.assay.warmResets = [] ∧ s.stw.warmReq = none) ∧
    -- PARITY_ERROR of a core unit whatever resets came before
    (∃ (n : Nat) (s : State), alive s = true ∧ (n ≤ 2 ∨ n = 40)) ∧
    -- PARITY_ERROR of the Steward's unit: logged, a restart due with cause 2 where none is
    (∃ (s : State), alive s = true) ∧
    -- PARITY_ERROR of the sideband: a unit reset begins, logged and counted
    (∃ (s : State), alive s = true ∧ s.stw.jobs = [] ∧ s.assay.disabled = [] ∧ s.assay.resets = [] ∧ s.assay.faultBeats = []) ∧
    -- PARITY_ERROR of a unit that can be reset, the first or the second in 60,000 beats: logged, and its reset begins
    (∃ (n : Nat) (v s : State), v = logFault n 8 1 [] s ∧ alive s = true ∧ (3 ≤ n ∧ n ≤ 6 ∨ 8 ≤ n ∧ n ≤ 39 ∨ 41 ≤ n ∧ n ≤ 44) ∧ s.assay.disabled.contains n = false ∧ Map.has s.assay.resets n = false ∧ ((Map.getD s.assay.faultBeats n []).filter (fun b => b + 60000 > s.beat)).length < 2) ∧
    -- PARITY_ERROR of a unit whose reset is under way: logged
    (∃ (n : Nat) (s : State), alive s = true ∧ (3 ≤ n ∧ n ≤ 6 ∨ 8 ≤ n ∧ n ≤ 39 ∨ 41 ≤ n ∧ n ≤ 44) ∧ s.assay.disabled.contains n = false ∧ Map.has s.assay.resets n = true ∧ ((Map.getD s.assay.faultBeats n []).filter (fun b => b + 60000 > s.beat)).length < 2) ∧
    -- PARITY_ERROR of a unit that is disabled: nothing
    (∃ (n : Nat) (s : State), alive s = true ∧ (3 ≤ n ∧ n ≤ 6 ∨ 8 ≤ n ∧ n ≤ 39 ∨ 41 ≤ n ∧ n ≤ 44) ∧ s.assay.disabled.contains n = true) ∧
    -- UNIT_RESUME of the sideband
    (∃ (u : UnitReset) (s : State), alive s = true ∧ s.assay.resets = [(44, u)] ∧ s.power.mode ≠ .dormant ∧ s.stw.jobs = [] ∧ u.startBeat < s.beat ∧ s.phase < 20000) ∧
    -- UNIT_RESUME of any unit in reset: at the first commit window after, its work taken up again, reported, the commands that wait for it answered
    (∃ (n : Nat) (u : UnitReset) (v s : State), v = (if u.startBeat < s.beat ∧ s.phase < 20000 then s else advanceTo ((s.beat + 1) * 1000000) s) ∧ alive s = true ∧ Map.get? s.assay.resets n = some u ∧ s.power.mode ≠ .dormant) ∧
    -- UNIT_RESUME of a unit that is in no reset: nothing
    (∃ (n : Nat) (s : State), alive s = true ∧ Map.get? s.assay.resets n = none) ∧
    -- PERST_N_FALL: the link is gone and a reset of PCIE begins
    (∃ (s : State), alive s = true ∧ s.boot.perstHigh = true ∧ s.boot.stage ≠ 0 ∧ s.power.mode ≠ .dormant ∧ s.assay.disabled = [] ∧ s.assay.resets = [] ∧ s.stw.jobs = []) ∧
    -- PERST_N_FALL with whatever else under way, PCIE in no reset: the link is gone and a reset of PCIE begins
    (∃ (s : State), alive s = true ∧ s.boot.perstHigh = true ∧ s.boot.stage ≠ 0 ∧ s.power.mode ≠ .dormant ∧ s.assay.disabled.contains 42 = false ∧ Map.has s.assay.resets 42 = false) ∧
    -- PERST_N_FALL in Dormant, before the ROM, low already or PCIE disabled: the link is gone
    (∃ (s : State), alive s = true ∧ (s.boot.perstHigh = false ∨ s.boot.stage = 0 ∨ s.power.mode = .dormant ∨ s.assay.disabled.contains 42 = true)) := by
  and_intros
  · exact ⟨1, 0, { up with assay.pairBeats := 1000 }, by decide +kernel⟩
  · exact ⟨0, { up with assay.pairBeats := 1000 }, by decide +kernel⟩
  · exact ⟨0, 0, up, by decide +kernel⟩
  · exact ⟨replanDue, guards_low, by decide +kernel⟩
  · exact ⟨{ up with assay.replanBeats := 86400000 }, by decide +kernel⟩
  · exact ⟨List.replicate 8 1100, 0, up, by decide +kernel⟩
  · exact ⟨[1100], 0, at' 500000 up, by decide +kernel⟩
  · exact ⟨{ up with assay.hotBeats := 10 }, by decide +kernel⟩
  · exact ⟨949, 0, false, { up with boot.thermalHeld := true }, by decide +kernel⟩
  · exact ⟨950, 0, false, { up with boot.thermalHeld := true }, by decide +kernel⟩
  · exact ⟨0, { up with assay.lifeBeats := 1000 }, by decide +kernel⟩
  · exact ⟨0, { up with power.mode := .dormant }, by decide +kernel⟩
  · exact ⟨up, by decide +kernel⟩
  · exact ⟨up, by decide +kernel⟩
  · exact ⟨{ up with assay.chipWdog := 2000 }, by decide +kernel⟩
  · exact ⟨{ up with assay.chipWdog := 2000, assay.warmResets := [0, 0] }, by decide +kernel⟩
  · exact ⟨up, by decide +kernel⟩
  · exact ⟨40, { up with assay.warmResets := [0, 0] }, by decide +kernel⟩
  · exact ⟨up, by decide +kernel⟩
  · exact ⟨up, by decide +kernel⟩
  · exact ⟨32, _, { up with assay.faultBeats := [(32, [0])] }, rfl, by decide +kernel⟩
  · exact ⟨32, { up with assay.resets := [(32, { cls := 0, startBeat := 0 })] }, by decide +kernel⟩
  · exact ⟨32, { up with assay.disabled := [32] }, by decide +kernel⟩
  · exact ⟨{ cls := 0, startBeat := 0 }, at' 1000000 { up with assay.resets := [(44, { cls := 0, startBeat := 0 })] }, by decide +kernel⟩
  · exact ⟨32, { cls := 0, startBeat := 0 }, _, at' 1000000 { up with assay.resets := [(32, { cls := 0, startBeat := 0 })] }, rfl, by decide +kernel⟩
  · exact ⟨0, up, by decide +kernel⟩
  · exact ⟨up, by decide +kernel⟩
  · exact ⟨{ up with boot.perstHigh := true }, by decide +kernel⟩
  · exact ⟨{ up with boot.perstHigh := false }, by decide +kernel⟩

end Sys2Proof.Tests
end

section
/-! PROOFS. A command whose field its table does not allow is answered BAD_ARG before its work starts (R17, R107, R120): the refusal as the
Steward makes it, then what its sender and the rest of the block see of it. -/

namespace Sys2Proof.Proofs
open Machine Laws

/-! ### What the answer of a command changes -/

/-- Beside the lanes and the outbox, `deliver` leaves the whole state as it is. -/
theorem deliver_frame (j : Job) (r : Reply) (s : State) :
    deliver j r s =
      { s with stw := { s.stw with lanes := (deliver j r s).stw.lanes }, outbox := (deliver j r s).outbox } := by
  unfold deliver sendInband updSlot updLane
  dsimp only
  split <;> (try split) <;> (try split) <;> rfl

/-- A command accepted at once and answered at once, the answer not one that DURABLE holds back (R119): it has ended, and all else
is as its work left it. -/
theorem act_submit_ended {op : Nat} {h : Handler} {c : Cmd} {s u : State} {r : Reply} (ha : acceptedNow c s = true)
    (hr : perform op h c s.stw.nextJob (taken op c s) = (u, .reply r)) (hp : plain c = true ∨ r.status ≠ stOk)
    (hu : u.stw.state ≠ .restarting) :
    ∃ t, act (submit op h c) s = .next t ∧ ended op c s r { u with pending := s.pending } t := by
  obtain ⟨hal, _, hl, hk, _⟩ := (acceptedNow_iff c s).1 ha
  refine ⟨_, act_alive hal, ?_, ?_, ?_⟩
  · unfold answered
    rw [settle_slot, apart_reply ha hr hp hu]
    exact deliver_slot (j := jobOf op c s) hl hk
  · intro n k hn
    rw [settle_slot, apart_reply ha hr hp hu]
    exact deliver_slot_other (j := jobOf op c s) hn
  · rw [apart_reply ha hr hp hu, deliver_frame]
    rfl

/-- The slot of the command, the lanes and the count of commands accepted are all that its acceptance changes, and `ended` leaves them
open: what has ended as `taken op c u` has ended as `u`. -/
theorem ended_of_taken {op : Nat} {c : Cmd} {s u t : State} {r : Reply}
    (h : ended op c s r { taken op c u with pending := u.pending } t) : ended op c s r u t := by
  obtain ⟨hans, hslots, hrest⟩ := h
  exact ⟨hans, fun n k hn => (hslots n k hn).trans (taken_slot_other op c u n k hn), hrest⟩

/-! ### A refusal -/

@[simp] theorem notePower_stw_state (op : Nat) (c : Cmd) (r : Reply) (s : State) :
    (notePower op c r s).stw.state = s.stw.state := by
  unfold notePower
  split <;> rfl

@[simp] theorem notePower_pending (op : Nat) (c : Cmd) (r : Reply) (s : State) :
    (notePower op c r s).pending = s.pending := by
  unfold notePower
  split <;> rfl

/-- PWR_RESULT (R118) is written alike before and after a command's acceptance. -/
theorem notePower_taken (op : Nat) (c : Cmd) (r : Reply) (s : State) :
    notePower op c r (taken op c s) = taken op c (notePower op c r s) := by
  unfold notePower
  split <;> rfl

/-- A command accepted at once and refused with `r`: beside its answer, and PWR_RESULT for PWR_SET_MODE, nothing changes. -/
theorem act_submit_refused {op : Nat} {h : Handler} {c : Cmd} {s : State} {r : Reply} (ha : acceptedNow c s = true)
    (hp : perform op h c s.stw.nextJob (taken op c s) = (notePower op c r (taken op c s), .reply r)) (hr : r.status ≠ stOk) :
    ∃ t, act (submit op h c) s = .next t ∧ ended op c s r (notePower op c r s) t := by
  obtain ⟨_, _, _, _, _, _, _, hs⟩ := (acceptedNow_iff c s).1 ha
  have hst : (notePower op c r (taken op c s)).stw.state ≠ .restarting := by
    rw [notePower_stw_state, taken_stw_state]
    rcases serving_state hs with e | e <;> rw [e] <;> decide
  obtain ⟨t, ht, hend⟩ := act_submit_ended ha hp (.inr hr) hst
  rw [notePower_taken, ← notePower_pending op c r s] at hend
  exact ⟨t, ht, ended_of_taken hend⟩

/-! ### BAD_ARG -/

/-- The command's own rules can only name an earlier field than its table does (R107). -/
theorem firstWrong_le (d : Nat) (v : Verdict) : firstWrong d v ≤ d := by
  unfold firstWrong
  split
  · split
    · next h => exact Nat.le_of_lt h.2.2
    · exact Nat.le_refl d
  · exact Nat.le_refl d

theorem areaServed_taken (op : Nat) (c : Cmd) (s : State) : areaServed op (taken op c s) = areaServed op s := by
  unfold areaServed
  rw [taken_stw_state]

/-- A command with a good header, of an area that is served, is not refused before its fields are judged. -/
theorem refuseEarly_good {op : Nat} {c : Cmd} {s : State} (hh : goodHeader c = true) (ha : areaServed op s = true) :
    refuseEarly op c s = none := by
  obtain ⟨hv, hb⟩ : c.ifver / 16 = 4 ∧ badHeader c = none := by simpa [goodHeader] using hh
  simp [refuseEarly, hv, hb, ha]

/-- A field that the table finds wrong ends the command with BAD_ARG, whatever its work would have done. -/
theorem perform_badField {op : Nat} {h : Handler} {c : Cmd} {id d : Nat} {s : State} (hh : goodHeader c = true)
    (ha : areaServed op s = true) (hb : badField h.fields c = some d) :
    ∃ e ≤ d, perform op h c id s = (notePower op c (badArg e) s, .reply (badArg e)) := by
  refine ⟨_, firstWrong_le d (h.run c id s).2, ?_⟩
  unfold perform
  rw [refuseEarly_good hh ha, hb]

/-- Every row of the command sets that is accepted at once with a field wrong is answered BAD_ARG, and nothing is done. -/
theorem exec_badField {i : Instr} {c : Cmd} {d : Nat} {s : State} (hi : i.cmd? = some c) (ha : acceptedNow c s = true)
    (hh : goodHeader c = true) (hs : areaServed i.opcode s = true) (hb : badField (handlerOf i.opcode).fields c = some d) :
    ∃ t e, exec i s = .next t ∧ e ≤ d ∧ ended i.opcode c s (badArg e) (notePower i.opcode c (badArg e) s) t := by
  rw [← areaServed_taken i.opcode c s] at hs
  obtain ⟨e, he, hp⟩ := perform_badField (id := s.stw.nextJob) hh hs hb
  obtain ⟨t, ht, hend⟩ := act_submit_refused ha hp (show stBadArg ≠ stOk by decide)
  exact ⟨t, e, (exec_command hi s).trans ht, he, hend⟩

/-- Settles O10: a field that the table does not allow is refused by `exec_badField`, and a command that sets what its table reserves
has such a field. -/
theorem reservedFieldsAreRefused : Obligations.ReservedFieldsAreRefused := by
  unfold Obligations.ReservedFieldsAreRefused
  refine ⟨fun i c d s hi ha hh hs hb => exec_badField hi ha hh hs hb, ?_⟩
  intro i c s hi ha hh hs hres
  obtain ⟨d, hb⟩ := reserved_bad hres
  obtain ⟨t, e, ht, _, hend⟩ := exec_badField hi ha hh hs hb
  exact ⟨t, e, ht, hend⟩

end Sys2Proof.Proofs
end

section
/-! PROOFS. The block's own events, how their effects are stated; an idle tick and the values after reset (R24, R28, R29); measurements that the
servo discards (R49, R86). -/

namespace Sys2Proof.Proofs
open Machine Laws

/-! ### How an event of the block itself is stated -/

/-- An event whose effect, outbox and queue apart, is that the state becomes `u`. -/
theorem act_becomes {f : State → State} {s u : State} (ha : alive s = true) (h : f (fresh s) = fresh u)
    (hq : u.pending = s.pending := by rfl) : ∃ t, act f s = .next t ∧ became u t :=
  act_became ha (by rw [h, fresh_stw]) (by rw [h]; simp [sameParts]) hq

/-- As `act_becomes`, with what the event sends out. -/
theorem act_becomes_sent {f : State → State} {s u : State} {o : List Output} (ha : alive s = true)
    (h : f (fresh s) = { fresh u with outbox := o }) (hq : u.pending = s.pending := by rfl) :
    ∃ t, act f s = .next t ∧ became u t ∧ o <+: t.outbox :=
  act_sent ha (by rw [h, fresh_stw]) (by rw [h]) (by rw [h]; simp [sameParts]) hq

/-! ### Idling and reset -/

/-- One TIME tick while the TBC runs (R24). -/
theorem tickTime_eq {s : State} (h : clockRuns s = true) :
    tickTime s = { s with time.acc := (s.time.acc + s.inc) % 2 ^ 96, time.mono := s.time.mono + s.tickNs } := by
  simp [tickTime, ticks, h, accWrap]

theorem step_empty {s : State} (h : s.pending = []) : step s = .next (idle s) := by
  unfold step; rw [h]

theorem idle_porHeld {s : State} (h : s.boot.porHeld = true) : idle s = { s with outbox := [] } := if_pos h

/-- Idling with the clock running and no doorbell held is a tick, and the interrupts told of. -/
theorem idle_ticks {s : State} (ha : alive s = true) (hc : clockRuns s = true)
    (ho : (List.range 4).all (fun k => (s.lane k).order.isEmpty) = true) :
    idle s = settle (tickTime { s with outbox := [] }) := by
  obtain ⟨⟨hp, -⟩, -⟩ : (s.boot.porHeld = false ∧ s.boot.pinHeld = false) ∧ s.boot.thermalHeld = false := by simpa [alive] using ha
  have hc' : clockRuns { s with outbox := [] } = true := hc
  have hl : serveHeld (tickTime { s with outbox := [] }) = tickTime { s with outbox := [] } := serveHeld_none ho
  unfold idle
  dsimp only
  rw [hp, if_neg Bool.false_ne_true, hc', if_pos rfl, hl, ite_self]

/-- Settling tells of interrupts, and changes nothing else. -/
theorem became_settle (s : State) (o : List Output) : became s (settle { s with outbox := o }) := rfl

/-- Settles O2: an empty queue idles (`step_empty`), and idling is a tick (`idle_ticks`) or, in reset, nothing. -/
theorem emptyQueueIdlesOneTick : Obligations.EmptyQueueIdlesOneTick := by
  unfold Obligations.EmptyQueueIdlesOneTick
  refine ⟨fun s hp ha hc ho => ⟨_, step_empty hp, ?_⟩, fun s hp hr => ?_⟩
  · rw [idle_ticks ha hc ho, tickTime_eq (by exact hc)]
    exact became_settle { s with time.acc := (s.time.acc + s.inc) % 2 ^ 96, time.mono := s.time.mono + s.tickNs } []
  · rw [step_empty hp, idle_porHeld hr]

/-- Settles O19: each value is the field's value in `State.reset`, and the four lanes and their settings are those of the two banks. -/
theorem resetLeavesTheColdValues : Obligations.ResetLeavesTheColdValues := by
  unfold Obligations.ResetLeavesTheColdValues
  refine ⟨rfl, rfl, rfl, rfl, rfl, rfl, rfl, rfl, rfl, rfl, rfl, rfl, ?_, rfl⟩
  decide

/-! ### Measurements that are discarded -/

/-- A measurement of the selected source, of the selected port where SRC is 1, is judged (R41). -/
theorem servoMeasured_selected {m : Measurement} {s : State} (hm : m.src = 1 ∧ m.port = s.kept.time.servo.port ∨ m.src = 2)
    (hs : s.kept.time.servo.src = m.src) : servoMeasured m s = Machine.measure (measuredTheta m) m.epoch s := by
  unfold servoMeasured
  rcases hm with ⟨h1, hp⟩ | h2
  · exact if_pos ⟨.inl h1, hs, fun _ => hp.symm⟩
  · exact if_pos ⟨.inr h2, hs, fun h1 => by omega⟩

/-- Settles O14: the judgement is `measure_stale`, and a measurement of the selected source goes through it. -/
theorem staleMeasurementsAreDiscarded : Obligations.StaleMeasurementsAreDiscarded := by
  unfold Obligations.StaleMeasurementsAreDiscarded
  refine ⟨fun m s ha hw hm hs hl => act_becomes ha ?_, fun theta epoch s hw hl => measure_stale hw.1 hw.2 hl⟩
  rw [servoMeasured_selected (s := fresh s) hm hs]
  exact measure_stale (s := fresh s) hw.1 hw.2 hl

/-- While another source is selected a fed offset is refused, and nothing is done (R86). -/
theorem timeOffsetFeed_denied {c : Cmd} {id : Nat} {s : State} (h : s.kept.time.servo.src ≠ 2) :
    timeOffsetFeed.run c id s = (s, .reply (denied)) := if_pos h

/-- A fed offset of an earlier epoch, or of more than 2,000 beats before, is counted and answered STALE (R86). -/
theorem timeOffsetFeed_stale {c : Cmd} {id : Nat} {s : State} (h : s.kept.time.servo.src = 2)
    (hl : laterEpoch s.kept.time.epoch (c.u 34 1) = true ∨ c.u 34 1 = s.kept.time.epoch ∧ c.u 26 8 + 2000 * 1000000 < s.ns) :
    timeOffsetFeed.run c id s =
      ({ s with time.srcBeats := 0, time.counts := tally (tally s.time.counts 24) 60 }, .reply { status := stStale }) :=
  (if_neg (fun hne => hne h)).trans (if_pos hl)

/-- Settles O15: the command's work is `timeOffsetFeed_denied` or `timeOffsetFeed_stale`, and READY answers it at once. -/
theorem offsetFeedsAreJudged : Obligations.OffsetFeedsAreJudged := by
  unfold Obligations.OffsetFeedsAreJudged
  constructor
  · intro c s ha hf hs
    have hr := timeOffsetFeed_denied (c := c) (id := s.stw.nextJob) (s := taken 0x0203 c s) (by rwa [taken_kept])
    exact ready_ended ha hf (by rw [hr]; rfl) (by rw [hr]) (by rw [hr]; simp [sameParts])
  · intro c s ha hf hs hl
    have hr := timeOffsetFeed_stale (c := c) (id := s.stw.nextJob) (s := taken 0x0203 c s) (by rwa [taken_kept])
      (by rwa [taken_kept, taken_ns])
    exact ready_ended ha hf (by rw [hr]) (by rw [hr]) (by rw [hr]; simp [sameParts])

end Sys2Proof.Proofs
end

section
/-! PROOFS. What the timebase does of itself: overruns and plans (R33 to R38), the servo's state (R40, R47), the rebase (R51 to R55), triggers
(R69, R70) and PPS (R75 to R79), one lemma an operation; then the statement on its events. -/

namespace Sys2Proof.Proofs
open Machine Laws

/-! ### Overruns and plans -/

/-- The bookkeeping of a unit after a job of its own has overrun beat `b` and ends at `fin` (R34, R35). -/
def overrunUnit (b fin : Nat) (u : UnitPlan) : UnitPlan :=
  { u with
    overrunCnt := satInc 16 u.overrunCnt, lastOverrun := b + 1
    toSafe := u.toSafe || (decide (u.lastOverrun = b) && decide (b ≠ 0)), busyUntil := max u.busyUntil fin }

/-- An overrun is counted in its unit and reported (R34). -/
theorem overrunIn_eq {b fin src ovr : Nat} {s : State} (h0 : ovr ≠ 0) (h1 : src ≤ 47) :
    overrunIn b fin src ovr s = raise src 0x0205 (le 8 b ++ le 4 ovr)
      { s with time.units := Map.set s.time.units src (overrunUnit b fin (s.unit src)) } := by
  unfold overrunIn
  rw [if_neg (by omega)]
  rfl

/-- An overrun that does not follow one of the beat before asks for no safe plan. -/
theorem overrunUnit_first {b fin : Nat} {u : UnitPlan} (h : u.lastOverrun ≠ b ∨ b = 0) :
    overrunUnit b fin u =
      { u with overrunCnt := satInc 16 u.overrunCnt, lastOverrun := b + 1, busyUntil := max u.busyUntil fin } := by
  have e : (decide (u.lastOverrun = b) && decide (b ≠ 0)) = false := by
    rcases h with h | h <;> simp [h]
  unfold overrunUnit
  rw [e, Bool.or_false]

/-- The second overrun in two beats asks for the safe plan (R35). -/
theorem overrunUnit_again {b fin : Nat} {u : UnitPlan} (h0 : b ≠ 0) (h : u.lastOverrun = b) :
    overrunUnit b fin u =
      { u with overrunCnt := satInc 16 u.overrunCnt, lastOverrun := b + 1, toSafe := true, busyUntil := max u.busyUntil fin } := by
  unfold overrunUnit
  rw [h, decide_eq_true rfl, decide_eq_true h0, Bool.and_self, Bool.or_true]

/-- An overrun of a unit that is not on its safe plan is no fault. -/
theorem beatOverrun_not_safe {src ovr : Nat} {s : State} (h : (s.unit src).safe = false) :
    beatOverrun src ovr s = overrunIn s.beat (s.time.mono + ovr) src ovr s := by
  unfold beatOverrun
  rw [h]
  exact if_pos (by simp)

/-- A plan that completes before its deadline is complete (R36). -/
theorem planCompletion_early {src : Nat} {s : State} (hc : s.time.computeBeat = some s.beat) (hp : s.time.planCommitBeat ≠ some s.beat)
    (ht : s.phase < 900000) :
    planCompletion src s = { s with time.units := Map.set s.time.units src { s.unit src with complete := true } } := by
  have hacc : ¬ (s.beat * 1000000 + 900000) * 2 ^ 32 + s.inc ≤ s.time.acc := by
    unfold State.phase State.beat State.ns at *
    omega
  unfold planCompletion
  rw [hc]
  dsimp only
  rw [if_neg (fun h => hp h.1), if_neg hacc]
  rfl

/-- A plan that completes after its deadline is discarded: the Planisher's job has overrun (R33, R38). -/
theorem planCompletion_late {src : Nat} {s : State} (hc : s.time.computeBeat = some s.beat) (hp : s.time.planCommitTick ≠ some s.time.acc)
    (ht : (s.beat * 1000000 + 900000) * 2 ^ 32 + s.inc ≤ s.time.acc) :
    planCompletion src s = overrunIn s.beat s.time.mono 4 (s.ns - (s.beat * 1000000 + 900000)) s := by
  unfold planCompletion
  rw [hc]
  dsimp only
  rw [if_neg (fun h => hp h.2.2), if_pos ht]

/-! ### The servo -/

/-- LOCKED lost to HOLDOVER: reported, and the time not LOCKED runs from now, or from the entry to Doze (R40, R175). -/
theorem setServo_holdover {s : State} (hs : s.time.servo = .locked) :
    setServo .holdover s = raise 0 0x0201 (le 1 3 ++ le 1 2) { s with time := { s.time with
      servo := .holdover, srcBeats := 0, unlockedAt := if s.time.dozed then s.time.unlockedAt else s.time.mono, dozed := false } } := by
  have hu : (if s.time.servo = .locked ∧ (!s.time.dozed) = true then s.time.mono else s.time.unlockedAt) =
      (if s.time.dozed = true then s.time.unlockedAt else s.time.mono) := by
    cases s.time.dozed <;> simp [hs]
  unfold setServo
  rw [hu, hs]
  rfl

/-- The count of R47 runs in LOCKED, in a mode that serves, with a source selected. -/
theorem srcCounting_locked {s : State} (hs : s.time.servo = .locked) (h0 : s.kept.time.servo.src ≠ 0) (hm : s.power.mode.serves = true) :
    srcCounting s = true := by
  obtain ⟨-, hz, hd⟩ := serves_ne hm
  simp [srcCounting, h0, hz, hd, hs]

/-- A source time-out in LOCKED ends it in HOLDOVER, both changes reported (R40, R47). -/
theorem sourceTimedOut_locked {s : State} (hs : s.time.servo = .locked) (h0 : s.kept.time.servo.src ≠ 0) (hm : s.power.mode.serves = true)
    (ht : s.kept.time.servo.srcTimeout ≤ s.time.srcBeats) :
    sourceTimedOut s = raise 0 0x0202 (le 1 1) (raise 0 0x0201 (le 1 3 ++ le 1 2) { s with time := { s.time with
      servo := .holdover, cause := .sourceLost
      unlockedAt := if s.time.dozed then s.time.unlockedAt else s.time.mono
      dozed := false, srcBeats := 0, goodRun := 0, stepRun := 0, stepFirst := none, stepSteady := true, holdoverStk := true
      fadjNext := some (fadjOf (-s.kept.time.integral), s.beat + 1), counts := tally s.time.counts 32 } }) := by
  unfold sourceTimedOut
  rw [if_pos ⟨srcCounting_locked hs h0 hm, ht⟩]
  unfold enterHoldover
  rw [setServo_holdover hs]
  rfl

/-! ### The rebase -/

/-- AUTO_REBASE where R54 allows it: a relative rebase of the step is pending. -/
theorem autoRebase_starts {n : Nat} {s : State} (hv : serving s = true) (hs : s.time.servo = .holdover) (hc : s.time.cause = .step)
    (hst : s.time.stepSteady = true) (hd : s.time.afterDormant = false) (hw : s.kept.time.servo.rebaseWait ≤ n)
    (hno : s.kept.time.servo.noAutoRebase = false) (hr : s.time.rebase = none)
    (hf : fitsTbc (rebaseResult (rebaseBeat s) true (-s.time.lastTheta)) = true) :
    autoRebase n s = startRebase true (-s.time.lastTheta) none s := by
  unfold autoRebase
  rw [hd]
  exact if_pos ⟨hv, hs, hc, hw, hst, by simp [hno], hr, hf⟩

/-- While the TBC stands still no load comes (R81). -/
theorem rebaseLoad_stands {s : State} (h : clockRuns s = false) : rebaseLoad s = s := by
  unfold rebaseLoad
  cases s.time.rebase with
  | none => rfl
  | some r => exact if_neg (by rw [h]; exact Bool.false_ne_true)

/-- The servo acquires; what a load has set beside its state stands. -/
theorem setServo_acquiring (s : State) :
    (setServo .acquiring s).time.servo = .acquiring ∧ (setServo .acquiring s).kept = s.kept ∧ (setServo .acquiring s).next = s.next ∧
    (setServo .acquiring s).time.acc = s.time.acc ∧ (setServo .acquiring s).time.rebase = s.time.rebase ∧
    (setServo .acquiring s).time.settling = s.time.settling ∧ (setServo .acquiring s).time.counts = s.time.counts := by
  unfold setServo
  split
  · next h => exact ⟨h, rfl, rfl, rfl, rfl, rfl, rfl⟩
  · exact ⟨rfl, rfl, rfl, rfl, rfl, rfl, rfl⟩

/-- The waits that a load moves are none of the timebase's Kept values (log entry 104). -/
theorem shiftWaits_kept_time (d : Int) (s : State) :
    (shiftWaits d s).kept.time = s.kept.time ∧ (shiftWaits d s).next.time = s.next.time := ⟨rfl, rfl⟩

/-- What the load of a rebase that the device asked for makes of the timebase (R51, Table 1-9). -/
theorem loadRebase_own {r : Rebase} (s : State) (h : r.asker = none) :
    (loadRebase r s).time.rebase = none ∧ (loadRebase r s).kept.time.epoch = (s.kept.time.epoch + 1) % 256 ∧
    (loadRebase r s).next.time.epoch = (s.next.time.epoch + 1) % 256 ∧
    (loadRebase r s).time.acc = (rebaseResult r.beat r.relative r.value).toNat * 2 ^ 16 % 2 ^ 96 ∧
    (loadRebase r s).time.servo = .acquiring ∧ (loadRebase r s).time.settling = true ∧
    (loadRebase r s).time.counts = tally s.time.counts 36 := by
  unfold loadRebase
  rw [h]
  unfold completeAsker restampTx
  dsimp only
  simp only [shiftWaits_time, shiftWaits_kept_time, setServo_acquiring]
  exact ⟨rfl, rfl, rfl, rfl, trivial, rfl, rfl⟩

/-- A rebase whose plan commit has been needs none (Table 1-9). -/
theorem rebaseCommit_committed {r : Rebase} {s : State} (hr : s.time.rebase = some r) (hc : r.committed = true) : rebaseCommit s = s := by
  unfold rebaseCommit
  rw [hr]
  exact if_pos hc

/-- A load that is certain comes at the end of its beat. -/
theorem rebaseLoad_committed {r : Rebase} {s : State} (hr : s.time.rebase = some r) (hc : r.committed = true) (ht : clockRuns s = true) :
    rebaseLoad s = loadRebase r (advanceTo ((r.beat + 1) * 1000000) (advanceTo (r.beat * 1000000 + 900000) s)) := by
  unfold rebaseLoad
  rw [hr]
  dsimp only
  rw [if_pos ht, rebaseCommit_committed (by rw [advanceTo_time_rebase, hr]) hc]

/-! ### Triggers and pulses -/

/-- TRIGn_STK stands for a channel that a lane 0 or 1 armed (Table 2-11). -/
theorem firedStk_eq (ch party : Nat) (s : State) : firedStk ch party s =
    { s with stw.sticky := if party = 42 ∨ party = 43 then setBit32 s.stw.sticky (16 + ch) else s.stw.sticky } := by
  unfold firedStk
  split <;> rfl

/-- A one-shot that starts the metering converter fires: counted, ended, its INT_STATUS bit set where a lane armed it (R69, R70). -/
theorem fireNow_converter {k : Nat} {s : State} (hp : (s.trig k).period = 0) (ht : (s.trig k).target = 2) (he : (s.trig k).eventEach = false) :
    fireNow k s = emit (.trigger 2 (s.trig k).arg 0) { s with
      time.triggers := Bank.modify s.time.triggers k (fun x => { x with fired := satInc 32 x.fired, armed := false })
      time.counts := tally s.time.counts 48
      stw.sticky := if (s.trig k).party = 42 ∨ (s.trig k).party = 43 then setBit32 s.stw.sticky (16 + k) else s.stw.sticky } := by
  have hm : Bank.modify s.time.triggers k (fun x => { x with fired := satInc 32 x.fired, nextNs := x.nextNs + x.period, armed := false }) =
      Bank.modify s.time.triggers k (fun x => { x with fired := satInc 32 x.fired, armed := false }) := by
    apply modify_congr _ _ _ _ {}
    have hz : (s.time.triggers.getD k {}).period = 0 := hp
    simp only [hz, Nat.add_zero]
  unfold fireNow targetAction
  dsimp only
  rw [hp, ht, he, decide_eq_true rfl, Bool.true_or, ← hm, firedStk_eq]
  rfl

/-- An armed channel fires at its instant (R69). -/
theorem triggerFire_armed {k : Nat} {s : State} (hk : k < 16) (ha : (s.trig k).armed = true) (hh : (s.trig k).held = false)
    (hm : s.power.mode ≠ .dormant) : triggerFire k s = fireNow k (advanceTo (s.trig k).nextNs s) := by
  unfold triggerFire
  exact if_neg (by simp [ha, hh, hm]; omega)

/-- A one-shot that starts the metering converter, at its instant. -/
theorem triggerFire_converter {k : Nat} {s : State} (hk : k < 16) (ha : (s.trig k).armed = true) (hh : (s.trig k).held = false)
    (hm : s.power.mode ≠ .dormant) (hp : (s.trig k).period = 0) (ht : (s.trig k).target = 2) (he : (s.trig k).eventEach = false) :
    triggerFire k s = emit (.trigger 2 (s.trig k).arg 0) { advanceTo (s.trig k).nextNs s with
      time.triggers := Bank.modify s.time.triggers k (fun x => { x with fired := satInc 32 x.fired, armed := false })
      time.counts := tally s.time.counts 48
      stw.sticky := if (s.trig k).party = 42 ∨ (s.trig k).party = 43 then setBit32 s.stw.sticky (16 + k) else s.stw.sticky } := by
  have hk' : (advanceTo (s.trig k).nextNs s).trig k = s.trig k := advanceTo_trig _ _ _
  have hst : (advanceTo (s.trig k).nextNs s).stw.sticky = s.stw.sticky := by rw [advanceTo_stw]
  rw [triggerFire_armed hk ha hh hm, fireNow_converter (by rw [hk', hp]) (by rw [hk', ht]) (by rw [hk', he]), hk', hst,
    advanceTo_time_triggers, advanceTo_time_counts]

/-- The first of a channel's pulses on PPS_OUT ends (R70). -/
theorem triggerPulseEnd_pps {k fin arg : Nat} {low : Bool} {l : List (Nat × Nat × Nat × Bool)} {s : State}
    (h : (s.trig k).pulses = (fin, 1, arg, low) :: l) (hm : s.power.mode ≠ .dormant) :
    triggerPulseEnd k s = emit (.pinAt "PPS_OUT" 0 low (advanceMono fin s).time.mono)
      (updTrig k (fun x => { x with pulses := l }) (advanceMono fin s)) := by
  unfold triggerPulseEnd
  rw [h]
  exact if_neg hm

/-! ### PPS -/

/-- The offset of an edge that a sentence labels (R76). -/
def labelledTheta (utc : Nat) (e : Stamp) (g : PpsConfig) : Int :=
  ((e.ns * 2 ^ 16 + e.frac : Nat) : Int) - g.inDelay - ((utc : Int) + g.utcOffset) * (10 ^ 9 * 2 ^ 16)

/-- A sentence within 900 ms of an edge of the present epoch labels it, which is a measurement where SRC is 3 (R76, R79). -/
theorem todSentence_labels {utc : Nat} {e : Stamp} {s : State} (ht : s.kept.time.pps.todEnable = true)
    (hu : s.time.ppsIn.unlabelled = some e) (he : e.epoch = s.kept.time.epoch) (hn : s.ns ≤ e.ns + 900000000) :
    todSentence utc s = if s.kept.time.servo.src = 3 then
        Machine.measure (labelledTheta utc e s.kept.time.pps) e.epoch { s with time.ppsIn.unlabelled := none }
      else { s with time.ppsIn.unlabelled := none } := by
  have hlate : ¬ s.ns - e.ns > 900000000 := by omega
  unfold todSentence
  rw [hu]
  dsimp only
  rw [ht, if_neg (by simp), if_neg (fun hne => hne he), if_neg hlate]
  rfl

/-- The first second missed in a row is counted and reported (R77). -/
theorem ppsMissed_first {s u : State} (hi : s.kept.time.pps.inEnable = true) (hc : clockRuns s = true) (hm : s.time.ppsIn.missRun = 0)
    (hu : u = advanceTo (s.time.ppsIn.spanStart + 1001000000).toNat s) :
    ppsMissed s = raise 0 0x0209 (le 4 (((u.ns : Int) - s.time.ppsIn.spanStart) / 1000000000).toNat)
      { u with time.ppsIn := { s.time.ppsIn with missRun := 1, goodRun := 0 }, time.counts := tally s.time.counts 56 } := by
  have e : s.time.ppsIn.spanStart + (((0 : Nat) : Int) + 1) * 1000000000 + 1000000 = s.time.ppsIn.spanStart + 1001000000 := by omega
  have hcounts : u.time.counts = s.time.counts := by rw [hu, advanceTo_time_counts]
  unfold ppsMissed
  dsimp only
  rw [if_pos ⟨hi, hc⟩, if_pos hm, hm, e, ← hu]
  unfold timeCount
  dsimp only
  rw [hcounts]
  rfl

/-- Settles O21: each event is brought to the lemma above that says what its operation does, and `act_becomes` says the rest, that the
event changes nothing else; the load's clause reads the timebase after `loadRebase_own`. -/
theorem timeEventsTakeEffect : Obligations.TimeEventsTakeEffect := by
  unfold Obligations.TimeEventsTakeEffect
  refine ⟨?overrunFirst, ?overrunAgain, ?measurement, ?sourceTimeout, ?load, ?loadStands, ?autoRebase, ?initialRebase, ?triggerFire,
    ?ppsEdge, ?todLabel, ?todMeasure, ?ppsMissed, ?nowRead, ?planEarly, ?planLate, ?pulseEnd⟩
  case overrunFirst =>
    intro src ovr s ha h0 h1 hl hs
    refine act_becomes ha ?_
    rw [beatOverrun_not_safe (by exact hs), overrunIn_eq (by omega) h1, overrunUnit_first (by exact hl)]
    rfl
  case overrunAgain =>
    intro src ovr s ha h0 h1 hb hl hs
    refine act_becomes ha ?_
    rw [beatOverrun_not_safe (by exact hs), overrunIn_eq (by omega) h1, overrunUnit_again (by exact hb) (by exact hl)]
    rfl
  case measurement =>
    intro m i theta s ha hm hsrc hp he hmode hl hs hr hth hstep hlock hi hb
    refine act_becomes ha ?_
    have hθ : measuredTheta m = theta := (if_pos hm).trans hth.symm
    rw [servoMeasured_selected (s := fresh s) (.inl ⟨hm, hp⟩) (hsrc.trans hm.symm), hθ]
    exact measure_acquiring (x := fresh s) rfl rfl rfl rfl hmode he hl hs hr hstep hlock hi hb
  case sourceTimeout =>
    intro s ha hs h0 hm ht
    refine act_becomes ha ?_
    rw [sourceTimedOut_locked (s := fresh s) hs h0 hm ht]
    rfl
  case load =>
    intro r s ha hr hc hk ht
    refine ⟨_, act_alive ha, ?_⟩
    rw [settle_time, settle_kept, settle_next, apart_time, apart_kept, apart_next, rebaseLoad_committed (by exact hr) hc (by exact ht)]
    have h := loadRebase_own (advanceTo ((r.beat + 1) * 1000000) (advanceTo (r.beat * 1000000 + 900000) (fresh s))) hk
    rw [advanceTo_time_counts, advanceTo_time_counts, advanceTo_kept, advanceTo_kept, advanceTo_next, advanceTo_next] at h
    exact h
  case loadStands =>
    intro s ha hc
    exact act_becomes ha (rebaseLoad_stands hc)
  case autoRebase =>
    intro n s ha hv hs hc hst hd hw hno hr hf
    exact act_becomes ha (autoRebase_starts (s := fresh s) hv hs hc hst hd hw hno hr hf)
  case initialRebase =>
    intro ns frac s ha hv hb hs hr hf hn
    exact act_becomes ha (if_pos ⟨hv, hb, hs, hr, hf, hn⟩)
  case triggerFire =>
    intro k s ha hk harm hh hp ht he hm
    refine act_becomes_sent ha ?_ (advanceTo_pending s _)
    rw [triggerFire_converter (s := fresh s) hk harm hh hm hp ht he, advanceTo_fresh]
    rfl
  case ppsEdge =>
    intro f s ha hi hf
    exact act_becomes ha (if_pos ⟨hi, hf⟩)
  case todLabel =>
    intro utc e s ha ht hu he hn hs
    refine act_becomes ha ?_
    rw [todSentence_labels (s := fresh s) ht hu he hn, if_neg (by exact hs)]
    rfl
  case todMeasure =>
    intro utc e theta s ha ht hu he hn hs hth hm hv hg hl hstep
    refine act_becomes ha ?_
    have hθ : labelledTheta utc e (fresh s).kept.time.pps = theta := hth.symm
    rw [todSentence_labels (s := fresh s) ht hu he hn, if_pos (by exact hs), hθ]
    exact measure_holdover (s := { fresh s with time.ppsIn.unlabelled := none }) rfl rfl rfl hm he hl hv hg hstep
  case ppsMissed =>
    intro u s ha hi hc hm hu
    refine act_becomes ha ?_ (by rw [hu]; exact advanceTo_pending s _)
    have hu' : fresh u = advanceTo ((fresh s).time.ppsIn.spanStart + 1001000000).toNat (fresh s) := by
      rw [advanceTo_fresh, fresh_time, hu]
    rw [ppsMissed_first (s := fresh s) hi hc hm hu']
    rfl
  case nowRead =>
    intro s ha hw
    exact act_becomes_sent ha (if_pos hw)
  case planEarly =>
    intro src s ha hc hp ht
    exact act_becomes ha (planCompletion_early (s := fresh s) hc hp ht)
  case planLate =>
    intro src s ha hp htick hc ht h0 hl
    refine act_becomes ha ?_
    rw [planCompletion_late (s := fresh s) hc htick ht, overrunIn_eq (by exact h0) (by decide), overrunUnit_first (by exact hl)]
    rfl
  case pulseEnd =>
    intro k fin arg low l s ha hl hm
    refine act_becomes_sent ha ?_
    rw [triggerPulseEnd_pps (s := fresh s) hl hm, advanceMono_fresh]
    rfl

end Sys2Proof.Proofs
end

section
/-! PROOFS. The commit window keeps what stamps went by before it (R58): a state at which the statement on the beat's events fails. -/

namespace Sys2Proof.Proofs
open Machine Laws

/-- Recovery with nothing under way, and a stamp compensation of the port of source 8 accepted for the next beat (R58). -/
def compensationAccepted : State :=
  { State.reset with boot.stage := 9, stw.state := .recovery, power.mode := .recovery, next.time.portComp := [(8, 1, 0)] }

/-- The commit window that brings the compensation into force keeps what stamps went by before it (R58). -/
theorem commitWindow_compensationAccepted :
    (serveHeld (commitWindow (fresh compensationAccepted))).time.past = [{ till := 0 }] := by
  decide +kernel

/-- Refutes O20 in its clause on COMMIT_WINDOW in Recovery. The clause lets the accepted settings differ from those in force in their stamp
compensations, and says that beside the settings and the counts of beats nothing changes; but a window that changes a compensation keeps the
old one in `time.past` for the stamps of instants before it (R58). At `compensationAccepted` the record, empty before, has one entry. -/
theorem not_beatEventsTakeEffect : ¬ Obligations.BeatEventsTakeEffect := by
  unfold Obligations.BeatEventsTakeEffect
  rintro ⟨-, -, -, -, hrecovery, -⟩
  obtain ⟨t, ht, hb⟩ := hrecovery 0 1 _ compensationAccepted rfl (by decide) (by decide) (by decide) (by decide) (by decide)
    (by decide) (by decide) rfl (by decide) rfl
  have hsent : t = settle (apart (fun s => serveHeld (commitWindow s)) compensationAccepted) := by
    injection ht.symm.trans (act_alive (s := compensationAccepted) rfl)
  have hpast : t.time.past = [{ till := 0 }] := by
    rw [hsent, settle_time, apart_time]
    exact commitWindow_compensationAccepted
  have hnone : t.time.past = [] := by
    rw [hb]
    rfl
  rw [hnone] at hpast
  cases hpast

end Sys2Proof.Proofs
end

section
/-! PROOFS. Interrupts told of (R116), and what becomes of a command before its work: refused for its version, its header or its area (R100,
R120, R128), left waiting in its slot (R103, R517), or turned away at a slot or a lane that does not take it (R99, R103). -/

namespace Sys2Proof.Proofs
open Machine Laws

/-! ### Interrupts -/

/-- Idling ends with the interrupts told of, but in a power-on reset, where only the outbox is emptied. -/
theorem idle_reported {s : State} (h : reported s) : reported (idle s) := by
  unfold idle
  dsimp only
  split
  · exact h
  · exact settle_reported _

/-- Every command that answers a next state ends with the interrupts told of. -/
theorem exec_reported {i : Instr} {s t : State} (h : exec i s = .next t) : reported t := by
  obtain ⟨x, hx, -⟩ | ⟨_, _, _, -, -, hx⟩ := exec_next i s
  · injection h.symm.trans hx with e
    rw [e]
    exact settle_reported x
  · cases h.symm.trans hx

/-- Settles O6: on an empty queue the block idles (`idle_reported`), else it runs a command (`exec_reported`). -/
theorem interruptsStayTold : Obligations.InterruptsStayTold := by
  unfold Obligations.InterruptsStayTold
  intro s t' hs ht
  unfold step at ht
  split at ht
  · injection ht with e
    rw [← e]
    exact idle_reported hs
  · exact exec_reported ht

/-- Settles O7: after reset no interrupt is enabled, and none has been told of. -/
theorem resetIsTold : Obligations.ResetIsTold := by
  unfold Obligations.ResetIsTold
  exact (BitVec.and_zero (x := intStatus State.reset)).symm

/-! ### Refused before its fields are judged -/

/-- The early refusals look at the command, the Steward's state and the mode, which acceptance leaves alone. -/
theorem refuseEarly_taken (op : Nat) (c : Cmd) (s : State) : refuseEarly op c (taken op c s) = refuseEarly op c s := by
  unfold refuseEarly
  rw [areaServed_taken, taken_power]

/-- A command that is refused early does no work. -/
theorem perform_refusedEarly {op : Nat} {h : Handler} {c : Cmd} {id : Nat} {s : State} {r : Reply}
    (hr : refuseEarly op c s = some r) : perform op h c id s = (notePower op c r s, .reply r) := by
  unfold perform
  rw [hr]

/-- Every row of the command sets that is accepted at once and refused early is answered so, and nothing is done. -/
theorem exec_refusedEarly {i : Instr} {c : Cmd} {s : State} {r : Reply} (hi : i.cmd? = some c) (ha : acceptedNow c s = true)
    (hr : refuseEarly i.opcode c s = some r) (hst : r.status ≠ stOk) :
    ∃ t, exec i s = .next t ∧ ended i.opcode c s r (notePower i.opcode c r s) t := by
  rw [← refuseEarly_taken] at hr
  rw [exec_command hi]
  exact act_submit_refused ha (perform_refusedEarly hr) hst

theorem refuseEarly_version {op : Nat} {c : Cmd} {s : State} (h : c.ifver / 16 ≠ 4) :
    refuseEarly op c s = some { status := 2, detail := 1 } := if_pos h

theorem refuseEarly_header {op d : Nat} {c : Cmd} {s : State} (hv : c.ifver / 16 = 4) (h : badHeader c = some d) :
    refuseEarly op c s = some { status := 3, detail := d } := by
  unfold refuseEarly
  rw [if_neg (fun hne => hne hv), h]
  rfl

theorem refuseEarly_area {op : Nat} {c : Cmd} {s : State} (hh : goodHeader c = true) (ha : areaServed op s = false) :
    refuseEarly op c s = some { status := 7, detail := s.power.mode.code } := by
  obtain ⟨hv, hb⟩ : c.ifver / 16 = 4 ∧ badHeader c = none := by simpa [goodHeader] using hh
  simp [refuseEarly, hv, hb, ha]

/-- Settles O9: each clause is one of the three early refusals, none of which has status OK. -/
theorem commandsAreRefusedEarly : Obligations.CommandsAreRefusedEarly := by
  unfold Obligations.CommandsAreRefusedEarly
  refine ⟨?version, ?header, ?area⟩
  case version =>
    intro i c s hi ha hv
    exact exec_refusedEarly hi ha (refuseEarly_version hv) (by decide)
  case header =>
    intro i c d s hi ha hv hb
    exact exec_refusedEarly hi ha (refuseEarly_header hv hb) (show stBadArg ≠ stOk by decide)
  case area =>
    intro i c s hi ha hh hs hop
    have hserved : areaServed i.opcode s = false := by simp [areaServed, hs, hop]
    exact exec_refusedEarly hi ha (refuseEarly_area hh hserved) (show stWrongMode ≠ stOk by decide)

/-! ### Waiting, or turned away at its slot -/

/-- Settles O11: `submit_waiting` says what the doorbell does while the Steward does not serve. -/
theorem doorbellsWaitForTheSteward : Obligations.DoorbellsWaitForTheSteward := by
  unfold Obligations.DoorbellsWaitForTheSteward
  intro i c s hi ha hw hl hc hp he hf hs hr
  rw [exec_command hi]
  exact act_becomes ha (submit_waiting (s := fresh s) hl.1 hl.2 hw hc hp he hf hs hr)

/-- Settles O12: `submit_taken` says what the doorbell of a slot that is not FREE does. -/
theorem takenSlotsAreLeftAlone : Obligations.TakenSlotsAreLeftAlone := by
  unfold Obligations.TakenSlotsAreLeftAlone
  intro i c s hi ha hw hl hc hp hf
  rw [exec_command hi]
  exact act_becomes ha (submit_taken (s := fresh s) hl.1 hl.2 hw hc hp hf)

/-! ### Unclaimed lanes -/

/-- A doorbell on an unclaimed lane is counted, and reported to nobody (R99). -/
theorem doorbellError_unclaimed {n k : Nat} {s : State} (h : (s.lane n).claimed = false) :
    doorbellError n k s = updLane n (fun l => { l with dbErrCnt := satInc 16 l.dbErrCnt }) s := by
  unfold doorbellError
  rw [if_neg (by simp [h])]

/-- A DOORBELL write on an unclaimed lane counts once, whatever slots it names (R99). -/
theorem doorbell_unclaimed {n : Nat} {ring : BitVec 16} {s : State} (hn : n < 2) (hw : windowUp s = true) (hr : ring ≠ 0)
    (hc : (s.lane n).claimed = false) :
    doorbell n ring s = updLane n (fun l => { l with dbErrCnt := satInc 16 l.dbErrCnt }) s := by
  unfold doorbell viaRegisters
  rw [if_pos ⟨hn, hw⟩]
  dsimp only
  rw [if_pos ⟨by simp [hc], hr⟩, doorbellError_unclaimed hc]

/-- An unclaimed lane has no lease to renew (R96). -/
theorem renewLane_unclaimed {n : Nat} {s : State} (h : (s.lane n).claimed = false) : renewLane n s = s := by
  unfold renewLane
  rw [if_neg (by simp [h])]

/-- A good frame on lane 3, open and unclaimed, has its effect and renews nothing (R93). -/
theorem inbandFrame_lane3_unclaimed {f : InbandFrame} {g : State → State} {s : State} (hl : f.lane = 3) (ht : f.tagOk = true)
    (ho : s.kept.stw.lane3Open = true) (hc : (s.lane 3).claimed = false) : inbandFrame f g s = g s := by
  unfold inbandFrame lane3Open
  simp [hl, ht, ho, renewLane_unclaimed hc]

/-- INBAND_COMMAND on lane 3, open and unclaimed: the doorbell is counted (R99). -/
theorem inbandCommand_lane3_unclaimed {f : InbandFrame} {s : State} (hl : f.lane = 3) (hk : f.slot < 16) (ht : f.tagOk = true)
    (ho : s.kept.stw.lane3Open = true) (hw : windowUp s = true) (hc : (s.lane 3).claimed = false) :
    inbandCommand f s = updLane 3 (fun l => { l with dbErrCnt := satInc 16 l.dbErrCnt }) s := by
  have hlane : (inbandCmd f).lane = 3 := hl
  unfold inbandCommand
  dsimp only
  rw [inbandFrame_lane3_unclaimed hl ht ho hc, submit_unclaimed (by rw [hlane]; decide) hk hw (by rw [hlane]; exact hc), hlane]

/-- Settles O13: a write of DOORBELL counts once (`doorbell_unclaimed`) and leaves no doorbell to accept; a row of the command sets and an
in-band command are submissions to an unclaimed lane (`submit_unclaimed`, `inbandCommand_lane3_unclaimed`). -/
theorem unclaimedLanesCountDoorbells : Obligations.UnclaimedLanesCountDoorbells := by
  unfold Obligations.UnclaimedLanesCountDoorbells
  refine ⟨?doorbell, ?row, ?inband⟩
  case doorbell =>
    intro n ring s ha hw hn hr hc ho
    refine act_becomes ha ?_
    rw [doorbell_unclaimed (s := fresh s) hn hw hr hc]
    obtain ho | ⟨hs, hh⟩ := ho
    · refine serveHeld_none (orders_modify (s := s) (f := fun l => { l with dbErrCnt := satInc 16 l.dbErrCnt }) ?_ rfl ho)
      intro l
      rfl
    · exact serveHeld_idle (s := updLane n _ (fresh s)) (by rw [serving_updLane, fresh_serving]; exact hs) hh
  case row =>
    intro i c s hi ha hw hl hc
    rw [exec_command hi]
    exact act_becomes ha (submit_unclaimed (s := fresh s) hl.1 hl.2 hw hc)
  case inband =>
    intro f s ha hw hf ho hc
    obtain ⟨hl, hk, ht⟩ := hf
    exact act_becomes ha (inbandCommand_lane3_unclaimed (s := fresh s) hl hk ht ho hw hc)

end Sys2Proof.Proofs
end

section
/-! PROOFS. Leases, lane watchdogs, event batches and the heartbeat (R96, R98, R112 to R115, R555), one lemma an operation; then the statement
on them. -/

namespace Sys2Proof.Proofs
open Machine Laws

/-- Lane `l` with event `e` stored at its WR_IDX in beat `b` (R111, R114). -/
def storedIn (b : Nat) (outOfOrder : Bool) (e : Event) (l : Lane) : Lane :=
  { l with
    ring := Map.set l.ring l.wrIdx { code := e.code, source := e.source, phase := l.phase, lost := l.lostMark,
                                     outOfOrder := outOfOrder, stamp := e.stamp, seq := l.entrySeq, data := e.data }
    writtenAt := Map.set l.writtenAt l.wrIdx b, wrIdx := (l.wrIdx + 1) % 1024
    phase := if (l.wrIdx + 1) % 1024 = 0 then !l.phase else l.phase
    entrySeq := (l.entrySeq + 1) % 65536, lostMark := false }

/-- A ring that is not full stores the event (R114). -/
theorem ringEvent_stored {n : Nat} {o : Bool} {e : Event} {s : State} (h : (s.lane n).unread < 1023) :
    ringEvent n o e s = updLane n (storedIn s.beat o e) s := by
  unfold ringEvent
  dsimp only
  rw [if_neg (Nat.not_le.2 h)]
  exact updLane_congr rfl

/-- An unclaimed lane gets no event (R113). -/
theorem wants_unclaimed {s : State} {n : Nat} {e : Event} (h : (s.lane n).claimed = false) : wants s n e = false := by
  simp [wants, h]

theorem wants_claimed {s : State} {n : Nat} {e : Event} (h : (s.lane n).claimed = true)
    (ha : hasBit (s.laneCfg n).areaEn (e.code / 256) = true) (hk : e.skip ≠ n) : wants s n e = true := by
  simp [wants, h, ha, hk]

/-- A lane whose entries have all been read is sent nothing. -/
theorem sendBatch_read {n fuel : Nat} {s : State} (h : (s.lane n).wrIdx = (s.lane n).rdIdx) : sendBatch n fuel s = s := by
  have hu : (s.lane n).unread = 0 := by unfold Lane.unread; rw [h]; omega
  cases fuel with
  | zero => rfl
  | succ k => unfold sendBatch; simp [hu]

/-- A change of one lane leaves the others. -/
theorem lane_updLane_ne {n m : Nat} {f : Lane → Lane} {s : State} (h : m ≠ n) : (updLane n f s).lane m = s.lane m := by
  rw [lane_updLane, if_neg (by simp [h])]

/-- An event that only lane 0 gets, of the four lanes asked in turn. -/
theorem ringLanes_lane0 {o : Bool} {e : Event} {s : State} (hw : wants s 0 e = true) (hu : (s.lane 0).unread < 1023)
    (h1 : (s.lane 1).claimed = false) (h2 : (s.lane 2).claimed = false) (h3 : (s.lane 3).claimed = false) :
    (List.range 4).foldl (fun s n => if wants s n e then ringEvent n o e s else s) s = updLane 0 (storedIn s.beat o e) s := by
  have hx : ∀ n, n ≠ 0 → (s.lane n).claimed = false → wants (updLane 0 (storedIn s.beat o e) s) n e = false :=
    fun n hn hc => wants_unclaimed (by rw [lane_updLane_ne hn]; exact hc)
  simp [show List.range 4 = [0, 1, 2, 3] from rfl, hw, ringEvent_stored hu, hx, h1, h2, h3]

/-- A batch of one event, due, of a beat whose batch has not been written, which only lane 0 gets and lanes 2 and 3 have nothing to be sent
(R112, R113). -/
theorem eventBatch_lane0 {e : Event} {s : State} (he : s.stw.events = [e]) (hep : e.stamp.epoch = s.kept.time.epoch)
    (hlate : s.stw.batchBeat ≤ e.stamp.ns / 1000000) (hdue : e.stamp.ns / 1000000 < s.beat) (hw : wants s 0 e = true)
    (h1 : (s.lane 1).claimed = false) (h2 : (s.lane 2).claimed = false) (h3 : (s.lane 3).claimed = false)
    (hr2 : (s.lane 2).wrIdx = (s.lane 2).rdIdx) (hr3 : (s.lane 3).wrIdx = (s.lane 3).rdIdx) (hu : (s.lane 0).unread < 1023) :
    eventBatch s = updLane 0 (storedIn s.beat false e) { s with stw.events := [], stw.batchBeat := s.beat } := by
  have hring := ringLanes_lane0 (o := false) (s := { s with stw.events := [], stw.batchBeat := s.beat }) hw hu h1 h2 h3
  have hontime : ¬ e.stamp.ns / 1000000 < s.stw.batchBeat := Nat.not_lt.2 hlate
  unfold eventBatch
  simp only [he, hep, hdue, hontime, sortEvents, insertEvent, List.filter, List.foldl_cons, List.foldl_nil, decide_true, decide_false,
    Bool.or_true, Bool.and_false, Bool.not_true, ne_eq, not_true_eq_false]
  refine (congrArg (fun x => sendBatch 3 26 (sendBatch 2 26 x)) hring).trans ?_
  dsimp only
  rw [sendBatch_read (n := 2) (by rw [lane_updLane_ne (by decide)]; exact hr2),
    sendBatch_read (n := 3) (by rw [lane_updLane_ne (by decide)]; exact hr3)]
  rfl

/-- HEARTBEAT when 100 beats have gone by (R555). -/
theorem heartbeat_due {s : State} (hs : s.stw.state = .ready ∨ s.stw.state = .recovery) (hb : 100 ≤ s.stw.heartBeats) :
    heartbeat s = { s with
      stw.heartbeat := (s.stw.heartbeat + 1) % 2 ^ 32, stw.heartBeats := s.stw.heartBeats - 100, assay.chipWdog := 0 } :=
  if_pos ⟨hs, hb⟩

/-- Settles O25: a lease that has run out releases its lane (`releaseLane_idle`), a watchdog marks it; the batch is `eventBatch_lane0`, the
heartbeat `heartbeat_due`. -/
theorem laneTimersAndEventBatches : Obligations.LaneTimersAndEventBatches := by
  unfold Obligations.LaneTimersAndEventBatches
  refine ⟨?lease, ?watchdog, ?batch, ?heartbeat⟩
  case lease =>
    intro n s ha hn hc hl hj ho
    have hx : leaseExpired n (fresh s) = releaseLane n 1 (fresh s) := if_pos ⟨hn, hc, hl⟩
    obtain ⟨hlanes, e, he, hsrc, hcode, hdata, -⟩ := releaseLane_idle (cause := 1) (s := fresh s) hj ho
    refine ⟨_, act_alive ha, ?_, e, ?_, hsrc, hcode, hdata⟩
    · rw [settle_stw_lanes, apart_fresh, hx]
      exact hlanes
    · rw [settle_stw_events, apart_fresh, hx]
      exact he
  case watchdog =>
    intro n s ha hn hc hl
    exact act_becomes ha (if_pos ⟨hn, hc, hl⟩)
  case batch =>
    intro e s ha he hep hlate hdue harea hskip h0 h1 h2 h3 hr2 hr3 _ _ hu
    exact act_becomes ha (eventBatch_lane0 (s := fresh s) he hep hlate hdue (wants_claimed h0 harea hskip) h1 h2 h3 hr2 hr3 hu)
  case heartbeat =>
    intro s ha hs hb
    exact act_becomes ha (heartbeat_due (s := fresh s) hs hb)

end Sys2Proof.Proofs
end

section
/-! PROOFS. Two statements that say too much: a claim frame renews its lane beside the judgement of its claim (R96, log entry 80), and a reset
commanded on the way into Dormant waits for no flash copy (`copyAhead`). -/

namespace Sys2Proof.Proofs
open Machine Laws

/-! ### A hard claim by a frame -/

/-- Lane 3 open, held under nonce 7, with one beat of its lease left. -/
def lane3Held : State :=
  { State.reset with
    kept.stw.lane3Open := true
    stw.lanes := Bank.modify State.reset.stw.lanes 3 (fun l => { l with claimed := true, nonce := 7, leaseLeft := 1 }) }

/-- A claim frame on lane 3 with NONCE 5 and HARD. -/
def hardClaimFrame : InbandFrame := { lane := 3, body := [5, 0, 1] }

/-- The frame renews the lease of the lane, though its claim is ignored (R96, R97). -/
theorem inbandJudge_renews : ((inbandJudge hardClaimFrame lane3Held).lane 3).leaseLeft = 4000 := by decide

/-- The judgement alone leaves the lease as it was. -/
theorem judgeHardClaim_keeps_lease : ((judgeHardClaim 3 5 lane3Held).lane 3).leaseLeft = 1 := by decide

/-- Refutes O17 in its last clause. It equates what a claim frame with HARD does with the judgement of the claim alone; but the frame, accepted,
renews its lane behind the judgement (R96, log entry 80). Where the claim is ignored the renewal shows: at `lane3Held` the lease restarts. -/
theorem not_hardClaimsAreJudged : ¬ Obligations.HardClaimsAreJudged := by
  unfold Obligations.HardClaimsAreJudged
  rintro ⟨-, -, -, -, hframe⟩
  have heq : inbandJudge hardClaimFrame lane3Held = judgeHardClaim 3 5 lane3Held := hframe hardClaimFrame lane3Held (by decide)
  have hlease : (4000 : Nat) = 1 := by
    rw [← inbandJudge_renews, heq, judgeHardClaim_keeps_lease]
  cases hlease

/-! ### A reset commanded on the way into Dormant -/

/-- A warm reset requested where no flash copy can follow any more is due after its delay. -/
theorem requestWarm_noCopy {recovery : Bool} {delay cause : Nat} {s : State} (hw : s.stw.warmReq = none) (hc : copyAhead s = false) :
    requestWarm recovery delay cause s = { s with
      stw.warmReq := some { intoRecovery := recovery, due := some (s.beat + delay), delay := delay, cause := cause } } := by
  unfold requestWarm
  rw [hw]
  exact if_neg (by simp [hc])

/-- The work of SYS_RESET_CMD of KIND 0 where no flash copy can follow: the reset is requested, and the command answered at once. -/
theorem sysResetCmd_noCopy {c : Cmd} {id : Nat} {s : State} (hk : c.u 16 1 = 0) (hs : c.u 17 1 = 0) (hw : s.stw.warmReq = none)
    (hc : copyAhead s = false) :
    sysResetCmd.run c id s =
      ({ s with stw.warmReq := some { due := some (s.beat + 10), delay := 10, cause := 3 } }, .reply (ok)) := by
  have hr : requestWarm (decide (c.u 16 1 = 1)) 10 3 s =
      { s with stw.warmReq := some { due := some (s.beat + 10), delay := 10, cause := 3 } } := by
    rw [requestWarm_noCopy hw hc, hk]; rfl
  unfold sysResetCmd
  dsimp only
  rw [if_neg (by simp [hs]), if_pos (by omega), hr]
  rfl

/-- READY with lane 0 claimed and a change to save, step 2 of an entry to Dormant running. -/
def enteringDormant : State :=
  { State.reset with
    boot.stage := 8, stw.state := .ready, stw.changePending := true
    stw.lanes := Bank.modify State.reset.stw.lanes 0 (fun l => { l with claimed := true })
    power.entry := some { target := .dormant, left := .lean, asker := .self, cause := 0, step := 2 } }

/-- SYS_RESET_CMD of KIND 0 in slot 0 of lane 0. -/
def resetCommand : Cmd := { lane := 0, slot := 0, length := 20, body := [0, 0, 0, 0] }

/-- Refutes O26 in its clause on SYS_RESET_CMD with a change to save. The clause has the command stay open for a flash copy in every state that
serves it. But an entry to Dormant writes its copy in step 1 (R456), and the model takes no further copy to come from step 2 on (`copyAhead`),
while the Steward still serves: at `enteringDormant` the command is answered at once, its slot DONE. -/
theorem not_systemCommandsComplete : ¬ Obligations.SystemCommandsComplete := by
  unfold Obligations.SystemCommandsComplete
  rintro ⟨-, -, -, -, -, -, -, -, hcopy, -⟩
  have hready : readyFor resetCommand enteringDormant = true := by decide +kernel
  have htable : goodTable sysResetCmd.fields resetCommand = true := by decide +kernel
  obtain ⟨t, ht, hheld, -⟩ := hcopy resetCommand enteringDormant hready htable (by decide) (by decide) rfl rfl
  have hwork := sysResetCmd_noCopy (c := resetCommand) (id := enteringDormant.stw.nextJob) (s := taken 0x0104 resetCommand enteringDormant)
    (by decide) (by decide) rfl rfl
  obtain ⟨t', ht', ⟨hdone, -⟩, -⟩ := ready_reply (op := 0x0104) hready htable (by rw [hwork]) rfl (by rw [hwork]; decide)
  injection ht.symm.trans ht' with heq
  rw [heq, hdone] at hheld
  cases hheld

end Sys2Proof.Proofs
end

section
/-! PROOFS. The commands of area 0x06 (R178, R180, R182, R183): what the work of each does, one lemma a command and outcome; then the statement on
them. -/

namespace Sys2Proof.Proofs
open Machine Laws

/-- What a command that READY serves at once does, where its work answers and leaves the Steward interface as its acceptance left it. -/
theorem ready_answers {op : Nat} {h : Handler} {c : Cmd} {s u : State} {r : Reply} (ha : readyFor c s = true)
    (hf : goodTable h.fields c = true) (hr : h.run c s.stw.nextJob (taken op c s) = ({ taken op c u with pending := [] }, .reply r))
    (hk : u.kept = s.kept := by rfl) (hw : u.stw = s.stw := by rfl) (hq : u.pending = s.pending := by rfl) :
    ∃ t, act (submit op h c) s = .next t ∧ ended op c s r u t := by
  have hstw : (taken op c u).stw = (taken op c s).stw := by
    unfold taken State.laneCfg
    rw [hk, hw]
  exact ready_ended ha hf (by rw [hr]) (by rw [hr]; exact hstw) (by rw [hr]; simp [sameParts]) hq hw

/-- The settings staged when a command has ended are those that its work left. -/
theorem ended_next {op : Nat} {c : Cmd} {s u t : State} {r : Reply} (h : ended op c s r u t) : t.next = u.next := by
  obtain ⟨-, -, ht⟩ := h
  rw [ht]

/-! ### FIELD_CONFIG -/

/-- The settings that FIELD_CONFIG carries (Table 3-17). -/
def fieldConfigOf (c : Cmd) : FieldConfig :=
  { f24 := c.flag 16 1 0, fsg := c.flag 16 1 1, fsgChannel := c.u 17 1, panId := c.u 18 2, short := c.u 20 2, chanMask := c.u 22 2
    monitorMask := c.u 24 2, txpwr24 := c.i 26 1, txpwrSg := c.i 27 1, ccaMode := bitsOf (c.u 28 1) 1 0, ccaAnd := c.flag 28 1 2
    ccaEd := c.i 29 1, detThresh := c.u 30 1, detCount := c.u 31 1, detFloor := c.i 32 1, captureMargin := c.u 33 1
    syncFloor := c.u 34 1, minBe := bitsOf (c.u 35 1) 3 0, maxBe := bitsOf (c.u 35 1) 7 4, maxBackoffs := c.u 36 1
    maxRetries := c.u 37 1, minSecUnknown := c.u 38 1, fsgMonitor := c.flag 39 1 0, beaconAny := c.flag 39 1 1, dupWindow := c.u 40 2
    pendDelay := c.u 42 2, persist := c.u 44 4, dozePeriod := c.u 48 2, dozeListen := c.u 50 2 }

/-- FIELD_CONFIG within the limits of Table 3-17 is staged, and answered with the extended address. -/
theorem fieldConfigCmd_staged {c : Cmd} {id : Nat} {s : State} (hcca : bitsOf (c.u 28 1) 1 0 ≠ 0) (hmin : bitsOf (c.u 35 1) 3 0 ≤ 7)
    (hmax : 3 ≤ bitsOf (c.u 35 1) 7 4 ∧ bitsOf (c.u 35 1) 7 4 ≤ 8) (hdoze : c.u 50 2 ≠ 0 ∧ c.u 50 2 ≤ c.u 48 2) :
    fieldConfigCmd.run c id s =
      (stageKept (fun k => { k with field.config := fieldConfigOf c }) s, .reply (ok (le 8 Config.extAddress))) := by
  unfold fieldConfigCmd
  dsimp only
  rw [if_neg hcca, if_neg (by omega), if_neg (by omega)]
  rfl

/-! ### Child records -/

/-- The record that FIELD_CHILD_SET carries (Table 3-18), in place of `was`: the incoming counters are loaded or left. -/
def childOf (c : Cmd) (was : Option Child) : Child :=
  { client := c.u 18 2, ext := c.u 20 8, short := c.u 28 2, bandChan := c.u 30 1, rxOnIdle := c.flag 31 1 0, standby := c.flag 31 1 1
    joining := c.flag 31 1 2, forcePend := c.flag 31 1 3, keyIdx := c.u 32 2, minSec := c.u 34 1, qdepth := c.u 35 1, pollExpect := c.u 36 2
    inFcPair := if c.flag 31 1 4 then some (c.u 40 4) else was.bind (·.inFcPair)
    inFcGroup := if c.flag 31 1 4 then some (c.u 44 4) else was.bind (·.inFcGroup) }

/-- The key entries with the outgoing counter that FIELD_CHILD_SET loads into the record's key, where it loads one. -/
def loadedKeys (c : Cmd) (m : List (Nat × KeyEntry)) : List (Nat × KeyEntry) :=
  match Map.get? m (c.u 32 2) with
  | some e => if c.flag 31 1 4 then Map.set m (c.u 32 2) { e with txPn := c.u 48 4 } else m
  | none => m

/-- What FIELD_CHILD_SET stages: the record, and its key's counter with it (R180). -/
def childStaged (c : Cmd) (s : State) : State :=
  stageKept (fun k => { k with
    field.children := Map.set k.field.children (c.u 16 2) (childOf c (Map.get? s.next.field.children (c.u 16 2)))
    wide.fieldKeys := loadedKeys c k.wide.fieldKeys }) s

/-- FIELD_CHILD_SET of a record that shares an address with no other record. -/
theorem fieldChildSet_staged {c : Cmd} {id : Nat} {s : State}
    (hother : s.next.field.children.all (fun e => decide (e.1 = c.u 16 2) ||
      (decide (e.2.ext ≠ c.u 20 8) && (decide (c.u 28 2 = 0xFFFE) || decide (e.2.short ≠ c.u 28 2)))) = true)
    (hchan : bandChanOk (c.u 30 1) = true) (hkey : c.u 32 2 ≤ 4095 ∨ c.u 32 2 = 0xFFFF) :
    fieldChildSet.run c id s = (childStaged c s, .reply (ok)) := by
  simp only [List.all_eq_true, Bool.or_eq_true, Bool.and_eq_true, decide_eq_true_eq] at hother
  have hext : (s.next.field.children.filter (fun e => e.1 ≠ c.u 16 2)).any (fun e => decide (e.2.ext = c.u 20 8)) = false := by
    simp only [List.any_eq_false, List.mem_filter, decide_eq_true_eq]
    rintro e ⟨he, hne⟩
    exact ((hother e he).resolve_left hne).1
  have hshort : ¬ (c.u 28 2 ≠ 0xFFFE ∧
      (s.next.field.children.filter (fun e => e.1 ≠ c.u 16 2)).any (fun e => decide (e.2.short = c.u 28 2)) = true) := by
    simp only [List.any_eq_true, List.mem_filter, decide_eq_true_eq]
    rintro ⟨hset, e, ⟨he, hne⟩, heq⟩
    exact (((hother e he).resolve_left hne).2.resolve_left hset) heq
  unfold fieldChildSet
  dsimp only
  rw [if_neg (by rw [hext]; decide), if_neg hshort, if_neg (by simp [hchan]), if_neg (by omega)]
  rfl

/-- A key entry's outgoing counter after a load, where there is an entry. -/
theorem loadedKeys_txPn (c : Cmd) (m : List (Nat × KeyEntry)) :
    (Map.get? (loadedKeys c m) (c.u 32 2)).map (·.txPn) =
      (Map.get? m (c.u 32 2)).map (fun e => if c.flag 31 1 4 then c.u 48 4 else e.txPn) := by
  unfold loadedKeys
  cases he : Map.get? m (c.u 32 2) with
  | none => rw [he]; rfl
  | some e => cases c.flag 31 1 4 <;> simp [he]

/-- No counter is loaded into a key entry that does not exist. -/
theorem loadedKeys_none {c : Cmd} {m : List (Nat × KeyEntry)} (h : Map.get? m (c.u 32 2) = none) : loadedKeys c m = m := by
  unfold loadedKeys
  rw [h]

/-- The first record of all, with no counter loaded and no key entry under its key's number. -/
theorem childStaged_first {c : Cmd} {s : State} (hnone : s.next.field.children = [])
    (hentry : Map.get? s.next.wide.fieldKeys (c.u 32 2) = none) :
    childStaged c s = { s with next.field.children := [(c.u 16 2, childOf c none)] } := by
  unfold childStaged stageKept
  dsimp only
  rw [hnone, loadedKeys_none hentry]
  rfl

/-- FIELD_CHILD_DEL of a record that exists. -/
theorem fieldChildDel_staged {c : Cmd} {id : Nat} {s : State} (h : Map.has s.next.field.children (c.u 16 2) = true) :
    fieldChildDel.run c id s = ({ stageKept (fun k => { k with field.children := Map.erase k.field.children (c.u 16 2) }) s with
      field.deleted := c.u 16 2 :: s.field.deleted }, .reply (ok)) := if_neg (by simp [h])

/-- The answer of FIELD_CHILD_GET (Table 3-19) for record `i`, which holds `r` and whose key has sent `out` frames. -/
def childBytes (s : State) (i out : Nat) (r : Child) : List Byte :=
  le 2 i ++ le 2 r.client ++ le 8 r.ext ++ le 2 r.short ++ le 1 r.bandChan ++
    le 1 (fieldsWord [(0, bit r.rxOnIdle), (1, bit r.standby), (2, bit r.joining), (3, bit r.forcePend)]) ++ le 2 r.keyIdx ++ le 1 r.minSec ++
    le 1 r.qdepth ++ le 2 r.pollExpect ++ le 2 0 ++ le 4 (r.inFcPair.getD 0) ++ le 4 (r.inFcGroup.getD 0) ++ le 4 out ++
    le 2 (s.queue (0x2000 + i)).frames.length ++ le 2 (min 0xFFFF (pollAge s (childRun s i))) ++ leInt 1 (childRun s i).rssi ++
    le 1 (childRun s i).corrQ ++ le 1 (childRun s i).channel ++ [0]

/-- FIELD_CHILD_GET of a record whose key is not there. -/
theorem fieldChildGet_noKey {c : Cmd} {id : Nat} {r : Child} {s : State} (hr : childRec s (c.u 16 2) = some r)
    (hk : fieldKey s r.keyIdx = none) : fieldChildGet.run c id s = (s, .reply (ok (childBytes s (c.u 16 2) 0 r))) := by
  unfold fieldChildGet
  dsimp only
  rw [hr]
  dsimp only
  rw [hk]
  rfl

/-! ### Rendezvous records and the orphan plan -/

/-- The record that FIELD_RDV_SET carries for F24 (Table 3-20). -/
def rdvOf (c : Cmd) : Rdv :=
  { enable := c.flag 17 1 0, listen := c.flag 17 1 1, band := 0, neighbour := c.u 18 2, channel := c.u 20 1, period := c.u 22 2
    offset := c.u 24 2, phaseUs := c.u 26 2, guardMin := c.u 28 2 }

/-- FIELD_RDV_SET of a record on F24. -/
theorem fieldRdvSet_f24 {c : Cmd} {id : Nat} {s : State} (hb : c.flag 17 1 2 = false) (hk : 11 ≤ c.u 20 1 ∧ c.u 20 1 ≤ 26)
    (ho : c.u 24 2 < c.u 22 2) : fieldRdvSet.run c id s =
      (stageKept (fun x => { x with field.rdv := Map.set x.field.rdv (c.u 16 1) (rdvOf c) }) s, .reply (ok)) := by
  have hband : bit (c.flag 17 1 2) = 0 := by rw [hb]; rfl
  have hchan : ¬ (c.u 20 1 < 11 ∨ c.u 20 1 > 26) := by omega
  unfold fieldRdvSet
  dsimp only
  rw [hband, if_neg (by rw [if_pos rfl]; exact hchan), if_neg (by omega)]
  rfl

/-- A good plan that is pushed to no child is only stored (R178). -/
theorem fieldOrphanPlan_stored {c : Cmd} {id : Nat} {s : State} (hp : badPlan c = none) (h0 : c.flag 16 1 0 = false)
    (h1 : c.flag 16 1 1 = false) : fieldOrphanPlan.run c id s =
      ({ stageKept (fun k => { k with field.orphan := some (c.bytesAt 20 (12 + 16 * c.u 27 1)) }) s with field.pushed := [] },
        .reply (ok)) := by
  have hwho : s.kept.field.children.filter (fun x => c.flag 16 1 0 || (c.flag 16 1 1 && decide (x.1 = c.u 18 2))) = [] := by
    simp [h0, h1]
  unfold fieldOrphanPlan
  dsimp only
  rw [if_neg (by simp [h1]), hp]
  dsimp only
  rw [hwho]
  rfl

/-- A plan that breaks its tables is refused with the offset of its first wrong field. -/
theorem fieldOrphanPlan_bad {c : Cmd} {id o : Nat} {s : State} (hp : badPlan c = some o) (h1 : c.flag 16 1 1 = false) :
    fieldOrphanPlan.run c id s = (s, .reply (badArg o)) := by
  unfold fieldOrphanPlan
  dsimp only
  rw [if_neg (by simp [h1]), hp]

/-! ### Test modes -/

/-- A chain in no test mode has none to stop. -/
theorem stopFieldTest_none {chain : Nat} {s : State} (h : (s.fchain chain).test = none) : stopFieldTest chain s = s := by
  unfold stopFieldTest
  rw [h]

/-- FIELD_TEST of a receiver on F24, which is disabled, without an end: both its synthesisers relock (Table 3-21). -/
theorem fieldTest_listens {c : Cmd} {id : Nat} {s : State} (hm : c.u 16 1 = 3) (hc : c.u 17 1 = 0) (hk : 11 ≤ c.u 18 1 ∧ c.u 18 1 ≤ 26)
    (hb : bandOn s 0 = false) (hn : s.next.field.config.f24 = false) (ht : (s.fchain 0).test = none) (hd : c.u 20 4 = 0) :
    fieldTest.run c id s =
      (startLock 2 (startLock 3 (updFchain 0 (fun x => { x with test := some (3, c.u 18 1, c.u 19 1, 0) }) s)), .reply (ok)) := by
  have hchan : ¬ (c.u 18 1 < 11 ∨ c.u 18 1 > 26) := by omega
  unfold fieldTest
  dsimp only
  simp only [hm, hc, hd, hb, hn, hchan, stopFieldTest_none ht, if_true, if_false, or_self, Bool.false_eq_true, show ¬ (3 : Nat) = 0 from by decide]

/-- FIELD_TEST on F24 while it is enabled is refused (R180). -/
theorem fieldTest_denied {c : Cmd} {id : Nat} {s : State} (hc : c.u 17 1 = 0) (hk : 11 ≤ c.u 18 1 ∧ c.u 18 1 ≤ 26)
    (hb : bandOn s 0 = true) : fieldTest.run c id s = (s, .reply (denied)) := by
  have hchan : ¬ (c.u 18 1 < 11 ∨ c.u 18 1 > 26) := by omega
  unfold fieldTest
  dsimp only
  rw [hc, if_neg (by rw [if_pos rfl]; exact hchan), if_pos (.inl hb)]

/-- Two relocks in a row change the front end alone, and as they do in any state with the same front end, units and time. -/
theorem startLock_pair {s u : State} (hf : u.front = s.front) (ha : u.assay = s.assay) (ht : u.time = s.time) :
    startLock 2 (startLock 3 u) = { u with front := (startLock 2 (startLock 3 s)).front } := by
  have hinner : (startLock 3 u).front = (startLock 3 s).front := startLock_front hf ha ht
  have houter : (startLock 2 (startLock 3 u)).front = (startLock 2 (startLock 3 s)).front :=
    startLock_front hinner (by rw [startLock_eq 3 u, startLock_eq 3 s]; exact ha) (by rw [startLock_eq 3 u, startLock_eq 3 s]; exact ht)
  rw [startLock_eq 2 (startLock 3 u), houter, startLock_eq 3 u]

/-! ### FIELD_COUNTERS -/

/-- The answer of FIELD_COUNTERS for a band or a channel (Table 3-22). -/
def fieldCounterBytes (s : State) (scope : Nat) : List Byte :=
  le 4 0 ++ le 1 (fieldsWord [(0, bit s.field.fcLowStk), (1, bit s.field.rdvLostStk), (2, bit s.field.replayStk)]) ++ le 3 0 ++
    ((List.range 30).map (fun i => le 4 (tallyOf s.field.counts (256 * scope + (24 + 4 * i))))).flatten

/-- FIELD_COUNTERS of a band, which is its own scope, without a clear. -/
theorem fieldCounters_read {c : Cmd} {id : Nat} {s : State} (hs : c.u 16 1 ≤ 1) (hf : c.u 17 1 = 0) :
    fieldCounters.run c id s = (s, .reply (ok (fieldCounterBytes s (c.u 16 1)))) := by
  have h0 : c.flag 17 1 0 = false := by unfold Cmd.flag; rw [hf]; rfl
  have h1 : c.flag 17 1 1 = false := by unfold Cmd.flag; rw [hf]; rfl
  have h18 : ¬ c.u 16 1 = 18 := by omega
  unfold fieldCounters
  dsimp only
  rw [if_neg (fun h => h18 h.1), h0, h1]
  simp only [hs, h18, if_true, if_false, Bool.not_false, Bool.false_and, Bool.and_true]
  rfl

/-- FIELD_COUNTERS of a channel, with a clear of its counters and of every sticky bit. -/
theorem fieldCounters_cleared {c : Cmd} {id : Nat} {s : State} (hs : c.u 16 1 = 6) (hf : c.u 17 1 = 3) (hk : c.u 20 1 = 7) :
    fieldCounters.run c id s = ({ s with
      field.counts := s.field.counts.filter (fun e => e.1 / 256 ≠ 15)
      field.fcLowStk := false, field.rdvLostStk := false, field.replayStk := false }, .reply (ok (fieldCounterBytes s 15))) := by
  have h0 : c.flag 17 1 0 = true := by unfold Cmd.flag; rw [hf]; rfl
  have h1 : c.flag 17 1 1 = true := by unfold Cmd.flag; rw [hf]; rfl
  have hall : ∀ i < 3, c.flag 20 1 i = true := by unfold Cmd.flag; rw [hk]; decide
  unfold fieldCounters
  dsimp only
  rw [hs, h0, h1, hall 0 (by decide), hall 1 (by decide), hall 2 (by decide)]
  simp only [Bool.not_true, Bool.and_false, Bool.true_and]
  rfl

/-- Settles O31: the work of each command is the lemma above that names its outcome, and READY answers it at once (`ready_answers`). -/
theorem fieldCommandsComplete : Obligations.FieldCommandsComplete := by
  unfold Obligations.FieldCommandsComplete
  refine ⟨?config, ?childNew, ?childSet, ?childDel, ?childGet, ?rdvSet, ?planStored, ?planBad, ?testListens, ?testDenied, ?counters,
    ?countersCleared⟩
  case config =>
    intro c s ha hf hcca hmin hmax hdoze
    exact ready_answers ha hf (fieldConfigCmd_staged hcca hmin hmax hdoze)
  case childNew =>
    intro c s ha hf hnone hchan hkey hload hentry
    refine ready_answers ha hf ((fieldChildSet_staged (s := taken 0x0602 c s) ?_ hchan (.inr hkey)).trans ?_)
    · rw [taken_next, hnone]; rfl
    · rw [childStaged_first (s := taken 0x0602 c s) hnone (by rw [hkey]; exact hentry)]
      unfold childOf
      rw [hload]
      rfl
  case childSet =>
    intro c s ha hf hother hchan hkey
    obtain ⟨t, ht, hend⟩ :=
      ready_answers (u := childStaged c s) ha hf (fieldChildSet_staged (s := taken 0x0602 c s) hother hchan hkey)
    have hnext : t.next = (childStaged c s).next := ended_next hend
    refine ⟨t, ht, ?_, ?_, ?_⟩
    · rw [hnext]
      exact hend
    · rw [hnext]
      exact get?_set_same ..
    · rw [hnext]
      exact loadedKeys_txPn ..
  case childDel =>
    intro c s ha hf hhas
    exact ready_answers ha hf (fieldChildDel_staged (s := taken 0x0603 c s) hhas)
  case childGet =>
    intro c r s ha hf hr hk
    exact ready_answers ha hf (fieldChildGet_noKey (s := taken 0x0604 c s) hr hk)
  case rdvSet =>
    intro c s ha hf hb hk ho
    exact ready_answers ha hf (fieldRdvSet_f24 hb hk ho)
  case planStored =>
    intro c s ha hf hp h0 h1
    exact ready_answers ha hf (fieldOrphanPlan_stored hp h0 h1)
  case planBad =>
    intro c s ha hf hp h1
    exact ready_answers ha hf (fieldOrphanPlan_bad hp h1)
  case testListens =>
    intro c s ha hf hm hc hk hb hn ht hd
    refine ready_answers ha hf ((fieldTest_listens (s := taken 0x0607 c s) hm hc hk hb hn ht hd).trans ?_)
    rw [startLock_pair (u := updFchain 0 _ (taken 0x0607 c s)) (s := s) rfl rfl rfl]
    rfl
  case testDenied =>
    intro c s ha hf hc hk hb
    exact ready_answers ha hf (fieldTest_denied (s := taken 0x0607 c s) hc hk hb)
  case counters =>
    intro c s ha hf hs hz
    exact ready_answers ha hf (fieldCounters_read hs hz)
  case countersCleared =>
    intro c s ha hf hs hz hk
    exact ready_answers ha hf (fieldCounters_cleared hs hz hk)

end Sys2Proof.Proofs
end

section
/-! PROOFS. What a field transmission's start leaves as it was, and what the field radio does on the way to the air: acknowledgements (R150 to R152),
releases (R316, R348), back-offs and clear-channel assessments (R154, R156, R157); then the statement on them. -/

namespace Sys2Proof.Proofs
open Machine Laws

/-! ### What a blank leaves as it was -/

/-- A chain read after a change to it. -/
theorem fchain_updFchain {k : Nat} (hk : k < 2) (f : FieldChain → FieldChain) (s : State) : (updFchain k f s).fchain k = f (s.fchain k) := by
  unfold State.fchain updFchain
  rw [getD_modify, if_pos ⟨rfl, hk⟩]

/-- What no blank changes: the clock, what is on the air, and the acknowledgements due on each chain. -/
def ackView (s : State) : Timebase × List (Nat × RadioTx) × (Nat → List AckDue) :=
  (s.time, s.front.tx, fun k => (s.fchain k).acks)

theorem ackView_updFchain {k : Nat} {f : FieldChain → FieldChain} {s : State} (hf : (f (s.fchain k)).acks = (s.fchain k).acks) :
    ackView (updFchain k f s) = ackView s := by
  have hacks : (fun j => ((updFchain k f s).fchain j).acks) = fun j => (s.fchain j).acks := by
    funext j
    unfold State.fchain updFchain
    rw [getD_modify]
    split
    · next h => rw [h.1]; exact hf
    · rfl
  unfold ackView
  rw [hacks]
  rfl

@[simp] theorem ackView_raise (src code : Nat) (d : List Byte) (s : State) : ackView (raise src code d s) = ackView s := rfl
@[simp] theorem ackView_emit (o : Output) (s : State) : ackView (emit o s) = ackView s := rfl
@[simp] theorem ackView_updRing (r : Nat) (f : Ring → Ring) (s : State) : ackView (updRing r f s) = ackView s := rfl
@[simp] theorem ackView_updQueue (q : Nat) (f : PQueue → PQueue) (s : State) : ackView (updQueue q f s) = ackView s := rfl
@[simp] theorem ackView_setRx (ch : Nat) (x : RxPhase) (s : State) : ackView (setRx ch x s) = ackView s := rfl
@[simp] theorem ackView_updWr (r : Nat) (f : Radio → Radio) (s : State) : ackView (updWr r f s) = ackView s := rfl

@[simp] theorem ackView_clearAccess (chain : Nat) (s : State) : ackView (clearAccess chain s) = ackView s := ackView_updFchain rfl

@[simp] theorem ackView_fieldCount (ch k : Nat) (o : Option Nat) (s : State) : ackView (fieldCount ch k o s) = ackView s := by
  cases o <;> rfl

@[simp] theorem ackView_fieldBytes (out : Bool) (o : Option Nat) (n : Nat) (s : State) : ackView (fieldBytes out o n s) = ackView s := by
  cases o with
  | none => rfl
  | some c => cases out <;> rfl

@[simp] theorem ackView_startRetune (i : Nat) (s : State) : ackView (startRetune i s) = ackView s := by
  unfold startRetune
  split <;> rfl

theorem ackView_watchPend {q : Nat} {f : State → State} {s : State} (hf : ackView (f s) = ackView s) : ackView (watchPend q f s) = ackView s := by
  rw [← hf]
  unfold watchPend
  dsimp only
  split <;> rfl

@[simp] theorem ackView_leave (e : Nat) (f : Queued) (s : State) : ackView (leave e f s) = ackView s := by
  unfold leave uncharge releaseCells freeCells
  dsimp only
  repeat' split
  all_goals rfl

@[simp] theorem ackView_dropFrame (q : Nat) (f : Queued) (s : State) : ackView (dropFrame q f s) = ackView s := by
  unfold dropFrame
  rw [tagHead_eq]
  rfl

@[simp] theorem ackView_exhausted (ch : Nat) (key : Option Nat) (s : State) : ackView (exhausted ch key s) = ackView s := by
  unfold exhausted
  simp

@[simp] theorem ackView_fieldDone (ch st : Nat) (o : Option Nat) (m : FieldTx) (s : State) : ackView (fieldDone ch st o m s) = ackView s := by
  unfold fieldDone
  dsimp only
  rw [ackView_emit]
  repeat' split
  all_goals simp

@[simp] theorem ackView_completeField (ch q st : Nat) (f : Queued) (m : FieldTx) (s : State) : ackView (completeField ch q st f m s) = ackView s := by
  unfold completeField
  simp

@[simp] theorem ackView_endAccess (chain st : Nat) (s : State) : ackView (endAccess chain st s) = ackView s := by
  unfold endAccess
  split
  · rfl
  · dsimp only
    split
    · simp
    · rw [ackView_completeField]
      split
      · simp
      · exact (ackView_watchPend (by simp)).trans (by simp)

@[simp] theorem ackView_returnAccess (chain : Nat) (s : State) : ackView (returnAccess chain s) = ackView s := by
  unfold returnAccess returnFrame returnHead swapFrame
  repeat' split
  · rfl
  · simp
  · exact (ackView_watchPend rfl).trans (by simp)
  · rw [ackView_updQueue, ackView_clearAccess]

@[simp] theorem ackView_noAck (chain slots : Nat) (s : State) : ackView (noAck chain slots s) = ackView s := by
  have hset : ∀ a, ackView (updFchain chain (fun c => { c with access := some a }) s) = ackView s := fun a => ackView_updFchain rfl
  unfold noAck
  dsimp only
  repeat' split
  all_goals simp [hset]

@[simp] theorem ackView_waitOver (ch : Nat) (s : State) : ackView (waitOver ch s) = ackView s := by
  unfold waitOver draw
  dsimp only
  repeat' split
  · rw [ackView_noAck]; rfl
  all_goals rfl

theorem ackView_writeBuffers (r : Nat) (q : Queued) (id kind len : Nat) (tagged : Bool) (info : List Byte) (l : List (RxDesc × Nat)) (i off : Nat)
    (s : State) : ackView (writeBuffers r q id kind len tagged info l i off s) = ackView s := by
  induction l generalizing i off s with
  | nil => rfl
  | cons x rest ih =>
    obtain ⟨d, n⟩ := x
    unfold writeBuffers
    dsimp only
    rw [ih]
    rfl

@[simp] theorem ackView_ringDry (r : Nat) (s : State) : ackView (ringDry r s) = ackView s := by
  unfold ringDry
  dsimp only
  split <;> rfl

@[simp] theorem ackView_monitorCut (ch st : Nat) (r : Reception) (s : State) : ackView (monitorCut ch st r s) = ackView s := by
  unfold monitorCut ringDeliver
  dsimp only
  repeat' split
  · rfl
  · rw [ackView_ringDry]; rfl
  · rw [ackView_updRing, ackView_writeBuffers]; rfl

@[simp] theorem ackView_endReception (ch st k : Nat) (s : State) : ackView (endReception ch st k s) = ackView s := by
  unfold endReception
  split
  · dsimp only
    rw [ackView_waitOver]
    split <;> simp
  · rfl

@[simp] theorem ackView_blankChannel (t ch : Nat) (s : State) : ackView (blankChannel t ch s) = ackView s := by
  unfold blankChannel
  repeat' split
  all_goals simp

@[simp] theorem ackView_blankChain (chain t : Nat) (s : State) : ackView (blankChain chain t s) = ackView s := by
  refine foldl_keeps ackView _ (fun s x => ?_) _ _
  split <;> simp

@[simp] theorem ackView_endPpdu (r st k : Nat) (s : State) : ackView (endPpdu r st k s) = ackView s := by
  unfold endPpdu
  dsimp only
  split <;> rfl

@[simp] theorem ackView_blankWide (r t : Nat) (s : State) : ackView (blankWide r t s) = ackView s := by
  unfold blankWide rxIdle busySpan
  dsimp only
  repeat' split
  all_goals simp only [ackView_updWr, ackView_endPpdu]

@[simp] theorem ackView_settleChains (r : Nat) (s : State) : ackView (settleChains r s) = ackView s := by
  unfold settleChains
  dsimp only
  repeat' split
  all_goals rfl

/-! ### FIELD_ACK_SEND -/

/-- A field transmission starts: it is on the air from now on, the clock and the acknowledgements due are as before. -/
theorem ackView_startField (chain kind dur : Nat) (s : State) : ackView (startField chain kind dur s) =
    (s.time, Map.set s.front.tx (34 + chain) { t0 := s.time.mono, t1 := s.time.mono + dur, kind := kind, chains := 1 },
      fun k => (s.fchain k).acks) := by
  have hstart : ∀ b : State, ackView b = ackView s → ackView (startRadio (34 + chain) kind 1 dur b) =
      (s.time, Map.set s.front.tx (34 + chain) { t0 := s.time.mono, t1 := s.time.mono + dur, kind := kind, chains := 1 },
        fun k => (s.fchain k).acks) := by
    intro b hb
    obtain ⟨o, ho⟩ := startRadio_does (34 + chain) kind 1 dur b
    obtain ⟨htime, hrest⟩ := Prod.mk.inj hb
    obtain ⟨htx, hacks⟩ := Prod.mk.inj hrest
    rw [ho, ← htime, ← htx, ← hacks]
    rfl
  have hblank : ∀ (src t : Nat) (b : State), ackView (blankTo src t b) = ackView b := fun _ _ _ => rfl
  unfold startField fieldSource
  dsimp only
  split
  · rw [ackView_settleChains, hblank, ackView_blankWide, hblank, hstart _ (ackView_blankChain ..)]
  · rw [hblank, hstart _ (ackView_blankChain ..)]

/-- The acknowledgements due on a chain once the first has been taken: the rest. -/
def ackTaken (chain : Nat) (rest : List AckDue) (s : State) : State := updFchain chain (fun c => { c with acks := rest }) s

/-- The counter that an acknowledgement is sent under: 0 for an unsecured one, else its key's next. -/
def ackSeal (k : AckDue) (s : State) : Option Nat × State :=
  match k.key with
  | none => (some 0, s)
  | some e => nextCounter k.channel e s

/-- An acknowledgement goes on the air under counter `n`. -/
def sentAck (chain : Nat) (k : AckDue) (n : Nat) (s : State) : State :=
  let s1 := fieldCount k.channel fAckSent none (startField chain 1 k.dur s)
  let s2 := match k.poll with | some c => fieldCount k.channel fPollPend (some c) s1 | none => s1
  emit (.frame (fieldSource chain) 3 ([k.channel, bit k.pending, bit k.enhanced, (k.dsn.map (· + 1)).getD 0, k.dest.1, k.dest.2,
      fieldPower s chain] ++ sealNats k.level k.key (some n)))
    (updFchain chain (fun c => { c with sendingAck := some (s.time.mono + k.dur, k) }) s2)

/-- No radio transmits while nothing is on the air. -/
theorem transmitting_none {s : State} (h : s.front.tx = []) (src : Nat) : transmitting s src = false := by
  unfold transmitting
  rw [h]
  rfl

/-- An acknowledgement that nothing stands in the way of, and whose key has a counter left, is sent. -/
theorem ackSend_clear {chain n : Nat} {k : AckDue} {rest : List AckDue} {s y x : State} (hk : (s.fchain chain).acks = k :: rest)
    (hy : ackTaken chain rest (advanceMono k.at' s) = y) (hup : fieldUp y = true)
    (htx : transmitting y (34 + chain) = false) (hob : obstructed y (34 + chain) 1 = false)
    (hclash : wideClash y (34 + chain) k.dur k.since = false) (hseal : ackSeal k y = (some n, x)) :
    ackSend chain s = sentAck chain k n x := by
  unfold ackSend
  rw [hk]
  dsimp only
  unfold ackTaken at hy
  rw [hy, fieldSource, if_neg (by simp [hup, htx]), if_neg (by simp [hob, hclash])]
  unfold ackSeal at hseal
  unfold sentAck
  cases hkey : k.key with
  | none =>
    rw [hkey] at hseal
    cases hseal
    rfl
  | some e =>
    rw [hkey] at hseal
    dsimp only at hseal ⊢
    rw [hseal]
    rfl

/-- What an acknowledgement on the air leaves due, what it is, and how long it lasts. -/
theorem sentAck_does {chain : Nat} (hc : chain < 2) (k : AckDue) (n : Nat) (s : State) :
    ((sentAck chain k n s).fchain chain).acks = (s.fchain chain).acks ∧
    ((sentAck chain k n s).fchain chain).sendingAck = some (s.time.mono + k.dur, k) ∧
    Map.get? (sentAck chain k n s).front.tx (34 + chain) =
      some { t0 := s.time.mono, t1 := s.time.mono + k.dur, kind := 1, chains := 1 } := by
  unfold sentAck
  dsimp only
  generalize hs2 : (match k.poll with
    | some c => fieldCount k.channel fPollPend (some c) (fieldCount k.channel fAckSent none (startField chain 1 k.dur s))
    | none => fieldCount k.channel fAckSent none (startField chain 1 k.dur s)) = s2
  have hview : ackView s2 = ackView (startField chain 1 k.dur s) := by
    rw [← hs2]
    split <;> simp
  rw [ackView_startField] at hview
  obtain ⟨-, hrest⟩ := Prod.mk.inj hview
  obtain ⟨htx, hacks⟩ := Prod.mk.inj hrest
  refine ⟨?_, ?_, ?_⟩
  · show ((updFchain chain _ s2).fchain chain).acks = _
    rw [fchain_updFchain hc]
    exact congrFun hacks chain
  · show ((updFchain chain _ s2).fchain chain).sendingAck = _
    rw [fchain_updFchain hc]
  · show Map.get? s2.front.tx (34 + chain) = _
    rw [htx, get?_set_same]

/-- A key that is there and not exhausted gives an acknowledgement its counter, and only counters, events and the save request move. -/
theorem ackSeal_gives {k : AckDue} {s : State}
    (hkey : k.key.all (fun e => (fieldKey s e).any (fun x => decide (x.txPn + 1 < 0xFFFFFFFF))) = true) :
    ∃ n x, ackSeal k s = (some n, x) ∧ ackView x = ackView s := by
  unfold ackSeal
  cases hk : k.key with
  | none => exact ⟨0, s, rfl, rfl⟩
  | some e =>
    rw [hk] at hkey
    obtain ⟨x, hx, hleft⟩ : ∃ x, fieldKey s e = some x ∧ x.txPn + 1 < 0xFFFFFFFF := by simpa [Option.any_eq_true] using hkey
    unfold nextCounter
    dsimp only
    rw [hx]
    dsimp only
    rw [if_neg (by omega)]
    refine ⟨_, _, rfl, ?_⟩
    repeat' split
    all_goals rfl

/-- An acknowledgement that answers no poll, sent while nothing is received: beside the transmission itself only its count moves. -/
theorem sentAck_quiet {chain n : Nat} {k : AckDue} {s : State} (hp : k.poll = none) (hr : s.field.rx = []) (hs : shares24 s = false) :
    (sentAck chain k n s).field.counts = (fieldCount k.channel fAckSent none s).field.counts ∧ (sentAck chain k n s).kept = s.kept := by
  obtain ⟨o, ho⟩ := startField_does (chain := chain) (kind := 1) (dur := k.dur) hr hs
  unfold sentAck
  rw [hp, ho]
  exact ⟨rfl, rfl⟩

/-! ### A chain's access -/

/-- A frame that was taken off its queue may not go on by the safe plan, nor by Doze outside listen beats (R155, R173). -/
theorem mayAccess_refused {chain : Nat} {a : FieldAccess} {s : State} (hl : a.limit = none)
    (h : fieldSafe s chain = true ∨ s.power.mode = .doze ∧ listenNow s = false) : mayAccess s chain a = false := by
  unfold mayAccess FieldAccess.taken
  rw [hl]
  rcases h with hsafe | ⟨hdoze, hlisten⟩
  · simp [hsafe]
  · simp [hdoze, hlisten]

/-- The access of a frame that was taken off its queue ends without a completion: the frame is the head again. -/
theorem returnAccess_head {chain : Nat} {a : FieldAccess} {f : Queued} {s : State} (hc : chain < 2) (ha : (s.fchain chain).access = some a)
    (hp : (s.fchain chain).parked = none) (hq : a.queued = some f) (hl : a.limit = none) :
    ((returnAccess chain s).fchain chain).access = none ∧
    ((returnAccess chain s).queue a.queue).frames.map (·.payload) =
      .field { a.item with sends := a.retries } :: (s.queue a.queue).frames.map (·.payload) ∧
    (returnAccess chain s).field.counts = s.field.counts ∧ (returnAccess chain s).kept = s.kept := by
  have hfree : ((clearAccess chain s).fchain chain).access = none := by
    unfold clearAccess
    rw [fchain_updFchain hc]
    dsimp only
    rw [hp]
    rfl
  generalize hy : clearAccess chain s = y at hfree
  have hback : returnAccess chain s =
      watchPend a.queue (returnHead a.queue { f with payload := .field { a.item with sends := a.retries } }) y := by
    unfold returnAccess returnFrame FieldAccess.taken
    rw [ha]
    dsimp only
    rw [hq, hl, hy]
    rfl
  have hfield : ∀ g : State → State, (watchPend a.queue g y).field = { (g y).field with pends := (watchPend a.queue g y).field.pends } := by
    intro g
    unfold watchPend
    dsimp only
    split <;> rfl
  rw [hback]
  refine ⟨?_, ?_, ?_, ?_⟩
  · unfold State.fchain
    rw [hfield]
    exact hfree
  · unfold State.queue
    rw [watchPend_plan]
    show ((updQueue a.queue _ y).queue a.queue).frames.map _ = _
    rw [updQueue_queue, ← hy]
    rfl
  · rw [hfield, ← hy]
    rfl
  · rw [watchPend_kept, ← hy]
    rfl

/-- A back-off whose time has come opens a CCA of 8 symbol periods, its end within the beat's window (R154). -/
theorem backoffEnd_assesses {chain : Nat} {a : FieldAccess} {s : State} (ha : (s.fchain chain).access = some a) (hst : a.stage = 0)
    (hm : mayAccess s chain a = true) (hset : s.time.settling = false) (hov : s.overrunning (34 + chain) = false) (hd : a.due ≤ s.time.mono)
    (hw : s.time.acc < 2 ^ 96) (hlo : 20000 ≤ s.phase) (hhi : s.phase + 8 * symNs (chanKey a.item.band a.item.channel) ≤ 950000) :
    backoffEnd chain s = updFchain chain (fun c => { c with access := some { a with
      stage := 1, due := s.time.mono + 8 * symNs (chanKey a.item.band a.item.channel) } }) s := by
  have hbusy : (s.unit (34 + chain)).busyUntil ≤ s.time.mono := by simpa [State.overrunning] using hov
  unfold backoffEnd
  rw [ha]
  dsimp only
  rw [if_neg (by simp [hst, hset]), if_neg (by simp [hm]), advanceMono_past hd hw]
  unfold afterOverrun fieldSource ccaStart
  rw [advanceMono_past hbusy hw, if_neg (by omega), if_neg (by omega)]

/-- A back-off that ends where the frame may not go on. -/
theorem backoffEnd_refused {chain : Nat} {a : FieldAccess} {s : State} (ha : (s.fchain chain).access = some a) (hst : a.stage = 0)
    (hm : mayAccess s chain a = false) (hset : s.time.settling = false) : backoffEnd chain s = returnAccess chain s := by
  unfold backoffEnd
  rw [ha]
  dsimp only
  rw [if_neg (by simp [hst, hset]), if_pos (by simp [hm])]

/-- A CCA that finds the channel busy draws the next back-off, while one is left (R156). -/
theorem ccaEnd_busy {chain slots : Nat} {e : Int} {a : FieldAccess} {s : State} (ha : (s.fchain chain).access = some a) (hst : a.stage = 1)
    (hl : a.limit = none) (hm : mayAccess s chain a = true) (hd : a.due ≤ s.time.mono) (hw : s.time.acc < 2 ^ 96)
    (hb : ccaBusy s (chanKey a.item.band a.item.channel) e = true) (hn : a.nb + 1 ≤ (fcfg s).maxBackoffs) :
    ccaEnd chain e slots s = updFchain chain (fun c => { c with access := some { a with
      nb := a.nb + 1, be := min (a.be + 1) (fcfg s).maxBe, stage := 0
      due := s.time.mono + slots % 2 ^ min (a.be + 1) (fcfg s).maxBe * (20 * symNs (chanKey a.item.band a.item.channel)) } }) s := by
  unfold ccaEnd
  rw [ha]
  dsimp only
  rw [if_neg (by simp [hst]), advanceMono_past hd hw, if_neg (by simp [hm, hl]), if_pos hb, if_neg (by omega)]

/-- A CCA that finds the channel clear lets a frame without an instant of its own try to start. -/
theorem ccaEnd_clear {chain slots : Nat} {e : Int} {a : FieldAccess} {s : State} (ha : (s.fchain chain).access = some a) (hst : a.stage = 1)
    (hl : a.limit = none) (hm : mayAccess s chain a = true) (hd : a.due ≤ s.time.mono) (hw : s.time.acc < 2 ^ 96)
    (hb : ccaBusy s (chanKey a.item.band a.item.channel) e = false) (hi : a.item.instant = none) :
    ccaEnd chain e slots s = tryAccess chain s := by
  unfold ccaEnd
  rw [ha]
  dsimp only
  rw [if_neg (by simp [hst]), advanceMono_past hd hw, if_neg (by simp [hm, hl]), if_neg (by simp [hb]), hi]
  rfl

/-! ### A frame starts -/

/-- A queue of the egress classes of Table 7-2 is no child's, so its frames go out as they are. -/
theorem accessItem_class {a : FieldAccess} {s : State} (hl : a.limit = none) (hq : a.queue < 0x1000) : accessItem s a = a.item := by
  have hnone : queueChild a.queue = none := by
    unfold queueChild childQueue queueRange
    rw [if_neg]
    simp only [decide_eq_true_eq]
    repeat' split
    all_goals omega
  unfold accessItem FieldAccess.taken asJoining
  rw [hl, hnone]
  rfl

/-- An unsecured frame of a class queue, taken off it, starts where nothing stands in its way. -/
theorem tryAccess_launches {chain : Nat} {a : FieldAccess} {s : State} (ha : (s.fchain chain).access = some a) (hl : a.limit = none)
    (hm : mayAccess s chain a = true) (hwin : chipWindow s (34 + chain) = true) (htx : transmitting s (34 + chain) = false)
    (hob : obstructed s (34 + chain) 1 = false) (hpri : priorityPending s (34 + chain) = false) (hs : shares24 s = false)
    (hsec : a.item.secLevel = 0) (hq : a.queue < 0x1000) :
    tryAccess chain s = launchField chain a (updFchain chain (fun c => { c with access := some a }) s) := by
  have hclaim : claimFrame a s = (a, s) := by
    unfold claimFrame
    dsimp only
    rw [accessItem_class hl hq, if_pos (by unfold FieldAccess.taken; rw [hl]; rfl)]
  unfold tryAccess fieldSource
  rw [ha]
  dsimp only
  rw [if_neg (by simp [hm]), if_neg (by simp [hwin]), if_neg (by simp [htx]), if_neg (by simp [hob, hpri, wideClash_apart hs])]
  unfold sendAccess
  rw [ha]
  dsimp only
  rw [if_neg (by simp [hm, hl]), hclaim]
  exact if_pos hsec

/-- What a frame that was taken off its queue does as it goes on the air while nothing is received. -/
theorem launchField_does {chain : Nat} {a : FieldAccess} {s : State} (hc : chain < 2) (hl : a.limit = none) (hi : a.item.instant = none)
    (hr : s.field.rx = []) (hs : shares24 s = false) :
    ((launchField chain a s).fchain chain).access = some { a with
      stage := 2
      due := s.time.mono + fieldNs (chanKey a.item.band a.item.channel) a.item.len
      lastChip := s.time.mono + fieldNs (chanKey a.item.band a.item.channel) a.item.len
      stamp := a.item.stamp.map (fun _ => (egressStamp (34 + chain) 0 0 0 s, stampFlags (34 + chain) 0 0 s)) } ∧
    Map.get? (launchField chain a s).front.tx (34 + chain) = some {
      t0 := s.time.mono, t1 := s.time.mono + fieldNs (chanKey a.item.band a.item.channel) a.item.len, kind := 0, chains := 1 } ∧
    (launchField chain a s).kept = s.kept ∧ (launchField chain a s).plan = s.plan := by
  obtain ⟨o, ho⟩ := startField_does (chain := chain) (kind := 0) (dur := fieldNs (chanKey a.item.band a.item.channel) a.item.len) hr hs
  have htaken : a.taken = true := by
    unfold FieldAccess.taken
    rw [hl]
    rfl
  unfold launchField
  dsimp only
  rw [if_neg (by simp [htaken]), hi, if_neg (by simp), ho]
  refine ⟨?_, ?_, rfl, rfl⟩
  · show ((updFchain chain _ _).fchain chain).access = _
    rw [fchain_updFchain hc]
    rfl
  · exact get?_set_same ..

/-! ### A release -/

/-- A field radio on its safe plan, or in Doze outside a listen beat, releases nothing (R155, R173). -/
theorem fieldRelease_refused {k slots : Nat} {s : State} (h : fieldSafe s k = true ∨ s.power.mode = .doze ∧ listenNow s = false) :
    fieldRelease k slots s = s := by
  unfold fieldRelease
  dsimp only
  apply if_pos
  rcases h with hsafe | ⟨hdoze, hlisten⟩
  · simp [hsafe]
  · simp [hdoze, hlisten]

/-- The one frame of FSG's management queue, unheld, is what the Planisher selects, whose class M is not shaped. -/
theorem judge_onlyFsg {f : Queued} {m : FieldTx} {s : State} (hu : unitUp s 4 = true) (hq : s.plan.queues = [(0x3F05, { frames := [f] })])
    (hh : f.held = false) (hm : f.payload = .field m) (hs : (classSet s (classKey 26 8)).shaped = false) :
    judge 26 (releasable s 1) s = (s, some (8, 0x3F05, f)) := by
  have hok : releasable s 1 0x3F05 f = true := by
    unfold releasable
    rw [hm]
    rfl
  have hready : ready s 26 8 (releasable s 1) = [(0x3F05, f)] := by
    have hhere : (queueEgress s 0x3F05).contains 26 = true ∧ queueClass s 0x3F05 = 8 := ⟨rfl, rfl⟩
    unfold ready
    rw [hq, List.filterMap_cons, List.filterMap_nil]
    dsimp only
    rw [if_pos hhere, if_pos (by simp [hh, hok])]
  have hopen : shapedOut s (classKey 26 8) = false := by
    unfold shapedOut
    rw [hs]
    rfl
  unfold judge judgeManagement
  rw [if_neg (by simp [hu]), hready]
  dsimp only [List.head?_cons]
  rw [if_neg (by simp [hopen])]

/-- A change of a queue that is no child's notes no change of PEND. -/
theorem watchPend_noChild {q : Nat} {f : State → State} {s : State} (hq : childQueue q = false) : watchPend q f s = f s := by
  unfold watchPend
  exact if_neg (by simp [hq])

/-- The frame that the Planisher selects for FSG begins channel access: taken off its queue, on FSG's channel, with a back-off. -/
theorem fieldRelease_fsg {slots : Nat} {m : FieldTx} {f : Queued} {s : State} (hup : fieldUp s = true) (hon : bandOn s 1 = true)
    (ha : (s.fchain 1).access = none) (ht : (s.fchain 1).test = none) (hsafe : fieldSafe s 1 = false) (hmode : s.power.mode.serves = true)
    (he : s.power.entry = none) (hph : 20000 ≤ s.phase ∧ s.phase < 950000) (hwin : fieldWindowed s = false) (hset : s.time.settling = false)
    (hov : s.overrunning 35 = false) (hm : f.payload = .field m) (hj : judge 26 (releasable s 1) s = (s, some (8, 0x3F05, f))) :
    fieldRelease 1 slots s =
      beginAccess 1 slots 0x3F05 (some f) { m with band := 1, channel := (fcfg s).fsgChannel } none (selectFrom 26 8 0x3F05 f s) := by
  have hdoze : s.power.mode ≠ .doze := by
    intro h
    rw [h] at hmode
    cases hmode
  obtain ⟨hlo, hhi⟩ := hph
  unfold fieldRelease fieldSource
  dsimp only
  rw [if_neg (by simp [hup, hon, ha, ht, hsafe, hdoze, he, hwin, hset, hov, hlo, hhi]), hj]
  dsimp only
  rw [hm, watchPend_noChild rfl]
  rfl

/-! ### The statement -/

/-- A chain once an event of effect `f` is over. -/
theorem fchain_settle_apart (f : State → State) (s : State) (k : Nat) : (settle (apart f s)).fchain k = (f (fresh s)).fchain k := by
  unfold State.fchain
  rw [settle_field, apart_fresh]

/-- A queue once an event of effect `f` is over. -/
theorem queue_settle_apart (f : State → State) (s : State) (q : Nat) : (settle (apart f s)).queue q = (f (fresh s)).queue q := by
  unfold State.queue
  rw [settle_plan, apart_fresh]

/-- Settles O28: each clause is the lemma above on its event, read in the state that the event leaves. -/
theorem fieldTransmissionEvents : Obligations.FieldTransmissionEvents := by
  unfold Obligations.FieldTransmissionEvents
  refine ⟨?ackQuiet, ?ackAny, ?release, ?noRelease, ?assess, ?goesBack, ?busy, ?starts⟩
  case ackQuiet =>
    intro chain k s ha hc hk hkey hpoll hd hw hup htx hob hs hr
    have hsend : ackSend chain (fresh s) = sentAck chain k 0 (ackTaken chain [] (fresh s)) :=
      ackSend_clear (y := ackTaken chain [] (fresh s)) hk (by rw [advanceMono_past (s := fresh s) hd hw]) hup
        (transmitting_none (s := fresh s) htx _) hob (wideClash_apart hs) (by unfold ackSeal; rw [hkey])
    obtain ⟨hacks, hsending, hair⟩ := sentAck_does hc k 0 (ackTaken chain [] (fresh s))
    obtain ⟨hcounts, hkept⟩ := sentAck_quiet (chain := chain) (n := 0) (s := ackTaken chain [] (fresh s)) hpoll hr hs
    rw [ackTaken, fchain_updFchain hc] at hacks
    refine ⟨_, act_alive ha, ?_⟩
    rw [fchain_settle_apart, settle_front, settle_field, settle_kept, apart_fresh, hsend]
    exact ⟨hacks, hsending, hair, hcounts, hkept⟩
  case ackAny =>
    intro chain k rest s y ha hc hk hy hup htx hob hclash hkey
    have hfresh : ackTaken chain rest (advanceMono k.at' (fresh s)) = fresh y := by
      rw [advanceMono_fresh, hy]
      rfl
    obtain ⟨n, x, hseal, hview⟩ := ackSeal_gives (s := fresh y) hkey
    have hsend : ackSend chain (fresh s) = sentAck chain k n x := ackSend_clear hk hfresh hup htx hob hclash hseal
    obtain ⟨hacks, hsending, hair⟩ := sentAck_does hc k n x
    obtain ⟨htime, hrest⟩ := Prod.mk.inj hview
    obtain ⟨-, hdue⟩ := Prod.mk.inj hrest
    have hleft : (x.fchain chain).acks = rest := by
      refine (congrFun hdue chain).trans ?_
      rw [← hfresh, ackTaken, fchain_updFchain hc]
    rw [htime] at hsending hair
    refine ⟨_, act_alive ha, ?_⟩
    rw [fchain_settle_apart, settle_front, apart_fresh, hsend]
    exact ⟨hacks.trans hleft, hsending, hair⟩
  case release =>
    intro slots m f s ha hup hon hu hacc ht hsafe hmode he hph hwin hset hov hq hh hm hs
    have hj : judge 26 (releasable (fresh s) 1) (fresh s) = (fresh s, some (8, 0x3F05, f)) := judge_onlyFsg hu hq hh hm hs
    have hsend := fieldRelease_fsg (slots := slots) (s := fresh s) hup hon hacc ht hsafe hmode he hph hwin hset hov hm hj
    have hempty := selectFrom_frames (e := 26) (c := 8) (q := 0x3F05) (f := f) (g := f) (s := fresh s)
      (by unfold State.queue; rw [fresh_plan, hq]; rfl)
    refine ⟨_, act_alive ha, ?_⟩
    rw [fchain_settle_apart, queue_settle_apart, settle_front, settle_kept, apart_fresh, hsend]
    refine ⟨?_, hempty, ?_, ?_⟩
    · rw [selectFrom_eq]
      exact congrArg FieldChain.access (fchain_updFchain (by decide) ..)
    · rw [selectFrom_eq]; rfl
    · rw [selectFrom_eq]; rfl
  case noRelease =>
    intro k slots s ha _ h
    exact act_becomes ha (fieldRelease_refused (s := fresh s) h)
  case assess =>
    intro chain a s ha hacc hst hm hset hov _ hd hw hlo hhi
    exact act_becomes ha (backoffEnd_assesses (s := fresh s) hacc hst hm hset hov hd hw hlo hhi)
  case goesBack =>
    intro chain a f s ha hc hacc hp hst hl hq hset h
    have hback : backoffEnd chain (fresh s) = returnAccess chain (fresh s) :=
      backoffEnd_refused hacc hst (mayAccess_refused (s := fresh s) hl h) hset
    obtain ⟨hfree, hframes, hcounts, hkept⟩ := returnAccess_head (s := fresh s) hc hacc hp hq hl
    refine ⟨_, act_alive ha, ?_⟩
    rw [fchain_settle_apart, queue_settle_apart, settle_field, settle_kept, apart_fresh, hback]
    exact ⟨hfree, hframes, hcounts, hkept⟩
  case busy =>
    intro chain slots e a s ha hacc hst hl hm hd hw hb hn
    exact act_becomes ha (ccaEnd_busy (s := fresh s) hacc hst hl hm hd hw hb hn)
  case starts =>
    intro chain slots dur e a s ha hc hacc hst hl hm hd hw hb hi hwin htx hob hpri hs hr hsec hq hdur
    subst hdur
    have htries : ccaEnd chain e slots (fresh s) = tryAccess chain (fresh s) := ccaEnd_clear hacc hst hl hm hd hw hb hi
    have hlaunch := tryAccess_launches (s := fresh s) hacc hl hm hwin (transmitting_none (s := fresh s) htx _) hob hpri hs hsec hq
    obtain ⟨haccess, hair, hkept, hplan⟩ :=
      launchField_does (s := updFchain chain (fun c => { c with access := some a }) (fresh s)) hc hl hi hr hs
    refine ⟨_, act_alive ha, ?_⟩
    rw [fchain_settle_apart, settle_front, settle_kept, settle_plan, apart_fresh, htries, hlaunch]
    exact ⟨haccess, hair, hkept, hplan⟩

end Sys2Proof.Proofs
end

section
/-! PROOFS. Two statements on the field radio that say too much: payload of a sender with no child record is counted nowhere, and an empty
answer to a joining child with a key is secured (R181), so it takes longer than its 11 bytes. -/

namespace Sys2Proof.Proofs
open Machine Laws

/-! ### A frame of a sender with no child record -/

/-- F24 enabled, a frame being received on channel 11. -/
def listening : State :=
  { State.reset with
    boot.stage := 8
    stw.state := .ready
    kept.field.config.f24 := true
    field.rx := [(11, .receiving { rssi := -90, corrQ := 200, at' := 0, fin := 352000 })] }

/-- An unsecured broadcast data frame with one byte of payload. -/
def openFrame : FieldRx := { payload := 1, dstPan := some 0xFFFF, dstShort := some 0xFFFF }

/-- The frame is delivered, but its payload is counted for no child and not for the device. -/
theorem fieldRxEnd_openFrame : (fieldRxEnd 11 openFrame (fresh listening)).field.inBytes = 0 := by decide +kernel

/-- Refutes O27 in its clause on FIELD_RX_END of a frame that passes every check from a sender with no child record. The clause adds the payload
to the bytes received; but the model counts payload by child record, for the child and the device together (`fieldBytes`), and a sender without
one has none. At `listening` the count stays 0 where the clause makes it 1. -/
theorem not_fieldReceptionEvents : ¬ Obligations.FieldReceptionEvents := by
  unfold Obligations.FieldReceptionEvents
  rintro ⟨-, -, -, -, -, -, -, -, -, -, -, -, -, -, hgood, -⟩
  obtain ⟨t, ht, -, -, hbytes, -⟩ := hgood 11 openFrame _ listening rfl rfl (by decide +kernel) (by decide +kernel) (by decide +kernel)
    rfl rfl rfl rfl rfl (by decide +kernel) rfl (by decide)
  have hsent : t = settle (apart (fieldRxEnd 11 openFrame) listening) := by
    injection ht.symm.trans (act_alive (s := listening) rfl)
  have hnone : t.field.inBytes = 0 := by
    rw [hsent, settle_field, apart_field]
    exact fieldRxEnd_openFrame
  rw [hnone] at hbytes
  revert hbytes
  decide +kernel

/-! ### An empty answer to a joining child with a key -/

/-- The answer due to child 0, which has polled on channel 1 of FSG. -/
def dueAnswer : PollAnswer := { child := 0, channel := 101, at' := 0, limit := 8000000 }

/-- FSG's synthesiser locked and that answer due; child 0 is joining, holds key 0 and asks for security level 5. -/
def polled : State :=
  { State.reset with
    boot.stage := 8
    stw.state := .ready
    time.acc := 20000 * 2 ^ 32
    kept.field.config.ccaMode := 1
    kept.field.children := [(0, { joining := true, keyIdx := 0, minSec := 5 })]
    kept.wide.fieldKeys := [(0, { owner := 42, cipher := 9 })]
    front.synths := State.reset.front.synths.set 4 { state := .locked }
    field.chains := State.reset.field.chains.set 1 { answers := [dueAnswer] } }

/-- The answer is 20 bytes: 11, the 5 bytes of the security header and an integrity code of 4. -/
theorem pollAnswer_polled :
    (Map.get? (pollAnswer 1 (-83) 0 (fresh polled)).front.tx 35).map (fun x => x.t1 - x.t0) = some (fieldNs 101 20) := by
  decide +kernel

/-- Refutes O29 in its clause on POLL_ANSWER_SEND of a child whose queue is empty. The clause lets the frame last as long as 11 bytes in every such
state; but an answer to a joining child that holds a key is secured under it (R181), and the empty one too. At `polled` it is 20 bytes. -/
theorem not_fieldTransmissionEnds : ¬ Obligations.FieldTransmissionEnds := by
  unfold Obligations.FieldTransmissionEnds
  rintro ⟨-, -, -, -, hempty, -⟩
  obtain ⟨t, ht, -, hlength, -⟩ := hempty (-83) 0 dueAnswer polled rfl rfl (by decide) rfl (by decide +kernel) rfl (by decide +kernel)
    (by decide +kernel) (by decide +kernel) (by decide +kernel) rfl rfl rfl rfl (by decide +kernel) (by decide +kernel) (by decide +kernel) rfl
    (by decide +kernel) (by decide +kernel)
  have hsent : t = settle (apart (pollAnswer 1 (-83) 0) polled) := by
    injection ht.symm.trans (act_alive (s := polled) rfl)
  rw [hsent, settle_front, apart_front] at hlength
  have hsame : some (fieldNs 101 20) = some (fieldNs 101 11) := pollAnswer_polled.symm.trans hlength
  revert hsame
  decide +kernel

end Sys2Proof.Proofs
end

section
/-! PROOFS. Three statements on the wide radios that say too much: WIDE_MLD_PAIR judges the channels that the radios are to move to as well (R211),
what a radio receives while it awaits TB PPDUs is not captured (R203, log entry 106), and the end of a test in mode 2 counts the PPDUs that it has
sent (R221, log entry 105). -/

namespace Sys2Proof.Proofs
open Machine Laws

/-! ### What became of a state -/

/-- `became` leaves open the interrupts told of and what is sent out alone: the wide radios are as stated. -/
theorem became_wide {u t : State} (h : became u t) : t.wide = u.wide := congrArg (·.wide) h

/-- As `became_wide`, for the number of free values drawn. -/
theorem became_draws {u t : State} (h : became u t) : t.draws = u.draws := congrArg (·.draws) h

/-! ### A pair beside a change of channel -/

/-- WIDE_MLD_PAIR is UNSUPPORTED where a channel that one radio has, or is to have, lies too near to one of the other (R211). -/
theorem wideMldPair_unsupported {c : Cmd} {id : Nat} {s : State} (hp : c.flag 16 1 0 = true)
    (hnear : (chanTargets s 0).all (fun a => (chanTargets s 1).all (pairOk a)) = false) :
    wideMldPair.run c id s = (s, .reply { status := stUnsupported, detail := 0x10 }) := if_pos ⟨hp, by simp [hnear]⟩

/-- READY with lane 0 claimed: W1 on channel 36, W2 on channel 100, about to leave it for channel 44 because of a radar. -/
def movingNearer : State :=
  { State.reset with
    boot.stage := 8
    stw.state := .ready
    stw.lanes := Bank.modify State.reset.stw.lanes 0 (fun l => { l with claimed := true })
    kept.wide.chan := [(0, { band := 1, primary := 36 }), (1, { band := 1, primary := 100 })]
    wide.radios := Bank.modify State.reset.wide.radios 1 (fun w => { w with
      radarStk := true, radarStop := some 1
      move := some { chan := { band := 1, primary := 44 }, job := none, eff := some 1, reason := 2, latest := some 10000 } }) }

/-- WIDE_MLD_PAIR with PAIR set, in slot 0 of lane 0. -/
def pairCommand : Cmd := { lane := 0, slot := 0, length := 20, body := [1, 0, 0, 0] }

/-- Refutes O32 in its clause on WIDE_MLD_PAIR of two channels 200 MHz or more apart. The clause asks for the gap of the channels in force alone,
and the model for that of every channel to which a radio is set or is to be set (`chanTargets`). At `movingNearer` the channels in force are
300 MHz apart, but W2 is about to move next to W1: the command is UNSUPPORTED and stages no pair. -/
theorem not_widePhyCommandsComplete : ¬ Obligations.WidePhyCommandsComplete := by
  unfold Obligations.WidePhyCommandsComplete
  rintro ⟨-, -, -, -, -, -, -, -, hpair, -⟩
  have hready : readyFor pairCommand movingNearer = true := by decide +kernel
  have htable : goodTable wideMldPair.fields pairCommand = true := by decide +kernel
  obtain ⟨t, ht, hends⟩ := hpair pairCommand 300 movingNearer hready htable (by decide +kernel) (by decide)
  obtain ⟨t', ht', hrefused⟩ := ready_answers (op := 0x0504) (u := movingNearer) hready htable
    (wideMldPair_unsupported (s := taken 0x0504 pairCommand movingNearer) (by decide) (by decide +kernel))
  injection ht.symm.trans ht' with heq
  subst heq
  have hstaged : pairCommand.flag 16 1 0 = false := congrArg (·.wide.pair) ((ended_next hends).symm.trans (ended_next hrefused))
  revert hstaged
  decide

/-! ### A stronger preamble while TB PPDUs are awaited -/

/-- Behind its L-SIG, an acquisition of a radio that awaits the TB PPDUs of its own trigger frame is not captured (R203, log entry 106). -/
theorem wideDetect_awaitsTb {r start t0 st le' fin : Nat} {p strength : Int} {ss : List (Stamp × Bool)} {lsig : Option (Nat × Nat)} {s : State}
    (hx : (s.wr r).rx = .acquiring t0 p st false (some (le', fin)) ss) (hl : le' ≤ s.time.mono) (ha : awaitsTb s r = true) :
    wideDetect r strength start false lsig s = s := by
  have hpast : pastLsig (some (le', fin)) (s.time.mono + 4000) = true := decide_eq_true (by omega)
  unfold wideDetect
  dsimp only
  split
  · rfl
  · rw [hx]
    simp [hpast, ha]

/-- The exchange of a trigger frame for uplink data that has left and waits for its TB PPDUs. -/
def sentTrigger : Exchange := { air := { kind := 5 }, phase := 1, startMono := 0 }

/-- W1 on channel 36, its trigger frame sent, acquiring a PPDU whose L-SIG has ended. -/
def awaitingTb : State :=
  { State.reset with
    boot.stage := 8
    stw.state := .ready
    kept.wide.chan := [(0, { band := 1, primary := 36 })]
    front.synths := State.reset.front.synths.set 0 { state := .locked }
    wide.radios := Bank.modify State.reset.wide.radios 0 (fun w => { w with
      chains := 1, mask := 1, exchange := some sentTrigger, rx := .acquiring 0 (-60) 0 false (some (0, 5000)) [] }) }

/-- Refutes O34 in its clause on WIDE_DETECT behind L-SIG and before the end of the SIG fields. The clause lets a preamble stronger by CAPTURE dB
capture in every such state; but while the radio awaits the TB PPDUs that its own trigger frame solicited, what it receives counts as one of them
until its SIG fields say otherwise, and is not captured (R203, log entry 106). At `awaitingTb` nothing changes, where the clause counts a capture. -/
theorem not_widePhyEventsTakeEffect : ¬ Obligations.WidePhyEventsTakeEffect := by
  unfold Obligations.WidePhyEventsTakeEffect
  rintro ⟨-, -, hcapture, -⟩
  obtain ⟨t, ht, hbecame⟩ := hcapture 0 0 0 0 0 5000 (-60) (-50) false [] none awaitingTb (by decide) (by decide +kernel) (by decide)
    rfl (by decide) rfl rfl (by decide)
  obtain ⟨t', ht', hsame⟩ := act_becomes (f := wideDetect 0 (-50) 0 false none) (s := awaitingTb) (u := awaitingTb) (by decide)
    (wideDetect_awaitsTb (s := fresh awaitingTb) rfl (by decide) (by decide))
  injection ht.symm.trans ht' with heq
  subst heq
  have hcounted : tally (awaitingTb.wr 0).phyCounts pCaptured = (awaitingTb.wr 0).phyCounts :=
    congrArg (fun w => (w.radios.getD 0 {}).phyCounts) ((became_wide hbecame).symm.trans (became_wide hsame))
  revert hcounted
  decide

/-! ### The end of a test that sends PPDUs -/

/-- The PPDUs that a test in mode 2 has sent are a free number: counting them draws it (log entry 105). -/
theorem countTest_draws {r chains : Nat} {s : State} (h : (s.wr r).test = some (2, chains)) : (countTest r s).draws = s.draws + 1 := by
  unfold countTest
  rw [h]
  rfl

/-- Counting a test's PPDUs leaves the front end as it is. -/
theorem countTest_front (r : Nat) (s : State) : (countTest r s).front = s.front := by
  unfold countTest
  split <;> rfl

/-- A test with nothing on the air stops: beyond the count of its PPDUs only the radio's own record changes. -/
theorem stopWideTest_silent {r : Nat} {s : State} (h : Map.get? s.front.tx (wideSrc r) = none) :
    stopWideTest r s = updWr r (fun w => { w with test := none, testEnd := 0 }) (countTest r s) := by
  have hnone : Map.get? (updWr r (fun w => { w with test := none, testEnd := 0 }) (countTest r s)).front.tx (wideSrc r) = none := by
    rw [updWr_front, countTest_front, h]
  unfold stopWideTest
  dsimp only
  rw [hnone]

/-- The end of a test in mode 2 with nothing on the air draws the number of the PPDUs that it has sent. -/
theorem wideTestEnd_draws {r chains : Nat} {s : State} (ht : (s.wr r).test = some (2, chains)) (he : (s.wr r).testEnd ≠ 0)
    (hc : clockRuns s = true) (hair : Map.get? s.front.tx (wideSrc r) = none) : (wideTestEnd r s).draws = s.draws + 1 := by
  have htest : ((advanceTo ((s.wr r).testEnd * 1000000) s).wr r).test = some (2, chains) := by
    rw [wr_of (advanceTo_wide ..), ht]
  unfold wideTestEnd
  rw [if_pos ⟨by rw [ht]; rfl, he, hc⟩, stopWideTest_silent (by rw [advanceTo_front, hair]), updWr_draws, countTest_draws htest, advanceTo_draws]

/-- READY, a test in mode 2 on W2 due to end in beat 1, its transmission cut, as a synthesiser that loses its lock cuts it (R278). -/
def cutTest : State :=
  { State.reset with
    boot.stage := 8
    stw.state := .ready
    wide.radios := Bank.modify State.reset.wide.radios 1 (fun w => { w with test := some (2, 1), testEnd := 1, chains := 1, mask := 1 }) }

/-- Refutes O35 in its clause on WIDE_TEST_END. The clause lets the record of the test alone change, in every mode; but the end of a test in mode 2
counts the PPDUs that it has sent (R221), a free number (log entry 105). At `cutTest`, where nothing is on the air, a free value is drawn that the
clause leaves undrawn. -/
theorem not_wideChannelEventsTakeEffect : ¬ Obligations.WideChannelEventsTakeEffect := by
  unfold Obligations.WideChannelEventsTakeEffect
  rintro ⟨-, -, -, -, -, -, -, hend⟩
  obtain ⟨t, ht, hbecame⟩ := hend 1 cutTest (by decide) (by decide) rfl (by decide) rfl
  injection ht.symm.trans (act_alive (f := wideTestEnd 1) (s := cutTest) (by decide)) with heq
  have hdrawn : t.draws = cutTest.draws + 1 := by
    rw [heq, settle_draws, apart_draws]
    exact wideTestEnd_draws (s := fresh cutTest) (chains := 1) rfl (by decide) (by decide) rfl
  have hundrawn : t.draws = cutTest.draws := (became_draws hbecame).trans (advanceTo_draws cutTest ((cutTest.wr 1).testEnd * 1000000))
  omega

end Sys2Proof.Proofs
end

section
/-! PROOFS. Three statements on access by the wide radios that say too much: two upstream links of a non-AP MLD keep the pairing rule (R212), an
exchange starts, or waits, only on a medium that is sensed idle as it would start (R198), and while PHY_MONITOR is set a held replay goes to the
monitor ring (R253). -/

namespace Sys2Proof.Proofs
open Machine Laws

/-! ### A second link toward an upstream AP MLD -/

/-- WIDE_UPSTREAM_SET of the second link of a non-AP MLD is UNSUPPORTED where the channels of the two radios break the pairing rule (R212), though
the radio has not heard the access point that it names (R224). -/
theorem wideUpstreamSet_unsupported {c : Cmd} {id : Nat} {s : State} (hunheard : Map.get? s.wide.heard (macAt c 24) = none)
    (henable : c.flag 17 1 0 = true) (hmld : c.flag 17 1 1 = true)
    (hother : (Map.getD s.next.wide.upstream (1 - c.u 16 1) {}).enable = true ∧ (Map.getD s.next.wide.upstream (1 - c.u 16 1) {}).mld = true)
    (hnear : (chanTargets s (c.u 16 1)).all (fun a => (chanTargets s (1 - c.u 16 1)).all (pairOk a)) = false) :
    wideUpstreamSet.run c id s = (s, .reply { status := stUnsupported, detail := 0x10 }) := by
  obtain ⟨hon, hon'⟩ := hother
  unfold wideUpstreamSet
  dsimp only
  rw [hunheard, if_neg Bool.false_ne_true, if_pos ⟨henable, hmld, by rw [hon, hon']; rfl, by rw [hnear]; rfl⟩]

/-- READY with lane 0 claimed: W1 on channel 36 and W2, one link of a non-AP MLD, on channel 44. -/
def besideMldLink : State :=
  { State.reset with
    boot.stage := 8
    stw.state := .ready
    stw.lanes := Bank.modify State.reset.stw.lanes 0 (fun l => { l with claimed := true })
    kept.wide.chan := [(0, { band := 1, primary := 36 }), (1, { band := 1, primary := 44 })]
    next.wide.chan := [(0, { band := 1, primary := 36 }), (1, { band := 1, primary := 44 })]
    kept.wide.upstream := [(1, { enable := true, mld := true })]
    next.wide.upstream := [(1, { enable := true, mld := true })] }

/-- WIDE_UPSTREAM_SET of W1 with ENABLE and MLD set, in slot 0 of lane 0. -/
def mldLinkCommand : Cmd :=
  { lane := 0, slot := 0, length := 36, body := [0, 3, 2, 0, 0, 0, 0, 1, 2, 0, 0, 0, 0, 2, 0, 0, 16, 0, 0, 0] }

/-- Refutes O33 in its clause on WIDE_UPSTREAM_SET of an access point that the radio has not heard. The clause stages the upstream link in every such
state; but where the other radio is the other link of a non-AP MLD, the channels of the two must keep 200 MHz between them (R211, R212). At
`besideMldLink` they are 20 MHz apart: the command is UNSUPPORTED and stages nothing. -/
theorem not_wideAccessCommandsComplete : ¬ Obligations.WideAccessCommandsComplete := by
  unfold Obligations.WideAccessCommandsComplete
  rintro ⟨-, -, hunheard, -⟩
  have hready : readyFor mldLinkCommand besideMldLink = true := by decide +kernel
  have htable : goodTable wideUpstreamSet.fields mldLinkCommand = true := by decide +kernel
  obtain ⟨t, ht, hstaged⟩ := hunheard mldLinkCommand besideMldLink hready htable rfl
  obtain ⟨t', ht', hrefused⟩ := ready_answers (op := 0x0511) (u := besideMldLink) hready htable
    (wideUpstreamSet_unsupported (s := taken 0x0511 mldLinkCommand besideMldLink) rfl (by decide) (by decide) (by decide +kernel)
      (by decide +kernel))
  injection ht.symm.trans ht' with heq
  subst heq
  have hlink : Map.has besideMldLink.next.wide.upstream 0 = true := by
    rw [← ended_next hrefused, ended_next hstaged]
    decide +kernel
  revert hlink
  decide

/-! ### An obstructed exchange on a busy medium -/

/-- An exchange that may not start on the medium as it is sensed leaves nothing but what was sensed (R198). -/
theorem exchangeStart_refused {r : Nat} {a : WideAir} {s : State} (h : mayStart (senseMedium r a.cca s) r a = false) :
    exchangeStart r a s = senseMedium r a.cca s := if_pos (.inl (by rw [h]; rfl))

/-- Sensing the medium makes no exchange wait. -/
theorem senseMedium_waiting (r : Nat) (cca : List (Int × Option Int)) (s : State) :
    ((senseMedium r cca s).wr r).waiting = (s.wr r).waiting := by
  unfold senseMedium
  rw [wr_updWr]
  split
  · cases (s.wr r).edFrom with
    | none => rfl
    | some t => exact (apply_ite Radio.waiting _ _ _).trans (ite_self _)
  · rfl

/-- W1 on channel 36, in a single-user entry of its plan, its synthesiser off; the channel was idle when last sensed. -/
def unlocked : State :=
  { State.reset with
    boot.stage := 8
    stw.state := .ready
    time.acc := 20000 * 2 ^ 32
    time.mono := 20000
    kept.wide.chan := [(0, { band := 1, primary := 36 })]
    plan.inForce := [(0, { entries := [{ kind := 4, start := 20, dur := 900 }] })]
    wide.radios := Bank.modify State.reset.wide.radios 0 (fun w => { w with chains := 1, mask := 1 }) }

/-- A single-user exchange before which the primary shows −40 dBm, above the threshold of Table 4-7. -/
def exchangeOnBusy : WideAir := { kind := 4, cca := [(-40, none)] }

/-- Refutes O36 in its clause on WIDE_EXCHANGE_START while the radio is obstructed. The clause asks whether the exchange may start on the medium as it
was sensed before, and has it wait; but the row senses the medium itself as the exchange would start (R198), and one that finds it busy neither starts
nor waits. At `unlocked` the row shows the primary busy. -/
theorem not_wideAccessEventsTakeEffect : ¬ Obligations.WideAccessEventsTakeEffect := by
  unfold Obligations.WideAccessEventsTakeEffect
  rintro ⟨-, hwaits, -⟩
  obtain ⟨t, ht, hbecame⟩ := hwaits 0 exchangeOnBusy unlocked (by decide) (by decide +kernel) (by decide) (by decide) (by decide +kernel) rfl
  obtain ⟨t', ht', hsensed⟩ := act_becomes (f := exchangeStart 0 exchangeOnBusy) (s := unlocked)
    (u := senseMedium 0 exchangeOnBusy.cca unlocked) (by decide) (exchangeStart_refused (s := fresh unlocked) (by decide +kernel))
  injection ht.symm.trans ht' with heq
  subst heq
  have hidle : (t.wr 0).waiting = none := by
    rw [wr_of (became_wide hsensed), senseMedium_waiting]
    decide
  rw [wr_of (became_wide hbecame)] at hidle
  revert hidle
  decide +kernel

/-! ### A held replay while PHY_MONITOR is set -/

/-- A protected MPDU of client 0 under sequence number 0, whose PN is 5. -/
def heldReplay : HeldMpdu := { radio := 0, stamp := {}, stale := false, m := { client := some 0, tid := some 0, prot := true, pn := 5 } }

/-- That MPDU held behind the missing number 4095, from beat 0 on. -/
def gappedWindow : BaRx := { size := 64, start := 4095, held := [(0, heldReplay)], gap := some 0 }

/-- The station of that window, on W1, with key 0. -/
def gappedStation : Client := { link1 := 0, key0 := 0, baRx := [(0, gappedWindow)] }

/-- Key 0, under which PN 5 of TID 0 has been accepted. -/
def usedKey : KeyEntry := { cipher := 1, rxEnable := true, rxPn := [(0, 5)] }

/-- Beat 50, REORDER_TIMEOUT after the gap began, with PHY_MONITOR set on W1 and its monitor ring off. -/
def monitoredReplay : State :=
  { State.reset with
    boot.stage := 8
    stw.state := .ready
    time.acc := 50000000 * 2 ^ 32
    time.mono := 50000000
    kept.wide.rx := [(0, { monitor := true })]
    wide.clients := [(0, gappedStation)]
    wide.keys := [(0, usedKey)] }

theorem ring_of {s t : State} (h : t.mem = s.mem) (k : Nat) : t.ring k = s.ring k := by
  unfold State.ring
  rw [h]

/-- The replay, released, is handed to the monitor ring, ring 8 for W1, which is off and counts it. -/
theorem reorderTimeout_monitoredReplay : ((reorderTimeout 0 0 (fresh monitoredReplay)).ring 8).offDrop = 1 := by decide +kernel

/-- Refutes O37 in its clause on REORDER_TIMEOUT with a replay behind one gap. The clause leaves the memory as it was in every such state; but while
PHY_MONITOR is set an MPDU that ends REPLAY is delivered to the monitor ring (R253). At `monitoredReplay` that ring counts it. -/
theorem not_wideSchedulesTakeEffect : ¬ Obligations.WideSchedulesTakeEffect := by
  unfold Obligations.WideSchedulesTakeEffect
  rintro ⟨-, -, -, -, hreplay, -⟩
  obtain ⟨t, ht, -, -, -, -, hmem, -, -⟩ := hreplay 0 0 0 0 5 gappedStation gappedWindow heldReplay usedKey monitoredReplay (by decide)
    rfl rfl (by decide) rfl rfl rfl (by decide) rfl rfl ⟨rfl, rfl, rfl, rfl, rfl⟩ rfl rfl rfl rfl (by decide) (by decide +kernel)
    (by decide)
  injection ht.symm.trans (act_alive (f := reorderTimeout 0 0) (s := monitoredReplay) (by decide)) with heq
  have hafter : t.mem = (reorderTimeout 0 0 (fresh monitoredReplay)).mem := by rw [heq, settle_mem, apart_fresh]
  have hring : (reorderTimeout 0 0 (fresh monitoredReplay)).ring 8 = monitoredReplay.ring 8 := ring_of (hafter.symm.trans hmem) 8
  have hcount : (1 : Nat) = 0 := by
    rw [← reorderTimeout_monitoredReplay, hring]
    rfl
  cases hcount

end Sys2Proof.Proofs
end

section
/-! PROOFS. The commands of area 0x0C (R286, R290, R298, R310, R311, R586): what the work of each does, one lemma a command and outcome; then the
statement on them. -/

namespace Sys2Proof.Proofs
open Machine Laws

/-! ### FE_PIN_CONFIG, FE_COEX_CONFIG and CAL_CONFIG -/

/-- The settings of a chain that FE_PIN_CONFIG carries (Table 6-11). -/
def pinsOf (c : Cmd) : PinCfg :=
  { lnaOff := c.u 18 1, trswLead := c.u 19 1, paLead := c.u 20 1, paLag := c.u 21 1, trswLag := c.u 22 1, lnaOn := c.u 23 1
    bypMode := c.u 24 1, bypOn := c.i 25 1, paFitted := c.flag 26 1 0, lnaFitted := c.flag 26 1 1 }

/-- No edge lies beyond what Table 6-3 lets the target have. -/
theorem pinEdges_within {c : Cmd}
    (h : c.u 18 1 ≤ pinLimit (c.u 16 1) 160 ∧ c.u 19 1 ≤ pinLimit (c.u 16 1) 160 ∧ c.u 20 1 ≤ pinLimit (c.u 16 1) 160 ∧
      c.u 21 1 ≤ pinLimit (c.u 16 1) 80 ∧ c.u 22 1 ≤ pinLimit (c.u 16 1) 80 ∧ c.u 23 1 ≤ pinLimit (c.u 16 1) 80) :
    [(18, 160), (19, 160), (20, 160), (21, 80), (22, 80), (23, 80)].find? (fun x => decide (c.u x.1 1 > pinLimit (c.u 16 1) x.2)) = none := by
  simpa [List.find?_eq_none] using h

/-- FE_PIN_CONFIG of a wide radio, its edges in order and none earlier or later than Table 6-3 lets it be, is staged for the chains it names. -/
theorem fePinConfig_staged {c : Cmd} {id : Nat} {s : State} (ht : c.u 16 1 < 34) (hoff : c.u 18 1 ≤ 160) (hlead : c.u 19 1 ≤ c.u 18 1)
    (hpa : c.u 20 1 ≤ c.u 19 1) (hlag : c.u 21 1 ≤ c.u 22 1) (hon : c.u 22 1 ≤ c.u 23 1) (hlna : c.u 23 1 ≤ 80) :
    fePinConfig.run c id s = (stageKept (fun k => { k with
      front.pins := (bitsSet 4 (c.u 17 1)).foldl (fun m i => Map.set m (4 * c.u 16 1 + i) (pinsOf c)) k.front.pins }) s, .reply (ok)) := by
  have hlim : ∀ n, pinLimit (c.u 16 1) n = n := fun n => if_neg (by omega)
  have hin := pinEdges_within (c := c) (by rw [hlim, hlim]; omega)
  unfold fePinConfig
  dsimp only
  rw [if_neg (by omega), hin]
  dsimp only
  rw [if_neg (by omega), if_neg (by omega), if_neg (by omega), if_neg (by omega)]
  rfl

/-- FE_PIN_CONFIG of F24's chain with the bypass switch before the low-noise amplifier is off. -/
theorem fePinConfig_badOrder {c : Cmd} {id : Nat} {s : State} (ht : c.u 16 1 = 34) (hchain : c.u 17 1 = 1) (hlead : c.u 18 1 < c.u 19 1)
    (h255 : c.u 18 1 ≤ 255 ∧ c.u 19 1 ≤ 255 ∧ c.u 20 1 ≤ 255 ∧ c.u 21 1 ≤ 255 ∧ c.u 22 1 ≤ 255 ∧ c.u 23 1 ≤ 255) :
    fePinConfig.run c id s = (s, .reply (badArg 19)) := by
  have hlim : ∀ n, pinLimit (c.u 16 1) n = 255 := fun n => if_pos (by omega)
  have hin := pinEdges_within (c := c) (by rw [hlim, hlim]; omega)
  unfold fePinConfig
  dsimp only
  rw [if_neg (by omega), hin]
  exact if_pos hlead

/-- The settings of a coexistence port that FE_COEX_CONFIG carries (Table 6-12). -/
def coexOf (c : Cmd) : CoexCfg :=
  { mode := c.u 17 1, radios := c.u 18 1, shared := c.flag 19 1 0, lpAnytime := c.flag 19 1 1, txactOut := c.flag 19 1 2
    maxHold := c.u 20 4, cool := c.u 24 2, lpGuard := c.u 26 2 }

/-- FE_COEX_CONFIG while the other port is off, which then serves no radio (R290, log entry 52). -/
theorem feCoexConfig_staged {c : Cmd} {id : Nat} {s : State} (h : (Map.getD s.next.front.coex (1 - c.u 16 1) {}).mode = 0) :
    feCoexConfig.run c id s =
      (stageKept (fun k => { k with front.coex := Map.set k.front.coex (c.u 16 1) (coexOf c) }) s, .reply (ok)) :=
  if_neg (fun hoverlap => hoverlap.2.1 h)

/-! ### Runs -/

/-- A change of a target's run leaves every run its name. -/
theorem calRunOf_updCalRun {key : Nat} {f : CalRun → CalRun} (hf : ∀ x, (f x).name = x.name) (s : State) (k : Nat) :
    (calRunOf (updCalRun key f s) k).isSome = (calRunOf s k).isSome := by
  have hname : ∀ x : CalRun, (if x.name = key then f x else x).name = x.name := by
    intro x
    split
    · exact hf x
    · rfl
  unfold calRunOf updCalRun
  rw [List.find?_map, Option.isSome_map]
  simp only [Function.comp_def, hname]

/-- Counting moves no run. -/
theorem calCount_runs (t k : Nat) (s : State) : (calCount t k s).front.runs = s.front.runs := by
  unfold calCount
  dsimp only
  split <;> rfl

/-- A run of a target that has none is a new one, behind the others, and counted. -/
theorem startRun_new {id t u : Nat} {force auto : Bool} {jobs : List Nat} {s : State} (h : calRunOf s (calKey id t u 0) = none) :
    startRun id t u force auto jobs s = calCount t cCalRun { s with front.runs := s.front.runs ++
      [{ id := id, target := t, sub := u, variant := calVariant s id t u, force := force, steps := calSteps id, auto := auto, jobs := jobs }] } := by
  unfold startRun
  dsimp only
  rw [h]

/-- A start of a run changes the front end alone, and none of the commands that wait for runs. -/
theorem startRun_frame (id t u : Nat) (force auto : Bool) (jobs : List Nat) (s : State) :
    startRun id t u force auto jobs s = { s with
      front.runs := (startRun id t u force auto jobs s).front.runs, front.counts := (startRun id t u force auto jobs s).front.counts } := by
  unfold startRun calCount
  dsimp only
  split
  · rfl
  · split <;> rfl

/-- A start of a run leaves every target the run that it has, and its own target has one afterwards. -/
theorem calRunOf_startRun {id t u : Nat} {force auto : Bool} {jobs : List Nat} {s : State} {k : Nat}
    (h : k = calKey id t u 0 ∨ (calRunOf s k).isSome = true) : (calRunOf (startRun id t u force auto jobs s) k).isSome = true := by
  cases hrun : calRunOf s (calKey id t u 0) with
  | some x =>
    have hhas : (calRunOf s k).isSome = true := by
      rcases h with rfl | h
      · rw [hrun]; rfl
      · exact h
    unfold startRun
    dsimp only
    rw [hrun]
    exact (calRunOf_updCalRun (f := fun x => { x with force := x.force || force, auto := x.auto || auto, jobs := x.jobs ++ jobs })
      (fun _ => rfl) s k).trans hhas
  | none =>
    rw [startRun_new hrun]
    unfold calRunOf at h ⊢
    rw [calCount_runs]
    dsimp only
    rw [List.find?_append, Option.isSome_or, Bool.or_eq_true]
    rcases h with rfl | h
    · exact .inr (by simp [CalRun.name])
    · exact .inl h

/-- The runs of a list of targets that command `job` starts, or goes on with. -/
def startRuns (force : Bool) (job : Nat) (l : List (Nat × Nat × Nat)) (s : State) : State :=
  l.foldl (fun s x => startRun x.1 x.2.1 x.2.2 force false [job] s) s

theorem startRuns_frame (force : Bool) (job : Nat) (l : List (Nat × Nat × Nat)) (s : State) :
    startRuns force job l s = { s with
      front.runs := (startRuns force job l s).front.runs, front.counts := (startRuns force job l s).front.counts } := by
  induction l generalizing s with
  | nil => rfl
  | cons x l ih =>
    have hcons : startRuns force job (x :: l) s = startRuns force job l (startRun x.1 x.2.1 x.2.2 force false [job] s) := rfl
    rw [hcons, ih, startRun_frame]

/-- Every target of the list has a run afterwards, and what had one before still has. -/
theorem calRunOf_startRuns {force : Bool} {job : Nat} {l : List (Nat × Nat × Nat)} {s : State} {k : Nat}
    (h : (∃ x ∈ l, k = calKey x.1 x.2.1 x.2.2 0) ∨ (calRunOf s k).isSome = true) :
    (calRunOf (startRuns force job l s) k).isSome = true := by
  induction l generalizing s with
  | nil =>
    rcases h with ⟨x, hx, -⟩ | h
    · cases hx
    · exact h
  | cons y l ih =>
    refine ih ?_
    rcases h with ⟨x, hx, hk⟩ | h
    · rcases List.mem_cons.1 hx with rfl | hx
      · exact .inr (calRunOf_startRun (.inl hk))
      · exact .inl ⟨x, hx, hk⟩
    · exact .inr (calRunOf_startRun (.inr h))

/-! ### CAL_RUN -/

/-- The targets that CAL_RUN names (Table 6-14). -/
def pickedTargets (c : Cmd) (s : State) : List (Nat × Nat × Nat) :=
  (calTargets s).filter (fun x => hasBit (c.u 16 2) (x.1 - 1) && (decide (c.u 18 1 = 0xFF) || decide (c.u 18 1 = x.2.1)) &&
    (decide (c.u 19 1 = 0xFF) || decide (c.u 19 1 = x.2.2)))

/-- A step of a run that `l` names has started. -/
def anyBegun (l : List (Nat × Nat × Nat)) (s : State) : Bool :=
  s.front.runs.any (fun x => (l.map (fun x => calKey x.1 x.2.1 x.2.2 0)).contains x.name && x.begun)

/-- The work of CAL_RUN on the targets `l`: a run of each, for which the command waits. -/
def runsAwaited (c : Cmd) (job : Nat) (l : List (Nat × Nat × Nat)) (s : State) : State :=
  { startRuns (c.flag 20 1 0) job l s with
    front.calJobs := (startRuns (c.flag 20 1 0) job l s).front.calJobs ++ [{ job := job, left := l.map (fun x => calKey x.1 x.2.1 x.2.2 0) }] }

/-- CAL_RUN of targets that there are, none of the lane's under way, waits for their runs (R310). -/
theorem calRun_waits {c : Cmd} {id : Nat} {l : List (Nat × Nat × Nat)} {s : State} (hl : l = pickedTargets c s) (hne : l ≠ [])
    (hdoze : s.power.mode ≠ .doze) (hdorm : s.power.mode ≠ .dormant) (hcal : c.u 16 2 ≠ 0)
    (hj : s.stw.jobs.any (fun j => decide (j.opcode = 0x0C04) && decide (j.lane = c.lane)) = false) :
    calRun.run c id s = (runsAwaited c id l s, .wait (anyBegun l s) 0 0) := by
  subst hl
  exact (if_neg (by simp [hdoze, hdorm])).trans ((if_neg hcal).trans ((if_neg hne).trans (if_neg (by rw [hj]; decide))))

/-- The runs of CAL_RUN and what waits for them are all that its work changes. -/
theorem runsAwaited_frame (c : Cmd) (job : Nat) (l : List (Nat × Nat × Nat)) (s : State) :
    runsAwaited c job l s = { s with
      front.runs := (startRuns (c.flag 20 1 0) job l s).front.runs, front.counts := (startRuns (c.flag 20 1 0) job l s).front.counts
      front.calJobs := s.front.calJobs ++ [{ job := job, left := l.map (fun x => calKey x.1 x.2.1 x.2.2 0) }] } := by
  unfold runsAwaited
  rw [startRuns_frame]

/-- CAL_RUN that names the crystal names it alone. -/
theorem pickedTargets_crystal {c : Cmd} {s : State} (hcal : c.u 16 2 = 8) (ht : c.u 18 1 = 3) (hu : c.u 19 1 = 0) :
    pickedTargets c s = [(4, 3, 0)] := by
  unfold pickedTargets
  rw [hcal, ht, hu, calTargets_filter (u := State.reset)]
  · decide +kernel
  · rintro x hx
    rw [hx]
    rfl

/-- The work of CAL_RUN on the crystal while no run is under way. -/
theorem runsAwaited_crystal {c : Cmd} {job : Nat} {s : State} (h : s.front.runs = []) :
    runsAwaited c job [(4, 3, 0)] s = { s with
      front.counts := tally s.front.counts 444
      front.runs := [{ id := 4, target := 3, sub := 0, force := c.flag 20 1 0, auto := false, jobs := [job] }]
      front.calJobs := s.front.calJobs ++ [{ job := job, left := [calKey 4 3 0 0] }] } := by
  have hnew : startRuns (c.flag 20 1 0) job [(4, 3, 0)] s = { s with
      front.counts := tally s.front.counts 444
      front.runs := [{ id := 4, target := 3, sub := 0, force := c.flag 20 1 0, auto := false, jobs := [job] }] } := by
    refine (startRun_new (by unfold calRunOf; rw [h]; rfl)).trans ?_
    rw [h]
    rfl
  unfold runsAwaited
  rw [hnew]
  rfl

/-- What has been left open by an acceptance stands as its work left it: the front end. -/
theorem opened_front {op : Nat} {c : Cmd} {s u t : State} {cm : Bool} (h : opened op c s cm u t) : t.front = u.front := by
  obtain ⟨-, -, -, ht⟩ := h
  rw [ht]

/-- CAL_RUN that READY serves: its runs stand, and it is open until they end. -/
theorem calRun_opened {c : Cmd} {l : List (Nat × Nat × Nat)} {s : State} (ha : readyFor c s = true)
    (hf : goodTable calRun.fields c = true) (hl : l = pickedTargets c s) (hne : l ≠ []) (hdoze : s.power.mode ≠ .doze)
    (hdorm : s.power.mode ≠ .dormant) (hcal : c.u 16 2 ≠ 0)
    (hj : s.stw.jobs.any (fun j => decide (j.opcode = 0x0C04) && decide (j.lane = c.lane)) = false) :
    ∃ t, exec (.calRun c) s = .next t ∧
      opened 0x0C04 c s (anyBegun l s) { s with front := (runsAwaited c s.stw.nextJob l (taken 0x0C04 c s)).front } t := by
  have hw : calRun.run c s.stw.nextJob (taken 0x0C04 c s) =
      (runsAwaited c s.stw.nextJob l (taken 0x0C04 c s), .wait (anyBegun l s) 0 0) :=
    calRun_waits (s := taken 0x0C04 c s) hl hne hdoze hdorm hcal hj
  refine ready_opened ha hf (by rw [hw]) (by rw [hw, runsAwaited_frame]) ?_
  rw [hw, runsAwaited_frame]
  simp [sameParts]

/-! ### CAL_STATUS -/

/-- The results of the crystal have no variants. -/
theorem calUse_crystal (s : State) : calUse s 4 3 0 = calKey 4 3 0 0 := rfl

/-- STATE of CAL_STATUS (Table 6-15): a run under way, its attempts failed or not, else the target stale, with a result in force, or without. -/
def calState (s : State) (id t u : Nat) : Nat :=
  match calRunOf s (calKey id t u 0) with
  | some x => if x.fails > 0 then 2 else 1
  | none => if (calNote s (calUse s id t u)).stale.isSome then 3 else if (calResult s (calUse s id t u)).isSome then 0 else 4

/-- FAILS of CAL_STATUS: of the run under way, else of the last. -/
def calFails (s : State) (id t u : Nat) : Nat :=
  match calRunOf s (calKey id t u 0) with
  | some x => x.fails
  | none => (calNote s (calUse s id t u)).fails

/-- CAL_STATUS of a target that there is: 64 free values are set aside, and the answer begins with STATE, FAILS, CAUSE and SENSOR. -/
theorem calStatus_answers {c : Cmd} {id u : Nat} {s : State} (hu : u = (if c.u 16 1 = 5 then c.u 18 1 / 16 else c.u 18 1))
    (hsub : (calSubs s (c.u 16 1) (c.u 17 1)).contains u = true) :
    ∃ rest, calStatus.run c id s = ({ s with draws := s.draws + 64 }, .reply (ok (le 1 (calState s (c.u 16 1) (c.u 17 1) u) ++
      le 1 (calFails s (c.u 16 1) (c.u 17 1) u) ++ le 1 (calNote s (calUse s (c.u 16 1) (c.u 17 1) u)).cause ++
      le 1 (calSensor (c.u 17 1)) ++ rest))) := by
  subst hu
  have hne : calSubs s (c.u 16 1) (c.u 17 1) ≠ [] := by
    intro h
    rw [h] at hsub
    cases hsub
  unfold calStatus
  dsimp only
  rw [if_neg hne, if_neg (by rw [hsub]; decide)]
  simp only [List.append_assoc]
  exact ⟨_, rfl⟩

/-- The answer of CAL_STATUS for the crystal, with result `r` in force. -/
def crystalBytes (s : State) (r : CalResult) : List Byte :=
  le 1 0 ++ le 1 0 ++ le 1 0 ++ le 1 6 ++ (le 8 r.beat ++ leInt 2 r.temp) ++ leInt 2 (s.assay.temps.getD 6 0) ++ codeBytes 4 r.codes s.draws ++
    codeBytes 4 [] (s.draws + 32)

/-- CAL_STATUS of the crystal with a result in force, no run under way and nothing noted. -/
theorem calStatus_crystal {c : Cmd} {id : Nat} {r : CalResult} {s : State} (hid : c.u 16 1 = 4) (ht : c.u 17 1 = 3) (hu : c.u 18 1 = 0)
    (hruns : s.front.runs = []) (hnotes : s.front.notes = []) (hr : Map.get? s.kept.front.results (calKey 4 3 0 0) = some r) :
    calStatus.run c id s = ({ s with draws := s.draws + 64 }, .reply (ok (crystalBytes s r))) := by
  have hsubs : calSubs s 4 3 = [0] := rfl
  have hrun : calRunOf s (calKey 4 3 0 0) = none := by
    unfold calRunOf
    rw [hruns]
    rfl
  have hnote : calNote s (calKey 4 3 0 0) = {} := by
    unfold calNote
    rw [hnotes]
    rfl
  have hres : calResult s (calKey 4 3 0 0) = some r := hr
  unfold calStatus
  dsimp only
  rw [hid, ht, hu]
  simp only [show ¬ (4 : Nat) = 5 from by decide, show ¬ (4 : Nat) = 3 from by decide, if_false, false_and, hsubs, calUse_crystal, hrun, hnote, hres]
  rfl

/-! ### FE_COUNTERS -/

/-- The answer of FE_COUNTERS for scope `sel` (Table 6-16). -/
def frontCounterBytes (s : State) (sel : Nat) : List Byte :=
  le 1 (fieldsWord [(0, bit s.front.calStaleStk), (1, bit s.front.unlockStk), (2, bit s.front.revokeStk), (3, bit s.front.paTimeoutStk)]) ++
    [0, 0, 0] ++
    ((List.range 17).map (fun j => le 4 (if frontScope sel (20 + 4 * j) then tallyOf s.front.counts (128 * sel + (20 + 4 * j)) else 0))).flatten

/-- FE_COUNTERS without a clear. -/
theorem feCounters_read {c : Cmd} {id : Nat} {s : State} (hf : c.u 17 1 = 0) :
    feCounters.run c id s = (s, .reply (ok (frontCounterBytes s (c.u 16 1)))) := by
  have h0 : c.flag 17 1 0 = false := by unfold Cmd.flag; rw [hf]; rfl
  have h1 : c.flag 17 1 1 = false := by unfold Cmd.flag; rw [hf]; rfl
  unfold feCounters
  dsimp only
  rw [h0, h1]
  simp only [Bool.false_and, Bool.not_false, Bool.and_true]
  rfl

/-- FE_COUNTERS with a clear of its scope and of every sticky bit. -/
theorem feCounters_cleared {c : Cmd} {id : Nat} {s : State} (hf : c.u 17 1 = 3) (hk : c.u 18 1 = 15) :
    feCounters.run c id s = ({ s with
      front.counts := s.front.counts.filter (fun e => e.1 / 128 ≠ c.u 16 1)
      front.calStaleStk := false, front.unlockStk := false, front.revokeStk := false, front.paTimeoutStk := false },
      .reply (ok (frontCounterBytes s (c.u 16 1)))) := by
  have h0 : c.flag 17 1 0 = true := by unfold Cmd.flag; rw [hf]; rfl
  have h1 : c.flag 17 1 1 = true := by unfold Cmd.flag; rw [hf]; rfl
  have hall : ∀ i < 4, c.flag 18 1 i = true := by unfold Cmd.flag; rw [hk]; decide
  unfold feCounters
  dsimp only
  rw [h0, h1, hall 0 (by decide), hall 1 (by decide), hall 2 (by decide), hall 3 (by decide)]
  simp only [Bool.and_self, Bool.not_true, Bool.and_false]
  rfl

/-! ### The statement -/

/-- What an answer's slot holds behind its opcode, LENGTH and TAG, and behind its header (Table 2-6). -/
theorem answered_parts {op b : Nat} {c : Cmd} {r : Reply} {t : State} (h : answered op b c r t) :
    (t.slot c.lane c.slot).phase = .done ∧
    ((t.slot c.lane c.slot).response.drop 6).take 2 = le 1 r.status ++ le 1 r.detail ∧
    (t.slot c.lane c.slot).response.drop 16 = r.body := by
  obtain ⟨hdone, hresp⟩ := h
  rw [hresp]
  exact ⟨hdone, rfl, rfl⟩

/-- Settles O38: the work of each command is the lemma above that names its outcome; READY answers it at once (`ready_answers`), or leaves it open
until its runs end (`calRun_opened`). -/
theorem frontEndCommandsComplete : Obligations.FrontEndCommandsComplete := by
  unfold Obligations.FrontEndCommandsComplete
  refine ⟨?pins, ?pinsOrder, ?coex, ?config, ?runCrystal, ?run, ?statusCrystal, ?status, ?counters, ?countersCleared⟩
  case pins =>
    intro c s ha hf ht hoff hlead hpa hlag hon hlna
    exact ready_answers ha hf (fePinConfig_staged ht hoff hlead hpa hlag hon hlna)
  case pinsOrder =>
    intro c s ha hf ht hchain hlead h255
    exact ready_answers ha hf (fePinConfig_badOrder ht hchain hlead h255)
  case coex =>
    intro c s ha hf hoff
    exact ready_answers ha hf (feCoexConfig_staged (s := taken 0x0C02 c s) hoff)
  case config =>
    intro c s ha hf
    exact ready_answers (h := calConfig) ha hf rfl
  case runCrystal =>
    intro c s ha hf hcal ht hu hmode hruns hjobs
    obtain ⟨-, hdoze, hdorm⟩ := serves_ne hmode
    obtain ⟨t, hexec, hopen⟩ := calRun_opened ha hf (pickedTargets_crystal hcal ht hu).symm (by decide) hdoze hdorm (by omega)
      (by rw [hjobs]; rfl)
    rw [runsAwaited_crystal (s := taken 0x0C04 c s) hruns] at hopen
    have hbegun : anyBegun [(4, 3, 0)] s = false := by
      unfold anyBegun
      rw [hruns]
      rfl
    rw [hbegun] at hopen
    exact ⟨t, hexec, hopen⟩
  case run =>
    intro c l s ha hf hcal hl hne hdoze hdorm hj
    obtain ⟨t, hexec, hopen⟩ := calRun_opened ha hf hl hne hdoze hdorm hcal hj
    have hfront := opened_front hopen
    rw [runsAwaited_frame] at hfront
    obtain ⟨hheld, -⟩ := hopen
    refine ⟨t, hexec, hheld, ?_, ?_⟩
    · rw [hfront]
      rfl
    · rw [List.all_eq_true]
      intro x hx
      unfold calRunOf
      rw [hfront]
      exact calRunOf_startRuns (.inl ⟨x, hx, rfl⟩)
  case statusCrystal =>
    intro c r s ha hf hid ht hu hruns hnotes hr
    exact ready_answers ha hf (calStatus_crystal (s := taken 0x0C05 c s) hid ht hu hruns hnotes hr)
  case status =>
    intro c u n s ha hf hu hsub hn
    subst hn
    obtain ⟨rest, hw⟩ := calStatus_answers (id := s.stw.nextJob) (s := taken 0x0C05 c s) hu hsub
    obtain ⟨t, hexec, hans, -⟩ := ready_answers (op := 0x0C05) (u := { s with draws := s.draws + 64 }) ha hf hw
    obtain ⟨hdone, hstatus, hbody⟩ := answered_parts hans
    refine ⟨t, hexec, hdone, hstatus, ?_⟩
    rw [hbody]
    rfl
  case counters =>
    intro c s ha hf hclear
    exact ready_answers ha hf (feCounters_read hclear)
  case countersCleared =>
    intro c s ha hf hclear hall
    exact ready_answers ha hf (feCounters_cleared hclear hall)

end Sys2Proof.Proofs
end

section
/-! PROOFS. Two statements on the front end that say too much: a frame that asks for its egress stamp carries it from its first chip on (R58, R62),
and moving time on to a phase that has gone by still writes the accumulator in its 96 bits (R24). -/

namespace Sys2Proof.Proofs
open Machine Laws

/-! ### A waiting frame that asks for its egress stamp -/

/-- A field frame that asks for its egress stamp, taken off its queue, whose first chip waits for an obstruction to end. -/
def stampedAccess : FieldAccess := { item := { stamp := some 0 }, queued := some { payload := .field {}, charge := 20 }, queue := 0, stage := 4 }

/-- The transmission of that frame, which waits on F24 since the start. -/
def stampedWait : RadioTx := { t0 := 0, t1 := 0 }

/-- READY at 20 µs of a beat, the transmit synthesiser of F24 locked, with nothing left in the way of that frame. -/
def stampedWaiting : State :=
  { State.reset with
    boot.stage := 8
    stw.state := .ready
    time.acc := 20000 * 2 ^ 32
    time.mono := 20000
    front.synths := State.reset.front.synths.set 3 { state := .locked }
    front.waiting := [(34, stampedWait)]
    field.chains := State.reset.field.chains.set 0 { access := some stampedAccess } }

/-- The frame starts, and its access takes the stamp of its first chip. -/
theorem obstructionEnd_stampedWaiting :
    ((obstructionEnd 34 (fresh stampedWaiting)).fchain 0).access.any (fun a => a.stamp.isSome) = true := by decide +kernel

/-- Refutes O39 in its clause on OBSTRUCTION_END of a field frame that waits without security. The clause has the frame's access change in its stage
and its two instants alone, in every such state; but a frame that asks for its egress stamp takes it at its first chip (R58, R62). At
`stampedWaiting` the access holds no stamp before, and one afterwards. -/
theorem not_frontEndEventsTakeEffect : ¬ Obligations.FrontEndEventsTakeEffect := by
  unfold Obligations.FrontEndEventsTakeEffect
  rintro ⟨-, -, -, hstart, -⟩
  obtain ⟨t, ht, -, -, haccess, -⟩ := hstart stampedWait stampedAccess _ stampedWaiting (by decide) rfl rfl rfl rfl (by decide +kernel)
    (by decide) (by decide) rfl rfl rfl rfl (by decide) rfl (by decide +kernel) (by decide +kernel) (by decide +kernel) rfl
  injection ht.symm.trans (act_alive (f := obstructionEnd 34) (s := stampedWaiting) (by decide)) with heq
  have hstamped : (t.fchain 0).access.any (fun a => a.stamp.isSome) = true := by
    rw [heq, fchain_settle_apart]
    exact obstructionEnd_stampedWaiting
  rw [haccess] at hstamped
  revert hstamped
  decide

/-! ### An accumulator beyond its 96 bits -/

/-- The run of the crystal, pending. -/
def crystalRun : CalRun := { id := 4, target := 3, sub := 0 }

/-- READY with that run pending, at 20 µs of a beat, the 97th bit of the accumulator set: a value that no TIME tick leaves (`accWrap`). -/
def unwrapped : State :=
  { State.reset with
    boot.stage := 8
    stw.state := .ready
    time.acc := 2 ^ 96 + 20000 * 2 ^ 32
    front.runs := [crystalRun] }

/-- The step starts, and the accumulator has been written in its 96 bits. -/
theorem calStepStart_unwrapped : (calStepStart 4 3 0 (fresh unwrapped)).time.acc < 2 ^ 96 := by decide +kernel

/-- As `became_wide`, for the timebase. -/
theorem became_time {u t : State} (h : became u t) : t.time = u.time := congrArg (·.time) h

/-- Refutes O40 in its clause on CAL_STEP_START on a port, the crystal or the converter. The clause leaves the time as it is in every state past
20 µs of its beat, whatever its accumulator holds. But the row moves time on to 20 µs of the beat before the step starts; past 20 µs that takes no
tick, and still writes the accumulator modulo 2^96 (R24). Only an accumulator below 2^96 stays as it was, and the clause does not ask for one. At
`unwrapped` the accumulator is above 2^96 before the row, and below it afterwards. -/
theorem not_coexistenceAndCalibrationEvents : ¬ Obligations.CoexistenceAndCalibrationEvents := by
  unfold Obligations.CoexistenceAndCalibrationEvents
  rintro ⟨-, -, -, -, -, -, -, -, -, -, -, -, hstep, -⟩
  obtain ⟨t, ht, hbecame⟩ := hstep 4 3 0 crystalRun unwrapped (by decide) (by decide) rfl rfl rfl (by decide) (by decide) rfl rfl rfl
    (by decide) (by decide) (by decide) (by decide) (by decide +kernel)
  injection ht.symm.trans (act_alive (f := calStepStart 4 3 0) (s := unwrapped) (by decide)) with heq
  have hwrapped : t.time.acc < 2 ^ 96 := by
    rw [heq, settle_time, apart_time]
    exact calStepStart_unwrapped
  rw [became_time hbecame] at hwrapped
  revert hwrapped
  decide +kernel

end Sys2Proof.Proofs
end

section
/-! PROOFS. The commands of area 0x07 (R331, R334, R351, R352, R357, R358): what the work of each does, one lemma a command and outcome; then the
statement on them. -/

namespace Sys2Proof.Proofs
open Machine Laws


/-- What a command that READY serves at once does, where its work changes the Planisher alone and answers. -/
theorem ready_plan_ended {op : Nat} {h : Handler} {c : Cmd} {s : State} {n : PlannerKept} {p : Planner} {r : Reply} (ha : readyFor c s = true)
    (hf : goodTable h.fields c = true)
    (hr : h.run c s.stw.nextJob (taken op c s) = ({ taken op c s with next.plan := n, plan := p }, .reply r)) :
    ∃ t, act (submit op h c) s = .next t ∧ ended op c s r { s with next.plan := n, plan := p } t :=
  ready_answers ha hf hr rfl rfl rfl

/-- As `ready_plan_ended`, where the work leaves the command open. -/
theorem ready_plan_opened {op : Nat} {h : Handler} {c : Cmd} {s : State} {n : PlannerKept} {p : Planner} {cm : Bool} {due aux : Nat}
    (ha : readyFor c s = true) (hf : goodTable h.fields c = true)
    (hr : h.run c s.stw.nextJob (taken op c s) = ({ taken op c s with next.plan := n, plan := p }, .wait cm due aux)) :
    ∃ t, act (submit op h c) s = .next t ∧ opened op c s cm { s with next.plan := n, plan := p } t :=
  ready_opened ha hf (by rw [hr]) (by rw [hr]) (by rw [hr]; simp [sameParts]) rfl rfl

/-! ### When a setting is in force (R357) -/

/-- A setting accepted before 500 µs, none of this beat's late ones before it, is in force at the next commit window. -/
theorem stagePlan_early {f : PlannerKept → PlannerKept} {s : State} (hp : s.phase < 500000) (hl : s.plan.late = none) :
    stagePlan f s = { s with next.plan := f s.next.plan } := by
  unfold stagePlan
  rw [if_pos hp, hl, Option.map_none, ← hl]

/-- A first setting accepted from 500 µs on is in force at the window after the next. -/
theorem stagePlan_late {f : PlannerKept → PlannerKept} {s : State} (hp : 500000 ≤ s.phase) (hl : s.plan.late = none) :
    stagePlan f s = { s with plan.late := some (f s.next.plan) } := by
  unfold stagePlan
  rw [if_neg (Nat.not_lt.2 hp), hl, Option.getD_none]

/-- Early settings alone: what has been accepted is what the next window takes. -/
theorem planAccepted_early {s : State} (hl : s.plan.late = none) : planAccepted s = s.next.plan := by
  unfold planAccepted
  rw [hl, Option.getD_none]

/-- A command whose work stages a planner setting, sent before 500 µs: it ends at once, the setting staged for the next window. -/
theorem ready_staged_early {op : Nat} {h : Handler} {c : Cmd} {s : State} {f : PlannerKept → PlannerKept} (ha : readyFor c s = true)
    (hf : goodTable h.fields c = true) (hr : h.run c s.stw.nextJob (taken op c s) = (stagePlan f (taken op c s), .reply (ok)))
    (hp : s.phase < 500000) (hl : s.plan.late = none) :
    ∃ t, act (submit op h c) s = .next t ∧ ended op c s {} { s with next.plan := f s.next.plan } t :=
  ready_plan_ended ha hf (by rw [hr, stagePlan_early (s := taken op c s) hp hl]; rfl)

/-- The same command from 500 µs on: the setting is kept back for the window after the next. -/
theorem ready_staged_late {op : Nat} {h : Handler} {c : Cmd} {s : State} {f : PlannerKept → PlannerKept} (ha : readyFor c s = true)
    (hf : goodTable h.fields c = true) (hr : h.run c s.stw.nextJob (taken op c s) = (stagePlan f (taken op c s), .reply (ok)))
    (hp : 500000 ≤ s.phase) (hl : s.plan.late = none) :
    ∃ t, act (submit op h c) s = .next t ∧ ended op c s {} { s with plan.late := some (f s.next.plan) } t :=
  ready_plan_ended ha hf (by rw [hr, stagePlan_late (s := taken op c s) hp hl]; rfl)

/-! ### PLAN_QUEUE_SET -/

/-- The settings of a queue that PLAN_QUEUE_SET carries (Table 7-13). -/
def queueSetOf (c : Cmd) : QueueSet :=
  { cls := c.u 20 1, eventHold := c.flag 21 1 0, weight := c.u 22 2, limitKb := c.u 24 2, yellowPct := c.u 26 1, event := c.u 27 1 }

/-- The settings with those of PLAN_QUEUE_SET for every queue of its range. -/
def queuesPut (c : Cmd) (p : PlannerKept) : PlannerKept :=
  { p with queues := (List.range (c.u 18 2 + 1 - c.u 16 2)).foldl (fun m i => Map.set m (c.u 16 2 + i) (queueSetOf c)) p.queues }

/-- PLAN_QUEUE_SET of queues of one kind, with a class for child queues, and a limit for others, is staged. -/
theorem planQueueSet_staged {c : Cmd} {id : Nat} {s : State} (ha : queueValid (c.u 16 2) = true) (hb : queueValid (c.u 18 2) = true)
    (hkind : queueRange (c.u 16 2) = queueRange (c.u 18 2)) (hle : c.u 16 2 ≤ c.u 18 2)
    (hcls : (if childQueue (c.u 16 2) then decide (c.u 20 1 ≤ 7) else decide (c.u 20 1 = 0xFF) && decide (c.u 24 2 ≠ 0)) = true) :
    planQueueSet.run c id s = (stagePlan (queuesPut c) s, .reply (ok)) := by
  have hrange : ¬ ((!queueValid (c.u 18 2)) = true ∨ queueRange (c.u 16 2) ≠ queueRange (c.u 18 2) ∨ c.u 18 2 < c.u 16 2) := by
    simp [hb, hkind, hle]
  unfold planQueueSet
  dsimp only
  rw [if_neg (by simp [ha]), if_neg hrange]
  cases hchild : childQueue (c.u 16 2) with
  | true =>
    rw [hchild, if_pos rfl, decide_eq_true_eq] at hcls
    rw [if_neg (by simpa using hcls), if_neg (by simp)]
    rfl
  | false =>
    rw [hchild, if_neg (by decide), Bool.and_eq_true, decide_eq_true_eq, decide_eq_true_eq] at hcls
    obtain ⟨hff, hlimit⟩ := hcls
    rw [if_neg (by simpa using hff), if_neg (by simp [hlimit])]
    rfl

/-- PLAN_QUEUE_SET of one queue that is no child queue. -/
theorem planQueueSet_one {c : Cmd} {id : Nat} {s : State} (ha : queueValid (c.u 16 2) = true) (hb : c.u 18 2 = c.u 16 2)
    (hchild : childQueue (c.u 16 2) = false) (hcls : c.u 20 1 = 0xFF) (hlimit : c.u 24 2 ≠ 0) :
    planQueueSet.run c id s = (stagePlan (queuesPut c) s, .reply (ok)) :=
  planQueueSet_staged ha (by rw [hb]; exact ha) (by rw [hb]) (Nat.le_of_eq hb.symm) (by simp [hchild, hcls, hlimit])

/-- A range of one queue without a class of its own: its settings alone are put. -/
theorem queuesPut_one {c : Cmd} (p : PlannerKept) (hb : c.u 18 2 = c.u 16 2) (hcls : c.u 20 1 = 0xFF) :
    queuesPut c p = { p with queues := Map.set p.queues (c.u 16 2) { queueSetOf c with cls := 0xFF } } := by
  have hone : c.u 16 2 + 1 - c.u 16 2 = 1 := Nat.add_sub_cancel_left ..
  unfold queuesPut queueSetOf
  rw [hb, hcls, hone]
  rfl

/-! ### PLAN_CLASS_SET -/

/-- The settings of a class that PLAN_CLASS_SET carries (Table 7-14). -/
def classSetOf (c : Cmd) : ClassSet := { shaped := c.flag 18 1 0, hold := c.u 19 1, rateKbps := c.u 20 4, burst := c.u 24 4 }

/-- PLAN_CLASS_SET of a class of W1, with any hold horizon, is staged. -/
theorem planClassSet_staged {c : Cmd} {id : Nat} {s : State} (he : c.u 16 1 = 24) (hk : c.u 17 1 ≤ 7) :
    planClassSet.run c id s =
      (stagePlan (fun p => { p with classes := Map.set p.classes (16 * 24 + c.u 17 1) (classSetOf c) }) s, .reply (ok)) := by
  unfold planClassSet
  dsimp only
  rw [he, if_neg (by omega), if_neg (by simp [hk])]
  rfl

/-- A wired egress has no class M to set. -/
theorem planClassSet_noClassM {c : Cmd} {id : Nat} {s : State} (he : c.u 16 1 < 24) (hk : c.u 17 1 = 8) :
    planClassSet.run c id s = (s, .reply (badArg 17)) :=
  if_pos ⟨hk, .inl he⟩

/-! ### PLAN_POLICER_SET -/

/-- The settings of a policer that PLAN_POLICER_SET carries (Table 7-15). -/
def policerSetOf (c : Cmd) : PolicerSet :=
  { enable := c.flag 18 1 0, aware := c.flag 18 1 1, actions := c.u 19 1, bindKind := c.u 20 1, reclass := c.u 21 1, bind := c.u 22 2
    cir := c.u 24 4, pir := c.u 28 4, cbs := c.u 32 4, pbs := c.u 36 4 }

/-- A policer `p` once `g` is bound: without its binding, where `g` has the same. -/
def unboundBy (g p : PolicerSet) : PolicerSet :=
  if g.bindKind ≠ 0 ∧ p.bindKind = g.bindKind ∧ p.bind = g.bind then { p with bindKind := 0, bind := 0 } else p

/-- The settings with the policer `g` that PLAN_POLICER_SET carries, an older binding to the same port or client ended. -/
def policerPut (c : Cmd) (g : PolicerSet) (p : PlannerKept) : PlannerKept :=
  { p with policers := Map.set (Map.mapVals p.policers (fun _ x => unboundBy g x)) (c.u 16 2) g }

/-- PLAN_POLICER_SET of three actions that there are, a port or client that there is, and PIR not below CIR, is staged. -/
theorem planPolicerSet_staged {c : Cmd} {id : Nat} {s : State}
    (hact : c.u 19 1 % 4 ≠ 3 ∧ c.u 19 1 / 4 % 4 ≠ 3 ∧ c.u 19 1 / 16 % 4 ≠ 3)
    (hbind : (c.u 20 1 = 1 → c.u 22 2 ≤ 23) ∧ (c.u 20 1 = 2 → c.u 22 2 ≤ 4095)) (hrate : c.u 24 4 ≤ c.u 28 4) :
    planPolicerSet.run c id s = (stagePlan (policerPut c (policerSetOf c)) s, .reply (ok)) := by
  unfold planPolicerSet
  dsimp only
  rw [if_neg (by omega), if_neg (by omega), if_neg (by omega)]
  rfl

/-- The first policer of all. -/
theorem policerPut_first {c : Cmd} {g : PolicerSet} {p : PlannerKept} (h : p.policers = []) :
    policerPut c g p = { p with policers := [(c.u 16 2, g)] } := by
  unfold policerPut
  rw [h]
  rfl

/-! ### Effective beats (R334, R352) -/

/-- A command that names no beat takes the first allowed. -/
theorem effectiveBeat_first (s : State) (p : Nat) : effectiveBeat s p 0 = .ok (firstAllowed s p) := if_pos rfl

/-- Where every beat is allowed, the first is two beats on. -/
theorem firstAllowed_any (s : State) : firstAllowed s 1 = s.beat + 2 := by simp [firstAllowed]

/-! ### PLAN_GATE_SET -/

/-- A gate list, or its removal, that waits for beat `b` on the egress that `c` names. -/
def gateWaits (c : Cmd) (g : Option GateList) (b job : Nat) (s : State) : State :=
  { s with plan.gatePending := s.plan.gatePending ++ [(c.u 16 1, { list := g, beat := b, job := job })] }

/-- PLAN_GATE_SET that removes a list where there is none waits for the first allowed beat of all (R334). -/
theorem planGateSet_removes {c : Cmd} {id : Nat} {s : State} (hv : c.flag 17 1 0 = false) (hb : c.u 24 8 = 0)
    (hg : gateList s (c.u 16 1) = none) :
    planGateSet.run c id s = (gateWaits c none (s.beat + 2) id s, .wait false (s.beat + 2) 0) := by
  unfold planGateSet
  dsimp only
  rw [hv, hb, hg]
  simp only [effectiveBeat_first, firstAllowed_any]
  rfl

/-- PLAN_GATE_SET of a good list waits for the first multiple of the list's own beats that is allowed. -/
theorem planGateSet_loads {c : Cmd} {id : Nat} {g : GateList} {s : State} (hv : c.flag 17 1 0 = true) (hb : c.u 24 8 = 0)
    (hg : gateOf c s = .ok g) :
    planGateSet.run c id s =
      (gateWaits c (some g) (firstAllowed s (gateBeats g.cycle)) id s, .wait false (firstAllowed s (gateBeats g.cycle)) 0) := by
  unfold planGateSet
  dsimp only
  rw [hv, hb, hg]
  simp only [effectiveBeat_first]
  rfl

/-- What reads as a value is that value and no error. -/
theorem eq_ok_of_toOption {ε α : Type} {x : Except ε α} {a : α} (h : x.toOption = some a) : x = .ok a := by
  cases x with
  | error e => cases h
  | ok b => exact congrArg _ (Option.some.inj h)

/-! ### PLAN_MASK_SET -/

/-- Both masks that PLAN_MASK_SET carries, waiting for beat `b` on the radio that it names. -/
def masksWait (c : Cmd) (b job : Nat) (s : State) : State :=
  { s with plan.maskPending := s.plan.maskPending ++ [(c.u 16 1, { ap := some (c.u 32 32), up := some (c.u 64 32), beat := b, job := job })] }

/-- PLAN_MASK_SET of both masks of a radio that no city service holds waits for the first multiple of 256 beats that is allowed (R352). -/
theorem planMaskSet_loads {c : Cmd} {id : Nat} {s : State} (hcity : s.plan.cityMasks = []) (hap : c.flag 17 1 0 = true)
    (hup : c.flag 17 1 1 = true) (hb : c.u 24 8 = 0) :
    planMaskSet.run c id s = (masksWait c (firstAllowed s 256) id s, .wait false (firstAllowed s 256) 0) := by
  unfold planMaskSet
  dsimp only
  rw [if_neg (by rw [hcity]; simp), hb, effectiveBeat_first, hap, hup]
  rfl

/-- The masks of a radio that the city service holds are not the Steward's to set. -/
theorem planMaskSet_denied {c : Cmd} {id : Nat} {s : State} (hcity : s.plan.cityMasks.contains (c.u 16 1) = true) :
    planMaskSet.run c id s = (s, .reply (denied 45)) := by
  unfold planMaskSet
  dsimp only
  rw [if_pos hcity]

/-! ### PLAN_AIR_CONFIG -/

/-- The settings of W1 or W2 that PLAN_AIR_CONFIG carries (Table 7-18). -/
def airConfigOf (c : Cmd) : AirConfig :=
  { consol := c.flag 17 1 0, idleOff := c.flag 17 1 1, calSpacing := c.u 18 1, upEvery := c.u 19 1, fillBytes := c.u 20 4
    coexPeriod := c.u 24 2, coexPhase := c.u 26 2, coexUs := c.u 28 2, suMin := c.u 30 2 }

/-- The settings with those of PLAN_AIR_CONFIG for W1. -/
def airPut (c : Cmd) (p : PlannerKept) : PlannerKept := { p with air := Map.set p.air 0 (airConfigOf c) }

/-- The settings with the four window fields of PLAN_AIR_CONFIG for the field radios, the others as they were. -/
def fieldWindowsPut (c : Cmd) (p : PlannerKept) : PlannerKept :=
  { p with air := Map.set p.air 2 { Map.getD p.air 2 {} with
    calSpacing := c.u 18 1, coexPeriod := c.u 24 2, coexPhase := c.u 26 2, coexUs := c.u 28 2 } }

/-- PLAN_AIR_CONFIG of W1 within the limits of Table 7-18 is staged. -/
theorem planAirConfig_staged {c : Cmd} {id : Nat} {s : State} (hr : c.u 16 1 = 0) (hflags : c.u 17 1 ≤ 3)
    (hup : 1 ≤ c.u 19 1 ∧ c.u 19 1 ≤ 64) (hfill : 16384 ≤ c.u 20 4 ∧ c.u 20 4 ≤ 16777215) (hcoex : c.u 26 2 + c.u 28 2 ≤ 950)
    (hsu : c.u 30 2 ≤ 930) : planAirConfig.run c id s = (stagePlan (airPut c) s, .reply (ok)) := by
  unfold planAirConfig
  dsimp only
  rw [hr, if_neg (by omega), if_neg (by omega), if_neg (by omega), if_neg (by omega), if_neg (by omega)]
  rfl

/-- PLAN_AIR_CONFIG of the field radios judges the window fields alone, and stages them alone. -/
theorem planAirConfig_field {c : Cmd} {id : Nat} {s : State} (hr : c.u 16 1 = 2) (hcoex : c.u 26 2 + c.u 28 2 ≤ 950)
    (hp : s.phase < 500000) (hl : s.plan.late = none) :
    planAirConfig.run c id s = ({ s with next.plan := fieldWindowsPut c s.next.plan }, .reply (ok)) := by
  unfold planAirConfig
  dsimp only
  rw [hr, if_neg (by omega), if_neg (by omega), if_neg (by omega), if_neg (by omega), if_neg (by omega), planAccepted_early hl,
    stagePlan_early hp hl]
  rfl

/-! ### PLAN_AIR_READ -/

/-- The entries of an air plan as PLAN_AIR_READ puts them into the bulk region (Table 7-9). -/
def planBytes (p : AirPlan) : List Byte := (p.entries.map PlanEntry.bytes).flatten

/-- The answer of PLAN_AIR_READ for the plan `p` (Table 7-19). -/
def planReply (p : AirPlan) : Reply :=
  { body := le 8 p.beat ++ le 1 p.entries.length ++ le 1 (fieldsWord [(0, bit p.repeated), (1, bit p.safe), (2, bit p.clipped)]) ++ [0, 0]
    bulkOut := (planBytes p).length }

/-- A state with the bytes `b` written into the bulk region that `c` names. -/
def bulkWritten (c : Cmd) (b : List Byte) (s : State) : State :=
  updLane c.lane (fun l => { l with bulk := Memory.writeList l.bulk c.bulkOff b }) s

/-- PLAN_AIR_READ of the plan in force, with room for it. -/
theorem planAirRead_inForce {c : Cmd} {id : Nat} {s : State} (hbulk : hasBit c.flags 0 = true) (hlen : 512 ≤ c.bulkLen)
    (hsel : c.u 17 1 = 0) :
    planAirRead.run c id s = (bulkWritten c (planBytes (Map.getD s.plan.inForce (c.u 16 1) {})) s,
      .reply (planReply (Map.getD s.plan.inForce (c.u 16 1) {}))) := by
  unfold planAirRead
  dsimp only
  rw [if_neg (by simp [hbulk, hlen]), hsel, if_neg (by omega), if_pos rfl]
  rfl

/-- PLAN_AIR_READ that READY serves: the plan is answered, its entries stand in the bulk region, and all else is as it was. -/
theorem planAirRead_answered {c : Cmd} {s : State} (ha : readyFor c s = true) (hf : goodTable planAirRead.fields c = true)
    (hbulk : hasBit c.flags 0 = true) (hlen : 512 ≤ c.bulkLen) (hsel : c.u 17 1 = 0) :
    ∃ t, exec (.planAirRead c) s = .next t ∧
      answered 0x0707 s.beat c (planReply (Map.getD s.plan.inForce (c.u 16 1) {})) t ∧
      t = { s with stw := t.stw, outbox := t.outbox } ∧
      (t.lane c.lane).bulk = Memory.writeList ((taken 0x0707 c s).lane c.lane).bulk c.bulkOff
        (planBytes (Map.getD s.plan.inForce (c.u 16 1) {})) := by
  have hw := planAirRead_inForce (id := s.stw.nextJob) (s := taken 0x0707 c s) hbulk hlen hsel
  obtain ⟨haccepted, -⟩ := (readyFor_iff c s).1 ha
  obtain ⟨-, -, hlane, -⟩ := (acceptedNow_iff c s).1 haccepted
  obtain ⟨t, hexec, hans, -, hregion, ht⟩ := ready_reply (op := 0x0707) ha hf (by rw [hw]) rfl (by
    rw [hw]
    show s.stw.state ≠ .restarting
    rw [ready_state ha]
    decide)
  rw [hw] at hregion ht
  refine ⟨t, hexec, hans, ?_, ?_⟩
  · rw [ht]
    rfl
  · rw [hregion, bulkWritten, lane_updLane, if_pos ⟨rfl, hlane⟩]
    rfl

/-! ### PLAN_QUEUE_GET -/

/-- The answer of PLAN_QUEUE_GET for queue `q` (Table 7-20). -/
def queueBytes (s : State) (q : Nat) : List Byte :=
  le 1 (queueClass s q) ++
    le 1 (fieldsWord [(0, bit (decide ((s.queue q).frames ≠ []))), (1, bit ((s.queue q).frames.any (·.held))), (2, bit (urgentHead s q))]) ++
    le 2 (queueSet s q).weight ++ le 2 (queueSet s q).limitKb ++ [0, 0] ++ le 4 (s.queue q).bytes ++ le 4 (s.queue q).frames.length ++
    le 6 (((s.queue q).frames.head?.bind (·.tag)).getD 0) ++ le 6 (s.queue q).fPrev ++ le 4 (s.queue q).drops ++
    le 4 (((s.queue q).frames.head?.bind (·.seen)).getD 0)

theorem planQueueGet_answers {c : Cmd} {id : Nat} {s : State} (hq : queueValid (c.u 16 2) = true) :
    planQueueGet.run c id s = (s, .reply (ok (queueBytes s (c.u 16 2)))) :=
  if_neg (by simp [hq])

/-- An empty queue has no head, and none that is urgent. -/
theorem urgentHead_empty {s : State} {q : Nat} (h : (s.queue q).frames = []) : urgentHead s q = false := by
  unfold urgentHead
  rw [h]

/-- The answer of PLAN_QUEUE_GET for an empty queue: no flag, no bytes, no frames, no head. -/
theorem queueBytes_empty {s : State} {q : Nat} (h : (s.queue q).frames = []) :
    queueBytes s q = le 1 (queueClass s q) ++ le 1 (fieldsWord [(0, 0), (1, 0), (2, 0)]) ++ le 2 (queueSet s q).weight ++
      le 2 (queueSet s q).limitKb ++ [0, 0] ++ le 4 0 ++ le 4 0 ++ le 6 0 ++ le 6 (s.queue q).fPrev ++ le 4 (s.queue q).drops ++ le 4 0 := by
  unfold queueBytes PQueue.bytes
  rw [urgentHead_empty h, h]
  rfl

/-! ### PLAN_COUNTERS -/

/-- The answer of PLAN_COUNTERS for egress `e` (Table 7-21). -/
def planCounterBytes (s : State) (e : Nat) : List Byte :=
  le 1 (fieldsWord [(0, bit s.plan.neverFitStk), (1, bit s.plan.clipStk)]) ++ [0, 0, 0] ++
    ((List.range 18).map (fun j => le 4 (tallyOf s.plan.counts (128 * e + (20 + 4 * j))))).flatten

/-- PLAN_COUNTERS of an egress, with a clear of its counters and of both sticky bits (R358). -/
theorem planCounters_cleared {c : Cmd} {id : Nat} {s : State} (he : c.u 16 1 < 28) (hf : c.u 17 1 = 3) (hk : c.u 20 1 = 3) :
    planCounters.run c id s = ({ s with
      plan.counts := s.plan.counts.filter (fun e => e.1 / 128 ≠ c.u 16 1)
      plan.neverFitStk := false, plan.clipStk := false }, .reply (ok (planCounterBytes s (c.u 16 1)))) := by
  have h0 : c.flag 17 1 0 = true := by unfold Cmd.flag; rw [hf]; rfl
  have h1 : c.flag 17 1 1 = true := by unfold Cmd.flag; rw [hf]; rfl
  have hfit : hasBit (c.u 20 1) 0 = true := by rw [hk]; decide
  have hclip : hasBit (c.u 20 1) 1 = true := by rw [hk]; decide
  unfold planCounters
  dsimp only
  rw [if_neg (by omega), h0, h1, hfit, hclip]
  simp only [he, if_true, Bool.not_true, Bool.and_false]
  rfl

/-! ### The statement -/

/-- Settles O41: the work of each command is the lemma above that names its outcome; READY answers it at once (`ready_plan_ended`), with its
setting staged by the half of the beat that it comes in (`ready_staged_early`, `ready_staged_late`), or leaves it open until its beat
(`ready_plan_opened`). -/
theorem plannerCommandsComplete : Obligations.PlannerCommandsComplete := by
  unfold Obligations.PlannerCommandsComplete
  refine ⟨?queueEarly, ?queueRange, ?queueLate, ?cls, ?clsBad, ?policerFirst, ?policer, ?gateRemoved, ?gateLoaded, ?masks, ?masksDenied, ?air,
    ?airField, ?airRead, ?queueEmpty, ?queueGet, ?counters⟩
  case queueEarly =>
    intro c s ha hf hq hone hchild hcls hlimit hp hl
    have hput := queuesPut_one s.next.plan hone hcls
    obtain ⟨t, hexec, hend⟩ := ready_staged_early ha hf (planQueueSet_one hq hone hchild hcls hlimit) hp hl
    rw [hput] at hend
    exact ⟨t, hexec, hend⟩
  case queueRange =>
    intro c g s ha hf hq hq' hkind hle hcls hg hp hl
    subst hg
    exact ready_staged_early ha hf (planQueueSet_staged hq hq' hkind hle hcls) hp hl
  case queueLate =>
    intro c s ha hf hq hone hchild hcls hlimit hp hl
    have hput := queuesPut_one s.next.plan hone hcls
    obtain ⟨t, hexec, hend⟩ := ready_staged_late ha hf (planQueueSet_one hq hone hchild hcls hlimit) hp hl
    rw [hput] at hend
    exact ⟨t, hexec, hend⟩
  case cls =>
    intro c s ha hf he hk hp hl
    exact ready_staged_early ha hf (planClassSet_staged he hk) hp hl
  case clsBad =>
    intro c s ha hf he hk
    exact ready_plan_ended ha hf (planClassSet_noClassM he hk)
  case policerFirst =>
    intro c s ha hf hact hkind hrate hnone hp hl
    have hput := policerPut_first (c := c) (g := policerSetOf c) hnone
    obtain ⟨t, hexec, hend⟩ := ready_staged_early ha hf (planPolicerSet_staged hact (by omega) hrate) hp hl
    rw [hput] at hend
    unfold policerSetOf at hend
    rw [hkind] at hend
    exact ⟨t, hexec, hend⟩
  case policer =>
    intro c g s ha hf hact hbind hrate hg hp hl
    subst hg
    exact ready_staged_early ha hf (planPolicerSet_staged hact hbind hrate) hp hl
  case gateRemoved =>
    intro c s ha hf hv hb hg _
    exact ready_plan_opened ha hf (planGateSet_removes (s := taken 0x0704 c s) hv hb hg)
  case gateLoaded =>
    intro c g s ha hf hv hb hg
    exact ready_plan_opened ha hf (planGateSet_loads hv hb (eq_ok_of_toOption hg))
  case masks =>
    intro c s ha hf hcity hap hup hb
    exact ready_plan_opened ha hf (planMaskSet_loads (s := taken 0x0705 c s) hcity hap hup hb)
  case masksDenied =>
    intro c s ha hf hcity hr
    have hheld : s.plan.cityMasks.contains (c.u 16 1) = true := by rw [hcity, hr]; rfl
    exact ready_plan_ended ha hf (planMaskSet_denied (s := taken 0x0705 c s) hheld)
  case air =>
    intro c s ha hf hr hflags hup hfill hcoex hsu hp hl
    exact ready_staged_early ha hf (planAirConfig_staged hr hflags hup hfill hcoex hsu) hp hl
  case airField =>
    intro c s ha hf hr hcoex hp hl
    exact ready_plan_ended ha hf (planAirConfig_field (s := taken 0x0706 c s) hr hcoex hp hl)
  case airRead =>
    intro c p b s ha hf hbulk hlen hsel hp hb
    subst hb hp
    exact planAirRead_answered ha hf hbulk hlen hsel
  case queueEmpty =>
    intro c s ha hf hq hempty
    refine ready_plan_ended ha hf ((planQueueGet_answers (s := taken 0x0708 c s) hq).trans ?_)
    rw [queueBytes_empty (s := taken 0x0708 c s) hempty]
    rfl
  case queueGet =>
    intro c g p s ha hf hq hg hp
    subst hg hp
    exact ready_plan_ended ha hf (planQueueGet_answers hq)
  case counters =>
    intro c s ha hf he hz hk
    refine ready_plan_ended ha hf ((planCounters_cleared (s := taken 0x0709 c s) (by omega) hz hk).trans ?_)
    rw [he]
    rfl

end Sys2Proof.Proofs
end

section
/-! PROOFS. What the shared operations of the wired ports change and what they leave (R316, R333, R363, R373, R377, R425): frames that leave, PAUSE
frames, selection, queues flushed. -/

namespace Sys2Proof.Proofs
open Machine Laws

/-! ### What the statements on the wired ports speak of -/

/-- `t` has the ports, the Planisher, the memory, the settings and the clock of `s`. -/
structure SameSwitch (s t : State) : Prop where
  wired : t.wired = s.wired
  plan : t.plan = s.plan
  mem : t.mem = s.mem
  kept : t.kept = s.kept
  mono : t.time.mono = s.time.mono

theorem wport_of {s t : State} (h : t.wired = s.wired) (e : Nat) : t.wport e = s.wport e := by
  unfold State.wport
  rw [h]

theorem bitsNs_of {s t : State} (h : t.wired = s.wired) (e n : Nat) : bitsNs t e n = bitsNs s e n := by
  unfold bitsNs
  rw [wport_of h]

theorem queue_of {s t : State} (h : t.plan = s.plan) (q : Nat) : t.queue q = s.queue q := by
  unfold State.queue
  rw [h]

/-- An event of a block that is not held in reset leaves the ports and what they go by as its effect does. -/
theorem act_switch {f : State → State} {s : State} (ha : alive s = true) : ∃ t, act f s = .next t ∧ SameSwitch (f (fresh s)) t :=
  ⟨_, act_alive ha, ⟨rfl, rfl, rfl, rfl, rfl⟩⟩

@[simp] theorem portCount_wport (e k j : Nat) (s : State) :
    (portCount e k s).wport j = if j = e then { s.wport e with counts := tally (s.wport e).counts k } else s.wport j :=
  updPort_wport ..

/-- A port changed twice. -/
theorem updPort_updPort (e : Nat) (f g : WPort → WPort) (s : State) : updPort e g (updPort e f s) =
    { s with wired.ports := Map.set (Map.set s.wired.ports e (f (s.wport e))) e (g (f (s.wport e))) } := by
  have h : (updPort e f s).wport e = f (s.wport e) := (updPort_wport ..).trans (if_pos rfl)
  unfold updPort at h ⊢
  dsimp only
  rw [h]

/-! ### Frames that leave -/

/-- A frame that leaves gives back what it held of the memory, and changes nothing else. -/
theorem leave_eq (e : Nat) (f : Queued) (s : State) : leave e f s = { s with mem := (leave e f s).mem } := by
  unfold leave uncharge releaseCells freeCells
  dsimp only
  repeat' split
  all_goals rfl

@[simp] theorem leave_wport (e : Nat) (f : Queued) (s : State) (k : Nat) : (leave e f s).wport k = s.wport k := by
  rw [leave_eq]
  rfl

/-- A frame that holds neither cells nor bytes of a pool gives nothing back. -/
theorem leave_bare {e : Nat} {f : Queued} {s : State} (hp : f.pool = 0) (hc : f.cells = none) : leave e f s = s := by
  unfold leave uncharge
  rw [hc, if_pos hp]

/-! ### PAUSE frames -/

/-- Port `q` is port `p` but for what sending PAUSE changes; the instant since which it is idle is as before, or `now`. -/
def PausedPort (now : Nat) (p q : WPort) : Prop :=
  q = { p with
    xoff := q.xoff, pauseDue := q.pauseDue, lpiTx := q.lpiTx, xoffAt := q.xoffAt, gapEnd := q.gapEnd, idleFrom := q.idleFrom
    counts := q.counts } ∧
  (q.idleFrom = p.idleFrom ∨ q.idleFrom = now)

/-- `t` is `s` but for what sending PAUSE changes on the ports, and what it sends out. -/
def PausesOnly (s t : State) : Prop :=
  t = { s with wired.ports := t.wired.ports, outbox := t.outbox } ∧ ∀ k, PausedPort s.time.mono (s.wport k) (t.wport k)

theorem PausedPort.refl (now : Nat) (p : WPort) : PausedPort now p p := ⟨rfl, .inl rfl⟩

theorem PausesOnly.refl (s : State) : PausesOnly s s := ⟨rfl, fun _ => .refl ..⟩

theorem PausedPort.trans {now : Nat} {p q r : WPort} (h : PausedPort now p q) (h' : PausedPort now q r) : PausedPort now p r := by
  obtain ⟨hq, hidle⟩ := h
  obtain ⟨hr, hidle'⟩ := h'
  refine ⟨?_, ?_⟩
  · rw [hq] at hr
    exact hr
  · rcases hidle' with h' | h'
    · rw [h']; exact hidle
    · exact .inr h'

theorem PausesOnly.trans {s t u : State} (h : PausesOnly s t) (h' : PausesOnly t u) : PausesOnly s u := by
  obtain ⟨ht, hport⟩ := h
  obtain ⟨hu, hport'⟩ := h'
  have htime : t.time = s.time := by rw [ht]
  refine ⟨?_, fun k => (hport k).trans ?_⟩
  · rw [ht] at hu
    exact hu
  · rw [← htime]
    exact hport' k

/-- A port changed within what sending PAUSE changes. -/
theorem PausesOnly.updPort {e : Nat} {f : WPort → WPort} {s : State} (h : PausedPort s.time.mono (s.wport e) (f (s.wport e))) :
    PausesOnly s (updPort e f s) := by
  refine ⟨rfl, fun k => ?_⟩
  rw [updPort_wport]
  split
  · next hk => rw [hk]; exact h
  · exact .refl ..

theorem PausesOnly.emit {s t : State} (o : Output) (h : PausesOnly s t) : PausesOnly s (emit o t) := by
  obtain ⟨ht, hport⟩ := h
  refine ⟨?_, hport⟩
  rw [ht]
  rfl

theorem sendPause_none {e : Nat} {s : State} (h : (s.wport e).pauseDue = none) : sendPause e s = s := by
  unfold sendPause
  dsimp only
  rw [h]

/-- A waiting PAUSE that may go out: counted, the gap and the idle time start anew. -/
theorem sendPause_sends {e q : Nat} {s : State} (hdue : (s.wport e).pauseDue = some q) (htx : (s.wport e).tx = none)
    (hl : (s.wport e).link = 1) :
    sendPause e s = emit (.frame (portSource e) 1 [q]) (portCount e cTxPause (Machine.updPort e (fun p => { p with
      pauseDue := none, lpiTx := false, xoffAt := s.time.mono, gapEnd := s.time.mono + bitsNs s e (84 * 8), idleFrom := s.time.mono }) s)) := by
  unfold sendPause
  dsimp only
  rw [hdue]
  exact if_neg (by simp [htx, hl])

/-- The port after its waiting PAUSE went out. -/
theorem sendPause_wport {e q : Nat} {s : State} (hdue : (s.wport e).pauseDue = some q) (htx : (s.wport e).tx = none)
    (hl : (s.wport e).link = 1) : (sendPause e s).wport e = { s.wport e with
      pauseDue := none, lpiTx := false, xoffAt := s.time.mono, gapEnd := s.time.mono + bitsNs s e (84 * 8), idleFrom := s.time.mono
      counts := tally (s.wport e).counts cTxPause } := by
  rw [sendPause_sends hdue htx hl]
  show State.wport (portCount e cTxPause _) e = _
  rw [portCount_wport, if_pos rfl, updPort_wport, if_pos rfl]

theorem sendPause_only (e : Nat) (s : State) : PausesOnly s (sendPause e s) := by
  unfold sendPause
  dsimp only
  split
  · exact .refl s
  · split
    · exact .refl s
    · refine .emit _ (.trans (.updPort ⟨rfl, .inr rfl⟩) (.updPort ⟨rfl, .inl rfl⟩))

theorem pauseCheck_only (e : Nat) (s : State) : PausesOnly s (pauseCheck e s) := by
  unfold pauseCheck
  dsimp only
  split
  · exact .refl s
  · refine .trans ?_ (sendPause_only e _)
    split
    · exact .updPort ⟨rfl, .inl rfl⟩
    · split
      · exact .updPort ⟨rfl, .inl rfl⟩
      · exact .refl s

theorem pauseAll_only (s : State) : PausesOnly s (pauseAll s) := by
  unfold pauseAll
  refine List.foldlRecOn _ _ (motive := PausesOnly s) (.refl s) (fun t ht x _ => ?_)
  split
  · exact ht.trans (pauseCheck_only x.1 t)
  · exact ht

/-! ### Selection (R316) -/

/-- What a walk does alike with and without the outbox and the queue, it does so as a whole. -/
theorem foldl_fresh {α : Type} {f : State → α → State} (h : ∀ s x, f (fresh s) x = fresh (f s x)) (l : List α) (s : State) :
    l.foldl f (fresh s) = fresh (l.foldl f s) := by
  induction l generalizing s with
  | nil => rfl
  | cons x r ih => rw [List.foldl_cons, h, ih, List.foldl_cons]

theorem releaseCells_fresh (id e : Nat) (s : State) : releaseCells id e (fresh s) = fresh (releaseCells id e s) := by
  unfold releaseCells
  rw [fresh_mem]
  cases Map.get? s.mem.cells id with
  | none => rfl
  | some c =>
    dsimp only
    split <;> rfl

theorem uncharge_fresh (p n : Nat) (s : State) : uncharge p n (fresh s) = fresh (uncharge p n s) := by
  unfold uncharge
  split <;> rfl

theorem leave_fresh (e : Nat) (f : Queued) (s : State) : leave e f (fresh s) = fresh (leave e f s) := by
  unfold leave
  rw [uncharge_fresh]
  split
  · exact releaseCells_fresh ..
  · rfl

theorem tagHead_fresh (q : Nat) (s : State) : tagHead q (fresh s) = fresh (tagHead q s) := by
  have hq : (fresh s).queue q = s.queue q := rfl
  unfold tagHead
  dsimp only
  rw [hq]
  split
  · split <;> rfl
  · rfl

theorem popHead_fresh (q : Nat) (s : State) : popHead q (fresh s) = fresh (popHead q s) :=
  tagHead_fresh q (updQueue q (fun p => { p with frames := p.frames.tail }) s)

theorem neverFitEvent_fresh (e c len : Nat) (s : State) : neverFitEvent e c len (fresh s) = fresh (neverFitEvent e c len s) := by
  unfold neverFitEvent
  rw [fresh_plan, fresh_beat]
  dsimp only
  cases Map.get? s.plan.lastEvent (16 * e + c) with
  | none => rfl
  | some b =>
    dsimp only
    split <;> rfl

theorem purgeQueue_fresh (e c q n : Nat) (s : State) : purgeQueue e c q n (fresh s) = fresh (purgeQueue e c q n s) := by
  induction n generalizing s with
  | zero => rfl
  | succ n ih =>
    have hq : (fresh s).queue q = s.queue q := rfl
    have hcount : ∀ k y, planCount e k (fresh y) = fresh (planCount e k y) := fun _ _ => rfl
    have hfits : ∀ ns, neverFits (fresh s) e c ns = neverFits s e c ns := fun _ => rfl
    unfold purgeQueue
    rw [hq]
    split
    · rw [fresh_frameNs, hfits]
      split
      · dsimp only
        rw [popHead_fresh, leave_fresh, hcount, neverFitEvent_fresh, ih]
      · rfl
    · rfl

/-- The never-fits rule sees nothing of the outbox and the queue. -/
theorem purgeEgress_fresh (e : Nat) (s : State) : purgeEgress e (fresh s) = fresh (purgeEgress e s) := by
  unfold purgeEgress
  rw [fresh_gateList]
  split
  · rfl
  · refine foldl_fresh (fun y x => ?_) _ s
    split
    · exact purgeQueue_fresh ..
    · rfl

theorem judgeManagement_fresh (e : Nat) (ok' : Nat → Queued → Bool) (s : State) :
    judgeManagement e ok' (fresh s) = (fresh (judgeManagement e ok' s).1, (judgeManagement e ok' s).2) := by
  have hr : ready (fresh s) e 8 ok' = ready s e 8 ok' := rfl
  have ho : shapedOut (fresh s) (classKey e 8) = shapedOut s (classKey e 8) := rfl
  unfold judgeManagement
  rw [hr]
  cases (ready s e 8 ok').head? with
  | none => rfl
  | some x =>
    dsimp only
    rw [ho]
    split <;> rfl

theorem judgeClasses_fresh (e n : Nat) (ok' : Nat → Queued → Bool) (s : State) :
    judgeClasses e ok' n (fresh s) = (fresh (judgeClasses e ok' n s).1, (judgeClasses e ok' n s).2) := by
  induction n generalizing s with
  | zero => rfl
  | succ c ih =>
    have hr : ready (fresh s) e c ok' = ready s e c ok' := rfl
    have ho : shapedOut (fresh s) (classKey e c) = shapedOut s (classKey e c) := rfl
    unfold judgeClasses
    rw [hr]
    cases earliest (ready s e c ok') with
    | none => exact ih s
    | some x =>
      dsimp only
      rw [ho]
      split
      · exact ih (planCount e cShaped s)
      · rfl

theorem judge_fresh (e : Nat) (ok' : Nat → Queued → Bool) (s : State) :
    judge e ok' (fresh s) = (fresh (judge e ok' s).1, (judge e ok' s).2) := by
  unfold judge
  rw [fresh_unitUp, judgeManagement_fresh]
  split
  · rfl
  · rcases judgeManagement e ok' s with ⟨s1, _ | r⟩
    · exact judgeClasses_fresh ..
    · rfl

@[simp] theorem fresh_gateFits (s : State) (e w : Nat) : gateFits (fresh s) e w = gateFits s e w := rfl

@[simp] theorem fresh_anyEligible (s : State) (e : Nat) : anyEligible (fresh s) e = anyEligible s e := by
  unfold anyEligible
  rw [fresh_gateFits, judge_fresh, fresh_wport]

/-- The Planisher holds one frame, `x` in queue `q` of wired egress `e`, and nothing holds it back. -/
structure OneFrame (e q : Nat) (x : Queued) (f : Frame) (s : State) : Prop where
  unit : unitUp s 4 = true
  queue : ∃ p, s.plan.queues = [(q, p)] ∧ p.frames = [x]
  range : q ≤ 0xDF ∧ q / 8 = e
  held : x.held = false
  payload : x.payload = .eth f
  untagged : x.tagged = false
  unshaped : (classSet s (classKey e (q % 8))).shaped = false
  ungated : gateList s e = none

/-- The frame waits on whatever the port is changed to. -/
theorem OneFrame.updPort {e q k : Nat} {x : Queued} {f : Frame} {s : State} (g : WPort → WPort) (h : OneFrame e q x f s) :
    OneFrame e q x f (updPort k g (fresh s)) :=
  ⟨h.unit, h.queue, h.range, h.held, h.payload, h.untagged, h.unshaped, h.ungated⟩

/-- `x` has started on port `e`, which is `p` but for that, and left its queue empty. -/
structure FrameStarts (e q : Nat) (x : Queued) (p : WPort) (s t : State) : Prop where
  port : ∃ w, t.wport e = { p with tx := some w, wakeEnd := none, lpiTx := false } ∧
    (w.item, w.startNs, w.endNs) = ({ x with waited := false }, s.time.mono, s.time.mono + frameNs s e (sentBytes x))
  queue : (t.queue q).frames = []
  mem : t.mem = s.mem
  kept : t.kept = s.kept

/-- What a free port does with the one frame that it can send. -/
theorem pickFrame_frameStarts {e q : Nat} {x : Queued} {f : Frame} {s : State} (h : OneFrame e q x f s) (hl : (s.wport e).lpiTx = false) :
    FrameStarts e q x (s.wport e) s (pickFrame e s) := by
  obtain ⟨p, hq, hf⟩ := h.queue
  obtain ⟨o, ho, hempty⟩ := pickFrame_sends h.unit hq hf h.range.1 h.range.2 h.held h.unshaped h.ungated hl h.payload (.inl h.untagged)
  rw [ho]
  refine ⟨⟨_, sends_wport, rfl⟩, hempty, ?_, ?_⟩ <;> rw [selectFrom_eq] <;> rfl

/-- The same of a state that differs in what a started frame says nothing of. -/
theorem FrameStarts.congr {e q : Nat} {x : Queued} {p : WPort} {s s' t t' : State} (h : FrameStarts e q x p s t) (ht : SameSwitch t t')
    (hmono : s'.time.mono = s.time.mono) (hspeed : (s'.wport e).speed = (s.wport e).speed) (hmem : s'.mem = s.mem) (hkept : s'.kept = s.kept) :
    FrameStarts e q x p s' t' := by
  obtain ⟨⟨w, hport, hsent⟩, hqueue, hm, hk⟩ := h
  have hns : frameNs s' e (sentBytes x) = frameNs s e (sentBytes x) := by
    unfold frameNs bitsNs
    rw [hspeed]
  refine ⟨⟨w, ?_, ?_⟩, ?_, ?_, ?_⟩
  · rw [wport_of ht.wired, hport]
  · rw [hmono, hns, hsent]
  · rw [queue_of ht.plan, hqueue]
  · rw [ht.mem, hm, hmem]
  · rw [ht.kept, hk, hkept]

theorem FrameStarts.tx {e q : Nat} {x : Queued} {p : WPort} {s t : State} (h : FrameStarts e q x p s t) :
    (t.wport e).tx.map (fun w => (w.item, w.startNs, w.endNs)) =
      some ({ x with waited := false }, s.time.mono, s.time.mono + frameNs s e (sentBytes x)) := by
  obtain ⟨w, hport, hsent⟩ := h.port
  rw [hport, ← hsent]
  rfl

end Sys2Proof.Proofs
end

section
/-! PROOFS. What a wired port does at the events of its link (R362, R363, R366) and of its shared medium (R367 to R369): one lemma an operation and
outcome; then the statement on them. -/

namespace Sys2Proof.Proofs
open Machine Laws

/-! ### The link comes up -/

/-- The lane position drawn changes nothing but how far the draws have come. -/
theorem laneDraw_eq (e mode : Nat) (s : State) : (laneDraw e mode s).2 = { s with draws := (laneDraw e mode s).2.draws } := by
  unfold laneDraw
  split <;> rfl

theorem laneDraw_fresh (e mode : Nat) (s : State) : laneDraw e mode (fresh s) = ((laneDraw e mode s).1, fresh (laneDraw e mode s).2) := by
  unfold laneDraw
  split <;> rfl

/-- Port `p` as its link comes up at `now`. -/
def portRisen (s : State) (e w : Nat) (p : WPort) : WPort :=
  { p with
    transparent := Config.ptpPair e, lanePos := (laneDraw e (portCfg s e).mode s).1, link := 1, speed := modeSpeed (portCfg s e).mode w
    linkChanges := satInc 32 p.linkChanges, plca := plcaOf s e, beaconAt := s.time.mono, idleFrom := s.time.mono, gapEnd := s.time.mono
    attempts := 0 }

theorem linkUp_rises {e w : Nat} {half : Bool} {s : State} (he : e < 24) (hw : wiredOn s = true) (hu : unitUp s (8 + e) = true)
    (h0 : (portCfg s e).mode ≠ 0) (h4 : (portCfg s e).mode ≠ 4) (hl : (s.wport e).link = 0) :
    linkUp e w half s = linkEvent e 1 0 (updPort e (portRisen s e w) (laneDraw e (portCfg s e).mode s).2) := by
  unfold linkUp
  dsimp only
  rw [if_neg (by simp [hw, hu, h0]; omega), if_neg (by simp [h4]), if_neg (by simp [hl])]
  rfl

/-- WIRED_LINK tells the speed of the port as it has become. -/
theorem linkEvent_updPort (e up reason : Nat) (f : WPort → WPort) (s : State) : linkEvent e up reason (updPort e f s) =
    raise (portSource e) 0x0401 (le 1 up ++ le 1 (f (s.wport e)).speed ++ le 1 reason) (updPort e f s) := by
  unfold linkEvent
  rw [updPort_wport, if_pos rfl]

/-! ### The link is lost -/

theorem leave_plan (e : Nat) (f : Queued) (s : State) : (leave e f s).plan = s.plan := by rw [leave_eq]
theorem leave_wired (e : Nat) (f : Queued) (s : State) : (leave e f s).wired = s.wired := by rw [leave_eq]

theorem flushQueue_wired (q : Nat) (s : State) : (flushQueue q s).wired = s.wired := by
  unfold flushQueue
  dsimp only
  split
  · rfl
  · exact foldl_keeps (fun u => u.wired) _ (fun u f => leave_wired _ f u) _ s

/-- A queue flushed is empty; the others hold what they held. -/
theorem flushQueue_frames (q k : Nat) (s : State) :
    ((flushQueue q s).queue k).frames = if k = q then [] else (s.queue k).frames := by
  unfold flushQueue
  dsimp only
  split
  · next h =>
    split
    · next hk => rw [hk, h]
    · rfl
  · have hplan := foldl_keeps (fun u => u.plan) (fun u f => leave (queueHome u q) f u) (fun u f => leave_plan _ f u) (s.queue q).frames s
    show PQueue.frames (Map.getD (Map.set _ q _) k _) = _
    rw [getD_set]
    split
    · rfl
    · exact congrArg PQueue.frames (queue_of hplan k)

/-- `t` is `s` with frames of queues discarded, and what port `e` counts: no entry is forgotten, no queue filled. -/
structure Flushes (e : Nat) (s t : State) : Prop where
  learned : t.wired.learned = s.wired.learned
  port : t.wport e = { s.wport e with counts := (t.wport e).counts }
  empty : ∀ k, (s.queue k).frames = [] → (t.queue k).frames = []

theorem Flushes.trans {e : Nat} {s t u : State} (h : Flushes e s t) (h' : Flushes e t u) : Flushes e s u := by
  refine ⟨h'.learned.trans h.learned, ?_, fun k hk => h'.empty k (h.empty k hk)⟩
  rw [h'.port, h.port]

/-- One queue of a port discarded and counted. -/
def flushOne (e : Nat) (s : State) (c : Nat) : State :=
  updPort e (fun p => { p with counts := tallyBy p.counts cTxLinkDown (s.queue (8 * e + c)).frames.length }) (flushQueue (8 * e + c) s)

theorem flushOne_frames (e c k : Nat) (s : State) :
    ((flushOne e s c).queue k).frames = if k = 8 * e + c then [] else (s.queue k).frames := flushQueue_frames (8 * e + c) k s

theorem flushOne_flushes (e c : Nat) (s : State) : Flushes e s (flushOne e s c) := by
  refine ⟨congrArg (fun w => w.learned) (flushQueue_wired (8 * e + c) s), ?_, fun k hk => ?_⟩
  · unfold flushOne
    rw [updPort_wport, if_pos rfl, wport_of (flushQueue_wired _ s)]
  · rw [flushOne_frames, hk, ite_self]

theorem flushList_flushes (e : Nat) (l : List Nat) (s : State) :
    Flushes e s (l.foldl (flushOne e) s) ∧ ∀ c ∈ l, ((l.foldl (flushOne e) s).queue (8 * e + c)).frames = [] := by
  induction l generalizing s with
  | nil => exact ⟨⟨rfl, rfl, fun _ h => h⟩, by simp⟩
  | cons c r ih =>
    obtain ⟨hrest, hempty⟩ := ih (flushOne e s c)
    refine ⟨(flushOne_flushes e c s).trans hrest, fun k hk => ?_⟩
    rcases List.mem_cons.1 hk with rfl | hk
    · exact hrest.empty _ (by rw [flushOne_frames, if_pos rfl])
    · exact hempty k hk

/-- A port flushed: its eight queues are empty. -/
theorem flushPort_flushes (e : Nat) (s : State) :
    Flushes e s (flushPort e s) ∧ ∀ c ∈ List.range 8, ((flushPort e s).queue (8 * e + c)).frames = [] := flushList_flushes e _ s

/-- A frame that port `e` was to send is dropped. -/
def txDropped (e : Nat) (t : Option WiredTx) (s : State) : State :=
  match t with
  | some t => portCount e cTxLinkDown (leave e t.item s)
  | none => s

/-- A frame being received is dropped. -/
def rxDropped (r : Option RxRun) (s : State) : State :=
  match r with
  | some r => (match r.cells with | some id => freeCells id s | none => s)
  | none => s

/-- The frames on port `e`, sent or received, are dropped. -/
def framesDropped (e : Nat) (s : State) : State :=
  rxDropped (s.wport e).rx (txDropped e (s.wport e).retry (txDropped e (s.wport e).tx s))

theorem framesDropped_idle {e : Nat} {s : State} (htx : (s.wport e).tx = none) (hr : (s.wport e).retry = none) (hrx : (s.wport e).rx = none) :
    framesDropped e s = s := by
  unfold framesDropped
  rw [htx, hr, hrx]
  rfl

theorem txDropped_learned (e : Nat) (t : Option WiredTx) (s : State) : (txDropped e t s).wired.learned = s.wired.learned := by
  cases t with
  | none => rfl
  | some t =>
    show (leave e t.item s).wired.learned = _
    rw [leave_wired]

theorem rxDropped_learned (r : Option RxRun) (s : State) : (rxDropped r s).wired.learned = s.wired.learned := by
  unfold rxDropped
  split
  · split <;> rfl
  · rfl

theorem framesDropped_learned (e : Nat) (s : State) : (framesDropped e s).wired.learned = s.wired.learned := by
  unfold framesDropped
  rw [rxDropped_learned, txDropped_learned, txDropped_learned]

theorem linkLost_up {e reason : Nat} {s : State} (hl : (s.wport e).link = 1) :
    linkLost e reason s = linkEvent e 0 reason { forgetPort e (flushPort e (updPort e linkCleared (framesDropped e s))) with
      wired.linkDownStk := true } := by
  unfold linkLost framesDropped
  dsimp only
  rw [if_neg (by omega), if_neg (by omega)]
  unfold rxDropped txDropped
  congr

/-- A port's link that was up and goes down. -/
theorem linkDown_up {e : Nat} {s : State} (he : e < 24) (hl : (s.wport e).link = 1) :
    linkDown e s = linkEvent e 0 0 { forgetPort e (flushPort e (updPort e linkCleared (framesDropped e s))) with wired.linkDownStk := true } := by
  unfold linkDown
  rw [if_pos he, linkLost_up hl]

/-- The port of a link that went down: cleared, and what it counts apart as it was. -/
theorem linkDown_port {e : Nat} {s : State} (he : e < 24) (hl : (s.wport e).link = 1) :
    (linkDown e s).wport e =
      { linkCleared ((framesDropped e s).wport e) with counts := ((linkDown e s).wport e).counts } := by
  have hport := (flushPort_flushes e (updPort e linkCleared (framesDropped e s))).1.port
  rw [updPort_wport, if_pos rfl] at hport
  rw [linkDown_up he hl]
  generalize flushPort e (updPort e linkCleared (framesDropped e s)) = y at *
  exact hport

theorem linkDown_learned {e : Nat} {s : State} (he : e < 24) (hl : (s.wport e).link = 1) :
    (linkDown e s).wired.learned = s.wired.learned.filter (fun x => ¬ (x.2.destKind = 0 ∧ x.2.dest = e)) := by
  have hlearned := (flushPort_flushes e (updPort e linkCleared (framesDropped e s))).1.learned.trans (framesDropped_learned e s)
  rw [linkDown_up he hl, ← hlearned]
  generalize flushPort e (updPort e linkCleared (framesDropped e s)) = y
  rfl

/-- Every queue of the port is empty. -/
theorem linkDown_queue {e c : Nat} {s : State} (he : e < 24) (hl : (s.wport e).link = 1) (hc : c ∈ List.range 8) :
    ((linkDown e s).queue (8 * e + c)).frames = [] := by
  have hempty := (flushPort_flushes e (updPort e linkCleared (framesDropped e s))).2 c hc
  rw [linkDown_up he hl]
  generalize flushPort e (updPort e linkCleared (framesDropped e s)) = y at *
  exact hempty

/-- A port that holds nothing, nothing queued, loses its link: the Planisher and the settings stand. -/
theorem linkDown_unqueued {e : Nat} {s : State} (he : e < 24) (hl : (s.wport e).link = 1) (htx : (s.wport e).tx = none)
    (hr : (s.wport e).retry = none) (hrx : (s.wport e).rx = none) (hq : s.plan.queues = []) :
    (linkDown e s).plan = s.plan ∧ (linkDown e s).kept = s.kept := by
  obtain ⟨hplan, hkept, -, -, -⟩ := flushPort_idle e (s := updPort e linkCleared s) hq
  rw [linkDown_up he hl, framesDropped_idle htx hr hrx]
  generalize flushPort e (updPort e linkCleared s) = y at *
  exact ⟨hplan, hkept⟩

/-! ### PLCA -/

theorem plcaBeaconRx_follows {e : Nat} {s : State} (hl : (s.wport e).link = 1) (hp : (s.wport e).plca = 3) :
    plcaBeaconRx e s = raise (portSource e) 0x0402 (le 1 2) (updPort e (fun p => { p with plca := 2 })
      (updPort e (fun p => { p with beaconAt := s.time.mono }) s)) := by
  unfold plcaBeaconRx
  dsimp only
  rw [if_neg (by simp [hl, hp]), if_pos hp]
  rfl

theorem plcaFallback_due {e : Nat} {s : State} (hl : (s.wport e).link = 1) (hp : (s.wport e).plca = 2)
    (hnow : (s.wport e).beaconAt + bitsNs s e 4000 ≤ s.time.mono) (hacc : s.time.acc < 2 ^ 96) :
    plcaFallback e s = setPlca e 3 { s with wired.plcaStk := true } := by
  unfold plcaFallback
  dsimp only
  rw [if_neg (by simp [hl, hp]), advanceMono_past hnow hacc]

/-- A free PLCA node without a frame to retry selects at its opportunity. -/
theorem transmitOpportunity_picks {e : Nat} {s : State} (hts : tsPort e = true) (hf : portFree s e = true)
    (hp : (s.wport e).plca = 1 ∨ (s.wport e).plca = 2) (hr : (s.wport e).retry = none) :
    transmitOpportunity e s = pickFrame e (updPort e (fun p => { p with extraSent := 0, burstUntil := none }) s) := by
  unfold transmitOpportunity
  dsimp only
  rw [if_neg (by simp [hts, hf]; omega), hr]

/-! ### Selection of any frame (R316) -/

theorem neverFitEvent_keeps (e c len : Nat) (s : State) :
    (neverFitEvent e c len s).time = s.time ∧ (neverFitEvent e c len s).wired = s.wired := by
  unfold neverFitEvent
  dsimp only
  cases Map.get? s.plan.lastEvent (16 * e + c) with
  | none => exact ⟨rfl, rfl⟩
  | some b =>
    dsimp only
    split <;> exact ⟨rfl, rfl⟩

/-- A head that never fits is discarded; time and the ports stand. -/
theorem purgeQueue_keeps (e c q n : Nat) (s : State) :
    (purgeQueue e c q n s).time = s.time ∧ (purgeQueue e c q n s).wired = s.wired := by
  induction n generalizing s with
  | zero => exact ⟨rfl, rfl⟩
  | succ n ih =>
    unfold purgeQueue
    split
    · split
      · next f _ _ _ =>
        obtain ⟨htime, hwired⟩ := ih (neverFitEvent e c (sentBytes f) (planCount e cNeverFit (leave e f (popHead q s))))
        obtain ⟨htime', hwired'⟩ := neverFitEvent_keeps e c (sentBytes f) (planCount e cNeverFit (leave e f (popHead q s)))
        refine ⟨htime.trans (htime'.trans ?_), hwired.trans (hwired'.trans ?_)⟩
        all_goals rw [leave_eq, popHead_eq]; rfl
      · exact ⟨rfl, rfl⟩
    · exact ⟨rfl, rfl⟩

theorem purgeEgress_keeps (e : Nat) (s : State) : (purgeEgress e s).time = s.time ∧ (purgeEgress e s).wired = s.wired := by
  unfold purgeEgress
  split
  · exact ⟨rfl, rfl⟩
  · refine Prod.mk.inj (foldl_keeps (fun u => (u.time, u.wired)) _ (fun u x => ?_) s.plan.queues s)
    split
    · exact Prod.ext (purgeQueue_keeps ..).1 (purgeQueue_keeps ..).2
    · rfl

/-- What neither branch changes stands. -/
theorem ite_keeps {α : Type} {c : Prop} [Decidable c] (p : State → α) {a b u : State} (ha : p a = p u) (hb : p b = p u) :
    p (if c then a else b) = p u := by
  split
  · exact ha
  · exact hb

theorem countWaits_time (e wait : Nat) (c : Option Nat) (s : State) : (countWaits e wait c s).time = s.time := by
  unfold countWaits
  split
  · rfl
  · refine foldl_keeps (fun u => u.time) _ (fun u x => ?_) s.plan.queues s
    refine ite_keeps (fun u => u.time) ?_ rfl
    split
    · exact ite_keeps (fun u => u.time) rfl rfl
    · rfl

theorem judgeClasses_time (e n : Nat) (ok' : Nat → Queued → Bool) (s : State) : (judgeClasses e ok' n s).1.time = s.time := by
  induction n generalizing s with
  | zero => rfl
  | succ c ih =>
    unfold judgeClasses
    split
    · exact ih s
    · split
      · exact ih (planCount e cShaped s)
      · rfl

theorem judge_time (e : Nat) (ok' : Nat → Queued → Bool) (s : State) : (judge e ok' s).1.time = s.time := by
  have hm : (judgeManagement e ok' s).1.time = s.time := by
    unfold judgeManagement
    split
    · rfl
    · split <;> rfl
  unfold judge
  split
  · rfl
  · split
    · next h => rw [h] at hm; exact hm
    · next h => rw [h] at hm; exact (judgeClasses_time ..).trans hm

/-- A frame that starts is on its port from this instant. -/
theorem startTx_tx {e : Nat} {q : Queued} {f : Frame} {s : State} (hq : q.payload = .eth f) :
    ((startTx e q s).wport e).tx.map (fun w => (w.item.payload, w.startNs)) = some (q.payload, s.time.mono) := by
  have hemit : ∀ o y, (emit o y).wport e = y.wport e := fun _ _ => rfl
  unfold startTx
  rw [hq]
  dsimp only
  rw [hemit, updPort_wport, if_pos rfl]
  exact congrArg (fun x => some (x, s.time.mono)) hq

/-- The frame that selection gives, after the heads that never fit are gone, starts at once on a port that is awake. -/
theorem pickFrame_tx {e c q : Nat} {x : Queued} {f : Frame} {s : State} (hl : (s.wport e).lpiTx = false)
    (hj : (judge e (gateFits (purgeEgress e s) e 0) (purgeEgress e s)).2 = some (c, q, x)) (hx : x.payload = .eth f) :
    ((pickFrame e s).wport e).tx.map (fun w => (w.item.payload, w.startNs)) = some (x.payload, s.time.mono) := by
  obtain ⟨htime, hwired⟩ := purgeEgress_keeps e s
  have hawake : ((purgeEgress e s).wport e).lpiTx = false := by rw [wport_of hwired, hl]
  have hjt := judge_time e (gateFits (purgeEgress e s) e 0) (purgeEgress e s)
  unfold pickFrame
  dsimp only
  rw [hawake, if_neg (by simp)]
  generalize judge e (gateFits (purgeEgress e s) e 0) (purgeEgress e s) = r at *
  obtain ⟨s1, r⟩ := r
  subst hj
  dsimp only
  rw [if_neg (by simp), startTx_tx (q := { x with waited := false }) hx, selectFrom_eq]
  show some (x.payload, (countWaits e 0 (some c) s1).time.mono) = _
  rw [countWaits_time, hjt, htime]

/-! ### Collisions (R369) -/

/-- Is the medium shared under PLCA? -/
def underPlca (e : Nat) (s : State) : Bool := decide ((s.wport e).plca = 1) || decide ((s.wport e).plca = 2)

/-- The instant of a collision, `bits` bit times into frame `x`. -/
def collidesAt (e bits : Nat) (x : WiredTx) (s : State) : State := advanceMono (x.startNs + bitsNs s e bits) s

/-- A collision counted, where there is PLCA. -/
def collided (e bits : Nat) (x : WiredTx) (s : State) : State :=
  if underPlca e s then portCount e cPlcaColl (collidesAt e bits x s) else collidesAt e bits x s

/-- The frame is given up, counted as `k`: the port may send again at `next`. -/
def txGivenUp (e k next : Nat) (x : WiredTx) (s : State) : State :=
  portCount e k (leave e x.item (updPort e (fun p => { p with tx := none, attempts := 0, gapEnd := next }) s))

/-- The frame waits for its attempt `n`, from `next`. -/
def txBacksOff (e n next : Nat) (x : WiredTx) (s : State) : State :=
  updPort e (fun p => { p with tx := none, attempts := n, retry := some x, gapEnd := next }) s

/-- The back-off of attempt `n`, in bit times; under PLCA there is none. -/
def backOff (e n slots : Nat) (s : State) : Nat := if underPlca e s then 0 else slots % 2 ^ (min n 10) * 512

/-- A collision by its outcome: too late, one too many, or a back-off. -/
theorem collision_eq {e bits slots : Nat} {x : WiredTx} {s : State} (hts : tsPort e = true) (htx : (s.wport e).tx = some x) :
    collision e bits slots s =
    if !underPlca e s ∧ bits > 512 then
      txGivenUp e cLateColl ((collidesAt e bits x s).time.mono + bitsNs s e 128) x (collided e bits x s)
    else if (s.wport e).attempts + 1 ≥ 16 then
      txGivenUp e cExcessColl ((collidesAt e bits x s).time.mono + bitsNs s e 128) x (collided e bits x s)
    else
      txBacksOff e ((s.wport e).attempts + 1)
        ((collidesAt e bits x s).time.mono + bitsNs s e (32 + 96 + backOff e ((s.wport e).attempts + 1) slots s)) x (collided e bits x s) := by
  unfold collision
  dsimp only
  rw [htx]
  dsimp only
  rw [if_neg (by simp [hts])]
  rfl

@[simp] theorem txGivenUp_wport (e k next : Nat) (x : WiredTx) (s : State) : (txGivenUp e k next x s).wport e =
    { s.wport e with tx := none, attempts := 0, gapEnd := next, counts := tally (s.wport e).counts k } := by
  unfold txGivenUp
  rw [portCount_wport, if_pos rfl, leave_wport, updPort_wport, if_pos rfl]

@[simp] theorem txBacksOff_wport (e n next : Nat) (x : WiredTx) (s : State) : (txBacksOff e n next x s).wport e =
    { s.wport e with tx := none, attempts := n, retry := some x, gapEnd := next } := by
  unfold txBacksOff
  rw [updPort_wport, if_pos rfl]

/-- What a collision leaves on the port: the frame is off the wire; it has one attempt more, or none where it was given up. -/
theorem collision_port {e bits slots : Nat} {x : WiredTx} {s : State} (hts : tsPort e = true) (htx : (s.wport e).tx = some x) :
    ((collision e bits slots s).wport e).tx = none ∧ ((collision e bits slots s).wport e).attempts =
      if ((s.wport e).attempts < 15 ∧ (bits ≤ 512 ∨ (s.wport e).plca = 1 ∨ (s.wport e).plca = 2)) then (s.wport e).attempts + 1 else 0 := by
  have hplca : underPlca e s = true ↔ (s.wport e).plca = 1 ∨ (s.wport e).plca = 2 := by simp [underPlca]
  rw [collision_eq hts htx]
  by_cases hlate : (!underPlca e s) = true ∧ bits > 512
  · have hnot : ¬ (bits ≤ 512 ∨ (s.wport e).plca = 1 ∨ (s.wport e).plca = 2) := by
      rw [← hplca]
      simp at hlate ⊢
      exact ⟨hlate.2, hlate.1⟩
    rw [if_pos hlate, txGivenUp_wport, if_neg (fun h => hnot h.2)]
    exact ⟨rfl, rfl⟩
  · have hin : bits ≤ 512 ∨ (s.wport e).plca = 1 ∨ (s.wport e).plca = 2 := by
      rw [← hplca]
      cases hu : underPlca e s with
      | true => exact .inr rfl
      | false => exact .inl (by simpa [hu] using hlate)
    rw [if_neg hlate]
    by_cases hn : (s.wport e).attempts + 1 ≥ 16
    · rw [if_pos hn, txGivenUp_wport, if_neg (by omega)]
      exact ⟨rfl, rfl⟩
    · rw [if_neg hn, txBacksOff_wport, if_pos ⟨by omega, hin⟩]
      exact ⟨rfl, rfl⟩

/-- A collision without PLCA within the first 512 bit times, before the sixteenth attempt, its instant already past. -/
theorem collision_backsOff {e bits slots : Nat} {x : WiredTx} {s : State} (hts : tsPort e = true) (htx : (s.wport e).tx = some x)
    (hp : (s.wport e).plca = 0) (ha : (s.wport e).attempts < 15) (hb : bits ≤ 512) (hnow : x.startNs + bitsNs s e bits ≤ s.time.mono)
    (hacc : s.time.acc < 2 ^ 96) : collision e bits slots s = txBacksOff e ((s.wport e).attempts + 1)
      (s.time.mono + bitsNs s e (128 + slots % 2 ^ (min ((s.wport e).attempts + 1) 10) * 512)) x s := by
  have hu : underPlca e s = false := by simp [underPlca, hp]
  have hat : collidesAt e bits x s = s := advanceMono_past hnow hacc
  rw [collision_eq hts htx, if_neg (by omega), if_neg (by omega), hat]
  unfold collided backOff
  rw [hu, hat]
  rfl

/-- The sixteenth collision of a frame. -/
theorem collision_givesUp {e bits slots : Nat} {x : WiredTx} {s : State} (hts : tsPort e = true) (htx : (s.wport e).tx = some x)
    (hp : (s.wport e).plca = 0) (ha : (s.wport e).attempts = 15) (hb : bits ≤ 512) (hnow : x.startNs + bitsNs s e bits ≤ s.time.mono)
    (hacc : s.time.acc < 2 ^ 96) : collision e bits slots s = txGivenUp e cExcessColl (s.time.mono + bitsNs s e 128) x s := by
  have hu : underPlca e s = false := by simp [underPlca, hp]
  have hat : collidesAt e bits x s = s := advanceMono_past hnow hacc
  rw [collision_eq hts htx, if_neg (by omega), if_pos (by omega), hat]
  unfold collided
  rw [hu, hat]
  rfl

/-- The back-off of an untagged frame over, it starts again. -/
theorem csmaBackoffEnd_restarts {e : Nat} {x : WiredTx} {f : Frame} {s : State} (hf : portFree s e = true)
    (hr : (s.wport e).retry = some x) (hp : (s.wport e).plca = 0) (hgap : (s.wport e).gapEnd ≤ s.time.mono) (hacc : s.time.acc < 2 ^ 96)
    (hx : x.item.payload = .eth f) (ht : x.item.tagged = false) :
    ∃ o w, csmaBackoffEnd e s = emit o (updPort e (fun p => { p with tx := some w, wakeEnd := none, lpiTx := false })
        (updPort e (fun p => { p with retry := none }) s)) ∧
      (w.item, w.startNs, w.endNs) = (x.item, s.time.mono, s.time.mono + frameNs s e (sentBytes x.item)) := by
  have hns : frameNs (updPort e (fun p => { p with retry := none }) s) e (sentBytes x.item) = frameNs s e (sentBytes x.item) := by
    simp [frameNs, bitsNs]
  obtain ⟨o, ho⟩ := startTx_does (e := e) (s := updPort e (fun p => { p with retry := none }) s) hx (.inl ht)
  have hrestart : csmaBackoffEnd e s = restartTx e x s := by
    unfold csmaBackoffEnd
    dsimp only
    rw [hr]
    dsimp only
    rw [if_neg (by simp [hf, hp]), advanceMono_past hgap hacc]
  rw [hrestart]
  exact ⟨o, _, ho, congrArg (fun n => (x.item, s.time.mono, s.time.mono + n)) hns⟩

/-- Settles O43: each event is put as one equation of its operation, and the clause read off it; a frame that starts is followed through the
selection, and PAUSE that a collision lets go changes nothing that the clauses speak of. -/
theorem wiredPortEvents : Obligations.WiredPortEvents := by
  unfold Obligations.WiredPortEvents
  refine ⟨?linkUp, ?linkDownIdle, ?linkDown, ?mdioPoll, ?beacon, ?fallback, ?opportunityOne, ?opportunity, ?backsOff, ?givesUp, ?collision,
    ?restarts⟩
  case linkUp =>
    intro e w half g s ha he hw hu hg hm hl
    subst hg
    refine act_becomes ha ?_
    rw [linkUp_rises (s := fresh s) he hw hu hm.1 hm.2 hl, linkEvent_updPort, fresh_portCfg, laneDraw_fresh, laneDraw_eq,
      show portSource e = 8 + e from if_pos he]
    unfold portRisen
    rw [fresh_portCfg, laneDraw_fresh]
    rfl
  case linkDownIdle =>
    intro e s ha he hl htx hr hrx hq
    obtain ⟨t, ht, hsw⟩ := act_switch (f := linkDown e) ha
    have hport := (wport_of hsw.wired e).trans (linkDown_port (s := fresh s) he hl)
    obtain ⟨hplan, hkept⟩ := linkDown_unqueued (s := fresh s) he hl htx hr hrx hq
    rw [framesDropped_idle (s := fresh s) htx hr hrx] at hport
    refine ⟨t, ht, ?_, ?_, ?_, ?_, ?_, ?_⟩
    · rw [hport]; rfl
    · rw [hport]; rfl
    · rw [hsw.wired, linkDown_up (s := fresh s) he hl]; rfl
    · rw [hsw.wired, linkDown_learned (s := fresh s) he hl]; rfl
    · rw [hsw.kept, hkept]; rfl
    · rw [hsw.plan, hplan]; rfl
  case linkDown =>
    intro e s ha he hl
    obtain ⟨t, ht, hsw⟩ := act_switch (f := linkDown e) ha
    have hport := (wport_of hsw.wired e).trans (linkDown_port (s := fresh s) he hl)
    refine ⟨t, ht, ?_, ?_, ?_, ?_, ?_, ?_⟩
    · rw [hport]; rfl
    · rw [hport]; rfl
    · rw [hport]; rfl
    · rw [hsw.wired, linkDown_up (s := fresh s) he hl]; rfl
    · rw [hsw.wired, linkDown_learned (s := fresh s) he hl]; rfl
    · refine List.all_eq_true.2 fun c hc => decide_eq_true ?_
      rw [queue_of hsw.plan, linkDown_queue (s := fresh s) he hl hc]
  case mdioPoll =>
    intro s ha hw hc hdue
    refine act_becomes_sent ha ?_
    unfold mdioPoll
    rw [if_neg (by simp [hw, hc]; omega)]
    rfl
  case beacon =>
    intro e s ha hl hp
    refine act_becomes ha ?_
    rw [plcaBeaconRx_follows (s := fresh s) hl hp, updPort_updPort]
    rfl
  case fallback =>
    intro e s ha hl hp hnow hacc
    refine act_becomes ha ?_
    rw [plcaFallback_due (s := fresh s) hl hp hnow hacc]
    rfl
  case opportunityOne =>
    intro e q x f p s ha hts hf hp hr hlpi hu hq hfr hrange hh hx htag hs hg
    obtain ⟨t, ht, hsw⟩ := act_switch (f := transmitOpportunity e) ha
    rw [transmitOpportunity_picks (s := fresh s) hts hf (.inr hp) hr] at hsw
    have hone : OneFrame e q x f s := ⟨hu, ⟨p, hq, hfr⟩, hrange, hh, hx, htag, hs, hg⟩
    have hstarts := (pickFrame_frameStarts (hone.updPort (k := e) (fun p => { p with extraSent := 0, burstUntil := none }))
      (by simp [hlpi])).congr hsw (s' := s) rfl (by simp) rfl rfl
    obtain ⟨w, hport, -⟩ := hstarts.port
    exact ⟨t, ht, hstarts.tx, by rw [hport]; simp, hstarts.queue, hstarts.mem, hstarts.kept⟩
  case opportunity =>
    intro e c q x f s y ha hts hf hp hr hlpi hy hj hx
    obtain ⟨t, ht, hsw⟩ := act_switch (f := transmitOpportunity e) ha
    rw [transmitOpportunity_picks (s := fresh s) hts hf hp hr] at hsw
    have hpurged : purgeEgress e (updPort e (fun p => { p with extraSent := 0, burstUntil := none }) (fresh s)) = fresh y := by
      rw [hy]
      exact purgeEgress_fresh e (updPort e (fun p => { p with extraSent := 0, burstUntil := none }) s)
    refine ⟨t, ht, ?_⟩
    rw [wport_of hsw.wired]
    refine pickFrame_tx (c := c) (q := q) (by simp [hlpi]) ?_ hx
    rw [hpurged, fresh_gateFits, judge_fresh]
    exact hj
  case backsOff =>
    intro e bits slots x s ha hts htx hp hn hb hnow hacc hpause
    refine act_becomes ha ?_
    have heq := collision_backsOff (slots := slots) (s := fresh s) hts htx hp hn hb hnow hacc
    show pauseAll (collision e bits slots (fresh s)) = _
    rw [pauseAll_none (by rw [heq]; exact hpause), heq]
    rfl
  case givesUp =>
    intro e bits slots x s ha hts htx hp hn hb hnow hacc hpause hpool hcells
    obtain ⟨t, ht, hsw⟩ := act_switch (f := fun s => pauseAll (collision e bits slots s)) ha
    have hrest : (txGivenUp e cExcessColl (s.time.mono + bitsNs s e 128) x (fresh s)).plan = s.plan ∧
        (txGivenUp e cExcessColl (s.time.mono + bitsNs s e 128) x (fresh s)).kept = s.kept := by
      unfold txGivenUp
      rw [leave_bare hpool hcells]
      exact ⟨rfl, rfl⟩
    have heq := collision_givesUp (slots := slots) (s := fresh s) hts htx hp hn hb hnow hacc
    rw [heq, fresh_time, fresh_bitsNs, pauseAll_none (by rw [hrest.2]; exact hpause)] at hsw
    have hport := (wport_of hsw.wired e).trans (txGivenUp_wport ..)
    refine ⟨t, ht, ?_, ?_, ?_, ?_, ?_, hsw.plan.trans hrest.1⟩ <;> rw [hport] <;> rfl
  case collision =>
    intro e bits slots x s ha hts htx
    obtain ⟨t, ht, hsw⟩ := act_switch (f := fun s => pauseAll (collision e bits slots s)) ha
    obtain ⟨hport, -⟩ := (pauseAll_only (collision e bits slots (fresh s))).2 e
    rw [← wport_of hsw.wired e] at hport
    obtain ⟨hoff, hattempts⟩ := collision_port (bits := bits) (slots := slots) (s := fresh s) hts htx
    refine ⟨t, ht, ?_, ?_⟩
    · rw [hport]; exact hoff
    · rw [hport]; exact hattempts
  case restarts =>
    intro e x f s ha hf hr hp hgap hacc hx htag
    obtain ⟨t, ht, hsw⟩ := act_switch (f := csmaBackoffEnd e) ha
    obtain ⟨o, w, heq, hsent⟩ := csmaBackoffEnd_restarts (s := fresh s) hf hr hp hgap hacc hx htag
    rw [heq] at hsw
    have hport := wport_of hsw.wired e
    have hemit : ∀ y, (emit o y).wport e = y.wport e := fun _ => rfl
    rw [hemit, updPort_wport, if_pos rfl, updPort_wport, if_pos rfl] at hport
    refine ⟨t, ht, ?_, ?_, hsw.plan, hsw.mem, hsw.kept⟩
    · rw [hport]
      exact congrArg some hsent
    · rw [hport]

end Sys2Proof.Proofs
end

section
/-! PROOFS. What a wired port does with frames, pauses and low-power idle (R371 to R379) and the ageing sweeps (R389, R394): one lemma an operation
and outcome; then the statement on them. -/

namespace Sys2Proof.Proofs
open Machine Laws

/-! ### Frames received -/

/-- The frame that begins on port `e`, its first cell claimed `bits` bit times after the end of its SFD. -/
def firstRun (e bits : Nat) (s : State) : RxRun :=
  { cells := some s.mem.nextCells, stamp := ingressStamp (8 + e) 0 0 (bitsNs s e bits) s, calStale := chainStale s (8 + e) 0 0 }

/-- Port `e` receives a frame that has its first cell, `r` from its reserve and `k` from the shared pool. -/
def firstClaimed (e bits r k : Nat) (s : State) : State :=
  { s with
    mem.cells := Map.set s.mem.cells s.mem.nextCells { owner := 8 + e, account := e, reserved := r, shared := k, refs := [] }
    mem.nextCells := s.mem.nextCells + 1
    wired.ports := Map.set s.wired.ports e { s.wport e with rx := some (firstRun e bits s) } }

theorem firstClaimed_rx (e bits r k : Nat) (s : State) : ((firstClaimed e bits r k s).wport e).rx = some (firstRun e bits s) :=
  congrArg WPort.rx ((updPort_wport e e (fun p => { p with rx := some (firstRun e bits s) }) s).trans (if_pos rfl))

theorem claimFirst_claims {e bits r k : Nat} {s : State} (he : e < 24) (hw : wiredOn s = true) (hl : (s.wport e).link = 1)
    (hrx : (s.wport e).rx = none) (hc : claimSplit s e 1 = some (r, k)) : claimFirst e bits s = pauseAll (firstClaimed e bits r k s) := by
  have hsrc : portSource e = 8 + e := if_pos he
  unfold claimFirst claimCells
  dsimp only
  rw [if_neg (by simp [hw, hl, hrx]; omega), hc, hsrc]
  rfl

/-- A port on which a frame is running claims no first cell. -/
theorem claimFirst_running {e bits : Nat} {r : RxRun} {s : State} (hrx : (s.wport e).rx = some r) : claimFirst e bits s = s := by
  unfold claimFirst
  dsimp only
  rw [if_pos (by simp [hrx])]

theorem wiredFrameRx_runt {e : Nat} {w : WiredRx} {s : State} (he : e < 24) (hw : wiredOn s = true) (hl : (s.wport e).link = 1)
    (hlen : w.frame.len < 64) : wiredFrameRx e w s = portCount e cRunt s := by
  unfold wiredFrameRx
  rw [if_neg (by simp [hw, hl]; omega), if_pos hlen]

/-- A frame of one cell needs no more. -/
theorem growCells_zero {id : Nat} {c : CellSet} {s : State} (h : Map.get? s.mem.cells id = some c) :
    growCells id 0 s = some { s with mem.cells := Map.set s.mem.cells id c } := by
  have hsplit : claimSplit s c.account 0 = some (0, 0) := by simp [claimSplit]
  unfold growCells
  rw [h]
  dsimp only
  rw [hsplit]
  rfl

/-- The frame on port `e` is over and its cell, of record `id`, given back. -/
def runEnded (e id : Nat) (c : CellSet) (s : State) : State :=
  { updPort e (fun p => { p with rx := none }) s with mem.cells := Map.erase (Map.set s.mem.cells id c) id }

theorem runEnded_wport (e id : Nat) (c : CellSet) (s : State) : (runEnded e id c s).wport e = { s.wport e with rx := none } :=
  (updPort_wport e e (fun p => { p with rx := none }) s).trans (if_pos rfl)

/-- A PAUSE frame in one cell: the cell is given back and the PAUSE accepted. -/
theorem wiredFrameRx_pause {e id : Nat} {r : RxRun} {c : CellSet} {w : WiredRx} {s : State} (he : e < 16) (hw : wiredOn s = true)
    (hl : (s.wport e).link = 1) (hrx : (s.wport e).rx = some r) (hid : r.cells = some id) (hc : Map.get? s.mem.cells id = some c)
    (hcode : w.codeError = false) (hfcs : w.fcsOk = true) (hlen : w.frame.len = 64) (htype : w.frame.etherType = 0x8808) (hop : w.opcode = 1)
    (hda : w.frame.da = 0x0180C2000001) (hpr : (portCfg s e).pauseRx = true) (hmax : 64 ≤ (portCfg s e).maxFrame) :
    wiredFrameRx e w s = pauseAll (pauseRx e w.quanta (runEnded e id c s)) := by
  have hts : tsPort e = false := by simp [tsPort]; omega
  have hmore : cellsFor (min 64 ((portCfg s e).maxFrame + 1)) - 1 = 0 := by
    rw [Nat.min_eq_left (by omega)]
    rfl
  have hgrow := growCells_zero (s := updPort e (fun p => { p with rx := none }) s) hc
  unfold wiredFrameRx
  rw [if_neg (by simp [hw, hl]; omega), if_neg (by omega), claimFirst_running hrx]
  dsimp only
  rw [hrx]
  dsimp only
  rw [hid, hlen, hmore]
  simp only [hgrow]
  rw [if_neg (by simp [hcode]), if_neg (by omega), if_neg (by simp [hfcs]), if_neg (by simp), if_pos htype,
    if_pos ⟨trivial, hop, .inl hda, by simp [hts], hpr⟩]
  rfl

/-- A PAUSE accepted while nothing is being sent. -/
theorem pauseRx_idle {e quanta : Nat} {s : State} (hq : quanta ≠ 0) (htx : (s.wport e).tx = none) :
    (pauseRx e quanta s).wport e = { s.wport e with
      counts := tally (s.wport e).counts cRxPause, pauseEnd := some (s.time.mono + bitsNs s e (quanta * 512)), pauseAfter := none } := by
  have hbits : bitsNs (portCount e cRxPause s) e (quanta * 512) = bitsNs s e (quanta * 512) := by simp [bitsNs]
  unfold pauseRx
  dsimp only
  rw [updPort_wport, if_pos rfl, if_neg hq, portCount_wport, if_pos rfl, if_neg (by simp [htx]), hbits]
  rfl

/-! ### Pauses and low-power idle -/

theorem pauseEnd_past {e d : Nat} {s : State} (hd : (s.wport e).pauseEnd = some d) (hnow : d ≤ s.time.mono) (hw : s.time.acc < 2 ^ 96) :
    pauseEnd e s = wiredSelect e (updPort e (fun p => { p with pauseEnd := none }) s) := by
  unfold pauseEnd
  rw [hd]
  dsimp only
  rw [advanceMono_past hnow hw]

theorem lpiWakeEnd_past {e d : Nat} {s : State} (hd : (s.wport e).wakeEnd = some d) (hnow : d ≤ s.time.mono) (hw : s.time.acc < 2 ^ 96) :
    lpiWakeEnd e s = wiredSelect e (updPort e (fun p => { p with wakeEnd := none }) s) := by
  unfold lpiWakeEnd
  rw [hd]
  dsimp only
  rw [advanceMono_past hnow hw]

/-- A port whose link is not up is not free. -/
theorem portFree_down {e : Nat} {s : State} (hl : (s.wport e).link ≠ 1) : portFree s e = false := by simp [portFree, hl]

/-- The bytes held stay above the threshold: the PAUSE goes out again as soon as half of the pause time has passed. -/
theorem pauseRepeat_due {e : Nat} {s : State} (hx : (s.wport e).xoff = true) (hp : (portCfg s e).pauseTx = true) (hl : (s.wport e).link = 1)
    (hb : (portCfg s e).xonKb * 1024 < portBytes s e)
    (hnow : (s.wport e).xoffAt + bitsNs s e ((portCfg s e).quanta * 512) / 2 ≤ s.time.mono) (hw : s.time.acc < 2 ^ 96) :
    pauseRepeat e s = sendPause e (updPort e (fun p => { p with pauseDue := some (portCfg s e).quanta }) s) := by
  unfold pauseRepeat
  dsimp only
  rw [if_neg (by simp [hx, hp, hl]; omega), advanceMono_past hnow hw]

/-- What a port has to be to enter low-power idle, the frames apart (R378, R379). -/
structure MayIdle (e : Nat) (s : State) : Prop where
  port : e < 24
  on : wiredOn s = true
  eee : (portCfg s e).eee = true
  agreed : (s.wport e).eeeAgreed = true
  mode : eeeMode e (portCfg s e).mode (s.wport e).speed = true
  link : (s.wport e).link = 1
  tx : (s.wport e).tx = none
  lpi : (s.wport e).lpiTx = false
  wake : (s.wport e).wakeEnd = none

theorem lpiEntry_enters {e : Nat} {s y : State} (h : MayIdle e s)
    (hy : advanceMono ((s.wport e).idleFrom + (portCfg s e).lpiIdle * 1000) s = y) (hn : anyEligible y e = false) :
    lpiEntry e s = portCount e cLpiEntry (updPort e (fun p => { p with lpiTx := true }) y) := by
  have hport := h.port
  unfold lpiEntry
  dsimp only
  rw [if_neg (by simp [h.on, h.eee, h.agreed, h.mode, h.link, h.tx, h.lpi, h.wake]; omega), hy, if_neg (by simp [hn])]

/-- A paused port has no eligible frame. -/
theorem anyEligible_paused {e : Nat} {s : State} (h : (s.wport e).pauseEnd.isSome = true) : anyEligible s e = false := by
  obtain ⟨d, hd⟩ := Option.isSome_iff_exists.1 h
  simp [anyEligible, hd]

/-- A 4-byte counter incremented reads one more, up to its limit. -/
theorem tallyOf_tally (m : List (Nat × Nat)) (k : Nat) : tallyOf (tally m k) k = satInc 32 (tallyOf m k) := by
  unfold tallyOf tally Map.modify
  rw [getD_set, if_pos rfl]

/-! ### Frames sent -/

/-- What the egress unit writes into a message on the fly is told. -/
def messageTold (e : Nat) (t : WiredTx) (f : Frame) (s : State) : State :=
  match ptpFields e t.item f t.stamp s with
  | [] => s
  | l => emit (.frame (portSource e) 6 (f.id :: l)) s

/-- What is told of a frame as its last bit leaves: the message's fields, and the stamp where one is asked for. -/
def frameTold (e : Nat) (t : WiredTx) (s : State) : State :=
  match t.item.payload with
  | .eth f =>
    (match stampTag t.item f with
     | some tag => pushTsq (portSource e) t.stamp t.flags (oneStepSync t.item f) tag (messageTold e t f s)
     | none => messageTold e t f s)
  | .field _ => s

/-- The port after frame `t` that was on it has left: free, the gap of 96 bit times to go. -/
def portSent (e : Nat) (t : WiredTx) (s : State) (p : WPort) : WPort :=
  { p with
    tx := none, attempts := 0, gapEnd := s.time.mono + bitsNs s e 96, idleFrom := s.time.mono
    pauseEnd := match p.pauseAfter with | some q => some (s.time.mono + bitsNs s e (q * 512)) | none => p.pauseEnd
    pauseAfter := none
    burstUntil := if (p.plca = 1 ∨ p.plca = 2) ∧ p.extraSent < (t1sCfg s e).maxBurst
      then some (s.time.mono + bitsNs s e (t1sCfg s e).burstTimer) else none
    txDelivBytes := if t.item.ingress < 24 then
        satAdd 64 p.txDelivBytes (match t.item.payload with | .eth f => f.payload | .field _ => 0)
      else p.txDelivBytes }

/-- The state after the frame has left, before any PAUSE goes out. -/
def frameLeft (e : Nat) (t : WiredTx) (s : State) : State :=
  updPort e (portSent e t (portCount e cTxOk (leave e t.item s))) (portCount e cTxOk (leave e t.item s))

theorem wiredTxEnd_sent {e : Nat} {t : WiredTx} {s : State} (htx : (s.wport e).tx = some t) :
    wiredTxEnd e s = pauseAll (sendPause e (frameLeft e t (frameTold e t (advanceMono t.endNs s)))) := by
  unfold wiredTxEnd
  dsimp only
  rw [htx]
  rfl

theorem pushTsq_switch (src tag : Nat) (stamp : Stamp) (flags : Bool × Bool) (oneStep : Bool) (s : State) :
    SameSwitch s (pushTsq src stamp flags oneStep tag s) := by
  unfold pushTsq
  dsimp only
  split
  · exact ⟨rfl, rfl, rfl, rfl, rfl⟩
  · split <;> exact ⟨rfl, rfl, rfl, rfl, rfl⟩

theorem SameSwitch.trans {s t u : State} (h : SameSwitch s t) (h' : SameSwitch t u) : SameSwitch s u :=
  ⟨h'.wired.trans h.wired, h'.plan.trans h.plan, h'.mem.trans h.mem, h'.kept.trans h.kept, h'.mono.trans h.mono⟩

theorem messageTold_switch (e : Nat) (t : WiredTx) (f : Frame) (s : State) : SameSwitch s (messageTold e t f s) := by
  unfold messageTold
  split <;> exact ⟨rfl, rfl, rfl, rfl, rfl⟩

/-- What is told of a frame touches no port. -/
theorem frameTold_switch (e : Nat) (t : WiredTx) (s : State) : SameSwitch s (frameTold e t s) := by
  unfold frameTold
  split
  · next f _ =>
    split
    · exact (messageTold_switch e t f s).trans (pushTsq_switch ..)
    · exact messageTold_switch e t f s
  · exact ⟨rfl, rfl, rfl, rfl, rfl⟩

/-- The frame's cells given back and the frame counted, the ports but for that count are as before. -/
theorem frameLeft_wport (e : Nat) (t : WiredTx) (s : State) : ∃ y,
    (frameLeft e t s).wport e = portSent e t y { s.wport e with counts := tally (s.wport e).counts cTxOk } ∧ y.time = s.time ∧
    ∀ n, bitsNs y e n = bitsNs s e n := by
  refine ⟨portCount e cTxOk (leave e t.item s), ?_, ?_, fun n => ?_⟩
  · unfold frameLeft
    rw [updPort_wport, if_pos rfl, portCount_wport, if_pos rfl, leave_wport]
  · rw [leave_eq]
    rfl
  · unfold bitsNs
    rw [portCount_wport, if_pos rfl, leave_wport]

theorem frameLeft_time (e : Nat) (t : WiredTx) (s : State) : (frameLeft e t s).time = s.time := by
  unfold frameLeft
  rw [leave_eq]
  rfl

/-- WIRED_TX_END as its clauses speak of it: of frame `x` on the port nothing is left, and the ports, the Planisher and the memory stand where the
PAUSE that waited, and the thresholds crossed, leave them. -/
theorem wiredTxEnd_pauses {e : Nat} {x : WiredTx} {s : State} (htx : (s.wport e).tx = some x) : ∃ y,
    SameSwitch (advanceMono x.endNs s) y ∧ wiredTxEnd e s = pauseAll (sendPause e (frameLeft e x y)) ∧
    PausesOnly (frameLeft e x y) (wiredTxEnd e s) := by
  refine ⟨_, frameTold_switch e x _, wiredTxEnd_sent htx, ?_⟩
  rw [wiredTxEnd_sent htx]
  exact (sendPause_only e _).trans (pauseAll_only _)

/-- WIRED_TX_END of a frame that holds no memory, while no PAUSE waits and none is configured: the frame leaves, and only its port changes. -/
theorem wiredTxEnd_quiet {e : Nat} {x : WiredTx} {s : State} (htx : (s.wport e).tx = some x) (hnow : x.endNs ≤ s.time.mono)
    (hacc : s.time.acc < 2 ^ 96) (hpool : x.item.pool = 0) (hcells : x.item.cells = none) (hdue : (s.wport e).pauseDue = none)
    (hp : s.kept.wired.ports.all (fun y => !y.2.pauseTx) = true) :
    ∃ y w, SameSwitch s y ∧ wiredTxEnd e s = frameLeft e x y ∧ frameLeft e x y = { y with wired := w } := by
  obtain ⟨y, hy, heq, -⟩ := wiredTxEnd_pauses htx
  rw [advanceMono_past hnow hacc] at hy
  obtain ⟨z, hleft, -, -⟩ := frameLeft_wport e x y
  have hrest : frameLeft e x y = { y with wired := (frameLeft e x y).wired } := by
    unfold frameLeft
    rw [leave_bare hpool hcells]
    rfl
  have hdue' : ((frameLeft e x y).wport e).pauseDue = none := by
    rw [hleft, wport_of hy.wired]
    exact hdue
  refine ⟨y, (frameLeft e x y).wired, hy, ?_, hrest⟩
  rw [heq, sendPause_none hdue', pauseAll_none (by rw [hrest, hy.kept]; exact hp)]

/-- The frame that waited for the partner to wake starts as the wake time ends. -/
theorem lpiWoken_starts {e q : Nat} {x : Queued} {f : Frame} {s : State} (h : OneFrame e q x f s) (hw : wiredOn s = true)
    (hl : (s.wport e).link = 1) (htx : (s.wport e).tx = none) (hpe : (s.wport e).pauseEnd = none) (hplca : (s.wport e).plca = 0)
    (hretry : (s.wport e).retry = none) (hlpi : (s.wport e).lpiTx = false) (hgap : (s.wport e).gapEnd ≤ s.time.mono)
    (hacc : s.time.acc < 2 ^ 96) :
    FrameStarts e q x { s.wport e with wakeEnd := none } (updPort e (fun p => { p with wakeEnd := none }) (fresh s))
      (wiredSelect e (updPort e (fun p => { p with wakeEnd := none }) (fresh s))) := by
  have hone := h.updPort (k := e) (fun p => { p with wakeEnd := none })
  have hon : wiredOn (updPort e (fun p => { p with wakeEnd := none }) (fresh s)) = true := hw
  have hport : (updPort e (fun p => { p with wakeEnd := none }) (fresh s)).wport e = { s.wport e with wakeEnd := none } := by
    rw [updPort_wport, if_pos rfl]
    rfl
  have hfree : portFree (updPort e (fun p => { p with wakeEnd := none }) (fresh s)) e = true := by
    simp [portFree, hon, hl, htx, hpe]
  rw [wiredSelect_picks hfree (by rw [hport]; exact hplca) (by rw [hport]; exact hretry) (by rw [hport]; exact hgap) hacc, ← hport]
  exact pickFrame_frameStarts hone (by rw [hport]; exact hlpi)

/-- Settles O44: each event is put as one equation of its operation, and the clause read off it; PAUSE that other ports send meanwhile changes
nothing that the clauses speak of. -/
theorem wiredFrameEvents : Obligations.WiredFrameEvents := by
  unfold Obligations.WiredFrameEvents
  refine ⟨?claim, ?claimAny, ?runt, ?pause, ?pauseEnd, ?pauseRepeat, ?lpiEntry, ?lpiEntryAny, ?lpiWakeDown, ?lpiWake, ?txEnd, ?txEndAny, ?l2Age,
    ?flowAge⟩
  case claim =>
    intro e s ha he hw hl hrx hc hp
    refine act_becomes ha ?_
    show claimFirst e 512 (fresh s) = _
    rw [claimFirst_claims (s := fresh s) he hw hl hrx hc, pauseAll_none (s := firstClaimed e 512 1 0 (fresh s)) hp]
    rfl
  case claimAny =>
    intro e r k s ha he hw hl hrx hc
    obtain ⟨t, ht, hsw⟩ := act_switch (f := rxCellClaim e) ha
    have heq : rxCellClaim e (fresh s) = pauseAll (firstClaimed e 512 r k (fresh s)) := claimFirst_claims (s := fresh s) he hw hl hrx hc
    rw [heq] at hsw
    obtain ⟨hrest, hport⟩ := pauseAll_only (firstClaimed e 512 r k (fresh s))
    refine ⟨t, ht, ?_, ?_⟩
    · rw [wport_of hsw.wired, (hport e).1, firstClaimed_rx]
      rfl
    · rw [hsw.mem, hrest]
      exact get?_set_same ..
  case runt =>
    intro e w s ha he hw hl hlen
    refine act_becomes ha ?_
    rw [wiredFrameRx_runt (s := fresh s) he hw hl hlen]
    rfl
  case pause =>
    intro e id r c w s ha he hw hl hrx hid hc hcode hfcs hlen htype hop hda hpr hmax hq htx hp
    obtain ⟨t, ht, hsw⟩ := act_switch (f := wiredFrameRx e w) ha
    have hidle := runEnded_wport e id c (fresh s)
    have hbits : ∀ n, bitsNs (runEnded e id c (fresh s)) e n = bitsNs s e n := fun n => by unfold bitsNs; rw [hidle]; rfl
    rw [wiredFrameRx_pause (s := fresh s) he hw hl hrx hid hc hcode hfcs hlen htype hop hda hpr hmax,
      pauseAll_none (s := pauseRx e w.quanta (runEnded e id c (fresh s))) hp] at hsw
    have hport := wport_of hsw.wired e
    rw [pauseRx_idle hq (by rw [hidle]; exact htx), hidle, hbits] at hport
    refine ⟨t, ht, ?_, ?_, ?_, hsw.plan, hsw.kept⟩ <;> rw [hport] <;> rfl
  case pauseEnd =>
    intro e d s ha hd hl hnow hw
    refine act_becomes ha ?_
    rw [pauseEnd_past (s := fresh s) hd hnow hw, wiredSelect_not (portFree_down (by simp [hl]))]
    rfl
  case pauseRepeat =>
    intro e s ha hx hp hl htx hb hnow hw
    obtain ⟨t, ht, hsw⟩ := act_switch (f := pauseRepeat e) ha
    rw [pauseRepeat_due (s := fresh s) hx hp hl hb hnow hw] at hsw
    obtain ⟨hrest, -⟩ := sendPause_only e (updPort e (fun p => { p with pauseDue := some (portCfg (fresh s) e).quanta }) (fresh s))
    have hport := wport_of hsw.wired e
    rw [sendPause_wport (q := (portCfg s e).quanta) (by simp) (by simp [htx]) (by simp [hl]), updPort_wport, if_pos rfl] at hport
    refine ⟨t, ht, ?_, ?_, ?_, ?_, ?_, ?_⟩
    · rw [hport]
    · rw [hport]
      rfl
    · rw [hport]
      rfl
    · rw [hsw.mem, hrest]
      rfl
    · rw [hsw.plan, hrest]
      rfl
    · rw [hsw.kept, hrest]
      rfl
  case lpiEntry =>
    intro e s ha he hw heee hag hmode hl htx hlpi hwake hpe hnow hacc
    refine act_becomes ha ?_
    rw [lpiEntry_enters (s := fresh s) (y := fresh s) ⟨he, hw, heee, hag, hmode, hl, htx, hlpi, hwake⟩ (advanceMono_past hnow hacc)
      (anyEligible_paused hpe), portCount, updPort_updPort]
    rfl
  case lpiEntryAny =>
    intro e s y ha he hw heee hag hmode hl htx hlpi hwake hy hn
    obtain ⟨t, ht, hsw⟩ := act_switch (f := lpiEntry e) ha
    rw [lpiEntry_enters (s := fresh s) (y := fresh y) ⟨he, hw, heee, hag, hmode, hl, htx, hlpi, hwake⟩ (by rw [hy, ← advanceMono_fresh]; rfl)
      (by simp [hn])] at hsw
    have hport := wport_of hsw.wired e
    have hyport : y.wport e = s.wport e := wport_of (by rw [hy, advanceMono_wired]) e
    rw [portCount_wport, if_pos rfl, updPort_wport, if_pos rfl, fresh_wport, hyport] at hport
    refine ⟨t, ht, ?_, ?_⟩ <;> rw [hport]
    exact tallyOf_tally ..
  case lpiWakeDown =>
    intro e d s ha hd hl hnow hw
    refine act_becomes ha ?_
    rw [lpiWakeEnd_past (s := fresh s) hd hnow hw, wiredSelect_not (portFree_down (by simp [hl]))]
    rfl
  case lpiWake =>
    intro e d q x f p s ha he hw hl htx hpe hwake hnow hplca hretry hlpi hgap hacc hu hq hf hr hh hx htag hs hg
    obtain ⟨t, ht, hsw⟩ := act_switch (f := lpiWakeEnd e) ha
    rw [lpiWakeEnd_past (s := fresh s) hwake hnow hacc] at hsw
    have hstarts := (lpiWoken_starts ⟨hu, ⟨p, hq, hf⟩, hr, hh, hx, htag, hs, hg⟩ hw hl htx hpe hplca hretry hlpi hgap hacc).congr hsw
      (s' := s) rfl (by simp) rfl rfl
    obtain ⟨w, hport, -⟩ := hstarts.port
    exact ⟨t, ht, hstarts.tx, by rw [hport], hstarts.queue, hstarts.mem, hstarts.kept⟩
  case txEnd =>
    intro e x f s ha htx hnow hacc hx hstamp hpool hcells hdue hafter hplca hp
    obtain ⟨t, ht, hsw⟩ := act_switch (f := wiredTxEnd e) ha
    obtain ⟨y, w, hy, heq, hrest⟩ := wiredTxEnd_quiet (s := fresh s) htx hnow hacc hpool hcells hdue hp
    obtain ⟨z, hleft, htime, hbits⟩ := frameLeft_wport e x y
    rw [heq] at hsw
    have hport := wport_of hsw.wired e
    rw [hleft, wport_of hy.wired] at hport
    refine ⟨t, ht, ?_, ?_, ?_, ?_, ?_, ?_, ?_, ?_⟩
    · rw [hport]; rfl
    · rw [hport]; rfl
    · rw [hport]; rfl
    · rw [hport]; show z.time.mono + _ = _; rw [hbits, htime, hy.mono, bitsNs_of hy.wired]; rfl
    · rw [hport]; show z.time.mono = _; rw [htime, hy.mono]; rfl
    · rw [hsw.mem, hrest]; exact hy.mem
    · rw [hsw.plan, hrest]; exact hy.plan
    · rw [hsw.kept, hrest]; exact hy.kept
  case txEndAny =>
    intro e x s ha htx
    obtain ⟨t, ht, hsw⟩ := act_switch (f := wiredTxEnd e) ha
    obtain ⟨y, hy, -, hpauses⟩ := wiredTxEnd_pauses (s := fresh s) htx
    obtain ⟨z, hleft, htime, -⟩ := frameLeft_wport e x y
    obtain ⟨hsame, hidle⟩ := hpauses.2 e
    rw [← wport_of hsw.wired e, hleft] at hsame hidle
    have hmono : y.time.mono = (advanceMono x.endNs s).time.mono := by
      rw [hy.mono, advanceMono_fresh, fresh_time]
    refine ⟨t, ht, ?_, ?_, ?_, ?_⟩
    · rw [hsame]; rfl
    · rw [hsame]; rfl
    · rw [hsame]; rfl
    · rw [← hmono]
      rcases hidle with h | h
      · rw [h, ← htime]
        rfl
      · rw [h, frameLeft_time]
  case l2Age =>
    intro s ha hage hdue
    refine act_becomes ha ?_
    unfold l2AgeSweep
    dsimp only
    rw [fresh_kept, fresh_beat, fresh_wired, if_neg (by omega)]
    rfl
  case flowAge =>
    intro s ha hdue
    refine act_becomes ha ?_
    unfold flowAgeSweep
    rw [fresh_kept, fresh_beat, fresh_wired, if_neg (by omega)]
    rfl

end Sys2Proof.Proofs
end

section
/-! PROOFS. The commands of area 0x04 for the wired ports and for bridging (R361, R367, R380, R390): what the work of each does, one lemma a command
and outcome; then the statement on them. -/

namespace Sys2Proof.Proofs
open Machine Laws

/-! ### WIRED_PORT_SET -/

/-- The settings of a wired port that WIRED_PORT_SET carries (Table 8-11); a wired port has neither the PVIDs of a radio's BSSs nor the host port's
ring map. -/
def portCfgOf (c : Cmd) : WPortCfg :=
  { mode := c.u 17 1, fec := c.u 18 1, an := hasBit (c.u 19 1) 0, eee := hasBit (c.u 19 1) 1, pauseRx := hasBit (c.u 19 1) 2
    pauseTx := hasBit (c.u 19 1) 3, learn := hasBit (c.u 19 1) 4, sTag := hasBit (c.u 19 1) 5, dscpTrust := hasBit (c.u 19 1) 6
    deiIn := hasBit (c.u 19 1) 7, maxFrame := c.u 20 2, pvid := c.u 22 2, accept := c.u 24 1, ingressFilter := c.flag 25 1 0
    state := c.u 26 1, defaultClass := c.u 27 1, xoffKb := c.u 28 2, xonKb := c.u 30 2, quanta := c.u 32 2, lpiIdle := c.u 34 2
    twMin := c.u 36 2, phyad := c.u 38 1 }

/-- WIRED_PORT_SET of a BH port in MODE 2 within the limits of Table 8-11: it is staged, or DENIED where the spanning tree holds the port in another
STATE. -/
theorem wiredPortSet_bh {c : Cmd} {id : Nat} {s : State} (he : c.u 16 1 < 4) (hm : c.u 17 1 = 2) (hfec : c.u 18 1 ≤ 1)
    (hxon : c.u 30 2 + 4 ≤ c.u 28 2) (hmap : c.u 40 16 = 0) :
    wiredPortSet.run c id s =
      if hasBit s.next.wired.switch.rstp (c.u 16 1) = true ∧ c.u 26 1 ≠ (Map.getD s.next.wired.ports (c.u 16 1) {}).state then
        (s, .reply (denied 45))
      else (stageKept (fun k => { k with wired.ports := Map.set k.wired.ports (c.u 16 1) (portCfgOf c) }) s, .reply (ok)) := by
  have hmode : modeOk (c.u 16 1) 2 = true := by simp [modeOk, he]
  have hfec' : fecOk 2 (c.u 18 1) = true := by simp [fecOk]; omega
  have hts : tsPort (c.u 16 1) = false := by simp [tsPort]; omega
  have h24 : ¬ (c.u 16 1 = 24 ∨ c.u 16 1 = 25) := by omega
  have h27 : c.u 16 1 ≠ 27 := by omega
  have hlt : c.u 16 1 < 24 := by omega
  unfold wiredPortSet
  dsimp only
  rw [hm, hmode, hfec', hts, if_neg (by decide), if_neg (by decide), if_neg (by simp), if_neg (by simp), if_neg (by omega), if_neg (by omega),
    if_neg h24, if_neg h27, if_neg (by simp [hmap]), if_neg h24, if_neg h27]
  unfold portCfgOf
  rw [hm]
  simp only [hlt, true_and]

/-! ### WIRED_PORT_STATUS -/

/-- The answer of WIRED_PORT_STATUS for a port whose pause has `w` ns to go (Table 8-12). -/
def portStatusBytes (s : State) (e w : Nat) : List Byte :=
  le 1 (s.wport e).link ++ le 1 (if (s.wport e).link = 0 then modeSpeed (portCfg s e).mode 0 else (s.wport e).speed) ++
    le 1 (fieldsWord [(0, bit (decide (w ≠ 0))), (1, bit (s.wport e).xoff)]) ++
    le 1 (fieldsWord [(0, bit (s.wport e).lpiTx), (1, bit (s.wport e).lpiRx), (2, bit (s.wport e).eeeAgreed)]) ++ le 2 (twTx s e) ++
    le 2 (defaultTw (portCfg s e).mode (s.wport e).speed) ++ le 1 (s.wport e).plca ++ le 3 0 ++ le 4 (min w 0xFFFFFFFF) ++
    le 4 (s.wport e).linkChanges

/-- What is left of a port's pause, in ns. -/
def pauseLeft (s : State) (e : Nat) : Nat :=
  match (s.wport e).pauseEnd with
  | some t => t - s.time.mono
  | none => 0

theorem wiredPortStatus_answers (c : Cmd) (id : Nat) (s : State) :
    wiredPortStatus.run c id s = (s, .reply (ok (portStatusBytes s (c.u 16 1) (pauseLeft s (c.u 16 1))))) := rfl

/-! ### WIRED_SWITCH_CONFIG -/

/-- WIRED_SWITCH_CONFIG with an L2 age of 0, or within its range, is staged. -/
theorem wiredSwitchConfig_staged {c : Cmd} {id : Nat} {s : State} (hage : c.u 16 4 = 0 ∨ 10000 ≤ c.u 16 4 ∧ c.u 16 4 ≤ 4000000) :
    wiredSwitchConfig.run c id s = (stageKept (fun k => { k with
      wired.switch := { l2Age := c.u 16 4, flowAge := c.u 20 4, rstp := c.u 24 4, route := c.flag 28 1 0 } }) s, .reply (ok)) :=
  if_neg (by omega)

theorem wiredSwitchConfig_badAge {c : Cmd} {id : Nat} {s : State} (h0 : c.u 16 4 ≠ 0) (hage : c.u 16 4 < 10000 ∨ 4000000 < c.u 16 4) :
    wiredSwitchConfig.run c id s = (s, .reply (badArg 16)) :=
  if_pos ⟨h0, hage⟩

/-! ### WIRED_L2_SET -/

/-- The static entry that WIRED_L2_SET carries (Table 8-8). -/
def l2EntryOf (c : Cmd) : L2Entry :=
  { mac := macAt c 16, vid := c.u 22 2, destKind := c.u 24 1, static := true, hit := c.flag 25 1 2, classOvr := c.flag 25 1 3
    dest := c.u 26 2, policer := c.u 28 2, cls := c.u 30 1 }

/-- The answer of WIRED_L2_SET: the bucket of the key, and the way of table index `i`. -/
def l2Answer (c : Cmd) (i : Nat) : Reply := ok (le 2 (l2Bucket (macAt c 16) (c.u 22 2)) ++ le 1 (i % 4) ++ [0])

/-- Table index `i` emptied: neither a static nor a learned entry stands in it. -/
def l2Dropped (i : Nat) (s : State) : State :=
  setKept (fun k => { k with wired.statics := Map.erase k.wired.statics i }) { s with wired.learned := Map.erase s.wired.learned i }

/-- WIRED_L2_SET of a key that is not there: the entry takes the first free way of its bucket. -/
theorem wiredL2Set_new {c : Cmd} {id i : Nat} {s : State} (hdest : destOk (c.u 24 1) (c.u 26 2) = true) (hpol : c.u 28 2 ≤ 1023)
    (hvalid : c.flag 25 1 0 = true) (hfind : l2Find s (macAt c 16) (c.u 22 2) = none)
    (hfree : l2Free s (l2Bucket (macAt c 16) (c.u 22 2)) = some i) :
    wiredL2Set.run c id s =
      (setKept (fun k => { k with wired.statics := Map.set k.wired.statics i (l2EntryOf c) }) (l2Dropped i s), .reply (l2Answer c i)) := by
  unfold wiredL2Set
  dsimp only
  rw [hdest, if_neg (by decide), if_neg (by omega), hvalid, if_neg (by decide), hfind, hfree]
  rfl

/-- WIRED_L2_SET without VALID: the entry found goes. -/
theorem wiredL2Set_drops {c : Cmd} {id i : Nat} {s : State} (hdest : destOk (c.u 24 1) (c.u 26 2) = true) (hpol : c.u 28 2 ≤ 1023)
    (hvalid : c.flag 25 1 0 = false) (hfind : l2Find s (macAt c 16) (c.u 22 2) = some i) :
    wiredL2Set.run c id s = (l2Dropped i s, .reply (l2Answer c i)) := by
  unfold wiredL2Set
  dsimp only
  rw [hdest, if_neg (by decide), if_neg (by omega), hvalid, if_pos (by decide), hfind]
  rfl

/-! ### The statement -/

/-- What a command that READY serves at once does, where its work changes the L2 table alone and answers. -/
theorem ready_l2_ended {op : Nat} {h : Handler} {c : Cmd} {s : State} {f : Kept → Kept} {m : List (Nat × L2Entry)} {r : Reply}
    (ha : readyFor c s = true) (hf : goodTable h.fields c = true)
    (hr : h.run c s.stw.nextJob (taken op c s) = (setKept f { taken op c s with wired.learned := m }, .reply r)) :
    ∃ t, act (submit op h c) s = .next t ∧ ended op c s r (setKept f { s with wired.learned := m }) t :=
  ready_ended ha hf (by rw [hr]) (by rw [hr]; rfl) (by rw [hr]; simp [sameParts, setKept])

/-- Settles O45: the work of each command is the lemma above that names its outcome, and READY answers it at once (`ready_answers`,
`ready_l2_ended`). -/
theorem wiredCommandsComplete : Obligations.WiredCommandsComplete := by
  unfold Obligations.WiredCommandsComplete
  refine ⟨?port, ?rstp, ?statusUp, ?status, ?t1s, ?switch, ?switchBad, ?vlan, ?group, ?l2New, ?l2Drop⟩
  case port =>
    intro c s ha hf he hm hfec hxon hmap hrstp
    have hfree : ¬ (hasBit s.next.wired.switch.rstp (c.u 16 1) = true ∧ c.u 26 1 ≠ (Map.getD s.next.wired.ports (c.u 16 1) {}).state) := by
      simp [hrstp, hasBit]
    have hput := (wiredPortSet_bh (id := s.stw.nextJob) (s := taken 0x0401 c s) he hm hfec hxon hmap).trans (if_neg hfree)
    unfold portCfgOf at hput
    rw [hm] at hput
    exact ready_answers ha hf hput
  case rstp =>
    intro c s ha hf he hm hfec hxon hmap hrstp hstate
    refine ready_answers ha hf ((wiredPortSet_bh (s := taken 0x0401 c s) (by omega) hm hfec hxon hmap).trans (if_pos ?_))
    rw [he]
    exact ⟨hrstp, hstate⟩
  case statusUp =>
    intro c s ha hf hup hpause
    refine ready_answers ha hf ((wiredPortStatus_answers c s.stw.nextJob (taken 0x0402 c s)).trans ?_)
    have hleft : pauseLeft (taken 0x0402 c s) (c.u 16 1) = 0 := by
      unfold pauseLeft
      rw [show ((taken 0x0402 c s).wport (c.u 16 1)).pauseEnd = none from hpause]
    have hlink : ((taken 0x0402 c s).wport (c.u 16 1)).link = 1 := hup
    unfold portStatusBytes
    rw [hleft, hlink]
    rfl
  case status =>
    intro c p w s ha hf hp hw
    subst hp hw
    exact ready_answers ha hf (wiredPortStatus_answers c s.stw.nextJob (taken 0x0402 c s))
  case t1s =>
    intro c s ha hf
    exact ready_answers ha hf rfl
  case switch =>
    intro c s ha hf hage
    exact ready_answers ha hf (wiredSwitchConfig_staged hage)
  case switchBad =>
    intro c s ha hf h0 hage
    exact ready_answers ha hf (wiredSwitchConfig_badAge (s := taken 0x0404 c s) h0 hage)
  case vlan =>
    intro c s ha hf
    exact ready_answers ha hf rfl
  case group =>
    intro c s ha hf
    exact ready_answers ha hf rfl
  case l2New =>
    intro c i s ha hf hdest hpol hvalid hfind hfree
    exact ready_l2_ended ha hf (wiredL2Set_new (s := taken 0x0407 c s) hdest hpol hvalid hfind hfree)
  case l2Drop =>
    intro c i s ha hf hdest hpol hvalid hfind
    exact ready_l2_ended ha hf (wiredL2Set_drops (s := taken 0x0407 c s) hdest hpol hvalid hfind)

end Sys2Proof.Proofs
end

section
/-! PROOFS. A statement on the commands of routing that says too much: WIRED_FLOW_SET carries the transport ports of a flow in medium order (R13). -/

namespace Sys2Proof.Proofs
open Machine Laws

/-- The IPv4 flow that WIRED_FLOW_SET carries (Table 8-15): its transport ports and its addresses in medium order. -/
def flowOf (c : Cmd) : Flow :=
  { v6 := false, proto := c.u 17 1, vid := c.u 18 2, sport := portAt c 20, dport := portAt c 22, src := leNat (c.bytesAt 24 4).reverse
    dst := leNat (c.bytesAt 40 4).reverse, nh := c.u 56 2, policer := c.u 58 2, classOvr := c.flag 16 1 2, cls := c.u 60 1 }

/-- WIRED_FLOW_SET of the first flow of all, over IPv4 and without a policer: it takes the first place of its bucket. -/
theorem wiredFlowSet_first {c : Cmd} {id : Nat} {s : State} (hvalid : c.flag 16 1 0 = true) (hv4 : c.flag 16 1 1 = false)
    (hsrc : c.u 28 12 = 0) (hdst : c.u 44 12 = 0) (hpol : c.u 58 2 = 0xFFFF) (hnone : s.wired.flows = []) :
    wiredFlowSet.run c id s = ({ s with wired.flows := [(4 * flowBucket (flowOf c), flowOf c)] },
      .reply (ok (le 2 (4 * flowBucket (flowOf c)) ++ [0, 0]))) := by
  unfold wiredFlowSet
  dsimp only
  rw [hv4, if_neg (by simp [hsrc]), if_neg (by simp [hdst]), if_neg (by simp [hpol]), hvalid, hnone]
  rfl

/-- The wired chapter outside its settings, when a command has ended, is as its work left it. -/
theorem ended_wired {op : Nat} {c : Cmd} {s u t : State} {r : Reply} (h : ended op c s r u t) : t.wired = u.wired := by
  obtain ⟨-, -, ht⟩ := h
  rw [ht]

/-- READY with lane 0 claimed and no flow. -/
def noFlowsYet : State :=
  { State.reset with
    boot.stage := 8
    stw.state := .ready
    stw.lanes := Bank.modify State.reset.stw.lanes 0 (fun l => { l with claimed := true }) }

/-- WIRED_FLOW_SET of an IPv4 flow on VLAN 1 from source port 256, in slot 0 of lane 0: the bytes of the port are 1, 0. -/
def flowFromPort256 : Cmd :=
  { lane := 0, slot := 0, length := 64, body := [1, 17, 1, 0, 1, 0] ++ List.replicate 36 0 ++ [0xFF, 0xFF, 0, 0, 0, 0] }

/-- Refutes O46 in its clause on WIRED_FLOW_SET of a new IPv4 flow. The clause reads the flow's source and destination port as little-endian numbers;
but transport ports stand in a command in medium order, the more significant byte first (R13). `flowFromPort256` makes a flow from port 256, where
the clause asks for one from port 1. -/
theorem not_wiredRoutingCommandsComplete : ¬ Obligations.WiredRoutingCommandsComplete := by
  unfold Obligations.WiredRoutingCommandsComplete
  rintro ⟨-, -, -, -, -, hflow, -⟩
  have hready : readyFor flowFromPort256 noFlowsYet = true := by decide
  have htable : goodTable wiredFlowSet.fields flowFromPort256 = true := by decide
  obtain ⟨t, ht, hasked⟩ := hflow flowFromPort256 _ noFlowsYet hready htable (by decide) (by decide) (by decide) (by decide) (by decide) rfl rfl
  obtain ⟨t', ht', hmade⟩ := ready_answers (op := 0x040C)
    (u := { noFlowsYet with wired.flows := [(4 * flowBucket (flowOf flowFromPort256), flowOf flowFromPort256)] }) hready htable
    (wiredFlowSet_first (s := taken 0x040C flowFromPort256 noFlowsYet) (by decide) (by decide) (by decide) (by decide) (by decide) rfl)
  injection ht.symm.trans ht' with heq
  subst heq
  have hports := congrArg (fun w : Wired => w.flows.map (fun e => e.2.sport)) ((ended_wired hmade).symm.trans (ended_wired hasked))
  revert hports
  decide

end Sys2Proof.Proofs
end

section
/-! PROOFS. The commands of area 0x08 (R401, R404, R405, R409, R412, R424, R427, R433, R434): what the work of each does, one lemma a command and
outcome; then the statement on them. -/

namespace Sys2Proof.Proofs
open Machine Laws

/-! ### MEM_CONFIG -/

/-- The configuration that MEM_CONFIG carries (Table 9-10). -/
def memConfigOf (c : Cmd) : MemConfig :=
  { type := c.u 16 1, ranks := c.u 17 1, rate := c.u 18 2, gb := c.u 20 1, grain := c.u 21 1, ecc := c.flag 22 1 0 }

/-- MEM_CONFIG of the devices detected, at a rate of their type, is staged, and answered with them (R401). -/
theorem memConfig_staged {c : Cmd} {id : Nat} {d : MemConfig} {s : State} (hd : s.mem.detected.getD {} = d) (ht : c.u 16 1 = d.type)
    (hk : c.u 17 1 = d.ranks) (hr : rateOk (c.u 16 1) (c.u 18 2) = true) (hg : c.u 20 1 = d.gb) :
    memConfig.run c id s = (stageKept (fun k => { k with mem.config := some (memConfigOf c) }) s,
      .reply (ok (le 1 d.type ++ le 1 d.ranks ++ le 1 d.gb ++ [0]))) := by
  subst hd
  exact (if_neg (not_not_intro ht)).trans ((if_neg (not_not_intro hk)).trans ((if_neg (by simp [hr])).trans (if_neg (not_not_intro hg))))

/-- MEM_CONFIG of another TYPE than the one detected. -/
theorem memConfig_badType {c : Cmd} {id : Nat} {s : State} (ht : c.u 16 1 ≠ (s.mem.detected.getD {}).type) :
    memConfig.run c id s = (s, .reply (badArg 16)) := if_pos ht

/-! ### MEM_POOL_SET -/

/-- The pools that MEM_POOL_SET carries (Table 9-2). -/
def poolsOf (c : Cmd) : Pools :=
  { queueMb := c.u 16 4, psMb := c.u 20 4, ringMb := c.u 24 4, captureMb := c.u 28 4, psW1Pct := c.u 32 1 }

/-- Pools of whole 64 MB that leave STEWARD `m` MB, 512 or more, are staged (R405). -/
theorem memPoolSet_staged {c : Cmd} {id m : Nat} {s : State}
    (hq : c.u 16 4 % 64 = 0) (hp : c.u 20 4 % 64 = 0) (hr : c.u 24 4 % 64 = 0) (hc : c.u 28 4 % 64 = 0)
    (hm : stewardMb (s.next.mem.config.getD (s.mem.detected.getD {})) (poolsOf c) = some m) (h512 : 512 ≤ m) :
    memPoolSet.run c id s = (stageKept (fun k => { k with mem.pools := poolsOf c }) s, .reply (ok (le 4 m))) := by
  have hgrain : [16, 20, 24, 28].find? (fun o => decide (c.u o 4 % 64 ≠ 0)) = none := by simp [hq, hp, hr, hc]
  unfold poolsOf at hm ⊢
  unfold memPoolSet
  dsimp only
  rw [hgrain]
  dsimp only
  rw [hm]
  exact if_neg (by omega)

/-! ### MEM_CELL_SET -/

/-- The settings of cell accounts with those that MEM_CELL_SET carries for one account (R424). -/
def cellsPut (c : Cmd) (s : State) : List (Nat × (Nat × Nat)) := Map.set s.next.mem.cells (c.u 16 1) (c.u 18 2, c.u 20 4)

/-- MEM_CELL_SET of one account is staged, or refused where it takes the sum of the reserves above 32,768 cells. -/
theorem memCellSet_one {c : Cmd} {id : Nat} {s : State} (ha : c.u 16 1 ≤ 28) :
    memCellSet.run c id s =
      if reserveSum (cellsPut c s) > 32768 ∧ reserveSum (cellsPut c s) > reserveSum s.next.mem.cells then (s, .reply (badArg 18))
      else (stageKept (fun k => { k with mem.cells := cellsPut c s }) s, .reply (ok)) := by
  have hone : (if c.u 16 1 = 0xFF then List.range 29 else [c.u 16 1]) = [c.u 16 1] := if_neg (by omega)
  unfold memCellSet
  dsimp only
  rw [hone]
  rfl

/-! ### MEM_PORT_SET -/

/-- A number within its range is neither below nor above it. -/
theorem not_outside {x lo hi : Nat} (h : lo ≤ x ∧ x ≤ hi) : ¬ (x < lo ∨ x > hi) := by omega

/-- The settings of a real-time port with the panic threshold that MEM_PORT_SET carries (R409). -/
def panicPut (c : Cmd) (s : State) : PortSet := { Map.getD s.next.mem.ports (c.u 16 1) { weight := 2 } with panicPct := c.u 17 1 }

/-- The settings of the queue engine's port with the weight and the lease that MEM_PORT_SET carries (R410, R412). -/
def leasePut (c : Cmd) (s : State) : PortSet :=
  { Map.getD s.next.mem.ports 6 { weight := 4 } with weight := c.u 18 1, leaseUs := c.u 20 2 }

/-- MEM_PORT_SET of a real-time port stages its panic threshold, whatever its other fields hold. -/
theorem memPortSet_panic {c : Cmd} {id : Nat} {s : State} (hp : c.u 16 1 ≤ 5) (hpct : 20 ≤ c.u 17 1 ∧ c.u 17 1 ≤ 70) :
    memPortSet.run c id s = (stageKept (fun k => { k with mem.ports := Map.set k.mem.ports (c.u 16 1) (panicPut c s) }) s, .reply (ok)) := by
  have hcold : (if c.u 16 1 = 6 then 4 else 2) = 2 := if_neg (by omega)
  unfold panicPut
  rw [← hcold]
  exact (if_pos hp).trans (if_neg (not_outside hpct))

/-- MEM_PORT_SET of the queue engine's port stages its weight and its lease. -/
theorem memPortSet_lease {c : Cmd} {id : Nat} {s : State} (hp : c.u 16 1 = 6) (hw : 1 ≤ c.u 18 1 ∧ c.u 18 1 ≤ 16)
    (hl : 20 ≤ c.u 20 2 ∧ c.u 20 2 ≤ 5000) :
    memPortSet.run c id s = (stageKept (fun k => { k with mem.ports := Map.set k.mem.ports 6 (leasePut c s) }) s, .reply (ok)) := by
  unfold memPortSet
  dsimp only
  rw [hp]
  exact (if_neg (by decide)).trans ((if_neg (not_outside hw)).trans (if_neg (not_outside hl)))

/-! ### MEM_RING_SET and MEM_RING_READ -/

/-- A ring as MEM_RING_SET enables it: its settings, and nothing taken or owed yet (R427, R431). -/
def ringEnabled (c : Cmd) (g : Ring) : Ring :=
  { g with on := true, notify := c.flag 17 1 1, entries := c.u 18 2, pollUs := c.u 20 2, statusUs := c.u 22 2, base := c.u 24 8
           statusAddr := c.u 32 8, nextIdx := 0, deviceHeld := 0, open' := none, statusDue := false, statusAt := none }

/-- MEM_RING_SET of a host ring that is off, from lane 0 and within the limits of Table 9-6, enables it at once. -/
theorem memRingSet_enables {c : Cmd} {id : Nat} {s : State} (hl : c.lane = 0) (hr : hostRing (c.u 16 1) = true) (hen : c.flag 17 1 0 = true)
    (hn : [64, 128, 256, 512, 1024, 2048, 4096].contains (c.u 18 2) = true) (hpoll : 5 ≤ c.u 20 2 ∧ c.u 20 2 ≤ 1000)
    (hst : 1 ≤ c.u 22 2 ∧ c.u 22 2 ≤ 1000) (hbase : c.u 24 8 % 64 = 0) (hoff : (s.ring (c.u 16 1)).on = false) :
    memRingSet.run c id s = (updRing (c.u 16 1) (ringEnabled c) s, .reply (ok)) := by
  refine (if_neg (not_not_intro hl)).trans ((if_neg (by simp [hr])).trans ((if_neg (by simp [hen])).trans ((if_neg (by rw [hn]; decide)).trans ?_)))
  refine (if_neg (not_outside hpoll)).trans ((if_neg (not_outside hst)).trans ((if_neg (not_not_intro hbase)).trans ?_))
  exact if_neg (by simp [hoff])

/-- MEM_RING_SET without ENABLE disables a ring that is on, whatever its other fields hold (R427). -/
theorem memRingSet_disables {c : Cmd} {id : Nat} {s : State} (hl : c.lane = 0) (hr : hostRing (c.u 16 1) = true) (hen : c.flag 17 1 0 = false)
    (hon : (s.ring (c.u 16 1)).on = true) : memRingSet.run c id s = (disableRing (c.u 16 1) s, .reply (ok)) := by
  refine (if_neg (not_not_intro hl)).trans ((if_neg (by simp [hr])).trans ((if_pos (by simp [hen])).trans ?_))
  rw [if_pos hon]

/-- MEM_RING_SET from another lane than lane 0. -/
theorem memRingSet_denied {c : Cmd} {id : Nat} {s : State} (hl : c.lane ≠ 0) : memRingSet.run c id s = (s, .reply (denied)) := if_pos hl

/-- The answer of MEM_RING_READ for ring `r` (R433). -/
def ringBytes (s : State) (r : Nat) : List Byte :=
  le 2 (s.ring r).nextIdx ++ le 1 (bit (s.ring r).on) ++ [0] ++ le 2 (s.ring r).deviceHeld ++ le 4 (s.ring r).dry ++ le 4 (s.ring r).offDrop

theorem memRingRead_answers {c : Cmd} {id : Nat} {s : State} (hr : ringExists (c.u 16 1) = true) :
    memRingRead.run c id s = (s, .reply (ok (ringBytes s (c.u 16 1)))) := if_neg (by simp [hr])

/-! ### MEM_STATUS -/

/-- What MEM_STATUS tells of DRAM channel `k`. -/
def channelBytes (s : State) (k : Nat) : List Byte :=
  le 2 s.mem.config.rate ++ le 1 (s.channel k).m ++ le 1 (s.channel k).stale ++ leInt 2 (s.channel k).temp ++ le 10 0

/-- Whole megabytes of pool `p` to which nothing is charged. -/
def freeMb (s : State) (p : Nat) : Nat := (poolBytes s p - poolUsed s p) / 2 ^ 20

/-- The answer of MEM_STATUS with `a` MB of STEWARD and `b` MB of RING free. -/
def memStatusBytes (s : State) (a b : Nat) : List Byte :=
  channelBytes s 0 ++ channelBytes s 1 ++ le 4 a ++ le 4 (freeMb s 1) ++ le 4 (freeMb s 2 + freeMb s 3) ++ le 4 b ++ le 4 (freeMb s 5) ++
    le 4 (65536 - cellsUsed s)

/-- MEM_STATUS draws the two values that no rule accounts for, each within its pool. -/
theorem memStatus_draws (c : Cmd) (id : Nat) (s : State) :
    memStatus.run c id s = ({ s with draws := s.draws + 2 }, .reply (ok (memStatusBytes s
      (Config.freeNat s.draws % ((stewardMb s.mem.config s.mem.pools).getD 0 + 1))
      (Config.freeNat (s.draws + 1) % (s.mem.pools.ringMb + 1))))) := rfl

/-! ### MEM_COUNTERS -/

/-- The answer of MEM_COUNTERS for DRAM port `p`: the sticky flags, and of the counters those of a port (Table 9-11). -/
def portCounterBytes (s : State) (p : Nat) : List Byte :=
  le 1 (memSticky s) ++ [0, 0, 0] ++ List.replicate 20 0 ++ le 4 (s.dport p).panicCnt ++ le 4 (s.dport p).underrun ++
    le 4 (s.dport p).overflow ++ le 4 (s.dport p).expire ++ List.replicate 28 0

/-- Of the 16 counters of Table 9-11 a port has the four at offsets 40 to 52; the others read 0. -/
theorem portScope_bytes (a b x y : Nat) :
    ((List.range 16).map (fun i => le 4 (Map.getD [(40, a), (44, b), (48, x), (52, y)] (20 + 4 * i) 0))).flatten =
      List.replicate 20 0 ++ (le 4 a ++ (le 4 b ++ (le 4 x ++ (le 4 y ++ List.replicate 28 0)))) := by
  have hvals : (List.range 16).map (fun i => Map.getD [(40, a), (44, b), (48, x), (52, y)] (20 + 4 * i) 0) =
      [0, 0, 0, 0, 0, a, b, x, y, 0, 0, 0, 0, 0, 0, 0] := rfl
  have hmap := congrArg (fun l : List Nat => (l.map (le 4)).flatten) hvals
  rw [List.map_map] at hmap
  exact hmap

/-- The memory's sticky flags but for those that `w` clears. -/
def stickyCleared (w : Nat) (s : State) : State :=
  { s with mem.eccUeStk := s.mem.eccUeStk && !hasBit w 0, mem.ringDryStk := s.mem.ringDryStk && !hasBit w 1
           mem.rtFaultStk := s.mem.rtFaultStk && !hasBit w 2 }

/-- Bits 0 and 2 clear the flags of uncorrectable errors and of real-time faults. -/
theorem stickyCleared_five (s : State) : stickyCleared 5 s = { s with mem.eccUeStk := false, mem.rtFaultStk := false } := by
  have hclear : ∀ b : Bool, (b && !hasBit 5 0) = false := fun b => Bool.and_false b
  have hkeep : ∀ b : Bool, (b && !hasBit 5 1) = b := fun b => Bool.and_true b
  unfold stickyCleared
  rw [hclear, hkeep, show hasBit 5 2 = hasBit 5 0 from rfl, hclear]

/-- DRAM port `p` with its counters cleared. -/
def portCleared (p : Nat) (s : State) : State :=
  updDport p (fun d => { d with panicCnt := 0, underrun := 0, overflow := 0, expire := 0 }) s

/-- The counters of a DRAM port are those of its scope (R434). -/
theorem memScope_port {p sel : Nat} {s : State} (hp : sel = p + 2) (h8 : p ≤ 8) : memScope s sel =
    [(40, (s.dport p).panicCnt), (44, (s.dport p).underrun), (48, (s.dport p).overflow), (52, (s.dport p).expire)] := by
  subst hp
  exact if_pos (by omega)

theorem memClear_port {p sel : Nat} {s : State} (hp : sel = p + 2) (h8 : p ≤ 8) : memClear sel s = portCleared p s := by
  subst hp
  exact (if_neg (by omega)).trans ((if_neg (by omega)).trans (if_pos (by omega)))

/-- MEM_COUNTERS of a DRAM port, with a clear of its counters and of two sticky bits. -/
theorem memCounters_cleared {c : Cmd} {id p : Nat} {s : State} (hp : c.u 16 1 = p + 2) (h8 : p ≤ 8) (hf : c.u 17 1 = 3) (hk : c.u 18 1 = 5) :
    memCounters.run c id s =
      ({ portCleared p s with mem.eccUeStk := false, mem.rtFaultStk := false }, .reply (ok (portCounterBytes s p))) := by
  have hclear : c.flag 17 1 0 = true := by unfold Cmd.flag; rw [hf]; rfl
  have hsticky : c.flag 17 1 1 = true := by unfold Cmd.flag; rw [hf]; rfl
  have hbytes : le 1 (memSticky s) ++ [0, 0, 0] ++
      ((List.range 16).map (fun i => le 4 (Map.getD (memScope s (c.u 16 1)) (20 + 4 * i) 0))).flatten = portCounterBytes s p := by
    rw [memScope_port hp h8, portScope_bytes]
    unfold portCounterBytes
    simp only [List.append_assoc]
  have hcounters : (if c.flag 17 1 0 = true then memClear (c.u 16 1) s else s) = portCleared p s := (if_pos hclear).trans (memClear_port hp h8)
  have hflags := (congrArg (stickyCleared (c.u 18 1)) hcounters).trans (hk ▸ stickyCleared_five (portCleared p s))
  rw [← hbytes]
  exact (if_neg (by omega)).trans (congrArg (·, _) ((if_pos hsticky).trans hflags))

/-! ### The statement -/

/-- Settles O47: the work of each command is the lemma above that names its outcome, and READY answers it at once (`ready_answers`). -/
theorem memoryCommandsComplete : Obligations.MemoryCommandsComplete := by
  unfold Obligations.MemoryCommandsComplete
  refine ⟨?config, ?configBad, ?pools, ?cells, ?cellsBad, ?portPanic, ?portLease, ?ringOn, ?ringOff, ?ringDenied, ?ringRead, ?status,
    ?counters⟩
  case config =>
    intro c s ha hf hd ht hk hr hg
    have hput := memConfig_staged (id := s.stw.nextJob) (s := taken 0x0801 c s) (d := {}) (by rw [taken_mem, hd]; rfl) ht hk (by rw [ht, hr]) hg
    unfold memConfigOf at hput
    rw [ht, hk, hg] at hput
    exact ready_answers ha hf hput
  case configBad =>
    intro c s ha hf hd ht
    exact ready_answers ha hf (memConfig_badType (by rw [taken_mem, hd, ht]; decide))
  case pools =>
    intro c m s ha hf hq hp hr hc hm h512
    exact ready_answers ha hf (memPoolSet_staged (s := taken 0x0802 c s) hq hp hr hc hm h512)
  case cells =>
    intro c s ha hf hacc hsum
    exact ready_answers ha hf ((memCellSet_one (s := taken 0x0803 c s) hacc).trans (if_neg (fun h => absurd h.1 (Nat.not_lt.2 hsum))))
  case cellsBad =>
    intro c s ha hf hacc hsum hwas
    exact ready_answers ha hf ((memCellSet_one (s := taken 0x0803 c s) hacc).trans (if_pos ⟨hsum, Nat.lt_of_le_of_lt hwas hsum⟩))
  case portPanic =>
    intro c s ha hf hp hpct
    exact ready_answers ha hf (memPortSet_panic hp hpct)
  case portLease =>
    intro c s ha hf hp hw hl
    exact ready_answers ha hf (memPortSet_lease hp hw hl)
  case ringOn =>
    intro c s ha hf hl hr hen hn hpoll hst hbase hoff
    have hput := memRingSet_enables (id := s.stw.nextJob) (s := taken 0x0805 c s) hl hr hen (by rw [hn]; rfl) hpoll hst hbase hoff
    unfold ringEnabled at hput
    rw [hn] at hput
    exact ready_answers ha hf hput
  case ringOff =>
    intro c s ha hf hl hr hen hon
    exact ready_answers ha hf (memRingSet_disables (s := taken 0x0805 c s) hl hr hen hon)
  case ringDenied =>
    intro c s ha hf hl
    exact ready_answers ha hf (memRingSet_denied hl)
  case ringRead =>
    intro c s ha hf hr
    exact ready_answers ha hf (memRingRead_answers hr)
  case status =>
    intro c s ha hf
    exact ⟨_, _, Nat.le_of_lt_succ (Nat.mod_lt _ (Nat.succ_pos _)), Nat.le_of_lt_succ (Nat.mod_lt _ (Nat.succ_pos _)),
      ready_answers ha hf (memStatus_draws c s.stw.nextJob (taken 0x0807 c s))⟩
  case counters =>
    intro c s ha hf hsel hfl hk
    exact ready_answers ha hf (memCounters_cleared (s := taken 0x0808 c s) (p := 2) hsel (by decide) hfl hk)

end Sys2Proof.Proofs
end

section
/-! PROOFS. What frames on their way leave of the rings (R380, R425, R428 to R430): the index, the size and the status owed of a ring change with
its own descriptors alone. -/

namespace Sys2Proof.Proofs
open Machine Laws

/-! ### Operations that touch no ring -/

/-- As `ite_keeps`, for operations that answer something beside the state. -/
theorem ite_fst_keeps {α β : Type} {c : Prop} [Decidable c] (p : State → β) {a b : State × α} {u : State} (ha : p a.1 = p u)
    (hb : p b.1 = p u) : p (if c then a else b).1 = p u := by
  split
  · exact ha
  · exact hb

theorem releaseCells_rings (id e : Nat) (s : State) : (releaseCells id e s).mem.rings = s.mem.rings := by
  unfold releaseCells
  split
  · rfl
  · exact ite_keeps (fun u => u.mem.rings) rfl rfl

theorem uncharge_rings (p n : Nat) (s : State) : (uncharge p n s).mem.rings = s.mem.rings := ite_keeps (fun u => u.mem.rings) rfl rfl

theorem leave_rings (e : Nat) (f : Queued) (s : State) : (leave e f s).mem.rings = s.mem.rings := by
  unfold leave
  dsimp only
  split
  · exact (releaseCells_rings ..).trans (uncharge_rings ..)
  · exact uncharge_rings ..

theorem neverFitEvent_rings (e c len : Nat) (s : State) : (neverFitEvent e c len s).mem.rings = s.mem.rings :=
  ite_keeps (fun u => u.mem.rings) rfl rfl

theorem purgeQueue_rings (e c q n : Nat) (s : State) : (purgeQueue e c q n s).mem.rings = s.mem.rings := by
  induction n generalizing s with
  | zero => rfl
  | succ n ih =>
    unfold purgeQueue
    split
    · split
      · refine (ih _).trans ((neverFitEvent_rings ..).trans ((leave_rings ..).trans ?_))
        rw [popHead_eq]
      · rfl
    · rfl

theorem purgeEgress_rings (e : Nat) (s : State) : (purgeEgress e s).mem.rings = s.mem.rings := by
  unfold purgeEgress
  split
  · rfl
  · refine foldl_keeps (fun u => u.mem.rings) _ (fun u x => ?_) s.plan.queues s
    exact ite_keeps (fun u => u.mem.rings) (purgeQueue_rings ..) rfl

theorem purgeGated_rings (s : State) : (purgeGated s).mem.rings = s.mem.rings :=
  foldl_keeps (fun u => u.mem.rings) _ (fun u (x : Nat × GateList) => purgeEgress_rings x.1 u) s.kept.plan.gates s

theorem pauseAll_rings (s : State) : (pauseAll s).mem.rings = s.mem.rings := by
  obtain ⟨h, -⟩ := pauseAll_only s
  rw [h]

theorem dropCells_rings (x : Ingress) (s : State) : (dropCells x s).mem.rings = s.mem.rings := by
  unfold dropCells
  split <;> rfl

theorem claimCells_rings {o a n id : Nat} {refs : List Nat} {s t : State} (h : claimCells o a n refs s = some (id, t)) :
    t.mem.rings = s.mem.rings := by
  unfold claimCells at h
  split at h
  · cases h
  · cases h
    rfl

theorem handCells_rings (id : Nat) (refs : List Nat) (s : State) : (handCells id refs s).mem.rings = s.mem.rings := by
  unfold handCells
  split <;> rfl

theorem dropForLimit_rings (q : Nat) (s : State) : (dropForLimit q s).mem.rings = s.mem.rings :=
  ite_keeps (fun u => u.mem.rings) rfl rfl

theorem chargePool_rings (p n : Nat) (s : State) : (chargePool p n s).mem.rings = s.mem.rings :=
  ite_keeps (fun u => u.mem.rings) rfl rfl

/-- Whether a queue takes a frame or not, the rings stand. -/
theorem enqueue_rings (q : Nat) (f : Queued) (s : State) : (enqueue q f s).1.mem.rings = s.mem.rings := by
  have hcharge : (if queuePool s q ≠ 0 then chargePool (queuePool s q) f.charge s else s).mem.rings = s.mem.rings :=
    ite_keeps (fun u => u.mem.rings) (chargePool_rings ..) rfl
  unfold enqueue
  dsimp only
  refine ite_fst_keeps (fun u => u.mem.rings) (ite_keeps (fun u => u.mem.rings) rfl (dropForLimit_rings ..)) ?_
  refine ite_fst_keeps (fun u => u.mem.rings) rfl ?_
  split
  · rfl
  · refine ite_fst_keeps (fun u => u.mem.rings) ?full ?taken
    case full =>
      dsimp only
      split
      · exact dropForLimit_rings q s
      · exact dropForLimit_rings q s
    case taken =>
      dsimp only
      rw [tagHead_eq]
      exact hcharge

theorem enqueueAll_rings (id : Option Nat) (ts : List Target) (s : State) : (enqueueAll id ts s).1.mem.rings = s.mem.rings := by
  induction ts generalizing s with
  | nil => rfl
  | cons t ts ih => exact (ih _).trans (enqueue_rings ..)

theorem enqueueTargets_rings (x : Ingress) (f : Frame) (ts : List Target) (s : State) :
    (enqueueTargets x f ts s).1.mem.rings = s.mem.rings := by
  have hall : ∀ id u, (enqueueAll id ts u).1.mem.rings = u.mem.rings := fun id u => enqueueAll_rings id ts u
  unfold enqueueTargets
  split
  · split
    · next id _ =>
      have h := hall (some id) s
      split
      · next h' => rw [h'] at h; exact h
      · next h' => rw [h'] at h; exact (handCells_rings ..).trans h
    · split
      · exact enqueueAll_rings ..
      · next id s1 hc =>
        have h := (hall (some id) s1).trans (claimCells_rings hc)
        split
        · next h' => rw [h'] at h; exact h
        · next h' => rw [h'] at h; exact (handCells_rings ..).trans h
  · have h := (hall none (dropCells x s)).trans (dropCells_rings x s)
    split
    next h' => rw [h'] at h; exact h

theorem police_rings (i b colour : Nat) (cls : Option Nat) (s : State) : (police i b colour cls s).1.mem.rings = s.mem.rings :=
  ite_fst_keeps (fun u => u.mem.rings) rfl rfl

theorem policeAll_rings (l : List Nat) (b colour : Nat) (cls : Option Nat) (s : State) :
    (policeAll l b colour cls s).1.mem.rings = s.mem.rings := by
  induction l generalizing colour cls s with
  | nil => rfl
  | cons i l ih =>
    have h := police_rings i b colour cls s
    unfold policeAll
    split
    · next h' => rw [h'] at h; exact h
    · next h' => rw [h'] at h; exact (ih ..).trans h

theorem l2Hit_rings (i : Nat) (s : State) : (l2Hit i s).mem.rings = s.mem.rings := by
  unfold l2Hit
  split <;> rfl

/-- Whether the address is learned, rewritten or refused. -/
theorem learn_rings (mac vid kind dest : Nat) (s : State) : ((learn mac vid kind dest s).getD s).mem.rings = s.mem.rings := by
  unfold learn
  split
  · split
    · split
      · exact l2Hit_rings ..
      · split <;> rfl
    · rfl
  · split
    · rfl
    · exact ite_keeps (fun u => u.mem.rings) rfl rfl

theorem learnSource_rings (x : Ingress) (f : Frame) (vid : Nat) (s : State) : ((learnSource x f vid s).getD s).mem.rings = s.mem.rings := by
  unfold learnSource
  split
  · rfl
  · split
    · split
      · exact learn_rings ..
      · rfl
    · exact learn_rings ..
    · exact learn_rings ..

theorem countAccepted_rings (x : Ingress) (f : Frame) (n : Nat) (s : State) : (countAccepted x f n s).mem.rings = s.mem.rings :=
  ite_keeps (fun u => u.mem.rings) rfl rfl

theorem trapTo_rings (reason : Nat) (x : Ingress) (f : Frame) (s : State) : (trapTo reason x f s).1.mem.rings = s.mem.rings :=
  ite_fst_keeps (fun u => u.mem.rings) rfl rfl

theorem route_rings (f : Frame) (h : IpHeader) (vid : Nat) (s : State) : (route f h vid s).1.mem.rings = s.mem.rings := by
  unfold route
  refine ite_fst_keeps (fun u => u.mem.rings) rfl (ite_fst_keeps (fun u => u.mem.rings) rfl ?_)
  split
  · rfl
  · split
    · rfl
    · exact ite_fst_keeps (fun u => u.mem.rings) rfl (ite_fst_keeps (fun u => u.mem.rings) rfl rfl)

/-! ### What forwarding leaves of a ring -/

/-- What descriptors go by on a ring: the next index, the size, the status block owed. -/
abbrev RingFace := Nat × Nat × Bool

/-- The face of a ring. -/
def Ring.face (g : Ring) : RingFace := (g.nextIdx, g.entries, g.statusDue)

/-- The faces of all rings. -/
def ringFaces (s : State) : Nat → RingFace := fun r => Ring.face (s.ring r)

theorem ringFaces_of {s t : State} (h : t.mem.rings = s.mem.rings) : ringFaces t = ringFaces s := by
  unfold ringFaces State.ring
  rw [h]

theorem ring_updRing (r k : Nat) (f : Ring → Ring) (s : State) : (updRing r f s).ring k = if k = r then f (s.ring r) else s.ring k := by
  show Map.getD (Map.set _ _ _) _ _ = _
  rw [getD_set]
  rfl

theorem ringFaces_updRing {r : Nat} {f : Ring → Ring} {s : State} (hf : Ring.face (f (s.ring r)) = Ring.face (s.ring r)) :
    ringFaces (updRing r f s) = ringFaces s := by
  funext k
  unfold ringFaces
  rw [ring_updRing]
  split
  · next h => rw [h]; exact hf
  · rfl

/-- A frame for a host ring that is off is counted on it; no ring's face changes. -/
theorem egressPasses_faces (f : Frame) (e c v : Nat) (s : State) : ringFaces (egressPasses f e c v s).1 = ringFaces s := by
  unfold egressPasses
  refine ite_fst_keeps ringFaces rfl (ite_fst_keeps ringFaces ?wired (ite_fst_keeps ringFaces ?host rfl))
  case wired => exact ite_fst_keeps ringFaces rfl (ite_fst_keeps ringFaces rfl rfl)
  case host => exact ite_fst_keeps ringFaces rfl (ringFaces_updRing rfl)

theorem destTargets_faces (x : Ingress) (f : Frame) (kind dest c v colour : Nat) (s : State) :
    ringFaces (destTargets x f kind dest c v colour s).1 = ringFaces s := by
  have hpass := egressPasses_faces f dest c v s
  unfold destTargets
  refine ite_fst_keeps ringFaces ?port (ite_fst_keeps ringFaces ?client ?neighbour)
  case port =>
    refine ite_fst_keeps ringFaces ?_ (ite_fst_keeps ringFaces rfl ?_)
    · split <;> next h => rw [h] at hpass; exact hpass
    · split <;> next h => rw [h] at hpass; exact hpass
  case client =>
    split
    · rfl
    · exact ite_fst_keeps ringFaces rfl rfl
  case neighbour =>
    split
    · rfl
    · exact ite_fst_keeps ringFaces rfl rfl

theorem floodTargets_faces (x : Ingress) (f : Frame) (mask c v colour : Nat) (s : State) :
    ringFaces (floodTargets x f mask c v colour s).1 = ringFaces s := by
  unfold floodTargets
  refine List.foldlRecOn _ _ (motive := fun acc : State × List Target => ringFaces acc.1 = ringFaces s) rfl (fun acc hacc e _ => ?_)
  exact ite_fst_keeps ringFaces hacc (ite_fst_keeps ringFaces hacc ((destTargets_faces ..).trans hacc))

/-- Policers, learning and queues leave the rings' faces as they are, where finding the egresses does. -/
theorem finish_faces {x : Ingress} {f : Frame} {inVid cls colour entry : Nat} {find : Nat → Nat → State → State × List Target} {s : State}
    (hfind : ∀ c col u, ringFaces (find c col u).1 = ringFaces u) :
    ringFaces (finish x f inVid cls colour entry find s) = ringFaces s := by
  unfold finish
  dsimp only
  generalize hp : policeAll _ _ _ _ s = p
  have hpol : ringFaces p.1 = ringFaces s := ringFaces_of (by rw [← hp]; exact policeAll_rings ..)
  obtain ⟨s1, col, re, gone⟩ := p
  cases gone with
  | true => exact (ringFaces_of (dropCells_rings ..)).trans hpol
  | false =>
    dsimp only
    split
    · exact (ringFaces_of (dropCells_rings ..)).trans hpol
    · next s2 hl =>
      have hs2 : ringFaces s2 = ringFaces s := by
        have hlearn := learnSource_rings x f inVid s1
        rw [hl] at hlearn
        exact (ringFaces_of hlearn).trans hpol
      have hs3 := (hfind (re.getD cls) col s2).trans hs2
      generalize find (re.getD cls) col s2 = y at hs3
      obtain ⟨s3, ts⟩ := y
      have hq : ringFaces (enqueueTargets x f ts s3).1 = ringFaces s := (ringFaces_of (enqueueTargets_rings ..)).trans hs3
      have hd : ringFaces (if ts = [] then dropCells x (enqueueTargets x f ts s3).1 else (enqueueTargets x f ts s3).1) = ringFaces s :=
        ite_keeps ringFaces ((ringFaces_of (dropCells_rings ..)).trans hq) hq
      exact ite_keeps ringFaces hd ((ringFaces_of (countAccepted_rings ..)).trans hd)

theorem lookupAndSend_faces (x : Ingress) (f : Frame) (vid cls colour : Nat) (s : State) :
    ringFaces (lookupAndSend x f vid cls colour s) = ringFaces s := by
  have hdrop : ∀ u, ringFaces (dropCells x u) = ringFaces u := fun u => ringFaces_of (dropCells_rings x u)
  have htrap' : ∀ g u, ringFaces (countAccepted x f 0 (dropCells x (toSteward 18 x g u))) = ringFaces u := fun g u =>
    (ringFaces_of (countAccepted_rings ..)).trans (hdrop _)
  have htrap : ∀ u, ringFaces (countAccepted x f 0 (dropCells x u)) = ringFaces u := fun u =>
    (ringFaces_of (countAccepted_rings ..)).trans (hdrop u)
  unfold lookupAndSend
  split
  · next h _ =>
    have hr : ringFaces (route f h vid s).1 = ringFaces s := ringFaces_of (route_rings ..)
    split
    · next h' => rw [h'] at hr; exact (hdrop _).trans hr
    · next h' => rw [h'] at hr; exact (htrap _).trans hr
    · next h' =>
      rw [h'] at hr
      exact ite_keeps ringFaces ((htrap' _ _).trans hr) ((finish_faces (fun _ _ _ => destTargets_faces ..)).trans hr)
  · split
    · next i _ =>
      have hi : ringFaces (l2Hit i s) = ringFaces s := ringFaces_of (l2Hit_rings ..)
      split
      · exact hdrop s
      · refine ite_keeps ringFaces ((hdrop _).trans hi) (ite_keeps ringFaces ((htrap _).trans hi) (ite_keeps ringFaces ?group ?other))
        case group => exact (finish_faces (fun _ _ _ => floodTargets_faces ..)).trans hi
        case other =>
          exact ite_keeps ringFaces ((hdrop _).trans hi) ((finish_faces (fun _ _ _ => destTargets_faces ..)).trans hi)
    · exact finish_faces (fun _ _ _ => floodTargets_faces ..)

/-- A frame that is trapped, or beyond the rate of its trap. -/
theorem trapped_faces (reason : Nat) (x : Ingress) (f : Frame) (s : State) :
    ringFaces (dropCells x (trapTo reason x f s).1) = ringFaces s :=
  (ringFaces_of (dropCells_rings ..)).trans (ringFaces_of (trapTo_rings ..))

theorem forward_faces (x : Ingress) (f : Frame) (s : State) : ringFaces (forward x f s) = ringFaces s := by
  have hdrop : ∀ u, ringFaces (dropCells x u) = ringFaces u := fun u => ringFaces_of (dropCells_rings x u)
  have hcount : ∀ u, ringFaces (countAccepted x f 0 u) = ringFaces u := fun u => ringFaces_of (countAccepted_rings ..)
  have htrap : ∀ n, ringFaces (dropCells x (trapTo n x f s).1) = ringFaces s := fun n => trapped_faces n x f s
  unfold forward
  dsimp only
  refine ite_keeps ringFaces (hdrop _) (ite_keeps ringFaces ?closed ?opened)
  case closed =>
    exact (hdrop _).trans (ite_keeps ringFaces (ringFaces_of (learnSource_rings ..)) rfl)
  case opened =>
    split
    · refine ite_keeps ringFaces ?_ (hdrop s)
      have h2 := htrap 2
      split
      · next h' => rw [h'] at h2; exact (hcount _).trans h2
      · next h' => rw [h'] at h2; exact h2
    · exact hdrop s
    · refine ite_keeps ringFaces ((lookupAndSend_faces ..).trans (ringFaces_of (trapTo_rings ..))) ?_
      have h5 := htrap 5
      split
      · next h' => rw [h'] at h5; exact (hcount _).trans h5
      · next h' => rw [h'] at h5; exact h5
    · next r _ _ _ _ =>
      have hr := htrap r
      split
      · next h' => rw [h'] at hr; exact (hcount _).trans hr
      · next h' => rw [h'] at hr; exact hr
    · exact lookupAndSend_faces ..

/-- A whole frame from the host (R396): no ring's face changes. -/
theorem hostFrame_faces (d : TxDesc) (n : Nat) (s : State) : ringFaces (hostFrame d n s).1 = ringFaces s := by
  unfold hostFrame
  dsimp only
  refine ite_fst_keeps ringFaces ?direct ?switched
  case direct =>
    exact ite_fst_keeps ringFaces rfl (ite_fst_keeps ringFaces rfl (ringFaces_of (enqueueTargets_rings ..)))
  case switched =>
    split
    · rfl
    · next h => exact (forward_faces ..).trans (ringFaces_of (claimCells_rings h))

/-! ### Descriptors of a transmit ring -/

/-- A ring's face when `n` more of its descriptors have been written back. -/
def faceWritten (n : Nat) (x : RingFace) : RingFace := if n = 0 then x else ((x.1 + n) % max 1 x.2.1, x.2.1, true)

/-- One descriptor and then `n` more are `n + 1`. -/
theorem faceWritten_succ (n : Nat) (x : RingFace) : faceWritten n (faceWritten 1 x) = faceWritten (n + 1) x := by
  unfold faceWritten
  rw [if_neg Nat.one_ne_zero, if_neg (Nat.succ_ne_zero n)]
  split
  · next h => rw [h]
  · rw [Nat.mod_add_mod, Nat.add_assoc, Nat.add_comm 1 n]

theorem txDone_face (r : Nat) (d : TxDesc) (status : Nat) (s : State) :
    ringFaces (txDone r d status s) r = faceWritten 1 (ringFaces s r) := by
  have hemit : ∀ o u, ringFaces (emit o u) = ringFaces u := fun _ _ => rfl
  unfold txDone
  rw [hemit]
  unfold ringFaces
  rw [ring_updRing, if_pos rfl]
  rfl

/-- A descriptor that is owned is written back, whatever becomes of its frame, and the ring goes on behind it. -/
theorem txRing_owned {r : Nat} {d : TxDesc} {ds : List TxDesc} {s : State} (h : d.own = true) :
    ∃ status y, ringFaces y = ringFaces s ∧ txRing r (d :: ds) s = txRing r ds (txDone r d status y) := by
  have hbad : ∀ u, ringFaces (updRing r (fun g => { g with descErr := satInc 32 g.descErr, open' := none }) u) = ringFaces u :=
    fun u => ringFaces_updRing rfl
  have hopen : ∀ o u, ringFaces (updRing r (fun g => { g with open' := o }) u) = ringFaces u := fun o u => ringFaces_updRing rfl
  have hgo : txRing r (d :: ds) s = _ := if_neg (by simp [h])
  rw [hgo]
  dsimp only
  split
  · split
    · exact ⟨_, _, (hbad _).trans (hbad s), rfl⟩
    · exact ⟨_, _, (hopen _ _).trans (hbad s), rfl⟩
  · exact ⟨_, _, hbad s, rfl⟩
  · split
    · exact ⟨_, _, hopen _ s, rfl⟩
    · split
      · exact ⟨_, _, hbad s, rfl⟩
      · exact ⟨_, _, (ringFaces_updRing rfl).trans (hostFrame_faces ..), rfl⟩
  · split
    · exact ⟨_, _, hopen _ s, rfl⟩
    · split
      · exact ⟨_, _, hbad s, rfl⟩
      · exact ⟨_, _, (ringFaces_updRing rfl).trans (hostFrame_faces ..), rfl⟩

/-- A poll takes the descriptors up to the first that is not owned (R429). -/
theorem txRing_face (r : Nat) (ds : List TxDesc) (s : State) :
    ringFaces (txRing r ds s) r = faceWritten (ds.takeWhile (·.own)).length (ringFaces s r) := by
  induction ds generalizing s with
  | nil => rfl
  | cons d ds ih =>
    cases h : d.own with
    | false =>
      rw [List.takeWhile_cons_of_neg (by simp [h])]
      exact congrArg (ringFaces · r) (if_pos (by simp [h]))
    | true =>
      obtain ⟨status, y, hy, htx⟩ := txRing_owned (r := r) (ds := ds) (s := s) h
      rw [htx, ih, txDone_face, hy, List.takeWhile_cons_of_pos h, List.length_cons, faceWritten_succ]

end Sys2Proof.Proofs
end

section
/-! PROOFS. What the memory does at its events (R404, R406, R407, R409, R411 to R413, R428, R430, R431): one lemma an operation and outcome; then the
statement on them. -/

namespace Sys2Proof.Proofs
open Machine Laws

/-! ### Refresh -/

/-- The number of the next refresh burst of channel `k` in this beat. -/
def burstIndex (s : State) (k : Nat) : Nat := if (s.channel k).burstBeat = s.beat then (s.channel k).burst else 0

/-- The refreshes of that burst: four, but for what is left in the last one (R413). -/
def burstSize (s : State) (k : Nat) : Nat :=
  if burstIndex s k + 1 = (refreshPlan (s.channel k).m).2.1 then
    (refreshPlan (s.channel k).m).1 - 4 * ((refreshPlan (s.channel k).m).2.1 - 1)
  else 4

/-- Time moved on to the slot of that burst, which panic holds back by `delay` ns at most. -/
def atBurst (k delay : Nat) (s : State) : State :=
  afterOverrun 6 (advancePhase
    (20000 + burstIndex s k * (refreshPlan (s.channel k).m).2.2 + (if anyPanic s then min delay 2000 else 0)) s)

/-- Channel `k` when that burst has been made. -/
def burstMade (s : State) (k : Nat) (c : DramChannel) : DramChannel := { c with burst := burstIndex s k + 1, burstBeat := s.beat }

/-- A channel whose plan has bursts left makes the next one. -/
theorem refreshBurst_due {k delay : Nat} {s : State} (hk : k < 2) (hawake : s.power.dramAwake = true) (hstage : 7 ≤ s.boot.stage)
    (hset : s.time.settling = false) (hleft : burstIndex s k < (refreshPlan (s.channel k).m).2.1) :
    refreshBurst k delay s =
      emit (.frame 6 0 [k, burstIndex s k, burstSize s k]) (updChannel k (burstMade s k) (atBurst k delay s)) := by
  have hgate : ¬ (k ≥ 2 ∨ !s.power.dramAwake ∨ s.boot.stage < 7 ∨ s.time.settling) := by
    simp [hawake, hset]
    omega
  exact (if_neg hgate).trans (if_neg (Nat.not_le.2 hleft))

theorem channel_updChannel (k j : Nat) (f : DramChannel → DramChannel) (s : State) :
    (updChannel k f s).channel j = if j = k ∧ k < 2 then f (s.channel k) else s.channel j := by
  unfold State.channel updChannel
  exact getD_modify ..

/-- A burst at a slot that has come, no panic holding it back, takes no time. -/
theorem atBurst_past {k delay : Nat} {s : State} (hpanic : anyPanic s = false) (hbusy : (s.unit 6).busyUntil ≤ s.time.mono)
    (hslot : (s.beat * 1000000 + (20000 + burstIndex s k * (refreshPlan (s.channel k).m).2.2)) * 2 ^ 32 ≤ s.time.acc)
    (hacc : s.time.acc < 2 ^ 96) : atBurst k delay s = s := by
  unfold atBurst advancePhase afterOverrun
  rw [hpanic, if_neg (by decide), Nat.add_zero, advanceTo_past hslot hacc, advanceMono_past hbusy hacc]

/-- A channel with one more burst made in beat `b`. -/
def burstCounted (b : Nat) (c : DramChannel) : DramChannel := { c with burst := c.burst + 1, burstBeat := b }

/-- A burst in the midst of a beat's plan, at a slot that has come: four refreshes, counted in the beat. -/
theorem refreshBurst_past {k delay : Nat} {s : State} (hk : k < 2) (hawake : s.power.dramAwake = true) (hstage : 7 ≤ s.boot.stage)
    (hset : s.time.settling = false) (hbeat : (s.channel k).burstBeat = s.beat)
    (hleft : (s.channel k).burst + 1 < (refreshPlan (s.channel k).m).2.1) (hpanic : anyPanic s = false)
    (hbusy : (s.unit 6).busyUntil ≤ s.time.mono)
    (hslot : (s.beat * 1000000 + (20000 + (s.channel k).burst * (refreshPlan (s.channel k).m).2.2)) * 2 ^ 32 ≤ s.time.acc)
    (hacc : s.time.acc < 2 ^ 96) :
    refreshBurst k delay s = emit (.frame 6 0 [k, (s.channel k).burst, 4]) (updChannel k (burstCounted s.beat) s) := by
  have hidx : burstIndex s k = (s.channel k).burst := if_pos hbeat
  have hsize : burstSize s k = 4 := if_neg (by rw [hidx]; exact Nat.ne_of_lt hleft)
  have hmade : updChannel k (burstMade s k) s = updChannel k (burstCounted s.beat) s := by
    unfold updChannel
    rw [modify_congr s.mem.channels k (burstMade s k) (burstCounted s.beat) {}]
    unfold burstMade
    rw [hidx]
    rfl
  rw [refreshBurst_due hk hawake hstage hset (by rw [hidx]; exact Nat.lt_of_succ_lt hleft),
    atBurst_past hpanic hbusy (by rw [hidx]; exact hslot) hacc, hmade, hidx, hsize]

/-! ### Training (R416) -/

theorem commitCalJobs_mem (x : CalRun) (s : State) : (commitCalJobs x s).mem = s.mem :=
  foldl_keeps (fun u => u.mem) _ (fun u j => commitJob_mem (s := u) j) x.jobs s

theorem calFail_mem (x : CalRun) (cause : Nat) (trial : List Int) (s : State) : (calFail x cause trial s).mem = s.mem := by
  unfold calFail
  dsimp only
  split
  · rw [updCalRun_mem, calCount_mem, updNote_mem]
  · rw [raise_mem, calCount_mem, updCalRun_mem]
    dsimp only
    rw [updCalRun_mem, calCount_mem, updNote_mem]

theorem calJudge_mem (x : CalRun) (f : CalFacts) (s : State) : (calJudge x f s).mem = s.mem := by
  unfold calJudge
  split
  · exact calFail_mem ..
  · split
    · exact calFail_mem ..
    · rfl

theorem channels_of {s t : State} (h : t.mem = s.mem) : t.mem.channels = s.mem.channels := congrArg MemState.channels h

/-- A training step leaves the channels' plans as they are. -/
theorem trainStep_channels (k : Nat) (pass : Bool) (s : State) : (trainStep k pass s).mem.channels = s.mem.channels := by
  have hstep : ∀ x : CalRun, (memCount cTrainStep (commitCalJobs x s)).mem.channels = s.mem.channels := by
    intro x
    have hjobs : (commitCalJobs x s).mem.channels = s.mem.channels := channels_of (commitCalJobs_mem x s)
    exact hjobs
  unfold trainStep
  split
  · rfl
  · next x _ =>
    refine ite_keeps (fun u => u.mem.channels) rfl (ite_keeps (fun u => u.mem.channels) (channels_of (calCount_mem ..)) ?_)
    dsimp only
    split
    · exact (channels_of (calFail_mem ..)).trans (hstep x)
    · exact ite_keeps (fun u => u.mem.channels) ((channels_of ((calJudge_mem ..).trans (updCalRun_mem ..))).trans (hstep x))
        ((channels_of (updCalRun_mem ..)).trans (hstep x))

theorem trainStep_idle {k : Nat} {pass : Bool} {s : State} (h : s.front.runs = []) : trainStep k pass s = s := by
  unfold trainStep
  rw [h]
  rfl

/-- With or without the training step behind it, a burst leaves the channels as the burst itself does. -/
theorem burstAndTrain_channels (k delay : Nat) (pass : Bool) (s : State) :
    (burstAndTrain k delay pass s).mem.channels = (refreshBurst k delay s).mem.channels := by
  unfold burstAndTrain
  dsimp only
  split
  · rfl
  · exact trainStep_channels ..

/-- Without a run no training step is due. -/
theorem burstAndTrain_idle {k delay : Nat} {pass : Bool} {s : State} (h : (refreshBurst k delay s).front.runs = []) :
    burstAndTrain k delay pass s = refreshBurst k delay s := by
  unfold burstAndTrain
  dsimp only
  rw [trainStep_idle h, ite_self]

/-! ### FIFOs and panic (R409, R411) -/

theorem dport_updDport (p k : Nat) (f : DramPort → DramPort) (s : State) :
    (updDport p f s).dport k = if k = p ∧ p < 9 then f (s.dport p) else s.dport k := by
  unfold State.dport updDport
  exact getD_modify ..

/-- The level `n` of port `p` crosses its panic threshold. -/
abbrev fifoRises (s : State) (p n : Nat) (tx : Bool) : Prop :=
  if txPort p tx then n * 100 < (portSet s p).panicPct * fifoBytes p else n * 100 > (100 - (portSet s p).panicPct) * fifoBytes p

/-- The level `n` of port `p` ends its panic. -/
abbrev fifoClears (s : State) (p n : Nat) (tx : Bool) : Prop :=
  if txPort p tx then n * 100 ≥ ((portSet s p).panicPct + 20) * fifoBytes p else n * 100 < (80 - (portSet s p).panicPct) * fifoBytes p

/-- A real-time port whose FIFO stands at `n` bytes. -/
def fifoAt (s : State) (p n : Nat) (tx : Bool) (d : DramPort) : DramPort :=
  { d with level := n, panic := if d.panic then !fifoClears s p n tx else fifoRises s p n tx
           panicCnt := if !d.panic ∧ fifoRises s p n tx then satInc 32 d.panicCnt else d.panicCnt }

theorem setFifo_realTime {p level : Nat} {tx : Bool} {s : State} (hp : p < 6) :
    setFifo p level tx s = updDport p (fifoAt s p (min level (fifoBytes p)) tx) s := if_neg (Nat.not_le.2 hp)

/-- A transmit port whose FIFO has fallen below its threshold, to `n` bytes: panic begins, or goes on until
20 points above the threshold are reached. -/
def fifoLow (s : State) (p n : Nat) (d : DramPort) : DramPort :=
  { d with level := n, panic := if d.panic then !decide (((portSet s p).panicPct + 20) * fifoBytes p ≤ n * 100) else true
           panicCnt := if d.panic then d.panicCnt else satInc 32 d.panicCnt }

/-- A FIFO that feeds a transmitter, below its threshold and not empty. -/
theorem panicRise_low {p level : Nat} {tx : Bool} {s : State} (hp : p < 6) (hd : dataPlane s = true) (htx : txPort p tx = true)
    (hl : 0 < level ∧ level ≤ fifoBytes p) (hlow : level * 100 < (portSet s p).panicPct * fifoBytes p) :
    panicRise p level tx s = updDport p (fifoLow s p level) s := by
  have hrise : fifoRises s p level tx := by
    unfold fifoRises
    rw [if_pos htx]
    exact hlow
  have hclear : fifoClears s p level tx ↔ ((portSet s p).panicPct + 20) * fifoBytes p ≤ level * 100 := by
    unfold fifoClears
    rw [if_pos htx]
  have hport : fifoAt s p level tx = fifoLow s p level := by
    funext d
    unfold fifoAt fifoLow
    cases d.panic <;> simp [hrise, hclear]
  unfold panicRise
  rw [if_neg (by simp [hd]; omega), if_pos htx, if_neg (by omega), setFifo_realTime hp, Nat.min_eq_left hl.2, hport]

/-- A FIFO that feeds a transmitter and is empty has underrun. -/
theorem panicRise_empty {p : Nat} {tx : Bool} {s : State} (hp : p < 6) (hd : dataPlane s = true) (htx : txPort p tx = true) :
    panicRise p 0 tx s = { updDport p (fun d => { d with underrun := satInc 32 d.underrun }) (updDport p (fifoAt s p 0 tx) s) with
      mem.rtFaultStk := true } := by
  unfold panicRise
  rw [if_neg (by simp [hd]; omega), if_pos htx, if_pos rfl, setFifo_realTime hp, Nat.zero_min]
  rfl

/-! ### Reads of DRAM (R407, R412) -/

/-- One transaction of a port that is not real-time has ended. -/
def readEnded (p : Nat) (s : State) : State := updDport p (fun d => { d with outstanding := d.outstanding - 1 }) s

/-- A clean block read by a port that is not real-time. -/
theorem dramReadDone_clean {p a : Nat} {tx : Bool} {q : Option Nat} {s : State} (hp : 6 ≤ p ∧ p < 9) (hawake : s.power.dramAwake = true) :
    dramReadDone p a 0 tx q s = readEnded p s := by
  have hread : dramRead p a 0 tx s = readEnded p s := if_neg (Nat.not_lt.2 hp.1)
  exact (if_neg (by simp [hawake]; omega)).trans ((if_pos (by decide)).trans hread)

/-- A block that cannot be corrected, read by the queue engine for no frame: it is poisoned from now on, counted and told of. -/
theorem dramReadDone_poisons {a : Nat} {tx : Bool} {s : State} (hawake : s.power.dramAwake = true)
    (hnew : s.mem.poisoned.contains (a / 64) = false) :
    dramReadDone 6 a 2 tx none s = raise 6 0x0805 (eccData (addrChannel s a) a 1) { readEnded 6 s with
      mem.counts := tally s.mem.counts 24, mem.eccUeStk := true, mem.poisoned := a / 64 :: s.mem.poisoned } := by
  have hput : (if s.mem.poisoned.contains (a / 64) = true then s.mem.poisoned else a / 64 :: s.mem.poisoned) =
      a / 64 :: s.mem.poisoned := if_neg (by rw [hnew]; decide)
  rw [← hput]
  exact if_neg (by simp [hawake])

/-! ### Status blocks of rings (R431) -/

/-- The status block of ring `r`. -/
def statusBlock (r : Nat) (s : State) : List Byte :=
  le 2 (s.ring r).nextIdx ++ le 2 0 ++ le 4 s.beat ++ le 4 (s.ring r).dry ++ le 4 0

/-- The first status block since the ring was enabled goes to the host at once; without NOTIFY no event tells of it. -/
theorem ringStatus_first {r : Nat} {s : State} (hon : (s.ring r).on = true) (hdue : (s.ring r).statusDue = true) (hr : hostRing r = true)
    (hup : s.power.pcieUp = true) (hat : (s.ring r).statusAt = none) (hn : (s.ring r).notify = false) :
    ringStatus r s = emit (.hostMem (s.ring r).statusAddr (statusBlock r s))
      (updRing r (fun g => { g with statusDue := false, statusAt := some s.time.mono }) s) := by
  unfold ringStatus
  dsimp only
  rw [if_neg (by simp [hon, hdue, hr, hup]), hat]
  exact if_neg (by simp [hn])

/-! ### Polls of transmit rings (R429, R430) -/

/-- A poll of a ring that serves. -/
theorem txRingPoll_serves {r : Nat} {ds : List TxDesc} {s : State} (hr : 16 ≤ r ∧ r ≤ 23) (hon : (s.ring r).on = true)
    (hd : dataPlane s = true) (hup : s.power.pcieUp = true) (hmode : s.power.mode ≠ .doze) :
    txRingPoll r ds s = pauseAll (purgeGated (txRing r ds s)) :=
  if_neg (by simp [hon, hd, hup, hmode]; omega)

/-- A descriptor that no FIRST began is counted, and goes back to the host with status 2. -/
theorem txRing_orphan {r : Nat} {d : TxDesc} {s : State} (hown : d.own = true) (hfirst : d.first = false) (hopen : (s.ring r).open' = none) :
    txRing r [d] s = emit (.hostMem ((s.ring r).base + 32 * (s.ring r).nextIdx) (txWriteBack d 2))
      (updRing r (fun g => { g with nextIdx := (g.nextIdx + 1) % max 1 g.entries, statusDue := true })
        (updRing r (fun g => { g with descErr := satInc 32 g.descErr, open' := none }) s)) := by
  have hring : (updRing r (fun g => { g with descErr := satInc 32 g.descErr, open' := none }) s).ring r =
      { s.ring r with descErr := satInc 32 (s.ring r).descErr, open' := none } := (ring_updRing ..).trans (if_pos rfl)
  have hgo : txRing r [d] s = _ := if_neg (by simp [hown])
  rw [hgo]
  dsimp only
  rw [hopen, hfirst]
  show txDone r d 2 _ = _
  unfold txDone
  rw [hring]

/-! ### The statement -/

/-- Settles O48: the effect of each event is the lemma above that names its outcome; a poll leaves its ring as its own descriptors do
(`txRing_face`), since nothing on a frame's way to its queues changes a ring's index or size. -/
theorem memoryEventsTakeEffect : Obligations.MemoryEventsTakeEffect := by
  unfold Obligations.MemoryEventsTakeEffect
  refine ⟨?mr4, ?lease, ?panic, ?underrun, ?clean, ?poisoned, ?status, ?orphan, ?poll, ?burst, ?counted⟩
  case mr4 =>
    intro k m temp s ha hk hm hb hawake
    exact act_becomes ha (if_pos ⟨hk, hm, hb, hawake⟩)
  case lease =>
    intro p s ha hp
    exact act_becomes ha (if_pos hp)
  case panic =>
    intro p level tx s ha hp hd htx hl hlow
    exact act_becomes ha (panicRise_low (s := fresh s) hp (by rw [fresh_dataPlane, hd]) htx hl hlow)
  case underrun =>
    intro p tx s ha hp hd htx
    have hempty := panicRise_empty (s := fresh s) hp (by rw [fresh_dataPlane, hd]) htx
    obtain ⟨t, hexec, ht⟩ := act_switch (f := panicRise p 0 tx) ha
    have hport : t.dport p = { fifoAt s p 0 tx (s.dport p) with underrun := satInc 32 (s.dport p).underrun } := by
      show t.mem.ports.getD p {} = _
      rw [ht.mem, hempty]
      show (updDport p _ (updDport p _ (fresh s))).dport p = _
      rw [dport_updDport, if_pos ⟨rfl, by omega⟩, dport_updDport, if_pos ⟨rfl, by omega⟩]
      rfl
    refine ⟨t, hexec, ?_, ?_, ?_, ?_, ?_⟩
    · rw [ht.mem, hempty]
    · rw [hport]
    · rw [hport]; rfl
    · rw [ht.mem, hempty]; rfl
    · rw [ht.kept, hempty]; rfl
  case clean =>
    intro p a tx q s ha hp hawake
    subst hp
    exact act_becomes ha (dramReadDone_clean (s := fresh s) (by decide) hawake)
  case poisoned =>
    intro a tx s ha hawake hnew
    exact act_becomes ha (dramReadDone_poisons (s := fresh s) hawake hnew)
  case status =>
    intro r s ha hon hdue hr hup hat hn
    exact act_becomes_sent ha (ringStatus_first (s := fresh s) hon hdue hr hup hat hn)
  case orphan =>
    intro r d s ha hr hon hd hup hmode hown hfirst hopen hgate hpause
    refine act_becomes_sent ha ?_
    rw [txRingPoll_serves (s := fresh s) hr hon (by rw [fresh_dataPlane, hd]) hup hmode,
      txRing_orphan (s := fresh s) hown hfirst hopen, purgeGated_none (by exact hgate), pauseAll_none (by exact hpause)]
    rfl
  case poll =>
    intro r n ds s ha hr hon hd hup hmode hn hne
    obtain ⟨t, hexec, ht⟩ := act_switch (f := txRingPoll r ds) ha
    have hface : Ring.face (t.ring r) = faceWritten n (Ring.face (s.ring r)) := by
      show ringFaces t r = _
      rw [ringFaces_of (congrArg MemState.rings ht.mem), txRingPoll_serves (s := fresh s) hr hon (by rw [fresh_dataPlane, hd]) hup hmode,
        ringFaces_of ((pauseAll_rings _).trans (purgeGated_rings _)), txRing_face, ← hn]
      rfl
    unfold faceWritten at hface
    rw [if_neg hne] at hface
    exact ⟨t, hexec, congrArg (·.1) hface, congrArg (·.2.2) hface⟩
  case burst =>
    intro k s ha hk hawake hset hbusy hstage hbeat hleft hslot hacc hpanic hruns
    have hmade := refreshBurst_past (delay := 0) (s := fresh s) hk hawake (by rw [fresh_boot]; omega) hset hbeat hleft hpanic hbusy hslot hacc
    refine act_becomes_sent ha ((burstAndTrain_idle (by rw [hmade]; exact hruns)).trans (hmade.trans ?_))
    rfl
  case counted =>
    intro k delay n ok s ha hk hawake hset hstage hn hleft
    subst hn
    obtain ⟨t, hexec, ht⟩ := act_switch (f := burstAndTrain k delay ok) ha
    have hmade := refreshBurst_due (delay := delay) (s := fresh s) hk hawake hstage hset hleft
    have hchan : t.channel k = burstMade s k ((atBurst k delay (fresh s)).channel k) := by
      show t.mem.channels.getD k {} = _
      rw [ht.mem, burstAndTrain_channels, hmade]
      exact (channel_updChannel ..).trans (if_pos ⟨rfl, hk⟩)
    exact ⟨t, hexec, congrArg DramChannel.burst hchan, congrArg DramChannel.burstBeat hchan⟩

end Sys2Proof.Proofs
end
